-- ==== Sys2Proof/Word.lean ====
section
/-! DEFINITION. The word types of the DVM-7216 and their plainest arithmetic (00_scope.md: R6, R10, R17). -/

namespace Sys2Proof

/-- A 32-bit register (R10). -/
abbrev Word := BitVec 32

/-- A byte of device memory. -/
abbrev Byte := BitVec 8

/-- 2 to the 40th, the modulus of the native word. -/
abbrev two40 : Nat := 1099511627776

/-- 2 to the 32nd. -/
abbrev two32 : Nat := 4294967296

/-- The signed reading of the low `w` bits of a number. -/
def signed (w n : Nat) : Int :=
  let m := n % 2 ^ w
  if m < 2 ^ (w - 1) then (m : Int) else (m : Int) - (2 ^ w : Nat)

/-- The `w`-bit two's complement pattern of an integer. -/
def unsigned (w : Nat) (i : Int) : Nat := (i % (2 ^ w : Nat)).toNat

end Sys2Proof
end

