-- ==== Sys2Proof/Syntax.lean ====
section
/-! DEFINITION. The commands of the module: one constructor per row of the table of operations and events, with the
row’s operands; and the structures operands are made of. -/

namespace Sys2Proof

/-- How an RMP message arrives (R354, R562): the service port, the mailbox, the management port, a network port. -/
inductive Via where
  | service | mailbox | mgmt | net
  deriving DecidableEq, Repr

/-- The header of an RMP request: its way in, source address and port as one number, SEQ, NO_REPLY (R353). -/
structure Req where
  via : Via
  addr : Nat
  seq : Nat
  noReply : Bool
  deriving DecidableEq, Repr

/-- A microcode patch container of a boot image (R539, R540): bytes 0 to 11, whether its GCM tag holds, and the decrypted patch. -/
structure Patch where
  header : List Nat
  tagOk : Bool
  plain : List Nat
  deriving DecidableEq, Repr

/-- What a boot image slot holds, as customs and CC0/CC1 judge it (R82 to R88). The image's format is Lysteset's and is
not in the manual. -/
structure BootImg where
  version : Nat
  svn : Nat
  root : Nat
  /-- the signature verifies against a firmware key certificate that chains to root key slot `root` -/
  sigOk : Bool
  /-- SHA-256 of the image -/
  digest : Nat
  /-- patch containers, in image order -/
  patches : List Patch
  deriving DecidableEq, Repr


/-- How the hardware fares in one run of the start-up sequence (R77): what its steps find. -/
structure StartUp where
  /-- step 1: self-test and fuse parity hold -/
  selfTest : Bool
  /-- step 1: the seal loop reads open -/
  loopOpen : Bool
  /-- the carrier flash is present and answers (R641) -/
  carrierOk : Bool
  /-- step 3: control-core pairs that fail the lockstep self-check, at each attempt -/
  pairsFail : List (List Nat)
  /-- step 4: units whose control-store readback fails (R542) -/
  readback : List Nat
  /-- step 5: GDDR6 ports that fail training, and the calibration values built: pin × 32 + element, value (R443, R459) -/
  portsFail : List Nat
  vals : List (Nat × Nat)
  /-- the step, 7 or 9, that the firmware of slot A and of slot B never reaches or ends; 0 for none (R88) -/
  stallA : Nat
  stallB : Nat
  /-- step 7: network ports that come up, with their FEC lock and speed code, and enabled display outputs that do not (R77) -/
  links : List (Nat × Bool × Nat)
  outsFail : List Nat
  deriving DecidableEq, Repr


/-- A tagged coding block (R620): its place, gantry, the five stamps or those reached, and whether the tag ended before T4. -/
structure TagOut where
  column : Nat
  row : Nat
  gantry : Nat
  stamps : List Nat
  abandoned : Bool
  deriving DecidableEq, Repr

/-- The coding blocks a picture begins, and for each LFSR hit among them, in order, the tagged block, or none where a tagged
block was in flight (R619). -/
structure TagRun where
  blocks : Nat
  hits : List (Option TagOut)
  deriving DecidableEq, Repr

/-! What a coded picture says by the standard of its stream (R162 to R165, R193 to R208). The manual leaves the grammar and the
entropy coders to the standards: the operands name the syntax, and the model draws the consequences. -/

/-- Profiles, as the tables of R162 to R165 name them; `other` is any profile none of them lists. -/
inductive Profile where
  | mpeg2Simple | mpeg2Main
  | avcConstrainedBaseline | avcBaseline | avcMain | avcHigh | avcHigh10
  | hevcMain | hevcMain10 | hevcMainStill | hevcMain422x10 | hevcMain444 | hevcMain444x10 | hevcMonochrome
  | hevcScreenMain | hevcScreenMain10 | hevcScreenMain444 | hevcScreenMain444x10
  | av1Main | av1High
  | other
  deriving DecidableEq, Repr

/-- A parameter set, with the sets it refers to, or a sequence header: what R155, R160 to R165 and R206 look at. -/
structure ParamSet where
  id : Nat
  /-- codec of R153; another value for a variant such as MPEG-1 -/
  codec : Nat
  profile : Profile
  /-- level_idc, general_level_idc, seq_level_idx, or profile_and_level_indication (R182) -/
  level : Nat
  width : Nat
  height : Nat
  chroma : Nat
  depthY : Nat
  depthC : Nat
  /-- luma lines of a block row: CTB, superblock or macroblock row (R200) -/
  blockRow : Nat
  /-- entropy_coding_mode_flag 0 in AVC: CAVLC (R159, R214) -/
  cavlc : Bool
  /-- qpprime_y_zero_transform_bypass_flag, num_slice_groups_minus1 > 0 (R163) -/
  lossless : Bool
  sliceGroups : Bool
  /-- extended_precision_processing_flag, cabac_bypass_alignment_enabled_flag, palette_max_size, predictor entries (R164) -/
  extendedPrecision : Bool
  bypassAlignment : Bool
  paletteMax : Nat
  palettePred : Nat
  /-- a sequence scalable extension is present (R162) -/
  scalable : Bool
  /-- operating_point_idc of each operating point (R165) -/
  opIdc : List Nat
  /-- MaxFrameNum (R206) -/
  maxFrameNum : Nat
  deriving DecidableEq, Repr

/-- 64 luma columns of a block row, in decoding order: block row, column in 64-sample units, entries the tally makes of it, bins
or symbols, and the byte position at which its coded data ends. -/
structure Cell where
  row : Nat
  col : Nat
  entries : Nat
  symbols : Nat
  pos : Nat
  deriving DecidableEq, Repr

/-- Kinds of slice; `part` stands for a tile or wavefront substream. -/
inductive SegKind where
  | i | p | b | sp | si | part
  deriving DecidableEq, Repr

/-- A slice, tile or wavefront substream (R194): the tally leaf that decodes it, tile and slice it lies in, its cells, and the byte
positions of its first syntax element out of range and of its first mode outside the tables. -/
structure Segment where
  kind : SegKind
  leaf : Nat
  tile : Nat
  slice : Nat
  cells : List Cell
  err : Option Nat
  tool : Option Nat
  deriving DecidableEq, Repr

/-- Kinds of unit in a bitstream buffer. -/
inductive UnitKind where
  | params (p : ParamSet)
  | segment (g : Segment)
  /-- AVC data partition, NAL unit types 2 to 4 (R163) -/
  | partition
  /-- AV1 tile list OBU; Annex B length-delimited carriage (R165) -/
  | tileList
  | annexB
  /-- NAL unit types 14, 15 and 20, NAL units with nuh_layer_id > 0 (R163, R164) -/
  | otherLayer
  /-- a redundant coded picture (R163) -/
  | redundant
  /-- the five kinds of R166 -/
  | unusedSei | reservedType | filler | delimiter | endOfSequence
  /-- a unit used with the picture: SEI and metadata of R165, R178, R199 and R206 -/
  | used
  deriving DecidableEq, Repr

/-- A unit: where it begins in the buffer, and the temporal and spatial layer of an OBU with an extension header. -/
structure CodedUnit where
  pos : Nat
  kind : UnitKind
  ext : Option (Nat × Nat)
  deriving DecidableEq, Repr

/-- What a picture is for joining and recovery (R205, R206): an MPEG-2 I picture, an MPEG-2 B picture, an AVC IDR picture, an HEVC
IRAP picture (`lead` for a CRA or BLA), an HEVC RASL picture, an AV1 key frame (`shown` with show_frame 1 or shown by
show_existing_frame), or any other. -/
inductive PicKind where
  | mpegI (seqHeader closedGop : Bool)
  | mpegB
  | idr
  | irap (lead : Bool)
  | rasl
  | key (shown : Bool)
  | plain
  deriving DecidableEq, Repr

/-- A reference a picture names: its signalled output order, or the slot of REF_TABLE where the stream signals none (R208). -/
structure RefUse where
  order : Option Int
  slot : Nat
  deriving DecidableEq, Repr

/-- An inter block of 8 × 8 luma samples: its vector in eighths, the reference it names by place in the list, a second prediction,
and whether it has no residual (R229). -/
structure BlockMv where
  x : Int
  y : Int
  ref : Nat
  second : Option (Int × Int × Nat)
  skip : Bool
  deriving DecidableEq, Repr

/-- One coded picture as its tally reads it. -/
structure CodedPic where
  units : List CodedUnit
  /-- the parameter set it activates -/
  params : Nat
  kind : PicKind
  /-- STRUCT of R189, output order, frame_num or POC -/
  struct : Nat
  order : Int
  num : Nat
  isRef : Bool
  /-- REF_TABLE after the picture: 0 empty, 1 this picture, k + 2 the entry that stood at k -/
  slots : List Nat
  /-- widths of tile columns and heights of tile rows, luma -/
  tileCols : List Nat
  tileRows : List Nat
  refs : List RefUse
  /-- each 8 × 8 luma block in raster order; none for intra -/
  motion : List (Option BlockMv)
  /-- count of a recovery point SEI (R206) -/
  recovery : Option Nat
  /-- decoded picture hash SEI: type and value (R199) -/
  hash : Option (Nat × Nat)
  /-- HDR payloads: FLAGS bits 3:2 and the 28 bytes (R189) -/
  hdrFlags : Nat
  hdr : List Nat
  /-- film grain parameters present (R198) -/
  grain : Bool
  tags : TagRun
  deriving DecidableEq, Repr

/-- What reconstructing the decoded blocks of a picture comes to by its stream’s standard (R196): the samples of each plane in raster
order, its row context, and the grain-synthesised samples. -/
structure PicOut where
  planes : List (List Nat)
  context : List Nat
  grainPlanes : List (List Nat)
  deriving DecidableEq, Repr

/-- A commit region of an encoded row (R257): end column in 64-sample units, the coded bits of its units by complexity class (inter,
stripe, intra), its entries, and its bits and entries once salvage coded. -/
structure RegionOut where
  stop : Nat
  bits : List Nat
  entries : Nat
  salvBits : Nat
  salvEntries : Nat
  deriving DecidableEq, Repr

/-- One row of an encoded picture (R279): used_est when its quantiser is chosen, and its regions. -/
structure RowOut where
  usedEst : Nat
  regions : List RegionOut
  deriving DecidableEq, Repr

/-- What mode decision picks for a coding block: intra in DC, SMOOTH or another mode; palette; intra block copy with a displacement in
whole samples; inter from a reference with the vector of one of its search blocks, without residual or with (R226, R236 to R251). -/
inductive CodMode where
  | dc | smooth | intra
  | palette
  | copy (x y : Int)
  | inter (ref seed : Nat) (skip : Bool)
  deriving DecidableEq, Repr

/-- A coding block: place, size, mode, and whether it uses adaptive colour transform (R242). -/
structure CodBlk where
  x : Nat
  y : Nat
  size : Nat
  mode : CodMode
  act : Bool
  deriving DecidableEq, Repr

/-- What coding one picture comes to where the manual leaves the choice to the gantry or to the codec’s standard: its rows, its coding
blocks in coding order by mode decision, the mean quantiser over them, the samples before and after in-loop filtering, and the row
context. -/
structure EncOut where
  rows : List RowOut
  blocks : List CodBlk
  qpMean : Nat
  raw : List (List Nat)
  planes : List (List Nat)
  context : List Nat
  tags : TagRun
  deriving DecidableEq, Repr

/-- An IP datagram or frame as it arrives at a port: what its headers say, and what its payload yields by the formats of
R338. `proto`: 0 UDP, 1 PTP, 2 ARP, neighbour discovery or ICMP, 3 anything else. -/
structure Datagram where
  port : Nat
  proto : Nat
  vlan : Option Nat
  ipv6 : Bool
  dst : Nat
  src : Nat
  dstUdp : Nat
  srcUdp : Nat
  fragment : Bool
  /-- bytes of the frame, IP length, whether the FCS holds, FEC codewords corrected and uncorrectable in it -/
  frame : Nat
  len : Nat
  fcsOk : Bool
  fecCorr : Nat
  fecBad : Nat
  /-- RTP sequence number, timestamp, marker and extension elements (ID, data) -/
  seq : Nat
  ts : Nat
  marker : Bool
  elems : List (Nat × List Nat)
  /-- the RTP payload, or the UDP payload where there is no RTP -/
  data : List Nat
  deriving DecidableEq, Repr

/-- What the breakwater measures each millisecond (R420): voltages and currents of inputs A and B, input power, hold-up
voltage, rail power; and the load on P3V3_OUT at that time, mA (R636). -/
structure PowerReading where
  mvA : Int
  maA : Nat
  mvB : Int
  maB : Nat
  mw : Nat
  holdup : Nat
  rail : Nat
  p3v3 : Nat
  deriving DecidableEq, Repr


/-- A PCIe configuration request: a read, or a write that leaves these control bits of the configuration space at these
values (R550, R568, R575). -/
structure ConfigReq where
  isWrite : Bool
  /-- byte offset of the word read -/
  reg : Nat
  bme : Bool
  msixEn : Bool
  msixMaskAll : Bool
  pmeEn : Bool
  relaxed : Bool
  deriving DecidableEq, Repr

/-- A command: a register or bus access, a protocol message, a job step, a pin or device event. -/
inductive Instr where
  /-- REGISTER_WRITE (R12) -/
  | registerWrite (agent : Nat) (offset : Nat) (value : Nat)
  /-- REFUSED_REGISTER_ACCESS (R11) -/
  | refusedRegisterAccess (agent : Nat) (offset : Nat) (isWrite : Bool)
  /-- RC_READ (R12) -/
  | rcRead (agent : Nat) (offset : Nat)
  /-- PAIR_LO_WRITE (R18) -/
  | pairLoWrite (agent : Nat) (offset : Nat) (value : Nat)
  /-- PAIR_HI_WRITE (R18) -/
  | pairHiWrite (agent : Nat) (offset : Nat) (value : Nat)
  /-- PAIR_LO_READ (R20) -/
  | pairLoRead (agent : Nat) (offset : Nat)
  /-- STAGE_HOLD_WRITE (R24) -/
  | stageHoldWrite (agent : Nat) (value : Nat)
  /-- POWER_APPLIED (R77) -/
  | powerApplied (isB : Bool) (mv : Int)
  /-- RAIL_RETRY (R77) -/
  | railRetry
  /-- RESET_RELEASE (R77) -/
  | resetRelease (start : StartUp)
  /-- MOD_RESET (R79) -/
  | modReset (start : StartUp)
  /-- POWER_REMOVED (R79) -/
  | powerRemoved
  /-- BOOT_WATCHDOG_EXPIRY (R88) -/
  | bootWatchdogExpiry (start : StartUp)
  /-- PTP_WAIT_EXPIRY (R77) -/
  | ptpWaitExpiry
  /-- HEATER_OFF (R653) -/
  | heaterOff
  /-- ARM_CHANGE (R96) -/
  | armChange (armed : Bool)
  /-- PRESENT_PRESS (R97) -/
  | presentPress
  /-- PRESENCE_WINDOW_EXPIRY (R97) -/
  | presenceWindowExpiry
  /-- BTN_STUCK (R97) -/
  | btnStuck
  /-- SEAL_BREAK (R101) -/
  | sealBreak
  /-- GET (R356) -/
  | get (req : Req) (body : List Nat)
  /-- SET (R356) -/
  | set (req : Req) (body : List Nat)
  /-- CERT_READ (R92) -/
  | certRead (req : Req) (body : List Nat)
  /-- QUOTE (R93) -/
  | quote (req : Req) (body : List Nat)
  /-- LOG_READ (R356) -/
  | logRead (req : Req) (body : List Nat)
  /-- MEM_READ (R356) -/
  | memRead (req : Req) (body : List Nat) (data : List Nat)
  /-- MEM_WRITE (R356) -/
  | memWrite (req : Req) (body : List Nat)
  /-- STREAM_START (R408) -/
  | streamStart (req : Req) (body : List Nat)
  /-- STREAM_STOP (R408) -/
  | streamStop (req : Req) (body : List Nat)
  /-- LAYOUT_FLIP (R356) -/
  | layoutFlip (req : Req) (body : List Nat)
  /-- STORM (R359) -/
  | storm (req : Req) (body : List Nat)
  /-- STORM_FRAGMENT_EXPIRY (R359) -/
  | stormFragmentExpiry (id : Nat)
  /-- SND_CTRL (R622) -/
  | sndCtrl (req : Req) (body : List Nat)
  /-- FLASH_OPEN (R110) -/
  | flashOpen (req : Req) (body : List Nat)
  /-- FLASH_WRITE (R358) -/
  | flashWrite (req : Req) (body : List Nat)
  /-- FLASH_CLOSE (R110) -/
  | flashClose (req : Req) (body : List Nat) (start : StartUp)
  /-- FLASH_WRITE_TIMEOUT (R110) -/
  | flashWriteTimeout
  /-- FW_COMMIT (R84) -/
  | fwCommit (req : Req) (body : List Nat)
  /-- FACTORY_RESET (R112) -/
  | factoryReset (req : Req) (body : List Nat) (start : StartUp)
  /-- UCW_ENABLE (R287) -/
  | ucwEnable (req : Req) (body : List Nat)
  /-- SAFE_CLEAR (R603) -/
  | safeClear (req : Req) (body : List Nat) (start : StartUp)
  /-- SPARE_DISABLE (R358) -/
  | spareDisable (req : Req) (body : List Nat)
  /-- SEAL_CLEAR (R101) -/
  | sealClear (req : Req) (body : List Nat)
  /-- TIDE_START (R131) -/
  | tideStart (late : List (Nat × PicOut))
  /-- TIDE_OUT_FALL (R133) -/
  | tideOutFall
  /-- PPS_OUT_RISE (R133) -/
  | ppsOutRise
  /-- PPS_OUT_FALL (R133) -/
  | ppsOutFall
  /-- TIDE_CAPTURE (R118) -/
  | tideCapture (agent : Nat) (value : Nat)
  /-- TIDE_RATE_FRAC_COMMIT (R116) -/
  | tideRateFracCommit (agent : Nat) (value : Nat)
  /-- TIDE_REBASE (R117) -/
  | tideRebase
  /-- PTP_SYNC_RX (R138) -/
  | ptpSyncRx (port : Nat) (offset : Int)
  /-- PTP_ANNOUNCE_RX (R141) -/
  | ptpAnnounceRx (port : Nat) (id : Nat) (portNumber : Nat) (steps : Nat) (result : Nat)
  /-- MASTER_LOST (R138) -/
  | masterLost
  /-- PPS_IN_EDGE (R146) -/
  | ppsInEdge
  /-- PPS_IN_LOST (R138) -/
  | ppsInLost
  /-- STEP_ACCEPT (R147) -/
  | stepAccept (agent : Nat)
  /-- SLEW_ACCEPT (R147) -/
  | slewAccept (agent : Nat)
  /-- TIDE_ADJ_COMMIT (R149) -/
  | tideAdjCommit (agent : Nat) (value : Nat)
  /-- HOLDOVER_EXPIRED (R143) -/
  | holdoverExpired
  /-- REF10M_LOSS (R145) -/
  | ref10mLoss
  /-- REF10M_RETURN (R145) -/
  | ref10mReturn
  /-- ENTROPY_DECODE (R193) -/
  | entropyDecode (unit : Nat) (pic : CodedPic)
  /-- RECONSTRUCT (R196) -/
  | reconstruct (unit : Nat) (out : PicOut)
  /-- DECODE_START (R187) -/
  | decodeStart (unit : Nat)
  /-- DECODE_STOP (R213) -/
  | decodeStop (unit : Nat)
  /-- DECODE_READ_STATUS (R185) -/
  | decodeReadStatus (unit : Nat)
  /-- FLUSH (R185) -/
  | flush (unit : Nat)
  /-- REFRESH_REQUEST_REPEAT (R211) -/
  | refreshRequestRepeat (ctx : Nat)
  /-- ENCODE (R220) -/
  | encode (unit : Nat) (out : EncOut)
  /-- ENTROPY_ENCODE (R220) -/
  | entropyEncode (unit : Nat) (data : List Nat)
  /-- ENCODE_START (R219) -/
  | encodeStart (unit : Nat)
  /-- ENCODE_STOP (R262) -/
  | encodeStop (unit : Nat)
  /-- ENCODE_READ_STATUS (R220) -/
  | encodeReadStatus (unit : Nat)
  /-- FORCE_SWEEP (R255) -/
  | forceSweep (unit : Nat)
  /-- RESTART (R252) -/
  | restart (unit : Nat)
  /-- MODEL_READ (R275) -/
  | modelRead (unit : Nat)
  /-- MODEL_SEED (R275) -/
  | modelSeed (unit : Nat)
  /-- UCW_OVERRUN (R291) -/
  | ucwOverrun (pilot : Nat)
  /-- PL_UCW_REARM (R291) -/
  | plUcwRearm (agent : Nat) (pilot : Nat) (value : Nat)
  /-- COMPOSE (R300). `host` is what the host has in its memory where the lane reads it through the outbound window: runs of bytes,
  each from a device address of the window (R33, R557; assumption 54). -/
  | compose (unit : Nat) (host : List (Nat × List Nat))
  /-- CMP_LAYOUT_FLIP (R297) -/
  | cmpLayoutFlip (agent : Nat) (value : Nat)
  /-- DISPLAY_VSYNC (R322) -/
  | displayVsync (output : Nat)
  /-- HPD_LOW (R323) -/
  | hpdLow (output : Nat)
  /-- IRQ_HPD (R323) -/
  | irqHpd (output : Nat) (linkLost : Bool) (trains : Bool)
  /-- HPD_ASSERT (R323) -/
  | hpdAssert (output : Nat) (lanes : Nat) (rate : Nat) (diag : Nat) (trains : Bool)
  /-- LINK_TRAINING_RETRY (R323) -/
  | linkTrainingRetry (output : Nat) (trains : Bool)
  /-- AUX_TIMEOUT (R323) -/
  | auxTimeout (output : Nat)
  /-- LANE_FAULT (R324) -/
  | laneFault (output : Nat) (lane : Nat) (kind : Nat) (trains : Bool)
  /-- NET_LINK_CHANGE (R330) -/
  | netLinkChange (port : Nat) (up : Bool) (fec : Bool) (localFault : Bool) (remoteFault : Bool) (speed : Nat)
  /-- INGRESS_DATAGRAM (R333) -/
  | ingressDatagram (d : Datagram)
  /-- MERGE_WINDOW_EXPIRY (R337) -/
  | mergeWindowExpiry (classifier : Nat)
  /-- NEIGHBOUR_REQUEST_RX (R333) -/
  | neighbourRequestRx (port : Nat) (kind : Nat)
  /-- FEEDBACK_RX (R352) -/
  | feedbackRx (payload : List Nat)
  /-- TRANSMIT (R344) -/
  | transmit (unit : Nat) (times : List Nat)
  /-- FEEDER_PACKET (R361) -/
  | feederPacket (port : Nat) (bytes : List Nat) (sync : List Nat) (nextSync : Bool)
  /-- DEMUX_READ (R339) -/
  | demuxRead (port : Nat)
  /-- FEEDN_DATA_READ (R365) -/
  | feednDataRead (agent : Nat) (port : Nat)
  /-- FEEDER_SILENT (R365) -/
  | feederSilent (port : Nat)
  /-- HOLD_SHORT (R367) -/
  | holdShort (port : Nat)
  /-- FEEDER_PIN_TEST (R367) -/
  | feederPinTest (port : Nat) (pins : Nat)
  /-- HM_DOORBELL (R377) -/
  | hmDoorbell (agent : Nat) (queue : Nat) (index : Nat)
  /-- QC_READ (R381) -/
  | qcRead (agent : Nat)
  /-- QC_WRITE (R381) -/
  | qcWrite (agent : Nat)
  /-- QC_ENABLE (R382) -/
  | qcEnable (agent : Nat)
  /-- QC_DISABLE (R409) -/
  | qcDisable (agent : Nat)
  /-- QCTX_LOAD (R396) -/
  | qctxLoad (queue : Nat)
  /-- DISPATCH_DEADLINE_EXPIRY (R387) -/
  | dispatchDeadlineExpiry (queue : Nat) (index : Nat)
  /-- BOOK (R407) -/
  | book (agent : Nat) (ctx : Nat)
  /-- WITHDRAW (R407) -/
  | withdraw (agent : Nat) (ctx : Nat)
  /-- BOOK_OUTPUT (R407) -/
  | bookOutput (agent : Nat) (output : Nat)
  /-- HM_GATE_SWAP (R399) -/
  | hmGateSwap (agent : Nat) (list : Nat) (value : Nat)
  /-- GATE_LIST_TAKEOVER (R399) -/
  | gateListTakeover (list : Nat)
  /-- GATE_ENTRY_CHANGE (R398) -/
  | gateEntryChange (list : Nat)
  /-- UNIT_ENABLE (R54) -/
  | unitEnable (agent : Nat) (unit : Nat)
  /-- UNIT_DISABLE (R47) -/
  | unitDisable (agent : Nat) (unit : Nat) (halt : Bool)
  /-- STOP_MODE_HALT (R47) -/
  | stopModeHalt (agent : Nat) (unit : Nat)
  /-- SPARE_SET (R47) -/
  | spareSet (agent : Nat) (unit : Nat)
  /-- SPARE_CLEAR (R50) -/
  | spareClear (agent : Nat) (unit : Nat)
  /-- GROUP_CTRL_WRITE (R55) -/
  | groupCtrlWrite (agent : Nat) (unit : Nat) (value : Nat)
  /-- QUAY_WATERMARK_WRITE (R75) -/
  | quayWatermarkWrite (agent : Nat) (offset : Nat) (value : Nat)
  /-- INPUT_STATE_CHANGE (R415) -/
  | inputStateChange (isB : Bool) (mv : Int)
  /-- EFUSE_TRIP (R416) -/
  | efuseTrip (isB : Bool)
  /-- EFUSE_RETRY (R416) -/
  | efuseRetry (isB : Bool) (fault : Bool) (mv : Int)
  /-- SINGLE_FEED (R418) -/
  | singleFeed (isB : Bool)
  /-- HOLDUP_EXHAUSTED (R419) -/
  | holdupExhausted
  /-- POWER_SAMPLE (R420) -/
  | powerSample (r : PowerReading)
  /-- EFFICIENCY_UPDATE (R426) -/
  | efficiencyUpdate (eff : Nat) (fixed : Nat)
  /-- TEMPERATURE_SAMPLE (R423) -/
  | temperatureSample (bases : List Int) (dies : List Int) (ports : List (Nat × Int))
  /-- GOVERNOR_RECHECK (R432) -/
  | governorRecheck
  /-- POWER_WINDOW (R434) -/
  | powerWindow (mw : Nat)
  /-- PWR_COEF_RESET (R430) -/
  | pwrCoefReset (agent : Nat) (value : Nat)
  /-- CLOCK_GATE (R435) -/
  | clockGate (unit : Nat)
  /-- UNIT_WAKE (R436) -/
  | unitWake (unit : Nat)
  /-- DEEP_GATE_WAKE (R436) -/
  | deepGateWake (unit : Nat)
  /-- SPAD_BANK_RETENTION (R438) -/
  | spadBankRetention (gantry : Nat) (bank : Nat)
  /-- REFRESH_DUE (R450) -/
  | refreshDue (port : Nat) (channel : Nat) (bank : Nat) (queued : Bool)
  /-- SELF_REFRESH_ENTRY (R451) -/
  | selfRefreshEntry (port : Nat)
  /-- EDC_FAIL (R452) -/
  | edcFail (agent : Nat) (addr : Nat) (isWrite : Bool) (fails : Nat) (toDest : Bool)
  /-- PREDICT_WINDOW (R454) -/
  | predictWindow (port : Nat) (reissues : Nat)
  /-- SCRUB_READ (R458) -/
  | scrubRead (errs : List (Nat × Nat))
  /-- CALIBRATION_SESSION (R460) -/
  | calibrationSession (port : Nat) (vals : List (Nat × Nat))
  /-- MIGRATION_COPY_DONE (R463) -/
  | migrationCopyDone
  /-- MIGRATION_DRAIN_DONE (R463) -/
  | migrationDrainDone
  /-- MEM_MIG_FORCE (R462) -/
  | memMigForce (agent : Nat) (value : Nat)
  /-- PORT_LOST (R467) -/
  | portLost (port : Nat)
  /-- INPLACE_CAL_STEP (R468) -/
  | inplaceCalStep (port : Nat) (last : Bool) (vals : List (Nat × Nat))
  /-- ALLOC (R484) -/
  | alloc (agent : Nat) (owner : Nat) (pool : Nat) (cls : Nat)
  /-- FREE (R484) -/
  | free (agent : Nat) (addr : Nat)
  /-- RELEASE (R486) -/
  | release (agent : Nat) (addr : Nat)
  /-- SHARE (R486) -/
  | share (agent : Nat) (addr : Nat)
  /-- TRANSFER (R486) -/
  | transfer (agent : Nat) (addr : Nat) (owner : Nat)
  /-- POOL_ENABLE (R477) -/
  | poolEnable (agent : Nat) (pool : Nat) (value : Nat)
  /-- POOL_DISABLE (R478) -/
  | poolDisable (agent : Nat) (pool : Nat) (value : Nat)
  /-- THREADED (R483) -/
  | threaded (pool : Nat)
  /-- RUN_PROGRAM (R497) -/
  | runProgram (unit : Nat)
  /-- MOVE (R503) -/
  | move (unit : Nat)
  /-- LOOP (R508) -/
  | loop (unit : Nat)
  /-- LT_WAIT (R509) -/
  | ltWait (unit : Nat)
  /-- LT_WAIT_SATISFIED (R509) -/
  | ltWaitSatisfied (unit : Nat)
  /-- WAIT_TIMEOUT (R509) -/
  | waitTimeout (unit : Nat)
  /-- SIGNAL (R511) -/
  | signal (unit : Nat)
  /-- BURST_COMPLETE (R513) -/
  | burstComplete (unit : Nat) (err : Bool) (beat : Nat) (data : List Nat)
  /-- LT_FLAGS_SET (R510) -/
  | ltFlagsSet (agent : Nat) (value : Nat)
  /-- NOP (R526) -/
  | nop (unit : Nat) (err : Nat)
  /-- MOV (R526) -/
  | mov (unit : Nat) (err : Nat)
  /-- LDI (R526) -/
  | ldi (unit : Nat) (err : Nat)
  /-- SHI (R526) -/
  | shi (unit : Nat) (err : Nat)
  /-- ADD (R526) -/
  | add (unit : Nat) (err : Nat)
  /-- SUB (R526) -/
  | sub (unit : Nat) (err : Nat)
  /-- AND (R526) -/
  | and (unit : Nat) (err : Nat)
  /-- OR (R526) -/
  | or (unit : Nat) (err : Nat)
  /-- XOR (R526) -/
  | xor (unit : Nat) (err : Nat)
  /-- MIN (R526) -/
  | min (unit : Nat) (err : Nat)
  /-- MAX (R526) -/
  | max (unit : Nat) (err : Nat)
  /-- SHL (R526) -/
  | shl (unit : Nat) (err : Nat)
  /-- SHR (R526) -/
  | shr (unit : Nat) (err : Nat)
  /-- SAR (R526) -/
  | sar (unit : Nat) (err : Nat)
  /-- MUL (R526) -/
  | mul (unit : Nat) (err : Nat)
  /-- MULH (R526) -/
  | mulh (unit : Nat) (err : Nat)
  /-- DIV (R526) -/
  | div (unit : Nat) (err : Nat)
  /-- ADDI (R526) -/
  | addi (unit : Nat) (err : Nat)
  /-- CMP (R526) -/
  | cmp (unit : Nat) (err : Nat)
  /-- CMPI (R526) -/
  | cmpi (unit : Nat) (err : Nat)
  /-- LD (R527) -/
  | ld (unit : Nat) (err : Nat) (data : Nat)
  /-- ST (R527) -/
  | st (unit : Nat) (err : Nat)
  /-- BR (R526) -/
  | br (unit : Nat) (err : Nat)
  /-- CALL (R526) -/
  | call (unit : Nat) (err : Nat)
  /-- RET (R526) -/
  | ret (unit : Nat) (err : Nat)
  /-- WAIT (R529) -/
  | wait (unit : Nat) (err : Nat) (ready : Bool)
  /-- WAIT_SATISFIED (R529) -/
  | waitSatisfied (unit : Nat)
  /-- STEP (R526) -/
  | step (unit : Nat) (err : Nat)
  /-- COMMIT (R530) -/
  | commit (unit : Nat) (err : Nat)
  /-- ISSUE (R526) -/
  | issue (unit : Nat) (err : Nat)
  /-- DONE (R533) -/
  | done (unit : Nat) (err : Nat)
  /-- TRAPRET (R537) -/
  | trapret (unit : Nat) (err : Nat)
  /-- EXIT (R546) -/
  | exit (unit : Nat) (err : Nat)
  /-- MICRO_TRAP (R535) -/
  | microTrap (unit : Nat) (cause : Nat)
  /-- PERST_ASSERT (R552) -/
  | perstAssert (asserted : Bool)
  /-- PCIE_LINK_CHANGE (R552) -/
  | pcieLinkChange (up : Bool) (rate : Nat) (width : Nat)
  /-- FLR (R552) -/
  | flr
  /-- D_STATE_CHANGE (R575) -/
  | dStateChange (d3 : Bool)
  /-- BAR2_RESIZE (R554) -/
  | bar2Resize (size : Nat)
  /-- BAR2_WRITE (R555) -/
  | bar2Write (offset : Nat) (bytes : List Nat) (poisoned : Bool)
  /-- BAR2_READ (R555) -/
  | bar2Read (offset : Nat) (len : Nat)
  /-- OUTBOUND_TIMEOUT (R557) -/
  | outboundTimeout (agent : Nat)
  /-- MSIX_UNMASK (R568) -/
  | msixUnmask (vector : Nat)
  /-- MAILBOX_GO (R562) -/
  | mailboxGo (agent : Nat) (value : Nat) (start : StartUp) (data : List Nat)
  /-- SOURCE_EDGE (R563) -/
  | sourceEdge (src : Nat)
  /-- BELL_CLAIM (R569) -/
  | bellClaim (agent : Nat) (target : Nat)
  /-- BELL_COMPLETE (R570) -/
  | bellComplete (agent : Nat) (target : Nat) (value : Nat)
  /-- BELL_SWSET (R564) -/
  | bellSwset (agent : Nat) (word : Nat) (value : Nat)
  /-- BELL_SRC_CFG_WRITE (R573) -/
  | bellSrcCfgWrite (agent : Nat) (src : Nat) (value : Nat)
  /-- HOLD_TIMER_EXPIRY (R574) -/
  | holdTimerExpiry (src : Nat)
  /-- UNIT_FENCE (R588) -/
  | unitFence (unit : Nat) (code : Nat) (access : Nat) (addr : Nat)
  /-- SPARE_TAKEOVER (R590) -/
  | spareTakeover (spare : Nat)
  /-- HANG (R593) -/
  | hang (unit : Nat)
  /-- WATCH_ACK (R586) -/
  | watchAck (agent : Nat) (value : Nat)
  /-- WATCH_FENCE_CLEAR (R594) -/
  | watchFenceClear (agent : Nat) (value : Nat)
  /-- FENCE_SELF_TEST_DONE (R594) -/
  | fenceSelfTestDone (pass : Bool)
  /-- WATCH_SAFE_FORCE (R601) -/
  | watchSafeForce (agent : Nat) (value : Nat)
  /-- SAFE_STATE_ENTRY (R602) -/
  | safeStateEntry
  /-- LOCKSTEP (R596) -/
  | lockstep (pair : Nat)
  /-- CC_LOST_RESET (R596) -/
  | ccLostReset (start : StartUp)
  /-- TIDE_LOST (R601) -/
  | tideLost
  /-- WATCH_SELF (R604) -/
  | watchSelf
  /-- PATH_LOST (R597) -/
  | pathLost (port : Nat)
  /-- SND_SEL_WRITE (R613) -/
  | sndSelWrite (agent : Nat) (source : Nat) (counter : Nat) (value : Nat)
  /-- SND_SAMPLE_CFG_WRITE (R621) -/
  | sndSampleCfgWrite (agent : Nat) (value : Nat)
  /-- SKID_SAMPLE (R618) -/
  | skidSample (column : Nat) (row : Nat) (value : Nat) (busy : Bool)
  /-- I2C_WRITE (R642) -/
  | i2cWrite (bytes : List Nat)
  /-- I2C_READ (R642) -/
  | i2cRead (len : Nat)
  /-- I2C_BUS_RELEASE (R642) -/
  | i2cBusRelease
  /-- HOT_INSERTION (R629) -/
  | hotInsertion (mvA : Int) (mvB : Int)
  /-- COMPLETION_DEADLINE (R348) -/
  | completionDeadline (outs : List (Nat × List Nat))
  /-- SEAL_LOOP_CLOSE (R101) -/
  | sealLoopClose
  /-- BUTTON_RELEASE (R97) -/
  | buttonRelease
  /-- CUSTOMS_LOST (R583) -/
  | customsLost
  /-- HM_LOST (R583) -/
  | hmLost
  /-- CONFIGURATION_REQUEST (R80) -/
  | configurationRequest (c : ConfigReq)
  /-- SINGLE_FEED_CLEARS (R418) -/
  | singleFeedClears (isB : Bool)
  /-- PATH_LOST_ENDS (R597) -/
  | pathLostEnds (port : Nat)
  /-- PTP_MESSAGE_TX (R137) -/
  | ptpMessageTx (kind : Nat) (port : Nat)
  /-- PTP_DELAY_MESSAGE_RX (R137) -/
  | ptpDelayMessageRx (kind : Nat) (port : Nat) (delay : Nat)
  deriving DecidableEq, Repr

end Sys2Proof
end

