-- ==== Sys2Proof/Decode.lean ====
section
/-! DEFINITION. Commands from words. No row of the table of operations and events gives bits (every row's "fields" is empty), so no
word spells a command. -/

namespace Sys2Proof

/-- The command that a word spells: none, since the table gives no bits. -/
def decodeTableWord (_nbits _w : Nat) : Option Instr := none

end Sys2Proof
end

