-- ==== Sys2Proof/Config.lean ====
section
/-! DEFINITION. What one implementation fixes, and the values the manual leaves open: constants with no body, so that
no proof can see what they are. -/

namespace Sys2Proof

/-- The value of the `n`-th draw where the manual leaves a value open (assumption 3). -/
opaque Config.free : Nat → Nat

/-- What the host’s memory holds behind an address of the outbound window, where the module reads a descriptor or a table there
(assumption 54). -/
opaque Config.hostByte : Nat → Nat

/-- The current, mA, to which P3V3_OUT folds back at an overload of this many mA (R636; assumption 81). -/
opaque Config.p3v3Foldback : Nat → Nat

/-- The interpolation filter of a codec’s standard: plane and the two fractions in sixteenths, and 8 × 8 whole samples round the place
(R207, R236; assumption 61). -/
opaque Config.interpolate : Nat → Nat × Nat × Nat → List Nat → Nat

/-- A sample triple Y, Cb, Cr of a COLOUR, full range or not, of a number of bits, as 12-bit non-linear R′G′B′ by the matrix of its
standard, and back (R307, R309; assumption 70). -/
opaque Config.toRgb : Nat × Bool × Nat → Nat × Nat × Nat → Nat × Nat × Nat
opaque Config.fromRgb : Nat × Bool × Nat → Nat × Nat × Nat → Nat × Nat × Nat

/-- R′G′B′ of one COLOUR carried to another by ITU-R BT.2087 and BT.2408 (R307; assumption 70). -/
opaque Config.mapRgb : Nat → Nat → Nat × Nat × Nat → Nat × Nat × Nat

/-- A chroma sample of a subsampled output from the 4 × 4 full-resolution values round it (R301; assumption 70). -/
opaque Config.chromaDown : Nat → List Nat → Nat

/-- A codec’s vector range, and how far beyond a picture it lets a prediction read: codec, width, height, place and size of a block, vector
in eighths (R237; assumption 73). -/
opaque Config.mvInRange : Nat → Nat × Nat → Nat × Nat × Nat → Int × Int → Bool

/-- A codec’s vector predictor for a block, from the vectors of its left, above, above-right and above-left neighbours (R236; assumption
73). -/
opaque Config.mvPredictor : Nat → List (Option (Int × Int)) → Int × Int

/-- AV1’s own constraints on an intra block copy: place, size and displacement (R240; assumption 73). -/
opaque Config.copyInRange : Nat → Nat × Nat × Nat → Int × Int → Bool

/-- The bytes of a NAL unit, SEI message or OBU of a codec, from its syntax elements by name (R176 to R181; assumption 74). -/
opaque Config.unitBytes : Nat → List (String × Int) → List Nat

/-- The bytes of a picture’s slices or tiles, from the elements of its slice or frame header and what was entropy coded (R222;
assumption 74). -/
opaque Config.sliceBytes : Nat → List (String × Int) → List Nat → List Nat

/-- The decoded picture hash of a type over the samples of a picture’s planes (R178, R199; assumption 61). -/
opaque Config.pictureHash : Nat → List (List Nat) → Nat

/-- What PCIe Base 5.0 has a configuration read of the function return, where the manual says no more: word, and a number of times
asked (R550; assumption 80). -/
opaque Config.configSpace : Nat → Nat → BitVec 32

/-- SHA-256 of a byte string, as a 256-bit number, byte 0 lowest (FIPS 180-4; assumption 6). -/
opaque Config.sha256 : List Nat → Nat

/-- The ECDSA signature r and s that customs makes over a digest (R93, R94; assumption 6). -/
opaque Config.sign : Nat → Nat × Nat

/-- Digest of the device attestation public key for a MEAS1 value (R92, R93; assumption 6). -/
opaque Config.attestKey : Nat → Nat

/-- The attestation certificate customs issues for a MEAS1 value, DER bytes (R92; assumption 6). -/
opaque Config.attestCert : Nat → List Nat

/-- Digest of the customs ROM identity and the fuse bytes (R89; assumption 6). -/
opaque Config.romDigest : List Nat → Nat

/-- What customs makes of the bytes of a boot image: none when they are no image. The format is Lysteset’s and is not in the
manual (assumption 6). -/
opaque Config.bootImage : List Nat → Option BootImg

/-- The 8-bit ac_q table of the AV1 specification (R273; assumption 13). -/
opaque Config.av1AcQ : Nat → Nat

/-- transport_stream_id of a flow’s PAT, which the manual does not give (R345; assumption 77). -/
opaque Config.tsId : Nat → Nat

end Sys2Proof
end

