-- ==== Sys2Proof/Machine/Map.lean ====
section
/-! DEFINITION. Sparse data by key, in one canonical form: keys strictly rising, and no entry equal to what an
unlisted key reads as. Registers, memory and every numbered table of the block are kept this way. -/

namespace Sys2Proof.Machine

/-- A sparse table: key and value pairs. -/
abbrev SMap (α : Type) := List (Nat × α)

/-- The value at a key; `d` says what an unlisted key reads as. -/
def SMap.get {α : Type} (d : Nat → α) : SMap α → Nat → α
  | [], k => d k
  | (a, v) :: m, k => if a = k then v else SMap.get d m k

/-- Put a pair in its place, replacing an entry of the same key. -/
def SMap.ins {α : Type} (k : Nat) (v : α) : SMap α → SMap α
  | [] => [(k, v)]
  | (a, w) :: m => if a = k then (k, v) :: m else if k < a then (k, v) :: (a, w) :: m else (a, w) :: SMap.ins k v m

/-- Take every entry of a key away. -/
def SMap.del {α : Type} (k : Nat) : SMap α → SMap α
  | [] => []
  | (a, w) :: m => if a = k then SMap.del k m else (a, w) :: SMap.del k m

/-- Set the value at a key, keeping the canonical form: a value equal to the unlisted one removes the entry. -/
def SMap.set {α : Type} [DecidableEq α] (d : Nat → α) (m : SMap α) (k : Nat) (v : α) : SMap α :=
  if v = d k then SMap.del k m else SMap.ins k v m

/-- Keys strictly rising. -/
def SMap.rising {α : Type} : SMap α → Bool
  | [] => true
  | (a, _) :: m => m.all (fun p => decide (a < p.1)) && SMap.rising m

/-- The canonical form: keys strictly rising and no entry equal to what an unlisted key reads as. -/
def SMap.wf {α : Type} [DecidableEq α] (d : Nat → α) (m : SMap α) : Bool :=
  SMap.rising m && m.all (fun p => decide (p.2 ≠ d p.1))

/-- The keys listed. -/
def SMap.keys {α : Type} (m : SMap α) : List Nat := m.map (fun p => p.1)

end Sys2Proof.Machine
end

