-- ==== Sys2Proof/Machine/Regs.lean ====
section
/-! DEFINITION. The register tables of the manual as data: every register's offset from 0x40_0000_0000 (R38), its
access code (R12), its writable bits, its Reset column (R16), whether only the Etvor image writes it (R37), and its
half of a 40-bit or 64-bit pair (R17, R119). Offsets of unit registers are from the UCB base (R41, R42). -/

namespace Sys2Proof.Machine

/-- Access codes (R12). -/
inductive Acc where
  | rw | rws | ro | wo | w1c | w1s | rc
  deriving DecidableEq, Repr

/-- The half of a pair a register is: 40-bit `_LO`/`_HI` (R17), 48-bit or 64-bit `_W0`/`_W1` (R119). -/
inductive Half where
  | none | lo40 | hi40 | w0 | w1
  deriving DecidableEq, Repr

/-- One row of a register table: `n` registers at `off + i × stride`, repeated `n2` times at `stride2`.
`mask` is the bits a write acts on, `img` says image only (R37). -/
structure RegRow where
  off : Nat
  n : Nat
  stride : Nat
  n2 : Nat
  stride2 : Nat
  acc : Acc
  mask : Nat
  reset : Nat
  img : Bool
  half : Half
  deriving DecidableEq, Repr


/-! ### GLOBAL registers (R39) -/
abbrev Reg.GLOBAL_DEVICE_ID : Nat := 0x0
abbrev Reg.GLOBAL_STEPPING : Nat := 0x4
abbrev Reg.GLOBAL_VARIANT : Nat := 0x8
abbrev Reg.GLOBAL_STAGE_CTRL : Nat := 0x10
abbrev Reg.GLOBAL_BASIN_DIRECT : Nat := 0x14
abbrev Reg.GLOBAL_UNITS_GT_LO : Nat := 0x20
abbrev Reg.GLOBAL_UNITS_GT_HI : Nat := 0x24
abbrev Reg.GLOBAL_UNITS_TL : Nat := 0x28

/-! ### UCB registers (R42) -/
abbrev Reg.UCB_ID : Nat := 0x0
abbrev Reg.UCB_CAPS : Nat := 0x4
abbrev Reg.UCB_CTRL : Nat := 0x8
abbrev Reg.UCB_STATUS : Nat := 0xC
abbrev Reg.UCB_BERTH : Nat := 0x10
abbrev Reg.UCB_PARENT : Nat := 0x14
abbrev Reg.UCB_JOB_PTR_LO : Nat := 0x18
abbrev Reg.UCB_JOB_PTR_HI : Nat := 0x1C
abbrev Reg.UCB_JOB_SEQ : Nat := 0x20
abbrev Reg.UCB_ROUTINE_STATUS : Nat := 0x24
abbrev Reg.UCB_ROUTINE_STEP : Nat := 0x28
abbrev Reg.UCB_FAULT : Nat := 0x2C
abbrev Reg.UCB_IRQ_STATUS : Nat := 0x30
abbrev Reg.UCB_IRQ_ENABLE : Nat := 0x34
abbrev Reg.UCB_POWER : Nat := 0x38
abbrev Reg.UCB_JOBS_DONE : Nat := 0x3C
abbrev Reg.UCB_GRP_CTRL : Nat := 0x40
abbrev Reg.UCB_GRP_STATUS : Nat := 0x44
abbrev Reg.UCB_GRP_MEMBER : Nat := 0x200

/-! ### CUS registers (R113) -/
abbrev Reg.CUS_BOOT_STATUS : Nat := 0x20000
abbrev Reg.CUS_FW_VERSION : Nat := 0x20004
abbrev Reg.CUS_FUSES : Nat := 0x20008
abbrev Reg.CUS_PRESENCE : Nat := 0x20010
abbrev Reg.CUS_SEAL : Nat := 0x20014
abbrev Reg.CUS_EVENT : Nat := 0x20018
abbrev Reg.CUS_EVENT_ENABLE : Nat := 0x2001C
abbrev Reg.CUS_MEAS : Nat := 0x20100
abbrev Reg.CUS_LOG_COUNT : Nat := 0x20200
abbrev Reg.CUS_LOG_INDEX : Nat := 0x20204
abbrev Reg.CUS_LOG_INFO : Nat := 0x20208
abbrev Reg.CUS_LOG_DIGEST : Nat := 0x20220

/-! ### CFG registers (R114) -/
abbrev Reg.CFG_STATUS : Nat := 0x10000
abbrev Reg.CFG_GENERATION : Nat := 0x10004
abbrev Reg.CFG_RECORDS : Nat := 0x10008
abbrev Reg.CFG_FIRST_SKIP : Nat := 0x1000C
abbrev Reg.CFG_SLOT_A : Nat := 0x10010
abbrev Reg.CFG_SLOT_B : Nat := 0x10014
abbrev Reg.CFG_PTP_WAIT : Nat := 0x10018
abbrev Reg.CFG_BOOTSRC : Nat := 0x1001C

/-! ### TIDE registers (R150) -/
abbrev Reg.TIDE_CTRL : Nat := 0x40000
abbrev Reg.TIDE_STATUS : Nat := 0x40004
abbrev Reg.TIDE_EVENT : Nat := 0x40008
abbrev Reg.TIDE_EVENT_ENABLE : Nat := 0x4000C
abbrev Reg.TIDE_RATE : Nat := 0x40010
abbrev Reg.TIDE_PRESENT : Nat := 0x40014
abbrev Reg.TIDE_GUARD : Nat := 0x40018
abbrev Reg.TIDE_OUT_CFG : Nat := 0x4001C
abbrev Reg.TIDE_EPOCH_W0 : Nat := 0x40020
abbrev Reg.TIDE_EPOCH_W1 : Nat := 0x40024
abbrev Reg.TIDE_NUM_W0 : Nat := 0x40028
abbrev Reg.TIDE_NUM_W1 : Nat := 0x4002C
abbrev Reg.TIDE_CAPTURE : Nat := 0x40030
abbrev Reg.TIDE_CAP_COUNT_W0 : Nat := 0x40034
abbrev Reg.TIDE_CAP_COUNT_W1 : Nat := 0x40038
abbrev Reg.TIDE_CAP_TIME_W0 : Nat := 0x4003C
abbrev Reg.TIDE_CAP_TIME_W1 : Nat := 0x40040
abbrev Reg.TIDE_CAP_SUB : Nat := 0x40044
abbrev Reg.TIDE_CAP_NUM_W0 : Nat := 0x40048
abbrev Reg.TIDE_CAP_NUM_W1 : Nat := 0x4004C
abbrev Reg.TIDE_RATE_FRAC_LO : Nat := 0x40050
abbrev Reg.TIDE_RATE_FRAC_HI : Nat := 0x40054
abbrev Reg.TIDE_ADJ_W0 : Nat := 0x40058
abbrev Reg.TIDE_ADJ_W1 : Nat := 0x4005C
abbrev Reg.TIDE_PTP_CFG : Nat := 0x40060
abbrev Reg.TIDE_PTP_PRIO : Nat := 0x40064
abbrev Reg.TIDE_JUMP_THRESH : Nat := 0x40068
abbrev Reg.TIDE_LOCK_THRESH : Nat := 0x4006C
abbrev Reg.TIDE_SLEW_MAX : Nat := 0x40070
abbrev Reg.TIDE_HOLDOVER_LIMIT : Nat := 0x40074
abbrev Reg.TIDE_STEP_ACCEPT : Nat := 0x40078
abbrev Reg.TIDE_OFFSET_MEAS : Nat := 0x4007C
abbrev Reg.TIDE_PATH_DELAY : Nat := 0x40080
abbrev Reg.TIDE_MASTER_PORT : Nat := 0x40084
abbrev Reg.TIDE_JUMP_W0 : Nat := 0x40088
abbrev Reg.TIDE_JUMP_W1 : Nat := 0x4008C
abbrev Reg.TIDE_MASTER_ID_W0 : Nat := 0x40090
abbrev Reg.TIDE_MASTER_ID_W1 : Nat := 0x40094
abbrev Reg.TIDE_PPS_IN_TS_W0 : Nat := 0x40098
abbrev Reg.TIDE_PPS_IN_TS_W1 : Nat := 0x4009C
abbrev Reg.TIDE_LATE_LAST : Nat := 0x400A0
abbrev Reg.TIDE_OUTLIERS : Nat := 0x400A4
abbrev Reg.TIDE_PORT_DELAY : Nat := 0x40100

/-! ### TL registers (R214) -/
abbrev Reg.TL_STATUS : Nat := 0x600
abbrev Reg.TL_QUAY_STATUS : Nat := 0x604
abbrev Reg.TL_QUAY_WM : Nat := 0x608
abbrev Reg.TL_QUAY_DEPTH : Nat := 0x60C
abbrev Reg.TL_SYMBOLS_LAST : Nat := 0x610
abbrev Reg.TL_RESYNC_LAST : Nat := 0x614
abbrev Reg.TL_ERR_POS : Nat := 0x618
abbrev Reg.TL_ERR_INFO : Nat := 0x61C
abbrev Reg.TL_REPLAYS : Nat := 0x620

/-! ### GT registers (R215, R263) -/
abbrev Reg.GT_DEC_CFG : Nat := 0x600
abbrev Reg.GT_DEC_STATUS : Nat := 0x604
abbrev Reg.GT_COMMIT_POS : Nat := 0x608
abbrev Reg.GT_PICS_LAST : Nat := 0x60C
abbrev Reg.GT_CONCEAL_LAST : Nat := 0x610
abbrev Reg.GT_SUBST_LAST : Nat := 0x614
abbrev Reg.GT_REPLAYS : Nat := 0x618
abbrev Reg.GT_ENC_CFG : Nat := 0x700
abbrev Reg.GT_ENC_STATUS : Nat := 0x704
abbrev Reg.GT_ENC_COMMIT_POS : Nat := 0x708
abbrev Reg.GT_ENC_PICS_LAST : Nat := 0x70C
abbrev Reg.GT_CAND_SRC_LAST : Nat := 0x710
abbrev Reg.GT_CAND_SIB_LAST : Nat := 0x714
abbrev Reg.GT_CAND_NBR_LAST : Nat := 0x718
abbrev Reg.GT_CAND_GLB_LAST : Nat := 0x71C
abbrev Reg.GT_HASH_EXACT_LAST : Nat := 0x720
abbrev Reg.GT_PALETTE_LAST : Nat := 0x724
abbrev Reg.GT_IBC_LAST : Nat := 0x728
abbrev Reg.GT_STRIPE_LAST : Nat := 0x72C
abbrev Reg.GT_CLAMPED_LAST : Nat := 0x730
abbrev Reg.GT_SIB_WRITES_LAST : Nat := 0x734
abbrev Reg.GT_ENC_REPLAYS : Nat := 0x738

/-! ### PL registers (R292) -/
abbrev Reg.PL_STATE_BASE_LO : Nat := 0x600
abbrev Reg.PL_STATE_BASE_HI : Nat := 0x604
abbrev Reg.PL_STATUS : Nat := 0x608
abbrev Reg.PL_STREAMS : Nat := 0x60C
abbrev Reg.PL_BOOKED : Nat := 0x610
abbrev Reg.PL_CYCLES_LAST : Nat := 0x614
abbrev Reg.PL_PICS_LAST : Nat := 0x618
abbrev Reg.PL_SALVAGED_LAST : Nat := 0x61C
abbrev Reg.PL_REWINDS_LAST : Nat := 0x620
abbrev Reg.PL_DEFERRED_LAST : Nat := 0x624
abbrev Reg.PL_GOVERNED_LAST : Nat := 0x628
abbrev Reg.PL_CLAMPS_LAST : Nat := 0x62C
abbrev Reg.PL_UCW_STATUS : Nat := 0x630
abbrev Reg.PL_UCW_REARM : Nat := 0x634
abbrev Reg.PL_UCW_OVERRUNS : Nat := 0x638
abbrev Reg.PL_UCW_LAST : Nat := 0x63C

/-! ### CMP registers (R325) -/
abbrev Reg.CMP_LAYOUT_BASE_LO : Nat := 0x900000
abbrev Reg.CMP_LAYOUT_BASE_HI : Nat := 0x900004
abbrev Reg.CMP_LAYOUT_FLIP : Nat := 0x900008
abbrev Reg.CMP_LAYOUT_PEND : Nat := 0x90000C
abbrev Reg.CMP_LAYOUT_QUERY : Nat := 0x900010
abbrev Reg.CMP_LAYOUT_INFO : Nat := 0x900014
abbrev Reg.CMP_LAYOUT_P_W0 : Nat := 0x900018
abbrev Reg.CMP_LAYOUT_P_W1 : Nat := 0x90001C
abbrev Reg.CMP_STORM_TEXT_BASE_LO : Nat := 0x900020
abbrev Reg.CMP_STORM_TEXT_BASE_HI : Nat := 0x900024
abbrev Reg.CMP_STORM_STATUS : Nat := 0x900028
abbrev Reg.CMP_STORM_E_W0 : Nat := 0x90002C
abbrev Reg.CMP_STORM_E_W1 : Nat := 0x900030
abbrev Reg.CMP_SAFE_SRC_LO : Nat := 0x900034
abbrev Reg.CMP_SAFE_SRC_HI : Nat := 0x900038
abbrev Reg.CMP_SAFE_STATUS : Nat := 0x90003C
abbrev Reg.CMP_GLYPH_SKIP_LAST : Nat := 0x900040
abbrev Reg.CMP_COLOUR_MISMATCH_LAST : Nat := 0x900044
abbrev Reg.CMP_LATE_LAST : Nat := 0x900048

/-! ### DISP registers (R327) -/
abbrev Reg.DISP_OUT_CTRL : Nat := 0x701000
abbrev Reg.DISP_OUT_LAYOUT : Nat := 0x701004
abbrev Reg.DISP_OUT_H : Nat := 0x701008
abbrev Reg.DISP_OUT_HSYNC : Nat := 0x70100C
abbrev Reg.DISP_OUT_V : Nat := 0x701010
abbrev Reg.DISP_OUT_VSYNC : Nat := 0x701014
abbrev Reg.DISP_OUT_PHASE : Nat := 0x701018
abbrev Reg.DISP_OUT_STATUS : Nat := 0x70101C
abbrev Reg.DISP_OUT_LANE_DIAG : Nat := 0x701020
abbrev Reg.DISP_OUT_EVENT : Nat := 0x701024
abbrev Reg.DISP_OUT_EVENT_ENABLE : Nat := 0x701028
abbrev Reg.DISP_OUT_REPEATS_LAST : Nat := 0x70102C
abbrev Reg.DISP_OUT_PCLK : Nat := 0x701030

/-! ### NET registers (R368, R369) -/
abbrev Reg.NET_CFG : Nat := 0x500000
abbrev Reg.NET_NODE : Nat := 0x500004
abbrev Reg.NET_EVENT : Nat := 0x500008
abbrev Reg.NET_EVENT_ENABLE : Nat := 0x50000C
abbrev Reg.NET_ELEMENT_ID : Nat := 0x500010
abbrev Reg.NET_RMP_CFG : Nat := 0x500014
abbrev Reg.NET_FB_PORT : Nat := 0x500018
abbrev Reg.NET_CLASS_BASE_LO : Nat := 0x500020
abbrev Reg.NET_CLASS_BASE_HI : Nat := 0x500024
abbrev Reg.NET_FLOW_BASE_LO : Nat := 0x500028
abbrev Reg.NET_FLOW_BASE_HI : Nat := 0x50002C
abbrev Reg.NET_RX_UNMATCHED_LAST : Nat := 0x500030
abbrev Reg.NET_RX_POLICED_LAST : Nat := 0x500034
abbrev Reg.NET_RX_NOBUF_LAST : Nat := 0x500038
abbrev Reg.NET_MERGE_BOTH_LOST_LAST : Nat := 0x50003C
abbrev Reg.NET_MERGE_DUP_LAST : Nat := 0x500040
abbrev Reg.NET_FB_TX_LAST : Nat := 0x500044
abbrev Reg.NET_FB_BAD_LAST : Nat := 0x500048
abbrev Reg.NET_PORT_MAC_LO : Nat := 0x501000
abbrev Reg.NET_PORT_MAC_HI : Nat := 0x501004
abbrev Reg.NET_PORT_IP4 : Nat := 0x501008
abbrev Reg.NET_PORT_IP6_ : Nat := 0x50100C
abbrev Reg.NET_PORT_CTRL : Nat := 0x50101C
abbrev Reg.NET_PORT_STATUS : Nat := 0x501020
abbrev Reg.NET_PORT_RX_BYTES_LAST : Nat := 0x501024
abbrev Reg.NET_PORT_TX_BYTES_LAST : Nat := 0x501028
abbrev Reg.NET_PORT_FCS_ERR_LAST : Nat := 0x50102C
abbrev Reg.NET_PORT_FEC_CORR_LAST : Nat := 0x501030
abbrev Reg.NET_PORT_FEC_UNCORR_LAST : Nat := 0x501034
abbrev Reg.NET_PORT_TX_DROP_LAST : Nat := 0x501038

/-! ### FEED registers (R371) -/
abbrev Reg.FEED_CTRL : Nat := 0x600000
abbrev Reg.FEED_FIFO_STATUS : Nat := 0x600004
abbrev Reg.FEED_FIFO_WM : Nat := 0x600008
abbrev Reg.FEED_FIFO_DEPTH : Nat := 0x60000C
abbrev Reg.FEED_DATA : Nat := 0x600010
abbrev Reg.FEED_STATUS : Nat := 0x600014
abbrev Reg.FEED_PIN_DIAG : Nat := 0x600018
abbrev Reg.FEED_EVENT : Nat := 0x60001C
abbrev Reg.FEED_EVENT_ENABLE : Nat := 0x600020
abbrev Reg.FEED_PKTS_LAST : Nat := 0x600024
abbrev Reg.FEED_SYNC_ERR_LAST : Nat := 0x600028
abbrev Reg.FEED_OVERRUN_LAST : Nat := 0x60002C
abbrev Reg.FEED_CC_ERR_LAST : Nat := 0x600030
abbrev Reg.FEED_HOLD_LAST : Nat := 0x600034
abbrev Reg.FEED_PID : Nat := 0x600040

/-! ### HM registers (R413, R414) -/
abbrev Reg.HM_QCTX_BASE_LO : Nat := 0x100000
abbrev Reg.HM_QCTX_BASE_HI : Nat := 0x100004
abbrev Reg.HM_SCTX_BASE_LO : Nat := 0x100008
abbrev Reg.HM_SCTX_BASE_HI : Nat := 0x10000C
abbrev Reg.HM_SAMPLE_BASE_LO : Nat := 0x100010
abbrev Reg.HM_SAMPLE_BASE_HI : Nat := 0x100014
abbrev Reg.HM_SAMPLE_CFG : Nat := 0x100018
abbrev Reg.HM_SAMPLE_WR : Nat := 0x10001C
abbrev Reg.HM_SAMPLE_RD : Nat := 0x100020
abbrev Reg.HM_BOOK_FRAC : Nat := 0x100024
abbrev Reg.HM_USABLE_NS : Nat := 0x100028
abbrev Reg.HM_BW_RESERVE : Nat := 0x10002C
abbrev Reg.HM_TL_DEC_BINS : Nat := 0x100030
abbrev Reg.HM_TL_ENC_BINS : Nat := 0x100034
abbrev Reg.HM_COST_MISC : Nat := 0x100038
abbrev Reg.HM_DELIVER_Q : Nat := 0x10003C
abbrev Reg.HM_EVENT : Nat := 0x100040
abbrev Reg.HM_EVENT_ENABLE : Nat := 0x100044
abbrev Reg.HM_CPEND : Nat := 0x100048
abbrev Reg.HM_CPEND_ENABLE : Nat := 0x10004C
abbrev Reg.HM_BW_BOOKED : Nat := 0x100050
abbrev Reg.HM_BW_LIMIT : Nat := 0x100054
abbrev Reg.HM_ENERGY_BOOKED : Nat := 0x100058
abbrev Reg.HM_DISPATCH_MAX_LAST : Nat := 0x10005C
abbrev Reg.HM_DISPATCHES_LAST : Nat := 0x100060
abbrev Reg.HM_QC_MISS_LAST : Nat := 0x100064
abbrev Reg.HM_CACHED : Nat := 0x100068
abbrev Reg.HM_DEADLINE_MISS_LAST : Nat := 0x10006C
abbrev Reg.HM_DOORBELL_BAD_LAST : Nat := 0x100070
abbrev Reg.HM_DELIVER_DROP_LAST : Nat := 0x100074
abbrev Reg.HM_BOOK_CMD : Nat := 0x100080
abbrev Reg.HM_BOOK_STATUS : Nat := 0x100084
abbrev Reg.HM_BERTH_SEL : Nat := 0x100088
abbrev Reg.HM_BERTH_LOAD : Nat := 0x10008C
abbrev Reg.HM_BERTH_STREAMS : Nat := 0x100090
abbrev Reg.HM_QC_SEL : Nat := 0x100200
abbrev Reg.HM_QC_CMD : Nat := 0x100204
abbrev Reg.HM_QC_STATUS : Nat := 0x100208
abbrev Reg.HM_QC_DATA : Nat := 0x100240
abbrev Reg.HM_GATE_STATUS : Nat := 0x101000
abbrev Reg.HM_GATE_CTRL : Nat := 0x101004
abbrev Reg.HM_GATE_COUNT : Nat := 0x101008
abbrev Reg.HM_GATE_CHANGE_W0 : Nat := 0x10100C
abbrev Reg.HM_GATE_CHANGE_W1 : Nat := 0x101010
abbrev Reg.HM_GATE_SWAP : Nat := 0x101014
abbrev Reg.HM_GATE_CYCLE : Nat := 0x101018
abbrev Reg.HM_GATE_ADMIN_MASK : Nat := 0x108000
abbrev Reg.HM_GATE_ADMIN_INTERVAL : Nat := 0x108004
abbrev Reg.HM_GATE_OPER_MASK : Nat := 0x110000
abbrev Reg.HM_GATE_OPER_INTERVAL : Nat := 0x110004

/-! ### PWR registers (R440) -/
abbrev Reg.PWR_CEILING : Nat := 0x80000
abbrev Reg.PWR_CEIL_EFF : Nat := 0x80004
abbrev Reg.PWR_GOV_CTRL : Nat := 0x80008
abbrev Reg.PWR_GOV_STATUS : Nat := 0x8000C
abbrev Reg.PWR_BUCKET_LO : Nat := 0x80010
abbrev Reg.PWR_BUCKET_HI : Nat := 0x80014
abbrev Reg.PWR_REFILL : Nat := 0x80018
abbrev Reg.PWR_EFF : Nat := 0x8001C
abbrev Reg.PWR_FIXED_MW : Nat := 0x80020
abbrev Reg.PWR_EVENT : Nat := 0x80024
abbrev Reg.PWR_EVENT_ENABLE : Nat := 0x80028
abbrev Reg.PWR_TEMP : Nat := 0x8002C
abbrev Reg.PWR_NEED_LAST : Nat := 0x80030
abbrev Reg.PWR_JOBS_ENERGY_LAST : Nat := 0x80034
abbrev Reg.PWR_IN_ENERGY_LAST : Nat := 0x80038
abbrev Reg.PWR_GOVERNED_TIDES : Nat := 0x8003C
abbrev Reg.PWR_GATE_CFG : Nat := 0x80040
abbrev Reg.PWR_SPAD_IDLE : Nat := 0x80044
abbrev Reg.PWR_COEF_RESET : Nat := 0x80048
abbrev Reg.PWR_IN_A_STATUS : Nat := 0x80100
abbrev Reg.PWR_IN_A_MV : Nat := 0x80104
abbrev Reg.PWR_IN_A_MA : Nat := 0x80108
abbrev Reg.PWR_IN_B_STATUS : Nat := 0x80110
abbrev Reg.PWR_IN_B_MV : Nat := 0x80114
abbrev Reg.PWR_IN_B_MA : Nat := 0x80118
abbrev Reg.PWR_IN_MW : Nat := 0x80120
abbrev Reg.PWR_HOLDUP_MV : Nat := 0x80124
abbrev Reg.PWR_IN_CTRL : Nat := 0x80128
abbrev Reg.PWR_RAIL_MW : Nat := 0x8012C
abbrev Reg.PWR_HOLDUP_RIDES : Nat := 0x80130
abbrev Reg.PWR_UNIT_CTRL : Nat := 0x81000
abbrev Reg.PWR_SPAD_STATE : Nat := 0x82000
abbrev Reg.PWR_SPAD_CTRL : Nat := 0x82300
abbrev Reg.PWR_COEF : Nat := 0x83000
abbrev Reg.PWR_COEF_FACTORY : Nat := 0x83004

/-! ### MEM registers (R472, R473) -/
abbrev Reg.MEM_STATUS : Nat := 0x200000
abbrev Reg.MEM_EVENT : Nat := 0x200004
abbrev Reg.MEM_EVENT_ENABLE : Nat := 0x200008
abbrev Reg.MEM_HASH : Nat := 0x200010
abbrev Reg.MEM_HASH1 : Nat := 0x200014
abbrev Reg.MEM_HASH2 : Nat := 0x200018
abbrev Reg.MEM_HASH3 : Nat := 0x20001C
abbrev Reg.MEM_HASH4 : Nat := 0x200020
abbrev Reg.MEM_HASH5 : Nat := 0x200024
abbrev Reg.MEM_HASH6 : Nat := 0x200028
abbrev Reg.MEM_HASH7 : Nat := 0x20002C
abbrev Reg.MEM_HASH8 : Nat := 0x200030
abbrev Reg.MEM_DRIFT : Nat := 0x200040
abbrev Reg.MEM_MIG_RATE : Nat := 0x200044
abbrev Reg.MEM_MIG_CTRL : Nat := 0x200048
abbrev Reg.MEM_MIG_FORCE : Nat := 0x20004C
abbrev Reg.MEM_MIG_STATUS : Nat := 0x200050
abbrev Reg.MEM_MIG_DONE_MIB : Nat := 0x200054
abbrev Reg.MEM_MIGRATIONS : Nat := 0x200058
abbrev Reg.MEM_EDC_CFG : Nat := 0x20005C
abbrev Reg.MEM_REF_CFG : Nat := 0x200060
abbrev Reg.MEM_SR_IDLE : Nat := 0x200064
abbrev Reg.MEM_SCHED_CFG : Nat := 0x200068
abbrev Reg.MEM_PROT_BASE_LO : Nat := 0x200070
abbrev Reg.MEM_PROT_BASE_HI : Nat := 0x200074
abbrev Reg.MEM_PROT_SIZE : Nat := 0x200078
abbrev Reg.MEM_SCRUB_CFG : Nat := 0x20007C
abbrev Reg.MEM_PROT_CE_LAST : Nat := 0x200080
abbrev Reg.MEM_PROT_UE : Nat := 0x200084
abbrev Reg.MEM_ERR_ADDR_LO : Nat := 0x200088
abbrev Reg.MEM_ERR_ADDR_HI : Nat := 0x20008C
abbrev Reg.MEM_ERR_INFO : Nat := 0x200090
abbrev Reg.MEM_ERR_CLEAR : Nat := 0x200094
abbrev Reg.MEM_POISONED : Nat := 0x200098
abbrev Reg.MEM_INPLACE_STEPS_LAST : Nat := 0x20009C
abbrev Reg.MEM_PORT_STATUS : Nat := 0x201000
abbrev Reg.MEM_PORT_TEMP : Nat := 0x201004
abbrev Reg.MEM_PORT_SETS : Nat := 0x201008
abbrev Reg.MEM_PORT_SET_SEL : Nat := 0x20100C
abbrev Reg.MEM_PORT_SET_INFO : Nat := 0x201010
abbrev Reg.MEM_PORT_EDC_RETRY_LAST : Nat := 0x201014
abbrev Reg.MEM_PORT_EDC_FAIL : Nat := 0x201018
abbrev Reg.MEM_PORT_BYTES_LAST : Nat := 0x20101C
abbrev Reg.MEM_PORT_REFAB_LAST : Nat := 0x201020
abbrev Reg.MEM_PORT_CAL_COUNT : Nat := 0x201024

/-! ### POOL registers (R494, R495) -/
abbrev Reg.POOL_META_BASE_LO : Nat := 0x300000
abbrev Reg.POOL_META_BASE_HI : Nat := 0x300004
abbrev Reg.POOL_EVENT : Nat := 0x300008
abbrev Reg.POOL_EVENT_ENABLE : Nat := 0x30000C
abbrev Reg.POOL_CMD : Nat := 0x300010
abbrev Reg.POOL_CMD_STATUS : Nat := 0x300014
abbrev Reg.POOL_ADDR_LO : Nat := 0x300018
abbrev Reg.POOL_ADDR_HI : Nat := 0x30001C
abbrev Reg.POOL_RESULT_LO : Nat := 0x300020
abbrev Reg.POOL_RESULT_HI : Nat := 0x300024
abbrev Reg.POOL_REFUSE_ADDR_LO : Nat := 0x300028
abbrev Reg.POOL_REFUSE_ADDR_HI : Nat := 0x30002C
abbrev Reg.POOL_REFUSE_INFO : Nat := 0x300030
abbrev Reg.POOL_REFUSE_CLEAR : Nat := 0x300034
abbrev Reg.POOL_REFUSED_LAST : Nat := 0x300038
abbrev Reg.POOL_OPS_LAST : Nat := 0x30003C
abbrev Reg.POOL_BASE_LO : Nat := 0x301000
abbrev Reg.POOL_BASE_HI : Nat := 0x301004
abbrev Reg.POOL_CFG : Nat := 0x301008
abbrev Reg.POOL_COUNT : Nat := 0x30100C
abbrev Reg.POOL_FIRST_INDEX : Nat := 0x301010
abbrev Reg.POOL_NOTICE : Nat := 0x301014
abbrev Reg.POOL_PRESSURE : Nat := 0x301018
abbrev Reg.POOL_CRITICAL : Nat := 0x30101C
abbrev Reg.POOL_HYST : Nat := 0x301020
abbrev Reg.POOL_STATUS : Nat := 0x301024
abbrev Reg.POOL_FREE : Nat := 0x301028
abbrev Reg.POOL_LOW_LAST : Nat := 0x30102C
abbrev Reg.POOL_FAIL_LAST : Nat := 0x301030
abbrev Reg.POOL_CHECK_FAIL : Nat := 0x301034

/-! ### LT registers (R519) -/
abbrev Reg.LT_FLAGS : Nat := 0x400000
abbrev Reg.LT_FLAGS_SET : Nat := 0x400004
abbrev Reg.LT_RUNNING0 : Nat := 0x400008
abbrev Reg.LT_RUNNING1 : Nat := 0x40000C
abbrev Reg.LT_BYTES_LAST : Nat := 0x400010
abbrev Reg.LT_HALTS_LAST : Nat := 0x400014

/-! ### LT_CH registers (R520) -/
abbrev Reg.LT_CFG : Nat := 0x600
abbrev Reg.LT_STATUS : Nat := 0x604
abbrev Reg.LT_EVENT : Nat := 0x608
abbrev Reg.LT_EVENT_ENABLE : Nat := 0x60C
abbrev Reg.LT_REMAIN : Nat := 0x610
abbrev Reg.LT_PROG_LO : Nat := 0x614
abbrev Reg.LT_PROG_HI : Nat := 0x618
abbrev Reg.LT_OS_LO : Nat := 0x61C
abbrev Reg.LT_OS_HI : Nat := 0x620
abbrev Reg.LT_OD_LO : Nat := 0x624
abbrev Reg.LT_OD_HI : Nat := 0x628
abbrev Reg.LT_ERR_ADDR_LO : Nat := 0x62C
abbrev Reg.LT_ERR_ADDR_HI : Nat := 0x630
abbrev Reg.LT_ERR_INFO : Nat := 0x634
abbrev Reg.LT_ERR_CLEAR : Nat := 0x638
abbrev Reg.LT_LOOP : Nat := 0x63C
abbrev Reg.LT_HOLD_W0 : Nat := 0x64C
abbrev Reg.LT_HOLD_W1 : Nat := 0x650
abbrev Reg.LT_HOLD_FILL : Nat := 0x654
abbrev Reg.LT_CH_BYTES_LAST : Nat := 0x658

/-! ### BELL registers (R577) -/
abbrev Reg.BELL_USAGE_LAST : Nat := 0x50000
abbrev Reg.BELL_MERGED_LAST : Nat := 0x50004
abbrev Reg.BELL_FALLBACK_LAST : Nat := 0x50008
abbrev Reg.BELL_ERR_INFO : Nat := 0x5000C
abbrev Reg.BELL_ERR_CLEAR : Nat := 0x50010
abbrev Reg.BELL_T_CLAIM : Nat := 0x50100
abbrev Reg.BELL_T_COMPLETE : Nat := 0x50104
abbrev Reg.BELL_T_STATUS : Nat := 0x50108
abbrev Reg.BELL_T_CTRL : Nat := 0x5010C
abbrev Reg.BELL_SRC_CFG : Nat := 0x51000
abbrev Reg.BELL_SRC_STATE : Nat := 0x51004
abbrev Reg.BELL_PEND : Nat := 0x53000
abbrev Reg.BELL_ACTIVE : Nat := 0x53080
abbrev Reg.BELL_SWSET : Nat := 0x53100
abbrev Reg.BELL_MAP : Nat := 0x53200

/-! ### HOST registers (R579) -/
abbrev Reg.HOST_CTRL : Nat := 0x800000
abbrev Reg.HOST_STATUS : Nat := 0x800004
abbrev Reg.HOST_EVENT : Nat := 0x800008
abbrev Reg.HOST_EVENT_ENABLE : Nat := 0x80000C
abbrev Reg.HOST_BAR2_BASE_LO : Nat := 0x800010
abbrev Reg.HOST_BAR2_BASE_HI : Nat := 0x800014
abbrev Reg.HOST_BAR2_SIZE : Nat := 0x800018
abbrev Reg.HOST_OUT_BASE_W0 : Nat := 0x800020
abbrev Reg.HOST_OUT_BASE_W1 : Nat := 0x800024
abbrev Reg.HOST_OUT_ERR_LAST : Nat := 0x800028
abbrev Reg.HOST_IN_REFUSED_LAST : Nat := 0x80002C
abbrev Reg.HOST_MBX_CTRL : Nat := 0x800030
abbrev Reg.HOST_MBX_STATUS : Nat := 0x800034
abbrev Reg.HOST_MBX_REQ : Nat := 0x801000
abbrev Reg.HOST_MBX_RSP : Nat := 0x802000
abbrev Reg.HOST_MSIX_TABLE : Nat := 0x808000
abbrev Reg.HOST_MSIX_PBA : Nat := 0x809000

/-! ### WATCH registers (R608) -/
abbrev Reg.WATCH_STATUS : Nat := 0x60000
abbrev Reg.WATCH_EVENT : Nat := 0x60004
abbrev Reg.WATCH_EVENT_ENABLE : Nat := 0x60008
abbrev Reg.WATCH_FE_INFO : Nat := 0x60010
abbrev Reg.WATCH_FE_ADDR_LO : Nat := 0x60014
abbrev Reg.WATCH_FE_ADDR_HI : Nat := 0x60018
abbrev Reg.WATCH_FE_TIDE_W0 : Nat := 0x6001C
abbrev Reg.WATCH_FE_TIDE_W1 : Nat := 0x60020
abbrev Reg.WATCH_FE_NS : Nat := 0x60024
abbrev Reg.WATCH_FE_CLEAR : Nat := 0x60028
abbrev Reg.WATCH_SAFE_CAUSE : Nat := 0x6002C
abbrev Reg.WATCH_SAFE_FORCE : Nat := 0x60030
abbrev Reg.WATCH_ACK : Nat := 0x60034
abbrev Reg.WATCH_FENCE_CLEAR : Nat := 0x60038
abbrev Reg.WATCH_FENCE_STATUS : Nat := 0x6003C
abbrev Reg.WATCH_HANG_CFG : Nat := 0x60040
abbrev Reg.WATCH_SPARES : Nat := 0x60044
abbrev Reg.WATCH_USAGE_LAST : Nat := 0x60048
abbrev Reg.WATCH_CORRECTED_LAST : Nat := 0x6004C
abbrev Reg.WATCH_WARN_LAST : Nat := 0x60050
abbrev Reg.WATCH_FENCES : Nat := 0x60054
abbrev Reg.WATCH_LOG_WR : Nat := 0x60058
abbrev Reg.WATCH_LOG_SEL : Nat := 0x6005C
abbrev Reg.WATCH_LOG_DATA : Nat := 0x60060
abbrev Reg.WATCH_ACTIVE_SEL : Nat := 0x60070
abbrev Reg.WATCH_ACTIVE_DATA : Nat := 0x60074

/-! ### SND registers (R610, R622) -/
abbrev Reg.SND_CTRL : Nat := 0x70000
abbrev Reg.SND_EVENT : Nat := 0x70004
abbrev Reg.SND_EVENT_ENABLE : Nat := 0x70008
abbrev Reg.SND_LOG_BASE_LO : Nat := 0x70010
abbrev Reg.SND_LOG_BASE_HI : Nat := 0x70014
abbrev Reg.SND_LOG_CFG : Nat := 0x70018
abbrev Reg.SND_LOG_WR : Nat := 0x7001C
abbrev Reg.SND_LOG_RD : Nat := 0x70020
abbrev Reg.SND_LOG_DROP_LAST : Nat := 0x70024
abbrev Reg.SND_SAMPLE_CFG : Nat := 0x70028
abbrev Reg.SND_SKID_PERIOD : Nat := 0x7002C
abbrev Reg.SND_TAG_FILTER : Nat := 0x70030
abbrev Reg.SND_TAG_SEED : Nat := 0x70034
abbrev Reg.SND_MISSED_LAST : Nat := 0x70038
abbrev Reg.SND_SAMPLES_LAST : Nat := 0x7003C
abbrev Reg.SND_LOG_UNITS : Nat := 0x70040
abbrev Reg.SND_LOG_SETS : Nat := 0x70060
abbrev Reg.SNDSET_SEL : Nat := 0x71000
abbrev Reg.SNDSET_STAT : Nat := 0x71004
abbrev Reg.SNDSET_LIVE_W0 : Nat := 0x71008
abbrev Reg.SNDSET_LIVE_W1 : Nat := 0x7100C
abbrev Reg.SNDSET_LAST_W0 : Nat := 0x71010
abbrev Reg.SNDSET_LAST_W1 : Nat := 0x71014

/-! ### SNDC registers (R610) -/
abbrev Reg.SND_SEL : Nat := 0x100
abbrev Reg.SND_STAT : Nat := 0x104
abbrev Reg.SND_LIVE_W0 : Nat := 0x108
abbrev Reg.SND_LIVE_W1 : Nat := 0x10C
abbrev Reg.SND_LAST_W0 : Nat := 0x110
abbrev Reg.SND_LAST_W1 : Nat := 0x114

/-! ### CL registers (R326) -/
abbrev Reg.CL_STATUS : Nat := 0x600
abbrev Reg.CL_SAMPLES_LAST : Nat := 0x604
abbrev Reg.CL_BOOKED : Nat := 0x608

/-! ### EG registers (R370) -/
abbrev Reg.EG_STATUS : Nat := 0x600
abbrev Reg.EG_BOOKED : Nat := 0x604
abbrev Reg.EG_PKTS_LAST : Nat := 0x608

/-- The rows of the GLOBAL registers (R39). -/
def rowsGLOBAL : List RegRow := [
  ⟨Reg.GLOBAL_DEVICE_ID, 1, 4, 1, 0x10000000, .ro, 0x0, 0x72161C05, false, .none⟩,
  ⟨Reg.GLOBAL_STEPPING, 1, 4, 1, 0x10000000, .ro, 0x0, 0x1, false, .none⟩,
  ⟨Reg.GLOBAL_VARIANT, 1, 4, 1, 0x10000000, .ro, 0x0, 0x0, false, .none⟩,
  ⟨Reg.GLOBAL_STAGE_CTRL, 1, 4, 1, 0x10000000, .rw, 0x1, 0x0, false, .none⟩,
  ⟨Reg.GLOBAL_BASIN_DIRECT, 1, 4, 1, 0x10000000, .rw, 0x1F, 0x0, true, .none⟩,
  ⟨Reg.GLOBAL_UNITS_GT_LO, 1, 4, 1, 0x10000000, .ro, 0x0, 0xFFFFFFFF, false, .none⟩,
  ⟨Reg.GLOBAL_UNITS_GT_HI, 1, 4, 1, 0x10000000, .ro, 0x0, 0xFFFF, false, .none⟩,
  ⟨Reg.GLOBAL_UNITS_TL, 1, 4, 1, 0x10000000, .ro, 0x0, 0xFFFFFF, false, .none⟩]

/-- The rows of the UCB registers (R42). -/
def rowsUCB0 : List RegRow := [
  ⟨Reg.UCB_ID, 1, 4, 1, 0x10000000, .ro, 0x0, 0x0, false, .none⟩,
  ⟨Reg.UCB_CAPS, 1, 4, 1, 0x10000000, .ro, 0x0, 0x0, false, .none⟩,
  ⟨Reg.UCB_CTRL, 1, 4, 1, 0x10000000, .rw, 0x7, 0x0, false, .none⟩,
  ⟨Reg.UCB_STATUS, 1, 4, 1, 0x10000000, .ro, 0x0, 0x0, false, .none⟩,
  ⟨Reg.UCB_BERTH, 1, 4, 1, 0x10000000, .ro, 0x0, 0x0, false, .none⟩,
  ⟨Reg.UCB_PARENT, 1, 4, 1, 0x10000000, .ro, 0x0, 0x0, false, .none⟩,
  ⟨Reg.UCB_JOB_PTR_LO, 1, 4, 1, 0x10000000, .ro, 0x0, 0x0, false, .lo40⟩,
  ⟨Reg.UCB_JOB_PTR_HI, 1, 4, 1, 0x10000000, .ro, 0x0, 0x0, false, .hi40⟩,
  ⟨Reg.UCB_JOB_SEQ, 1, 4, 1, 0x10000000, .ro, 0x0, 0x0, false, .none⟩,
  ⟨Reg.UCB_ROUTINE_STATUS, 1, 4, 1, 0x10000000, .ro, 0x0, 0x0, false, .none⟩,
  ⟨Reg.UCB_ROUTINE_STEP, 1, 4, 1, 0x10000000, .ro, 0x0, 0x0, false, .none⟩,
  ⟨Reg.UCB_FAULT, 1, 4, 1, 0x10000000, .ro, 0x0, 0x0, false, .none⟩,
  ⟨Reg.UCB_IRQ_STATUS, 1, 4, 1, 0x10000000, .w1c, 0xF, 0x0, false, .none⟩,
  ⟨Reg.UCB_IRQ_ENABLE, 1, 4, 1, 0x10000000, .rw, 0xF, 0x0, false, .none⟩,
  ⟨Reg.UCB_POWER, 1, 4, 1, 0x10000000, .ro, 0x0, 0x2, false, .none⟩,
  ⟨Reg.UCB_JOBS_DONE, 1, 4, 1, 0x10000000, .ro, 0x0, 0x0, false, .none⟩]
/-- More rows of the UCB registers. -/
def rowsUCB1 : List RegRow := [
  ⟨Reg.UCB_GRP_CTRL, 1, 4, 1, 0x10000000, .rw, 0x31FF, 0x0, false, .none⟩,
  ⟨Reg.UCB_GRP_STATUS, 1, 4, 1, 0x10000000, .ro, 0x0, 0x0, false, .none⟩,
  ⟨Reg.UCB_GRP_MEMBER, 256, 4, 1, 0x10000000, .rw, 0xFFF, 0x0, false, .none⟩]
/-- All rows of the UCB registers. -/
def rowsUCB : List RegRow := rowsUCB0 ++ rowsUCB1

/-- The rows of the CUS registers (R113). -/
def rowsCUS : List RegRow := [
  ⟨Reg.CUS_BOOT_STATUS, 1, 4, 1, 0x10000000, .ro, 0x0, 0x0, false, .none⟩,
  ⟨Reg.CUS_FW_VERSION, 1, 4, 1, 0x10000000, .ro, 0x0, 0x0, false, .none⟩,
  ⟨Reg.CUS_FUSES, 1, 4, 1, 0x10000000, .ro, 0x0, 0x0, false, .none⟩,
  ⟨Reg.CUS_PRESENCE, 1, 4, 1, 0x10000000, .ro, 0x0, 0x0, false, .none⟩,
  ⟨Reg.CUS_SEAL, 1, 4, 1, 0x10000000, .ro, 0x0, 0x0, false, .none⟩,
  ⟨Reg.CUS_EVENT, 1, 4, 1, 0x10000000, .w1c, 0x7F, 0x0, false, .none⟩,
  ⟨Reg.CUS_EVENT_ENABLE, 1, 4, 1, 0x10000000, .rw, 0x7F, 0x0, false, .none⟩,
  ⟨Reg.CUS_MEAS, 64, 4, 1, 0x10000000, .ro, 0x0, 0x0, false, .none⟩,
  ⟨Reg.CUS_LOG_COUNT, 1, 4, 1, 0x10000000, .ro, 0x0, 0x0, false, .none⟩,
  ⟨Reg.CUS_LOG_INDEX, 1, 4, 1, 0x10000000, .rw, 0xFF, 0x0, false, .none⟩,
  ⟨Reg.CUS_LOG_INFO, 1, 4, 1, 0x10000000, .ro, 0x0, 0x0, false, .none⟩,
  ⟨Reg.CUS_LOG_DIGEST, 8, 4, 1, 0x10000000, .ro, 0x0, 0x0, false, .none⟩]

/-- The rows of the CFG registers (R114). -/
def rowsCFG : List RegRow := [
  ⟨Reg.CFG_STATUS, 1, 4, 1, 0x10000000, .ro, 0x0, 0x0, false, .none⟩,
  ⟨Reg.CFG_GENERATION, 1, 4, 1, 0x10000000, .ro, 0x0, 0xFFFFFFFF, false, .none⟩,
  ⟨Reg.CFG_RECORDS, 1, 4, 1, 0x10000000, .ro, 0x0, 0x0, false, .none⟩,
  ⟨Reg.CFG_FIRST_SKIP, 1, 4, 1, 0x10000000, .ro, 0x0, 0x0, false, .none⟩,
  ⟨Reg.CFG_SLOT_A, 1, 4, 1, 0x10000000, .ro, 0x0, 0x0, false, .none⟩,
  ⟨Reg.CFG_SLOT_B, 1, 4, 1, 0x10000000, .ro, 0x0, 0x0, false, .none⟩,
  ⟨Reg.CFG_PTP_WAIT, 1, 4, 1, 0x10000000, .rw, 0xFFFF, 0x41, false, .none⟩,
  ⟨Reg.CFG_BOOTSRC, 1, 4, 1, 0x10000000, .ro, 0x0, 0x0, false, .none⟩]

/-- The rows of the TIDE registers (R150). -/
def rowsTIDE0 : List RegRow := [
  ⟨Reg.TIDE_CTRL, 1, 4, 1, 0x10000000, .rw, 0x3F, 0x8, false, .none⟩,
  ⟨Reg.TIDE_STATUS, 1, 4, 1, 0x10000000, .ro, 0x0, 0x0, false, .none⟩,
  ⟨Reg.TIDE_EVENT, 1, 4, 1, 0x10000000, .w1c, 0xFF, 0x0, false, .none⟩,
  ⟨Reg.TIDE_EVENT_ENABLE, 1, 4, 1, 0x10000000, .rw, 0xFF, 0x0, false, .none⟩,
  ⟨Reg.TIDE_RATE, 1, 4, 1, 0x10000000, .rw, 0xFFFFFFFF, 0x1003C, true, .none⟩,
  ⟨Reg.TIDE_PRESENT, 1, 4, 1, 0x10000000, .rws, 0x1F, 0x3, false, .none⟩,
  ⟨Reg.TIDE_GUARD, 1, 4, 1, 0x10000000, .rws, 0xFFFFF, 0x186A0, false, .none⟩,
  ⟨Reg.TIDE_OUT_CFG, 1, 4, 1, 0x10000000, .rw, 0x7FFFF, 0x60064, false, .none⟩,
  ⟨Reg.TIDE_EPOCH_W0, 1, 4, 1, 0x10000000, .rw, 0xFFFFFFFF, 0x0, true, .w0⟩,
  ⟨Reg.TIDE_EPOCH_W1, 1, 4, 1, 0x10000000, .rw, 0xFFFFFFFF, 0x0, true, .w1⟩,
  ⟨Reg.TIDE_NUM_W0, 1, 4, 1, 0x10000000, .ro, 0x0, 0x0, false, .w0⟩,
  ⟨Reg.TIDE_NUM_W1, 1, 4, 1, 0x10000000, .ro, 0x0, 0x0, false, .w1⟩,
  ⟨Reg.TIDE_CAPTURE, 1, 4, 1, 0x10000000, .wo, 0x1, 0x0, false, .none⟩,
  ⟨Reg.TIDE_CAP_COUNT_W0, 1, 4, 1, 0x10000000, .ro, 0x0, 0x0, false, .w0⟩,
  ⟨Reg.TIDE_CAP_COUNT_W1, 1, 4, 1, 0x10000000, .ro, 0x0, 0x0, false, .w1⟩,
  ⟨Reg.TIDE_CAP_TIME_W0, 1, 4, 1, 0x10000000, .ro, 0x0, 0x0, false, .w0⟩]
/-- More rows of the TIDE registers. -/
def rowsTIDE1 : List RegRow := [
  ⟨Reg.TIDE_CAP_TIME_W1, 1, 4, 1, 0x10000000, .ro, 0x0, 0x0, false, .w1⟩,
  ⟨Reg.TIDE_CAP_SUB, 1, 4, 1, 0x10000000, .ro, 0x0, 0x0, false, .none⟩,
  ⟨Reg.TIDE_CAP_NUM_W0, 1, 4, 1, 0x10000000, .ro, 0x0, 0x0, false, .w0⟩,
  ⟨Reg.TIDE_CAP_NUM_W1, 1, 4, 1, 0x10000000, .ro, 0x0, 0x0, false, .w1⟩,
  ⟨Reg.TIDE_RATE_FRAC_LO, 1, 4, 1, 0x10000000, .rw, 0xFFFFFFFF, 0x0, false, .lo40⟩,
  ⟨Reg.TIDE_RATE_FRAC_HI, 1, 4, 1, 0x10000000, .rw, 0xFF, 0x0, false, .hi40⟩,
  ⟨Reg.TIDE_ADJ_W0, 1, 4, 1, 0x10000000, .wo, 0xFFFFFFFF, 0x0, false, .w0⟩,
  ⟨Reg.TIDE_ADJ_W1, 1, 4, 1, 0x10000000, .wo, 0xFFFFFFFF, 0x0, false, .w1⟩,
  ⟨Reg.TIDE_PTP_CFG, 1, 4, 1, 0x10000000, .rw, 0x1FF7FF, 0x1FF400, false, .none⟩,
  ⟨Reg.TIDE_PTP_PRIO, 1, 4, 1, 0x10000000, .rw, 0xFFFF, 0x8080, false, .none⟩,
  ⟨Reg.TIDE_JUMP_THRESH, 1, 4, 1, 0x10000000, .rw, 0xFFFFFFFF, 0x3E8, false, .none⟩,
  ⟨Reg.TIDE_LOCK_THRESH, 1, 4, 1, 0x10000000, .rw, 0xFFFFFFFF, 0x64, false, .none⟩,
  ⟨Reg.TIDE_SLEW_MAX, 1, 4, 1, 0x10000000, .rw, 0xFF, 0x64, false, .none⟩,
  ⟨Reg.TIDE_HOLDOVER_LIMIT, 1, 4, 1, 0x10000000, .rw, 0xFFFFFFFF, 0xE10, false, .none⟩,
  ⟨Reg.TIDE_STEP_ACCEPT, 1, 4, 1, 0x10000000, .wo, 0x3, 0x0, false, .none⟩,
  ⟨Reg.TIDE_OFFSET_MEAS, 1, 4, 1, 0x10000000, .ro, 0x0, 0x0, false, .none⟩]
/-- More rows of the TIDE registers. -/
def rowsTIDE2 : List RegRow := [
  ⟨Reg.TIDE_PATH_DELAY, 1, 4, 1, 0x10000000, .ro, 0x0, 0x0, false, .none⟩,
  ⟨Reg.TIDE_MASTER_PORT, 1, 4, 1, 0x10000000, .ro, 0x0, 0x0, false, .none⟩,
  ⟨Reg.TIDE_JUMP_W0, 1, 4, 1, 0x10000000, .ro, 0x0, 0x0, false, .w0⟩,
  ⟨Reg.TIDE_JUMP_W1, 1, 4, 1, 0x10000000, .ro, 0x0, 0x0, false, .w1⟩,
  ⟨Reg.TIDE_MASTER_ID_W0, 1, 4, 1, 0x10000000, .ro, 0x0, 0x0, false, .w0⟩,
  ⟨Reg.TIDE_MASTER_ID_W1, 1, 4, 1, 0x10000000, .ro, 0x0, 0x0, false, .w1⟩,
  ⟨Reg.TIDE_PPS_IN_TS_W0, 1, 4, 1, 0x10000000, .ro, 0x0, 0x0, false, .w0⟩,
  ⟨Reg.TIDE_PPS_IN_TS_W1, 1, 4, 1, 0x10000000, .ro, 0x0, 0x0, false, .w1⟩,
  ⟨Reg.TIDE_LATE_LAST, 1, 4, 1, 0x10000000, .ro, 0x0, 0x0, false, .none⟩,
  ⟨Reg.TIDE_OUTLIERS, 1, 4, 1, 0x10000000, .ro, 0x0, 0x0, false, .none⟩,
  ⟨Reg.TIDE_PORT_DELAY, 9, 4, 1, 0x10000000, .rw, 0xFFFFFFFF, 0x0, false, .none⟩]
/-- All rows of the TIDE registers. -/
def rowsTIDE : List RegRow := rowsTIDE0 ++ rowsTIDE1 ++ rowsTIDE2

/-- The rows of the TL registers (R214). -/
def rowsTL : List RegRow := [
  ⟨Reg.TL_STATUS, 1, 4, 1, 0x10000000, .ro, 0x0, 0x0, false, .none⟩,
  ⟨Reg.TL_QUAY_STATUS, 1, 4, 1, 0x10000000, .w1c, 0x180000, 0x10000, false, .none⟩,
  ⟨Reg.TL_QUAY_WM, 1, 4, 1, 0x10000000, .rw, 0xFFFFFFFF, 0x20003000, false, .none⟩,
  ⟨Reg.TL_QUAY_DEPTH, 1, 4, 1, 0x10000000, .ro, 0x0, 0x4000, false, .none⟩,
  ⟨Reg.TL_SYMBOLS_LAST, 1, 4, 1, 0x10000000, .ro, 0x0, 0x0, false, .none⟩,
  ⟨Reg.TL_RESYNC_LAST, 1, 4, 1, 0x10000000, .ro, 0x0, 0x0, false, .none⟩,
  ⟨Reg.TL_ERR_POS, 1, 4, 1, 0x10000000, .ro, 0x0, 0x0, false, .none⟩,
  ⟨Reg.TL_ERR_INFO, 1, 4, 1, 0x10000000, .ro, 0x0, 0x0, false, .none⟩,
  ⟨Reg.TL_REPLAYS, 1, 4, 1, 0x10000000, .ro, 0x0, 0x0, false, .none⟩]

/-- The rows of the GT registers (R215, R263). -/
def rowsGT0 : List RegRow := [
  ⟨Reg.GT_DEC_CFG, 1, 4, 1, 0x10000000, .rw, 0x1F, 0x8, false, .none⟩,
  ⟨Reg.GT_DEC_STATUS, 1, 4, 1, 0x10000000, .ro, 0x0, 0x0, false, .none⟩,
  ⟨Reg.GT_COMMIT_POS, 1, 4, 1, 0x10000000, .ro, 0x0, 0x0, false, .none⟩,
  ⟨Reg.GT_PICS_LAST, 1, 4, 1, 0x10000000, .ro, 0x0, 0x0, false, .none⟩,
  ⟨Reg.GT_CONCEAL_LAST, 1, 4, 1, 0x10000000, .ro, 0x0, 0x0, false, .none⟩,
  ⟨Reg.GT_SUBST_LAST, 1, 4, 1, 0x10000000, .ro, 0x0, 0x0, false, .none⟩,
  ⟨Reg.GT_REPLAYS, 1, 4, 1, 0x10000000, .ro, 0x0, 0x0, false, .none⟩,
  ⟨Reg.GT_ENC_CFG, 1, 4, 1, 0x10000000, .rw, 0x1F, 0x8, false, .none⟩,
  ⟨Reg.GT_ENC_STATUS, 1, 4, 1, 0x10000000, .ro, 0x0, 0x0, false, .none⟩,
  ⟨Reg.GT_ENC_COMMIT_POS, 1, 4, 1, 0x10000000, .ro, 0x0, 0x0, false, .none⟩,
  ⟨Reg.GT_ENC_PICS_LAST, 1, 4, 1, 0x10000000, .ro, 0x0, 0x0, false, .none⟩,
  ⟨Reg.GT_CAND_SRC_LAST, 1, 4, 1, 0x10000000, .ro, 0x0, 0x0, false, .none⟩,
  ⟨Reg.GT_CAND_SIB_LAST, 1, 4, 1, 0x10000000, .ro, 0x0, 0x0, false, .none⟩,
  ⟨Reg.GT_CAND_NBR_LAST, 1, 4, 1, 0x10000000, .ro, 0x0, 0x0, false, .none⟩,
  ⟨Reg.GT_CAND_GLB_LAST, 1, 4, 1, 0x10000000, .ro, 0x0, 0x0, false, .none⟩,
  ⟨Reg.GT_HASH_EXACT_LAST, 1, 4, 1, 0x10000000, .ro, 0x0, 0x0, false, .none⟩]
/-- More rows of the GT registers. -/
def rowsGT1 : List RegRow := [
  ⟨Reg.GT_PALETTE_LAST, 1, 4, 1, 0x10000000, .ro, 0x0, 0x0, false, .none⟩,
  ⟨Reg.GT_IBC_LAST, 1, 4, 1, 0x10000000, .ro, 0x0, 0x0, false, .none⟩,
  ⟨Reg.GT_STRIPE_LAST, 1, 4, 1, 0x10000000, .ro, 0x0, 0x0, false, .none⟩,
  ⟨Reg.GT_CLAMPED_LAST, 1, 4, 1, 0x10000000, .ro, 0x0, 0x0, false, .none⟩,
  ⟨Reg.GT_SIB_WRITES_LAST, 1, 4, 1, 0x10000000, .ro, 0x0, 0x0, false, .none⟩,
  ⟨Reg.GT_ENC_REPLAYS, 1, 4, 1, 0x10000000, .ro, 0x0, 0x0, false, .none⟩]
/-- All rows of the GT registers. -/
def rowsGT : List RegRow := rowsGT0 ++ rowsGT1

/-- The rows of the PL registers (R292). -/
def rowsPL : List RegRow := [
  ⟨Reg.PL_STATE_BASE_LO, 1, 4, 1, 0x10000000, .rw, 0xFFFFFFFF, 0x0, false, .lo40⟩,
  ⟨Reg.PL_STATE_BASE_HI, 1, 4, 1, 0x10000000, .rw, 0xFF, 0x0, false, .hi40⟩,
  ⟨Reg.PL_STATUS, 1, 4, 1, 0x10000000, .ro, 0x0, 0x0, false, .none⟩,
  ⟨Reg.PL_STREAMS, 1, 4, 1, 0x10000000, .ro, 0x0, 0x0, false, .none⟩,
  ⟨Reg.PL_BOOKED, 1, 4, 1, 0x10000000, .ro, 0x0, 0x0, false, .none⟩,
  ⟨Reg.PL_CYCLES_LAST, 1, 4, 1, 0x10000000, .ro, 0x0, 0x0, false, .none⟩,
  ⟨Reg.PL_PICS_LAST, 1, 4, 1, 0x10000000, .ro, 0x0, 0x0, false, .none⟩,
  ⟨Reg.PL_SALVAGED_LAST, 1, 4, 1, 0x10000000, .ro, 0x0, 0x0, false, .none⟩,
  ⟨Reg.PL_REWINDS_LAST, 1, 4, 1, 0x10000000, .ro, 0x0, 0x0, false, .none⟩,
  ⟨Reg.PL_DEFERRED_LAST, 1, 4, 1, 0x10000000, .ro, 0x0, 0x0, false, .none⟩,
  ⟨Reg.PL_GOVERNED_LAST, 1, 4, 1, 0x10000000, .ro, 0x0, 0x0, false, .none⟩,
  ⟨Reg.PL_CLAMPS_LAST, 1, 4, 1, 0x10000000, .ro, 0x0, 0x0, false, .none⟩,
  ⟨Reg.PL_UCW_STATUS, 1, 4, 1, 0x10000000, .ro, 0x0, 0x0, false, .none⟩,
  ⟨Reg.PL_UCW_REARM, 1, 4, 1, 0x10000000, .wo, 0x80000FFF, 0x0, false, .none⟩,
  ⟨Reg.PL_UCW_OVERRUNS, 1, 4, 1, 0x10000000, .ro, 0x0, 0x0, false, .none⟩,
  ⟨Reg.PL_UCW_LAST, 1, 4, 1, 0x10000000, .ro, 0x0, 0x0, false, .none⟩]

/-- The rows of the CMP registers (R325). -/
def rowsCMP0 : List RegRow := [
  ⟨Reg.CMP_LAYOUT_BASE_LO, 1, 4, 1, 0x10000000, .rw, 0xFFFFFFFF, 0x0, true, .lo40⟩,
  ⟨Reg.CMP_LAYOUT_BASE_HI, 1, 4, 1, 0x10000000, .rw, 0xFF, 0x0, true, .hi40⟩,
  ⟨Reg.CMP_LAYOUT_FLIP, 1, 4, 1, 0x10000000, .wo, 0x3FF, 0x0, false, .none⟩,
  ⟨Reg.CMP_LAYOUT_PEND, 1, 4, 1, 0x10000000, .ro, 0x0, 0x0, false, .none⟩,
  ⟨Reg.CMP_LAYOUT_QUERY, 1, 4, 1, 0x10000000, .rw, 0x3FF, 0x0, false, .none⟩,
  ⟨Reg.CMP_LAYOUT_INFO, 1, 4, 1, 0x10000000, .ro, 0x0, 0x0, false, .none⟩,
  ⟨Reg.CMP_LAYOUT_P_W0, 1, 4, 1, 0x10000000, .ro, 0x0, 0x0, false, .w0⟩,
  ⟨Reg.CMP_LAYOUT_P_W1, 1, 4, 1, 0x10000000, .ro, 0x0, 0x0, false, .w1⟩,
  ⟨Reg.CMP_STORM_TEXT_BASE_LO, 1, 4, 1, 0x10000000, .rw, 0xFFFFFFFF, 0x0, false, .lo40⟩,
  ⟨Reg.CMP_STORM_TEXT_BASE_HI, 1, 4, 1, 0x10000000, .rw, 0xFF, 0x0, false, .hi40⟩,
  ⟨Reg.CMP_STORM_STATUS, 1, 4, 1, 0x10000000, .ro, 0x0, 0x0, false, .none⟩,
  ⟨Reg.CMP_STORM_E_W0, 1, 4, 1, 0x10000000, .ro, 0x0, 0x0, false, .w0⟩,
  ⟨Reg.CMP_STORM_E_W1, 1, 4, 1, 0x10000000, .ro, 0x0, 0x0, false, .w1⟩,
  ⟨Reg.CMP_SAFE_SRC_LO, 1, 4, 1, 0x10000000, .rw, 0xFFFFFFFF, 0x0, true, .lo40⟩,
  ⟨Reg.CMP_SAFE_SRC_HI, 1, 4, 1, 0x10000000, .rw, 0xFF, 0x0, true, .hi40⟩,
  ⟨Reg.CMP_SAFE_STATUS, 1, 4, 1, 0x10000000, .ro, 0x0, 0x1, false, .none⟩]
/-- More rows of the CMP registers. -/
def rowsCMP1 : List RegRow := [
  ⟨Reg.CMP_GLYPH_SKIP_LAST, 1, 4, 1, 0x10000000, .ro, 0x0, 0x0, false, .none⟩,
  ⟨Reg.CMP_COLOUR_MISMATCH_LAST, 1, 4, 1, 0x10000000, .ro, 0x0, 0x0, false, .none⟩,
  ⟨Reg.CMP_LATE_LAST, 1, 4, 1, 0x10000000, .ro, 0x0, 0x0, false, .none⟩]
/-- All rows of the CMP registers. -/
def rowsCMP : List RegRow := rowsCMP0 ++ rowsCMP1

/-- The rows of the DISP registers (R327). -/
def rowsDISP : List RegRow := [
  ⟨Reg.DISP_OUT_CTRL, 1, 4, 8, 0x100, .rw, 0x1FE7, 0x160, false, .none⟩,
  ⟨Reg.DISP_OUT_LAYOUT, 1, 4, 8, 0x100, .rws, 0xFFFF, 0xFFFF, false, .none⟩,
  ⟨Reg.DISP_OUT_H, 1, 4, 8, 0x100, .rw, 0xFFFFFFFF, 0x0, false, .none⟩,
  ⟨Reg.DISP_OUT_HSYNC, 1, 4, 8, 0x100, .rw, 0xFFFFFFFF, 0x0, false, .none⟩,
  ⟨Reg.DISP_OUT_V, 1, 4, 8, 0x100, .rw, 0xFFFFFFFF, 0x0, false, .none⟩,
  ⟨Reg.DISP_OUT_VSYNC, 1, 4, 8, 0x100, .rw, 0xFFFFFFFF, 0x0, false, .none⟩,
  ⟨Reg.DISP_OUT_PHASE, 1, 4, 8, 0x100, .rw, 0xFFFFFFFF, 0x0, false, .none⟩,
  ⟨Reg.DISP_OUT_STATUS, 1, 4, 8, 0x100, .ro, 0x0, 0x0, false, .none⟩,
  ⟨Reg.DISP_OUT_LANE_DIAG, 1, 4, 8, 0x100, .ro, 0x0, 0x0, false, .none⟩,
  ⟨Reg.DISP_OUT_EVENT, 1, 4, 8, 0x100, .w1c, 0x1F, 0x0, false, .none⟩,
  ⟨Reg.DISP_OUT_EVENT_ENABLE, 1, 4, 8, 0x100, .rw, 0x1F, 0x0, false, .none⟩,
  ⟨Reg.DISP_OUT_REPEATS_LAST, 1, 4, 8, 0x100, .ro, 0x0, 0x0, false, .none⟩,
  ⟨Reg.DISP_OUT_PCLK, 1, 4, 8, 0x100, .ro, 0x0, 0x0, false, .none⟩]

/-- The rows of the NET registers (R368, R369). -/
def rowsNET0 : List RegRow := [
  ⟨Reg.NET_CFG, 1, 4, 1, 0x10000000, .rw, 0x3F, 0x0, true, .none⟩,
  ⟨Reg.NET_NODE, 1, 4, 1, 0x10000000, .rw, 0xFFFFFFFF, 0xFFFF, true, .none⟩,
  ⟨Reg.NET_EVENT, 1, 4, 1, 0x10000000, .w1c, 0x7FFF, 0x0, false, .none⟩,
  ⟨Reg.NET_EVENT_ENABLE, 1, 4, 1, 0x10000000, .rw, 0x7FFF, 0x0, false, .none⟩,
  ⟨Reg.NET_ELEMENT_ID, 1, 4, 1, 0x10000000, .rw, 0xF, 0x5, false, .none⟩,
  ⟨Reg.NET_RMP_CFG, 1, 4, 1, 0x10000000, .rw, 0x1FFFF, 0x11780, false, .none⟩,
  ⟨Reg.NET_FB_PORT, 1, 4, 1, 0x10000000, .rw, 0xFFFF, 0x1781, false, .none⟩,
  ⟨Reg.NET_CLASS_BASE_LO, 1, 4, 1, 0x10000000, .rw, 0xFFFFFFFF, 0x0, true, .lo40⟩,
  ⟨Reg.NET_CLASS_BASE_HI, 1, 4, 1, 0x10000000, .rw, 0xFF, 0x0, true, .hi40⟩,
  ⟨Reg.NET_FLOW_BASE_LO, 1, 4, 1, 0x10000000, .rw, 0xFFFFFFFF, 0x0, true, .lo40⟩,
  ⟨Reg.NET_FLOW_BASE_HI, 1, 4, 1, 0x10000000, .rw, 0xFF, 0x0, true, .hi40⟩,
  ⟨Reg.NET_RX_UNMATCHED_LAST, 1, 4, 1, 0x10000000, .ro, 0x0, 0x0, false, .none⟩,
  ⟨Reg.NET_RX_POLICED_LAST, 1, 4, 1, 0x10000000, .ro, 0x0, 0x0, false, .none⟩,
  ⟨Reg.NET_RX_NOBUF_LAST, 1, 4, 1, 0x10000000, .ro, 0x0, 0x0, false, .none⟩,
  ⟨Reg.NET_MERGE_BOTH_LOST_LAST, 1, 4, 1, 0x10000000, .ro, 0x0, 0x0, false, .none⟩,
  ⟨Reg.NET_MERGE_DUP_LAST, 1, 4, 1, 0x10000000, .ro, 0x0, 0x0, false, .none⟩]
/-- More rows of the NET registers. -/
def rowsNET1 : List RegRow := [
  ⟨Reg.NET_FB_TX_LAST, 1, 4, 1, 0x10000000, .ro, 0x0, 0x0, false, .none⟩,
  ⟨Reg.NET_FB_BAD_LAST, 1, 4, 1, 0x10000000, .ro, 0x0, 0x0, false, .none⟩,
  ⟨Reg.NET_PORT_MAC_LO, 1, 4, 9, 0x100, .rw, 0xFFFFFFFF, 0x0, false, .none⟩,
  ⟨Reg.NET_PORT_MAC_HI, 1, 4, 9, 0x100, .rw, 0xFFFF, 0x0, false, .none⟩,
  ⟨Reg.NET_PORT_IP4, 1, 4, 9, 0x100, .rw, 0xFFFFFFFF, 0x0, false, .none⟩,
  ⟨Reg.NET_PORT_IP6_, 4, 4, 9, 0x100, .rw, 0xFFFFFFFF, 0x0, false, .none⟩,
  ⟨Reg.NET_PORT_CTRL, 1, 4, 9, 0x100, .rw, 0x7, 0x1, false, .none⟩,
  ⟨Reg.NET_PORT_STATUS, 1, 4, 9, 0x100, .ro, 0x0, 0x0, false, .none⟩,
  ⟨Reg.NET_PORT_RX_BYTES_LAST, 1, 4, 9, 0x100, .ro, 0x0, 0x0, false, .none⟩,
  ⟨Reg.NET_PORT_TX_BYTES_LAST, 1, 4, 9, 0x100, .ro, 0x0, 0x0, false, .none⟩,
  ⟨Reg.NET_PORT_FCS_ERR_LAST, 1, 4, 9, 0x100, .ro, 0x0, 0x0, false, .none⟩,
  ⟨Reg.NET_PORT_FEC_CORR_LAST, 1, 4, 9, 0x100, .ro, 0x0, 0x0, false, .none⟩,
  ⟨Reg.NET_PORT_FEC_UNCORR_LAST, 1, 4, 9, 0x100, .ro, 0x0, 0x0, false, .none⟩,
  ⟨Reg.NET_PORT_TX_DROP_LAST, 1, 4, 9, 0x100, .ro, 0x0, 0x0, false, .none⟩]
/-- All rows of the NET registers. -/
def rowsNET : List RegRow := rowsNET0 ++ rowsNET1

/-- The rows of the FEED registers (R371). -/
def rowsFEED : List RegRow := [
  ⟨Reg.FEED_CTRL, 1, 4, 2, 0x100, .rw, 0x1F, 0x10, false, .none⟩,
  ⟨Reg.FEED_FIFO_STATUS, 1, 4, 2, 0x100, .w1c, 0x180000, 0x10000, false, .none⟩,
  ⟨Reg.FEED_FIFO_WM, 1, 4, 2, 0x100, .rw, 0xFFFFFFFF, 0x8000C0, false, .none⟩,
  ⟨Reg.FEED_FIFO_DEPTH, 1, 4, 2, 0x100, .ro, 0x0, 0x100, false, .none⟩,
  ⟨Reg.FEED_DATA, 1, 4, 2, 0x100, .ro, 0x0, 0x0, false, .none⟩,
  ⟨Reg.FEED_STATUS, 1, 4, 2, 0x100, .ro, 0x0, 0x0, false, .none⟩,
  ⟨Reg.FEED_PIN_DIAG, 1, 4, 2, 0x100, .ro, 0x0, 0x0, false, .none⟩,
  ⟨Reg.FEED_EVENT, 1, 4, 2, 0x100, .w1c, 0x1F, 0x0, false, .none⟩,
  ⟨Reg.FEED_EVENT_ENABLE, 1, 4, 2, 0x100, .rw, 0x1F, 0x0, false, .none⟩,
  ⟨Reg.FEED_PKTS_LAST, 1, 4, 2, 0x100, .ro, 0x0, 0x0, false, .none⟩,
  ⟨Reg.FEED_SYNC_ERR_LAST, 1, 4, 2, 0x100, .ro, 0x0, 0x0, false, .none⟩,
  ⟨Reg.FEED_OVERRUN_LAST, 1, 4, 2, 0x100, .ro, 0x0, 0x0, false, .none⟩,
  ⟨Reg.FEED_CC_ERR_LAST, 1, 4, 2, 0x100, .ro, 0x0, 0x0, false, .none⟩,
  ⟨Reg.FEED_HOLD_LAST, 1, 4, 2, 0x100, .ro, 0x0, 0x0, false, .none⟩,
  ⟨Reg.FEED_PID, 8, 4, 2, 0x100, .rw, 0xFFF3FFF, 0x0, false, .none⟩]

/-- The rows of the HM registers (R413, R414). -/
def rowsHM0 : List RegRow := [
  ⟨Reg.HM_QCTX_BASE_LO, 1, 4, 1, 0x10000000, .rw, 0xFFFFFFFF, 0x0, true, .lo40⟩,
  ⟨Reg.HM_QCTX_BASE_HI, 1, 4, 1, 0x10000000, .rw, 0xFF, 0x0, true, .hi40⟩,
  ⟨Reg.HM_SCTX_BASE_LO, 1, 4, 1, 0x10000000, .rw, 0xFFFFFFFF, 0x0, true, .lo40⟩,
  ⟨Reg.HM_SCTX_BASE_HI, 1, 4, 1, 0x10000000, .rw, 0xFF, 0x0, true, .hi40⟩,
  ⟨Reg.HM_SAMPLE_BASE_LO, 1, 4, 1, 0x10000000, .rw, 0xFFFFFFFF, 0x0, false, .lo40⟩,
  ⟨Reg.HM_SAMPLE_BASE_HI, 1, 4, 1, 0x10000000, .rw, 0xFF, 0x0, false, .hi40⟩,
  ⟨Reg.HM_SAMPLE_CFG, 1, 4, 1, 0x10000000, .rw, 0xF, 0x0, false, .none⟩,
  ⟨Reg.HM_SAMPLE_WR, 1, 4, 1, 0x10000000, .ro, 0x0, 0x0, false, .none⟩,
  ⟨Reg.HM_SAMPLE_RD, 1, 4, 1, 0x10000000, .rw, 0xFFFFFFFF, 0x0, false, .none⟩,
  ⟨Reg.HM_BOOK_FRAC, 1, 4, 1, 0x10000000, .ro, 0x0, 0x384, false, .none⟩,
  ⟨Reg.HM_USABLE_NS, 1, 4, 1, 0x10000000, .ro, 0x0, 0xE4E1C0, false, .none⟩,
  ⟨Reg.HM_BW_RESERVE, 1, 4, 1, 0x10000000, .rws, 0xFF, 0x40, false, .none⟩,
  ⟨Reg.HM_TL_DEC_BINS, 1, 4, 1, 0x10000000, .rws, 0xFFFFFFFF, 0x100, false, .none⟩,
  ⟨Reg.HM_TL_ENC_BINS, 1, 4, 1, 0x10000000, .rws, 0xFFFFFFFF, 0x180, false, .none⟩,
  ⟨Reg.HM_COST_MISC, 1, 4, 1, 0x10000000, .rw, 0xFFFFFFFF, 0x3E8, false, .none⟩,
  ⟨Reg.HM_DELIVER_Q, 1, 4, 1, 0x10000000, .rw, 0xFFFFF, 0xFFFFF, false, .none⟩]
/-- More rows of the HM registers. -/
def rowsHM1 : List RegRow := [
  ⟨Reg.HM_EVENT, 1, 4, 1, 0x10000000, .w1c, 0xFF, 0x0, false, .none⟩,
  ⟨Reg.HM_EVENT_ENABLE, 1, 4, 1, 0x10000000, .rw, 0xFF, 0x0, false, .none⟩,
  ⟨Reg.HM_CPEND, 1, 4, 1, 0x10000000, .w1c, 0xFFFFFFFF, 0x0, false, .none⟩,
  ⟨Reg.HM_CPEND_ENABLE, 1, 4, 1, 0x10000000, .rw, 0xFFFFFFFF, 0x0, false, .none⟩,
  ⟨Reg.HM_BW_BOOKED, 1, 4, 1, 0x10000000, .ro, 0x0, 0x0, false, .none⟩,
  ⟨Reg.HM_BW_LIMIT, 1, 4, 1, 0x10000000, .ro, 0x0, 0x3E80, false, .none⟩,
  ⟨Reg.HM_ENERGY_BOOKED, 1, 4, 1, 0x10000000, .ro, 0x0, 0x0, false, .none⟩,
  ⟨Reg.HM_DISPATCH_MAX_LAST, 1, 4, 1, 0x10000000, .ro, 0x0, 0x0, false, .none⟩,
  ⟨Reg.HM_DISPATCHES_LAST, 1, 4, 1, 0x10000000, .ro, 0x0, 0x0, false, .none⟩,
  ⟨Reg.HM_QC_MISS_LAST, 1, 4, 1, 0x10000000, .ro, 0x0, 0x0, false, .none⟩,
  ⟨Reg.HM_CACHED, 1, 4, 1, 0x10000000, .ro, 0x0, 0x0, false, .none⟩,
  ⟨Reg.HM_DEADLINE_MISS_LAST, 1, 4, 1, 0x10000000, .ro, 0x0, 0x0, false, .none⟩,
  ⟨Reg.HM_DOORBELL_BAD_LAST, 1, 4, 1, 0x10000000, .ro, 0x0, 0x0, false, .none⟩,
  ⟨Reg.HM_DELIVER_DROP_LAST, 1, 4, 1, 0x10000000, .ro, 0x0, 0x0, false, .none⟩,
  ⟨Reg.HM_BOOK_CMD, 1, 4, 1, 0x10000000, .wo, 0xFFFF, 0x0, false, .none⟩,
  ⟨Reg.HM_BOOK_STATUS, 1, 4, 1, 0x10000000, .ro, 0x0, 0x0, false, .none⟩]
/-- More rows of the HM registers. -/
def rowsHM2 : List RegRow := [
  ⟨Reg.HM_BERTH_SEL, 1, 4, 1, 0x10000000, .rw, 0xFFF, 0x0, false, .none⟩,
  ⟨Reg.HM_BERTH_LOAD, 1, 4, 1, 0x10000000, .ro, 0x0, 0x0, false, .none⟩,
  ⟨Reg.HM_BERTH_STREAMS, 1, 4, 1, 0x10000000, .ro, 0x0, 0x0, false, .none⟩,
  ⟨Reg.HM_QC_SEL, 1, 4, 1, 0x10000000, .rw, 0xFFFFF, 0x0, false, .none⟩,
  ⟨Reg.HM_QC_CMD, 1, 4, 1, 0x10000000, .wo, 0xFFFFFFFF, 0x0, false, .none⟩,
  ⟨Reg.HM_QC_STATUS, 1, 4, 1, 0x10000000, .ro, 0x0, 0x0, false, .none⟩,
  ⟨Reg.HM_QC_DATA, 16, 4, 1, 0x10000000, .rw, 0xFFFFFFFF, 0x0, false, .none⟩,
  ⟨Reg.HM_GATE_STATUS, 1, 4, 16, 0x40, .ro, 0x0, 0xFF, false, .none⟩,
  ⟨Reg.HM_GATE_CTRL, 1, 4, 16, 0x40, .rw, 0xFF01, 0xFF00, false, .none⟩,
  ⟨Reg.HM_GATE_COUNT, 1, 4, 16, 0x40, .rw, 0x1FF, 0x1, false, .none⟩,
  ⟨Reg.HM_GATE_CHANGE_W0, 1, 4, 16, 0x40, .rw, 0xFFFFFFFF, 0x0, false, .w0⟩,
  ⟨Reg.HM_GATE_CHANGE_W1, 1, 4, 16, 0x40, .rw, 0xFFFFFFFF, 0x0, false, .w1⟩,
  ⟨Reg.HM_GATE_SWAP, 1, 4, 16, 0x40, .rws, 0x1, 0x0, false, .none⟩,
  ⟨Reg.HM_GATE_CYCLE, 1, 4, 16, 0x40, .ro, 0x0, 0x0, false, .none⟩,
  ⟨Reg.HM_GATE_ADMIN_MASK, 256, 8, 16, 0x800, .rw, 0xFFFFFFFF, 0x0, false, .none⟩,
  ⟨Reg.HM_GATE_ADMIN_INTERVAL, 256, 8, 16, 0x800, .rw, 0xFFFFFFFF, 0x0, false, .none⟩]
/-- More rows of the HM registers. -/
def rowsHM3 : List RegRow := [
  ⟨Reg.HM_GATE_OPER_MASK, 256, 8, 16, 0x800, .ro, 0x0, 0x0, false, .none⟩,
  ⟨Reg.HM_GATE_OPER_INTERVAL, 256, 8, 16, 0x800, .ro, 0x0, 0x0, false, .none⟩]
/-- All rows of the HM registers. -/
def rowsHM : List RegRow := rowsHM0 ++ rowsHM1 ++ rowsHM2 ++ rowsHM3

/-- The rows of the PWR registers (R440). -/
def rowsPWR0 : List RegRow := [
  ⟨Reg.PWR_CEILING, 1, 4, 1, 0x10000000, .rws, 0x1FF, 0x12C, false, .none⟩,
  ⟨Reg.PWR_CEIL_EFF, 1, 4, 1, 0x10000000, .ro, 0x0, 0x12C, false, .none⟩,
  ⟨Reg.PWR_GOV_CTRL, 1, 4, 1, 0x10000000, .rw, 0xF0701, 0x20701, false, .none⟩,
  ⟨Reg.PWR_GOV_STATUS, 1, 4, 1, 0x10000000, .ro, 0x0, 0x7, false, .none⟩,
  ⟨Reg.PWR_BUCKET_LO, 1, 4, 1, 0x10000000, .ro, 0x0, 0x0, false, .lo40⟩,
  ⟨Reg.PWR_BUCKET_HI, 1, 4, 1, 0x10000000, .ro, 0x0, 0x0, false, .hi40⟩,
  ⟨Reg.PWR_REFILL, 1, 4, 1, 0x10000000, .ro, 0x0, 0x0, false, .none⟩,
  ⟨Reg.PWR_EFF, 1, 4, 1, 0x10000000, .ro, 0x0, 0x398, false, .none⟩,
  ⟨Reg.PWR_FIXED_MW, 1, 4, 1, 0x10000000, .ro, 0x0, 0x25D78, false, .none⟩,
  ⟨Reg.PWR_EVENT, 1, 4, 1, 0x10000000, .w1c, 0xFF, 0x0, false, .none⟩,
  ⟨Reg.PWR_EVENT_ENABLE, 1, 4, 1, 0x10000000, .rw, 0xFF, 0x0, false, .none⟩,
  ⟨Reg.PWR_TEMP, 1, 4, 1, 0x10000000, .ro, 0x0, 0x0, false, .none⟩,
  ⟨Reg.PWR_NEED_LAST, 1, 4, 1, 0x10000000, .ro, 0x0, 0x0, false, .none⟩,
  ⟨Reg.PWR_JOBS_ENERGY_LAST, 1, 4, 1, 0x10000000, .ro, 0x0, 0x0, false, .none⟩,
  ⟨Reg.PWR_IN_ENERGY_LAST, 1, 4, 1, 0x10000000, .ro, 0x0, 0x0, false, .none⟩,
  ⟨Reg.PWR_GOVERNED_TIDES, 1, 4, 1, 0x10000000, .ro, 0x0, 0x0, false, .none⟩]
/-- More rows of the PWR registers. -/
def rowsPWR1 : List RegRow := [
  ⟨Reg.PWR_GATE_CFG, 1, 4, 1, 0x10000000, .rw, 0x1FFFF, 0x10100, false, .none⟩,
  ⟨Reg.PWR_SPAD_IDLE, 1, 4, 1, 0x10000000, .rw, 0xFFFF, 0x1000, false, .none⟩,
  ⟨Reg.PWR_COEF_RESET, 1, 4, 1, 0x10000000, .wo, 0x1, 0x0, false, .none⟩,
  ⟨Reg.PWR_IN_A_STATUS, 1, 4, 1, 0x10000000, .ro, 0x0, 0x0, false, .none⟩,
  ⟨Reg.PWR_IN_A_MV, 1, 4, 1, 0x10000000, .ro, 0x0, 0x0, false, .none⟩,
  ⟨Reg.PWR_IN_A_MA, 1, 4, 1, 0x10000000, .ro, 0x0, 0x0, false, .none⟩,
  ⟨Reg.PWR_IN_B_STATUS, 1, 4, 1, 0x10000000, .ro, 0x0, 0x0, false, .none⟩,
  ⟨Reg.PWR_IN_B_MV, 1, 4, 1, 0x10000000, .ro, 0x0, 0x0, false, .none⟩,
  ⟨Reg.PWR_IN_B_MA, 1, 4, 1, 0x10000000, .ro, 0x0, 0x0, false, .none⟩,
  ⟨Reg.PWR_IN_MW, 1, 4, 1, 0x10000000, .ro, 0x0, 0x0, false, .none⟩,
  ⟨Reg.PWR_HOLDUP_MV, 1, 4, 1, 0x10000000, .ro, 0x0, 0x0, false, .none⟩,
  ⟨Reg.PWR_IN_CTRL, 1, 4, 1, 0x10000000, .rw, 0x3, 0x3, false, .none⟩,
  ⟨Reg.PWR_RAIL_MW, 1, 4, 1, 0x10000000, .ro, 0x0, 0x0, false, .none⟩,
  ⟨Reg.PWR_HOLDUP_RIDES, 1, 4, 1, 0x10000000, .ro, 0x0, 0x0, false, .none⟩,
  ⟨Reg.PWR_UNIT_CTRL, 256, 4, 1, 0x10000000, .rw, 0x3, 0x0, false, .none⟩,
  ⟨Reg.PWR_SPAD_STATE, 192, 4, 1, 0x10000000, .ro, 0x0, 0x0, false, .none⟩]
/-- More rows of the PWR registers. -/
def rowsPWR2 : List RegRow := [
  ⟨Reg.PWR_SPAD_CTRL, 48, 4, 1, 0x10000000, .rw, 0x17F, 0x0, false, .none⟩,
  ⟨Reg.PWR_COEF, 8, 8, 1, 0x10000000, .ro, 0x0, 0x0, false, .none⟩,
  ⟨Reg.PWR_COEF_FACTORY, 8, 8, 1, 0x10000000, .ro, 0x0, 0x0, false, .none⟩]
/-- All rows of the PWR registers. -/
def rowsPWR : List RegRow := rowsPWR0 ++ rowsPWR1 ++ rowsPWR2

/-- The rows of the MEM registers (R472, R473). -/
def rowsMEM0 : List RegRow := [
  ⟨Reg.MEM_STATUS, 1, 4, 1, 0x10000000, .ro, 0x0, 0x1F00, false, .none⟩,
  ⟨Reg.MEM_EVENT, 1, 4, 1, 0x10000000, .w1c, 0xFFF7, 0x0, false, .none⟩,
  ⟨Reg.MEM_EVENT_ENABLE, 1, 4, 1, 0x10000000, .rw, 0xFFF7, 0x0, false, .none⟩,
  ⟨Reg.MEM_HASH, 1, 4, 1, 0x10000000, .rw, 0x7FFFFFFF, 0x8080808, true, .none⟩,
  ⟨Reg.MEM_HASH1, 1, 4, 1, 0x10000000, .rw, 0x7FFFFFFF, 0x10101010, true, .none⟩,
  ⟨Reg.MEM_HASH2, 1, 4, 1, 0x10000000, .rw, 0x7FFFFFFF, 0x20202020, true, .none⟩,
  ⟨Reg.MEM_HASH3, 1, 4, 1, 0x10000000, .rw, 0x7FFFFFFF, 0x40404040, true, .none⟩,
  ⟨Reg.MEM_HASH4, 1, 4, 1, 0x10000000, .rw, 0x7FFFFFFF, 0x4040004, true, .none⟩,
  ⟨Reg.MEM_HASH5, 1, 4, 1, 0x10000000, .rw, 0x7FFFFFFF, 0x808080, true, .none⟩,
  ⟨Reg.MEM_HASH6, 1, 4, 1, 0x10000000, .rw, 0x7FFFFFFF, 0x1010100, true, .none⟩,
  ⟨Reg.MEM_HASH7, 1, 4, 1, 0x10000000, .rw, 0x7FFFFFFF, 0x2020200, true, .none⟩,
  ⟨Reg.MEM_HASH8, 1, 4, 1, 0x10000000, .rw, 0x7FFFFFFF, 0x44000400, true, .none⟩,
  ⟨Reg.MEM_DRIFT, 1, 4, 1, 0x10000000, .rw, 0x1F, 0x8, false, .none⟩,
  ⟨Reg.MEM_MIG_RATE, 1, 4, 1, 0x10000000, .rw, 0x3F, 0x14, false, .none⟩,
  ⟨Reg.MEM_MIG_CTRL, 1, 4, 1, 0x10000000, .rw, 0x3, 0x1, false, .none⟩,
  ⟨Reg.MEM_MIG_FORCE, 1, 4, 1, 0x10000000, .wo, 0x8000000F, 0x0, false, .none⟩]
/-- More rows of the MEM registers. -/
def rowsMEM1 : List RegRow := [
  ⟨Reg.MEM_MIG_STATUS, 1, 4, 1, 0x10000000, .ro, 0x0, 0x0, false, .none⟩,
  ⟨Reg.MEM_MIG_DONE_MIB, 1, 4, 1, 0x10000000, .ro, 0x0, 0x0, false, .none⟩,
  ⟨Reg.MEM_MIGRATIONS, 1, 4, 1, 0x10000000, .ro, 0x0, 0x0, false, .none⟩,
  ⟨Reg.MEM_EDC_CFG, 1, 4, 1, 0x10000000, .rw, 0xFFFF0007, 0x3E80003, false, .none⟩,
  ⟨Reg.MEM_REF_CFG, 1, 4, 1, 0x10000000, .rw, 0xFFFFFF, 0x55076C, false, .none⟩,
  ⟨Reg.MEM_SR_IDLE, 1, 4, 1, 0x10000000, .rw, 0x3FF, 0x0, false, .none⟩,
  ⟨Reg.MEM_SCHED_CFG, 1, 4, 1, 0x10000000, .rw, 0xFF0F, 0x2804, false, .none⟩,
  ⟨Reg.MEM_PROT_BASE_LO, 1, 4, 1, 0x10000000, .rw, 0xFFFFFFFF, 0x0, true, .lo40⟩,
  ⟨Reg.MEM_PROT_BASE_HI, 1, 4, 1, 0x10000000, .rw, 0xFF, 0x0, true, .hi40⟩,
  ⟨Reg.MEM_PROT_SIZE, 1, 4, 1, 0x10000000, .rw, 0x107, 0x0, true, .none⟩,
  ⟨Reg.MEM_SCRUB_CFG, 1, 4, 1, 0x10000000, .rw, 0xFF, 0x18, false, .none⟩,
  ⟨Reg.MEM_PROT_CE_LAST, 1, 4, 1, 0x10000000, .ro, 0x0, 0x0, false, .none⟩,
  ⟨Reg.MEM_PROT_UE, 1, 4, 1, 0x10000000, .ro, 0x0, 0x0, false, .none⟩,
  ⟨Reg.MEM_ERR_ADDR_LO, 1, 4, 1, 0x10000000, .ro, 0x0, 0x0, false, .lo40⟩,
  ⟨Reg.MEM_ERR_ADDR_HI, 1, 4, 1, 0x10000000, .ro, 0x0, 0x0, false, .hi40⟩,
  ⟨Reg.MEM_ERR_INFO, 1, 4, 1, 0x10000000, .ro, 0x0, 0x0, false, .none⟩]
/-- More rows of the MEM registers. -/
def rowsMEM2 : List RegRow := [
  ⟨Reg.MEM_ERR_CLEAR, 1, 4, 1, 0x10000000, .wo, 0x1, 0x0, false, .none⟩,
  ⟨Reg.MEM_POISONED, 1, 4, 1, 0x10000000, .ro, 0x0, 0x0, false, .none⟩,
  ⟨Reg.MEM_INPLACE_STEPS_LAST, 1, 4, 1, 0x10000000, .ro, 0x0, 0x0, false, .none⟩,
  ⟨Reg.MEM_PORT_STATUS, 1, 4, 17, 0x100, .ro, 0x0, 0x6, false, .none⟩,
  ⟨Reg.MEM_PORT_TEMP, 1, 4, 17, 0x100, .ro, 0x0, 0x0, false, .none⟩,
  ⟨Reg.MEM_PORT_SETS, 1, 4, 17, 0x100, .ro, 0x0, 0x0, false, .none⟩,
  ⟨Reg.MEM_PORT_SET_SEL, 1, 4, 17, 0x100, .rw, 0xF, 0x0, false, .none⟩,
  ⟨Reg.MEM_PORT_SET_INFO, 1, 4, 17, 0x100, .ro, 0x0, 0x0, false, .none⟩,
  ⟨Reg.MEM_PORT_EDC_RETRY_LAST, 1, 4, 17, 0x100, .ro, 0x0, 0x0, false, .none⟩,
  ⟨Reg.MEM_PORT_EDC_FAIL, 1, 4, 17, 0x100, .ro, 0x0, 0x0, false, .none⟩,
  ⟨Reg.MEM_PORT_BYTES_LAST, 1, 4, 17, 0x100, .ro, 0x0, 0x0, false, .none⟩,
  ⟨Reg.MEM_PORT_REFAB_LAST, 1, 4, 17, 0x100, .ro, 0x0, 0x0, false, .none⟩,
  ⟨Reg.MEM_PORT_CAL_COUNT, 1, 4, 17, 0x100, .ro, 0x0, 0x0, false, .none⟩]
/-- All rows of the MEM registers. -/
def rowsMEM : List RegRow := rowsMEM0 ++ rowsMEM1 ++ rowsMEM2

/-- The rows of the POOL registers (R494, R495). -/
def rowsPOOL0 : List RegRow := [
  ⟨Reg.POOL_META_BASE_LO, 1, 4, 1, 0x10000000, .rw, 0xFFFFFFFF, 0x0, true, .lo40⟩,
  ⟨Reg.POOL_META_BASE_HI, 1, 4, 1, 0x10000000, .rw, 0xFF, 0x0, true, .hi40⟩,
  ⟨Reg.POOL_EVENT, 1, 4, 1, 0x10000000, .w1c, 0x1FF, 0x0, false, .none⟩,
  ⟨Reg.POOL_EVENT_ENABLE, 1, 4, 1, 0x10000000, .rw, 0x1FF, 0x0, false, .none⟩,
  ⟨Reg.POOL_CMD, 1, 4, 1, 0x10000000, .wo, 0xFFFFFFF, 0x0, false, .none⟩,
  ⟨Reg.POOL_CMD_STATUS, 1, 4, 1, 0x10000000, .ro, 0x0, 0x0, false, .none⟩,
  ⟨Reg.POOL_ADDR_LO, 1, 4, 1, 0x10000000, .rw, 0xFFFFFFFF, 0x0, false, .lo40⟩,
  ⟨Reg.POOL_ADDR_HI, 1, 4, 1, 0x10000000, .rw, 0xFF, 0x0, false, .hi40⟩,
  ⟨Reg.POOL_RESULT_LO, 1, 4, 1, 0x10000000, .ro, 0x0, 0x0, false, .lo40⟩,
  ⟨Reg.POOL_RESULT_HI, 1, 4, 1, 0x10000000, .ro, 0x0, 0x0, false, .hi40⟩,
  ⟨Reg.POOL_REFUSE_ADDR_LO, 1, 4, 1, 0x10000000, .ro, 0x0, 0x0, false, .lo40⟩,
  ⟨Reg.POOL_REFUSE_ADDR_HI, 1, 4, 1, 0x10000000, .ro, 0x0, 0x0, false, .hi40⟩,
  ⟨Reg.POOL_REFUSE_INFO, 1, 4, 1, 0x10000000, .ro, 0x0, 0x0, false, .none⟩,
  ⟨Reg.POOL_REFUSE_CLEAR, 1, 4, 1, 0x10000000, .wo, 0x1, 0x0, false, .none⟩,
  ⟨Reg.POOL_REFUSED_LAST, 1, 4, 1, 0x10000000, .ro, 0x0, 0x0, false, .none⟩,
  ⟨Reg.POOL_OPS_LAST, 1, 4, 1, 0x10000000, .ro, 0x0, 0x0, false, .none⟩]
/-- More rows of the POOL registers. -/
def rowsPOOL1 : List RegRow := [
  ⟨Reg.POOL_BASE_LO, 1, 4, 256, 0x40, .rw, 0xFFFFFFFF, 0x0, false, .lo40⟩,
  ⟨Reg.POOL_BASE_HI, 1, 4, 256, 0x40, .rw, 0xFF, 0x0, false, .hi40⟩,
  ⟨Reg.POOL_CFG, 1, 4, 256, 0x40, .rw, 0x31F, 0xB, false, .none⟩,
  ⟨Reg.POOL_COUNT, 1, 4, 256, 0x40, .rw, 0x1FFFFF, 0x1, false, .none⟩,
  ⟨Reg.POOL_FIRST_INDEX, 1, 4, 256, 0x40, .rw, 0x3FFFFF, 0x0, false, .none⟩,
  ⟨Reg.POOL_NOTICE, 1, 4, 256, 0x40, .rw, 0x1FFFFF, 0x0, false, .none⟩,
  ⟨Reg.POOL_PRESSURE, 1, 4, 256, 0x40, .rw, 0x1FFFFF, 0x0, false, .none⟩,
  ⟨Reg.POOL_CRITICAL, 1, 4, 256, 0x40, .rw, 0x1FFFFF, 0x0, false, .none⟩,
  ⟨Reg.POOL_HYST, 1, 4, 256, 0x40, .rw, 0x1FFFFF, 0x0, false, .none⟩,
  ⟨Reg.POOL_STATUS, 1, 4, 256, 0x40, .ro, 0x0, 0x0, false, .none⟩,
  ⟨Reg.POOL_FREE, 1, 4, 256, 0x40, .ro, 0x0, 0x0, false, .none⟩,
  ⟨Reg.POOL_LOW_LAST, 1, 4, 256, 0x40, .ro, 0x0, 0x0, false, .none⟩,
  ⟨Reg.POOL_FAIL_LAST, 1, 4, 256, 0x40, .ro, 0x0, 0x0, false, .none⟩,
  ⟨Reg.POOL_CHECK_FAIL, 1, 4, 256, 0x40, .ro, 0x0, 0x0, false, .none⟩]
/-- All rows of the POOL registers. -/
def rowsPOOL : List RegRow := rowsPOOL0 ++ rowsPOOL1

/-- The rows of the LT registers (R519). -/
def rowsLT : List RegRow := [
  ⟨Reg.LT_FLAGS, 1, 4, 1, 0x10000000, .w1c, 0xFFFFFFFF, 0x0, false, .none⟩,
  ⟨Reg.LT_FLAGS_SET, 1, 4, 1, 0x10000000, .w1s, 0xFFFFFFFF, 0x0, false, .none⟩,
  ⟨Reg.LT_RUNNING0, 1, 4, 1, 0x10000000, .ro, 0x0, 0x0, false, .none⟩,
  ⟨Reg.LT_RUNNING1, 1, 4, 1, 0x10000000, .ro, 0x0, 0x0, false, .none⟩,
  ⟨Reg.LT_BYTES_LAST, 1, 4, 1, 0x10000000, .ro, 0x0, 0x0, false, .none⟩,
  ⟨Reg.LT_HALTS_LAST, 1, 4, 1, 0x10000000, .ro, 0x0, 0x0, false, .none⟩]

/-- The rows of the LT_CH registers (R520). -/
def rowsLT_CH0 : List RegRow := [
  ⟨Reg.LT_CFG, 1, 4, 1, 0x10000000, .rw, 0x7, 0x3, false, .none⟩,
  ⟨Reg.LT_STATUS, 1, 4, 1, 0x10000000, .ro, 0x0, 0x0, false, .none⟩,
  ⟨Reg.LT_EVENT, 1, 4, 1, 0x10000000, .w1c, 0x1F, 0x0, false, .none⟩,
  ⟨Reg.LT_EVENT_ENABLE, 1, 4, 1, 0x10000000, .rw, 0x1F, 0x0, false, .none⟩,
  ⟨Reg.LT_REMAIN, 1, 4, 1, 0x10000000, .ro, 0x0, 0x0, false, .none⟩,
  ⟨Reg.LT_PROG_LO, 1, 4, 1, 0x10000000, .ro, 0x0, 0x0, false, .lo40⟩,
  ⟨Reg.LT_PROG_HI, 1, 4, 1, 0x10000000, .ro, 0x0, 0x0, false, .hi40⟩,
  ⟨Reg.LT_OS_LO, 1, 4, 1, 0x10000000, .ro, 0x0, 0x0, false, .lo40⟩,
  ⟨Reg.LT_OS_HI, 1, 4, 1, 0x10000000, .ro, 0x0, 0x0, false, .hi40⟩,
  ⟨Reg.LT_OD_LO, 1, 4, 1, 0x10000000, .ro, 0x0, 0x0, false, .lo40⟩,
  ⟨Reg.LT_OD_HI, 1, 4, 1, 0x10000000, .ro, 0x0, 0x0, false, .hi40⟩,
  ⟨Reg.LT_ERR_ADDR_LO, 1, 4, 1, 0x10000000, .ro, 0x0, 0x0, false, .lo40⟩,
  ⟨Reg.LT_ERR_ADDR_HI, 1, 4, 1, 0x10000000, .ro, 0x0, 0x0, false, .hi40⟩,
  ⟨Reg.LT_ERR_INFO, 1, 4, 1, 0x10000000, .ro, 0x0, 0x0, false, .none⟩,
  ⟨Reg.LT_ERR_CLEAR, 1, 4, 1, 0x10000000, .wo, 0x1, 0x0, false, .none⟩,
  ⟨Reg.LT_LOOP, 4, 4, 1, 0x10000000, .ro, 0x0, 0x0, false, .none⟩]
/-- More rows of the LT_CH registers. -/
def rowsLT_CH1 : List RegRow := [
  ⟨Reg.LT_HOLD_W0, 1, 4, 1, 0x10000000, .ro, 0x0, 0x0, false, .w0⟩,
  ⟨Reg.LT_HOLD_W1, 1, 4, 1, 0x10000000, .ro, 0x0, 0x0, false, .w1⟩,
  ⟨Reg.LT_HOLD_FILL, 1, 4, 1, 0x10000000, .ro, 0x0, 0x0, false, .none⟩,
  ⟨Reg.LT_CH_BYTES_LAST, 1, 4, 1, 0x10000000, .ro, 0x0, 0x0, false, .none⟩]
/-- All rows of the LT_CH registers. -/
def rowsLT_CH : List RegRow := rowsLT_CH0 ++ rowsLT_CH1

/-- The rows of the BELL registers (R577). -/
def rowsBELL : List RegRow := [
  ⟨Reg.BELL_USAGE_LAST, 1, 4, 1, 0x10000000, .ro, 0x0, 0x0, false, .none⟩,
  ⟨Reg.BELL_MERGED_LAST, 1, 4, 1, 0x10000000, .ro, 0x0, 0x0, false, .none⟩,
  ⟨Reg.BELL_FALLBACK_LAST, 1, 4, 1, 0x10000000, .ro, 0x0, 0x0, false, .none⟩,
  ⟨Reg.BELL_ERR_INFO, 1, 4, 1, 0x10000000, .ro, 0x0, 0x0, false, .none⟩,
  ⟨Reg.BELL_ERR_CLEAR, 1, 4, 1, 0x10000000, .wo, 0x1, 0x0, false, .none⟩,
  ⟨Reg.BELL_T_CLAIM, 36, 16, 1, 0x10000000, .ro, 0x0, 0x0, false, .none⟩,
  ⟨Reg.BELL_T_COMPLETE, 36, 16, 1, 0x10000000, .wo, 0x3FF, 0x0, false, .none⟩,
  ⟨Reg.BELL_T_STATUS, 36, 16, 1, 0x10000000, .ro, 0x0, 0x0, false, .none⟩,
  ⟨Reg.BELL_T_CTRL, 36, 16, 1, 0x10000000, .rw, 0x1, 0x1, false, .none⟩,
  ⟨Reg.BELL_SRC_CFG, 1024, 8, 1, 0x10000000, .rw, 0xFFFFBF3F, 0x1F43F00, false, .none⟩,
  ⟨Reg.BELL_SRC_STATE, 1024, 8, 1, 0x10000000, .w1c, 0x1, 0xFC00, false, .none⟩,
  ⟨Reg.BELL_PEND, 32, 4, 1, 0x10000000, .ro, 0x0, 0x0, false, .none⟩,
  ⟨Reg.BELL_ACTIVE, 32, 4, 1, 0x10000000, .ro, 0x0, 0x0, false, .none⟩,
  ⟨Reg.BELL_SWSET, 8, 4, 1, 0x10000000, .wo, 0xFFFFFFFF, 0x0, false, .none⟩,
  ⟨Reg.BELL_MAP, 208, 4, 1, 0x10000000, .rw, 0x8FFF, 0x0, false, .none⟩]

/-- The rows of the HOST registers (R579). -/
def rowsHOST0 : List RegRow := [
  ⟨Reg.HOST_CTRL, 1, 4, 1, 0x10000000, .rw, 0x7, 0x3, true, .none⟩,
  ⟨Reg.HOST_STATUS, 1, 4, 1, 0x10000000, .ro, 0x0, 0x0, false, .none⟩,
  ⟨Reg.HOST_EVENT, 1, 4, 1, 0x10000000, .w1c, 0x7F, 0x0, false, .none⟩,
  ⟨Reg.HOST_EVENT_ENABLE, 1, 4, 1, 0x10000000, .rw, 0x7F, 0x0, false, .none⟩,
  ⟨Reg.HOST_BAR2_BASE_LO, 1, 4, 1, 0x10000000, .rw, 0xFFFFFFFF, 0x0, false, .lo40⟩,
  ⟨Reg.HOST_BAR2_BASE_HI, 1, 4, 1, 0x10000000, .rw, 0xFF, 0x0, false, .hi40⟩,
  ⟨Reg.HOST_BAR2_SIZE, 1, 4, 1, 0x10000000, .ro, 0x0, 0x3, false, .none⟩,
  ⟨Reg.HOST_OUT_BASE_W0, 1, 4, 1, 0x10000000, .rw, 0xFFFFFFFF, 0x0, false, .w0⟩,
  ⟨Reg.HOST_OUT_BASE_W1, 1, 4, 1, 0x10000000, .rw, 0xFFFFFFFF, 0x0, false, .w1⟩,
  ⟨Reg.HOST_OUT_ERR_LAST, 1, 4, 1, 0x10000000, .ro, 0x0, 0x0, false, .none⟩,
  ⟨Reg.HOST_IN_REFUSED_LAST, 1, 4, 1, 0x10000000, .ro, 0x0, 0x0, false, .none⟩,
  ⟨Reg.HOST_MBX_CTRL, 1, 4, 1, 0x10000000, .wo, 0x1, 0x0, false, .none⟩,
  ⟨Reg.HOST_MBX_STATUS, 1, 4, 1, 0x10000000, .ro, 0x0, 0x0, false, .none⟩,
  ⟨Reg.HOST_MBX_REQ, 384, 4, 1, 0x10000000, .rw, 0xFFFFFFFF, 0x0, false, .none⟩,
  ⟨Reg.HOST_MBX_RSP, 384, 4, 1, 0x10000000, .ro, 0x0, 0x0, false, .none⟩,
  ⟨Reg.HOST_MSIX_TABLE, 128, 4, 1, 0x10000000, .rw, 0xFFFFFFFF, 0x0, false, .none⟩]
/-- More rows of the HOST registers. -/
def rowsHOST1 : List RegRow := [
  ⟨Reg.HOST_MSIX_PBA, 2, 4, 1, 0x10000000, .ro, 0x0, 0x0, false, .none⟩]
/-- All rows of the HOST registers. -/
def rowsHOST : List RegRow := rowsHOST0 ++ rowsHOST1

/-- The rows of the WATCH registers (R608). -/
def rowsWATCH0 : List RegRow := [
  ⟨Reg.WATCH_STATUS, 1, 4, 1, 0x10000000, .ro, 0x0, 0x0, false, .none⟩,
  ⟨Reg.WATCH_EVENT, 1, 4, 1, 0x10000000, .w1c, 0xFF, 0x0, false, .none⟩,
  ⟨Reg.WATCH_EVENT_ENABLE, 1, 4, 1, 0x10000000, .rw, 0xFF, 0x0, false, .none⟩,
  ⟨Reg.WATCH_FE_INFO, 1, 4, 1, 0x10000000, .ro, 0x0, 0x0, false, .none⟩,
  ⟨Reg.WATCH_FE_ADDR_LO, 1, 4, 1, 0x10000000, .ro, 0x0, 0x0, false, .lo40⟩,
  ⟨Reg.WATCH_FE_ADDR_HI, 1, 4, 1, 0x10000000, .ro, 0x0, 0x0, false, .hi40⟩,
  ⟨Reg.WATCH_FE_TIDE_W0, 1, 4, 1, 0x10000000, .ro, 0x0, 0x0, false, .w0⟩,
  ⟨Reg.WATCH_FE_TIDE_W1, 1, 4, 1, 0x10000000, .ro, 0x0, 0x0, false, .w1⟩,
  ⟨Reg.WATCH_FE_NS, 1, 4, 1, 0x10000000, .ro, 0x0, 0x0, false, .none⟩,
  ⟨Reg.WATCH_FE_CLEAR, 1, 4, 1, 0x10000000, .wo, 0x1, 0x0, false, .none⟩,
  ⟨Reg.WATCH_SAFE_CAUSE, 1, 4, 1, 0x10000000, .ro, 0x0, 0x0, false, .none⟩,
  ⟨Reg.WATCH_SAFE_FORCE, 1, 4, 1, 0x10000000, .wo, 0x1, 0x0, false, .none⟩,
  ⟨Reg.WATCH_ACK, 1, 4, 1, 0x10000000, .wo, 0xFFFFFFF, 0x0, false, .none⟩,
  ⟨Reg.WATCH_FENCE_CLEAR, 1, 4, 1, 0x10000000, .wo, 0xFFF, 0x0, false, .none⟩,
  ⟨Reg.WATCH_FENCE_STATUS, 1, 4, 1, 0x10000000, .ro, 0x0, 0x0, false, .none⟩,
  ⟨Reg.WATCH_HANG_CFG, 1, 4, 1, 0x10000000, .rw, 0xFFFF, 0x3E8, false, .none⟩]
/-- More rows of the WATCH registers. -/
def rowsWATCH1 : List RegRow := [
  ⟨Reg.WATCH_SPARES, 1, 4, 1, 0x10000000, .ro, 0x0, 0xF00000, false, .none⟩,
  ⟨Reg.WATCH_USAGE_LAST, 1, 4, 1, 0x10000000, .ro, 0x0, 0x0, false, .none⟩,
  ⟨Reg.WATCH_CORRECTED_LAST, 1, 4, 1, 0x10000000, .ro, 0x0, 0x0, false, .none⟩,
  ⟨Reg.WATCH_WARN_LAST, 1, 4, 1, 0x10000000, .ro, 0x0, 0x0, false, .none⟩,
  ⟨Reg.WATCH_FENCES, 1, 4, 1, 0x10000000, .ro, 0x0, 0x0, false, .none⟩,
  ⟨Reg.WATCH_LOG_WR, 1, 4, 1, 0x10000000, .ro, 0x0, 0x0, false, .none⟩,
  ⟨Reg.WATCH_LOG_SEL, 1, 4, 1, 0x10000000, .rw, 0xFF, 0x0, false, .none⟩,
  ⟨Reg.WATCH_LOG_DATA, 4, 4, 1, 0x10000000, .ro, 0x0, 0x0, false, .none⟩,
  ⟨Reg.WATCH_ACTIVE_SEL, 1, 4, 1, 0x10000000, .rw, 0x3F, 0x0, false, .none⟩,
  ⟨Reg.WATCH_ACTIVE_DATA, 1, 4, 1, 0x10000000, .ro, 0x0, 0x0, false, .none⟩]
/-- All rows of the WATCH registers. -/
def rowsWATCH : List RegRow := rowsWATCH0 ++ rowsWATCH1

/-- The rows of the SND registers (R610, R622). -/
def rowsSND0 : List RegRow := [
  ⟨Reg.SND_CTRL, 1, 4, 1, 0x10000000, .rw, 0x3, 0x0, false, .none⟩,
  ⟨Reg.SND_EVENT, 1, 4, 1, 0x10000000, .w1c, 0x1F, 0x0, false, .none⟩,
  ⟨Reg.SND_EVENT_ENABLE, 1, 4, 1, 0x10000000, .rw, 0x1F, 0x0, false, .none⟩,
  ⟨Reg.SND_LOG_BASE_LO, 1, 4, 1, 0x10000000, .rw, 0xFFFFFFFF, 0x0, false, .lo40⟩,
  ⟨Reg.SND_LOG_BASE_HI, 1, 4, 1, 0x10000000, .rw, 0xFF, 0x0, false, .hi40⟩,
  ⟨Reg.SND_LOG_CFG, 1, 4, 1, 0x10000000, .rw, 0xF, 0x0, false, .none⟩,
  ⟨Reg.SND_LOG_WR, 1, 4, 1, 0x10000000, .ro, 0x0, 0x0, false, .none⟩,
  ⟨Reg.SND_LOG_RD, 1, 4, 1, 0x10000000, .rw, 0xFFFFFFFF, 0x0, false, .none⟩,
  ⟨Reg.SND_LOG_DROP_LAST, 1, 4, 1, 0x10000000, .ro, 0x0, 0x0, false, .none⟩,
  ⟨Reg.SND_SAMPLE_CFG, 1, 4, 1, 0x10000000, .rw, 0xF07FFF3, 0x0, false, .none⟩,
  ⟨Reg.SND_SKID_PERIOD, 1, 4, 1, 0x10000000, .rw, 0xFFFFFFFF, 0x10000, false, .none⟩,
  ⟨Reg.SND_TAG_FILTER, 1, 4, 1, 0x10000000, .rw, 0x8FFF, 0x8000, false, .none⟩,
  ⟨Reg.SND_TAG_SEED, 1, 4, 1, 0x10000000, .rw, 0xFFFF, 0xACE1, false, .none⟩,
  ⟨Reg.SND_MISSED_LAST, 1, 4, 1, 0x10000000, .ro, 0x0, 0x0, false, .none⟩,
  ⟨Reg.SND_SAMPLES_LAST, 1, 4, 1, 0x10000000, .ro, 0x0, 0x0, false, .none⟩,
  ⟨Reg.SND_LOG_UNITS, 8, 4, 1, 0x10000000, .rw, 0xFFFFFFFF, 0x0, false, .none⟩]
/-- More rows of the SND registers. -/
def rowsSND1 : List RegRow := [
  ⟨Reg.SND_LOG_SETS, 1, 4, 1, 0x10000000, .rw, 0x3F, 0x0, false, .none⟩,
  ⟨Reg.SNDSET_SEL, 8, 32, 6, 0x100, .rws, 0x1FFF, 0x0, false, .none⟩,
  ⟨Reg.SNDSET_STAT, 8, 32, 6, 0x100, .w1c, 0x1, 0x0, false, .none⟩,
  ⟨Reg.SNDSET_LIVE_W0, 8, 32, 6, 0x100, .ro, 0x0, 0x0, false, .w0⟩,
  ⟨Reg.SNDSET_LIVE_W1, 8, 32, 6, 0x100, .ro, 0x0, 0x0, false, .w1⟩,
  ⟨Reg.SNDSET_LAST_W0, 8, 32, 6, 0x100, .ro, 0x0, 0x0, false, .w0⟩,
  ⟨Reg.SNDSET_LAST_W1, 8, 32, 6, 0x100, .ro, 0x0, 0x0, false, .w1⟩]
/-- All rows of the SND registers. -/
def rowsSND : List RegRow := rowsSND0 ++ rowsSND1

/-- The rows of the SNDC registers (R610). -/
def rowsSNDC : List RegRow := [
  ⟨Reg.SND_SEL, 8, 32, 1, 0x10000000, .rws, 0x1FFF, 0x0, false, .none⟩,
  ⟨Reg.SND_STAT, 8, 32, 1, 0x10000000, .w1c, 0x1, 0x0, false, .none⟩,
  ⟨Reg.SND_LIVE_W0, 8, 32, 1, 0x10000000, .ro, 0x0, 0x0, false, .w0⟩,
  ⟨Reg.SND_LIVE_W1, 8, 32, 1, 0x10000000, .ro, 0x0, 0x0, false, .w1⟩,
  ⟨Reg.SND_LAST_W0, 8, 32, 1, 0x10000000, .ro, 0x0, 0x0, false, .w0⟩,
  ⟨Reg.SND_LAST_W1, 8, 32, 1, 0x10000000, .ro, 0x0, 0x0, false, .w1⟩]

/-- The rows of the CL registers (R326). -/
def rowsCL : List RegRow := [
  ⟨Reg.CL_STATUS, 1, 4, 1, 0x10000000, .ro, 0x0, 0x0, false, .none⟩,
  ⟨Reg.CL_SAMPLES_LAST, 1, 4, 1, 0x10000000, .ro, 0x0, 0x0, false, .none⟩,
  ⟨Reg.CL_BOOKED, 1, 4, 1, 0x10000000, .ro, 0x0, 0x0, false, .none⟩]

/-- The rows of the EG registers (R370). -/
def rowsEG : List RegRow := [
  ⟨Reg.EG_STATUS, 1, 4, 1, 0x10000000, .ro, 0x0, 0x0, false, .none⟩,
  ⟨Reg.EG_BOOKED, 1, 4, 1, 0x10000000, .ro, 0x0, 0x0, false, .none⟩,
  ⟨Reg.EG_PKTS_LAST, 1, 4, 1, 0x10000000, .ro, 0x0, 0x0, false, .none⟩]

/-- The row of a list that holds offset `o`, with the register's place `(i, j)` in it: `off + j × stride2 + i × stride`. -/
def findRow : List RegRow → Nat → Option (RegRow × Nat × Nat)
  | [], _ => none
  | r :: rs, o =>
    if r.off ≤ o ∧ (o - r.off) / r.stride2 < r.n2 ∧ ((o - r.off) % r.stride2) % r.stride = 0
        ∧ ((o - r.off) % r.stride2) / r.stride < r.n then
      some (r, ((o - r.off) % r.stride2) / r.stride, (o - r.off) / r.stride2)
    else findRow rs o


/-! ### Blocks and unit kinds -/

/-- The blocks of the register space (R38). -/
inductive Block where
  | global | cfg | cus | tide | bell | watch | snd | pwr | hm | mem | pool | lt | net | feed | disp | host | cmp | ucb
  | reserved
  deriving DecidableEq, Repr

/-- The block of an offset (R38). -/
def blockOf (o : Nat) : Block :=
  if o < 0x10000 then .global
  else if o < 0x20000 then .cfg
  else if o < 0x40000 then .cus
  else if o < 0x50000 then .tide
  else if o < 0x60000 then .bell
  else if o < 0x70000 then .watch
  else if o < 0x80000 then .snd
  else if o < 0x100000 then .pwr
  else if o < 0x200000 then .hm
  else if o < 0x300000 then .mem
  else if o < 0x400000 then .pool
  else if o < 0x500000 then .lt
  else if o < 0x600000 then .net
  else if o < 0x700000 then .feed
  else if o < 0x800000 then .disp
  else if o < 0x900000 then .host
  else if o < 0xA00000 then .cmp
  else if o < 0x4000000 then .reserved
  else if o < 0x8000000 then .ucb
  else .reserved

/-- Kinds of unit that have a UCB (R40, R43). -/
inductive Kind where
  | gantry | tally | pilot | lane | barge | skiff | egress | group
  deriving DecidableEq, Repr

/-- The kind of a unit ID; none for an agent-only or unallocated ID (R40). -/
def unitKind (u : Nat) : Option Kind :=
  if u < 0x30 then some .gantry
  else if 0x40 ≤ u ∧ u ≤ 0x57 then some .tally
  else if 0x60 ≤ u ∧ u ≤ 0x67 then some .pilot
  else if 0x70 ≤ u ∧ u ≤ 0x77 then some .lane
  else if 0x90 ≤ u ∧ u ≤ 0xBF then some .barge
  else if 0xC0 ≤ u ∧ u ≤ 0xCF then some .skiff
  else if 0xE0 ≤ u ∧ u ≤ 0xE7 then some .egress
  else if 0x400 ≤ u ∧ u ≤ 0xFFF then some .group
  else none

/-- TYPE code of a kind (R43). -/
def Kind.code : Kind → Nat
  | .gantry => 0 | .tally => 1 | .pilot => 2 | .lane => 3 | .barge => 4 | .skiff => 5 | .egress => 6 | .group => 7

/-- Position of a unit within its type (R43). Skiffs count from LT48 as their own type. -/
def unitIndex (u : Nat) : Nat :=
  if u < 0x30 then u
  else if u ≤ 0x57 then u - 0x40
  else if u ≤ 0x67 then u - 0x60
  else if u ≤ 0x77 then u - 0x70
  else if u ≤ 0xBF then u - 0x90
  else if u ≤ 0xCF then u - 0xC0
  else if u ≤ 0xE7 then u - 0xE0
  else u - 0x400

/-- The UCB offset of a unit (R41). -/
def ucb (u o : Nat) : Nat := 0x4000000 + u * 0x4000 + o

/-- The unit whose UCB holds an offset. -/
def ucbUnit (o : Nat) : Nat := (o - 0x4000000) / 0x4000

/-- The offset within a UCB. -/
def ucbOff (o : Nat) : Nat := (o - 0x4000000) % 0x4000

/-- Rows of the unit-type registers of a kind. -/
def kindRows : Kind → List RegRow
  | .gantry => rowsGT
  | .tally => rowsTL
  | .pilot => rowsPL
  | .lane => rowsCL
  | .barge => rowsLT_CH
  | .skiff => rowsLT_CH
  | .egress => rowsEG
  | .group => []

/-- The register row that holds an offset, or none where no register lies (R11, R38, R41, R42). -/
def rowOf (o : Nat) : Option (RegRow × Nat × Nat) :=
  match blockOf o with
  | .global => findRow rowsGLOBAL o
  | .cfg => findRow rowsCFG o
  | .cus => findRow rowsCUS o
  | .tide => findRow rowsTIDE o
  | .bell => findRow rowsBELL o
  | .watch => findRow rowsWATCH o
  | .snd => findRow rowsSND o
  | .pwr => findRow rowsPWR o
  | .hm => findRow rowsHM o
  | .mem => findRow rowsMEM o
  | .pool => findRow rowsPOOL o
  | .lt => findRow rowsLT o
  | .net => findRow rowsNET o
  | .feed => findRow rowsFEED o
  | .disp => findRow rowsDISP o
  | .host => findRow rowsHOST o
  | .cmp => findRow rowsCMP o
  | .reserved => none
  | .ucb =>
    match unitKind (ucbUnit o) with
    | none => none
    | some k =>
      if ucbOff o < 0x100 then findRow rowsUCB (ucbOff o)
      else if ucbOff o < 0x200 then (if ucbUnit o < 0x100 then findRow rowsSNDC (ucbOff o) else none)
      else if ucbOff o < 0x600 then findRow rowsUCB (ucbOff o)
      else findRow (kindRows k) (ucbOff o)

/-- The Reset column of a register (R16); 0 where no register lies. The vector control word of an MSI-X table entry
resets to 1, masked, as PCIe Base 5.0 has it (assumption 7). -/
def resetOf (o : Nat) : Nat :=
  if blockOf o = .host ∧ 0x808000 ≤ o ∧ o < 0x808200 then (if o % 16 = 12 then 1 else 0)
  else
    match rowOf o with
    | some (r, _, _) => r.reset
    | none => 0

/-- The Reset column as a word. -/
def resetWord (o : Nat) : Word := BitVec.ofNat 32 (resetOf o)

end Sys2Proof.Machine
end

