-- ==== Sys2Proof/Machine/State.lean ====
section
/-! DEFINITION. The state of the module as plain data: every register, table, counter, mode and pin the manual names,
and the queue of waiting commands; and the state right after reset. -/

namespace Sys2Proof.Machine

/-- Device memory: address and byte pairs in canonical form; an unlisted byte reads 0 (assumption 1). -/
abbrev Memory := List Host.Cell

/-! ### What the module puts on its interfaces -/

/-- One thing the module has put on an interface: the answer to an access, a message, a packet. -/
inductive Out where
  /-- data returned to an agent's 32-bit register read -/
  | readData (agent off value : Nat)
  /-- an MSI-X message: vector, address, data (R568) -/
  | msix (vector addr data : Nat)
  /-- a PM_PME message (R575) -/
  | pme
  /-- wake and signal of a control core (R575, R568) -/
  | signal (core : Nat)
  /-- a write to host memory (R557) -/
  | hostWrite (addr : Nat) (bytes : List Nat)
  /-- data of an inbound BAR2 read, with the poisoned bit (R555) -/
  | bar2Data (bytes : List Nat) (poisoned : Bool)
  /-- a configuration request answered: false for Configuration Request Retry Status (R80); the word a read returns -/
  | config (done : Bool) (value : Nat)
  /-- an RMP response: source, sequence, command, status, body (R354) -/
  | rmp (src seq command status : Nat) (body : List Nat)
  /-- a refresh request sent on one path (R211, R351): port, destination address and UDP port, the message -/
  | refresh (port dst udp : Nat) (bytes : List Nat)
  /-- a PTP message: kind, port, inserted time, and for an Announce its clockClass and priorities (R135, R137) -/
  | ptp (kind port time info : Nat)
  /-- datagrams of a picture sent on one path: port, flow, source tide, the path record, and each UDP payload (R343 to R349) -/
  | packets (port flow tide : Nat) (path : List Nat) (payloads : List (List Nat))
  /-- an address or echo reply (R333) -/
  | neighbour (port kind : Nat)
  /-- bytes of an I2C read (R642) -/
  | i2c (bytes : List Nat)
  /-- a frame shown by a display output: picture buffer or 0, kind 0 new, 1 repeat, 2 background, 3 safe slate -/
  | frame (output picture kind : Nat)
  /-- an internal MOD_RESET_N (R112, R596) -/
  | modReset
  /-- a word stored by the breakwater or supervisor on its outputs, for example inrush limiting (R629) -/
  | supply (kind value : Nat)
  deriving DecidableEq, Repr

/-- The model has no fault outcome: every refusal, error and loss the manual describes is an effect on the state
(a status, an event bit, a report to the Watch). Safe: nothing is stopped that the manual lets run. -/
inductive Fault where
  deriving DecidableEq, Repr

/-- Why a command has no meaning. -/
inductive Refusal where
  /-- Raised by `exec` for a row of the table that has no meaning yet; safe, since the model stops. -/
  | notModelled (mnemonic : String)
  deriving DecidableEq, Repr

/-! ### The Watch (R580 to R609) -/

/-- A record of the Watch log (R584, R609). -/
structure LogRec where
  code : Nat
  agent : Nat
  access : Nat
  tide : Nat
  ns : Nat
  count : Nat
  deriving DecidableEq, Repr

/-- A captured first report (R585). -/
structure Capture where
  code : Nat
  agent : Nat
  access : Nat
  addr : Nat
  tide : Nat
  ns : Nat
  deriving DecidableEq, Repr

/-- An entry of the active table, keyed by code and agent (R586). -/
structure ActiveEnt where
  code : Nat
  agent : Nat
  deriving DecidableEq, Repr

/-- The Watch's own state beyond its plain registers. -/
structure WatchSt where
  /-- the log, newest first, at most 256 (R584); always-on -/
  log : List LogRec
  /-- records written since power-up, 32 bits (R608); always-on -/
  logWr : Nat
  /-- the active table, oldest first, at most 64 (R586) -/
  active : List ActiveEnt
  full : Bool
  /-- the first report captured (R585) -/
  fe : Option Capture
  /-- in the safe state (R601, R602) -/
  safe : Bool
  /-- a SAFE report has asked for the safe state, which follows within 1 microsecond (R601) -/
  safeAsked : Bool
  /-- cause of the safe state; always-on (R602) -/
  cause : Option Nat
  /-- aliases table: fenced unit, spare (R589) -/
  aliases : List (Nat × Nat)
  /-- fences of each unit since start (R594) -/
  fencedTimes : SMap Nat
  /-- fences since power-up, 32 bits (R608) -/
  fences : Nat
  /-- takeovers chosen and not yet made: fenced unit, spare (R590) -/
  takeovers : List (Nat × Nat)
  /-- unit under the self-test of R594 -/
  clearing : Option Nat
  /-- result and unit of the last WATCH_FENCE_CLEAR (R608) -/
  clearResult : Nat
  clearUnit : Nat
  /-- control-core pairs fenced: CC0/CC1 is 0, CC2/CC3 is 1 (R596) -/
  pairsFenced : List Nat
  /-- times (ns of the always-on clock) of LOCKSTEP reports of each pair (R596) -/
  lockstep : List (Nat × Nat)
  /-- the Watch itself is lost: its status reads from the supervision circuitry's copy (R604) -/
  selfLost : Bool
  /-- register accesses refused so far (R11, R655): the model's own count, by which a write learns that it was refused -/
  refusals : Nat
  deriving DecidableEq, Repr

/-! ### The bell (R563 to R578) -/

/-- One bell source: its latch, claim and configuration (R563, R566, R578). -/
structure BellSrc where
  pending : Bool
  active : Bool
  fell : Bool
  /-- level of the line when it was last sampled -/
  line : Bool
  /-- the hold timer runs (R574) -/
  timer : Bool
  /-- claiming target while active, otherwise 63 -/
  claimer : Nat
  target : Nat
  fallback : Nat
  hold : Nat
  enable : Bool
  deriving DecidableEq, Repr

/-- A bell source after reset (R578). -/
def BellSrc.reset : BellSrc :=
  { pending := false, active := false, fell := false, line := false, timer := false, claimer := 63,
    target := 0, fallback := 63, hold := 500, enable := false }

/-! ### The host function (R550 to R562, R575) -/

/-- The PCIe function as the configuration space and the link show it (R550, R552, R579). -/
structure HostSt where
  linkUp : Bool
  /-- 0 down, 1 to 5 for 2.5 to 32 GT/s -/
  rate : Nat
  width : Nat
  d3hot : Bool
  /-- Bus Master Enable -/
  bme : Bool
  msixEn : Bool
  msixMaskAll : Bool
  pmeEn : Bool
  /-- Enable Relaxed Ordering of Device Control -/
  relaxed : Bool
  /-- PERST_N asserted -/
  perst : Bool
  /-- log2 of the BAR2 size in GiB (R554) -/
  bar2Size : Nat
  /-- configuration requests are answered with Configuration Request Retry Status (R80) -/
  retry : Bool
  deriving DecidableEq, Repr

/-! ### Units, jobs and berths (R40 to R64) -/

/-- Engine states (R45, R47). -/
inductive Eng where
  | stopped | idle | running | quiescing | halting | fenced | spare
  deriving DecidableEq, Repr

/-- Berth states (R45, R62). -/
inductive Berth where
  | free | reserved | bound | releasing
  deriving DecidableEq, Repr

/-- Power states of a unit (R42, R435). -/
inductive Pow where
  | on | clockGated | powerGated
  deriving DecidableEq, Repr

/-- A job: its place on its queue, its descriptor (R28) and its result so far. -/
structure Job where
  queue : Nat
  /-- index on the queue (R375) -/
  index : Nat
  /-- address of the descriptor -/
  addr : Nat
  op : Nat
  flags : Nat
  ctx : Nat
  seq : Nat
  tide : Nat
  deadline : Nat
  s0 : Nat
  s1 : Nat
  s2 : Nat
  s3 : Nat
  s4 : Nat
  completion : Nat
  /-- work in 1/300 units, and job class of R428, 8 for any other job -/
  work : Nat
  cls : Nat
  /-- cost of R391 -/
  cost : Nat
  /-- energy estimate of R428, µJ -/
  estimate : Nat
  /-- effort of an encode job -/
  effort : Nat
  /-- STATUS, when known (R30) -/
  status : Option Nat
  /-- completion bytes 1 to 3 and 8 to 13, and bits 15:12 of bytes 14 to 15 -/
  b1 : Nat
  b2 : Nat
  b3 : Nat
  b8 : Nat
  b15 : Nat
  /-- re-run after a fence (R201, R260) -/
  rerun : Bool
  /-- must end at its next stop point with this status (R47, R132, R409) -/
  stopWith : Option Nat
  /-- buffers the job holds, freed if it ends without a result (R491) -/
  bufs : List Nat
  /-- tide and device time in which the job was dispatched -/
  started : Nat
  startNs : Nat
  deriving DecidableEq, Repr

/-- The micro-state of a unit's control-store engine (R521 to R548). -/
structure Micro where
  /-- data registers d0 to d15, 40 bits each -/
  d : SMap Nat
  z : Bool
  n : Bool
  c : Bool
  v : Bool
  /-- micro-PC, 15 bits -/
  pc : Nat
  /-- call stack, top first, at most 8 -/
  stack : List Nat
  /-- LOCAL, 1,024 words of 40 bits: the words written since the routine began -/
  locals : SMap Nat
  /-- d and LOCAL are undefined when a routine begins (R524): an unlisted register i reads as free value undef + i, an
  unlisted LOCAL word i as free value undef + 16 + i; all 0 after reset -/
  undef : Option Nat
  /-- trap registers t0 to t3 -/
  t : SMap Nat
  /-- in a micro-routine, and its number -/
  inRoutine : Bool
  routine : Nat
  /-- handling a micro-trap (R535) -/
  trapped : Bool
  /-- trap shadow: micro-PC, flags and stack saved at the trap (R536) -/
  shadowPc : Nat
  shadowFlags : Nat
  shadowStack : List Nat
  /-- the WAIT in progress at the trap: WCOND and ARG as the word's bits 17:0 -/
  shadowWait : Option Nat
  /-- waiting: the condition field of a WAIT (R529) -/
  waiting : Option Nat
  /-- tide in which the WAIT began -/
  waitTide : Nat
  /-- pending trap causes, bits as R535 numbers them -/
  causes : Nat
  /-- in a customer window invocation: the stream context served (R543) -/
  window : Option Nat
  /-- micro-cycles used by the invocation (R291) -/
  cycles : Nat
  deriving DecidableEq, Repr

/-- The micro-state before any routine; the manual gives the contents at reset no value where R524 leaves them
undefined (assumption 3). -/
def Micro.reset : Micro :=
  { d := [], z := false, n := false, c := false, v := false, pc := 0, stack := [], locals := [], undef := none, t := [],
    inRoutine := false, routine := 0, trapped := false, shadowPc := 0, shadowFlags := 0, shadowStack := [], shadowWait := none,
    waiting := none, waitTide := 0, causes := 0, window := none, cycles := 0 }

/-- A unit: engine and berth state, binding, running job, virtual time (R45, R62, R392). -/
structure UnitSt where
  eng : Eng
  berth : Berth
  /-- contexts bound (R64); 0xF000 + n for display output n on a lane -/
  ctxs : List Nat
  /-- contexts booked that join at the next tide start (R408) -/
  joining : List Nat
  /-- contexts that have left since the berth was last FREE (R62) -/
  released : List Nat
  /-- enclosing group, or none (R58) -/
  parent : Option Nat
  pow : Pow
  /-- an ENABLE = 1 recorded during a stop (R49) -/
  reEnable : Bool
  cfgErr : Nat
  job : Option Job
  /-- virtual time v(b) of R392, 40 bits, and the latest finish tag among the queues served -/
  vtime : Nat
  vfin : Nat
  /-- for a unit that took over: the unit whose berth it holds (R590) -/
  standsFor : Option Nat
  micro : Micro
  deriving DecidableEq, Repr

/-- A unit after reset (R42): stopped, free, power gated. -/
def UnitSt.reset : UnitSt :=
  { eng := .stopped, berth := .free, ctxs := [], joining := [], released := [], parent := none, pow := .powerGated,
    reEnable := false, cfgErr := 0, job := none, vtime := 0, vfin := 0, standsFor := none, micro := Micro.reset }

/-! ### The harbourmaster (R372 to R414) -/

/-- What the harbourmaster keeps on the die for a queue besides its context in memory. -/
structure QueueSt where
  /-- the context is in the cache (R396) -/
  cached : Bool
  /-- an ENABLE recorded during a stop (R410) -/
  reEnable : Bool
  /-- indices completed and not yet retired (R397) -/
  completed : List Nat
  /-- start tag of the head job, once it waits for its berth (R392) -/
  tag : Option Nat
  /-- posts, oldest first: the producer index each gave, and its device time (R387, R411) -/
  posts : List (Nat × Nat)
  /-- jobs dispatched in the current tide and their largest delay in ns (R411) -/
  dispatched : Nat
  maxDelay : Nat
  /-- token remainder in 1/256,000 of a cost unit, and the device time the tokens stand at (R393) -/
  frac : Nat
  tokNs : Nat
  /-- dependencies of posted jobs: index, list of (queue, index) still to complete (R390) -/
  deps : List (Nat × List (Nat × Nat))
  deriving DecidableEq, Repr

/-- A queue record before the queue is first used. -/
def QueueSt.reset : QueueSt :=
  { cached := false, reEnable := false, completed := [], tag := none, dispatched := 0, maxDelay := 0, frac := 0, tokNs := 0, posts := [],
    deps := [] }

/-- A booking of a stream context or display output: the charges of R401 and R348 on its berths. -/
structure Booking where
  /-- berth, charge in ns, and opcode of the picture job, 0 for pilot work -/
  charges : List (Nat × Nat × Nat)
  divisor : Nat
  phase : Nat
  /-- bytes per tide (R405) -/
  traffic : Nat
  /-- work of each booked picture job, by opcode and job class (R428) -/
  works : List (Nat × Nat × Nat)
  /-- EFFORT_MIN and EFFORT_MAX of an encode stream -/
  effortMin : Nat
  effortMax : Nat
  /-- booked egress: engine, ports and PACE in bit/s (R348) -/
  engine : Nat
  ports : List Nat
  rate : Nat
  /-- withdrawn at the next tide start (R408) -/
  leaving : Bool
  deriving DecidableEq, Repr

/-- No booking. -/
def Booking.reset : Booking :=
  { charges := [], divisor := 0, phase := 0, traffic := 0, works := [], effortMin := 0, effortMax := 0, engine := 0, ports := [], rate := 0, leaving := false }

/-- A gate list's hidden state (R398, R399). -/
structure GateSt where
  oper : Bool
  pend : Bool
  late : Bool
  /-- operational entries: mask, interval -/
  entries : List (Nat × Nat)
  change : Nat
  /-- entry in force -/
  entry : Nat
  /-- entries, change time and take-over instant of the pending copy -/
  nextEntries : List (Nat × Nat)
  nextChange : Nat
  takeAt : Nat
  deriving DecidableEq, Repr

/-- A gate list after reset. -/
def GateSt.reset : GateSt :=
  { oper := false, pend := false, late := false, entries := [], change := 0, entry := 0, nextEntries := [],
    nextChange := 0, takeAt := 0 }

/-! ### The tide clock (R115 to R152) -/

/-- The tide clock and servo (R115, R138). -/
structure TideSt where
  /-- 1.6 GHz count, 64 bits -/
  count : Nat
  /-- rate fraction, s40 -/
  rate : Int
  base : Nat
  offNs : Nat
  offSub : Nat
  /-- consecutive samples towards the next mode change (R138) -/
  run : Nat
  /-- offsets of consecutive samples beyond the threshold, newest first (R140) -/
  jump : List Int
  /-- offset an accepted STEP or SLEW corrects once a jump is confirmed (R147) -/
  corr : Int
  /-- samples taken while ACQUIRING -/
  acq : Nat
  /-- the rate estimate of HOLDOVER (R138) -/
  estimate : Int
  /-- rate fractions steered in HOLDING and LOCKING over the last 64 s spent there, newest first: counts, rate (R138); and the
  count from which the present one has been in force -/
  hist : List (Nat × Int)
  histAt : Nat
  /-- tides the servo still stands after a restart of CC2/CC3 (R144) -/
  pause : Nat
  /-- slewing under R147: still above the lock threshold, still above the jump threshold -/
  slewing : Bool
  slewJump : Bool
  /-- accepted steps not yet applied, ns (R148) -/
  pendStep : Int
  /-- tide number at which the next tide start is due, and the least ns of an extended tide (R148) -/
  nextTide : Nat
  notBefore : Nat
  /-- number of the first tide, from which copy 0 of every layout is in force (R125, R293) -/
  first : Nat
  /-- ns at which the current tide started -/
  startNs : Nat
  tideOut : Bool
  ppsOut : Bool
  /-- seconds spent in HOLDOVER -/
  holdover : Nat
  /-- a tide start is under way: dispatch follows its actions -/
  starting : Bool
  /-- tides for which display outputs still repeat their picture after an increase of L (R130) -/
  repeats : Nat
  /-- the master selected last: clockIdentity; none before any; and whether it still is (R138) -/
  master : Option Nat
  masterUp : Bool
  /-- PLLs run from REF10M_IN (R145) -/
  onRef : Bool
  /-- count at which step 1 of R77 last began (R585) -/
  step1 : Nat
  deriving DecidableEq, Repr

/-- The tide clock after power-up. -/
def TideSt.reset : TideSt :=
  { count := 0, rate := 0, base := 0, offNs := 0, offSub := 0, run := 0, jump := [], corr := 0, acq := 0,
    estimate := 0, hist := [], histAt := 0, pause := 0, masterUp := false, slewing := false, slewJump := false, pendStep := 0, nextTide := 0, notBefore := 0, first := 0,
    starting := false, repeats := 0,
    startNs := 0, tideOut := false, ppsOut := false, holdover := 0, master := none,
    onRef := false, step1 := 0 }

/-- The Watch after power-up. -/
def WatchSt.reset : WatchSt :=
  { log := [], logWr := 0, active := [], full := false, fe := none, safe := false, safeAsked := false, cause := none,
    aliases := [], fencedTimes := [], fences := 0, takeovers := [], clearing := none, clearResult := 0, clearUnit := 0,
    pairsFenced := [], lockstep := [], selfLost := false, refusals := 0 }

/-- The PCIe function after power-up: link down, D0, BAR2 8 GiB (R552). -/
def HostSt.reset : HostSt :=
  { linkUp := false, rate := 0, width := 0, d3hot := false, bme := false, msixEn := false, msixMaskAll := false,
    pmeEn := false, relaxed := false, perst := false, bar2Size := 3, retry := true }

/-! ### Start-up, trust and configuration (R77 to R114) -/

/-- Identity, fuses and straps of one module (R3, R39, R93, R113, R654). -/
structure Ident where
  /-- GLOBAL_VARIANT bits -/
  variant : Nat
  /-- the digits of year, week and sequence number of manufacture, 12 of them (R654) -/
  made : List Nat
  /-- burned-in MAC address of each port (R369) -/
  macs : List Nat
  bootArc : Nat
  rootRevoked : Nat
  lifecycle : Nat
  debugLock : Bool
  /-- BOOTSRC1:0 as strapped -/
  straps : Nat
  /-- certificates, DER: identity, attestation (R92) -/
  certs : List (List Nat)
  deriving DecidableEq, Repr

/-- Where the start-up sequence stands (R77, R79, R81). -/
inductive Phase where
  | unpowered | railRetry | resetHeld | stalled | waitPtp | service | recovery
  deriving DecidableEq, Repr

/-- An open flash write (R110). -/
structure FlashWr where
  /-- 0 boot A, 1 boot B, 2 Etvor A, 3 Etvor B -/
  slot : Nat
  length : Nat
  data : List Nat
  deriving DecidableEq, Repr

/-- Customs and configuration (R77 to R114). -/
structure BootSt where
  phase : Phase
  /-- always-on boot attempt record: slots A and B marked failed (R79, R88) -/
  failedA : Bool
  failedB : Bool
  /-- boot slots of the on-module flash, then of the carrier flash: A, B (R86) -/
  boots : SMap (Option BootImg)
  /-- Etvor slots, bytes, in the same numbering -/
  etvors : SMap (List Nat)
  /-- flashes selected in step 1: boot from carrier, Etvor from carrier (R87) -/
  bootCarrier : Bool
  etvorCarrier : Bool
  /-- no carrier flash answers (R641) -/
  noCarrier : Bool
  runSlot : Nat
  runImg : Option BootImg
  /-- SHA-256 of the Etvor image in use -/
  etvorHash : Nat
  factoryOnly : Bool
  /-- Etvor slot in use: 0 A, 1 B, 2 none -/
  etvorSlot : Nat
  /-- measurement registers, 256 bits each (R89) -/
  meas : SMap Nat
  /-- measurement log, oldest first: register, kind, digest (R90) -/
  log : List (Nat × Nat × Nat)
  overflow : Bool
  arm : Bool
  /-- count at which the PRESENT press that opened the window fell (R97) -/
  window : Option Nat
  btnHeld : Bool
  btnStuck : Bool
  /-- count of the latest release, while no window may open until 1 s after it (R97) -/
  btnFree : Option Nat
  loopOpen : Bool
  broken : Bool
  /-- counts at which quotes were issued (R95) -/
  quotes : List Nat
  qseq : Nat
  flash : Option FlashWr
  /-- firmware of the running slot stalls before this step ends (R88): 7, 9, or 0 for none -/
  stallAt : Nat
  /-- the next run of step 1 is that of a power-up -/
  cold : Bool
  /-- count at which CFG_PTP_WAIT, read at the start of step 8, expires (R114) -/
  waitEnd : Nat
  /-- the start heater may warm: from power-on for 1.0 s on a grade X module (R653) -/
  heater : Bool
  deriving DecidableEq, Repr

/-- The identity the model gives a module: ordering key S-N-F, production life cycle, no fuse blown but DEBUG_LOCK,
straps 0b00; every other datum zero (assumption 5). -/
def Ident.reset : Ident :=
  { variant := 4, made := List.replicate 12 0, macs := List.replicate 9 0, bootArc := 0, rootRevoked := 0,
    lifecycle := 1, debugLock := true, straps := 0, certs := [[], []] }

/-- The serial number: "L", the grade, coating and flash codes, then the digits of manufacture, in ASCII (R654). -/
def Ident.serial (i : Ident) : List Nat :=
  [76, if i.variant.testBit 0 then 88 else 83, if i.variant.testBit 1 then 67 else 78, if i.variant.testBit 2 then 70 else 69]
    ++ (List.range 12).map (fun k => 48 + i.made.getD k 0 % 10)

/-- Customs and configuration with reset held: flash erased, nothing measured. -/
def BootSt.reset : BootSt :=
  { phase := .resetHeld, failedA := false, failedB := false, boots := [], etvors := [], bootCarrier := false,
    etvorCarrier := false, noCarrier := false, runSlot := 0, runImg := none, etvorHash := 0, factoryOnly := true, etvorSlot := 2,
    meas := [], log := [], overflow := false, arm := false, window := none, btnHeld := false, btnStuck := false,
    btnFree := none, loopOpen := false, broken := false, quotes := [], qseq := 0, flash := none, stallAt := 0, cold := true, waitEnd := 0,
    heater := false }

/-- A kept RMP response (R355). -/
structure RmpResp where
  seq : Nat
  command : Nat
  status : Nat
  body : List Nat
  deriving DecidableEq, Repr

/-! ### Memory, dry dock and power (R415 to R473) -/

/-- Port roles (R442). -/
inductive Role where
  | active | drydock | reserve | fenced | migSrc | migDst | idle
  deriving DecidableEq, Repr

/-- A calibration set (R459): a temperature and, by key `pin × 32 + element`, its values (element 0 sampler, 1 read delay,
2 write delay, 3 Vref, 4 to 19 the delay cells). -/
structure CalSet where
  temp : Int
  vals : SMap Nat
  deriving DecidableEq, Repr

/-- A physical GDDR6 port (R442 to R468). -/
structure PortSt where
  role : Role
  logical : Nat
  temp : Int
  sets : List CalSet
  /-- corrections in force -/
  corr : CalSet
  interpolated : Bool
  covered : Bool
  selfRefresh : Bool
  calibrating : Bool
  /-- in-place steps run of the calibration in progress, 0 when none (R468) -/
  inplace : Nat
  /-- poison list: addresses of 64-byte lines, oldest first (R453) -/
  poison : List Nat
  /-- refresh debt of bank b of channel c at key c × 16 + b (R450) -/
  debts : SMap Nat
  /-- to be fenced at the end of its migration (R454, R466) -/
  fenceAfter : Bool
  /-- temperature at the start of the session in progress (R460) -/
  calTemp : Int
  /-- the tide of the last in-place step (R468) -/
  stepTide : Option Nat
  /-- it took a lost port’s place: every line counts as poisoned but those written whole since (R467) -/
  undef : Bool
  clean : List Nat
  deriving DecidableEq, Repr

/-- A port after reset: idle, not trained (R473). -/
def PortSt.reset : PortSt :=
  { role := .idle, logical := 0, temp := 0, sets := [], corr := { temp := 0, vals := [] }, interpolated := false,
    covered := false, selfRefresh := false, calibrating := false, inplace := 0, poison := [], debts := [],
    fenceAfter := false, calTemp := 0, stepTide := none, undef := false, clean := [] }

/-- The memory system beyond its ports and registers. -/
structure MemSt where
  /-- ports in service, A (R443) -/
  ports : Nat
  /-- migration phase 0 to 5 (R463), source and destination ports, logical port -/
  phase : Nat
  src : Nat
  dst : Nat
  logical : Nat
  /-- logical port named by MEM_MIG_FORCE (R462) -/
  forced : Option Nat
  /-- the next tide start ends the migration without a swap (R466) -/
  abort : Bool
  /-- logical ports lost outright, each with the dry dock that takes its place at the next tide start (R467) -/
  lost : List (Nat × Option Nat)
  /-- words of the protected region in error: 1 single-bit, 2 uncorrectable, by word address (R456) -/
  flips : SMap Nat
  /-- next word of the patrol (R458) -/
  patrol : Nat
  /-- device time at which the copy began (R463) -/
  copyNs : Nat
  deriving DecidableEq, Repr

/-- The memory system after reset. -/
def MemSt.reset : MemSt :=
  { ports := 0, phase := 0, src := 0, dst := 0, logical := 0, forced := none, abort := false,
    lost := [], flips := [], patrol := 0, copyNs := 0 }

/-- States of an input (R415). -/
inductive InState where
  | absent | reversed | under | ok | high | tripped
  deriving DecidableEq, Repr

/-- One supply input (R415 to R418). -/
structure InputSt where
  mv : Int
  st : InState
  /-- a SINGLE_FEED warning stands for this input (R418) -/
  single : Bool
  deriving DecidableEq, Repr

/-- The breakwater, the energy bucket and the governor (R415 to R441). -/
structure PowerSt where
  inA : InputSt
  inB : InputSt
  /-- riding through on the hold-up store (R419) -/
  riding : Bool
  /-- baseplate and junction, °C -/
  tb : Int
  tj : Int
  /-- bucket level, s40 (R424) -/
  bucket : Int
  /-- current energy coefficients, fJ, by job class (R428); unlisted at the factory value -/
  coefs : SMap Nat
  /-- tides at the current g -/
  gTides : Nat
  /-- OVER_CEILING in force, asked for the next tide start, and consecutive windows over (R434) -/
  above : Bool
  overNext : Bool
  overRun : Nat
  /-- scratchpad bank states by key g × 64 + bank: 0 OFF, 1 RETENTION, 2 ON (R438) -/
  banks : SMap Nat
  /-- load on P3V3_OUT, mA (R636) -/
  p3v3 : Nat
  deriving DecidableEq, Repr

/-- The breakwater with both inputs absent. -/
def PowerSt.reset : PowerSt :=
  { inA := { mv := 0, st := .absent, single := false }, inB := { mv := 0, st := .absent, single := false },
    riding := false, tb := 25, tj := 25, bucket := 0, coefs := [], gTides := 0, above := false, overNext := false, overRun := 0,
    banks := [], p3v3 := 0 }

/-! ### The warehouse (R474 to R495) -/

/-- What the warehouse keeps on the die for a pool (R482, R483, R493). -/
structure PoolSt where
  /-- head of the free list, or 0 -/
  head : Nat
  /-- free buffers threaded, and free buffers in all -/
  threaded : Nat
  free : Nat
  /-- free buffers still to be threaded, in ascending order; when the threading began, in ns of device time, and how many it has
  reached -/
  todo : List Nat
  since : Nat
  reached : Nat
  threading : Bool
  rebuilding : Bool
  /-- buffers withheld because their bitmap bit could not be read (R485) -/
  withheld : List Nat
  /-- least free count of the current tide (R495) -/
  low : Nat
  level : Nat
  err : Nat
  deriving DecidableEq, Repr

/-- A pool after reset. -/
def PoolSt.reset : PoolSt :=
  { head := 0, threaded := 0, free := 0, todo := [], since := 0, reached := 0, threading := false, rebuilding := false, withheld := [],
    low := 0, level := 0, err := 0 }

/-! ### Layouts (R293 to R299) -/

/-- What the compositor keeps for a layout. -/
structure LayoutSt where
  /-- the copy in force, 0 or 1 -/
  copy : Nat
  /-- P_eff of a pending flip (R297) -/
  pend : Option Nat
  /-- P_eff of the latest flip (R325), and of the copy in force (R305) -/
  pEff : Nat
  started : Nat
  /-- first failing check of R296 at the last flip -/
  err : Nat
  /-- the flip became pending in this tide (R298) -/
  fresh : Bool
  deriving DecidableEq, Repr

/-- A layout before any flip: copy 0 in force from the first tide (R293). -/
def LayoutSt.reset : LayoutSt := { copy := 0, pend := none, pEff := 0, started := 0, err := 0, fresh := false }

/-- Where a layer stood in a composition (R310): its TYPE and SOURCE, ORIGIN in eighths, and the source tide of the picture shown, 0
for other layers. -/
structure LayerPos where
  ty : Nat
  source : Nat
  x : Int
  y : Int
  tide : Nat
  deriving DecidableEq, Repr

/-- A composition a lane has made of an output: its presentation tide and its layers. -/
structure CompRec where
  p : Nat
  layers : List LayerPos
  deriving DecidableEq, Repr

/-! ### Streams (R196 to R213) -/

/-- A decoded picture in a stream’s use (R191). -/
structure DecPic where
  addr : Nat
  /-- the grain copy’s address, or 0 -/
  grain : Nat
  tide : Nat
  hidden : Bool
  isRef : Bool
  /-- output order (R189, R208) -/
  order : Int
  deriving DecidableEq, Repr

/-- What the gantry keeps on the die for a decode context. -/
structure DecSt where
  /-- a join point has been reached since START or FLUSH (R205) -/
  joined : Bool
  /-- frame_num or POC of the recovery points that recovery point SEI messages have announced since AWAIT_SINCE, and the sweep of
  this SWEEP_ID begun since then (R206, R350) -/
  points : List Nat
  sweepBegun : Option Nat
  /-- pictures to be discarded after joining: MPEG-2 B pictures before the next anchor, HEVC RASL pictures (R205) -/
  skipB : Bool
  skipRasl : Bool
  /-- tide of the last refresh request (R211) -/
  asked : Nat
  /-- CTX of the tide-and-node element last received (R351) -/
  elemCtx : Nat
  /-- classifier, port and source address of the last packets of the stream, by path (R351) -/
  paths : List (Nat × Nat × Nat)
  /-- tide of the START, and source tides since whose coded picture was released (R182, LOST) -/
  since : Nat
  arrived : List Nat
  /-- FLAGS and SWEEP_ID of the element received with the picture of a source tide, newest first (R342, R350) -/
  marks : List (Nat × Nat × Nat)
  /-- parameter sets or sequence headers stored, with the reason of R172 that makes one unusable (R169) -/
  params : List (ParamSet × Nat)
  /-- source tides whose picture was LATE and is never shown (R129) -/
  late : List Nat
  /-- sequence fields of pictures whose RECONSTRUCT could not be posted (R657) -/
  orphans : List Nat
  /-- completed pictures, newest first -/
  pics : List DecPic
  deriving DecidableEq, Repr

def DecSt.reset : DecSt :=
  { joined := false, points := [], sweepBegun := none, skipB := false, skipRasl := false, asked := 0, elemCtx := 0, paths := [], since := 0,
    arrived := [], marks := [], params := [], late := [], orphans := [], pics := [] }

/-- The entries of a commit region in a tally’s quay (R69, R195, R200, R257): the tally leaf and the segment they are tagged with, the
gantry leaf that handles them, block row and end column of the region in 64-sample units, entries held, entries of the region not
yet written, and entries read since the last commit. -/
structure QRun where
  leaf : Nat
  seg : Nat
  member : Nat
  row : Nat
  stop : Nat
  n : Nat
  todo : Nat
  read : Nat
  deriving DecidableEq, Repr

/-- What the tally found in a picture (R167, R193, R194): entropy reason of R172, position of the unsupported element or last syntax
error, positions of resynchronisations, cells decoded of each segment, and the parameter set in force. -/
structure Found where
  reason : Nat
  errs : List Nat
  resyncs : List Nat
  segs : List (Nat × List Cell)
  params : Option ParamSet
  deriving DecidableEq, Repr

def Found.reset : Found := { reason := 0, errs := [], resyncs := [], segs := [], params := none }

/-- A picture a tally’s quay holds (R193, R257): its entries in order, and its end-of-picture entry (0 not written, 1 held, 2 read)
in the quay of a leaf; for a decode picture its syntax and what the tally found. -/
structure QuayPic where
  ctx : Nat
  seq : Nat
  runs : List QRun
  eop : Nat
  eopLeaf : Nat
  found : Found
  /-- the picture’s syntax; none for an encode picture -/
  pic : Option CodedPic
  deriving DecidableEq, Repr

/-- An encoded picture between its ENCODE and its ENTROPY_ENCODE (R220, R224). -/
structure EncPic where
  seq : Nat
  status : Nat
  /-- bitstream buffer, coded bits, SOURCE_TIDE -/
  bits : Nat
  coded : Nat
  tide : Nat
  /-- completion byte 3, effort byte, mean quantiser -/
  flags : Nat
  effort : Nat
  qp : Nat
  order : Nat
  step : Nat
  pic : Nat
  /-- deferrals after it, whether it begins a sweep, an intra one; index of its sweep -/
  defers : Nat
  begins : Bool
  intra : Bool
  sweepId : Nat
  recon : Nat
  hash : Nat
  /-- complexity classes after it (R274) -/
  model : List Nat
  /-- its sweep began on an intra picture (R252) -/
  whole : Bool
  /-- coded bytes before the first slice or tile and after the last, and the elements of its slice or frame header (R176 to R181) -/
  head : List Nat
  tail : List Nat
  elems : List (String × Int)
  /-- inter blocks, and those coded by exact match (R244) -/
  inters : Nat
  exacts : Nat
  /-- quantiser of the last row decided, rows coded, and coded bits by share (R214, R285) -/
  qLast : Int
  rows : Nat
  shareBits : List Nat
  /-- its ENCODE job has completed (R224, R257) -/
  done : Bool
  deriving DecidableEq, Repr

/-- A reference picture of an encode stream: its reconstruction and hash table buffers, source tide, sweep step, index of its sweep, and
whether that began on an intra picture (R238, R248). -/
structure EncRef where
  recon : Nat
  hash : Nat
  tide : Nat
  step : Nat
  sweep : Nat
  whole : Bool
  deriving DecidableEq, Repr

/-- What the gantry and the pilot keep on the die for an encode context. -/
structure EncSt where
  /-- the next picture is intra (R173, R252) -/
  intraNext : Bool
  /-- a sweep is in progress; it began on an intra picture (R252) -/
  sweeping : Bool
  sweepIntra : Bool
  /-- sweeps begun since START: the index of the next (R256) -/
  sweepIdx : Nat
  /-- s and j of the next picture of the sweep in progress (R247) -/
  nextStep : Nat
  nextPic : Nat
  /-- refresh request held: the tide it names (R255) -/
  request : Option Nat
  /-- pictures coded since the last forced sweep start; none before one (R255) -/
  sinceForced : Option Nat
  /-- the most recent composed picture that completed OK (R225) -/
  composed : Nat
  /-- picture awaiting its tally -/
  cur : Option EncPic
  /-- window outputs for the picture to come: target, effort, λ scale, quantisers by row (R290) -/
  outTarget : Option Nat
  outEffort : Option Nat
  outLambda : Nat
  outQ : List (Nat × Int)
  /-- references held, newest first (R173, R238) -/
  refs : List EncRef
  /-- inter blocks of the previous picture, and those coded by exact match (R244) -/
  lastInter : Nat
  lastExact : Nat
  /-- CODED_ORDER of the last intra picture (R173, R224) -/
  intraAt : Nat
  /-- sequence field and status of the last ENCODE that was not sent, for its ENTROPY_ENCODE (R224) -/
  dropped : Option (Nat × Nat)
  /-- sequence fields of pictures whose ENTROPY_ENCODE could not be posted (R657) -/
  orphans : List Nat
  /-- source tide and sweep index of pictures sent, newest first (R349) -/
  sweeps : List (Nat × Nat)
  /-- complexity classes MODEL_SEED loaded for the next START (R273) -/
  seed : Option (Nat × Nat × Nat)
  deriving DecidableEq, Repr

def EncSt.reset : EncSt :=
  { intraNext := true, sweeping := false, sweepIntra := false, sweepIdx := 0, nextStep := 0, nextPic := 0, request := none, sinceForced := none,
    composed := 0, cur := none, outTarget := none, outEffort := none, outLambda := 256, outQ := [], refs := [], lastInter := 0, lastExact := 0,
    intraAt := 0, dropped := none, orphans := [], sweeps := [], seed := none }

/-! ### Storm signals and display outputs (R314 to R324) -/

/-- One setting of a storm signal: level 0 clears, the slate, the first presentation tide. -/
structure StormSet where
  level : Nat
  slate : Nat
  at_ : Nat
  deriving DecidableEq, Repr

/-- A storm ID held: its setting in force and the one that replaces it, and its text slot (R315, R316). -/
structure Storm where
  id : Nat
  act : Option StormSet
  pend : Option StormSet
  slot : Nat
  deriving DecidableEq, Repr

/-- Storm text being collected (R359). -/
structure StormFrag where
  id : Nat
  level : Nat
  slate : Nat
  tide : Nat
  len : Nat
  /-- bytes held, by offset -/
  bytes : SMap Nat
  /-- tide in which collection began -/
  since : Nat
  deriving DecidableEq, Repr

/-- A display output beyond its registers. -/
structure DispSt where
  /-- layouts by first presentation tide, newest first (R297) -/
  lays : List (Nat × Nat)
  /-- completed compositions waiting: presentation tide, buffer -/
  ready : List (Nat × Nat)
  /-- buffer on screen, or 0, and buffers to free at the next tide start (R490) -/
  shown : Nat
  done : List Nat
  hpd : Bool
  up : Bool
  locked : Bool
  /-- lanes trained (0, 1, 2, 4) and link rate 0 to 3; what the sink offers -/
  lanes : Nat
  rate : Nat
  sinkLanes : Nat
  sinkRate : Nat
  fail : Bool
  degraded : Bool
  timingBad : Bool
  slate : Bool
  /-- AUX retries of the transaction in progress (R323) -/
  aux : Nat
  /-- storm in force at the last composition: ID, 0 none -/
  storm : Nat
  deriving DecidableEq, Repr

def DispSt.reset : DispSt :=
  { lays := [], ready := [], shown := 0, done := [], hpd := false, up := false, locked := false, lanes := 0, rate := 0,
    sinkLanes := 4, sinkRate := 3, fail := false, degraded := false, timingBad := false, slate := false, aux := 0, storm := 0 }
/-! ### Network and feeder ports (R328 to R367) -/

/-- A packet held for ordering (R337): extended sequence number, coded bytes, marker, the tide-and-node element, and
units its payload format ignores (R338). -/
structure RxPkt where
  seq : Nat
  data : List Nat
  marker : Bool
  elem : Option (List Nat)
  /-- tide of its arrival (R127) -/
  tide : Nat
  deriving DecidableEq, Repr

/-- The packets of one RTP timestamp (R337): its buffer, the packets in order, the tide of the last arrival, and the
device time from which PD_MAX counts. -/
structure RxPic where
  ts : Nat
  addr : Nat
  pkts : List RxPkt
  tide : Nat
  since : Option Nat
  deriving DecidableEq, Repr

/-- The reorder buffer of a classifier or merge pair: highest number seen, number after the last released, pictures
held, numbers given up as lost (R337). -/
structure RxSt where
  top : Option Nat
  next : Option Nat
  pics : List RxPic
  lost : List Nat
  deriving DecidableEq, Repr

def RxSt.reset : RxSt := { top := none, next := none, pics := [], lost := [] }

/-- A PES packet being built (R339): whether one is open, its buffer, bytes, losses, the last continuity counter, the
tide of its last packet, its element, and a gap before it. -/
structure PesSt where
  isOpen : Bool
  addr : Nat
  data : List Nat
  losses : List (Nat × Nat)
  cc : Option Nat
  tide : Nat
  elem : Option (List Nat)
  disc : Bool
  deriving DecidableEq, Repr

def PesSt.reset : PesSt :=
  { isOpen := false, addr := 0, data := [], losses := [], cc := none, tide := 0, elem := none, disc := false }

/-- A feeder port: packets held, each with the tide of its arrival, words of the current packet read, packets good and failed in a row, the last word read,
device time from which HOLD has been 1, and to which its driver is off (R361 to R367). -/
structure FeedSt where
  fifo : List (Nat × List Nat)
  word : Nat
  good : Nat
  bad : Nat
  last : Nat
  holdFrom : Option Nat
  driverOff : Option Nat
  deriving DecidableEq, Repr

/-- A flow that carries a transport stream (R345): continuity counters of the video PID, the PAT and the PMT, and when the last PAT and
PMT left. -/
structure FlowTs where
  video : Nat
  pat : Nat
  pmt : Nat
  tables : Option Nat
  deriving DecidableEq, Repr

def FlowTs.reset : FlowTs := { video := 0, pat := 0, pmt := 0, tables := none }

def FeedSt.reset : FeedSt := { fifo := [], word := 0, good := 0, bad := 0, last := 0, holdFrom := none, driverOff := none }
/-! ### Lighter channels (R496 to R520) -/

/-- A lighter channel: its program, the MOVE in progress, what it waits for, and how its last program ended. -/
structure LtSt where
  prog : Nat
  pc : Nat
  os : Nat
  od : Nat
  lc : SMap Nat
  /-- in a MOVE: source bytes issued, those of them not yet written out, destination bytes completed -/
  moving : Bool
  issued : Nat
  fetched : List Nat
  put : Nat
  /-- condition of the WAIT it waits on, and the tide in which the WAIT was reached (R509) -/
  waiting : Option Nat
  tideAt : Nat
  retries : Nat
  /-- the burst in progress has failed and is reissued (R514) -/
  again : Bool
  /-- destination bytes of the MOVE that have completed, as a run from its first byte (R513), and bytes moved by the program -/
  run : Nat
  moved : Nat
  half : Bool
  full : Bool
  lastBeat : Bool
  isDone : Bool
  cause : Nat
  errWrite : Bool
  deriving DecidableEq, Repr

def LtSt.reset : LtSt :=
  { prog := 0, pc := 0, os := 0, od := 0, lc := [], moving := false, issued := 0, fetched := [], put := 0, waiting := none,
    tideAt := 0, retries := 0, again := false, run := 0, moved := 0, half := false, full := false, lastBeat := false, isDone := false, cause := 0,
    errWrite := false }

/-! ### The state -/

/-- The state of the module. -/
structure State where
  /-- every register at its offset; unlisted registers hold their Reset column value (R16) -/
  regs : SMap Word
  /-- staged values of RWS registers (R22) -/
  staged : SMap Word
  /-- holding register of each pair, at the offset of its low half (R18) -/
  hold : SMap Word
  /-- snapshot of each pair for each agent, at key offset × 4096 + agent (R20) -/
  snaps : SMap Word
  /-- live counts of the latched statistics, at the register’s offset (R131) -/
  counts : SMap Nat
  /-- GDDR6 and the basin direct window by device address (R33) -/
  mem : Memory
  /-- gantry scratchpad bytes at key gantry × 2^22 + offset (R469) -/
  spad : SMap Nat
  /-- control store words at key unit × 65536 + address (R521) -/
  cs : SMap Nat
  /-- identity, fuses and straps -/
  ident : Ident
  /-- start-up, customs and configuration -/
  boot : BootSt
  /-- the tide clock and servo -/
  tide : TideSt
  /-- units by ID (R40) -/
  units : SMap UnitSt
  /-- queues by number -/
  queues : SMap QueueSt
  /-- bookings by context, 0xF000 + n for display output n -/
  books : SMap Booking
  /-- gate lists -/
  gates : SMap GateSt
  /-- the memory system -/
  memsys : MemSt
  /-- GDDR6 ports -/
  ports : SMap PortSt
  /-- inputs, bucket and governor -/
  power : PowerSt
  /-- pools -/
  pools : SMap PoolSt
  /-- the PCIe function -/
  host : HostSt
  /-- bell sources -/
  bell : SMap BellSrc
  /-- the Watch -/
  watch : WatchSt
  /-- storm IDs held, at most 8 (R315) -/
  storms : List Storm
  /-- CMP_STORM_STATUS.LATE (R315) -/
  stormLate : Bool
  /-- storm text being collected (R359) -/
  stormText : List StormFrag
  /-- display outputs (R320 to R324) -/
  disps : SMap DispSt
  /-- the safe slate in on-die SRAM; empty for the default (R318) -/
  slate : List Nat
  /-- picture jobs dispatched in the current tide: context, opcode (R388) -/
  picSent : List (Nat × Nat)
  /-- picture jobs completed in the current tide: context, opcode (R395) -/
  picDone : List (Nat × Nat)
  /-- layouts (R293, R297) -/
  layouts : SMap LayoutSt
  /-- the last compositions of each output, by encode context or 0xF000 + n, newest first (R310) -/
  comps : SMap (List CompRec)
  /-- register offset of the carrier’s I2C target (R642) -/
  i2cOfs : Nat
  /-- the I2C target has released a held bus and waits for a STOP (R642) -/
  i2cWait : Bool
  /-- lighter channels, by unit ID (R496) -/
  lts : SMap LtSt
  /-- bytes moved by all channels below the next 10⁶, for LT_BYTES_LAST (R519) -/
  ltRem : Nat
  /-- channels that start a program at the first tide in service, and its address (R518) -/
  autostart : List (Nat × Nat)
  /-- POOL_META_BASE has been committed (R477, check 7) -/
  metaSet : Bool
  /-- token bucket of each classifier: bytes, and the device time they stand at; full when unlisted (R334) -/
  police : SMap (Nat × Nat)
  /-- reorder buffers by classifier, a pair under its lower number (R337) -/
  rx : SMap RxSt
  /-- PES packets being built: by classifier, and 65,536 + n × 8 + k for filter k of feeder port n (R339, R366) -/
  pes : SMap PesSt
  /-- next RTP sequence number of each flow (R346) -/
  flowSeq : SMap Nat
  /-- transport stream state of each flow (R345) -/
  flowTs : SMap FlowTs
  /-- feeder ports (R360 to R367) -/
  feeds : SMap FeedSt
  /-- ports for which PATH_LOST stands (R597) -/
  pathLost : List Nat
  /-- the last 16 responses of each source (R355) -/
  rmpKept : SMap (List RmpResp)
  /-- SND_SAMPLE_CFG in force (R621) -/
  sndCfg : Nat
  /-- LFSR of TAG sampling (R619) -/
  sndLfsr : Nat
  /-- SND_LOG_BASE has been committed (R615) -/
  sndBased : Bool
  /-- the tide whose counts LAST holds (R612, R617) -/
  sndEnded : Nat
  /-- decode contexts (R204, R205) -/
  decs : SMap DecSt
  /-- pictures in each tally berth’s quay, oldest first (R192) -/
  quays : SMap (List QuayPic)
  /-- encode contexts (R252, R255) -/
  encs : SMap EncSt
  /-- customer window invocations waiting on each pilot: context, entry point, row (R288) -/
  windows : SMap (List (Nat × Nat × Nat))
  /-- stream context bytes held on the die, at key context × 256 + offset: those the device writes, and those START has read (R183, R218) -/
  ctxDie : SMap Nat
  /-- window programs loaded and not yet in the control store: pilot, in force, words (R549) -/
  ucwNext : List (Nat × Bool × List Nat)
  /-- what the module has put on its interfaces, newest first -/
  out : List Out
  /-- the model’s own: how many free values have been drawn -/
  freeCtr : Nat
  /-- commands waiting, first in, first out -/
  pending : List Instr
  deriving DecidableEq, Repr

/-- The module with power good and reset still held, before RESET_RELEASE (R77 step 0; assumption 2). -/
def State.reset : State :=
  { regs := [],
    staged := [],
    hold := [],
    snaps := [],
    counts := [],
    mem := [],
    spad := [],
    cs := [],
    ident := Ident.reset,
    boot := BootSt.reset,
    tide := TideSt.reset,
    units := [],
    queues := [],
    books := [],
    gates := [],
    memsys := MemSt.reset,
    ports := [],
    power := PowerSt.reset,
    pools := [],
    host := HostSt.reset,
    bell := [],
    watch := WatchSt.reset,
    storms := [],
    stormLate := false,
    stormText := [],
    disps := [],
    slate := [],
    picSent := [],
    picDone := [],
    layouts := [],
    comps := [],
    i2cOfs := 0,
    i2cWait := false,
    lts := [],
    ltRem := 0,
    autostart := [],
    metaSet := false,
    police := [],
    rx := [],
    pes := [],
    flowSeq := [], flowTs := [],
    feeds := [],
    pathLost := [],
    rmpKept := [],
    sndCfg := 0,
    sndLfsr := 0,
    sndBased := false,
    sndEnded := 0,
    decs := [],
    quays := [],
    encs := [],
    windows := [],
    ctxDie := [],
    ucwNext := [],
    out := [],
    freeCtr := 0,
    pending := [] }

end Sys2Proof.Machine
end

