-- ==== Sys2Proof/Machine/Ops.lean ====
section
/-! DEFINITION. The named operations over registers, memory, time and free values, and the report to the Watch that
every block makes. -/

namespace Sys2Proof.Machine

/-! ### Bits (R6) -/

/-- Bits `hi:lo` of a number. -/
def bits (v hi lo : Nat) : Nat := v / 2 ^ lo % 2 ^ (hi - lo + 1)

/-- A number with bits `hi:lo` replaced. -/
def putBits (v hi lo x : Nat) : Nat := v - bits v hi lo * 2 ^ lo + x % 2 ^ (hi - lo + 1) * 2 ^ lo

/-- A Boolean as a bit. -/
def b2n (b : Bool) : Nat := if b then 1 else 0

/-- Division rounded up. -/
def cdiv (a b : Nat) : Nat := (a + b - 1) / b

/-- Keep an integer within bounds. -/
def clamp (lo hi x : Int) : Int := max lo (min hi x)

/-! ### Registers (R10 to R24) -/

/-- The value a register holds, in force. -/
def State.rd (s : State) (o : Nat) : Nat := (SMap.get resetWord s.regs o).toNat

/-- The device stores a register. -/
def State.wr (o v : Nat) (s : State) : State :=
  { s with regs := SMap.set resetWord s.regs o (BitVec.ofNat 32 v) }

/-- Stage a value for an RWS register (R22). -/
def State.stage (o v : Nat) (s : State) : State := { s with staged := SMap.ins o (BitVec.ofNat 32 v) s.staged }

/-- A field of a register. -/
def State.fld (s : State) (o hi lo : Nat) : Nat := bits (s.rd o) hi lo

/-- The device stores a field. -/
def State.wrFld (o hi lo v : Nat) (s : State) : State := s.wr o (putBits (s.rd o) hi lo v)

/-- A bit of a register. -/
def State.bit (s : State) (o b : Nat) : Bool := (s.rd o).testBit b

/-- The device sets a bit (an event; R14: a clear of the same cycle comes before it). -/
def State.setBit (o b : Nat) (s : State) : State := s.wrFld o b b 1

/-- The device clears a bit. -/
def State.clrBit (o b : Nat) (s : State) : State := s.wrFld o b b 0

/-- The device stores a bit. -/
def State.putBit (o b : Nat) (v : Bool) (s : State) : State := s.wrFld o b b (b2n v)

/-- A 40-bit pair in force (R17). -/
def State.rd40 (s : State) (o : Nat) : Nat := s.rd o + s.rd (o + 4) % 256 * two32

/-- Store a 40-bit pair; the holding register is reloaded (R19). -/
def State.wr40 (o v : Nat) (s : State) : State := (s.wr o (v % two32)).wr (o + 4) (v / two32 % 256)

/-- A 64-bit pair in force (R119). -/
def State.rd64 (s : State) (o : Nat) : Nat := s.rd o + s.rd (o + 4) * two32

/-- Store a 64-bit pair. -/
def State.wr64 (o v : Nat) (s : State) : State := (s.wr o (v % two32)).wr (o + 4) (v / two32)

/-- A counter register that wraps. -/
def State.inc (o : Nat) (s : State) : State := s.wr o (s.rd o + 1)

/-- Add to the live count of a latched statistic (R131: it saturates). -/
def State.bump (o n : Nat) (s : State) : State :=
  { s with counts := SMap.ins o (min (SMap.get (fun _ => 0) s.counts o + n) (two32 - 1)) s.counts }

/-- Raise the live value of a latched statistic that keeps the largest value of a tide. -/
def State.bumpMax (o n : Nat) (s : State) : State :=
  { s with counts := SMap.ins o (max (SMap.get (fun _ => 0) s.counts o) n) s.counts }

/-- Put something on an interface. -/
def State.emit (x : Out) (s : State) : State := { s with out := x :: s.out }

/-- Draw a free value (assumption 3). -/
def State.draw (s : State) : Nat × State := (Config.free s.freeCtr, { s with freeCtr := s.freeCtr + 1 })

/-- Network ports, PCIe and display outputs may run: not unpowered, in reset or in RECOVERY (R81). -/
def State.outputsOn (s : State) : Bool :=
  match s.boot.phase with
  | .stalled | .waitPtp | .service => true
  | _ => false

/-! ### Numbered parts of the state -/

def State.unit (s : State) (u : Nat) : UnitSt := SMap.get (fun _ => UnitSt.reset) s.units u

def State.setUnit (u : Nat) (x : UnitSt) (s : State) : State :=
  { s with units := SMap.set (fun _ => UnitSt.reset) s.units u x }

def State.pool (s : State) (p : Nat) : PoolSt := SMap.get (fun _ => PoolSt.reset) s.pools p

def State.setPool (p : Nat) (x : PoolSt) (s : State) : State :=
  { s with pools := SMap.set (fun _ => PoolSt.reset) s.pools p x }

def State.port (s : State) (p : Nat) : PortSt := SMap.get (fun _ => PortSt.reset) s.ports p

def State.setPort (p : Nat) (x : PortSt) (s : State) : State :=
  { s with ports := SMap.set (fun _ => PortSt.reset) s.ports p x }

def State.src (s : State) (n : Nat) : BellSrc := SMap.get (fun _ => BellSrc.reset) s.bell n

def State.setSrc (n : Nat) (x : BellSrc) (s : State) : State :=
  { s with bell := SMap.set (fun _ => BellSrc.reset) s.bell n x }

def State.gate (s : State) (k : Nat) : GateSt := SMap.get (fun _ => GateSt.reset) s.gates k

def State.setGate (k : Nat) (x : GateSt) (s : State) : State :=
  { s with gates := SMap.set (fun _ => GateSt.reset) s.gates k x }

def State.book (s : State) (c : Nat) : Booking := SMap.get (fun _ => Booking.reset) s.books c

def State.setBook (c : Nat) (x : Booking) (s : State) : State :=
  { s with books := SMap.set (fun _ => Booking.reset) s.books c x }

/-- Apply an operation over a list, in order. -/
def State.each {α : Type} (l : List α) (f : α → State → State) (s : State) : State := l.foldl (fun s x => f x s) s

/-- Apply an operation when a condition holds. -/
def State.whenB (c : Bool) (f : State → State) (s : State) : State := if c then f s else s

/-! ### Device time (R115, R121) -/

/-- Device time: integer ns and the 40-bit fraction (R115). -/
def TideSt.readTime (t : TideSt) : Nat × Nat :=
  let d := (t.count + 2 ^ 64 - t.base) % 2 ^ 64
  let step := (687194767360 + t.rate).toNat
  let acc := t.offSub + d * step
  ((t.offNs + acc / two40) % 2 ^ 64, acc % two40)

/-- Device time in integer ns. -/
def State.now (s : State) : Nat := s.tide.readTime.1

/-- NUM and DEN of TIDE_RATE (R120). -/
def State.rateNum (s : State) : Nat := s.fld Reg.TIDE_RATE 15 0
def State.rateDen (s : State) : Nat := s.fld Reg.TIDE_RATE 31 16

/-- Start instant of tide T, ns (R121). -/
def State.startOf (s : State) (t : Nat) : Nat :=
  s.rd64 Reg.TIDE_EPOCH_W0 + cdiv (t * s.rateDen * 1000000000) s.rateNum

/-- The largest T with start(T) at or before a device time; none before the epoch (R121). -/
def State.tideAt (s : State) (ns : Nat) : Option Nat :=
  let e := s.rd64 Reg.TIDE_EPOCH_W0
  if ns < e then none else some ((ns - e) * s.rateNum / (s.rateDen * 1000000000))

/-- Pb, the tide period in ns (R402). -/
def State.pb (s : State) : Nat := cdiv (1000000000 * s.rateDen) s.rateNum

/-- The current tide number. -/
def State.tideNum (s : State) : Nat := s.rd64 Reg.TIDE_NUM_W0

/-- TIDE_STATUS.RUNNING. -/
def State.running (s : State) : Bool := s.bit Reg.TIDE_STATUS 3

/-- L of TIDE_PRESENT (R130). -/
def State.presentL (s : State) : Nat := s.fld Reg.TIDE_PRESENT 4 0

/-- Counts of the 1.6 GHz clock as ns. -/
def countNs (c : Nat) : Nat := c * 5 / 8

/-- ns from the start of the current tide; before the first tide, ns since step 1 (R585). -/
def State.nsInTide (s : State) : Nat :=
  if s.running then s.now - s.tide.startNs
  else min (countNs (s.tide.count - s.tide.step1)) (two32 - 1)

/-- The tide number a report carries; 0xFFFF_FFFF_FFFF before the first tide (R585). -/
def State.reportTide (s : State) : Nat := if s.running then s.tideNum else 0xFFFFFFFFFFFF

/-- Set aside a run of `n` free values: the number of the first. -/
def State.drawMany (n : Nat) (s : State) : Nat × State := (s.freeCtr, { s with freeCtr := s.freeCtr + n })

/-! ### Soundings (R610 to R613) -/

/-- Offset of SND_SEL of counter i of a source: a unit, or block set k as 0xF00 + k (R610, R622). -/
def sndBase (src i : Nat) : Nat :=
  if src < 0xF00 then ucb src (Reg.SND_SEL + 0x20 * i) else Reg.SNDSET_SEL + (src - 0xF00) * 0x100 + 0x20 * i

/-- The live value at a counter rises; a wrap modulo 2^48 sets OVF (R612). -/
def State.sndAdd (b n : Nat) (s : State) : State :=
  let v := s.rd64 (b + 8) + n
  let s := s.wr64 (b + 8) (v % 2 ^ 48)
  if v < 2 ^ 48 then s else (s.setBit (b + 4) 0).setBit Reg.SND_EVENT 4

/-- An event of a source occurs n times: each counter that counts it rises (R612). -/
def State.sndCount (src ev n : Nat) (s : State) : State :=
  s.each (List.range 8) (fun i s => if s.fld (sndBase src i) 11 0 = ev then s.sndAdd (sndBase src i) n else s)

/-! ### Pairs (R19, R20) -/

/-- Every agent’s snapshot of a pair lapses with a commit (R20). -/
def State.dropSnaps (o : Nat) (s : State) : State :=
  { s with snaps := s.snaps.filter (fun (p : Nat × Word) => p.1 / 4096 != o) }

/-- After a commit the holding register is reloaded and snapshots lapse (R19, R20). -/
def State.committed (o : Nat) (s : State) : State := { s with hold := SMap.del o s.hold }.dropSnaps o

/-- The last completed step of R77. -/
def State.bootStep (s : State) : Nat := s.fld Reg.CUS_BOOT_STATUS 3 0

/-- The first rewrite of a runtime setting after step 6 sets RUNTIME_CHANGED (R109). -/
def State.runtimeChanged (img : Bool) (s : State) : State :=
  if !img && decide (6 ≤ s.bootStep) then s.setBit Reg.CFG_STATUS 6 else s

/-! ### Reports to the Watch (R580 to R587) -/

/-- Enter a report in the log, merged into the newest record when code, agent and tide agree (R584). -/
def WatchSt.logReport (w : WatchSt) (code agent access tide ns : Nat) : WatchSt :=
  match w.log with
  | r :: rest =>
    if r.code = code ∧ r.agent = agent ∧ r.tide = tide then
      { w with log := { r with count := min (r.count + 1) 65535 } :: rest }
    else { w with log := ({ code, agent, access, tide, ns, count := 1 } :: w.log).take 256,
                  logWr := (w.logWr + 1) % two32 }
  | [] => { w with log := [{ code, agent, access, tide, ns, count := 1 }], logWr := (w.logWr + 1) % two32 }

/-- Remove the first entry that satisfies `p`. -/
def dropFirst {α : Type} (p : α → Bool) : List α → List α
  | [] => []
  | x :: xs => if p x then xs else x :: dropFirst p xs

/-- Enter a report of class FENCED, DEGRADED or SAFE in the active table of 64 entries (R586). -/
def WatchSt.enter (w : WatchSt) (code agent : Nat) : WatchSt :=
  let e : ActiveEnt := { code, agent }
  if e ∈ w.active then w
  else if w.active.length < 64 then { w with active := w.active ++ [e] }
  else if w.active.any (fun x => x.code / 4096 = 4) then
    { w with active := dropFirst (fun x => x.code / 4096 = 4) w.active ++ [e], full := true }
  else if code / 4096 = 6 ∧ w.active.any (fun x => x.code / 4096 = 5) then
    { w with active := dropFirst (fun x => x.code / 4096 = 5) w.active ++ [e], full := true }
  else { w with full := true }

/-- Take entries out of the active table; FULL falls with the table below 64 entries (R586). -/
def WatchSt.leave (w : WatchSt) (p : ActiveEnt → Bool) : WatchSt :=
  let a := w.active.filter (fun x => !p x)
  { w with active := a, full := w.full && decide (64 ≤ a.length) }

/-- Capture the first report (R585). -/
def WatchSt.capture (w : WatchSt) (c : Capture) : WatchSt :=
  match w.fe with
  | some _ => w
  | none => { w with fe := some c }

/-- The WATCH_EVENT bit of a class (R608). -/
def classEvent (cls : Nat) : Nat :=
  if cls = 6 then 0 else if cls = 5 then 1 else if cls = 4 then 2 else if cls = 3 then 3 else if cls = 1 then 4 else 5

/-- The latched statistic of a class, if it has one (R608). -/
def classStat (cls : Nat) : Option Nat :=
  if cls = 1 then some Reg.WATCH_USAGE_LAST
  else if cls = 2 then some Reg.WATCH_CORRECTED_LAST
  else if cls = 3 then some Reg.WATCH_WARN_LAST
  else none

/-- A report to the Watch: logged, counted, captured if first, entered in the active table, and for class SAFE the safe
state asked for (R584 to R587, R601). A SAFE report in the safe state is logged and changes nothing. After a loss of
the Watch itself nothing is recorded (R604). -/
def State.report (code agent access addr : Nat) (s : State) : State :=
  if s.watch.selfLost then s
  else
    let cls := code / 4096
    let t := s.reportTide
    let ns := s.nsInTide
    let w := if cls = 2 then s.watch else s.watch.logReport code agent access t ns
    if cls = 6 ∧ s.watch.safe then { s with watch := w }
    else
      let captured := w.fe.isNone
      let w := w.capture { code, agent, access, addr, tide := t, ns }
      let w := if 4 ≤ cls then w.enter code agent else w
      let w := if cls = 6 ∧ !w.safeAsked then { w with safeAsked := true, cause := some code } else w
      let s := { s with watch := w }
      let s := s.setBit Reg.WATCH_EVENT (classEvent cls)
      let s := s.whenB captured (State.setBit Reg.WATCH_EVENT 6)
      match classStat cls with
      | some r => s.bump r 1
      | none => s

/-- The agent value of a report to which no agent applies (R585). -/
abbrev noAgent : Nat := 0xFFF

/-- Block nibble of a unit kind (R582). -/
def Kind.nibble : Kind → Nat
  | .gantry => 8 | .tally => 9 | .pilot => 10 | .lane => 11 | .barge => 7 | .skiff => 7 | .egress => 12 | .group => 4

/-- Leaf members of a group, as its members' UCBs name them, to a depth bounded by `fuel` (R56). -/
def State.members (s : State) (g : Nat) : List Nat :=
  (List.range (s.fld (ucb g Reg.UCB_GRP_CTRL) 8 0)).map (fun i => s.fld (ucb g (Reg.UCB_GRP_MEMBER + 4 * i)) 11 0)

/-- Units met from a list of units on, each once, a group before its members (R54, R56); a cycle among groups is walked once. -/
def State.walk (s : State) : Nat → List Nat → List Nat → List Nat
  | 0, _, _ => []
  | _ + 1, [], _ => []
  | fuel + 1, u :: todo, seen =>
    if seen.contains u then s.walk fuel todo seen
    else u :: s.walk fuel ((if unitKind u == some .group then s.members u else []) ++ todo) (u :: seen)

/-- A unit and the units a group contains, at any depth. Each of the 3,072 groups lists at most 511 members, which bounds the
walk. -/
def State.unitsIn (s : State) (u : Nat) : List Nat := s.walk 2000000 [u] []

/-- The kind of the leaf units of a unit or group (LEAF_TYPE of R43), that of the first leaf met; none for a group that contains
none. -/
def State.leafOf (s : State) (u : Nat) : Option Kind :=
  (s.unitsIn u).findSome? (fun m => match unitKind m with
    | some .group => none
    | k => k)

/-- Block nibble of a unit: of its leaf type for a group, 0x4 for a group with no members (R658). -/
def State.unitNibble (s : State) (u : Nat) : Nat :=
  match s.leafOf u with
  | some k => k.nibble
  | none => if u < 0x400 then 0 else 4

/-- Block nibble of a register offset (R658). -/
def State.regNibble (s : State) (o : Nat) : Nat :=
  match blockOf o with
  | .watch | .global | .snd | .reserved => 0
  | .cus | .cfg => 1
  | .tide => 2
  | .pwr => 3
  | .hm => 4
  | .mem => 5
  | .pool => 6
  | .lt => 7
  | .cmp | .disp => 11
  | .net | .feed => 12
  | .host | .bell => 13
  | .ucb =>
    match unitKind (ucbUnit o) with
    | none => 0
    | some _ => s.unitNibble (ucbUnit o)

/-- A usage event: class 0x1, code 0x01 of a block (R583). -/
def State.usage (nibble agent access addr : Nat) (s : State) : State :=
  s.report (0x1001 + nibble * 256) agent access addr

/-- The device address of a register offset. -/
def regAddr (o : Nat) : Nat := 0x4000000000 + o

/-- One more register access was refused. -/
def State.refusal (s : State) : State := { s with watch := { s.watch with refusals := s.watch.refusals + 1 } }

/-- The usage event of a refused register access (R11, R655). -/
def State.usageReg (agent o : Nat) (s : State) : State := (s.usage (s.regNibble o) agent 7 (regAddr o)).refusal

/-- A write that led from `s` to `s'` was refused: with a usage event (R655), or with a CFG_ERROR of the unit (R46, R53). -/
def State.refusedBy (s s' : State) (o : Nat) : Bool :=
  decide (s.watch.refusals < s'.watch.refusals)
    || (blockOf o == .ucb && (ucbOff o = Reg.UCB_CTRL || ucbOff o = Reg.UCB_GRP_CTRL || decide (Reg.UCB_GRP_MEMBER ≤ ucbOff o))
      && decide (ucbOff o < 0x600) && decide ((s'.unit (ucbUnit o)).cfgErr ≠ 0))

/-- A command that rewrites a runtime setting through the register at an offset: an accepted one sets RUNTIME_CHANGED as a plain
write does (R109). -/
def State.setting (o : Nat) (f : State → State) (s : State) : State :=
  if s.refusedBy (f s) o then f s else (f s).runtimeChanged false

/-- The end of a DEGRADED condition takes its entry out of the active table (R586). -/
def State.endCond (code agent : Nat) (s : State) : State :=
  { s with watch := s.watch.leave (fun e => e.code = code && e.agent = agent) }

/-- Is a code and agent held in the active table? -/
def State.held (s : State) (code agent : Nat) : Bool :=
  s.watch.active.any (fun e => e.code = code && e.agent = agent)

/-- A condition of class DEGRADED: reported when it comes to hold, ended when it no longer holds (R599). -/
def State.cond (holds : Bool) (code agent : Nat) (s : State) : State :=
  if holds then (if s.held code agent then s else s.report code agent 0 0) else s.endCond code agent

/-! ### The outbound window (R33, R35, R557) -/

/-- HOST_CTRL.ENABLE (R561). -/
def State.hostEnabled (s : State) : Bool := s.bit Reg.HOST_CTRL 0

/-- The function answers inbound memory requests: link up, D0 (R553, R555). -/
def State.hostAwake (s : State) : Bool := s.hostEnabled && s.host.linkUp && !s.host.perst && !s.host.d3hot

/-- Outbound accesses complete. -/
def State.outboundOk (s : State) : Bool := s.hostAwake && s.host.bme

/-- An outbound access that completes at its requester as a bus error: counted where R557 applies. -/
def State.outboundErr (s : State) : State :=
  if !s.host.bme || !s.hostEnabled then (s.bump Reg.HOST_OUT_ERR_LAST 1).setBit Reg.HOST_EVENT 6 else s

/-- The host address of an address in the outbound window (R557). -/
def State.hostAddr (s : State) (a : Nat) : Nat := (s.rd64 Reg.HOST_OUT_BASE_W0 + (a - 0x8000000000)) % 2 ^ 64

/-- A write to host memory. -/
def State.hostWrite (a : Nat) (bs : List Nat) (s : State) : State := s.emit (.hostWrite (s.hostAddr a) bs)

/-- Free bytes: what the host’s memory holds, which the manual leaves to the host (assumption 3). -/
def State.hostRead (n : Nat) (s : State) : List Nat × State :=
  let r := s.drawMany n
  ((List.range n).map (fun i => Config.free (r.1 + i) % 256), r.2)

/-! ### Memory (R33 to R36, R65, R444, R452 to R457) -/

/-- What an unlisted byte reads as: 0 in the module’s own memory (assumption 1), a free value in the outbound window, where the
host’s memory stands (assumption 54). -/
def byte0 (a : Nat) : BitVec 8 := if a < 0x8000000000 then 0 else BitVec.ofNat 8 (Config.hostByte a)

/-- The canonical form of memory. -/
def Memory.wf (m : Memory) : Bool := SMap.wf byte0 m

/-- One byte of memory. -/
def Memory.read (m : Memory) (a : Nat) : Nat := (SMap.get byte0 m a).toNat

/-- Write one byte of memory. -/
def Memory.write (m : Memory) (a v : Nat) : Memory := SMap.set byte0 m a (BitVec.ofNat 8 v)

/-- A little-endian number of `n` bytes (R7). -/
def Memory.readN (m : Memory) (a : Nat) : Nat → Nat
  | 0 => 0
  | n + 1 => Memory.read m a + 256 * Memory.readN m (a + 1) n

/-- Write a little-endian number of `n` bytes (R7). -/
def Memory.writeN (m : Memory) (a : Nat) : Nat → Nat → Memory
  | 0, _ => m
  | n + 1, v => Memory.writeN (Memory.write m a v) (a + 1) n (v / 256)

/-- Bytes of memory. -/
def Memory.bytes (m : Memory) (a : Nat) : Nat → List Nat
  | 0 => []
  | n + 1 => Memory.read m a :: Memory.bytes m (a + 1) n

/-- Write a list of bytes. -/
def Memory.put (m : Memory) (a : Nat) : List Nat → Memory
  | [] => m
  | b :: bs => Memory.put (Memory.write m a b) (a + 1) bs

def State.rdM (s : State) (a n : Nat) : Nat := Memory.readN s.mem a n
def State.wrM (a n v : Nat) (s : State) : State := { s with mem := Memory.writeN s.mem a n v }
def State.putM (a : Nat) (bs : List Nat) (s : State) : State := { s with mem := Memory.put s.mem a bs }

/-- Where a device address leads (R33, R36, R444, R455). -/
inductive Target where
  | gddr | direct | regs | outbound | unmapped | check
  deriving DecidableEq, Repr

/-- GDDR6 capacity in service, A × 8 GiB (R444). -/
def State.capacity (s : State) : Nat := s.memsys.ports * 0x200000000

/-- Base and size of the protected region, and whether it exists (R455). -/
def State.protBase (s : State) : Nat := s.rd40 Reg.MEM_PROT_BASE_LO
def State.protSize (s : State) : Nat := 2 ^ (28 + s.fld Reg.MEM_PROT_SIZE 2 0)
def State.protOn (s : State) : Bool := s.bit Reg.MEM_PROT_SIZE 8

/-- An address in the data area of the protected region (R455). -/
def State.inProtData (s : State) (a : Nat) : Bool :=
  s.protOn && decide (s.protBase ≤ a) && decide (a < s.protBase + 7 * s.protSize / 8)

/-- An address in the check area of the protected region (R455). -/
def State.inCheck (s : State) (a : Nat) : Bool :=
  s.protOn && decide (s.protBase + 7 * s.protSize / 8 ≤ a) && decide (a < s.protBase + s.protSize)

/-- The target of an address (R33). -/
def State.target (s : State) (a : Nat) : Target :=
  if a < 0x2000000000 then
    if s.capacity ≤ a then .unmapped else if s.inCheck a then .check else .gddr
  else if a < 0x2004000000 then
    if (a - 0x2000000000) / 0x400000 < min 16 (s.fld Reg.GLOBAL_BASIN_DIRECT 4 0) then .direct else .unmapped
  else if a < 0x4000000000 then .unmapped
  else if a < 0x4010000000 then .regs
  else if a < 0x8000000000 then .unmapped
  else if a < two40 then .outbound
  else .unmapped

/-- GDDR6 or the basin direct window. -/
def State.isMem (s : State) (a : Nat) : Bool :=
  match s.target a with
  | .gddr => true
  | .direct => true
  | _ => false

/-- A run of bytes wholly in the outbound window (R33). -/
def State.isOut (s : State) (a n : Nat) : Bool := s.target a == .outbound && s.target (a + n - 1) == .outbound

/-- The 64-byte line of an address. -/
def lineOf (a : Nat) : Nat := a / 64 * 64

/-- Lines that a run of bytes touches. -/
def linesOf (a n : Nat) : List Nat :=
  if n = 0 then [] else (List.range ((a + n - 1) / 64 - a / 64 + 1)).map (fun i => lineOf a + 64 * i)

/-- Agents that may write the data area of the protected region: harbourmaster, warehouse, customs, control cores
(R457). -/
def protWriter (agent : Nat) : Bool :=
  agent = 0x0F1 || agent = 0x0F0 || agent = 0x0F2 || (0x080 ≤ agent && agent ≤ 0x083)

/-- Outcome of an access to device memory: done, refused (R34), or a bus error (R452). -/
inductive Access where
  | ok | refused | busError
  deriving DecidableEq, Repr

/-- Parity of the bits of a number below 2^31 (R445). -/
def parity31 (n : Nat) : Nat := ((List.range 31).filter (fun i => n.testBit i)).length % 2

/-- Hash bit i of a GDDR6 address (R445). -/
def State.hashBit (s : State) (i a : Nat) : Nat :=
  parity31 (Nat.land (a / 64 % 2 ^ 31) (s.rd (Reg.MEM_HASH + 4 * i)))

/-- Number of port bits formed (R446). -/
def State.portBits (s : State) : Nat :=
  if 16 ≤ s.memsys.ports then 4 else if 8 ≤ s.memsys.ports then 3 else if 4 ≤ s.memsys.ports then 2
  else if 2 ≤ s.memsys.ports then 1 else 0

/-- The logical port of a GDDR6 address (R445, R446). -/
def State.logicalPort (s : State) (a : Nat) : Nat :=
  (List.range s.portBits).foldl (fun acc i => acc + s.hashBit i (a % (s.capacity + (if s.capacity = 0 then 1 else 0))) * 2 ^ i) 0

/-- Channel of a GDDR6 address: 0 A, 1 B. -/
def State.channelOf (s : State) (a : Nat) : Nat := s.hashBit 4 a

/-- Bank of a GDDR6 address. -/
def State.bankOf (s : State) (a : Nat) : Nat :=
  s.hashBit 5 a + 2 * s.hashBit 6 a + 4 * s.hashBit 7 a + 8 * s.hashBit 8 a

/-- Home bits of the hash bits (R445). -/
def homeBits : List Nat := [9, 10, 11, 12, 8, 13, 14, 15, 16]

/-- The 28-bit offset within a bank: the address bits that are no home bit of a formed hash bit, in ascending order
(R446). -/
def State.bankOffset (s : State) (a : Nat) : Nat :=
  let homes := (homeBits.take s.portBits) ++ homeBits.drop 4
  let keep := (List.range 37).filter (fun b => !(homes.contains b))
  (keep.zipIdx).foldl (fun acc p => acc + (if a.testBit p.1 then 2 ^ p.2 else 0)) 0

/-- Column (low 11 bits) and row (upper 17 bits) within the bank (R446). -/
def State.rowColumn (s : State) (a : Nat) : Nat × Nat :=
  (s.bankOffset a / 2048 % 2 ^ 17, s.bankOffset a % 2048)

/-- A mask of hash bit i holds its own home bit and no home bit of another formed hash bit; `n` port bits are formed (R446, R447). -/
def hashOk (n i mask : Nat) : Bool :=
  (List.range 9).all fun j => (mask.testBit (homeBits.getD j 0 - 6) == (i == j)) || (i != j && decide (n ≤ j) && decide (j < 4))

/-- The logical port has lost its physical port (R467). -/
def State.portGone (s : State) (a : Nat) : Bool := s.memsys.lost.any (fun p => p.1 = s.logicalPort a)

/-- A line in some port's poison list, or of a port whose contents are undefined (R453, R467). -/
def State.poisoned (s : State) (line : Nat) : Bool :=
  s.ports.any (fun p => line ∈ p.2.poison
    || (p.2.undef && decide (line < 0x2000000000) && decide (p.2.logical = s.logicalPort line) && !(line ∈ p.2.clean)))

/-- The physical port that serves a logical port: the one ACTIVE or MIG_SRC as it, the destination from DRAIN on (R442,
R463). -/
def State.physPort (s : State) (l : Nat) : Nat :=
  if s.memsys.phase = 4 ∧ s.memsys.logical = l then s.memsys.dst
  else match s.ports.find? (fun p => decide (p.2.logical = l) && (p.2.role == .active || p.2.role == .migSrc)) with
  | some p => p.1
  | none => 0

/-- Take a line off every poison list (R453). -/
def State.unpoison (line : Nat) (s : State) : State :=
  s.each (s.ports.filter (fun p => line ∈ p.2.poison || p.2.undef)) (fun p s =>
    let x := s.port p.1
    s.setPort p.1 { x with
      poison := x.poison.filter (fun l => l ≠ line)
      clean := if x.undef && decide (x.logical = s.logicalPort line) && !(line ∈ x.clean) then line :: x.clean else x.clean })

/-- Capture the first memory error (R472, MEM_ERR_INFO). -/
def State.memErr (agent kind addr : Nat) (s : State) : State :=
  if s.bit Reg.MEM_ERR_INFO 31 then s
  else
    (s.wr40 Reg.MEM_ERR_ADDR_LO addr).wr Reg.MEM_ERR_INFO
      (agent + kind * 4096 + s.physPort (s.logicalPort addr) * 65536 + 0x80000000)

/-! ### Roles of the ports (R442 to R444) -/

def Role.code : Role → Nat
  | .active => 0 | .drydock => 1 | .reserve => 2 | .fenced => 3 | .migSrc => 4 | .migDst => 5 | .idle => 6

/-- A register of physical port p. -/
def mreg (r p : Nat) : Nat := r + 0x100 * p

/-- Physical ports in a role, in ascending index. -/
def State.portsIn (s : State) (r : Role) : List Nat := (List.range 17).filter (fun p => (s.port p).role == r)
def State.dock (s : State) : Option Nat := (s.portsIn .drydock).head?

/-- Some port waits in DRYDOCK or RESERVE. -/
def State.spareHeld (s : State) : Bool := !(s.portsIn .drydock).isEmpty || !(s.portsIn .reserve).isEmpty

/-- In-place calibration stands for some port (R468). -/
def State.inplaceOn (s : State) : Bool := s.ports.any (fun p => p.2.inplace != 0)

/-- The DEGRADED conditions of memory (R444, R468, R599). -/
def State.memConds (s : State) : State :=
  if s.memsys.ports = 0 then s
  else
    ((s.cond (!s.spareHeld) 0x5511 noAgent).cond (decide (s.memsys.ports < 16)) 0x5513 noAgent).cond s.inplaceOn 0x5512 noAgent

/-- A RESERVE port, the one of the highest index as at step 5, starts the session after which it is DRYDOCK (R443, R466,
R467). -/
def State.promote (s : State) : State :=
  match s.dock, (s.portsIn .reserve).getLast? with
  | none, some r => s.setPort r { s.port r with calibrating := true, calTemp := (s.port r).temp, selfRefresh := false }
  | _, _ => s

/-- A port is fenced and powered down (R442): the event, the report while a spare is left, and the conditions (R583). -/
def State.fencePort (p : Nat) (s : State) : State :=
  let s := (s.setPort p { PortSt.reset with role := .fenced, temp := (s.port p).temp }).setBit Reg.MEM_EVENT 0
  (s.whenB s.spareHeld (State.report 0x4510 noAgent 0 0)).memConds

/-- The destination of a migration fails: the migration is aborted (R466). -/
def State.dstFails (s : State) : State :=
  if s.memsys.phase = 0 ∨ 4 ≤ s.memsys.phase then s
  else
    let d := s.memsys.dst
    let s := ({ s with memsys := { s.memsys with abort := true } }).setBit Reg.MEM_EVENT 6
    ((s.setBit Reg.MEM_EVENT 1).fencePort d).promote

/-- A port is to be migrated to the dry dock ahead of any temperature migration and then fenced; without a dry dock the Watch
warns (R453, R454, R462). -/
def State.retirePort (p : Nat) (s : State) : State :=
  let x := s.port p
  if s.dock.isSome then
    s.setPort p { x with fenceAfter := true }
  else s.report 0x3505 noAgent 0 0

/-- Put a line on a port’s poison list; one that would exceed 4,096 lines retires the port (R453). -/
def State.poisonAt (p line : Nat) (s : State) : State :=
  let x := s.port p
  if line ∈ x.poison then s
  else if x.poison.length < 4096 then s.setPort p { x with poison := x.poison ++ [line] }
  else
    let s := s.setBit Reg.MEM_EVENT 11
    if s.memsys.phase ≠ 0 ∧ s.memsys.dst = p then s.dstFails
    else if x.role == .migSrc then s.setPort p { x with fenceAfter := true }
    else s.retirePort p

/-! ### Accesses to device memory -/

/-- Can these bytes be read? (R34, R35, R444, R452, R453, R455, R467.) -/
def State.canRead (s : State) (a n : Nat) : Access :=
  if n = 0 then .ok
  else if s.isMem a && s.isMem (a + n - 1) then
    if (linesOf a n).any (fun l => s.poisoned l || (decide (l < 0x2000000000) && s.portGone l)) then .busError else .ok
  else if s.isOut a n then if s.outboundOk then .ok else .busError
  else .refused

/-- Can these bytes be written by an agent? (R34, R35, R444, R457, R467.) -/
def State.canWrite (s : State) (agent a n : Nat) : Access :=
  if n = 0 then .ok
  else if s.isMem a && s.isMem (a + n - 1) then
    if (s.inProtData a || s.inProtData (a + n - 1)) && !protWriter agent then .refused
    else if (linesOf a n).any (fun l => decide (l < 0x2000000000) && s.portGone l) then .busError
    else .ok
  else if s.isOut a n then if s.outboundOk then .ok else .busError
  else .refused

/-- Block nibble of a device address (R658). -/
def State.addrNibble (s : State) (a : Nat) : Nat :=
  match s.target a with
  | .gddr | .direct | .check => 5
  | .outbound => 13
  | .regs => s.regNibble (a - 0x4000000000)
  | .unmapped => if a < 0x2000000000 then 5 else 0

/-- The usage event of an access refused under R34. -/
def State.usageAddr (agent access a : Nat) (s : State) : State := s.usage (s.addrNibble a) agent access a

/-- Error handling of the protected region's words in a range read (R456): a single-bit error is corrected and counted,
an uncorrectable one poisons its line and is counted and reported. Answers whether some word was uncorrectable. -/
def State.eccRead (agent a n : Nat) (s : State) : Bool × State :=
  (s.memsys.flips.filter (fun p => decide (a < p.1 + 8) && decide (p.1 < a + n))).foldl (fun acc p =>
    let s := acc.2
    if p.2 = 1 then
      (acc.1, ((({ s with memsys := { s.memsys with flips := SMap.del p.1 s.memsys.flips } }).bump
        Reg.MEM_PROT_CE_LAST 1).setBit Reg.MEM_EVENT 8).report 0x2502 agent 1 p.1)
    else
      let s := { s with memsys := { s.memsys with flips := SMap.del p.1 s.memsys.flips } }
      let s := (((s.inc Reg.MEM_PROT_UE).setBit Reg.MEM_EVENT 9).memErr agent 3 p.1).report 0x3504 agent 1 p.1
      (true, s.poisonAt (s.physPort (s.logicalPort p.1)) (lineOf p.1))) (false, s)

/-- The first request wakes an ACTIVE port from self-refresh (R451). -/
def State.wakePorts (a n : Nat) (s : State) : State :=
  if !s.ports.any (fun p => p.2.selfRefresh && p.2.role == .active) then s
  else s.each (linesOf a n) (fun l s =>
    let p := s.physPort (s.logicalPort l)
    if decide (l < 0x2000000000) && (s.port p).selfRefresh then s.setPort p { s.port p with selfRefresh := false } else s)

/-- A read that meets a poisoned line is handled as a failed read: captured, and recorded by the Watch (R452, R453, R472); one
that meets a lost port first completes as a bus error and nothing else (R467). -/
def State.badRead (agent access a n : Nat) (s : State) : State :=
  match (linesOf a n).find? (fun l => s.poisoned l || (decide (l < 0x2000000000) && s.portGone l)) with
  | some l => if decide (l < 0x2000000000) && s.portGone l then s else ((s.setBit Reg.MEM_EVENT 10).memErr agent 4 l).report 0x3503 agent access l
  | none => s

/-- The words of the protected region that a write covers whole take new check bytes; those it covers in part are read and corrected
first (R456). -/
def State.eccWrite (agent a n : Nat) (s : State) : State :=
  let flips := s.memsys.flips.filter (fun (p : Nat × Nat) => !(decide (a ≤ p.1) && decide (p.1 + 8 ≤ a + n)))
  (State.eccRead agent a n { s with memsys := { s.memsys with flips } }).2

/-- A read of device memory by an agent, of an access type of R609: bytes, or refused with a usage event (R34), or a bus error (R35,
R452, R453, R467). -/
def State.readAs (agent access a n : Nat) (s : State) : Access × List Nat × State :=
  match s.canRead a n with
  | .ok =>
    if n ≠ 0 ∧ s.isOut a n then
      let h := s.hostRead n
      (.ok, h.1, h.2)
    else
    let r := (s.wakePorts a n).eccRead agent a n
    if r.1 then (.busError, List.replicate n 0, r.2) else (.ok, Memory.bytes s.mem a n, r.2)
  | .refused => (.refused, List.replicate n 0, s.usageAddr agent access a)
  | .busError =>
    if s.isMem a then (.busError, List.replicate n 0, s.badRead agent access a n)
    else (.busError, List.replicate n 0, s.outboundErr)

/-- A read of data. -/
def State.readMem (agent a n : Nat) (s : State) : Access × List Nat × State := s.readAs agent 1 a n

/-- A write of device memory by an agent; in the outbound window it goes to the host (R557). A write of a whole line takes the line off the poison list (R453). -/
def State.writeMem (agent a : Nat) (bs : List Nat) (s : State) : Access × State :=
  match s.canWrite agent a bs.length with
  | .ok =>
    if bs.length ≠ 0 ∧ s.isOut a bs.length then (.ok, s.hostWrite a bs)
    else
    let whole := (linesOf a bs.length).filter (fun l => decide (a ≤ l) && decide (l + 64 ≤ a + bs.length))
    (.ok, (((s.wakePorts a bs.length).eccWrite agent a bs.length).putM a bs).each whole State.unpoison)
  | .refused => (.refused, s.usageAddr agent 2 a)
  | .busError => (.busError, if s.isMem a then s else s.outboundErr)

/-! ### CRC-32C (R102) -/

/-- One bit of the Castagnoli CRC, reflected. -/
def crcBit (c : Nat) : Nat := if c % 2 = 1 then Nat.xor (c / 2) 0x82F63B78 else c / 2

/-- One byte of the CRC. -/
def crcByte (c b : Nat) : Nat :=
  crcBit (crcBit (crcBit (crcBit (crcBit (crcBit (crcBit (crcBit (Nat.xor c (b % 256)))))))))

/-- CRC-32C: initial value and final XOR 0xFFFF_FFFF (R102). -/
def crc32c (bs : List Nat) : Nat := Nat.xor (bs.foldl crcByte 0xFFFFFFFF) 0xFFFFFFFF

/-- A little-endian number from a list of bytes. -/
def leNat : List Nat → Nat
  | [] => 0
  | b :: bs => b % 256 + 256 * leNat bs

/-- The little-endian bytes of a number. -/
def leBytes : Nat → Nat → List Nat
  | 0, _ => []
  | n + 1, v => v % 256 :: leBytes n (v / 256)

/-- The big-endian bytes of a number. -/
def beBytes (n v : Nat) : List Nat := (leBytes n v).reverse

end Sys2Proof.Machine
end

