-- ==== Sys2Proof/Machine/Bell.lean ====
section
/-! DEFINITION. The bell (16_host_and_bell.md: R563 to R578): lines, edges, presentation, claims, completions, targets,
hold timers and MSI-X messages. -/

namespace Sys2Proof.Machine

/-- The PCIe host agent (R40). -/
abbrev hostAgent : Nat := 0x0E8

/-! ### Authority of host writes (R100) -/

/-- Registers the host may write while ARM is 0: bell claims and completions, the W1C bit of a source's STATE, W1C
writes to UCB_IRQ_STATUS, and the CUS event registers (R100, R577). -/
def armExempt (o : Nat) : Bool :=
  match blockOf o with
  | .cus => o = Reg.CUS_EVENT || o = Reg.CUS_EVENT_ENABLE
  | .bell =>
    (decide (0x50100 ≤ o) && decide (o < 0x50340) && (decide (o % 16 = 0) || decide (o % 16 = 4)))
      || (decide (0x51000 ≤ o) && decide (o < 0x53000) && decide (o % 8 = 4))
  | .ucb => ucbOff o = Reg.UCB_IRQ_STATUS
  | _ => false

/-- Blocks that BAR0 reaches before step 6 ends (R80). -/
def earlyBlock (o : Nat) : Bool :=
  match blockOf o with
  | .global | .cfg | .cus => true
  | _ => false

/-- A BAR0 access before the end of step 6 to a block it does not reach (R80). -/
def State.tooEarly (s : State) (agent o : Nat) : Bool := agent = hostAgent && decide (s.bootStep < 6) && !earlyBlock o

/-- A host write that ARM = 0 discards (R100), or that comes before the end of step 6 (R80). -/
def State.armBlocks (s : State) (agent o : Nat) : Bool :=
  (agent = hostAgent && !s.boot.arm && !armExempt o) || s.tooEarly agent o

/-! ### Lines (R564, R565) -/

/-- A bit set in both an event register and its enable register. -/
def State.both (s : State) (ev en b : Nat) : Bool := s.bit ev b && s.bit en b

/-- Some bit of a mask set in both registers. -/
def State.anyBoth (s : State) (ev en mask : Nat) : Bool := Nat.land (Nat.land (s.rd ev) (s.rd en)) mask != 0

/-- The line of a unit: some bit set in both UCB_IRQ_STATUS and UCB_IRQ_ENABLE (R53). -/
def State.unitLine (s : State) (u : Nat) : Bool :=
  s.anyBoth (ucb u Reg.UCB_IRQ_STATUS) (ucb u Reg.UCB_IRQ_ENABLE) 0xF

/-- The unit of a fixed unit source (R565). -/
def srcUnit (n : Nat) : Nat :=
  if n < 304 then n - 256 else if n < 328 then 0x40 + (n - 304) else if n < 336 then 0x60 + (n - 328) else 0x70 + (n - 336)

/-- Present level of a source's line (R565). Software sources have edges and no level. -/
def State.bellLine (s : State) (n : Nat) : Bool :=
  if n < 8 then s.both Reg.WATCH_EVENT Reg.WATCH_EVENT_ENABLE n
  else if n < 16 then s.both Reg.PWR_EVENT Reg.PWR_EVENT_ENABLE (n - 8)
  else if n < 24 then s.both Reg.TIDE_EVENT Reg.TIDE_EVENT_ENABLE (n - 16)
  else if n < 32 then s.both Reg.CUS_EVENT Reg.CUS_EVENT_ENABLE (n - 24)
  else if n < 64 then s.both Reg.HM_CPEND Reg.HM_CPEND_ENABLE (n - 32)
  else if n < 96 then s.both Reg.HM_EVENT Reg.HM_EVENT_ENABLE (n - 64)
  else if n < 224 then
    let u := 0x90 + (n - 96) / 2
    if n % 2 = 0 then s.anyBoth (ucb u Reg.LT_EVENT) (ucb u Reg.LT_EVENT_ENABLE) 0x0F
    else s.anyBoth (ucb u Reg.LT_EVENT) (ucb u Reg.LT_EVENT_ENABLE) 0x10 || s.unitLine u
  else if n < 256 then s.both Reg.POOL_EVENT Reg.POOL_EVENT_ENABLE (n - 224)
  else if n < 344 then s.unitLine (srcUnit n)
  else if n < 512 then false
  else if n < 527 then s.both Reg.NET_EVENT Reg.NET_EVENT_ENABLE (n - 512)
  else if n < 528 then false
  else if n < 536 then
    let o := (n - 528) * 0x100
    s.anyBoth (Reg.DISP_OUT_EVENT + o) (Reg.DISP_OUT_EVENT_ENABLE + o) 0x1F
  else if n < 540 then
    let o := (n - 536) / 2 * 0x100
    s.anyBoth (Reg.FEED_EVENT + o) (Reg.FEED_EVENT_ENABLE + o) (if n % 2 = 0 then 0x0D else 0x12)
  else if n < 544 then s.anyBoth Reg.MEM_EVENT Reg.MEM_EVENT_ENABLE (0xF * 2 ^ (4 * (n - 540)))
  else if n < 560 then s.both Reg.SND_EVENT Reg.SND_EVENT_ENABLE (n - 544)
  else if n < 768 then
    let m := s.rd (Reg.BELL_MAP + 4 * (n - 560))
    if m.testBit 15 then
      if bits m 11 0 = hostAgent then s.anyBoth Reg.HOST_EVENT Reg.HOST_EVENT_ENABLE 0x7F
      else s.unitLine (bits m 11 0)
    else false
  else false

/-- Sources with no driver: they never latch, and their registers read 0 (R564). -/
def noDriver (n : Nat) : Bool := (344 ≤ n && n ≤ 511) || n = 527 || 1024 ≤ n

/-! ### Targets and presentation (R566, R567, R575) -/

/-- The current target (R566). -/
def BellSrc.current (x : BellSrc) : Nat := if x.fell then x.fallback else x.target

/-- The source a target holds ACTIVE, if any. -/
def State.bellHeld (s : State) (t : Nat) : Option Nat :=
  (s.bell.find? (fun p => p.2.active && decide (p.2.claimer = t))).map (fun p => p.1)

/-- The source presented to a target: the lowest that qualifies (R567). -/
def State.presented (s : State) (t : Nat) : Option Nat :=
  if s.bit (Reg.BELL_T_CTRL + 16 * t) 0 && (s.bellHeld t).isNone then
    (s.bell.find? (fun p => p.2.pending && !p.2.active && p.2.enable && decide (p.2.current = t))).map (fun p => p.1)
  else none

/-- Is a host target asleep? Link down, PERST_N asserted or D3hot (R575). Control cores' own sleep is not visible
(assumption 8). -/
def State.asleep (s : State) (t : Nat) : Bool :=
  decide (4 ≤ t) && (!s.host.linkUp || s.host.perst || s.host.d3hot)

/-- ALERT_N: a source presented to a host target while the link is down or PERST_N is asserted, with ALERT_EN (R575). -/
def State.alert (s : State) : Bool :=
  s.bit Reg.HOST_CTRL 1 && (!s.host.linkUp || s.host.perst) &&
    (List.range 32).any (fun v => (s.presented (v + 4)).isSome)

/-- A vector is masked, by its table entry or by the function (R568). -/
def State.vectorMasked (s : State) (v : Nat) : Bool :=
  s.host.msixMaskAll || s.bit (Reg.HOST_MSIX_TABLE + 16 * v + 12) 0

/-- The MSI-X message of a vector: the words of its table entry (R568). -/
def State.msix (v : Nat) (s : State) : State :=
  let e := Reg.HOST_MSIX_TABLE + 16 * v
  (s.sndCount 0xF05 0xD03 1).emit (.msix v (s.rd e + s.rd (e + 4) * two32) (s.rd (e + 8)))

/-- Signal a target that presents a source: a control core, or the vector of a host target by message, by its PBA bit
while masked, or by a wake while asleep (R568, R575). -/
def State.signalTarget (t : Nat) (s : State) : State :=
  if t < 4 then s.emit (.signal t)
  else if s.host.linkUp && !s.host.perst && s.host.d3hot then (if s.host.pmeEn then s.emit .pme else s)
  else if s.asleep t || !s.host.bme || !s.host.msixEn then s
  else if s.vectorMasked (t - 4) then s.setBit Reg.HOST_MSIX_PBA (t - 4)
  else s.msix (t - 4)

/-- Signal every target that changed from presenting nothing, in `old`, to presenting a source (R568). -/
def State.settle (s old : State) : State :=
  s.each (List.range 36) (fun t s =>
    if (old.presented t).isNone && (s.presented t).isSome then s.signalTarget t else s)

/-- Signal every host target that presents a source: what follows once the function can send messages (R575). -/
def State.signalHosts (s : State) : State :=
  s.each (List.range 32) (fun v s => if (s.presented (v + 4)).isSome then s.signalTarget (v + 4) else s)

/-! ### Usage errors (R570) -/

/-- A bell usage error: counted, captured if first, and reported as BELL_USAGE (R570, R577, R583). -/
def State.bellError (kind source target agent addr : Nat) (s : State) : State :=
  let s := s.bump Reg.BELL_USAGE_LAST 1
  let s := if s.bit Reg.BELL_ERR_INFO 31 then s
    else s.wr Reg.BELL_ERR_INFO (bits source 9 0 + bits target 5 0 * 1024 + bits agent 11 0 * 65536 + kind * 2 ^ 28 + 2 ^ 31)
  s.report 0x1D02 agent 7 addr

/-! ### Edges -/

/-- A rising edge of a source: latched, or merged and counted (R563); the hold timer starts when the source becomes
PENDING while not ACTIVE (R574). -/
def State.edge (n : Nat) (s : State) : State :=
  if noDriver n then s
  else
    let x := s.src n
    if x.pending then s.bump Reg.BELL_MERGED_LAST 1
    else s.setSrc n { x with pending := true, timer := !x.active && x.hold != 0 }

/-- SOURCE_EDGE: the line of a source is sampled; a rise since the last sample is an edge (R563). A software source has
no level and takes its edges from BELL_SWSET. -/
def sourceEdge (n : Nat) (s : State) : State :=
  if noDriver n ∨ 768 ≤ n then s
  else
    let x := s.src n
    let l := s.bellLine n
    let s' := s.setSrc n { x with line := l }
    if l && !x.line then (s'.edge n).settle s else s'

/-- BELL_SWSET: each bit written 1 gives its software source one rising edge (R564). -/
def bellSwset (agent w v : Nat) (s : State) : State :=
  if s.armBlocks agent (Reg.BELL_SWSET + 4 * w) then s.usageReg agent (Reg.BELL_SWSET + 4 * w)
  else
    (s.each ((List.range 32).filter (fun b => v.testBit b)) (fun b s => s.edge (768 + 32 * w + b))).settle s

/-! ### Claim and complete (R569, R570) -/

/-- BELL_CLAIM: a read of BELL_Tt_CLAIM claims the source presented to t (R569). The host may not read the registers of
targets 0 to 3 (R570). -/
def bellClaim (agent t : Nat) (s : State) : State :=
  let o := Reg.BELL_T_CLAIM + 16 * t
  if agent = hostAgent ∧ t < 4 then (s.bellError 3 0 t agent (regAddr o)).emit (.readData agent o 0)
  else
    match s.presented t with
    | some n =>
      (s.setSrc n { s.src n with pending := false, active := true, claimer := t, timer := false }).emit
        (.readData agent o (n + 2 ^ 31))
    | none => s.emit (.readData agent o (if (s.bellHeld t).isSome then 2 ^ 30 else 0))

/-- BELL_COMPLETE: the end of a claim (R570); a completion left presented signals its target again (R568). -/
def bellComplete (agent t v : Nat) (s : State) : State :=
  let o := Reg.BELL_T_COMPLETE + 16 * t
  let n := bits v 9 0
  let x := s.src n
  if agent = hostAgent ∧ t < 4 then s.bellError 3 n t agent (regAddr o)
  else if x.active ∧ x.claimer = t then
    let s' := s.setSrc n { x with active := false, claimer := 63, fell := false, timer := x.pending && x.hold != 0 }
    let s' := if (s'.presented t).isSome then s'.signalTarget t else s'
    s'.each ((List.range 36).filter (fun u => u != t)) (fun u q =>
      if (s.presented u).isNone && (q.presented u).isSome then q.signalTarget u else q)
  else if x.active then s.bellError 1 n t agent (regAddr o)
  else s.bellError 2 n t agent (regAddr o)

/-! ### Configuration, hold and fallback (R566, R573, R574) -/

/-- A value BELL_SRCs_CFG refuses for TARGET or FALLBACK: 36 to 62 (R566). -/
def badTarget (t : Nat) : Bool := 36 ≤ t && t ≤ 62

/-- BELL_SRC_CFG_WRITE: a write of a source's TARGET, FALLBACK, HOLD and ENABLE (R566, R573). -/
def bellSrcCfgWrite (agent n v : Nat) (s : State) : State :=
  let o := Reg.BELL_SRC_CFG + 8 * n
  if s.armBlocks agent o then s.usageReg agent o
  else if noDriver n then s
  else if badTarget (bits v 5 0) then (s.bellError 4 n (bits v 5 0) agent (regAddr o)).refusal
  else if badTarget (bits v 13 8) then (s.bellError 4 n (bits v 13 8) agent (regAddr o)).refusal
  else
    let x := s.src n
    let moved := bits v 5 0 != x.target
    let hold := bits v 31 16
    let y := { x with
      target := bits v 5 0, fallback := bits v 13 8, hold := hold, enable := v.testBit 15,
      fell := if moved && !x.active then false else x.fell,
      timer := if moved && x.pending && !x.active then hold != 0 else x.timer && hold != 0 }
    (s.setSrc n y).settle s

/-- A W1C of PENDING discards the latched edge (R577). -/
def State.bellDiscard (n : Nat) (s : State) : State :=
  if noDriver n then s else s.setSrc n { s.src n with pending := false, timer := false }

/-- HOLD_TIMER_EXPIRY: a source still unclaimed falls back, once (R574); a source whose current target is 63 runs no
timer (R566). -/
def holdTimerExpiry (n : Nat) (s : State) : State :=
  let x := s.src n
  if x.timer && x.pending && !x.active && x.current != 63 then
    if x.fallback != 63 && x.fallback != x.current then
      ((s.setSrc n { x with fell := true, timer := false }).bump Reg.BELL_FALLBACK_LAST 1).settle s
    else s.setSrc n { x with timer := false }
  else s

/-- MSIX_UNMASK: on unmasking, the pending message is issued if a source is still presented; else the PBA bit clears
(R568). -/
def State.msixUnmask (v : Nat) (s : State) : State :=
  if s.bit Reg.HOST_MSIX_PBA v && !s.vectorMasked v then
    let s := s.clrBit Reg.HOST_MSIX_PBA v
    if (s.presented (v + 4)).isSome then s.msix v else s
  else s

/-- PERST_N or a function level reset returns every source ACTIVE on a host target to PENDING on its current target, and
restarts its hold timer (R575). -/
def State.bellHostReset (s : State) : State :=
  s.each (s.bell.filter (fun p => p.2.active && decide (4 ≤ p.2.claimer) && decide (p.2.claimer < 36))) (fun p s =>
    s.setSrc p.1 { s.src p.1 with active := false, claimer := 63, pending := true, timer := (s.src p.1).hold != 0 })

/-! ### Views (R577, R578) -/

/-- BELL_SRCs_CFG as it reads. -/
def State.viewSrcCfg (s : State) (n : Nat) : Nat :=
  if noDriver n then 0
  else
    let x := s.src n
    x.target + x.fallback * 256 + b2n x.enable * 32768 + x.hold * 65536

/-- BELL_SRCs_STATE as it reads. -/
def State.viewSrcState (s : State) (n : Nat) : Nat :=
  if noDriver n then 0
  else
    let x := s.src n
    b2n x.pending + b2n x.active * 2 + b2n (s.bellLine n) * 4 + b2n x.fell * 8 + x.current * 16 + x.claimer * 1024

/-- BELL_Tt_STATUS as it reads. -/
def State.viewTarget (s : State) (t : Nat) : Nat :=
  (match s.presented t with
    | some n => n + 1024
    | none => 0)
    + (match s.bellHeld t with
      | some n => n * 65536 + 2 ^ 26
      | none => 0)
    + b2n (s.asleep t) * 2 ^ 27

/-- A word of 32 source flags. -/
def State.viewFlags (s : State) (w : Nat) (f : BellSrc → Bool) : Nat :=
  (List.range 32).foldl (fun acc b => acc + b2n (f (s.src (32 * w + b))) * 2 ^ b) 0

/-! ### Meanings -/

def execSourceEdge (src : Nat) (s : State) : Host.Outcome State Fault Refusal := .next (sourceEdge src s)
def execBellClaim (agent target : Nat) (s : State) : Host.Outcome State Fault Refusal := 
  .next (if s.tooEarly agent (Reg.BELL_T_CLAIM + 16 * target) then s.usageReg agent (Reg.BELL_T_CLAIM + 16 * target)
    else bellClaim agent target s)
def execBellComplete (agent target value : Nat) (s : State) : Host.Outcome State Fault Refusal :=
  .next (if s.tooEarly agent (Reg.BELL_T_COMPLETE + 16 * target) then s.usageReg agent (Reg.BELL_T_COMPLETE + 16 * target)
    else bellComplete agent target value s)
def execBellSwset (agent word value : Nat) (s : State) : Host.Outcome State Fault Refusal :=
  .next (bellSwset agent word value s)
def execBellSrcCfgWrite (agent src value : Nat) (s : State) : Host.Outcome State Fault Refusal :=
  .next (s.setting (Reg.BELL_SRC_CFG + 8 * src) (bellSrcCfgWrite agent src value))
def execHoldTimerExpiry (src : Nat) (s : State) : Host.Outcome State Fault Refusal := .next (holdTimerExpiry src s)

/-- MSIX_UNMASK: the mask bit of a vector's table entry is written 0, then R568. -/
def execMsixUnmask (vector : Nat) (s : State) : Host.Outcome State Fault Refusal :=
  let o := Reg.HOST_MSIX_TABLE + 16 * (vector % 32) + 12
  .next (if s.armBlocks hostAgent o then s.usageReg hostAgent o else (s.clrBit o 0).msixUnmask (vector % 32))

end Sys2Proof.Machine
end

