-- ==== Sys2Proof/Machine/Warehouse.lean ====
section
/-! DEFINITION. The warehouse (13_warehouse.md: R474 to R495): pools, the free list kept in the free buffers themselves,
the bitmap and owner records of the metadata area, operations, levels and back-pressure. -/

namespace Sys2Proof.Machine

/-- The warehouse as an agent (R40). -/
abbrev agentPool : Nat := 0x0F0
/-- The harbourmaster as an agent. -/
abbrev agentHm : Nat := 0x0F1
/-- Customs as an agent. -/
abbrev agentCus : Nat := 0x0F2
/-- The Watch as an agent. -/
abbrev agentWatch : Nat := 0x0F3
/-- CC0, which carries out management commands (R656). -/
abbrev agentCc0 : Nat := 0x080

/-! ### Pool registers (R474, R475, R495) -/

/-- A per-pool register. -/
def poolReg (r p : Nat) : Nat := r + 0x40 * p

def State.poolBase (s : State) (p : Nat) : Nat := s.rd40 (poolReg Reg.POOL_BASE_LO p)
def State.poolSize (s : State) (p : Nat) : Nat := 2 ^ s.fld (poolReg Reg.POOL_CFG p) 4 0
def State.poolCount (s : State) (p : Nat) : Nat := s.fld (poolReg Reg.POOL_COUNT p) 20 0
def State.poolFirst (s : State) (p : Nat) : Nat := s.fld (poolReg Reg.POOL_FIRST_INDEX p) 21 0
def State.poolOn (s : State) (p : Nat) : Bool := s.bit (poolReg Reg.POOL_CFG p) 8
def State.hostAlloc (s : State) (p : Nat) : Bool := s.bit (poolReg Reg.POOL_CFG p) 9
def State.poolEnd (s : State) (p : Nat) : Nat := s.poolBase p + s.poolCount p * s.poolSize p

/-- Buffer i of a pool (R474). -/
def State.poolAddr (s : State) (p i : Nat) : Nat := s.poolBase p + i * s.poolSize p

/-- The enabled pools. -/
def State.poolsOn (s : State) : List Nat := (List.range 256).filter (fun p => s.poolOn p)

/-- The enabled pool whose extent holds an address. -/
def State.poolOf (s : State) (a : Nat) : Option Nat :=
  s.poolsOn.find? (fun p => decide (s.poolBase p ≤ a) && decide (a < s.poolEnd p))

/-- Global index of a buffer address of pool p (R475). -/
def State.globalIndex (s : State) (p a : Nat) : Nat := s.poolFirst p + (a - s.poolBase p) / s.poolSize p

/-! ### The metadata area (R479, R480) -/

def State.metaBase (s : State) : Nat := s.rd40 Reg.POOL_META_BASE_LO
/-- Byte of the bitmap that holds a global index. -/
def State.bitAddr (s : State) (g : Nat) : Nat := s.metaBase + g / 8
/-- Owner record of a global index. -/
def State.ownerAddr (s : State) (g : Nat) : Nat := s.metaBase + 0x100000 + 8 * g

def State.allocated (s : State) (g : Nat) : Bool := (Memory.read s.mem (s.bitAddr g)).testBit (g % 8)
def State.setAllocated (g : Nat) (v : Bool) (s : State) : State :=
  s.wrM (s.bitAddr g) 1 (putBits (Memory.read s.mem (s.bitAddr g)) (g % 8) (g % 8) (b2n v))

/-- OWNER, COUNT of an owner record (R480). -/
def State.ownerOf (s : State) (g : Nat) : Nat := bits (s.rdM (s.ownerAddr g) 8) 11 0
def State.refCount (s : State) (g : Nat) : Nat := bits (s.rdM (s.ownerAddr g) 8) 31 16
def State.setOwner (g o : Nat) (s : State) : State :=
  s.wrM (s.ownerAddr g) 8 (putBits (s.rdM (s.ownerAddr g) 8) 11 0 o)
def State.setRefCount (g n : Nat) (s : State) : State :=
  s.wrM (s.ownerAddr g) 8 (putBits (s.rdM (s.ownerAddr g) 8) 31 16 n)

/-- Reading a word of the metadata area fails (R456, R488): an uncorrectable word, or a poisoned line. -/
def State.metaBad (s : State) (a : Nat) : Bool :=
  decide (SMap.get (fun _ => 0) s.memsys.flips (a / 8 * 8) = 2) || s.poisoned (lineOf a)

/-- Is a unit a member, at any depth, of a group (R481)? -/
def State.inGroup (s : State) (g u : Nat) : Bool :=
  unitKind g == some .group && (s.walk 2000000 (s.members g) []).contains u

/-- An agent matches an owner: it is that owner, a member of the group the owner names, or the spare that took the
owner's place (R481, R589). -/
def State.ownerMatch (s : State) (agent owner : Nat) : Bool :=
  decide (agent = owner) || s.inGroup owner agent || decide ((owner, agent) ∈ s.watch.aliases)

/-! ### The free list (R482 to R485) -/

/-- The link word of a free buffer (R482). -/
def linkWord (next p : Nat) : Nat :=
  let w := next % two40 + p * two40
  w + crc32c (leBytes 6 w) % 65536 * 2 ^ 48

/-- Write the first line of a free buffer: the link word, then 56 zero bytes (R483); the whole-line write clears any
poisoning (R485). -/
def State.threadLine (a next p : Nat) (s : State) : State :=
  (s.putM a (leBytes 8 (linkWord next p) ++ List.replicate 56 0)).unpoison (lineOf a)

/-- Thread a list of buffers in ascending order, each linked to the one after it (R483; assumption 9). -/
def State.threadList (p tail : Nat) : List Nat → State → State
  | [], s => s
  | [a], s => s.threadLine a tail p
  | a :: b :: rest, s => State.threadList p tail (b :: rest) (s.threadLine a b p)

/-- The warehouse reads the word of the metadata area at an address: its errors are handled as those of any read (R453, R456). -/
def State.metaRead (a : Nat) (s : State) : State := (s.readMem agentPool (a / 8 * 8) 8).2.2

/-- The reads an operation on an address makes: the bitmap word, and the owner record of an allocated buffer; none where the range or
alignment check fails (R487). -/
def State.metaTouch (a : Nat) (s : State) : State :=
  match s.poolOf a with
  | none => s
  | some p =>
    if (a - s.poolBase p) % s.poolSize p ≠ 0 then s
    else
      let g := s.globalIndex p a
      let s := s.metaRead (s.bitAddr g)
      if s.metaBad (s.bitAddr g) || !s.allocated g then s else s.metaRead (s.ownerAddr g)

/-- Thread the next buffers of those still to be threaded; each links to the one after it (R483). -/
def State.threadMore (p n : Nat) (s : State) : State :=
  let x := s.pool p
  let l := x.todo.take n
  let rest := x.todo.drop n
  (s.threadList p (rest.headD 0) l).setPool p { x with todo := rest, threaded := x.threaded + l.length, reached := x.reached + l.length }

/-- An allocation that finds no threaded buffer while threading goes on: at least 64 buffers are threaded in each µs, and how many more
is open (R483; assumption 79). -/
def State.threadReach (p : Nat) (s : State) : State :=
  let x := s.pool p
  if x.threaded ≠ 0 ∨ x.todo = [] then s
  else
    let r := s.draw
    r.2.threadMore p (max (64 * ((s.now - x.since) / 1000) - x.reached) (r.1 % (x.todo.length + 1)))

/-- Buffers of a pool that the bitmap shows free and readable, in ascending index order. -/
def State.freeBuffers (s : State) (p : Nat) : List Nat :=
  ((List.range (s.poolCount p)).filter (fun i =>
    let g := s.poolFirst p + i
    !s.metaBad (s.bitAddr g) && !s.allocated g)).map (fun i => s.poolAddr p i)

/-- Buffers of a pool whose bitmap bit could not be read (R485). -/
def State.unreadable (s : State) (p : Nat) : List Nat :=
  ((List.range (s.poolCount p)).filter (fun i => s.metaBad (s.bitAddr (s.poolFirst p + i)))).map (fun i => s.poolAddr p i)

/-! ### Levels (R493) -/

/-- The level a free count gives, from the level before: a level is entered at its threshold and left above threshold
plus HYST (R493). -/
def poolLevel (notice pressure critical hyst old free : Nat) : Nat :=
  if free ≤ critical ∨ (3 ≤ old ∧ free ≤ critical + hyst) then 3
  else if free ≤ pressure ∨ (2 ≤ old ∧ free ≤ pressure + hyst) then 2
  else if free ≤ notice ∨ (1 ≤ old ∧ free ≤ notice + hyst) then 1
  else 0

/-- Set a pool's free count and act on the level it gives (R493). -/
def State.setFree (p n : Nat) (s : State) : State :=
  let x := s.pool p
  let lvl := poolLevel (s.rd (poolReg Reg.POOL_NOTICE p)) (s.rd (poolReg Reg.POOL_PRESSURE p))
    (s.rd (poolReg Reg.POOL_CRITICAL p)) (s.rd (poolReg Reg.POOL_HYST p)) x.level n
  let s := s.setPool p { x with free := n, low := min x.low n, level := lvl }
  let s := s.whenB (x.level < 1 && 1 ≤ lvl) (State.setBit Reg.POOL_EVENT 2)
  let s := s.whenB (x.level < 2 && 2 ≤ lvl) (State.setBit Reg.POOL_EVENT 3)
  let s := s.whenB (x.level < 3 && 3 ≤ lvl) (fun s =>
    (s.setBit Reg.POOL_EVENT 4).report 0x3604 agentPool 5 (s.poolBase p))
  let s := s.whenB (x.free != 0 && n == 0) (State.setBit Reg.POOL_EVENT 5)
  s.whenB (x.level != 0 && lvl == 0) (State.setBit Reg.POOL_EVENT 6)

/-! ### Operations (R484 to R493) -/

/-- Allocation classes (R492). -/
inductive Cls where
  | job | ingress | host
  deriving DecidableEq, Repr

/-- Capture and count a refusal, and report it (R488, R492). -/
def State.poolRefuse (op agent a code : Nat) (s : State) : State :=
  let s := ((s.bump Reg.POOL_REFUSED_LAST 1).setBit Reg.POOL_EVENT 0).sndCount 0xF03 0xB02 1
  let s := if s.bit Reg.POOL_REFUSE_INFO 31 then s
    else (s.wr40 Reg.POOL_REFUSE_ADDR_LO a).wr Reg.POOL_REFUSE_INFO (bits agent 11 0 + op * 4096 + code * 65536 + 2 ^ 31)
  if code = 12 then s.report 0x3605 agentPool 5 a else s.report 0x1603 agent 5 a

/-- Empty a pool's list after a failed check and begin the rebuild from the bitmap (R485). Every buffer whose bit cannot
be read is withheld, and reported. -/
def State.listRebuild (p bad : Nat) (s : State) : State :=
  let s := (s.inc (poolReg Reg.POOL_CHECK_FAIL p)).setBit Reg.POOL_EVENT 1
  let s := s.report 0x1602 noAgent 5 bad
  let s := (s.eccRead agentPool (s.bitAddr (s.poolFirst p) / 8 * 8) (s.poolCount p / 8 + 16)).2
  let un := s.unreadable p
  let s := s.each un (fun a s => s.report 0x3605 agentPool 5 a)
  let fb := s.freeBuffers p
  let s := s.setPool p { s.pool p with
    head := fb.headD 0, threaded := 0, todo := fb, since := s.now, reached := 0, rebuilding := true, withheld := un }
  s.setFree p fb.length

/-- Hand out a buffer: bitmap bit, owner record, and zero in bytes 0 to 7 (R484). -/
def State.handOut (p owner a : Nat) (s : State) : State :=
  let g := s.globalIndex p a
  let s := (s.setAllocated g true).wrM (s.ownerAddr g) 8 (bits owner 11 0 + 65536 + s.tideNum % two32 * two32)
  s.wrM a 8 0

/-- Is the head of a pool's list sound? Bit 0, POOL and CHECK right, NEXT 0 or a buffer of the pool (R484); the link
word readable (R485). -/
def State.headSound (s : State) (p a : Nat) : Bool :=
  let w := s.rdM a 8
  let next := w % two40
  !s.poisoned (lineOf a) && !s.allocated (s.globalIndex p a) && decide (bits w 47 40 = p)
    && decide (bits w 63 48 = crc32c (leBytes 6 (w % 2 ^ 48)) % 65536)
    && (decide (next = 0) || (decide (s.poolBase p ≤ next) && decide (next < s.poolEnd p)
      && decide ((next - s.poolBase p) % s.poolSize p = 0)))

/-- Hand out the head of a pool's list (R484). -/
def State.popHead (p owner : Nat) (s : State) : State :=
  let x := s.pool p
  let next := s.rdM x.head 8 % two40
  let s := s.handOut p owner x.head
  let s := s.setPool p { s.pool p with head := next, threaded := x.threaded - 1 }
  s.setFree p (x.free - 1)

/-- Take the head free buffer, rebuilding the list when a check fails or the link word cannot be read; the allocation in progress is
then served from the first buffer rethreaded (R484, R485). Answers the address. -/
def State.takeHead (p owner : Nat) (s : State) : Option Nat × State :=
  let a := (s.pool p).head
  let r := s.readMem agentPool a 8
  if r.1 == .ok && r.2.2.headSound p a then (some a, r.2.2.popHead p owner)
  else
    let s := r.2.2.listRebuild p a
    match (s.pool p).todo with
    | [] => (none, s)
    | b :: _ => (some b, (s.threadMore p 1).popHead p owner)

/-- No buffer is to be had: the pool counts the failure (R492, R493). -/
def State.allocFail (c p : Nat) (s : State) : Nat × Nat × State := (c, 0, s.bump (poolReg Reg.POOL_FAIL_LAST p) 1)

/-- The head buffer is given out once its bitmap word has been read (R484, R485). -/
def State.allocHead (agent owner p : Nat) (s : State) : Nat × Nat × State :=
  let a := (s.pool p).head
  let w := s.bitAddr (s.globalIndex p a)
  let s := s.metaRead w
  if s.metaBad w then (12, 0, s.poolRefuse 1 agent a 12)
  else
    match s.takeHead p owner with
    | (some a, s) => (0, a, s.sndCount 0xF03 0xB00 1)
    | (none, s) => s.allocFail 8 p

/-- ALLOC (R484, R492, R493): code 0 with the address, or the code that refuses it. -/
def State.alloc (agent owner p : Nat) (cls : Cls) (s : State) : Nat × Nat × State :=
  let s := s.bump Reg.POOL_OPS_LAST 1
  if !s.poolOn p || (cls == .host && !s.hostAlloc p) then (10, 0, s.poolRefuse 1 agent 0 10)
  else
    let s := s.threadReach p
    let x := s.pool p
    if x.threaded = 0 ∨ x.head = 0 then s.allocFail 8 p
    else if (cls == .host && decide (2 ≤ x.level)) || (cls == .ingress && decide (3 ≤ x.level)) then s.allocFail 9 p
    else s.allocHead agent owner p

/-- The checks of FREE, RELEASE, SHARE and TRANSFER in order, and code 12 where a metadata word cannot be read (R487,
R488). Op numbers are those of R486. -/
def State.poolCheck (s : State) (op agent a : Nat) : Nat :=
  match s.poolOf a with
  | none => 1
  | some p =>
    let g := s.globalIndex p a
    if (a - s.poolBase p) % s.poolSize p ≠ 0 then 2
    else if s.metaBad (s.bitAddr g) then 12
    else if !s.allocated g then 3
    else if s.metaBad (s.ownerAddr g) then 12
    else if (op = 2 ∨ op = 5) ∧ !s.ownerMatch agent (s.ownerOf g) ∧ !(op = 5 ∧ agent = agentWatch) then 4
    else if op = 2 ∧ 1 < s.refCount g then 5
    else if op = 3 ∧ s.refCount g = 1 then 6
    else if op = 4 ∧ s.refCount g = 65535 then 7
    else 0

/-- An accepted operation rewrites an owner record that names a fenced unit to name its spare (R589). -/
def State.realias (g : Nat) (s : State) : State :=
  match s.watch.aliases.find? (fun p => p.1 = s.ownerOf g) with
  | some p => s.setOwner g p.2
  | none => s

/-- Push a freed buffer on the head of its pool's list (R484). -/
def State.pushFree (p a : Nat) (s : State) : State :=
  let x := s.pool p
  let s := s.setAllocated (s.globalIndex p a) false
  let s := s.wrM a 8 (linkWord x.head p)
  let s := s.setPool p { s.pool p with head := a, threaded := x.threaded + 1 }
  s.setFree p (x.free + 1)

/-- FREE, RELEASE, SHARE or TRANSFER (R486 to R489): the code, 0 when accepted. -/
def State.poolOp (op agent a owner : Nat) (s : State) : Nat × State :=
  let s := (s.bump Reg.POOL_OPS_LAST 1).metaTouch a
  let c := s.poolCheck op agent a
  if c ≠ 0 then (c, s.poolRefuse op agent a c)
  else
    match s.poolOf a with
    | none => (1, s)
    | some p =>
      let g := s.globalIndex p a
      let s := s.realias g
      if op = 2 then (0, (s.pushFree p a).sndCount 0xF03 0xB01 1)
      else if op = 3 then (0, s.setRefCount g (s.refCount g - 1))
      else if op = 4 then (0, s.setRefCount g (s.refCount g + 1))
      else (0, s.setOwner g owner)

def State.free (agent a : Nat) (s : State) : State := (s.poolOp 2 agent a 0).2
def State.release (agent a : Nat) (s : State) : State := (s.poolOp 3 agent a 0).2
def State.share (agent a : Nat) (s : State) : State := (s.poolOp 4 agent a 0).2
def State.transfer (agent a owner : Nat) (s : State) : State := (s.poolOp 5 agent a owner).2

/-- Return a buffer the agent owns whatever shares stand: the owner releases the shares it holds, then frees it (R491);
a buffer of another owner is that owner’s to free (R490). -/
def State.giveBack (agent a : Nat) (s : State) : State :=
  match s.poolOf a with
  | none => s
  | some p =>
    let g := s.globalIndex p a
    if !s.metaBad (s.bitAddr g) && !s.metaBad (s.ownerAddr g) && (!s.allocated g || s.ownerOf g != agent) then s
    else if s.refCount g = 1 then s.free agent a else s.release agent a

/-! ### Enabling and disabling (R477, R478, R483) -/

/-- Two half-open ranges overlap. -/
def overlap (a b c d : Nat) : Bool := decide (a < d) && decide (c < b)

/-- The first failing check of an enable (R477), 0 when all pass. `cfg` is the value written to POOLp_CFG. -/
def State.enableCheck (s : State) (p cfg : Nat) : Nat :=
  let lg := bits cfg 4 0
  let n := s.poolCount p
  let b := s.poolBase p
  let e := b + n * 2 ^ lg
  let f := s.poolFirst p
  let others := s.poolsOn.filter (fun q => q != p)
  if !(11 ≤ lg ∧ lg ≤ 26 ∧ 1 ≤ n ∧ n ≤ 1048576) then 1
  else if b % 2 ^ lg ≠ 0 then 2
  else if s.capacity < e ∨ (s.protOn && overlap b e s.protBase (s.protBase + s.protSize)) then 3
  else if others.any (fun q => overlap b e (s.poolBase q) (s.poolEnd q)) then 4
  else if 4194304 < f + n ∨ others.any (fun q => overlap f (f + n) (s.poolFirst q) (s.poolFirst q + s.poolCount q)) then 5
  else if !(s.rd (poolReg Reg.POOL_CRITICAL p) ≤ s.rd (poolReg Reg.POOL_PRESSURE p)
      ∧ s.rd (poolReg Reg.POOL_PRESSURE p) ≤ s.rd (poolReg Reg.POOL_NOTICE p)
      ∧ s.rd (poolReg Reg.POOL_NOTICE p) + s.rd (poolReg Reg.POOL_HYST p) < n) then 6
  else if !s.metaSet then 7
  else 0

/-- Stream context base and index (R383). -/
def State.sctx (s : State) (c : Nat) : Nat := s.rd40 Reg.HM_SCTX_BASE_LO + 256 * c

/-- A byte of stream context c as held on the die. -/
def State.ctxHeld (s : State) (c o : Nat) : Nat := SMap.get (fun _ => 0) s.ctxDie (256 * c + o)

/-- KIND of a context: as START read it, or, while STATE is STOPPED, as it stands in memory. -/
def State.ctxKind (s : State) (c : Nat) : Nat :=
  if s.ctxHeld c 3 = 0 then Memory.read s.mem (s.sctx c + 2) else s.ctxHeld c 2

/-- The first byte that only the device writes, STATE apart (R182, R216). -/
def State.ctxOwn (s : State) (c : Nat) : Nat := if s.ctxKind c = 2 then 128 else 64

/-- A byte of stream context c as the device takes it. What it writes itself it never reads back from memory, so that a host
write there has no effect; the other bytes are read from memory while the stream is STOPPED, and stand as START read them
after it (R183, R218). -/
def State.ctxByte (s : State) (c o : Nat) : Nat :=
  if o = 3 ∨ s.ctxOwn c ≤ o ∨ s.ctxHeld c 3 ≠ 0 then s.ctxHeld c o else Memory.read s.mem (s.sctx c + o)

/-- A little-endian field of stream context c. -/
def State.sf (s : State) (c off n : Nat) : Nat := leNat ((List.range n).map (fun i => s.ctxByte c (off + i)))

/-- Bytes of context c on the die. -/
def State.holdCtx (c off : Nat) (bs : List Nat) (s : State) : State :=
  { s with ctxDie := bs.zipIdx.foldl (fun m p => SMap.set (fun _ => 0) m (256 * c + off + p.2) p.1) s.ctxDie }

/-- The device writes a field of stream context c. -/
def State.setSf (c off n v : Nat) (s : State) : State := (s.wrM (s.sctx c + off) n v).holdCtx c off (leBytes n v)

/-- START reads what the host or image wrote: bytes 0 to 63, in an encode context to 127 (R183, R218). -/
def State.readCtx (c : Nat) (s : State) : State :=
  s.holdCtx c 0 ((List.range (s.ctxOwn c)).map (fun o => if o = 3 then s.ctxHeld c 3 else Memory.read s.mem (s.sctx c + o)))

/-- The bits a picture job of a running stream reads again as it starts: CTRL 5:4, CONCEAL_HOLD and REFRESH_INTERVAL; EFFORT, HINTS
bits 1 to 4, REFRESH_MIN_GAP and CTRL bit 1 (R183, R218). -/
def rereadBits (op : Nat) : List (Nat × Nat) :=
  if op = 0x0102 then [(7, 0x30), (25, 0xFF), (26, 0xFF)]
  else if op = 0x0201 then [(7, 0x02), (27, 0x1E), (28, 0xFF), (36, 0xFF)]
  else []

def State.rereadCtx (op c : Nat) (s : State) : State :=
  s.each (rereadBits op) (fun p s =>
    s.holdCtx c p.1 [Nat.lor (Nat.land (s.ctxHeld c p.1) (255 - p.2)) (Nat.land (Memory.read s.mem (s.sctx c + p.1)) p.2)])

/-- A stream context that is not STOPPED names the pool in a pool field: decode bytes 20 to 23, encode bytes 20 to 23,
and 42 to 43 when it screens content (R478, R182, R216). -/
def State.ctxNames (s : State) (p c : Nat) : Bool :=
  let k := s.ctxKind c
  s.ctxHeld c 3 != 0 &&
    ((k == 1 && (s.sf c 20 2 == p || s.sf c 22 2 == p))
      || (k == 2 && (s.sf c 20 2 == p || s.sf c 22 2 == p || ((s.sf c 27 1).testBit 0 && s.sf c 42 2 == p))))

/-- The first failing check of a disable: 8 buffers allocated, 9 named by a context that is not STOPPED (R478). -/
def State.disableCheck (s : State) (p : Nat) : Nat :=
  if (List.range (s.poolCount p)).any (fun i => s.allocated (s.poolFirst p + i)) then 8
  else if (s.books.map (fun b => b.1)).any (fun c => s.ctxNames p c) then 9
  else 0

/-- A write of POOLp_CFG with ENABLE 1 to a disabled pool (R477): refused whole with ERR, or enabled and threading
begun. -/
def State.poolEnable (agent p v : Nat) (s : State) : State :=
  let o := poolReg Reg.POOL_CFG p
  let c := s.enableCheck p v
  if c ≠ 0 then (s.setPool p { s.pool p with err := c }).usageReg agent o
  else
    let s := s.wr o (Nat.land v 0x31F)
    let s := (s.eccRead agentPool (s.bitAddr (s.poolFirst p) / 8 * 8) (s.poolCount p / 8 + 16)).2
    let fb := s.freeBuffers p
    let n := fb.length
    let s := s.setPool p { PoolSt.reset with threading := true, low := n, free := n, head := fb.headD 0, todo := fb, since := s.now }
    (s.setFree p n).whenB (n == 0) (State.setBit Reg.POOL_EVENT 5)

/-- A write of POOLp_CFG with ENABLE 0 to an enabled pool (R478). -/
def State.poolDisable (agent p v : Nat) (s : State) : State :=
  let o := poolReg Reg.POOL_CFG p
  let c := s.disableCheck p
  if c ≠ 0 then (s.setPool p { s.pool p with err := c }).usageReg agent o
  else (s.setPool p PoolSt.reset).wr o (Nat.land v 0x21F)

/-- A write of POOLp_CFG (R478, R655): enable, disable, or while disabled its fields; while enabled LOG2_SIZE and
HOST_ALLOC cannot be changed. -/
def State.poolCfgWrite (agent p v : Nat) (s : State) : State :=
  let o := poolReg Reg.POOL_CFG p
  if v.testBit 8 && !s.poolOn p then s.poolEnable agent p v
  else if !v.testBit 8 && s.poolOn p then s.poolDisable agent p v
  else if s.poolOn p then
    if Nat.land v 0x21F = Nat.land (s.rd o) 0x21F then s else s.usageReg agent o
  else s.wr o (Nat.land v 0x21F)

/-- Threading or a rebuild ends: every buffer still to be threaded is on the list, lowest address first (R483, R485; assumption 9). -/
def threaded (p : Nat) (s : State) : State :=
  let x := s.pool p
  if x.threading || x.rebuilding then
    let s := s.threadMore p x.todo.length
    (s.setPool p { s.pool p with threading := false, rebuilding := false }).setBit Reg.POOL_EVENT 7
  else s

/-! ### POOL_CMD (R486, R494) -/

/-- A write of POOL_CMD: the operation acts as the host agent, whoever wrote it (R656). Reserved ops are refused. -/
def State.poolCmd (agent v : Nat) (s : State) : State :=
  let op := bits v 2 0
  let a := s.rd40 Reg.POOL_ADDR_LO
  if op = 0 ∨ 6 ≤ op then s.usageReg agent Reg.POOL_CMD
  else
    let done := fun (c : Nat) (s : State) => (s.wr Reg.POOL_CMD_STATUS (c * 16)).setBit Reg.POOL_EVENT 8
    if op = 1 then
      match s.alloc hostAgent hostAgent (bits v 15 8) .host with
      | (c, x, s) => done c (s.wr40 Reg.POOL_RESULT_LO (if c = 0 then x else 0))
    else
      match s.poolOp op hostAgent a (bits v 27 16) with
      | (c, s) => done c s

/-- POOLp_STATUS as it reads. -/
def State.viewPoolStatus (s : State) (p : Nat) : Nat :=
  let x := s.pool p
  x.level + b2n (s.poolOn p && decide (x.free = 0)) * 4 + b2n x.threading * 8 + b2n x.rebuilding * 16 + x.err * 256

/-! ### Meanings -/

def execAlloc (agent owner pool cls : Nat) (s : State) : Host.Outcome State Fault Refusal :=
  .next (s.alloc agent owner pool (if cls = 0 then .job else if cls = 1 then .ingress else .host)).2.2
def execFree (agent addr : Nat) (s : State) : Host.Outcome State Fault Refusal := .next (s.free agent addr)
def execRelease (agent addr : Nat) (s : State) : Host.Outcome State Fault Refusal := .next (s.release agent addr)
def execShare (agent addr : Nat) (s : State) : Host.Outcome State Fault Refusal := .next (s.share agent addr)
def execTransfer (agent addr owner : Nat) (s : State) : Host.Outcome State Fault Refusal :=
  .next (s.transfer agent addr owner)

/-- POOL_ENABLE: a write of POOLp_CFG with ENABLE 1 (R477); by the host it needs ARM (R100). -/
def execPoolEnable (agent pool value : Nat) (s : State) : Host.Outcome State Fault Refusal :=
  .next (if s.armBlocks agent (poolReg Reg.POOL_CFG pool) then s.usageReg agent (poolReg Reg.POOL_CFG pool)
    else s.setting (poolReg Reg.POOL_CFG pool) (State.poolCfgWrite agent pool (value ||| 0x100)))

/-- POOL_DISABLE: a write of POOLp_CFG with ENABLE 0 (R478). -/
def execPoolDisable (agent pool value : Nat) (s : State) : Host.Outcome State Fault Refusal :=
  .next (if s.armBlocks agent (poolReg Reg.POOL_CFG pool) then s.usageReg agent (poolReg Reg.POOL_CFG pool)
    else s.setting (poolReg Reg.POOL_CFG pool) (State.poolCfgWrite agent pool (putBits value 8 8 0)))

def execThreaded (pool : Nat) (s : State) : Host.Outcome State Fault Refusal := .next (threaded pool s)

end Sys2Proof.Machine
end

