-- ==== Sys2Proof/Machine/Trust.lean ====
section
/-! DEFINITION. Customs (02_startup_trust_config.md: R82 to R102, R105, R110): measurement, presence, the seal, quotes,
flash writes, and how an RMP message is authorised and answered (R353 to R358). -/

namespace Sys2Proof.Machine

/-! ### Measurement (R89 to R91) -/

/-- A measurement register. -/
def State.measReg (s : State) (i : Nat) : Nat := SMap.get (fun _ => 0) s.boot.meas i

/-- Extend a measurement register: it becomes the SHA-256 of itself followed by the digest (R89), and the log takes an
entry while it has room (R90). The event kind has no value in the manual and is a free value. -/
def State.measExtend (i d : Nat) (s : State) : State :=
  let k := s.draw
  let s := k.2
  let m := Config.sha256 (leBytes 32 (s.measReg i) ++ leBytes 32 d)
  let full := decide (256 ≤ s.boot.log.length)
  { s with boot := { s.boot with
      meas := SMap.set (fun _ => 0) s.boot.meas i m
      log := if full then s.boot.log else s.boot.log ++ [(i, k.1 % 256, d)]
      overflow := s.boot.overflow || full } }

/-- Extend with the digest of a record whose bytes the manual does not lay down: a free value (R89, MEAS5 and MEAS6). -/
def State.measEvent (i : Nat) (s : State) : State :=
  let d := s.draw
  d.2.measExtend i (d.1 % 2 ^ 256)

/-! ### Presence and the seal (R96 to R101) -/

/-- Milliseconds of the always-on count. -/
def msCounts (ms : Nat) : Nat := ms * 1600000

/-- Time passes until a count of the 1.6 GHz clock. -/
def State.passTo (c : Nat) (s : State) : State := { s with tide := { s.tide with count := max s.tide.count c } }

/-- The presence window is open for a command that arrives now: inclusive of 30,000 ms (R98). -/
def State.present (s : State) : Bool :=
  match s.boot.window with
  | some c => decide (s.tide.count ≤ c + msCounts 30000)
  | none => false

/-- ARM_CHANGE: the debounced jumper input changes; a window closes when ARM becomes 0 (R96, R97). -/
def armChange (armed : Bool) (s : State) : State :=
  if s.boot.arm = armed then s
  else
    { s with boot := { s.boot with arm := armed, window := if armed then s.boot.window else none } }.setBit Reg.CUS_EVENT 0

/-- A window may open: the button is not stuck, nor released from stuck for less than 1 s (R97). -/
def State.mayOpen (s : State) : Bool :=
  !s.boot.btnStuck && (match s.boot.btnFree with
    | some c => decide (c + msCounts 1000 ≤ s.tide.count)
    | none => true)

/-- PRESENT_PRESS: with ARM 1 the window opens, or restarts (R97). A press within 1 s of the release of a stuck button keeps the
button from having been released for 1 s. -/
def presentPress (s : State) : State :=
  { s with boot := { s.boot with
      btnHeld := true
      btnFree := if s.mayOpen then none else s.boot.btnFree
      window := if s.boot.arm && s.mayOpen then some s.tide.count else s.boot.window } }.setBit Reg.CUS_EVENT 1

/-- PRESENCE_WINDOW_EXPIRY: 30,000 ms have passed since the press (R97, R98). -/
def presenceWindowExpiry (s : State) : State :=
  match s.boot.window with
  | some c => { s.passTo (c + msCounts 30000 + 1) with boot := { s.boot with window := none } }
  | none => s

/-- BTN_STUCK: held for more than 10 s (R97). -/
def btnStuck (s : State) : State :=
  if s.boot.btnHeld then { s with boot := { s.boot with btnStuck := true, window := none } } else s

/-- BUTTON_RELEASE: after BTN_STUCK the second without a press counts from the latest release (R97). -/
def buttonRelease (s : State) : State :=
  { s with boot := { s.boot with
      btnHeld := false, btnStuck := false
      btnFree := if s.boot.btnStuck || s.boot.btnFree.isSome then some s.tide.count else none } }

/-- SEAL_BREAK: the loop reads open for 1 ms; it is sensed only while the module is powered (R101). -/
def sealBreak (s : State) : State :=
  if s.boot.loopOpen then s
  else if s.boot.phase = .unpowered then { s with boot := { s.boot with loopOpen := true } }
  else ({ s with boot := { s.boot with loopOpen := true, broken := true } }.measEvent 6).setBit Reg.CUS_EVENT 2

/-- SEAL_LOOP_CLOSE: the live bit returns to 0; BROKEN stays (R101). -/
def sealLoopClose (s : State) : State := { s with boot := { s.boot with loopOpen := false } }

/-! ### RMP (R353 to R358) -/

/-- Authority classes of R99. -/
inductive RmpClass where
  | monitor | operational | presence
  deriving DecidableEq, Repr

/-- RMP status codes (R357). -/
abbrev stOk : Nat := 0
abbrev stBadRequest : Nat := 1
abbrev stRateLimited : Nat := 3
abbrev stArmRequired : Nat := 4
abbrev stPresenceRequired : Nat := 5
abbrev stBusy : Nat := 6
abbrev stSlotInUse : Nat := 7
abbrev stSealOpen : Nat := 8
abbrev stRefused : Nat := 11

/-- A message can arrive this way: the service port once customs runs, the mailbox outside RECOVERY, the management port
and the network ports from step 7 on, the management port only with MGMT_EN (R77, R81, R354). -/
def State.rmpReach (s : State) (q : Req) : Bool :=
  match s.boot.phase with
  | .unpowered => false
  | .railRetry => false
  | .resetHeld => false
  | .recovery => q.via == .service
  | _ =>
    match q.via with
    | .service => true
    | .mailbox => true
    | .mgmt => decide (7 ≤ s.bootStep) && s.bit Reg.NET_RMP_CFG 16
    | .net => decide (7 ≤ s.bootStep)

/-- Key of a source address and port. -/
def reqKey (q : Req) : Nat :=
  4 * q.addr + (match q.via with
    | .service => 0
    | .mailbox => 1
    | .mgmt => 2
    | .net => 3)

/-- Code of CUSTOMS_LOST (R583). -/
abbrev customsLostCode : Nat := 0x6120

/-- The status that refuses a command of a class, or none (R81, R98, R99, R602, R603; assumption 10). -/
def State.unauthorised (s : State) (c : RmpClass) (cmd : Nat) : Option Nat :=
  if s.boot.phase = .recovery ∧ c ≠ .monitor ∧ !(0x20 ≤ cmd ∧ cmd ≤ 0x22) then some stRefused
  else
    match c with
    | .monitor => none
    | .operational =>
      if !s.boot.arm then some stArmRequired else if s.watch.safe then some stRefused else none
    | .presence =>
      if s.watch.safe ∧ s.watch.cause = some customsLostCode then some stRefused
      else if !s.boot.arm then some stArmRequired
      else if !s.present then some stPresenceRequired
      else none

/-- Keep a response and send it, unless NO_REPLY (R354, R355). -/
def State.rmpReply (q : Req) (cmd st : Nat) (body : List Nat) (s : State) : State :=
  let r : RmpResp := { seq := q.seq, command := cmd, status := st, body }
  let kept := SMap.get (fun _ => []) s.rmpKept (reqKey q)
  let s := { s with rmpKept := SMap.set (fun _ => []) s.rmpKept (reqKey q) ((r :: kept).take 16) }
  s.whenB (!q.noReply) (State.emit (.rmp (reqKey q) q.seq cmd st body))

/-- Carry out an RMP request: a repeat gets its kept response; a refused one its status; else the command runs, and an
accepted presence-class command is measured (R89, R355, R99). Which commands count as accepted the manual does not say: the model
takes those answered OK (DESIGN CHOICE, assumption 56). Answers whether it ran with status OK. -/
def State.rmp (q : Req) (cmd : Nat) (c : RmpClass) (f : State → Nat × List Nat × State) (s : State) : Bool × State :=
  if !s.rmpReach q then (false, s)
  else
    match (SMap.get (fun _ => []) s.rmpKept (reqKey q)).find? (fun r => r.seq = q.seq && r.command = cmd) with
    | some r => (false, s.whenB (!q.noReply) (State.emit (.rmp (reqKey q) q.seq cmd r.status r.body)))
    | none =>
      match s.unauthorised c cmd with
      | some st =>
        let s := s.setBit Reg.CUS_EVENT 4
        let s := s.whenB (q.via == .net || q.via == .mgmt) (State.setBit Reg.NET_EVENT 14)
        (false, s.rmpReply q cmd st [])
      | none =>
        let r := f s
        let ok := decide (r.1 = stOk)
        let s := r.2.2.whenB (ok && c == .presence) (State.measEvent 5)
        (ok, s.rmpReply q cmd r.1 r.2.1)

/-- The state after an RMP request. -/
def State.rmpRun (q : Req) (cmd : Nat) (c : RmpClass) (f : State → Nat × List Nat × State) (s : State) : State :=
  (s.rmp q cmd c f).2

/-- Byte i of a body. -/
def byteAt (l : List Nat) (i : Nat) : Nat := l.getD i 0 % 256

/-- A little-endian field of a body. -/
def bodyN (l : List Nat) (i n : Nat) : Nat := leNat ((List.range n).map (fun k => byteAt l (i + k)))

/-! ### Quotes, certificates and the log (R92 to R95) -/

/-- FLAGS of a quote (R93). -/
def State.quoteFlags (s : State) : Nat :=
  b2n s.boot.broken + b2n s.boot.arm * 2 + b2n s.watch.safe * 4 + b2n s.boot.factoryOnly * 8
    + b2n ((List.range 8).any (fun i => s.bit (ucb (0x60 + i) Reg.PL_UCW_STATUS) 0)) * 16
    + b2n (s.watch.active.any (fun e => e.code / 4096 = 5)) * 32 + b2n s.boot.overflow * 64
    + b2n (s.boot.phase == .recovery) * 128

/-- The fuse state bytes 368 to 373 of a quote (R93). -/
def State.fuseBytes (s : State) : List Nat :=
  let svn := match s.boot.runImg with
    | some i => i.svn
    | none => 0
  let root := match s.boot.runImg with
    | some i => i.root
    | none => 0
  [s.ident.bootArc, svn, root, s.ident.rootRevoked, s.ident.lifecycle, if s.ident.debugLock then 0xA5 else 0]

/-- Bytes 0 to 415 of a quote (R93). -/
def State.quoteBody (s : State) (nonce : List Nat) : List Nat :=
  [0x46, 0x41, 0x54, 0x51] ++ leBytes 2 1 ++ leBytes 2 480 ++ leBytes 2 (s.rd Reg.NET_NODE) ++ leBytes 2 s.quoteFlags
    ++ leBytes 4 0 ++ s.ident.serial ++ (nonce ++ List.replicate (32 - nonce.length) 0)
    ++ leBytes 6 (if s.running then s.tideNum else 0) ++ leBytes 2 0 ++ leBytes 4 s.boot.qseq ++ leBytes 4 0
    ++ (List.range 8).flatMap (fun i => leBytes 32 (s.measReg i))
    ++ (if s.boot.factoryOnly then List.replicate 32 255 else leBytes 32 s.boot.etvorHash)
    ++ s.fuseBytes ++ List.replicate 10 0 ++ leBytes 32 (Config.attestKey (s.measReg 1))

/-- A quote: the body, then r and s as 32-byte big-endian integers (R93, R94). -/
def State.quote (s : State) (nonce : List Nat) : List Nat :=
  let b := s.quoteBody nonce
  let g := Config.sign (Config.sha256 b)
  b ++ (leBytes 32 g.1).reverse ++ (leBytes 32 g.2).reverse

/-- QUOTE: at most 16 in any window of 1,000 ms; a nonce longer than 32 bytes is refused (R94, R95). -/
def quoteCmd (nonce : List Nat) (s : State) : Nat × List Nat × State :=
  let recent := s.boot.quotes.filter (fun c => decide (s.tide.count < c + msCounts 1000))
  if 32 < nonce.length then (stBadRequest, [], s)
  else if 16 ≤ recent.length then (stRateLimited, [], s.setBit Reg.CUS_EVENT 3)
  else
    let s := { s with boot := { s.boot with quotes := s.tide.count :: recent, qseq := (s.boot.qseq + 1) % two32 } }
    (stOk, s.quote nonce, s)

/-- CERT_READ: the identity or attestation certificate from a byte offset on, as much as a response holds (R92, R356). -/
def certRead (body : List Nat) (s : State) : Nat × List Nat × State :=
  if body.length ≠ 5 ∨ 1 < byteAt body 0 then (stBadRequest, [], s)
  else
    let cert := if byteAt body 0 = 0 then s.ident.certs.headD [] else Config.attestCert (s.measReg 1)
    (stOk, (cert.drop (bodyN body 1 4)).take 1400, s)

/-- LOG_READ: one measurement log entry: register, kind, digest (R90, R356). -/
def logRead (body : List Nat) (s : State) : Nat × List Nat × State :=
  if body.length ≠ 1 then (stBadRequest, [], s)
  else
    match s.boot.log[byteAt body 0]? with
    | some e => (stOk, e.1 :: e.2.1 :: leBytes 32 e.2.2, s)
    | none => (stBadRequest, [], s)

/-! ### SEAL_CLEAR, FW_COMMIT (R101, R84) -/

def sealClear (body : List Nat) (s : State) : Nat × List Nat × State :=
  if body ≠ [] then (stBadRequest, [], s)
  else if s.boot.loopOpen then (stSealOpen, [], s)
  else if s.boot.broken then (stOk, [], { s with boot := { s.boot with broken := false } }.measEvent 6)
  else (stOk, [], s)

/-- FW_COMMIT: fuses are blown until BOOT_ARC equals the running image's security version (R84). -/
def fwCommit (body : List Nat) (s : State) : Nat × List Nat × State :=
  if body ≠ [] then (stBadRequest, [], s)
  else
    let svn := match s.boot.runImg with
      | some i => i.svn
      | none => 0
    let s := { s with ident := { s.ident with bootArc := max s.ident.bootArc svn } }
    (stOk, [s.ident.bootArc, 0, 0, 0], s)

/-! ### Flash (R86, R87, R102, R105, R110) -/

/-- A byte of an Etvor slot: flash past the bytes written reads erased. -/
def flashByte (img : List Nat) (i : Nat) : Nat := img.getD i 255 % 256

/-- A little-endian field of an image. -/
def flashN (img : List Nat) (i n : Nat) : Nat := leNat ((List.range n).map (fun k => flashByte img (i + k)))

/-- A record of an Etvor image: TYPE and value (R103). -/
structure EtvorRec where
  type : Nat
  value : List Nat
  deriving DecidableEq, Repr

/-- SKIPPABLE flag, and the type without it. -/
def EtvorRec.skippable (r : EtvorRec) : Bool := r.type.testBit 15
def EtvorRec.kind (r : EtvorRec) : Nat := r.type % 32768

/-- Types the manual defines (R103). -/
def knownType (t : Nat) : Bool := [1, 2, 3, 0x10, 0x20, 0x30].contains t

/-- The records from offset `o` on, `n` of them, none past `lim` (the CRC); the offset where they end. -/
def etvorRecs (img : List Nat) (lim : Nat) : Nat → Nat → List EtvorRec × Nat
  | _, 0 => ([], lim)
  | o, n + 1 =>
    let v := flashN img (o + 2) 2
    let e := o + (4 + v + 3) / 4 * 4
    if lim < o + 4 ∨ lim < e then ([], lim + 1)
    else
      let r : EtvorRec := { type := flashN img o 2, value := (List.range v).map (fun k => flashByte img (o + 4 + k)) }
      let rest := etvorRecs img lim e n
      (r :: rest.1, if n = 0 then e else rest.2)

/-- LENGTH of an image, and where its CRC lies. -/
def etvorLen (img : List Nat) : Nat := flashN img 8 4
def etvorGen (img : List Nat) : Nat := flashN img 12 4
def etvorRecords (img : List Nat) : List EtvorRec × Nat :=
  let n := flashN img 16 2
  if n = 0 then ([], 32) else etvorRecs img (etvorLen img - 4) 32 n

/-- The check of an Etvor slot: 0 valid, or the first code of R105; `none` for a slot that is not present. -/
def etvorCheck (fw : Nat) : Option (List Nat) → Nat
  | none => 9
  | some img =>
    let len := etvorLen img
    if etvorGen img = 0xFFFFFFFF then 1
    else if flashN img 0 4 ≠ 0x52565445 ∨ flashN img 4 2 ≠ 1 ∨ flashN img 6 2 ≠ 32 then 2
    else if len < 36 ∨ 16777216 < len ∨ len % 4 ≠ 0 then 3
    else if crc32c ((List.range (len - 4)).map (flashByte img)) ≠ flashN img (len - 4) 4 then 4
    else if flashN img 18 2 ≠ 0 then 5
    else if (etvorRecords img).1.any (fun r => !knownType r.kind && !r.skippable) then 6
    else if (etvorRecords img).2 ≠ len - 4 then 7
    else if fw < flashN img 20 4 then 8
    else 0

/-- Version of the running boot image. -/
def State.fwVersion (s : State) : Nat :=
  match s.boot.runImg with
  | some i => i.version
  | none => 0

/-- Does the module have on-module flash (F variants, R3)? -/
def State.onModule (s : State) : Bool := s.ident.variant.testBit 2

/-- Key of a boot slot and of an Etvor slot: 0, 1 on-module; 2, 3 carrier. -/
def State.bootKey (s : State) (slot : Nat) : Nat := slot + 2 * b2n s.boot.bootCarrier
def State.etvorKey (s : State) (slot : Nat) : Nat := slot + 2 * b2n s.boot.etvorCarrier

/-- The flash that holds the boot slots, and the one that holds the Etvor slots, is present (R4, R641). -/
def State.bootFlash (s : State) : Bool := if s.boot.bootCarrier then !s.boot.noCarrier else s.onModule
def State.etvorFlash (s : State) : Bool := if s.boot.etvorCarrier then !s.boot.noCarrier else s.onModule

/-- An Etvor slot's bytes; none where the slot is not present. -/
def State.etvorSlotOf (s : State) (slot : Nat) : Option (List Nat) :=
  if !s.etvorFlash then none
  else some (SMap.get (fun _ => []) s.boot.etvors (s.etvorKey slot))

/-- Store a boot slot or an Etvor slot; erased as none or no bytes. -/
def State.putBoot (slot : Nat) (x : Option BootImg) (s : State) : State :=
  { s with boot := { s.boot with boots := SMap.set (fun _ => none) s.boot.boots (s.bootKey slot) x } }
def State.putEtvor (slot : Nat) (x : List Nat) (s : State) : State :=
  { s with boot := { s.boot with etvors := SMap.set (fun _ => []) s.boot.etvors (s.etvorKey slot) x } }

/-- Erase the slot of a flash write: slots 0, 1 boot, 2, 3 Etvor. -/
def State.eraseSlot (k : Nat) (s : State) : State := if k < 2 then s.putBoot k none else s.putEtvor (k - 2) []

/-- A slot in use: the boot slot or Etvor slot now running (R110). -/
def State.slotInUse (s : State) (kind slot : Nat) : Bool :=
  if kind = 0 then s.boot.runImg.isSome && decide (s.boot.runSlot = slot) else decide (s.boot.etvorSlot = slot)

/-- FLASH_OPEN (R110, R358); in RECOVERY a boot slot only (R81). The slot reads erased from then on (assumption 11). -/
def flashOpen (b : List Nat) (s : State) : Nat × List Nat × State :=
  let kind := byteAt b 0
  let slot := byteAt b 1
  let len := bodyN b 4 4
  if b.length ≠ 8 ∨ 1 < kind ∨ 1 < slot ∨ bodyN b 2 2 ≠ 0 ∨ len % 4 ≠ 0 ∨ len < (if kind = 1 then 36 else 4)
      ∨ 16777216 < len then (stBadRequest, [], s)
  else if s.boot.phase = .recovery ∧ kind = 1 then (stRefused, [], s)
  else if s.boot.flash.isSome then (stBusy, [], s)
  else if s.slotInUse kind slot then (stSlotInUse, [], s)
  else
    let s := s.eraseSlot (2 * kind + slot)
    (stOk, [], { s with boot := { s.boot with flash := some { slot := 2 * kind + slot, length := len, data := [] } } })

/-- FLASH_WRITE: the next bytes, in order (R358). -/
def flashWrite (b : List Nat) (s : State) : Nat × List Nat × State :=
  match s.boot.flash with
  | none => (stBadRequest, [], s)
  | some w =>
    let d := b.drop 8
    let ofs := bodyN b 0 4
    if b.length < 9 ∨ 1032 < b.length ∨ bodyN b 4 4 ≠ 0 ∨ ofs ≠ w.data.length ∨ w.length < ofs + d.length
        ∨ (d.length % 4 ≠ 0 ∧ ofs + d.length ≠ w.length) then (stBadRequest, [], s)
    else (stOk, [], { s with boot := { s.boot with flash := some { w with data := w.data ++ d } } })

/-- The result of reading back a boot image (R82, R358). -/
def State.bootCheck (s : State) (img : Option BootImg) (short : Bool) : Nat :=
  if short then 4
  else
    match img with
    | none => 1
    | some i =>
      if !i.sigOk then 1 else if s.ident.rootRevoked.testBit i.root then 2 else if i.svn < s.ident.bootArc then 3 else 0

/-- FLASH_CLOSE: the slot is read back and checked; one that fails is left erased (R110, R358). The result of an Etvor write shorter
than LENGTH whose bytes pass R105 is 0, and FLASH_DONE is set at every close of an open write (DESIGN CHOICES, assumption 58). -/
def flashClose (b : List Nat) (s : State) : Nat × List Nat × State :=
  if b ≠ [] then (stBadRequest, [], s)
  else
    match s.boot.flash with
    | none => (stBadRequest, [], s)
    | some w =>
      let short := decide (w.data.length < w.length)
      let img := if s.bootFlash then Config.bootImage w.data else none
      let r := if w.slot < 2 then s.bootCheck img short
        else etvorCheck s.fwVersion ((s.etvorSlotOf (w.slot - 2)).map (fun _ => w.data))
      let s := { s with boot := { s.boot with flash := none } }
      let s := if r = 0 && !short then (if w.slot < 2 then s.putBoot w.slot img else s.putEtvor (w.slot - 2) w.data)
        else s.eraseSlot w.slot
      (stOk, [r, 0, 0, 0], s.setBit Reg.CUS_EVENT 5)

/-- FLASH_WRITE_TIMEOUT: abandoned after 60 s without a command; the slot is erased (R110). -/
def flashWriteTimeout (s : State) : State :=
  match s.boot.flash with
  | some w => { s.eraseSlot w.slot with boot := { (s.eraseSlot w.slot).boot with flash := none } }
  | none => s

/-! ### Views (R113) -/

def State.viewFuses (s : State) : Nat :=
  let root := match s.boot.runImg with
    | some i => i.root
    | none => 0
  s.ident.bootArc % 64 + root % 4 * 256 + s.ident.rootRevoked % 16 * 4096 + s.ident.lifecycle % 256 * 65536
    + b2n s.ident.debugLock * 2 ^ 24

def State.viewPresence (s : State) : Nat :=
  let left := match s.boot.window with
    | some c => (c + msCounts 30000 - s.tide.count) / msCounts 1000
    | none => 0
  b2n s.boot.arm + b2n s.boot.window.isSome * 2 + b2n s.boot.btnStuck * 4 + left * 256

def State.viewSeal (s : State) : Nat := b2n s.boot.loopOpen + b2n s.boot.broken * 2

/-- Word w of a 256-bit digest. -/
def digestWord (d w : Nat) : Nat := d / 2 ^ (32 * w) % two32

def State.viewLogCount (s : State) : Nat := s.boot.log.length + b2n s.boot.overflow * 2 ^ 31

def State.logEntry (s : State) : Nat × Nat × Nat := (s.boot.log[s.fld Reg.CUS_LOG_INDEX 7 0]?).getD (0, 0, 0)

/-! ### Meanings -/

def execArmChange (armed : Bool) (s : State) : Host.Outcome State Fault Refusal := .next (armChange armed s)
def execPresentPress (s : State) : Host.Outcome State Fault Refusal := .next (presentPress s)
def execPresenceWindowExpiry (s : State) : Host.Outcome State Fault Refusal := .next (presenceWindowExpiry s)
def execBtnStuck (s : State) : Host.Outcome State Fault Refusal := .next (btnStuck s)
def execButtonRelease (s : State) : Host.Outcome State Fault Refusal := .next (buttonRelease s)
def execSealBreak (s : State) : Host.Outcome State Fault Refusal := .next (sealBreak s)
def execSealLoopClose (s : State) : Host.Outcome State Fault Refusal := .next (sealLoopClose s)
def execCertRead (req : Req) (body : List Nat) (s : State) : Host.Outcome State Fault Refusal :=
  .next (s.rmpRun req 3 .monitor (certRead body))
def execQuote (req : Req) (body : List Nat) (s : State) : Host.Outcome State Fault Refusal :=
  .next (s.rmpRun req 4 .monitor (quoteCmd body))
def execLogRead (req : Req) (body : List Nat) (s : State) : Host.Outcome State Fault Refusal :=
  .next (s.rmpRun req 5 .monitor (logRead body))
def execSealClear (req : Req) (body : List Nat) (s : State) : Host.Outcome State Fault Refusal :=
  .next (s.rmpRun req 0x28 .presence (sealClear body))
def execFwCommit (req : Req) (body : List Nat) (s : State) : Host.Outcome State Fault Refusal :=
  .next (s.rmpRun req 0x23 .presence (fwCommit body))
def execFlashOpen (req : Req) (body : List Nat) (s : State) : Host.Outcome State Fault Refusal :=
  .next (s.rmpRun req 0x20 .presence (flashOpen body))
def execFlashWrite (req : Req) (body : List Nat) (s : State) : Host.Outcome State Fault Refusal :=
  .next (s.rmpRun req 0x21 .presence (flashWrite body))
def execFlashWriteTimeout (s : State) : Host.Outcome State Fault Refusal := .next (flashWriteTimeout s)

end Sys2Proof.Machine
end

