-- ==== Sys2Proof/Machine/Units.lean ====
section
/-! DEFINITION. Units, groups and berths (01_harbour_layout.md: R40 to R64): engine states, the checks of a group,
bindings, spares, and quay-type FIFOs (R69 to R76). -/

namespace Sys2Proof.Machine

/-! ### Kinds -/

/-- SPARE_OK of a kind (R43). -/
def Kind.spareOk : Kind → Bool
  | .gantry | .tally | .pilot | .lane => true
  | .barge | .skiff | .egress | .group => false

/-- GROUP_OK of a kind (R43). -/
def Kind.groupOk : Kind → Bool
  | .egress => false
  | _ => true

/-- Control store size in Ki words (R43, R521). -/
def Kind.csKiw : Kind → Nat
  | .gantry => 16
  | .tally => 8
  | .pilot => 32
  | .lane => 16
  | .barge | .skiff | .egress | .group => 0

/-- Units that are never power-gated (R435): egress engines and lighter channels. -/
def neverGated (u : Nat) : Bool :=
  match unitKind u with
  | some .egress | some .barge | some .skiff => true
  | _ => false

/-- All leaf units with a UCB, in ascending ID. -/
def leafUnits : List Nat :=
  List.range 0x30 ++ (List.range 24).map (0x40 + ·) ++ (List.range 8).map (0x60 + ·) ++ (List.range 8).map (0x70 + ·)
    ++ (List.range 48).map (0x90 + ·) ++ (List.range 16).map (0xC0 + ·) ++ (List.range 8).map (0xE0 + ·)

/-- Leaf units of one kind. -/
def unitsOf (k : Kind) : List Nat := leafUnits.filter (fun u => unitKind u == some k)

/-- The unit that holds the berth a unit ID names: the spare that stands for a unit while that unit is FENCED, or while the
spare holds its berth (R47, R590); the unit itself otherwise. -/
def State.holder (s : State) (b : Nat) : Nat :=
  match s.units.find? (fun p => p.2.standsFor == some b && (p.2.berth != .free || (s.unit b).eng == .fenced)) with
  | some p => p.1
  | none => b

/-! ### Fields of a unit -/

def State.eng (s : State) (u : Nat) : Eng := (s.unit u).eng
def State.setUnitF (u : Nat) (f : UnitSt → UnitSt) (s : State) : State := s.setUnit u (f (s.unit u))

/-- Raise a UCB_IRQ_STATUS bit: 0 STOPPED, 1 FAULT, 2 CFG, 3 SPARE_TAKEN (R53). -/
def State.unitIrq (u b : Nat) (s : State) : State := s.setBit (ucb u Reg.UCB_IRQ_STATUS) b

/-- State of a scratchpad bank: 0 OFF, 1 RETENTION, 2 ON (R438). -/
def State.bankSt (s : State) (g i : Nat) : Nat := SMap.get (fun _ => 0) s.power.banks (g * 64 + i)
/-- A bank goes to a state; one that goes OFF loses its contents (R438, R439). -/
def State.setBankSt (g i v : Nat) (s : State) : State :=
  { s with
    power := { s.power with banks := SMap.set (fun _ => 0) s.power.banks (g * 64 + i) v }
    spad := if v = 0 then s.spad.filter (fun (p : Nat × Nat) => p.1 / 65536 != g * 64 + i) else s.spad }
/-- Offset of PWR_SPADg_CTRL. -/
def spadCtrl (g : Nat) : Nat := Reg.PWR_SPAD_CTRL + 4 * g
/-- The banks of a gantry that power-gates: the first KEEP to RETENTION, the others OFF, all ON with FORCE_ON (R438). -/
def State.spadGate (g : Nat) (s : State) : State :=
  if 48 ≤ g ∨ s.bit (spadCtrl g) 8 then s
  else s.each (List.range 64) (fun i s =>
    if i < s.fld (spadCtrl g) 6 0 && s.bankSt g i != 0 then s.setBankSt g i 1 else s.setBankSt g i 0)
/-- START declares NEED, a count the manual leaves to the microcode (R438; assumption 3): the banks below it ON, the others
OFF. -/
def State.spadNeed (g : Nat) (s : State) : State :=
  if 48 ≤ g then s
  else
    let r := s.draw
    let n := r.1 % 65
    let s := r.2.wrFld (spadCtrl g) 22 16 n
    if s.bit (spadCtrl g) 8 then s else s.each (List.range 64) (fun i s => s.setBankSt g i (if i < n then 2 else 0))

/-- A unit enters an engine state; STOPPED, SPARE and FENCED with the berth FREE gate its power, and its internal state is
lost (R435, R436) but for the number UCB_ROUTINE_STATUS shows (R51). A unit fenced stays power-gated whatever it held (R588). -/
def State.setEng (u : Nat) (e : Eng) (s : State) : State :=
  let x := s.unit u
  let gate := !neverGated u && (e == .fenced || (s.watch.safe && e != .running) || ((e == .stopped || e == .spare) && x.berth == .free))
    && !(s.bit (Reg.PWR_UNIT_CTRL + 4 * u) 0 && e != .fenced)
  let s := s.whenB gate (State.spadGate u)
  s.setUnit u { x with
    eng := e
    pow := if gate then .powerGated else if neverGated u then .on else x.pow
    micro := if gate then { Micro.reset with routine := x.micro.routine } else x.micro
    reEnable := if e == .stopped || e == .fenced then false else x.reEnable }

/-- A refused write of UCB_CTRL or UCB_GRP_CTRL: CFG_ERROR and the CFG event (R46, R53). -/
def State.cfgRefuse (u c : Nat) (s : State) : State := (s.setUnitF u (fun x => { x with cfgErr := c })).unitIrq u 2

/-- An accepted write clears CFG_ERROR (R46). -/
def State.cfgAccept (u : Nat) (s : State) : State := s.setUnitF u (fun x => { x with cfgErr := 0 })

/-! ### Groups (R54 to R61) -/

/-- Leaf units of a berth: those a group contains, at any depth; a leaf unit contains itself. -/
def State.leafList (s : State) (u : Nat) : List Nat :=
  (s.unitsIn u).filter (fun m => (unitKind m).isSome && unitKind m != some .group)

/-- Depth of a group (R56); a group met again below itself adds nothing. -/
def State.depth (s : State) : Nat → List Nat → Nat → Nat
  | 0, _, _ => 0
  | fuel + 1, above, u =>
    if unitKind u == some .group && !above.contains u then
      1 + ((s.members u).map (fun m => s.depth fuel (u :: above) m)).foldl max 0
    else 0

/-- SPLIT of a group. -/
def State.split (s : State) (g : Nat) : Nat := s.fld (ucb g Reg.UCB_GRP_CTRL) 13 12
def State.grpCount (s : State) (g : Nat) : Nat := s.fld (ucb g Reg.UCB_GRP_CTRL) 8 0

/-- Some value stands twice in a list. -/
def hasDup : List Nat → Bool
  | [] => false
  | x :: xs => xs.contains x || hasDup xs

/-- The first failing check of a group's enable, in the order 6, 1, 2, 3, 4, 5; 0 when all pass (R45, R54, R55, R264). -/
def State.groupCheck (s : State) (g : Nat) : Nat :=
  let n := s.grpCount g
  let ms := s.members g
  let lt := s.leafOf g
  if n < 2 ∨ 256 < n ∨ (s.split g = 3 ∧ lt ≠ some .pilot) ∨ (lt = some .pilot ∧ s.split g ≠ 3) then 6
  else if ms.any (fun m => match unitKind m with
      | none => true
      | some k => !k.groupOk) then 1
  else if ms.any (fun m => (s.leafOf m).isNone || s.leafOf m != s.leafOf (ms.headD 0)) then 2
  else if hasDup ms ∨ ms.any (fun m => (match (s.unit m).parent with
      | some p => p != g
      | none => false) || (s.unit m).berth != .free) then 3
  else if ms.any (fun m => s.eng m == .spare || s.eng m == .fenced) then 4
  else if s.inGroup g g then 5
  else 0

/-- While a group is enabled its members name it as their parent (R58). -/
def State.adopt (g : Nat) (s : State) : State :=
  s.each (s.members g) (fun m s => s.setUnitF m (fun x => { x with parent := some g }))

/-- Dissolution: the members' parents return to 0 (R59). -/
def State.dissolve (g : Nat) (s : State) : State :=
  s.each (s.units.filter (fun p => p.2.parent == some g))
    (fun p s => s.setUnitF p.1 (fun x => { x with parent := none }))

/-- A group is enabled, for R58: its engine is in no stopped state. -/
def State.groupOn (s : State) (g : Nat) : Bool := s.eng g != .stopped

/-- A write of UCB_GRP_CTRL (R42, R55, R58, R59). -/
def State.grpCtrlWrite (u v : Nat) (s : State) : State :=
  if unitKind u != some .group then s
  else if s.groupOn u then s.cfgRefuse u 3
  else
    let s := s.whenB (decide (bits v 8 0 = 0)) (State.dissolve u)
    (s.wr (ucb u Reg.UCB_GRP_CTRL) (Nat.land v 0x31FF)).cfgAccept u

/-- A write of UCB_GRP_MEMBERn (R42, R58). -/
def State.grpMemberWrite (u i v : Nat) (s : State) : State :=
  if unitKind u != some .group then s
  else if s.groupOn u then s.cfgRefuse u 3
  else s.wr (ucb u (Reg.UCB_GRP_MEMBER + 4 * i)) (v % 4096)

/-! ### Spares (R589, R599) -/

/-- Units of a kind in SPARE, in ascending ID. -/
def State.spares (s : State) (k : Kind) : List Nat := (unitsOf k).filter (fun u => s.eng u == .spare)

/-- Kinds that may have spares. -/
def spareKinds : List Kind := [.gantry, .tally, .pilot, .lane]

/-- A unit of a kind is booked, by itself or inside a booked group. -/
def State.kindBooked (s : State) (k : Kind) : Bool :=
  s.units.any (fun p => (p.2.berth == .reserved || p.2.berth == .bound) && s.leafOf p.1 == some k)

/-- The NO_SPARE conditions of every type (R599). -/
def State.spareConds (s : State) : State :=
  s.each spareKinds (fun k s => s.cond (s.kindBooked k && (s.spares k).isEmpty) (0x5020 + 256 * k.nibble) noAgent)

/-- WATCH_EVENT.SPARE_LOW when a type's spares fell to 0 since `old` (R608); and the conditions of R599. -/
def State.afterSpares (s old : State) : State :=
  let s := s.each spareKinds (fun k q =>
    q.whenB (!(old.spares k).isEmpty && (s.spares k).isEmpty) (State.setBit Reg.WATCH_EVENT 7))
  s.spareConds

/-! ### Stops (R47 to R49) -/

/-- A stop has completed: STOPPED, the event, and IDLE again when an ENABLE was recorded (R47, R49). -/
def State.stopDone (u : Nat) (s : State) : State :=
  let re := (s.unit u).reEnable
  let s := (s.setEng u .stopped).unitIrq u 0
  if re then s.setEng u .idle else (s.clrBit (ucb u Reg.UCB_CTRL) 0)

/-! ### Berths (R62 to R64) -/

/-- UCB_BERTH (R64); a RELEASING berth shows the context that left last until it is FREE (R62). Pilot and lane berths read bit 17; a gantry, tally or egress berth its one context. -/
def State.viewBerth (s : State) (u : Nat) : Nat :=
  let x := s.unit u
  if x.berth == .bound || x.berth == .releasing then
    match s.leafOf u with
    | some .pilot | some .lane => 2 ^ 17
    | _ =>
      match x.ctxs with
      | [] => 0
      | [c] => c + 65536
      | _ => 2 ^ 17
  else 0

/-- A context gets a place on a berth: FREE becomes RESERVED; the context joins at the next tide start (R62, R408). -/
def State.reserve (u c : Nat) (s : State) : State :=
  s.setUnitF u (fun x => { x with
    berth := if x.berth == .free then .reserved else x.berth
    joining := if c ∈ x.joining ∨ c ∈ x.ctxs then x.joining else x.joining ++ [c] })

/-- A tide start binds what was reserved (R62). -/
def State.bind (u : Nat) (s : State) : State :=
  s.setUnitF u (fun x =>
    if x.joining = [] then x
    else { x with berth := .bound, ctxs := x.ctxs ++ x.joining, joining := [] })

/-- A unit runs a job of a stream its berth has released (R62). -/
def UnitSt.runsReleased (x : UnitSt) : Bool :=
  match x.job with
  | some j => x.released.contains j.ctx
  | none => false

/-- RELEASING ends with the released streams’ jobs: the unit reports STOPPED for one cycle, the berth is FREE, and the unit is IDLE
again, or RUNNING on with a job of no released stream (R47, R62; assumption 53). -/
def State.releaseDone (u : Nat) (s : State) : State :=
  if (s.unit u).berth == .releasing && !(s.unit u).runsReleased then
    let s := (s.setUnitF u (fun x => { x with berth := .free, ctxs := [], released := [] }))
    match s.eng u with
    | .idle => s.unitIrq u 0
    | .running => (if (s.unit u).job.isNone then s.setEng u .idle else s).unitIrq u 0
    | .stopped => s.setEng u .stopped
    | .fenced => s.setEng u .fenced
    | _ => s
  else s

/-- A context leaves a berth at a tide start: the last leaves it RELEASING, or FREE from RESERVED (R62, R408). -/
def State.unbind (u c : Nat) (s : State) : State :=
  let x := s.unit u
  let cs := x.ctxs.filter (fun d => d != c)
  let js := x.joining.filter (fun d => d != c)
  let b := match x.berth with
    | .reserved => if js = [] then Berth.free else .reserved
    | .bound => if cs = [] ∧ js = [] then .releasing else .bound
    | b => b
  (s.setUnit u { x with
    berth := b, ctxs := if b == .releasing then x.ctxs else cs, joining := js, released := if x.ctxs.contains c then c :: x.released else x.released }).releaseDone u

/-- May a unit take a booking? (R63) -/
def State.bookable (s : State) (u : Nat) : Bool :=
  let x := s.unit u
  x.parent.isNone && x.eng != .spare && x.eng != .fenced &&
    (x.berth == .reserved || x.berth == .bound || x.eng == .idle
      || (x.eng == .stopped && s.bit (ucb u Reg.UCB_CTRL) 0))

/-! ### Quay-type FIFOs (R69 to R76) -/

/-- ABOVE_HIGH after the occupancy goes from one value to another: set where it crosses HIGH upwards, cleared where it crosses LOW
downwards (R75, R76). -/
def aboveHigh (wm old new : Nat) (flag : Bool) : Bool :=
  if old < bits wm 15 0 ∧ bits wm 15 0 ≤ new then true
  else if bits wm 31 16 < old ∧ new ≤ bits wm 31 16 then false
  else flag

/-- A status word with a new occupancy, `unread` entries and a depth; UNDERRUN and OVERRUN keep their value (R74). -/
def fifoStatus (old wm depth occ unread : Nat) : Nat :=
  let ah := aboveHigh wm (bits old 15 0) occ (old.testBit 18)
  occ + b2n (decide (unread = 0)) * 65536 + b2n (decide (occ = depth)) * 2 ^ 17 + b2n ah * 2 ^ 18
    + bits old 20 19 * 2 ^ 19

/-- A watermark word that is refused: LOW ≥ HIGH or HIGH > DEPTH (R75). -/
def wmRefused (v depth : Nat) : Bool := decide (bits v 15 0 ≤ bits v 31 16) || decide (depth < bits v 15 0)

/-- A write of a watermark word: R75, R76. -/
def State.wmWrite (agent o depth v : Nat) (s : State) : State :=
  if wmRefused v depth then s.usageReg agent o else s.wr o v

/-! ### Views (R43, R45, R57, R42) -/

def State.viewUnitId (_s : State) (u : Nat) : Nat :=
  match unitKind u with
  | some k => unitIndex u * 65536 + k.code * 4096 + u
  | none => 0

def State.viewCaps (s : State) (u : Nat) : Nat :=
  match unitKind u with
  | none => 0
  | some k =>
    let lt := match s.leafOf u with
      | some k => k.code
      | none => 15
    lt * 65536 + k.csKiw * 256 + b2n k.spareOk * 4 + b2n k.groupOk * 2 + b2n (k == .gantry || k == .tally)

def Eng.code : Eng → Nat
  | .stopped => 0 | .idle => 1 | .running => 2 | .quiescing => 3 | .halting => 4 | .fenced => 5 | .spare => 6

def Berth.code : Berth → Nat
  | .free => 0 | .reserved => 1 | .bound => 2 | .releasing => 3

def Pow.code : Pow → Nat
  | .on => 0 | .clockGated => 1 | .powerGated => 2

def State.viewUnitStatus (s : State) (u : Nat) : Nat :=
  let x := s.unit u
  x.eng.code + x.berth.code * 16 + x.cfgErr * 256

def State.viewParent (s : State) (u : Nat) : Nat :=
  match (s.unit u).parent with
  | some g => g + 32768
  | none => 0

def State.viewGrpStatus (s : State) (u : Nat) : Nat :=
  match unitKind u with
  | some .group => s.depth 4096 [] u % 65536 + (s.leafList u).length % 4096 * 65536
  | _ => 0

/-- WATCH_SPARES (R608). -/
def State.viewSpares (s : State) : Nat :=
  (s.spares .gantry).length % 64 + (s.spares .tally).length % 16 * 256 + (s.spares .pilot).length % 16 * 4096
    + (s.spares .lane).length % 16 * 65536 + min 15 ((64 - s.watch.aliases.length) / 4) * 2 ^ 20

/-- GLOBAL_UNITS_GT and GLOBAL_UNITS_TL: present and not fenced (R39). -/
def State.viewPresent (s : State) (base n : Nat) : Nat :=
  (List.range n).foldl (fun acc i => acc + b2n (s.eng (base + i) != .fenced) * 2 ^ i) 0

end Sys2Proof.Machine
end

