-- ==== Sys2Proof/Machine/Tables.lean ====
section
/-! DEFINITION. The tables the block keeps in device memory: stream contexts (R182, R216, R383), layouts (R293, R294),
flows (R343), queue contexts (R374); and the energy accounts every job is charged to (R424 to R430). -/

namespace Sys2Proof.Machine

/-! ### Stream contexts (R182, R216) -/

/-- Raise a counter of a stream context, which wraps. -/
def State.incSf (c off : Nat) (s : State) : State := s.setSf c off 4 (s.sf c off 4 + 1)

/-- STATE: 0 STOPPED, 1 AWAITING_RECOVERY, 2 RUNNING, 3 QUIESCING, 4 HALTING. -/
def State.ctxState (s : State) (c : Nat) : Nat := s.sf c 3 1
def State.setCtxState (c v : Nat) (s : State) : State := s.setSf c 3 1 v
def State.ctxFormat (s : State) (c : Nat) : Nat := s.sf c 4 2
def State.codec (s : State) (c : Nat) : Nat := bits (s.ctxFormat c) 3 0
def State.chroma (s : State) (c : Nat) : Nat := bits (s.ctxFormat c) 5 4
def State.depth10 (s : State) (c : Nat) : Bool := (s.ctxFormat c).testBit 6
/-- Cadence divisor d and phase φ (R126). -/
def State.cadD (s : State) (c : Nat) : Nat := bits (s.sf c 6 1) 3 0 + 1
def State.cadPhi (s : State) (c : Nat) : Nat := bits (s.sf c 6 1) 7 4
def State.ctrlBit (s : State) (c b : Nat) : Bool := (s.sf c 7 1).testBit b
def State.ctxW (s : State) (c : Nat) : Nat := s.sf c 8 2
def State.ctxH (s : State) (c : Nat) : Nat := s.sf c 10 2
def State.gtBerth (s : State) (c : Nat) : Nat := s.holder (s.sf c 12 2 % 4096)
def State.tlBerth (s : State) (c : Nat) : Nat := s.holder (s.sf c 14 2 % 4096)
def State.plBerth (s : State) (c : Nat) : Nat := s.holder (s.sf c 16 2 % 4096)
def State.outFlow (s : State) (c : Nat) : Nat := s.sf c 18 2
def State.layoutOf (s : State) (c : Nat) : Nat := s.sf c 24 2

/-- Chroma weight W in thirds (R157). -/
def weight3 (chroma : Nat) : Nat := if chroma = 2 then 4 else if chroma = 3 then 6 else 3

/-- S × W of a context, in thirds of a sample. -/
def State.samples3 (s : State) (c : Nat) : Nat := s.ctxW c * s.ctxH c * weight3 (s.chroma c)

/-! ### Layouts (R293, R294) -/

def State.layoutSt (s : State) (n : Nat) : LayoutSt := SMap.get (fun _ => LayoutSt.reset) s.layouts n
def State.setLayout (n : Nat) (x : LayoutSt) (s : State) : State :=
  { s with layouts := SMap.set (fun _ => LayoutSt.reset) s.layouts n x }

/-- The copy of layout n in force for presentation tide P (R297). -/
def State.layoutCopy (s : State) (n p : Nat) : Nat :=
  let x := s.layoutSt n
  match x.pend with
  | some e => if e ≤ p then 1 - x.copy else x.copy
  | none => x.copy

/-- Device address of a copy of a layout (R293). -/
def State.layoutAddr (s : State) (n copy : Nat) : Nat := s.rd40 Reg.CMP_LAYOUT_BASE_LO + (n * 2 + copy) * 2048

/-- A field of the header of a layout object at an address. -/
def State.lf (s : State) (a off n : Nat) : Nat := s.rdM (a + off) n
/-- A field of layer entry i. -/
def State.layerF (s : State) (a i off n : Nat) : Nat := s.rdM (a + 64 + 64 * i + off) n

def State.disp (s : State) (n : Nat) : DispSt := SMap.get (fun _ => DispSt.reset) s.disps n
def State.setDisp (n : Nat) (x : DispSt) (s : State) : State :=
  { s with disps := SMap.set (fun _ => DispSt.reset) s.disps n x }

/-- The layout of display output n for presentation tide P: a staged change holds from T + 2 + L on (R297). -/
def State.dispLayout (s : State) (n p : Nat) : Nat :=
  match (s.disp n).lays.find? (fun x => decide (x.1 ≤ p)) with
  | some x => x.2
  | none => 0xFFFF

/-- The layout a compose context names in the current tide: a stream context’s LAYOUT, or the layout of display output n
for the next tide (R128, R300). -/
def State.composeLayout (s : State) (c : Nat) : Nat :=
  if 0xF000 ≤ c then s.dispLayout (c - 0xF000) (s.tideNum + 1) else s.layoutOf c

/-- The lane of a layout, in the copy in force now. -/
def State.laneOf (s : State) (n : Nat) : Nat := s.holder (s.lf (s.layoutAddr n (s.layoutSt n).copy) 14 2 % 4096)

/-- DIV of a display output. -/
def State.dispDiv (s : State) (n : Nat) : Nat := s.fld (Reg.DISP_OUT_CTRL + 0x100 * n) 2 1 + 1

/-! ### Flows (R343) -/

def State.flowAddr (s : State) (f : Nat) : Nat := s.rd40 Reg.NET_FLOW_BASE_LO + 128 * f
def State.ff (s : State) (f off n : Nat) : Nat := s.rdM (s.flowAddr f + off) n

/-- The engine that serves flow f: its ENGINE, or the next one after it that is not fenced (R343, R595). -/
def State.flowEngine (s : State) (f : Nat) : Nat :=
  let e := s.ff f 1 1 % 8
  match (List.range 8).find? (fun i => s.eng (0xE0 + (e + i) % 8) != .fenced) with
  | some i => 0xE0 + (e + i) % 8
  | none => 0xE0 + e

/-! ### Queue contexts (R374) -/

def State.qAddr (s : State) (q : Nat) : Nat := s.rd40 Reg.HM_QCTX_BASE_LO + 64 * q
def State.qf (s : State) (q off n : Nat) : Nat := s.rdM (s.qAddr q + off) n
def State.setQf (q off n v : Nat) (s : State) : State := s.wrM (s.qAddr q + off) n v
def State.qRing (s : State) (q : Nat) : Nat := s.qf q 0 5
def State.qClass (s : State) (q : Nat) : Nat := s.qf q 8 1
def State.qSize (s : State) (q : Nat) : Nat := 2 ^ s.qf q 9 1
def State.qFlag (s : State) (q b : Nat) : Bool := (s.qf q 10 1).testBit b
def State.setQFlag (q b : Nat) (v : Bool) (s : State) : State := s.setQf q 10 1 (putBits (s.qf q 10 1) b b (b2n v))
def State.qInMax (s : State) (q : Nat) : Nat := bits (s.qf q 11 1) 4 0
def State.qTarget (s : State) (q : Nat) : Nat := s.qf q 12 2 % 4096
def State.qState (s : State) (q : Nat) : Nat := bits (s.qf q 15 1) 2 0
def State.setQState (q v : Nat) (s : State) : State := s.setQf q 15 1 (putBits (s.qf q 15 1) 2 0 v)
def State.setQErr (q v : Nat) (s : State) : State := s.setQf q 15 1 (putBits (s.qf q 15 1) 7 3 v)
def State.qIn (s : State) (q : Nat) : Nat := s.qf q 19 1
def State.qProd (s : State) (q : Nat) : Nat := s.qf q 20 4
def State.qDisp (s : State) (q : Nat) : Nat := s.qf q 24 4
def State.qDone (s : State) (q : Nat) : Nat := s.qf q 28 4
def State.qRate (s : State) (q : Nat) : Nat := s.qf q 32 4
def State.qBurst (s : State) (q : Nat) : Nat := s.qf q 36 4
def State.qTokens (s : State) (q : Nat) : Int := signed 40 (s.qf q 40 5)
def State.setQTokens (q : Nat) (v : Int) (s : State) : State := s.setQf q 40 5 (unsigned 40 v)
def State.qFinish (s : State) (q : Nat) : Nat := s.qf q 48 5
def State.qSlot (s : State) (q i : Nat) : Nat := s.qRing q + i % s.qSize q * 64
def State.queue (s : State) (q : Nat) : QueueSt := SMap.get (fun _ => QueueSt.reset) s.queues q
def State.setQueue (q : Nat) (x : QueueSt) (s : State) : State :=
  { s with queues := SMap.set (fun _ => QueueSt.reset) s.queues q x }
def State.setQueueF (q : Nat) (f : QueueSt → QueueSt) (s : State) : State := s.setQueue q (f (s.queue q))

/-- Differences of 32-bit indices and of 40-bit tags. -/
def sub32 (a b : Nat) : Nat := (a + two32 - b % two32) % two32
/-- The later of two 40-bit tags, by the sign of their difference (R392). -/
def later (a b : Nat) : Nat := if signed 40 (a + two40 - b % two40) < 0 then b else a
/-- Tag a is before tag b. -/
def tagLt (a b : Nat) : Bool := decide (signed 40 (a + two40 - b % two40) < 0)

/-! ### Queue classes and berths (R372, R373, R386) -/

/-- Opcode group and class agree (R372, R379). -/
def classRuns (cls grp : Nat) : Bool :=
  match cls with
  | 0 => grp = 1 || grp = 2 || grp = 3 || grp = 6
  | 1 => grp = 5
  | 2 => grp = 4
  | _ => false

/-- Kinds of unit that run an opcode (R386, R523). -/
def kindRuns (op : Nat) (k : Kind) : Bool :=
  if op = 0x0101 ∨ op = 0x0202 then k == .tally
  else
    match op / 256 with
    | 1 => k == .gantry
    | 2 => k == .gantry
    | 3 => k == .lane
    | 4 => k == .egress
    | 5 => k == .barge || k == .skiff
    | 6 => k == .pilot
    | _ => false

/-- The berth R386 gives for an opcode and context; none where the table gives none. -/
def State.tableBerth (s : State) (op c : Nat) : Option Nat :=
  if op = 0x0101 ∨ op = 0x0202 then some (s.tlBerth c)
  else
    match op / 256 with
    | 1 => some (s.gtBerth c)
    | 2 => some (s.gtBerth c)
    | 3 => some (s.laneOf (s.composeLayout c))
    | 4 => some (s.flowEngine (s.outFlow c))
    | 6 => some (s.plBerth c)
    | _ => none

/-! ### Energy (R424 to R431) -/

/-- Factory coefficients, fJ per unit of work (R441). -/
def coefFactory (i : Nat) : Nat := [1320000, 2600000, 180000, 365000, 250, 250000, 5000, 8000].getD i 0
def State.coef (s : State) (i : Nat) : Nat := SMap.get coefFactory s.power.coefs i
def State.setCoef (i v : Nat) (s : State) : State :=
  { s with power := { s.power with coefs := SMap.ins i v s.power.coefs } }

/-- The estimate of a job of class i with work w in 1/300 units: ceil(coef × work / 10⁹) µJ; 0 for any other job (R428). -/
def State.estimate (s : State) (i w : Nat) : Nat := if 8 ≤ i then 0 else cdiv (s.coef i * w) 300000000000

/-- Relative energy of an effort, in hundredths (R226). -/
def rel100 (e : Nat) : Nat := [35, 45, 70, 100, 130, 170, 220, 300].getD e 300

/-- C_eff from the ceiling in force and the temperatures, with the bits that say what holds it (R421). -/
def State.ceilNow (s : State) : Nat × Nat :=
  let capB : Int := 300 - 15 * max 0 (s.power.tb - 75)
  let capJ : Int := 300 - 20 * max 0 (s.power.tj - 100)
  let want : Int := s.fld Reg.PWR_CEILING 8 0
  let low := min want (min capB capJ)
  ((max 90 low).toNat, b2n (capB = low && capB < want) + b2n (capJ = low && capJ < want) * 2 + b2n (low < 90) * 4)

/-- r for a C_eff of `c` watts (R425). -/
def State.refillFor (s : State) (c : Nat) : Nat :=
  let mw : Int := (c * 1000 * s.fld Reg.PWR_EFF 9 0 / 1000 : Nat)
  (max 0 ((mw - s.rd Reg.PWR_FIXED_MW) * s.pb / 1000000)).toNat

/-- The refill r (R425); before the first tide, what the ceiling in force and the temperatures give (R406, R421). -/
def State.refill (s : State) : Nat := if s.running then s.rd Reg.PWR_REFILL else s.refillFor s.ceilNow.1
def State.bucketDepth (s : State) : Nat := s.fld Reg.PWR_GOV_CTRL 19 16

/-- Add to the bucket, within the limits of R424. -/
def State.bucketAdd (x : Int) (s : State) : State :=
  { s with power := { s.power with
      bucket := clamp (-549755813888) (s.bucketDepth * s.refill : Nat) (s.power.bucket + x) } }

/-- g of the governor. -/
def State.gov (s : State) : Nat := s.fld Reg.PWR_GOV_STATUS 2 0

/-- Offset of a picture opcode in R388; none for other opcodes. -/
def picOffset (op : Nat) (disp : Bool) : Option Int :=
  if op = 0x0101 ∨ op = 0x0102 then some 1
  else if op = 0x0201 ∨ op = 0x0202 then some (-1)
  else if op = 0x0301 then some (if disp then -1 else -2)
  else if op = 0x0401 then some 0
  else none

/-- Is a picture job of context c eligible in tide t by its cadence? (R388) Opcode 0 stands for the pilot’s work for a
picture, and 1 for its work of every tide. -/
def State.cadenceOk (s : State) (c op t : Nat) : Bool :=
  if 0xF000 ≤ c then decide ((t + 1) % s.dispDiv (c - 0xF000) = 0)
  else if op = 1 then true
  else
    match picOffset (if op = 0 then 0x0201 else op) false with
    | none => true
    | some o => decide (((t : Int) - o) % (s.cadD c : Int) = (s.cadPhi c : Int))

/-- Booked picture jobs that R388 makes eligible in tide t: context, opcode, class, work. -/
def State.booked (s : State) (t : Nat) : List (Nat × Nat × Nat × Nat) :=
  s.books.flatMap (fun b => (b.2.works.filter (fun w => s.cadenceOk b.1 w.1 t)).map (fun w => (b.1, w)))

/-- Estimate of a booked picture job with the governor at effort e: an ENCODE at min(max(e, MIN), MAX) (R431). -/
def State.bookedEst (s : State) (e : Nat) (w : Nat × Nat × Nat × Nat) : Nat :=
  if w.2.1 = 0x0201 then
    let b := s.book w.1
    s.estimate w.2.2.1 (w.2.2.2 * rel100 (min (max e b.effortMin) b.effortMax))
  else s.estimate w.2.2.1 w.2.2.2

/-- need(e) over a list of booked jobs (R431). -/
def State.needOf (s : State) (e : Nat) (l : List (Nat × Nat × Nat × Nat)) : Nat :=
  (l.map (s.bookedEst e)).foldl (· + ·) 0

/-- The booked picture jobs of the current tide not yet dispatched. -/
def State.toDispatch (s : State) : List (Nat × Nat × Nat × Nat) :=
  (s.booked s.tideNum).filter (fun w => !(s.picSent.contains (w.1, if w.2.1 = 0 then 0x0201 else w.2.1)))

/-- Energy at completion: the bucket is credited x − m and the coefficient corrected, with m the measured energy, a free
value (R427, R429, R430). -/
def State.credit (cls work est status : Nat) (rerun : Bool) (s : State) : State :=
  let d := s.draw
  let m := d.1 % two32
  let s := (d.2.bucketAdd ((est : Int) - (m : Int))).bump Reg.PWR_JOBS_ENERGY_LAST m
  if cls < 8 ∧ work ≠ 0 ∧ status ≤ 3 ∧ !rerun then
    let c : Int := s.coef cls
    let x : Int := (m * 300000000000 / work : Nat)
    let f := coefFactory cls
    s.setCoef cls (clamp ((f / 4 : Nat) : Int) ((f * 4 : Nat) : Int) (c + Int.tdiv (x - c) 16)).toNat
  else s

end Sys2Proof.Machine
end

