-- ==== Sys2Proof/Machine/Harbour.lean ====
section
/-! DEFINITION. The harbourmaster's queues (10_harbourmaster.md: R372 to R397, R409, R410): posts and doorbells, the head
of a queue, dispatch to berths, completion and retirement, and the stop of a queue. -/

namespace Sys2Proof.Machine

/-! ### Descriptors (R28, R29) -/

/-- The job a descriptor of 64 bytes at an address describes (R28). -/
def State.readJob (s : State) (q i a : Nat) : Job :=
  let f := fun (o n : Nat) => s.rdM (a + o) n
  { queue := q, index := i, addr := a, op := f 0 2, flags := f 2 2, ctx := f 4 2, seq := f 6 2, tide := f 8 6
    deadline := f 14 2, s0 := f 16 8, s1 := f 24 8, s2 := f 32 8, s3 := f 40 8, s4 := f 48 8, completion := f 56 8
    work := 0, cls := 8, cost := 0, estimate := 0, effort := 0, status := none, b1 := 0, b2 := 0, b3 := 0, b8 := 0
    b15 := 0, rerun := false, stopWith := none, bufs := [], started := 0, startNs := 0 }

/-- A COMPLETION field for which a job is retired without a record (R29). -/
def State.badCompletion (s : State) (c : Nat) : Bool :=
  c != 0 && (decide (two40 ≤ c) || decide (c % 16 ≠ 0) || !s.isMem c || s.inProtData c || s.inCheck c)

/-- A pointer slot with a non-zero bit in 63:40 (R29). -/
def Job.badSlots (j : Job) : Bool :=
  [j.s0, j.s1, j.s2, j.s3, j.s4].any (fun v => decide (two40 ≤ v))

/-- Opcodes with a meaning; the routine of any other completes its job DESCRIPTOR_INVALID (R185, R220, R275, R300, R344, R497, R523). -/
def opKnown (op : Nat) : Bool :=
  let n := op % 256
  n != 0 && decide (n ≤ [0, 6, 7, 1, 1, 1, 2].getD (op / 256) 0)

/-- Is a context number one the opcode can name? (R28) -/
def Job.ctxOk (j : Job) : Bool :=
  j.ctx < 4096 || (j.op / 256 = 3 && 0xF000 ≤ j.ctx && j.ctx < 0xF008)

/-- The berth a job of queue q goes to, when one can be determined (R30, R386). -/
def State.berthOf (s : State) (q : Nat) (j : Job) : Option Nat :=
  if s.qTarget q ≠ 0xFFF then some (s.holder (s.qTarget q))
  else if !classRuns (s.qClass q) (j.op / 256) then none
  else if !j.ctxOk then none
  else
    match s.tableBerth j.op j.ctx with
    | some b => if (unitKind b).isSome then some b else none
    | none => none

/-- A descriptor the harbourmaster completes DESCRIPTOR_INVALID without dispatching it (R379, R386, R41). -/
def State.descBad (s : State) (q : Nat) (j : Job) : Bool :=
  !classRuns (s.qClass q) (j.op / 256) || j.op % 256 = 0 || bits j.op 7 6 ≠ 0 || !j.ctxOk ||
    (match s.berthOf q j with
      | none => true
      | some b =>
        (match s.leafOf b with
          | some k => !kindRuns j.op k
          | none => true)
        || (s.qTarget q != 0xFFF && (match s.tableBerth j.op j.ctx with
          | some t => s.holder t != b
          | none => false)))

/-- Source tide of a job's picture, from the tide T of its descriptor (R127, R388); 0 for jobs without one. -/
def State.srcTide (s : State) (j : Job) : Nat :=
  let t := if j.tide = 0 then s.tideNum else j.tide
  if j.op = 0x0101 ∨ j.op = 0x0102 then t - 1 else if j.op = 0x0201 ∨ j.op = 0x0202 then t + 1 else 0

/-- Bytes 8 to 13 of the record of a job completed without dispatch (R30, R188, R499). -/
def State.recTide (s : State) (j : Job) : Nat :=
  match j.op / 256 with
  | 1 => s.srcTide j
  | 2 => s.srcTide j
  | 5 => 0
  | _ => j.tide

/-! ### Records and retirement (R30, R397) -/

/-- The 16 bytes of a completion record (R30, R188, R223, R499). -/
def recordBytes (j : Job) (st unit b8 : Nat) : List Nat :=
  [st % 256, j.b1 % 256, j.b2 % 256, j.b3 % 256] ++ leBytes 2 (if j.op / 256 = 5 then 0 else j.ctx) ++ leBytes 2 j.seq
    ++ leBytes 6 b8 ++ leBytes 2 (unit % 4096 + j.b15 * 4096)

/-- Write a completion record, unless its pointer is 0 (R29, R30). -/
def State.writeRecord (j : Job) (st unit b8 : Nat) (s : State) : State :=
  if j.completion = 0 then s else (s.writeMem unit j.completion (recordBytes j st unit b8)).2

/-- DONE advances over the run of completed indices that begins at it; `n` bounds the run (R397). -/
def State.retire (q : Nat) : Nat → State → State
  | 0, s => s
  | n + 1, s =>
    let d := s.qDone q
    if (s.queue q).completed.contains d then
      State.retire q n ((s.setQueueF q (fun x => { x with completed := x.completed.filter (fun i => i != d) })).setQf q 28 4
        (d + 1))
    else s

/-- DISP passes over indices completed without dispatch. -/
def State.passDone (q : Nat) : Nat → State → State
  | 0, s => s
  | n + 1, s =>
    let d := s.qDisp q
    if d ≠ s.qProd q ∧ (s.queue q).completed.contains d then
      State.passDone q n ((s.setQueueF q (fun x => { x with tag := none })).setQf q 24 4 (d + 1))
    else s

/-- Jobs of a queue no longer wait for an index (R390). -/
def QueueSt.dropDep (x : QueueSt) (q i : Nat) : QueueSt :=
  { x with deps := x.deps.map (fun d => (d.1, d.2.filter (fun y => y != (q, i)))) }

/-- An index of a queue is complete: nothing waits for it any more (R390), and it retires in ring order (R397). -/
def State.indexDone (q i : Nat) (s : State) : State :=
  let s := { s with queues := List.map (fun (p : Nat × QueueSt) => (p.1, p.2.dropDep q i)) s.queues }
  let s := s.setQueueF q (fun x => { x with completed := x.completed ++ [i] })
  let n := (s.queue q).completed.length
  (s.passDone q n).retire q n

/-- A completion sets HM_CPEND bit BELL when BELL_EN is 1 (R397). -/
def State.cpend (q : Nat) (s : State) : State :=
  if (s.qf q 18 1).testBit 7 then s.setBit Reg.HM_CPEND (s.qf q 18 1 % 32) else s

/-- DEADLINE_MISSED is counted (R413; assumption 12 for the event). -/
def State.countMiss (st : Nat) (s : State) : State :=
  if st = 0x30 then (s.bump Reg.HM_DEADLINE_MISS_LAST 1).setBit Reg.HM_EVENT 7 else s

def State.enc (s : State) (c : Nat) : EncSt := SMap.get (fun _ => EncSt.reset) s.encs c
def State.setEnc (c : Nat) (x : EncSt) (s : State) : State := { s with encs := SMap.set (fun _ => EncSt.reset) s.encs c x }

/-- The composed buffer after an ENCODE: freed, unless it is kept as the most recent good picture (R225, R490). -/
def State.doneComposed (u : Nat) (j : Job) (s : State) : State :=
  let a := j.s0 % two40
  let x := s.enc j.ctx
  if s.rdM (a + 6) 1 = 0 then
    let s := if x.composed ≠ 0 ∧ x.composed ≠ a then s.giveBack u x.composed else s
    s.setEnc j.ctx { s.enc j.ctx with composed := a }
  else s.giveBack u a

/-- The buffer a picture job named when it ends without dispatch: as at its completion (R490). -/
def State.dropSlot (u : Nat) (j : Job) (st : Nat) (s : State) : State :=
  if j.op = 0x0101 || j.op = 0x0401 then s.giveBack u (j.s0 % two40)
  else if j.op = 0x0201 then if st = 0x30 then s.doneComposed u j else s.giveBack u (j.s0 % two40)
  else s

/-- LAST_STATUS of a decode context: the status of its last RECONSTRUCT job (R182). -/
def State.lastStatus (j : Job) (st : Nat) (s : State) : State :=
  if j.op = 0x0102 ∧ j.ctx < 4096 ∧ s.ctxKind j.ctx = 1 then s.setSf j.ctx 76 1 st else s

/-- Complete a job without dispatch: record, retirement, bell (R30, R379, R397). -/
def State.completeUndispatched (q : Nat) (j : Job) (st : Nat) (s : State) : State :=
  let u := if classRuns (s.qClass q) (j.op / 256) && j.ctxOk then (s.berthOf q j).getD agentHm else agentHm
  let u := if (unitKind u).isSome then u else agentHm
  (((((s.dropSlot u j st).lastStatus j st).writeRecord j st u (s.recTide j)).indexDone q j.index).cpend q).countMiss st

/-- Retire a job without dispatch and without a record (R29, R379). -/
def State.retireSilently (q i : Nat) (s : State) : State := s.indexDone q i

/-! ### Stopping a queue (R409, R410) -/

/-- An ENABLE on a STOPPED queue (R382). -/
def State.queueStart (q : Nat) (s : State) : State :=
  let s := (((s.setQf q 20 4 0).setQf q 24 4 0).setQf q 28 4 0).setQTokens q (s.qBurst q)
  let s := (((s.setQf q 48 5 0).setQFlag q 0 true).setQState q 1).setQErr q 0
  s.setQueueF q (fun x => { x with reEnable := false, completed := [], tag := none, frac := 0, tokNs := s.now, posts := [], deps := [] })

/-- INFLIGHT has reached 0 in a stopping queue: STOPPED, or ERROR with ERR 2 (R379, R409, R410). -/
def State.queueStopped (q : Nat) (s : State) : State :=
  let st := s.qState q
  if (st = 2 ∨ st = 3 ∨ st = 4) ∧ s.qIn q = 0 ∧ s.qDone q = s.qProd q then
    let s := (s.setQf q 24 4 (s.qProd q)).setBit Reg.HM_EVENT 1
    let s := if st = 4 then s.setQErr q 2 else s.setQState q 0
    if (s.queue q).reEnable then s.queueStart q else s
  else s

/-- Complete every job from DISP up to PROD without dispatch (R409); one whose descriptor cannot be read is retired (R379). -/
def State.flushQueue (q st : Nat) : Nat → State → State
  | 0, s => s
  | n + 1, s =>
    let d := s.qDisp q
    if d = s.qProd q then s
    else if (s.queue q).completed.contains d then State.flushQueue q st n (s.setQf q 24 4 (d + 1))
    else
      let a := s.qSlot q d
      let s := s.setQf q 24 4 (d + 1)
      if s.canRead a 64 == .busError then State.flushQueue q st n (s.retireSilently q d)
      else
        let j := s.readJob q d a
        if s.badCompletion j.completion then
          State.flushQueue q st n ((s.usageAddr agentHm 4 (j.completion % two40)).retireSilently q d)
        else State.flushQueue q st n (s.completeUndispatched q j st)

/-- Jobs of a queue in flight are marked to end at their next stop point (R409, R531). -/
def State.markJobs (p : Job → Bool) (st : Nat) (s : State) : State :=
  s.each s.units (fun x s =>
    match (s.unit x.1).job with
    | some j => if p j then s.setUnitF x.1 (fun u => { u with job := some { j with stopWith := some st } }) else s
    | none => s)

/-- A queue stops: 2 QUIESCING or 3 HALTING, or stays in ERROR (R379, R409). -/
def State.queueStop (q : Nat) (halt : Bool) (s : State) : State :=
  let s := s.setQFlag q 0 false
  let s := if s.qState q = 4 then s else s.setQState q (if halt then 3 else 2)
  let s := s.flushQueue q 0x11 (2 * s.qSize q)
  let s := s.whenB halt (State.markJobs (fun j => j.queue == q) 0x10)
  s.queueStopped q

/-! ### Cost, tokens and gates (R391, R393, R398) -/

/-- Cost of a job on its berth (R391, R498). -/
def State.jobCost (s : State) (j : Job) (b : Nat) : Nat :=
  let misc := s.rd Reg.HM_COST_MISC
  match j.op / 256 with
  | 4 => s.rdM (j.s0 % two40 + 16) 4
  | 5 => if j.s3 = 0 then misc else j.s3
  | _ =>
    match (s.book j.ctx).charges.find? (fun c => c.2.2 = j.op && (c.1 = b || j.op / 256 = 3)) with
    | some c => c.2.1
    | none => misc

/-- Effort of a picture and GOVERNED (R227, R228, R278): the context's limits, held to those of its START, under the
governor's ceiling. -/
def State.effortFor (s : State) (c : Nat) : Nat × Bool :=
  let f := s.sf c 28 1
  let b := s.book c
  let emax := min (bits f 2 0) b.effortMax
  let emin := min (min (bits f 6 4) b.effortMin) emax
  (max (min emax s.gov) emin, decide (s.gov < emax))

/-- Class and work (1/300 units) of a job, and its effort (R428). -/
def State.jobWork (s : State) (j : Job) : Nat × Nat × Nat :=
  match j.op / 256 with
  | 4 => (7, 300 * s.rdM (j.s0 % two40 + 16) 4, 0)
  | 5 => (6, 300 * (if j.s3 = 0 then s.rd Reg.HM_COST_MISC else j.s3), 0)
  | _ =>
    match (s.book j.ctx).works.find? (fun w => w.1 = j.op) with
    | some w =>
      if j.op = 0x0201 then
        let e := s.effortFor j.ctx
        (w.2.1, w.2.2 * rel100 e.1, e.1 + 8 * b2n e.2)
      else (w.2.1, w.2.2, 0)
    | none => (8, 0, 0)

/-- Tokens and remainder of a queue at the present device time (R393). -/
def State.tokensNow (s : State) (q : Nat) : Int × Nat :=
  let x := s.queue q
  let g := x.frac + s.qRate q * (s.now - x.tokNs)
  let t := s.qTokens q + ((g / 256000 : Nat) : Int)
  if (s.qBurst q : Int) ≤ t then (s.qBurst q, 0) else (t, g % 256000)

/-- Bring a queue's token bucket up to the present. -/
def State.refreshTokens (q : Nat) (s : State) : State :=
  if s.qRate q = 0 then s
  else
    let r := s.tokensNow q
    (s.setQTokens q r.1).setQueueF q (fun x => { x with frac := r.2, tokNs := s.now })

/-- Entry of a gate list in force at a device time, and the mask (R398). -/
def gateEntry : List (Nat × Nat) → Nat → Nat → Nat × Nat
  | [], _, i => (i, 0)
  | (m, n) :: es, t, i => if t < n then (i, m) else gateEntry es (t - n) (i + 1)

/-- Cycle time of a list of gate entries. -/
def gateCycle (es : List (Nat × Nat)) : Nat := (es.map (fun e => e.2)).foldl (· + ·) 0

/-- Mask in force of gate list k (R398). -/
def State.gateMask (s : State) (k : Nat) : Nat :=
  let g := s.gate k
  let o := 0x40 * k
  if g.oper && s.bit (Reg.HM_GATE_CTRL + o) 0 then (g.entries.getD g.entry (0, 0)).1
  else s.fld (Reg.HM_GATE_CTRL + o) 15 8

/-- The gate of a queue is open, or the queue is not gated (R389). -/
def State.gateOpen (s : State) (q : Nat) : Bool :=
  let v := s.qf q 14 1
  !v.testBit 7 || (s.gateMask (bits v 3 0)).testBit (bits v 6 4)

/-! ### The head of a queue (R379, R387 to R390) -/

/-- What the harbourmaster does with the head of a queue. -/
inductive HeadAct where
  | idle
  | busError
  | silent (addr : Nat)
  | finish (status : Nat)
  | wait
  | ready (berth : Nat)
  deriving DecidableEq, Repr

/-- Device time at which index i of a queue was posted. -/
def State.postTime (s : State) (q i : Nat) : Nat :=
  (((s.queue q).posts.find? (fun p => decide (sub32 p.1 (i + 1) < 2 ^ 31))).map (fun p => p.2)).getD 0

/-- The first tide in which a job is eligible: its tide T, or with T 0 the tide of its post, and from there on the first of its cadence
(R387, R388). -/
def State.eligibleTide (s : State) (j : Job) : Nat :=
  let t := if j.tide = 0 then (s.tideAt (s.postTime j.queue j.index)).getD s.tideNum else j.tide
  if (picOffset j.op (0xF000 ≤ j.ctx)).isNone then t
  else (((List.range 16).find? (fun i => s.cadenceOk j.ctx j.op (t + i))).map (fun i => t + i)).getD t

/-- A job’s dispatch deadline has come (R387). -/
def State.pastDeadline (s : State) (j : Job) : Bool :=
  j.deadline != 0 && s.running && decide (s.startOf (s.eligibleTide j) + 1000 * j.deadline ≤ s.now)

/-- The tide and cadence let a job run (R387, R388). -/
def State.tideAllows (s : State) (j : Job) : Bool :=
  decide (j.tide ≤ s.tideNum) &&
    ((picOffset j.op (0xF000 ≤ j.ctx)).isNone ||
      (s.cadenceOk j.ctx j.op s.tideNum && !s.picSent.contains (j.ctx, j.op)))

/-- A decode or encode job, other than START, STOP and READ_STATUS, whose stream is stopping completes QUIESCED (R213, R262). -/
def State.stopping (s : State) (j : Job) : Bool :=
  (j.op / 256 = 1 || j.op / 256 = 2) && !([3, 4, 5].contains (j.op % 256)) && j.ctx < 4096
    && (s.ctxState j.ctx = 3 || s.ctxState j.ctx = 4)

/-- The head of queue q as the harbourmaster sees it (R379, R389). Nothing of a context is dispatched on a berth that it joins
only at the next tide start (R62, R408). -/
def State.headAct (s : State) (q : Nat) : HeadAct :=
  let d := s.qDisp q
  if !(s.queue q).cached || s.qState q ≠ 1 || d = s.qProd q then .idle
  else
    let a := s.qSlot q d
    if s.canRead a 64 == .busError then .busError
    else
      let j := s.readJob q d a
      if s.badCompletion j.completion then .silent (j.completion % two40)
      else if s.descBad q j then .finish 0x20
      else if s.stopping j then .finish 0x11
      else if s.pastDeadline j then .finish 0x30
      else
        match s.berthOf q j with
        | none => .finish 0x20
        | some b =>
          let c := s.jobCost j b
          let deps := (s.queue q).deps.any (fun x => x.1 = d && !x.2.isEmpty)
          if s.qIn q < s.qInMax q && s.tideAllows j && !deps && s.gateOpen q && !(s.unit b).joining.contains j.ctx
              && (s.qRate q = 0 || decide ((min c (s.qBurst q) : Int) ≤ (s.tokensNow q).1))
              && (s.qf q 56 4 = 0 || decide (s.qf q 60 4 + c ≤ s.qf q 56 4)) then .ready b
          else .wait

/-- The job at the head of a queue. -/
def State.headJob (s : State) (q : Nat) : Job := s.readJob q (s.qDisp q) (s.qSlot q (s.qDisp q))

/-! ### Berths (R392, R394, R395, R433) -/

/-- A berth can accept a job: IDLE and powered, a group with every leaf powered (R394, R436). -/
def State.canAccept (s : State) (b : Nat) : Bool :=
  let x := s.unit b
  x.eng == .idle && x.job.isNone && x.parent.isNone && (s.leafList b).all (fun u => neverGated u || (s.unit u).pow != .powerGated)

/-- Booked charge still to run on a berth in the current tide (R395). -/
def State.bookedCharge (s : State) (b : Nat) : Nat :=
  (s.books.flatMap (fun k => (k.2.charges.filter (fun c => c.1 = b && c.2.2 != 0 && s.cadenceOk k.1 c.2.2 s.tideNum
    && !s.picDone.contains (k.1, c.2.2))).map (fun c => c.2.1))).foldl (· + ·) 0

/-- A berth has booked work in tide t (R395). -/
def State.bookedWork (s : State) (b t : Nat) : Bool :=
  s.books.any (fun k => k.2.charges.any (fun c => c.1 = b && c.2.2 != 0 && s.cadenceOk k.1 c.2.2 t))

/-- Completion deadline of the current tide: TIDE_GUARD before the next start (R132). -/
def State.tideDeadline (s : State) : Nat := s.startOf (s.tideNum + 1) - s.rd Reg.TIDE_GUARD

/-- Energy leaves room for a best-effort job (R433, R434). -/
def State.energyRoom (s : State) (j : Job) : Bool :=
  let w := s.jobWork j
  !s.power.above && decide ((s.needOf s.gov s.toDispatch : Int) ≤ s.power.bucket - (s.estimate w.1 w.2.1 : Nat))

/-- A best-effort queue's job passes R395 on a berth. -/
def State.bestFits (s : State) (q b : Nat) : Bool :=
  let j := s.headJob q
  let rerunHere := (match (s.unit b).job with
    | some r => r.rerun
    | none => false) || s.watch.takeovers.any (fun t => t.2 = b)
  decide (s.now + s.bookedCharge b + s.jobCost j b ≤ s.tideDeadline) && !rerunHere && s.energyRoom j

/-- A queue counts as best-effort for R433: BEST_EFFORT, or a LIGHTER queue with RATE 0. -/
def State.lightBest (s : State) (q : Nat) : Bool := s.qClass q = 1 && s.qRate q = 0

/-- Give the head of a queue its start tag when it first waits for a berth, and advance the queue's finish tag (R392). -/
def State.tagHead (q b : Nat) (s : State) : State :=
  match (s.queue q).tag with
  | some _ => s
  | none =>
    let at_ := match (s.unit b).job with
      | some j => j.queue == q
      | none => false
    let fin := s.qFinish q
    let st := if at_ then fin else later (s.unit b).vtime fin
    let w := max 1 (s.qf q 16 2)
    (s.setQf q 48 5 ((st + s.jobCost (s.headJob q) b * 256 / w) % two40)).setQueueF q (fun x => { x with tag := some st })

/-- The queue with the lowest start tag, the lowest number on equal tags (R392). -/
def State.lowestTag (s : State) : List Nat → Option Nat
  | [] => none
  | q :: qs =>
    match s.lowestTag qs with
    | none => some q
    | some r => if tagLt (((s.queue r).tag).getD 0) (((s.queue q).tag).getD 0) then some r else some q

/-- Routine number of an opcode (R523). -/
def routineOf (op : Nat) : Nat := op % 64 + (if op / 256 = 2 then 64 else 0)

/-- A unit takes a job: its job registers, the context fields a picture job reads again (R183, R218), and its micro-state set for the
routine (R51, R532). Registers, flags and
LOCAL are undefined from here on (R524) and keep free values (assumption 3). -/
def State.startJob (u : Nat) (j : Job) (s : State) : State :=
  let x := s.unit u
  let hasCs := match unitKind u with
    | some k => k.csKiw != 0
    | none => false
  let r := if hasCs then s.drawMany 2048 else (0, s)
  let s := r.2
  let m := if hasCs then
      { x.micro with
        pc := routineOf j.op, stack := [], inRoutine := true, routine := routineOf j.op, trapped := false
        waiting := none, causes := 0, undef := some r.1, d := [], locals := []
        z := (Config.free r.1).testBit 40, n := (Config.free r.1).testBit 41
        c := (Config.free r.1).testBit 42, v := (Config.free r.1).testBit 43 }
    else x.micro
  let s := (s.rereadCtx j.op j.ctx).setUnit u { x with eng := .running, pow := .on, job := some j, micro := m }
  (((s.wr40 (ucb u Reg.UCB_JOB_PTR_LO) j.addr).wr (ucb u Reg.UCB_JOB_SEQ) j.seq).wr (ucb u Reg.UCB_ROUTINE_STEP) 0).wr
    (ucb u Reg.UCB_ROUTINE_STATUS) 0

/-- Dispatch the head of queue q to berth b (R389, R392, R393, R411, R427, R532). -/
def State.dispatchTo (q b : Nat) (s : State) : State :=
  let j := s.headJob q
  -- the fields read again at the job’s start give its effort (R218, R228)
  let s := s.rereadCtx j.op j.ctx
  let c := s.jobCost j b
  let w := s.jobWork j
  let est := s.estimate w.1 w.2.1
  let j := { j with cost := c, cls := w.1, work := w.2.1, estimate := est, effort := w.2.2, started := s.tideNum, startNs := s.now
                    b8 := s.recTide j }
  let tag := ((s.queue q).tag).getD 0
  let delay := s.now - max (s.postTime q j.index) (if j.tide = 0 then 0 else s.startOf j.tide)
  let s := s.refreshTokens q
  let s := s.setQTokens q (max (-549755813888) (s.qTokens q - (c : Int)))
  let s := ((s.setQf q 60 4 (min (two32 - 1) (s.qf q 60 4 + c))).setQf q 19 1 (s.qIn q + 1)).setQf q 24 4 (s.qDisp q + 1)
  let s := s.setQueueF q (fun x => { x with tag := none, dispatched := x.dispatched + 1, maxDelay := max x.maxDelay delay })
  let s := s.setUnitF b (fun x => { x with vtime := tag, vfin := later x.vfin (s.qFinish q) })
  let l := s.draw
  let s := l.2.bumpMax Reg.HM_DISPATCH_MAX_LAST (l.1 % 65)
  let s := ((s.bump Reg.HM_DISPATCHES_LAST 1).bucketAdd (-(est : Int))).sndCount 0xF00 0x800 1
  let s := s.whenB (s.qFlag q 4) (State.sndCount 0xF00 0x803 1)
  let s := if (picOffset j.op (0xF000 ≤ j.ctx)).isSome then { s with picSent := (j.ctx, j.op) :: s.picSent } else s
  -- the customer window is asked at a picture’s start (R288); charges of opcode 1 stand for a window in use
  let s := match j.op, (s.book j.ctx).charges.find? (fun x => x.2.2 = 1) with
    | 0x0201, some x => { s with windows := SMap.ins x.1 (SMap.get (fun _ => []) s.windows x.1 ++ [(j.ctx, 1, 0)]) s.windows }
    | _, _ => s
  let s := s.startJob b j
  if unitKind b == some .group then
    s.each (s.leafList b) (fun u s =>
      let g := (s.startJob u j)
      g.setUnitF u (fun x => { x with job := none }))
  else s

/-! ### Completion of a dispatched job (R397, R533) -/

/-- Free the buffers a job still holds (R491). -/
def State.freeBufs (owner : Nat) (l : List Nat) (s : State) : State := s.each l (fun a s => s.giveBack owner a)

/-- FLAGS.RERUN of a picture job that a fence interrupted, whatever its status (R201, R223, R260, R261). -/
def Job.rerunFlag (j : Job) : Job :=
  if j.rerun && [0x0102, 0x0201, 0x0202].contains j.op then { j with b3 := Nat.lor j.b3 8 } else j

/-- A head job waits for a berth (R392). -/
def State.waitsAt (s : State) (b : Nat) : Bool :=
  s.queues.any (fun p => p.2.tag.isSome && s.berthOf p.1 (s.headJob p.1) == some b)

/-- The job of a berth completes with a status: record, retirement, energy, counters; the unit takes its next job or
becomes IDLE, or ends its stop (R47, R397, R427, R533). -/
def State.finishJob (u st : Nat) (s : State) : State :=
  match (s.unit u).job with
  | none => s
  | some j =>
    let s := (s.lastStatus j st).writeRecord j.rerunFlag st u j.b8
    let q := j.queue
    let s := if q < 0x100000 then
        ((((s.setQf q 19 1 (s.qIn q - 1)).indexDone q j.index).cpend q).countMiss st).queueStopped q
      else s
    let s := if (picOffset j.op (0xF000 ≤ j.ctx)).isSome then { s with picDone := (j.ctx, j.op) :: s.picDone } else s
    let s := s.credit j.cls j.work j.estimate st j.rerun
    let s := (s.inc (ucb u Reg.UCB_JOBS_DONE)).sndCount u 3 1
    let s := s.setUnitF u (fun x => { x with
      job := none, vtime := if s.waitsAt u then x.vtime else later x.vtime x.vfin, micro := { x.micro with inRoutine := false } })
    let s := s.whenB (unitKind u == some .group) (fun s => s.each (s.leafList u) (fun m s =>
      let s := ((s.inc (ucb m Reg.UCB_JOBS_DONE)).sndCount m 3 1).setUnitF m (fun x => { x with
        eng := if x.eng == .running then .idle else x.eng, micro := { x.micro with inRoutine := false } })
      if s.eng m == .quiescing || s.eng m == .halting then s.stopDone m else s))
    let s := match s.eng u with
      | .running => s.setEng u .idle
      | .quiescing => s.stopDone u
      | .halting => s.stopDone u
      | _ => s
    s.releaseDone u

/-! ### The dispatch pass (R389 to R396) -/

/-- Queues whose heads can be looked at. -/
def State.liveQueues (s : State) : List Nat := (s.queues.filter (fun p => p.2.cached)).map (fun p => p.1)

/-- A stream halts: its queue, and its jobs in flight at their next stop point (R213, R262). -/
def State.haltStream (c : Nat) (s : State) : State :=
  ((s.setCtxState c 4).whenB (s.qState c = 2) (State.setQState c 3)).markJobs
    (fun j => j.ctx == c && j.op / 256 != 5 && j.op != 0x0104 && j.op != 0x0204) 0x10

/-- A STOP with HALT that arrives while its stream is QUIESCING changes the stop to HALT, though its berth still runs the first STOP
(R213). -/
def State.haltHead (q : Nat) (s : State) : State :=
  let j := s.headJob q
  if s.qDisp q ≠ s.qProd q ∧ s.qClass q = 0 ∧ (j.op = 0x0104 ∨ j.op = 0x0204) ∧ j.flags.testBit 0 ∧ j.ctx < 4096 ∧ s.ctxState j.ctx = 3
  then s.haltStream j.ctx else s

/-- Deal with heads that complete or stop without dispatch; answers whether there was one. -/
def State.settleHead (q : Nat) (s : State) : Bool × State :=
  let d := s.qDisp q
  match s.headAct q with
  | .busError =>
    let a := s.qSlot q d
    let s := if s.isMem a then s.badRead agentHm 4 a 64 else s.outboundErr
    let s := (s.setQState q 4).setQErr q 2
    let s := (s.setQf q 24 4 (d + 1)).retireSilently q d
    (true, s.queueStop q true)
  | .silent a =>
    let s := (s.usageAddr agentHm 4 a).setQf q 24 4 (d + 1)
    (true, (s.setQueueF q (fun x => { x with tag := none })).retireSilently q d)
  | .finish st =>
    let j := s.headJob q
    let a := s.qSlot q d
    -- a slot at an unmapped address reads as zeros, with a usage event (R34)
    let s := s.whenB (s.canRead a 64 == .refused) (State.usageAddr agentHm 4 a)
    let s := (s.setQf q 24 4 (d + 1)).setQueueF q (fun x => { x with tag := none })
    (true, s.completeUndispatched q j st)
  | .ready b => (false, (s.haltHead q).tagHead q b)
  | .wait => (false, s.haltHead q)
  | .idle => (false, s)

/-- Berths named by ready heads. -/
def State.readyHeads (s : State) : List (Nat × Nat) :=
  s.liveQueues.filterMap (fun q => match s.headAct q with
    | .ready b => some (q, b)
    | _ => none)

/-- Flag bits an opcode defines (R185, R186, R220). -/
def flagMask (op : Nat) : Nat :=
  if op = 0x0101 ∨ op = 0x0102 then 0x6 else if op = 0x0104 ∨ op = 0x0204 then 1 else 0

/-- A reserved flag is set. -/
def Job.badFlags (j : Job) : Bool := Nat.land j.flags (65535 - flagMask j.op) != 0

/-- The status with which a job ends at its berth before it does anything: a reserved opcode (R523), in picture jobs a reserved flag
(R212, R224), a pointer slot with a bit above 39 (R29). -/
def Job.atBerth (j : Job) : Option Nat :=
  if !opKnown j.op then some 0x20
  else if j.badSlots then some (if (j.op / 256 = 1 ∨ j.op / 256 = 2) ∧ j.badFlags then 0x20 else 0x21)
  else none

/-- One dispatch: the first berth that can accept a job takes the candidate with the lowest tag (R392). -/
def State.dispatchOne (s : State) : Option State :=
  let heads := s.readyHeads
  let pick := heads.findSome? (fun h =>
    if s.canAccept h.2 then
      let mine := (heads.filter (fun x => x.2 = h.2)).map (fun x => x.1)
      let normal := mine.filter (fun q => !s.qFlag q 4 && (!s.lightBest q || s.energyRoom (s.headJob q)))
      let best := mine.filter (fun q => s.qFlag q 4 && s.bestFits q h.2)
      match s.lowestTag (if normal.isEmpty then best else normal) with
      | some q => some (q, h.2)
      | none => none
    else none)
  pick.map (fun p =>
    match (s.headJob p.1).atBerth with
    | some st => (s.dispatchTo p.1 p.2).finishJob p.2 st
    | none => s.dispatchTo p.1 p.2)

/-- Settle every head, then dispatch while some berth can take a job; nothing is dispatched in the safe state (R602). -/
def State.dispatchFuel : Nat → State → State
  | 0, s => s
  | n + 1, s =>
    let r := s.liveQueues.foldl (fun acc q =>
      let x := State.settleHead q acc.2
      (acc.1 || x.1, x.2)) (false, s)
    if r.1 then State.dispatchFuel n r.2
    else
      match r.2.dispatchOne with
      | some s' => State.dispatchFuel n s'
      | none => r.2

/-- A TRANSMIT job that a fence interrupted goes to the adopting engine once that is free, before any queue (R595). -/
def State.resumeEgress (s : State) : State :=
  s.each s.watch.takeovers (fun t s =>
    match (s.unit t.1).job with
    | some j =>
      if unitKind t.1 == some .egress && s.canAccept t.2 then
        let s := { s with watch := { s.watch with takeovers := s.watch.takeovers.filter (fun x => x != t) } }
        (s.setUnitF t.1 (fun x => { x with job := none })).startJob t.2 { j with rerun := true }
      else s
    | none => s)

/-- The dispatch pass that follows every event that can make a head eligible or a berth free; within a tide start it follows
all the other actions of that cycle. -/
def State.dispatch (s : State) : State :=
  if s.watch.safe || s.tide.starting then s
  else
    let s := s.resumeEgress
    let fuel := 1 + s.liveQueues.foldl (fun n q => n + 2 * sub32 (s.qProd q) (s.qDisp q)) 0
    s.dispatchFuel fuel

/-! ### Posts (R375 to R378, R385, R657) -/

/-- The context of a queue is in the harbourmaster's cache, or is loaded by its post (R396). -/
def State.cacheCount (s : State) : Nat := (s.queues.filter (fun p => p.2.cached)).length

/-- QCTX_LOAD: a context is loaded; with 16,384 cached an unpinned one gives way, a free choice (R396). -/
def State.loadCtx (q : Nat) (s : State) : State :=
  if (s.queue q).cached then s
  else
    let free := (s.queues.filter (fun p => p.2.cached && !s.qFlag p.1 2)).map (fun p => p.1)
    let d := s.draw
    let s := d.2
    let s := if 16384 ≤ s.cacheCount then
        match free[d.1 % (max 1 free.length)]? with
        | some v => s.setQueueF v (fun x => { x with cached := false })
        | none => s
      else s
    ((s.setQueueF q (fun x => { x with cached := true })).bump Reg.HM_QC_MISS_LAST 1).sndCount 0xF00 0x801 1

/-- A post is noted; those whose jobs have all left the queue are forgotten. -/
def QueueSt.posted (x : QueueSt) (disp prod now : Nat) : List (Nat × Nat) :=
  x.posts.filter (fun p => decide (sub32 p.1 (disp + 1) < 2 ^ 31)) ++ [(prod % two32, now)]

/-- A device post of a 64-byte descriptor: made, or abandoned on a full ring (R385, R657). `deps` are the indices it waits
for (R390). Answers whether it was made, and its index. -/
def State.post (q : Nat) (bytes : List Nat) (deps : List (Nat × Nat)) (s : State) : Bool × Nat × State :=
  let p := s.qProd q
  if s.qState q ≠ 1 then (false, p, s)
  else if sub32 p (s.qDone q) = s.qSize q then (false, p, s.setBit Reg.HM_EVENT 7)
  else
    let s := (s.writeMem agentHm (s.qSlot q p) bytes).2
    let s := s.setQf q 20 4 (p + 1)
    let live := deps.filter (fun d => decide (sub32 d.2 (s.qDone d.1) < sub32 (s.qProd d.1) (s.qDone d.1))
      && !(s.queue d.1).completed.contains d.2)
    (true, p, s.setQueueF q (fun x => { x with
      deps := if live.isEmpty then x.deps else x.deps ++ [(p, live)]
      posts := x.posted (s.qDisp q) (p + 1) s.now }))

/-- A descriptor the device posts (R28). -/
def descBytes (op flags ctx seq tide dl s0 s1 s2 comp : Nat) : List Nat :=
  leBytes 2 op ++ leBytes 2 flags ++ leBytes 2 ctx ++ leBytes 2 seq ++ leBytes 6 tide ++ leBytes 2 dl ++ leBytes 8 s0
    ++ leBytes 8 s1 ++ leBytes 8 s2 ++ leBytes 16 0 ++ leBytes 8 comp

/-- HM_DOORBELL (R376 to R378, R380). -/
def State.doorbell (agent q new : Nat) (s : State) : State :=
  let del := s.qClass q = 3
  let reserved := decide (4104 ≤ q) && decide (q < 4128)
  let ok := s.qState q = 1 && !reserved && (!s.qFlag q 1 || del) &&
    (if del then decide (sub32 new (s.qDone q) ≤ sub32 (s.qProd q) (s.qDone q))
     else decide (sub32 new (s.qProd q) ≤ 2 ^ 31) && decide (sub32 new (s.qDone q) ≤ s.qSize q))
  if ok then
    if del then (s.setQf q 28 4 new).sndCount 0xF00 0x802 1
    else
      let s := s.sndCount 0xF00 0x802 1
      (s.setQf q 20 4 new).setQueueF q (fun x => { x with posts := x.posted (s.qDisp q) new s.now })
  else
    let s := (s.whenB (!reserved) (State.setQErr q 1)).bump Reg.HM_DOORBELL_BAD_LAST 1
    (s.setBit Reg.HM_EVENT 0).report 0x1402 agent 6 q

/-- A delivery entry to the host: written and PROD advanced, or with a full ring dropped and its buffer freed (R380);
nothing is delivered in the safe state (R602). -/
def State.deliver (q kind src len buf tide : Nat) (s : State) : State :=
  let drop := fun (s : State) => (s.giveBack hostAgent buf).bump Reg.HM_DELIVER_DROP_LAST 1
  if s.watch.safe || s.qState q ≠ 1 || s.qClass q ≠ 3 || sub32 (s.qProd q) (s.qDone q) = s.qSize q then drop s
  else
    let b := leBytes 2 kind ++ leBytes 2 src ++ leBytes 4 len ++ leBytes 8 buf ++ leBytes 6 tide ++ List.replicate 42 0
    ((s.writeMem agentHm (s.qSlot q (s.qProd q)) b).2.setQf q 20 4 (s.qProd q + 1)).cpend q

/-! ### Meanings -/

/-- HM_DOORBELL: by the host only while ARM is 1 (R100). -/
def execHmDoorbell (agent queue index : Nat) (s : State) : Host.Outcome State Fault Refusal :=
  .next (if s.armBlocks agent 0x100100 then s.usageReg agent 0x100100 else (s.doorbell agent (queue % 1048576) (index % two32)).dispatch)

/-- QCTX_LOAD (R396). -/
def execQctxLoad (queue : Nat) (s : State) : Host.Outcome State Fault Refusal := .next (s.loadCtx queue).dispatch

/-- DISPATCH_DEADLINE_EXPIRY: a job still waiting with a deadline offset completes DEADLINE_MISSED without running (R387). -/
def execDispatchDeadlineExpiry (queue index : Nat) (s : State) : Host.Outcome State Fault Refusal :=
  let j := s.readJob queue index (s.qSlot queue index)
  .next (if s.qState queue = 1 ∧ sub32 index (s.qDisp queue) < sub32 (s.qProd queue) (s.qDisp queue) ∧ j.deadline ≠ 0
      ∧ s.pastDeadline j ∧ !(s.queue queue).completed.contains index ∧ s.canRead (s.qSlot queue index) 64 ≠ .busError
      ∧ !s.badCompletion j.completion then (s.completeUndispatched queue j 0x30).dispatch
    else s)

end Sys2Proof.Machine
end

