-- ==== Sys2Proof/Machine/Samples.lean ====
section
/-! DEFINITION. Pictures in memory as their readers see them (05_decoding.md: R189, R190; 06_encoding.md: R229): planes, samples, side
area and motion records, and prediction from a picture. -/

namespace Sys2Proof.Machine

/-! ### Layout of a picture buffer (R190) -/

/-- Width and height of plane k of a picture; 4:0:0 has no chroma planes. -/
def planeDims (chroma w h k : Nat) : Nat × Nat :=
  if k = 0 then (w, h)
  else if chroma = 0 then (0, 0)
  else (if chroma = 3 then w else cdiv w 2, if chroma = 1 then cdiv h 2 else h)

/-- Bytes of a sample. -/
def sampleBytes (deep : Bool) : Nat := if deep then 2 else 1

/-- The pitch of a plane of a width: its bytes rounded up to a multiple of 256. -/
def pitchOf (deep : Bool) (n : Nat) : Nat := cdiv (n * sampleBytes deep) 256 * 256

/-- Bytes of plane k. -/
def planeBytes (chroma w h : Nat) (deep : Bool) (k : Nat) : Nat :=
  let d := planeDims chroma w h k
  pitchOf deep d.1 * d.2

/-- Byte offset of plane k; offset 3 is where the side area begins. -/
def planeOfs (chroma w h : Nat) (deep : Bool) (k : Nat) : Nat :=
  4096 + ((List.range k).map (planeBytes chroma w h deep)).foldl (· + ·) 0

/-- 16 × 16 blocks of a picture, whose motion records stand at the head of the side area. -/
def mvBlocks (w h : Nat) : Nat := cdiv w 16 * cdiv h 16

/-- Bytes a picture buffer needs for a size, chroma and depth: record, planes and side area. -/
def picBytes (w h chroma : Nat) (deep : Bool) : Nat := planeOfs chroma w h deep 3 + mvBlocks w h * 16 + 65536

/-- The picture record of R189. -/
def picRecord (c st score tide flags struct w h fmt : Nat) (order : Int) (grain : Nat) (hdr : List Nat) : List Nat :=
  let chroma := bits fmt 5 4
  let deep := fmt.testBit 6
  let ofs := fun k => if k ≠ 0 ∧ chroma = 0 then 0 else planeOfs chroma w h deep k
  let pitch := fun k => pitchOf deep (planeDims chroma w h k).1
  [0x44, 0x50, 0x49, 0x43] ++ leBytes 2 c ++ [st % 256, score % 256] ++ leBytes 6 tide ++ [flags % 256, struct % 256]
    ++ leBytes 2 w ++ leBytes 2 h ++ leBytes 2 fmt ++ [0, 0] ++ leBytes 8 (order % 2 ^ 64).toNat ++ leBytes 4 (ofs 0)
    ++ leBytes 4 (ofs 1) ++ leBytes 4 (ofs 2) ++ leBytes 2 (pitch 0) ++ leBytes 2 (pitch 1)
    ++ ((hdr ++ List.replicate 28 0).take 28) ++ List.replicate 4 0 ++ leBytes 8 (grain % two40) ++ List.replicate 40 0

/-! ### Pictures -/

/-- A picture: size, FORMAT, STRUCT, and the sample of a plane at a place. -/
structure Pic where
  w : Nat
  h : Nat
  format : Nat
  struct : Nat
  px : Nat → Nat → Nat → Nat

def Pic.chroma (p : Pic) : Nat := bits p.format 5 4
def Pic.deep (p : Pic) : Bool := p.format.testBit 6

/-- Bits of a sample. -/
def Pic.depth (p : Pic) : Nat := if p.deep then 10 else 8

/-- Width and height of plane k. -/
def Pic.dims (p : Pic) (k : Nat) : Nat × Nat := planeDims p.chroma p.w p.h k

/-- A place held within a length. -/
def within (n : Nat) (x : Int) : Nat := (min (max x 0) ((n : Int) - 1)).toNat

/-- The sample of plane k at a place; places beyond an edge count as the edge sample. -/
def Pic.at (p : Pic) (k : Nat) (x y : Int) : Nat := p.px k (within (p.dims k).1 x) (within (p.dims k).2 y)

/-- Mid-grey: every sample of every component at half scale (R208). -/
def Pic.grey (w h format : Nat) : Pic :=
  { w, h, format, struct := 0, px := fun _ _ _ => if format.testBit 6 then 512 else 128 }

/-- A picture of planes in raster order; a sample is held to its depth. -/
def Pic.ofPlanes (w h format struct : Nat) (planes : List (List Nat)) : Pic :=
  { w, h, format, struct,
    px := fun k x y =>
      (planes.getD k []).getD (y * (planeDims (bits format 5 4) w h k).1 + x) 0 % (if format.testBit 6 then 1024 else 256) }

/-- A byte of the module’s memory as an engine’s sample path reads it. -/
def State.memByte (s : State) (a : Nat) : Nat := Memory.read s.mem a

/-- The picture in the buffer at an address, as its record describes it (R189, R190). -/
def State.loadPic (s : State) (a : Nat) : Pic :=
  let fmt := s.rdM (a + 20) 2
  let deep := fmt.testBit 6
  { w := s.rdM (a + 16) 2, h := s.rdM (a + 18) 2, format := fmt, struct := s.memByte (a + 15)
    px := fun k x y =>
      s.rdM (a + s.rdM (a + 32 + 4 * k) 4 + (if k = 0 then s.rdM (a + 44) 2 else s.rdM (a + 46) 2) * y + sampleBytes deep * x)
        (sampleBytes deep) % (if deep then 1024 else 256) }

/-- The lines of a picture as bytes, each with its offset in the buffer; 10-bit samples take 16 bits, bits 15:10 zero (R190). -/
def Pic.lines (p : Pic) : List (Nat × List Nat) :=
  (List.range 3).flatMap (fun k =>
    let d := p.dims k
    (List.range (if d.1 = 0 then 0 else d.2)).map (fun y =>
      (planeOfs p.chroma p.w p.h p.deep k + pitchOf p.deep d.1 * y,
        (List.range d.1).flatMap (fun x => leBytes (sampleBytes p.deep) (p.px k x y)))))

/-- Write the planes of a picture into a buffer of a size; the bytes between width and pitch keep what they held. No byte is written
beyond the buffer. -/
def State.storePic (u a size : Nat) (p : Pic) (s : State) : State :=
  s.each p.lines (fun l s => if l.1 + l.2.length ≤ size then (s.writeMem u (a + l.1) l.2).2 else s)

/-! ### Prediction (R207, R229, R236) -/

/-- The sample of plane k that a vector in eighths of a luma sample leads to: the whole-sample position where it has no fraction,
else the standard’s interpolation of the samples round it. -/
def Pic.predict (p : Pic) (codec k : Nat) (x y : Nat) (mx my : Int) : Nat :=
  let ux : Int := if k ≠ 0 ∧ p.chroma ≠ 3 then 16 else 8
  let uy : Int := if k ≠ 0 ∧ p.chroma = 1 then 16 else 8
  let ix := (x : Int) + mx / ux
  let iy := (y : Int) + my / uy
  if mx % ux = 0 ∧ my % uy = 0 then p.at k ix iy
  else
    Config.interpolate codec (k, (mx % ux * (16 / ux)).toNat, (my % uy * (16 / uy)).toNat)
      ((List.range 64).map (fun i => p.at k (ix + (i % 8 : Nat) - 3) (iy + (i / 8 : Nat) - 3))) % 2 ^ p.depth

/-! ### Motion records (R229) -/

/-- A motion record: vector, distance in tides, class; and the same for a second prediction. -/
structure MvRec where
  x : Int
  y : Int
  dist : Nat
  cls : Nat
  x2 : Int
  y2 : Int
  dist2 : Nat
  cls2 : Nat
  deriving DecidableEq, Repr

def MvRec.intra : MvRec := { x := 0, y := 0, dist := 0, cls := 0, x2 := 0, y2 := 0, dist2 := 0, cls2 := 0 }

/-- A signed 16-bit value as two bytes. -/
def s16Bytes (x : Int) : List Nat := leBytes 2 (x % 65536).toNat

/-- The 16 bytes of a motion record. -/
def MvRec.bytes (m : MvRec) : List Nat :=
  s16Bytes m.x ++ s16Bytes m.y ++ leBytes 2 m.dist ++ [m.cls % 256, 0]
    ++ s16Bytes m.x2 ++ s16Bytes m.y2 ++ leBytes 2 m.dist2 ++ [m.cls2 % 256, 0]

/-- Where the side area of the picture in a buffer begins. -/
def State.sideOf (s : State) (a : Nat) : Nat :=
  let fmt := s.rdM (a + 20) 2
  a + planeOfs (bits fmt 5 4) (s.rdM (a + 16) 2) (s.rdM (a + 18) 2) (fmt.testBit 6) 3

/-- The motion record of the 16 × 16 block i of the picture in a buffer. -/
def State.mvAt (s : State) (a i : Nat) : MvRec :=
  let b := s.sideOf a + 16 * i
  { x := signed 16 (s.rdM b 2), y := signed 16 (s.rdM (b + 2) 2), dist := s.rdM (b + 4) 2, cls := s.memByte (b + 6)
    x2 := signed 16 (s.rdM (b + 8) 2), y2 := signed 16 (s.rdM (b + 10) 2), dist2 := s.rdM (b + 12) 2, cls2 := s.memByte (b + 14) }

end Sys2Proof.Machine
end

