-- ==== Sys2Proof/Machine/Booking.lean ====
section
/-! DEFINITION. Admission (10_harbourmaster.md: R381 to R384, R401 to R408): charges, loads and limits of a booking, the
commands on queue contexts, and the commands of HM_BOOK_CMD. -/

namespace Sys2Proof.Machine

/-! ### Pictures and groups (R155, R158, R190) -/

/-- A picture size within R155 for a gantry, or for a gantry group. -/
def sizeOk (grp dec : Bool) (codec w h : Nat) : Bool :=
  let top := if grp then 8192 else 4096
  let most := if grp then 35651584 else 9437184
  decide (64 ≤ w) && decide (w ≤ top) && decide (64 ≤ h) && decide (h ≤ top) && decide (w * h ≤ most)
    && !(grp && codec ≤ 2) && !(codec = 1 && dec && (decide (1920 < w) || decide (1152 < h)))

/-- A length dealt to `n` members in whole runs of 64 samples, as evenly as they go, the longer runs first (R158 and its example). -/
def dealt (len n : Nat) : List Nat :=
  let c := cdiv len 64
  let edge := fun i => min len (64 * (c / max 1 n * i + min i (c % max 1 n)))
  (List.range n).map (fun i => edge (i + 1) - edge i)

/-- The members' shares of a picture (R158): by slice rows of the picture, by tile columns, by picture the whole. -/
def State.shares (s : State) (gt w h : Nat) : List (Nat × Nat) :=
  if unitKind gt == some .group then
    let n := (s.leafList gt).length
    match s.split gt with
    | 0 => (dealt h n).map (fun y => (w, y))
    | 1 => (dealt w n).map (fun x => (x, h))
    | _ => [(w, h)]
  else [(w, h)]

/-- A share of a picture lies within the one-gantry limits of R155. -/
def shareOk (w h : Nat) : Bool :=
  decide (64 ≤ w) && decide (w ≤ 4096) && decide (64 ≤ h) && decide (h ≤ 4096) && decide (w * h ≤ 9437184)

/-- Every share lies within the one-gantry limits (R158). -/
def sharesOk (l : List (Nat × Nat)) : Bool := l.all (fun p => shareOk p.1 p.2)

/-- Size and codec fit the gantry berth (code 3 of R407, check 5 of R187 and R219). -/
def State.sizeFits (s : State) (c : Nat) : Bool :=
  let g := s.gtBerth c
  sizeOk (unitKind g == some .group) (s.ctxKind c == 1) (s.codec c) (s.ctxW c) (s.ctxH c)
    && sharesOk (s.shares g (s.ctxW c) (s.ctxH c))

/-- Samples of the largest share. -/
def State.maxShare (s : State) (c : Nat) : Nat :=
  ((s.shares (s.gtBerth c) (s.ctxW c) (s.ctxH c)).map (fun p => p.1 * p.2)).foldl max 0

/-! ### Rates (R159, R226, R270) -/

/-- Luma rows of a block row, and the side of a unit (R279, R281). -/
def rowLines (codec : Nat) : Nat := if codec = 2 then 16 else 64

/-- Rows R of R279 over all shares. -/
def State.rowCount (s : State) (c : Nat) : Nat :=
  ((s.shares (s.gtBerth c) (s.ctxW c) (s.ctxH c)).map (fun p => cdiv p.2 (rowLines (s.codec c)))).foldl (· + ·) 0

/-- per_picture of R270 for a rate, cadence divisor and remainder: the amount and the new remainder. -/
def State.perPicture (s : State) (x d rem : Nat) : Nat × Nat :=
  let n := x * s.rateDen * d + rem
  (n / max 1 s.rateNum % two40, n % max 1 s.rateNum)

/-- Rate of an effort in 10⁶ weighted samples per second (R226). -/
def effortRate (e : Nat) : Nat := [1000, 800, 650, 500, 400, 320, 250, 200].getD e 200

/-- References searched at an effort (R226). -/
def effortRefs (e : Nat) : Nat := [1, 1, 2, 2, 3, 3, 4, 4].getD e 4

/-- Is the entropy coder of a stream CABAC (R159, R177)? An AVC decode is booked as CABAC. -/
def State.cabac (s : State) (c : Nat) : Bool :=
  s.codec c = 3 || (s.codec c = 2 && (s.ctxKind c = 1 || s.sf c 26 1 % 16 != 0))

/-- Bins of a picture in 1/768ths: decode S × W × HM_TL_DEC_BINS, encode per_picture(MAX_RATE) × HM_TL_ENC_BINS (R401). -/
def State.bins768 (s : State) (c : Nat) : Nat :=
  if s.ctxKind c = 1 then s.samples3 c * s.fld Reg.HM_TL_DEC_BINS 15 0
  else 3 * (s.perPicture (s.sf c 44 4) (s.cadD c) 0).1 * s.fld Reg.HM_TL_ENC_BINS 15 0

/-- Tally charge, ns: bins over the coder’s rate, divided by the leaf count and rounded up (R401). -/
def State.tallyCharge (s : State) (c : Nat) : Nat :=
  cdiv (s.bins768 c * 10) (768 * (if s.cabac c then 32 else 16) * max 1 (s.leafList (s.tlBerth c)).length)

/-- A context uses the customer window (WINDOW.USE_UCW, R268). -/
def State.usesWindow (s : State) (c : Nat) : Bool := (s.sf c 98 1).testBit 0

/-- Pilot cycles of a picture (R267). -/
def State.pilotCycles (s : State) (c : Nat) : Nat :=
  1200 + 150 * s.rowCount c + (if s.usesWindow c then 2000 * (s.rowCount c + 1) else 0)

/-! ### The rate fields (R268, R269, R281) -/

/-- Codec maximum quantiser. -/
def qMax (codec : Nat) : Int := if codec = 4 then 255 else 51

/-- A quantiser byte: s8 for AVC and HEVC, u8 for AV1. -/
def qVal (codec b : Nat) : Int := if codec = 4 then (b : Int) else signed 8 b

/-- B_arr and B_avg with remainders 0 (R270). -/
def State.arrivals (s : State) (c : Nat) : Nat × Nat :=
  let d := s.cadD c
  let t := (s.perPicture (s.sf c 88 4) d 0).1
  let m := (s.perPicture (s.sf c 44 4) d 0).1
  match s.sf c 84 1 with
  | 0 => (t, t)
  | 1 => (m, t)
  | _ => (m, m)

/-- Beff = min(BUFFER_SIZE, 8 × (BS_POOL buffer size − 64)) (R269). -/
def State.bEff (s : State) (c : Nat) : Nat := min (s.sf c 92 4) (8 * (s.poolSize (s.sf c 20 2) - 64))

/-- A slice or tile begins in row i of a share (R281). -/
def State.rowStarts (s : State) (c i : Nat) : Bool :=
  i = 0 || (s.codec c != 4 && s.sf c 35 1 != 0 && decide (i % s.sf c 35 1 = 0))

/-- Φ_intra: the floor of the whole picture with every unit at the DC-only figure (R269, R281). -/
def State.phiIntra (s : State) (c : Nat) : Nat :=
  let u := rowLines (s.codec c)
  let dc := if s.codec c = 2 then 4 else 6
  ((s.shares (s.gtBerth c) (s.ctxW c) (s.ctxH c)).map (fun p =>
    ((List.range (cdiv p.2 u)).map (fun i =>
      16 + dc * cdiv p.1 u + (if s.rowStarts c i then 320 else 0))).foldl (· + ·) 0)).foldl (· + ·) 0

/-- The conditions of R269. -/
def State.rateOk (s : State) (c : Nat) : Bool :=
  let k := s.codec c
  let mode := s.sf c 84 1
  let lo := if k = 4 then 0 else if s.depth10 c then -12 else 0
  let top := if s.sf c 86 1 = 0 then qMax k else qVal k (s.sf c 86 1)
  let qmin := qVal k (s.sf c 85 1)
  let cq := qVal k (s.sf c 87 1)
  let inScale := fun q => decide (lo ≤ q) && decide (q ≤ qMax k)
  let target := s.sf c 88 4
  let pm := s.sf c 96 2
  let step := s.sf c 99 1
  let a := s.arrivals c
  decide (mode ≤ 2) && decide (qmin ≤ cq) && decide (cq ≤ top) && decide (qmin ≤ top)
    && (decide (mode = 2) || (decide (1000 ≤ target) && decide (target ≤ s.sf c 44 4)))
    && decide (100 ≤ pm) && decide (pm ≤ 900) && decide (1 ≤ step) && decide (step ≤ 12) && decide (s.sf c 104 2 ≤ 1000)
    && inScale qmin && inScale cq && (s.sf c 86 1 = 0 || inScale top)
    && decide (a.1 ≤ s.bEff c / 2) && decide (s.phiIntra c + 2048 ≤ a.2)

/-! ### Layout cost (R302) -/

/-- Length of a layer's destination on one axis once clipped to the output. -/
def clipLen (pos len out : Int) : Nat := (min (pos + len) out - max pos 0).toNat

/-- Cost of a layer per sample, in quarters (R302). -/
def layerCost4 (type flags : Nat) : Nat :=
  match type with
  | 1 => 4 + (if bits flags 1 0 = 2 then 2 else 0) + (if bits flags 3 2 = 0 then 2 else 0)
  | 2 | 3 => 4 + (if bits flags 1 0 = 2 then 2 else 0)
  | 4 => 2
  | 5 => 1
  | _ => 0

/-- Cost of the layout object at an address in quarter samples: the output area and its layers (R302). -/
def State.layoutCost4 (s : State) (a : Nat) : Nat :=
  let w := s.lf a 0 2
  let h := s.lf a 2 2
  4 * w * h + ((List.range (s.lf a 6 1)).map (fun i =>
    clipLen (signed 16 (s.layerF a i 4 2)) (s.layerF a i 8 2) w * clipLen (signed 16 (s.layerF a i 6 2)) (s.layerF a i 10 2) h
      * layerCost4 (s.layerF a i 0 1) (s.layerF a i 1 1))).foldl (· + ·) 0

/-- Cost an output is booked at: the greatest among its layout and its 16 storm layouts, in quarter samples (R302). -/
def State.outputCost4 (s : State) (n p : Nat) : Nat :=
  let at_ := fun n => s.layoutAddr n (s.layoutCopy n p)
  let sb := s.lf (at_ n) 12 2
  max (s.layoutCost4 (at_ n)) (if sb = 0xFFFF then 0
    else ((List.range 16).map (fun i => s.layoutCost4 (at_ (sb + i)))).foldl max 0)

/-- The presentation tide a booking made now composes for at the earliest. -/
def State.bookP (s : State) : Nat := s.tideNum + 2 + s.presentL

/-! ### The flow and the ports (R328, R343, R348) -/

/-- Line rate of port k in bit/s under NET_CFG (R328). -/
def State.lineRate (s : State) (k : Nat) : Nat :=
  match s.fld Reg.NET_CFG (2 * (k / 4) + 1) (2 * (k / 4)) with
  | 1 => if k % 4 = 0 then 100000000000 else 0
  | 2 => 25000000000
  | _ => 0

/-- A flow record that refuses its encode context (R343). -/
def State.flowBad (s : State) (f codec : Nat) : Bool :=
  let fl := s.ff f 0 1
  let path := fun o => decide (7 < s.ff f o 1) || decide (1 < s.ff f (o + 1) 1) || decide (63 < s.ff f (o + 2) 1) || s.ff f (o + 32) 16 != 0
  decide (4095 < f) || decide (8 ≤ fl) || fl % 4 = 3 || decide (7 < s.ff f 1 1) || path 32 || (fl.testBit 2 && path 80)
    || (fl % 4 = 0 && (decide (s.ff f 2 1 < 96) || decide (127 < s.ff f 2 1))) || s.ff f 3 1 != 0
    || decide (s.ff f 12 2 < 576) || decide (9000 < s.ff f 12 2) || decide (8191 < s.ff f 14 2) || decide (8191 < s.ff f 16 2)
    || s.ff f 18 2 != 0 || decide (0xFFFFF < s.ff f 20 4) || s.ff f 28 4 != 0 || (codec = 4 && (fl % 4 = 1 || fl % 4 = 2))

/-- Ports a flow uses. -/
def State.flowPorts (s : State) (f : Nat) : List Nat :=
  s.ff f 32 1 :: (if (s.ff f 0 1).testBit 2 then [s.ff f 80 1] else [])

/-- PACE of a flow, bit/s: 0 selects 1.1 × MAX_RATE (R343). -/
def State.flowPace (s : State) (f c : Nat) : Nat := if s.ff f 24 4 = 0 then s.sf c 44 4 * 11 / 10 else s.ff f 24 4

/-! ### Sums over the bookings (R403, R405, R406) -/

/-- The load of R403 over weighted entries (d, φ, x): the sum over divisors of the largest sum of one phase. -/
def cadenceSum (l : List (Nat × Nat × Nat)) : Nat :=
  ((List.range 17).map (fun d => ((List.range 16).map (fun p =>
    ((l.filter (fun e => e.1 = d && e.2.1 = p)).map (fun e => e.2.2)).foldl (· + ·) 0)).foldl max 0)).foldl (· + ·) 0

/-- Charges of all bookings, with divisor and phase; the window’s work of every tide has divisor 1. -/
def State.chargesOn (s : State) (b : Nat) : List (Nat × Nat × Nat) :=
  s.books.flatMap (fun k => (k.2.charges.filter (fun c => c.1 = b)).map (fun c =>
    if c.2.2 = 1 then (1, 0, c.2.1) else (k.2.divisor, k.2.phase, c.2.1)))

/-- Load of a berth, ns per tide (R403). -/
def State.load (s : State) (b : Nat) : Nat := cadenceSum (s.chargesOn b)

/-- f of R402, per mille, and U, ns. -/
def State.bookFrac (s : State) : Nat := min 900 (950 - cdiv (1000 * s.rd Reg.TIDE_GUARD) (max 1 s.pb))
def State.usable (s : State) : Nat := s.pb * s.bookFrac / 1000

/-- Traffic of enabled lighter queues with a RATE (R405). -/
def State.lighterTraffic (s : State) : Nat :=
  ((s.queues.filter (fun q => s.qClass q.1 = 1 && s.qFlag q.1 0)).map (fun q => s.qRate q.1 * 1000 * s.pb / 256000000)).foldl (· + ·) 0

/-- Booked memory traffic per tide, bytes, the reserve included (R405). -/
def State.traffic (s : State) : Nat :=
  cadenceSum (s.books.map (fun k => (k.2.divisor, k.2.phase, k.2.traffic))) + s.fld Reg.HM_BW_RESERVE 7 0 * s.pb
    + s.lighterTraffic

/-- Booked energy per tide, µJ, encodes at EFFORT_MIN (R406). -/
def State.energyBooked (s : State) : Nat :=
  cadenceSum (s.books.flatMap (fun k => k.2.works.map (fun w =>
    (if w.1 = 1 then 1 else k.2.divisor, if w.1 = 1 then 0 else k.2.phase,
      if w.1 = 0x0201 then s.estimate w.2.1 (w.2.2 * rel100 (min k.2.effortMin k.2.effortMax))
      else s.estimate w.2.1 w.2.2))))

/-- Booked rate of an engine and of a port, bit/s (R348). -/
def State.engineRate (s : State) (e : Nat) : Nat :=
  ((s.books.filter (fun k => k.2.rate != 0 && k.2.engine = e)).map (fun k => k.2.rate)).foldl (· + ·) 0
def State.portRate (s : State) (p : Nat) : Nat :=
  ((s.books.filter (fun k => k.2.ports.contains p)).map (fun k => k.2.rate)).foldl (· + ·) 0

/-! ### Levels (R175) -/

/-- Levels of a codec, lowest first, as the standards give them (assumption 32): code, largest picture in macroblocks or luma samples,
most of these per second, and bits per second. -/
def levelsOf (codec : Nat) : List (Nat × Nat × Nat × Nat) :=
  match codec with
  | 2 => [(10, 99, 1485, 64000), (9, 99, 1485, 128000), (11, 396, 3000, 192000), (12, 396, 6000, 384000), (13, 396, 11880, 768000),
      (20, 396, 11880, 2000000), (21, 792, 19800, 4000000), (22, 1620, 20250, 4000000), (30, 1620, 40500, 10000000),
      (31, 3600, 108000, 14000000), (32, 5120, 216000, 20000000), (40, 8192, 245760, 20000000), (41, 8192, 245760, 50000000),
      (42, 8704, 522240, 50000000), (50, 22080, 589824, 135000000), (51, 36864, 983040, 240000000), (52, 36864, 2073600, 240000000)]
  | 3 => [(30, 36864, 552960, 128000), (60, 122880, 3686400, 1500000), (63, 245760, 7372800, 3000000), (90, 552960, 16588800, 6000000),
      (93, 983040, 33177600, 10000000), (120, 2228224, 66846720, 12000000), (123, 2228224, 133693440, 20000000),
      (150, 8912896, 267386880, 25000000), (153, 8912896, 534773760, 40000000), (156, 8912896, 1069547520, 60000000),
      (180, 35651584, 1069547520, 60000000), (183, 35651584, 2139095040, 120000000)]
  | 4 => [(0, 147456, 4423680, 1500000), (1, 278784, 8363520, 3000000), (4, 665856, 19975680, 6000000), (5, 1065024, 31950720, 10000000),
      (8, 2359296, 70778880, 12000000), (9, 2359296, 141557760, 20000000), (12, 8912896, 267386880, 30000000),
      (13, 8912896, 534773760, 40000000), (14, 8912896, 1069547520, 60000000), (15, 8912896, 1069547520, 60000000),
      (16, 35651584, 1069547520, 60000000)]
  | _ => []

/-- Largest width and height of an AV1 level. -/
def av1Dims (code : Nat) : Nat × Nat :=
  match code with
  | 0 => (2048, 1152)
  | 1 => (2816, 1584)
  | 4 => (4352, 2448)
  | 5 => (5504, 3096)
  | 8 | 9 => (6144, 3456)
  | 16 => (16384, 8704)
  | _ => (8192, 4352)

/-- Bit rate of a profile against Main, in quarters. -/
def rateQuarters (codec prof : Nat) : Nat :=
  match codec with
  | 2 => if prof = 2 then 5 else 4
  | 3 => if prof ≤ 1 then 4 else if prof = 2 then 8 else 10
  | _ => if prof = 1 then 8 else 4

/-- A level’s limits hold for a context (R175). -/
def State.levelFits (s : State) (c : Nat) (l : Nat × Nat × Nat × Nat) : Bool :=
  let mw := if s.codec c = 2 then cdiv (s.ctxW c) 16 else s.ctxW c
  let mh := if s.codec c = 2 then cdiv (s.ctxH c) 16 else s.ctxH c
  let dims := if s.codec c = 4 then decide (mw ≤ (av1Dims l.1).1) && decide (mh ≤ (av1Dims l.1).2) else decide (max mw mh * max mw mh ≤ 8 * l.2.1)
  decide (mw * mh ≤ l.2.1) && dims && decide (mw * mh * s.rateNum ≤ l.2.2.1 * (s.rateDen * s.cadD c))
    && decide (4 * s.sf c 44 4 ≤ l.2.2.2 * rateQuarters (s.codec c) (s.sf c 26 1 % 16))

/-- The lowest level whose limits hold, Main tier (R175). -/
def State.levelOf (s : State) (c : Nat) : Option Nat := ((levelsOf (s.codec c)).find? (s.levelFits c)).map (fun l => l.1)

/-- A supported level holds (R175). -/
def State.levelHolds (s : State) (c : Nat) : Bool := (s.levelOf c).isSome

/-! ### Building a booking (R401, R405, R428) -/

/-- A pilot serves this many attached contexts (R264): those not STOPPED with a pilot charge on it. -/
def State.attached (s : State) (p : Nat) : Nat :=
  (s.books.filter (fun k => decide (k.1 < 4096) && s.ctxState k.1 != 0 && k.2.charges.any (fun c => c.1 = p && c.2.2 = 0))).length

/-- Contexts booked on a leaf pilot. -/
def State.bookedOn (s : State) (p : Nat) : Nat :=
  (s.books.filter (fun k => k.2.charges.any (fun c => c.1 = p && c.2.2 = 0))).length

/-- The leaf pilot with the fewest, of those the lowest ID (R264). -/
def leastOf (f : Nat → Nat) : List Nat → Nat
  | [] => 0
  | [p] => p
  | p :: q :: l => let r := leastOf f (q :: l); if f p < f r || (f p == f r && decide (p ≤ r)) then p else r

/-- Charge and work of one COMPOSE of a layout on a lane for presentation tide P: ns and cost in 1/300 samples (R302, R401, R428). -/
def State.composeAt (s : State) (n p : Nat) : Nat × Nat :=
  let c := s.outputCost4 n p
  (cdiv c 16, c * 75)
def State.composeCharge (s : State) (n : Nat) : Nat × Nat := s.composeAt n s.bookP

/-- k of R405 for a depth. -/
def depthK (deep : Bool) : Nat := if deep then 2 else 1

/-- The booking of a stream context (R401, R405, R428). -/
def State.mkBooking (s : State) (c : Nat) : Booking :=
  let gt := s.gtBerth c
  let tl := s.tlBerth c
  let s3 := s.samples3 c
  let share3 := s.maxShare c * weight3 (s.chroma c)
  let k := depthK (s.depth10 c)
  let tc := s.tallyCharge c
  let tw := (if s.cabac c then 2 else 3, s.bins768 c * 300 / 768)
  let tt := s.bins768 c / 1536
  let b := { Booking.reset with divisor := s.cadD c, phase := s.cadPhi c }
  if s.ctxKind c = 1 then
    { b with
      charges := [(gt, cdiv share3 3, 0x0102), (tl, tc, 0x0101)]
      traffic := cdiv (6 * s3 * k) 3 + tt
      works := [(0x0102, 0, s3 * 100), (0x0101, tw)] }
  else
    let e := s.sf c 28 1
    let emax := bits e 2 0
    let cyc := s.pilotCycles c
    let pl := leastOf s.bookedOn (s.leafList (s.plBerth c))
    let f := s.outFlow c
    let lay := s.layoutOf c
    let cc := if lay = 0xFFFF then (0, 0) else s.composeCharge lay
    let win := s.usesWindow c
    { b with
      charges := [(gt, cdiv (share3 * 1000) (3 * effortRate emax), 0x0201), (tl, tc, 0x0202), (pl, cdiv (cyc * 10) 12, 0)]
        ++ (if win then [(pl, cdiv 20000 12, 1)] else [])
        ++ (if lay = 0xFFFF then [] else [(s.laneOf lay, cc.1, 0x0301)])
      traffic := cdiv ((3 + 2 * effortRefs emax) * s3 * k) 3 + tt + (if lay = 0xFFFF then 0 else cdiv (2 * k * cc.2) 300)
      works := [(0x0201, 1, s3), (0x0202, tw), (0, 4, cyc * 300)] ++ (if win then [(1, 4, 600000)] else [])
        ++ (if lay = 0xFFFF then [] else [(0x0301, 5, cc.2)])
        ++ (if f = 0xFFFF then [] else [(0x0401, 7, 300 * ((s.perPicture (s.sf c 44 4) (s.cadD c) 0).1 / 8))])
      effortMin := bits e 6 4
      effortMax := emax
      engine := if f = 0xFFFF then 0 else s.flowEngine f
      ports := if f = 0xFFFF then [] else s.flowPorts f
      rate := if f = 0xFFFF then 0 else s.flowPace f c }

/-- Berths a booking takes a place on: those of its charges, the pilot berth itself, and the egress engine. -/
def State.bookBerths (s : State) (c : Nat) (b : Booking) : List Nat :=
  ((b.charges.filter (fun x => 1 < x.2.2)).map (fun x => x.1)
    ++ (if c < 4096 ∧ s.ctxKind c = 2 then [s.plBerth c] else []) ++ (if b.rate ≠ 0 then [b.engine] else [])).eraseDups

/-- Berth fields of a context, with the leaf type each must have (R407, code 2). -/
def State.berthFields (s : State) (c : Nat) : List (Nat × Kind) :=
  [(s.gtBerth c, Kind.gantry), (s.tlBerth c, Kind.tally)] ++
    (if s.ctxKind c = 2 then
      [(s.plBerth c, Kind.pilot)]
        ++ (if s.outFlow c = 0xFFFF || s.flowBad (s.outFlow c) (s.codec c) then [] else [(s.flowEngine (s.outFlow c), Kind.egress)])
        ++ (if s.layoutOf c = 0xFFFF then [] else [(s.laneOf (s.layoutOf c), Kind.lane)])
    else [])

/-- A pair of contexts whose gantries share a tide under R234 and R390: a sibling lead and a follower. -/
def State.sibPairs (s : State) : List (Nat × Nat) :=
  let encs := (s.books.map (fun k => k.1)).filter (fun c => decide (c < 4096) && s.ctxKind c = 2 && s.sf c 38 2 % 1024 != 0)
  encs.flatMap (fun a => (encs.filter (fun b => b != a && s.sf b 38 2 % 1024 = s.sf a 38 2 % 1024
    && (s.sf a 27 1).testBit 3)).map (fun b => (s.gtBerth a, s.gtBerth b)))

/-- With L = 2, the lane of a display output and the gantries of the streams its layout shows (R129, R390). -/
def State.showPairs (s : State) : List (Nat × Nat) :=
  if s.presentL ≠ 2 then []
  else
    (s.books.filter (fun k => decide (0xF000 ≤ k.1))).flatMap (fun k =>
      let n := s.composeLayout k.1
      let a := s.layoutAddr n (s.layoutCopy n s.bookP)
      ((List.range (s.lf a 6 1)).filter (fun i => s.layerF a i 0 1 = 1 && decide (s.layerF a i 20 2 < 4096)
        && s.books.any (fun b => b.1 = s.layerF a i 20 2))).map (fun i => (s.laneOf n, s.gtBerth (s.layerF a i 20 2))))

/-- Some dependent pair's loads sum above U (R404). -/
def State.pairsOver (s : State) : Bool :=
  (s.sibPairs ++ s.showPairs).any (fun p => p.1 != p.2 && decide (s.usable < s.load p.1 + s.load p.2))

/-- Loads of one kind of berth above U. -/
def State.overLoad (s : State) (b : Booking) (p : Nat → Bool) : Bool :=
  b.charges.any (fun c => p c.2.2 && decide (s.usable < s.load c.1))

/-- The first limit that a booking in place breaks: codes 4 to 12 of R407. -/
def State.limitCode (s : State) (c : Nat) (b : Booking) : Nat :=
  let enc := decide (c < 4096) && s.ctxKind c = 2
  if s.overLoad b (fun o => o = 0x0102 || o = 0x0201) then 4
  else if s.overLoad b (fun o => o = 0x0101 || o = 0x0202) then 5
  else if enc && (!s.rateOk c || s.overLoad b (fun o => o ≤ 1)
      || b.charges.any (fun x => x.2.2 = 0 && decide (512 < s.bookedOn x.1))) then 6
  else if s.overLoad b (fun o => o = 0x0301) then 7
  else if enc && s.outFlow c != 0xFFFF && (s.flowBad (s.outFlow c) (s.codec c) || decide (50000000000 < s.engineRate b.engine)
      || b.ports.any (fun p => s.lineRate p = 0 || decide (95 * s.lineRate p < 100 * s.portRate p))) then 8
  else if 960 * s.pb < s.traffic then 9
  else if 9 * s.refill < 10 * s.energyBooked then 10
  else if enc && !s.levelHolds c then 11
  else if s.pairsOver then 12
  else 0

/-- The context of a stream queue or display compose queue is set up and enabled (R384). -/
def State.streamQueue (q : Nat) (producer : Bool) (s : State) : State :=
  let s := ((((s.setQf q 0 8 (s.rd40 Reg.HM_SCTX_BASE_LO + 0x100000 + q * 1024)).setQf q 8 1 0).setQf q 9 1 4).setQf q 11 1 4).setQf
    q 12 2 0xFFF
  let s := ((((s.setQFlag q 1 producer).setQFlag q 2 true).setQFlag q 3 false).setQFlag q 4 false)
  let s := ((((s.setQf q 14 1 0).setQf q 32 4 0).setQf q 36 4 0).setQf q 56 4 0).setQf q 60 4 0
  let s := (s.setQf q 19 1 0).queueStart q
  s.setQueueF q (fun x => { x with cached := true })

/-- Enter a booking: refused, it reserves nothing (R407). -/
def State.enterBooking (c q : Nat) (producer : Bool) (b : Booking) (s : State) : Nat × State :=
  let t := s.setBook c b
  let code := t.limitCode c b
  if code ≠ 0 then (code, s)
  else (0, ((t.each (s.bookBerths c b) (fun u s => s.reserve u c)).streamQueue q producer).afterSpares s)

/-- BOOK of a stream context (R407). -/
def State.bookCtx (c : Nat) (s : State) : Nat × State :=
  if !(s.ctxKind c = 1 || s.ctxKind c = 2) || s.ctxState c != 0 || s.books.any (fun k => k.1 = c) then (1, s)
  else if (s.berthFields c).any (fun f => (unitKind f.1).isNone || s.leafOf f.1 != some f.2 || !s.bookable f.1) then (2, s)
  else if !s.sizeFits c then (3, s)
  else
    let producer := if s.ctxKind c = 1 then s.sf c 18 1 % 8 != 2 else s.layoutOf c != 0xFFFF
    s.enterBooking c c producer (s.mkBooking c)

/-- The layout a display output is booked with: the one in force, or before the first tide the one staged for it (R107, R408). -/
def State.outLayout (s : State) (n : Nat) : Nat :=
  let o := Reg.DISP_OUT_LAYOUT + 0x100 * n
  if s.running then s.fld o 15 0 else (SMap.get (fun k => BitVec.ofNat 32 (s.rd k)) s.staged o).toNat % 65536

/-- BOOK_OUTPUT: the lane of the output's layout; an output with no layout books no lane (R407). -/
def State.bookOutput (n : Nat) (s : State) : Nat × State :=
  let c := 0xF000 + n
  let lay := s.outLayout n
  if 7 < n || s.books.any (fun k => k.1 = c) then (1, s)
  else
    let b := { Booking.reset with divisor := s.dispDiv n, phase := 0 }
    if 1023 < lay then s.enterBooking c (4096 + n) true b
    else
      let lane := s.laneOf lay
      if s.leafOf lane != some .lane || !s.bookable lane then (2, s)
      else
        let cc := s.composeCharge lay
        let deep := (s.lf (s.layoutAddr lay (s.layoutCopy lay s.bookP)) 4 2).testBit 6
        s.enterBooking c (4096 + n) true
          { b with charges := [(lane, cc.1, 0x0301)], traffic := cdiv (2 * depthK deep * cc.2) 300, works := [(0x0301, 5, cc.2)] }

/-- A booking ends: its context leaves every berth (R62, R408). -/
def State.unbook (c : Nat) (s : State) : State :=
  let s' := { s with books := SMap.del c s.books }
  let us := (s.units.filter (fun p => p.2.ctxs.contains c || p.2.joining.contains c)).map (fun p => p.1)
  (s'.each us (fun u s => s.unbind u c)).afterSpares s

/-- The presentation tide of the compositions of this tide (R128, R300). -/
def State.laneP (s : State) (c : Nat) : Nat := if 0xF000 ≤ c then s.tideNum + 1 else s.tideNum + 2 + s.presentL

/-- A booked context or output leaves one lane and takes another. -/
def State.moveLane (c : Nat) (old new : List (Nat × Nat × Nat)) (s : State) : State :=
  let from_ := old.map (fun x => x.1)
  let to_ := new.map (fun x => x.1)
  (s.each (from_.filter (fun u => !to_.contains u)) (fun u s => s.unbind u c)).each
    (to_.filter (fun u => !from_.contains u)) (fun u s => s.reserve u c)

/-- The lane’s booking of a context or output follows the layout in force. Where the lane’s load would exceed U, or the layout’s lane
cannot be booked, the compositions are carried out unbooked (R408). -/
def State.followLayout (c : Nat) (s : State) : State :=
  let b := s.book c
  let n := s.composeLayout c
  let isLane := fun (x : Nat × Nat × Nat) => x.2.2 == 0x0301
  let old := b.charges.filter isLane
  let rest := b.charges.filter (fun x => !isLane x)
  let lane := s.laneOf n
  let cc := s.composeAt n (s.laneP c)
  let named := decide (n < 1024) && s.leafOf lane == some .lane
  let new := if named then [(lane, cc.1, 0x0301)] else []
  let works := b.works.filter (fun w => w.1 != 0x0301) ++ (if named then [(0x0301, 5, cc.2)] else [])
  if new = old then s
  else
    let t := s.setBook c { b with charges := rest ++ new, works }
    if new = [] then t.moveLane c old []
    else if !s.bookable lane then (s.setBook c { b with charges := rest, works }).moveLane c old []
    else if t.usable < t.load lane then
      ((s.setBook c { b with charges := rest, works }).moveLane c old new).whenB (!old.isEmpty) (State.setBit Reg.HM_EVENT 5)
    else t.moveLane c old new

def State.followLayouts (s : State) : State := s.each (s.books.map (fun k => k.1)) State.followLayout

/-- WITHDRAW: a booked context whose stream is STOPPED (R407). -/
def State.withdraw (c : Nat) (s : State) : Nat × State :=
  if s.books.any (fun k => k.1 = c) && s.ctxState c = 0 then (0, s.unbook c) else (1, s)

/-- The status of a booking command, and its event (R407, R413). -/
def bookStatus (c : Nat) (r : Nat × State) : State :=
  (r.2.wr Reg.HM_BOOK_STATUS (r.1 * 16 + c % 4096 * 65536)).setBit Reg.HM_EVENT 4

/-- HM_BOOK_CMD (R407): the result is there when the command ends, and BUSY reads 0. A reserved OP is refused. -/
def State.bookCmd (agent op n : Nat) (s : State) : State :=
  if s.armBlocks agent Reg.HM_BOOK_CMD then s.usageReg agent Reg.HM_BOOK_CMD
  else
    match op with
    | 1 => (bookStatus n (s.bookCtx n)).dispatch
    | 2 => bookStatus n (s.withdraw n)
    | 3 => (bookStatus n (s.bookOutput n)).dispatch
    | _ => s.usageReg agent Reg.HM_BOOK_CMD

/-! ### Queue context commands (R381, R382, R384) -/

/-- Bytes 0 to 63 that HM_QC_DATA holds. -/
def State.qcByte (s : State) (i : Nat) : Nat := s.rd (Reg.HM_QC_DATA + 4 * (i / 4)) / 256 ^ (i % 4) % 256
def State.qcN (s : State) (i n : Nat) : Nat := leNat ((List.range n).map (fun k => s.qcByte (i + k)))

/-- Fields of a queue context out of range or reserved (ERR 1 of R382); `f` reads a field. -/
def qcBad (f : Nat → Nat → Nat) : Bool :=
  decide (two40 ≤ f 0 8) || f 0 8 % 4096 != 0 || decide (3 < f 8 1) || decide (f 9 1 < 4) || decide (16 < f 9 1)
    || decide (64 ≤ f 10 1) || f 11 1 = 0 || decide (16 < f 11 1) || decide (4096 ≤ f 12 2) || f 16 2 = 0
    || bits (f 18 1) 6 5 != 0 || (f 32 4 != 0 && f 36 4 = 0)

/-- A WRITE of queue q would change fields other than WEIGHT, BELL and SAMPLE. -/
def State.qcChanges (s : State) (q : Nat) : Bool :=
  (s.qcN 0 8 != s.qf q 0 8) || [8, 9, 11, 14].any (fun i => s.qcByte i != s.qf q i 1) || (s.qcN 12 2 != s.qf q 12 2)
    || Nat.land (s.qcByte 10) 0x1E != Nat.land (s.qf q 10 1) 0x1E
    || [32, 36, 56].any (fun i => s.qcN i 4 != s.qf q i 4)

/-- A WRITE changes RING, CLASS, LOG2_SIZE, PRODUCER or TARGET. -/
def State.qcMoves (s : State) (q : Nat) : Bool :=
  s.qcN 0 8 != s.qf q 0 8 || s.qcByte 8 != s.qf q 8 1 || s.qcByte 9 != s.qf q 9 1 || s.qcN 12 2 != s.qf q 12 2
    || (s.qcByte 10).testBit 1 != s.qFlag q 1

/-- Contexts pinned (R396). -/
def State.pinned (s : State) : Nat := (s.queues.filter (fun p => p.2.cached && s.qFlag p.1 2)).length

/-- STOPPED, or ERROR, which counts as STOPPED (R379). -/
def State.qIdle (s : State) (q : Nat) : Bool := s.qState q = 0 || s.qState q = 4

/-- HM_QC_STATUS.ERR. -/
def State.qcErr (e : Nat) (s : State) : State := s.wr Reg.HM_QC_STATUS (e * 16)

/-- READ copies the context to HM_QC_DATA (R381). -/
def State.qcRead (q : Nat) (s : State) : State :=
  (s.each (List.range 16) (fun i s => s.wr (Reg.HM_QC_DATA + 4 * i) (s.qf q (4 * i) 4))).qcErr 0

/-- WRITE of the host fields of a context (R381, R382). -/
def State.qcWrite (q : Nat) (s : State) : State :=
  let pin := (s.qcByte 10).testBit 2
  if qcBad s.qcN then s.qcErr 1
  else if 4104 ≤ q ∧ q < 4128 then s.qcErr 2
  else if s.qcMoves q && !s.qIdle q then s.qcErr 3
  else if pin && !s.qFlag q 2 && decide (12288 ≤ s.pinned) then s.qcErr 4
  else if q < 4104 && s.qcChanges q then s.qcErr 5
  else
    let halt := (s.qcByte 10).testBit 3
    let s := s.setQf q 0 8 (s.qcN 0 8)
    let s := (s.setQf q 8 1 (s.qcByte 8)).setQf q 9 1 (s.qcByte 9)
    let s := s.setQf q 10 1 (Nat.land (s.qcByte 10) 0x3E + b2n (s.qFlag q 0))
    let s := (s.setQf q 11 1 (s.qcByte 11)).setQf q 12 2 (s.qcN 12 2)
    let s := ((s.setQf q 14 1 (s.qcByte 14)).setQf q 16 2 (s.qcN 16 2)).setQf q 18 1 (s.qcByte 18)
    let s := ((s.setQf q 32 4 (s.qcN 32 4)).setQf q 36 4 (s.qcN 36 4)).setQf q 56 4 (s.qcN 56 4)
    let s := s.whenB pin (fun s => s.setQueueF q (fun x => { x with cached := true }))
    let s := if halt && s.qState q = 2 then (s.setQState q 3).markJobs (fun j => j.queue == q) 0x10 else s
    s.qcErr 0

/-- ENABLE (R382, R384, R405, R410). -/
def State.qcEnable (q : Nat) (s : State) : State :=
  let on := s.setQFlag q 0 true
  if qcBad (s.qf q) then s.qcErr 1
  else if s.qClass q = 1 && s.qRate q != 0 && s.qIdle q && decide (960 * s.pb < on.traffic) then s.qcErr 1
  else if 4104 ≤ q ∧ q < 4128 then s.qcErr 2
  else if q < 4104 then s.qcErr (if s.qFlag q 0 then 0 else 5)
  else if s.qIdle q then (s.queueStart q).qcErr 0
  else if s.qState q = 1 then s.qcErr 0
  else (s.setQueueF q (fun x => { x with reEnable := true })).qcErr 0

/-- DISABLE (R409, R410); stream and display compose queues stop only with their stream or output. -/
def State.qcDisable (q : Nat) (s : State) : State :=
  if 4104 ≤ q ∧ q < 4128 then s.qcErr 2
  else if q < 4104 then s.qcErr 5
  else if s.qState q = 1 then (s.queueStop q (s.qFlag q 3)).qcErr 0
  else (s.setQueueF q (fun x => { x with reEnable := false })).qcErr 0

/-- A command of HM_QC_CMD; the commands that write are of the operational class. -/
def State.qcCmd (agent : Nat) (f : Nat → State → State) (s : State) : State :=
  if s.armBlocks agent Reg.HM_QC_CMD then s.usageReg agent Reg.HM_QC_CMD else (f (s.fld Reg.HM_QC_SEL 19 0) s).dispatch

/-! ### Views (R413) -/

def State.viewCached (s : State) : Nat := s.cacheCount % 32768 + s.pinned % 16384 * 65536
def State.viewBwBooked (s : State) : Nat := s.traffic / 1000000
def State.viewBwLimit (s : State) : Nat := 960 * s.pb / 1000000

/-- HM_BERTH_LOAD of a unit, or of the berth that holds it. -/
def State.viewBerthLoad (s : State) (u : Nat) : Nat :=
  min (two32 - 1) (((s.leafList u).map s.load).foldl max (s.load u))
def State.viewBerthStreams (s : State) (u : Nat) : Nat := ((s.unit u).ctxs.filter (fun c => decide (c < 4096))).length % 8192

/-! ### Gates (R398 to R400, R414) -/

/-- Entry e of the administrative copy of list k. -/
def State.adminEntry (s : State) (k e : Nat) : Nat × Nat :=
  (s.rd (Reg.HM_GATE_ADMIN_MASK + 0x800 * k + 8 * e) % 256, s.rd (Reg.HM_GATE_ADMIN_INTERVAL + 0x800 * k + 8 * e))

/-- The administrative copy in use. -/
def State.adminList (s : State) (k : Nat) : List (Nat × Nat) :=
  (List.range (s.fld (Reg.HM_GATE_COUNT + 0x40 * k) 8 0)).map (s.adminEntry k)

/-- A gate entry's interval in range (R398). -/
def gateIntervalOk (n : Nat) : Bool := decide (100 ≤ n) && decide (n ≤ 1000000000)

/-- HM_GATEk_SWAP is refused while PENDING or with an administrative cycle above 10⁹ ns (R414). -/
def State.swapRefused (s : State) (k : Nat) : Bool := (s.gate k).pend || decide (1000000000 < gateCycle (s.adminList k))

/-- The staged SWAP comes into force at a tide start `t0`: the administrative copy is pending (R399). -/
def State.gatePend (k t0 : Nat) (s : State) : State :=
  let l := s.adminList k
  let c := s.rd64 (Reg.HM_GATE_CHANGE_W0 + 0x40 * k)
  let cyc := max 1 (gateCycle l)
  let at_ := if t0 ≤ c then c else c + cdiv (t0 - c) cyc * cyc
  s.setGate k { s.gate k with pend := true, nextEntries := l, nextChange := c, takeAt := at_, late := (s.gate k).late || decide (c < t0) }

/-- Entry of list k in force at a device time. -/
def GateSt.entryAt (g : GateSt) (t : Nat) : Nat :=
  let cyc := max 1 (gateCycle g.entries)
  let d : Int := (t : Int) - (g.change : Int)
  (gateEntry g.entries (d % (cyc : Int)).toNat 0).1

/-- GATE_LIST_TAKEOVER: the pending copy is operational from its instant (R399). -/
def State.gateTakeover (k : Nat) (s : State) : State :=
  let g := s.gate k
  if g.pend then
    let late := decide (g.nextChange < g.takeAt)
    let n := { g with oper := true, pend := false, entries := g.nextEntries, change := g.nextChange, nextEntries := [] }
    ((s.setGate k { n with entry := n.entryAt g.takeAt }).whenB late (State.setBit Reg.HM_EVENT 6)).dispatch
  else s

/-- GATE_ENTRY_CHANGE: the next entry, round the list; its mask opens and closes gates (R398, R400). -/
def State.gateStep (k : Nat) (s : State) : State :=
  let g := s.gate k
  if g.oper then
    (s.setGate k { g with entry := if g.entry + 1 < g.entries.length then g.entry + 1 else 0 }).dispatch
  else s

def State.viewGate (s : State) (k : Nat) : Nat :=
  let g := s.gate k
  s.gateMask k + b2n g.oper * 256 + b2n g.pend * 512 + b2n g.late * 1024 + g.entry % 256 * 65536

/-! ### Sampling (R411, R412) -/

/-- The sample records of a tide start, for the tide just ended (R411, R412). -/
def State.sampleQueues (ended : Nat) (s : State) : State :=
  let qs := ((s.queues.map (fun p => p.1)).filter (fun q => s.qFlag q 5)).take 4096
  let s' := s.each qs (fun q s =>
    let wr := s.rd Reg.HM_SAMPLE_WR
    let cap := 2 ^ (12 + s.fld Reg.HM_SAMPLE_CFG 3 0)
    if cap ≤ sub32 wr (s.rd Reg.HM_SAMPLE_RD) then s.setBit Reg.HM_EVENT 3
    else
      let x := s.queue q
      let a := s.rd40 Reg.HM_SAMPLE_BASE_LO + wr % cap * 16
      let r := leBytes 4 (q % 1048576) ++ leBytes 4 (ended % two32) ++ leBytes 2 (min 65535 (sub32 (s.qProd q) (s.qDone q)))
        ++ leBytes 2 (min 65535 x.dispatched) ++ leBytes 4 (min (two32 - 1) x.maxDelay)
      ((s.writeMem agentHm a r).2.inc Reg.HM_SAMPLE_WR).setBit Reg.HM_EVENT 2)
  { s' with queues := List.map (fun (p : Nat × QueueSt) => (p.1, { p.2 with dispatched := 0, maxDelay := 0 })) s'.queues }

/-! ### Meanings -/

/-- QC_READ (R381). -/
def execQcRead (agent : Nat) (s : State) : Host.Outcome State Fault Refusal := .next (s.qcCmd agent State.qcRead)
/-- QC_WRITE (R381, R382). -/
def execQcWrite (agent : Nat) (s : State) : Host.Outcome State Fault Refusal := .next (s.qcCmd agent State.qcWrite)
/-- QC_ENABLE (R382). -/
def execQcEnable (agent : Nat) (s : State) : Host.Outcome State Fault Refusal := .next (s.qcCmd agent State.qcEnable)
/-- QC_DISABLE (R409). -/
def execQcDisable (agent : Nat) (s : State) : Host.Outcome State Fault Refusal := .next (s.qcCmd agent State.qcDisable)
/-- BOOK (R407). -/
def execBook (agent ctx : Nat) (s : State) : Host.Outcome State Fault Refusal := .next (s.bookCmd agent 1 (ctx % 4096))
/-- WITHDRAW (R407). -/
def execWithdraw (agent ctx : Nat) (s : State) : Host.Outcome State Fault Refusal := .next (s.bookCmd agent 2 (ctx % 4096))
/-- BOOK_OUTPUT (R407). -/
def execBookOutput (agent output : Nat) (s : State) : Host.Outcome State Fault Refusal := .next (s.bookCmd agent 3 (output % 4096))
/-- GATE_LIST_TAKEOVER (R399). -/
def execGateListTakeover (list : Nat) (s : State) : Host.Outcome State Fault Refusal := .next (s.gateTakeover (list % 16))
/-- GATE_ENTRY_CHANGE (R398). -/
def execGateEntryChange (list : Nat) (s : State) : Host.Outcome State Fault Refusal := .next (s.gateStep (list % 16))

/-- HM_GATE_SWAP: the staged SWAP; refused while one is pending or the cycle is too long (R399, R414). -/
def execHmGateSwap (agent list value : Nat) (s : State) : Host.Outcome State Fault Refusal :=
  let k := list % 16
  let o := Reg.HM_GATE_SWAP + 0x40 * k
  .next (if s.armBlocks agent o || s.swapRefused k then s.usageReg agent o
    else (s.stage o (value % 2)).runtimeChanged false)

end Sys2Proof.Machine
end

