-- ==== Sys2Proof/Machine/SndLog.lean ====
section
/-! DEFINITION. The sounding log’s ring and records, and tagged coding blocks (18_soundings.md: R614 to R616, R619, R620). -/

namespace Sys2Proof.Machine

/-! ### The log (R614 to R616) -/

def State.sndBaseAddr (s : State) : Nat := s.rd40 Reg.SND_LOG_BASE_LO
def State.sndRecords (s : State) : Nat := 2 ^ (12 + s.fld Reg.SND_LOG_CFG 3 0)

/-- A record that is not written (R615). -/
def State.sndDrop (s : State) : State := (s.bump Reg.SND_LOG_DROP_LAST 1).setBit Reg.SND_EVENT 0

/-- The sounding station's agent (R40). -/
abbrev agentSnd : Nat := 0x0F4

/-- Write one record into the ring; answers whether it was written (R614, R615). -/
def State.sndRecord (bs : List Nat) (s : State) : Bool × State :=
  let w := s.rd Reg.SND_LOG_WR
  if !s.bit Reg.SND_CTRL 0 then (false, s)
  else if s.sndRecords ≤ sub32 w (s.rd Reg.SND_LOG_RD) then (false, s.sndDrop)
  else
    let r := s.writeMem agentSnd (s.sndBaseAddr + 64 * (w % s.sndRecords)) bs
    match r.1 with
    | .ok => (true, r.2.inc Reg.SND_LOG_WR)
    | _ => (false, r.2.sndDrop)

/-- The header of a record (R616). -/
def sndHeader (src kind flags tide ctx : Nat) : List Nat :=
  leBytes 2 src ++ [kind, flags] ++ leBytes 6 tide ++ leBytes 2 ctx ++ List.replicate 4 0

/-! ### Tags (R619, R620) -/

/-- One step of the station’s LFSR (R619): the next value, and whether it is a hit. -/
def lfsrStep (l rate : Nat) : Nat × Bool :=
  let b := (b2n (l.testBit 0) + b2n (l.testBit 2) + b2n (l.testBit 3) + b2n (l.testBit 5)) % 2
  let l := l / 2 + b * 32768
  (l, l % 2 ^ rate = 0)

/-- A stream passes SND_TAG_FILTER (R619, R622). -/
def State.tagPasses (s : State) (c : Nat) : Bool :=
  s.bit Reg.SND_TAG_FILTER 15 || s.fld Reg.SND_TAG_FILTER 11 0 = c % 4096

/-- The TAG record of a block (R616, R620). -/
def tagBytes (unit c tide src : Nat) (encode : Bool) (t : TagOut) : List Nat :=
  sndHeader unit 2 (b2n encode + 2 * b2n t.abandoned) tide c ++ leBytes 2 t.column ++ leBytes 2 t.row ++ leBytes 6 src
    ++ leBytes 2 t.gantry ++ List.replicate 4 0 ++ (List.range 5).flatMap (fun i => leBytes 4 (t.stamps.getD i 0xFFFFFFFF))
    ++ List.replicate 12 0

/-- A tagged block ends: its record and its event (R620). -/
def State.tagEnd (unit c src : Nat) (encode : Bool) (t : TagOut) (s : State) : State :=
  let r := s.sndRecord (tagBytes unit c s.tideNum src encode t)
  (r.2.setBit Reg.SND_EVENT (if t.abandoned then 3 else 2)).whenB r.1 (State.bump Reg.SND_SAMPLES_LAST 1)

/-- The coding blocks of a picture, in the order they begin: a hit tags its block, or finds a tagged block in flight and is
counted (R619). How long a block stays in flight is timing, so each hit’s outcome is given. -/
def State.tagRun (unit c src : Nat) (encode : Bool) : Nat → List (Option TagOut) → State → State
  | 0, _, s => s
  | n + 1, l, s =>
    let x := lfsrStep s.sndLfsr (bits s.sndCfg 27 24)
    let s := { s with sndLfsr := x.1 }
    if x.2 then
      match l with
      | some t :: l => State.tagRun unit c src encode n l (s.tagEnd unit c src encode t)
      | _ :: l => State.tagRun unit c src encode n l (s.bump Reg.SND_MISSED_LAST 1)
      | [] => State.tagRun unit c src encode n [] (s.bump Reg.SND_MISSED_LAST 1)
    else State.tagRun unit c src encode n l s

/-- The blocks of one picture job in TAG mode, at a tally of the stream’s berth (R619). -/
def State.tagPicture (encode : Bool) (x : TagRun) (j : Job) (s : State) : State :=
  let u := bits s.sndCfg 15 4
  if s.sndCfg % 4 = 2 ∧ u ∈ s.leafList (s.tlBerth j.ctx) ∧ s.tagPasses j.ctx then
    State.tagRun u j.ctx (s.srcTide j) encode x.blocks x.hits s
  else s

end Sys2Proof.Machine
end

