-- ==== Sys2Proof/Machine/Jobs.lean ====
section
/-! DEFINITION. What the jobs of every class share: the checks of a descriptor at its berth, the end of a job, quay
buffers, and the stop of a stream (05_decoding.md: R185, R186, R192, R212, R213; 06_encoding.md: R220, R262). -/

namespace Sys2Proof.Machine

/-- The job a unit runs, when it has the opcode. -/
def State.jobAt (s : State) (u op : Nat) : Option Job :=
  match (s.unit u).job with
  | some j => if j.op = op && s.eng u != .fenced then some j else none
  | none => none

/-- The outermost group a unit is in, or the unit itself. -/
def State.topOf (s : State) : Nat → Nat → Nat
  | 0, u => u
  | fuel + 1, u =>
    match (s.unit u).parent with
    | some g => s.topOf fuel g
    | none => u

/-- The job a unit works on: its own, or that of the group it is a member of. -/
def State.workOf (s : State) (u : Nat) : Nat := if (s.unit u).job.isSome then u else s.topOf 4096 u

/-- Change the job a unit runs. -/
def State.setJob (u : Nat) (j : Job) (s : State) : State := s.setUnitF u (fun x => { x with job := some j })

/-- Number of pointer slots an opcode names; the named ones come first (R185, R220, R275, R300, R344). -/
def slotCount (op : Nat) : Nat :=
  match op with
  | 0x0101 => 2
  | 0x0102 | 0x0105 | 0x0205 | 0x0301 | 0x0401 | 0x0601 | 0x0602 => 1
  | 0x0201 => 3
  | _ => 0

/-- A slot the opcode does not name is not zero (R185, R220). -/
def Job.badUnnamed (j : Job) : Bool := ([j.s0, j.s1, j.s2, j.s3, j.s4].drop (slotCount j.op)).any (fun v => v != 0)

/-- A named pointer that reaches neither memory nor a host that answers (R34, R35). -/
def State.badPtr (s : State) (v : Nat) : Bool := v != 0 && !s.isMem v && !(s.isOut v 1 && s.outboundOk)

/-- The access pointer slot i of an opcode makes: 2 a write, 1 a read (R585). -/
def slotAccess (op i : Nat) : Nat :=
  if op = 0x0102 ∨ op = 0x0105 ∨ op = 0x0205 ∨ op = 0x0301 ∨ op = 0x0601 ∨ (op = 0x0201 ∧ i ≠ 0) then 2 else 1

/-- The bytes a job reads through its pointer slots: a bitstream buffer with its data, a loss map, a picture, a seed. -/
def State.jobReads (s : State) (j : Job) : List (Nat × Nat) :=
  let a := j.s0 % two40
  let b := j.s1 % two40
  let fmt := s.rdM (a + 20) 2
  let spans :=
    if j.op = 0x0101 then [(a, 64 + s.rdM (a + 16) 4 % 0x4000000), (b, if b = 0 then 0 else 8 + 8 * min 255 (s.rdM (b + 4) 4))]
    else if j.op = 0x0401 then [(a, 64 + s.rdM (a + 16) 4 % 0x4000000)]
    else if j.op = 0x0201 then [(a, picBytes (s.rdM (a + 16) 2) (s.rdM (a + 18) 2) (bits fmt 5 4) (fmt.testBit 6))]
    else if j.op = 0x0602 then [(a, 24)]
    else []
  spans.filter (fun p => p.1 != 0 && s.isMem p.1)

/-- A run of bytes meets a poisoned line or a lost port (R453, R467). -/
def State.rangeBad (s : State) (a n : Nat) : Bool :=
  s.ports.any (fun p => p.2.poison.any (fun l => decide (a < l + 64) && decide (l < a + n)))
    || ((!s.memsys.lost.isEmpty || s.ports.any (fun p => p.2.undef))
      && (linesOf a n).any (fun l => s.poisoned l || (decide (l < 0x2000000000) && s.portGone l)))

/-- The pointers of a job that reach nothing. -/
def State.badPtrs (s : State) (j : Job) : List Nat := ([j.s0, j.s1, j.s2].take (slotCount j.op)).filter s.badPtr

/-- A job’s access to an address that leads nowhere is a usage event (R34), one the host does not answer is counted (R557), and one
that meets a poisoned line is a failed read (R453). -/
def State.ptrUsage (u : Nat) (j : Job) (s : State) : State :=
  match s.badPtrs j, (s.jobReads j).find? (fun p => s.rangeBad p.1 p.2) with
  | [], some p => s.badRead u 1 p.1 p.2
  | [], none => s
  | v :: _, _ => if s.isOut v 1 then s.outboundErr else s.usageAddr u (slotAccess j.op ([j.s0, j.s1, j.s2].findIdx (fun x => x = v))) v

/-- A stream has jobs at berths besides its STOP. -/
def State.ctxBusy (s : State) (c : Nat) : Bool :=
  s.units.any (fun p => match p.2.job with
    | some j => j.ctx = c && j.op / 256 != 5 && j.op != 0x0104 && j.op != 0x0204
    | none => false)

/-! ### Quays (R69 to R76, R192) -/

def State.quay (s : State) (t : Nat) : List QuayPic := SMap.get (fun _ => []) s.quays t
def State.setQuay (t : Nat) (l : List QuayPic) (s : State) : State :=
  { s with quays := SMap.set (fun _ => []) s.quays t l }

/-- DEPTH of a quay buffer (R192). -/
abbrev quayDepth : Nat := 16384

/-- Entries a picture has in the quay of leaf i: written and not freed, the end-of-picture entry among them. -/
def QuayPic.occ (p : QuayPic) (i : Nat) : Nat :=
  ((p.runs.filter (fun r => r.leaf = i)).map (fun r => r.n)).foldl (· + ·) 0 + b2n (p.eop = 1 && p.eopLeaf = i)

/-- Entries a picture has there that have not been read. -/
def QuayPic.unread (p : QuayPic) (i : Nat) : Nat :=
  ((p.runs.filter (fun r => r.leaf = i)).map (fun r => r.n - r.read)).foldl (· + ·) 0 + b2n (p.eop = 1 && p.eopLeaf = i)

/-- Entries in the quay of leaf i of a tally berth, and those unread. -/
def State.quayOcc (s : State) (t i : Nat) : Nat := ((s.quay t).map (fun p => p.occ i)).foldl (· + ·) 0
def State.quayUnread (s : State) (t i : Nat) : Nat := ((s.quay t).map (fun p => p.unread i)).foldl (· + ·) 0

/-- Show the occupancy of a tally berth’s quays in their status words (R74, R214). -/
def State.quayShow (t : Nat) (s : State) : State :=
  s.each (s.leafList t).zipIdx (fun p s =>
    let o := ucb p.1 Reg.TL_QUAY_STATUS
    s.wr o (fifoStatus (s.rd o) (s.rd (ucb p.1 Reg.TL_QUAY_WM)) quayDepth (s.quayOcc t p.2) (s.quayUnread t p.2)))

/-- ABOVE_HIGH of some quay of a tally berth: no new picture is begun (R192, R259). -/
def State.quayHigh (s : State) (t : Nat) : Bool := (s.leafList t).any (fun m => s.bit (ucb m Reg.TL_QUAY_STATUS) 18)

/-- A read of the quays of a tally berth while they hold no unread entry sets UNDERRUN (R70). -/
def State.quayRead (t : Nat) (s : State) : State :=
  s.each (s.leafList t).zipIdx (fun p s => s.whenB (s.quayUnread t p.2 = 0) (State.setBit (ucb p.1 Reg.TL_QUAY_STATUS) 19))

def State.quayFind (s : State) (t c seq : Nat) : Option QuayPic := (s.quay t).find? (fun p => p.ctx = c && p.seq = seq)

/-- Change the picture of a context and sequence field in a quay. -/
def State.quayPut (t : Nat) (x : QuayPic) (s : State) : State :=
  (s.setQuay t ((s.quay t).map (fun p => if p.ctx = x.ctx ∧ p.seq = x.seq then x else p))).quayShow t

/-- A new picture goes behind those a quay holds. -/
def State.quayAdd (t : Nat) (x : QuayPic) (s : State) : State := (s.setQuay t (s.quay t ++ [x])).quayShow t

/-- A picture’s entries are freed (R69, R200). -/
def State.quayDrop (t c seq : Nat) (s : State) : State :=
  (s.setQuay t ((s.quay t).filter (fun p => !(p.ctx = c && p.seq = seq)))).quayShow t

/-- The producer writes what there is room for, in order, and stalls where a leaf’s quay is full (R71, R192). -/
def fillRuns : List Nat → List QRun → List QRun
  | _, [] => []
  | room, r :: rs =>
    let k := min r.todo (room.getD r.leaf 0)
    { r with n := r.n + k, todo := r.todo - k } :: fillRuns (room.set r.leaf (room.getD r.leaf 0 - k)) rs

/-- Entries that pictures other than one have in the quay of leaf i. -/
def State.quayOthers (s : State) (t c seq i : Nat) : Nat :=
  (((s.quay t).filter (fun p => !(p.ctx = c && p.seq = seq))).map (fun p => p.occ i)).foldl (· + ·) 0

/-- The producer of a berth’s picture writes on: its entries, then its end-of-picture entry (R193). -/
def State.quayFill (s : State) (t : Nat) (x : QuayPic) : QuayPic :=
  let room := fun (y : QuayPic) (i : Nat) => quayDepth - s.quayOthers t x.ctx x.seq i - y.occ i
  let x := { x with runs := fillRuns ((List.range (s.leafList t).length).map (room x)) x.runs }
  if x.eop = 0 && x.runs.all (fun r => r.todo = 0) && decide (0 < room x x.eopLeaf) then { x with eop := 1 } else x

/-- The gantry leaves read on: each commits the regions whose entries are all there, in order, which frees them, and reads what there
is of the region in progress (R195, R200). -/
def commitRuns : List Nat → List QRun → List QRun × List QRun
  | _, [] => ([], [])
  | busy, r :: rs =>
    if busy.contains r.member then
      let k := commitRuns busy rs
      (r :: k.1, k.2)
    else if r.todo = 0 then
      let k := commitRuns busy rs
      (k.1, r :: k.2)
    else
      let k := commitRuns (r.member :: busy) rs
      ({ r with read := r.n } :: k.1, k.2)

/-- A commit frees the entries read up to it (R69): those of a region wholly read leave the quay. -/
def QuayPic.commitRead (p : QuayPic) : QuayPic :=
  let l : List QRun := p.runs.map (fun r => { r with n := r.n - r.read, read := 0 })
  { p with runs := l.filter (fun r => r.n != 0 || r.todo != 0) }

/-- A replay moves the read points of a picture back to the last commit (R73, R201). -/
def QuayPic.replay (p : QuayPic) : QuayPic :=
  let l : List QRun := p.runs.map (fun r => { r with read := 0 })
  { p with runs := l }

/-! ### Decode streams -/

def State.dec (s : State) (c : Nat) : DecSt := SMap.get (fun _ => DecSt.reset) s.decs c
def State.setDec (c : Nat) (x : DecSt) (s : State) : State := { s with decs := SMap.set (fun _ => DecSt.reset) s.decs c x }

/-- Entry i of a REF_TABLE at byte `off` of a context. -/
def State.refEntry (s : State) (c off i : Nat) : Nat := s.sf c (off + 8 * i) 8

/-- Empty a REF_TABLE. -/
def State.clearRefs (c off n : Nat) (s : State) : State := s.each (List.range n) (fun i s => s.setSf c (off + 8 * i) 8 0)

/-- Every reference of a decode stream is retired: none is a reference, none awaits output (R191, R213). -/
def State.retireRefs (c : Nat) (s : State) : State :=
  (s.clearRefs c 128 16).setDec c { s.dec c with
    pics := (s.dec c).pics.map (fun p => { p with isRef := false, hidden := true }) }

/-! ### The end of jobs and streams (R213, R262, R408) -/

/-- Units whose job is the STOP of a context. -/
def State.stopJobs (s : State) (c : Nat) : List Nat :=
  (s.units.filter (fun p => match p.2.job with
    | some j => j.ctx = c && (j.op = 0x0104 || j.op = 0x0204)
    | none => false)).map (fun p => p.1)

/-- A stopping stream with nothing left in flight: references retired, REF_TABLE emptied, buffers of an encode stream
returned, STATE STOPPED, the booking withdrawn at the next tide start, and its STOP completes (R213, R262, R408). -/
def State.stopCheck (c : Nat) (s : State) : State :=
  if c < 4096 && (s.ctxState c = 3 || s.ctxState c = 4) && !s.ctxBusy c then
    let s := if s.ctxKind c = 2 then
        let x := s.enc c
        let left := match x.cur with
          | some p => [p.bits, p.recon] ++ (if p.hash = 0 then [] else [p.hash])
          | none => []
        let held := x.refs.flatMap (fun r => [r.recon] ++ (if r.hash = 0 then [] else [r.hash]))
        let s := (s.freeBufs (s.gtBerth c) (held ++ left ++ [x.composed])).clearRefs c 192 4
        (s.whenB x.cur.isSome (State.incSf c 172)).setEnc c { x with cur := none, refs := [], composed := 0 }
      else s.retireRefs c
    let s := s.setCtxState c 0
    let s := s.setBook c { s.book c with leaving := true }
    s.each (s.stopJobs c) (fun u s => s.finishJob u 0)
  else s

/-- A job ends with a status; its stream’s stop may thereby end; berths and heads are looked at again. -/
def State.endJob (u st : Nat) (s : State) : State :=
  match (s.unit u).job with
  | none => s
  | some j => (((s.finishJob u st).stopCheck j.ctx).queueStopped j.queue).dispatch

/-- A job ends with nothing to show: its buffers are returned and its entries leave the quay (R213, R491, R531). -/
def State.abandonJob (u st : Nat) (s : State) : State :=
  match (s.unit u).job with
  | none => s
  | some j =>
    let s := if j.op = 0x0102 then s.quayDrop (s.tlBerth j.ctx) j.ctx j.seq else s
    let s := if j.op = 0x0101 || j.op = 0x0401 then s.giveBack u (j.s0 % two40) else s
    let s := (s.freeBufs u j.bufs).setUnitF u (fun x => { x with job := some { j with bufs := [] } })
    s.endJob u st

/-- The stop of a stream (R213, R262): its queue stops, and with HALT its jobs in flight end at their next commit. -/
def State.stopStream (c : Nat) (halt : Bool) (s : State) : State :=
  if s.ctxState c = 0 || s.ctxState c = 4 || (s.ctxState c = 3 && !halt) then s
  else
    let s := (s.setCtxState c 3).queueStop c false
    let s := s.whenB halt (State.haltStream c)
    (s.stopCheck c).queueStopped c

/-- The status that stops a job before it does anything (R212, R224): a reserved flag, a stream not started, a slot not
named, a pointer to no memory. -/
def State.jobRefused (s : State) (j : Job) (needsStart : Bool) : Option Nat :=
  if j.badFlags || (needsStart && s.ctxState j.ctx = 0) then some 0x20
  else if j.badUnnamed || j.badSlots then some 0x21
  else if !(s.badPtrs j).isEmpty || (s.jobReads j).any (fun p => s.rangeBad p.1 p.2) then some 0x21
  else none

/-- Run a job of an opcode at a unit: a stop marked on it ends it first, then the checks, then its effect. -/
def State.runJob (u op : Nat) (needsStart : Bool) (f : Job → State → State) (s : State) : State :=
  match s.jobAt u op with
  | none => s
  | some j =>
    match j.stopWith with
    | some st => s.abandonJob u st
    | none =>
      match s.jobRefused j needsStart with
      | some st => (s.whenB (st = 0x21 && !j.badUnnamed && !j.badSlots) (State.ptrUsage u j)).abandonJob u st
      | none => f j s

end Sys2Proof.Machine
end

