-- ==== Sys2Proof/Machine/Support.lean ====
section
/-! DEFINITION. What the decoders support (04_coding_formats.md: R155, R158, R160, R162 to R172), and what a tally finds in a coded
picture (05_decoding.md: R193, R194): the first unsupported element and its reason, units ignored, and the cells of each segment
that are decoded. -/

namespace Sys2Proof

open Sys2Proof.Machine

/-! ### Parameter sets (R162 to R165, R169) -/

/-- Profiles decoded of a codec. -/
def profilesOf (codec : Nat) : List Profile :=
  match codec with
  | 1 => [.mpeg2Simple, .mpeg2Main]
  | 2 => [.avcConstrainedBaseline, .avcBaseline, .avcMain, .avcHigh, .avcHigh10]
  | 3 => [.hevcMain, .hevcMain10, .hevcMainStill, .hevcMain422x10, .hevcMain444, .hevcMain444x10, .hevcMonochrome, .hevcScreenMain,
      .hevcScreenMain10, .hevcScreenMain444, .hevcScreenMain444x10]
  | 4 => [.av1Main, .av1High]
  | _ => []

/-- Chroma formats decoded of a codec and profile. -/
def chromasOf (codec : Nat) (p : Profile) : List Nat :=
  match codec with
  | 1 => [1]
  | 2 => [0, 1]
  | 3 => [0, 1, 2, 3]
  | 4 => if p = .av1High then [3] else [0, 1]
  | _ => []

/-- Bit depths decoded of a codec (R160). -/
def depthsOf (codec : Nat) : List Nat := if codec = 1 then [8] else [8, 10]

/-- The reason of R172 that makes a parameter set or sequence header unusable for a codec, in the order its elements are written; 0
when it is usable. -/
def setReason (codec : Nat) (p : ParamSet) : Nat :=
  if p.codec ≠ codec ∨ !(profilesOf codec).contains p.profile then 1
  else if !(chromasOf codec p.profile).contains p.chroma then 2
  else if !(depthsOf codec).contains p.depthY ∨ !(depthsOf codec).contains p.depthC then 3
  else if codec = 2 ∧ p.lossless then 7
  else if codec = 2 ∧ p.sliceGroups then 8
  else if codec = 3 ∧ (p.extendedPrecision ∨ p.bypassAlignment ∨ 64 < p.paletteMax ∨ 128 < p.palettePred) then 7
  else if codec = 1 ∧ p.scalable then 12
  else 0

/-- CHROMA and DEPTH of a parameter set, as FORMAT holds them (R153). -/
def ParamSet.format (p : ParamSet) : Nat := p.chroma * 16 + b2n (decide (8 < max p.depthY p.depthC)) * 64

/-- The bounds a codec’s standard places on each dimension: whole smallest coding blocks in HEVC, even cropped sizes in 4:2:0 AVC, a
size field that is not 0 modulo 4,096 in MPEG-2 (R155; assumption 60). -/
def dimsOk (codec chroma w h : Nat) : Bool :=
  match codec with
  | 1 => w % 4096 != 0 && h % 4096 != 0
  | 2 => chroma = 0 || (w % 2 = 0 && h % 2 = 0)
  | 3 => w % 8 = 0 && h % 8 = 0
  | _ => true

/-! ### Division among the members (R158, R159, R195) -/

/-- A rectangle of luma samples: left, top, right, bottom. -/
abbrev Rect := Nat × Nat × Nat × Nat

/-- The rectangle round two. -/
def Rect.join (a b : Rect) : Rect := (min a.1 b.1, min a.2.1 b.2.1, max a.2.2.1 b.2.2.1, max a.2.2.2 b.2.2.2)

def Rect.ok (r : Rect) : Bool := shareOk (r.2.2.1 - r.1) (r.2.2.2 - r.2.1)

/-- Runs of whole tiles or slices in decoding order, each as long as its share stays within the limits: the place at which each tile
or slice goes, and the number of shares; none where one tile or slice alone is too large (R158; assumption 62). -/
def divide : List Rect → Option Rect → Nat → Option (List Nat)
  | [], _, _ => some []
  | r :: rs, cur, n =>
    match cur with
    | some c =>
      if (c.join r).ok then (divide rs (some (c.join r)) n).map (fun l => n :: l)
      else if r.ok then (divide rs (some r) (n + 1)).map (fun l => (n + 1) :: l) else none
    | none => if r.ok then (divide rs (some r) n).map (fun l => n :: l) else none

/-- Edges of a run of lengths. -/
def edges : Nat → List Nat → List (Nat × Nat)
  | _, [] => []
  | x, n :: ns => (x, x + n) :: edges (x + n) ns

/-- The tiles of a picture in raster order; a picture that names none is one tile. -/
def CodedPic.tiles (o : CodedPic) (p : ParamSet) : List Rect :=
  let cols := edges 0 (if o.tileCols = [] then [p.width] else o.tileCols)
  let rows := edges 0 (if o.tileRows = [] then [p.height] else o.tileRows)
  rows.flatMap (fun r => cols.map (fun c => (c.1, r.1, c.2, r.2)))

/-- The segments of a picture. -/
def CodedPic.segments (o : CodedPic) : List (CodedUnit × Segment) :=
  o.units.filterMap (fun u => match u.kind with
    | .segment g => some (u, g)
    | _ => none)

/-- The slices of a picture, each as the band of block rows it touches. -/
def CodedPic.slices (o : CodedPic) (p : ParamSet) : List Rect :=
  let n := (o.segments.map (fun g => g.2.slice + 1)).foldl max 0
  (List.range n).map (fun k =>
    let rows := (o.segments.filter (fun g => g.2.slice = k)).flatMap (fun g => g.2.cells.map (fun c => c.row))
    let lo := rows.foldl min (rows.headD 0)
    (0, lo * p.blockRow, p.width, min p.height ((rows.foldl max 0 + 1) * p.blockRow)))

/-- The share, by the group’s SPLIT, of each tile or slice; none where the picture admits no division among `n` members. Divided by
picture, a picture is one share (R158). -/
def CodedPic.shares (o : CodedPic) (p : ParamSet) (split n : Nat) : Option (List Nat) :=
  let l := if split = 0 then o.slices p else if split = 1 then o.tiles p else [(0, 0, p.width, p.height)]
  match divide l none 0 with
  | some k => if k.foldl max 0 < max 1 n then some k else none
  | none => none

/-! ### Limits of R160 -/

/-- Reference pictures a codec holds (R160). -/
def refLimit (codec : Nat) : Nat := match codec with
  | 1 => 2
  | 4 => 8
  | _ => 16

/-- Slices and tiles within R160. -/
def CodedPic.segmentsOk (o : CodedPic) (codec : Nat) : Bool :=
  let slices := (o.segments.map (fun g => g.2.slice + 1)).foldl max 0
  let cols := max 1 o.tileCols.length
  let rows := max 1 o.tileRows.length
  match codec with
  | 1 => decide (slices ≤ 1152) && o.segments.all (fun g => g.2.cells.all (fun c => c.row = (g.2.cells.headD c).row))
  | 2 => decide (slices ≤ 1024)
  | 3 => decide (slices ≤ 600) && decide (cols ≤ 20) && decide (rows ≤ 22)
  | _ => decide (cols ≤ 16) && decide (cols * rows ≤ 128)

/-! ### Units (R163 to R166) -/

/-- An OBU of a layer outside the operating point chosen (R165). -/
def outsidePoint (idc : Nat) (ext : Option (Nat × Nat)) : Bool :=
  match ext with
  | some (t, sp) => idc != 0 && !(idc.testBit t && idc.testBit (8 + sp))
  | none => false

/-- A unit discarded and counted as ignored (R163 to R166). -/
def CodedUnit.ignored (u : CodedUnit) (codec idc : Nat) : Bool :=
  match u.kind with
  | .otherLayer => codec = 2 || codec = 3
  | .redundant => codec = 2
  | .unusedSei | .reservedType | .filler | .delimiter | .endOfSequence => true
  | _ => codec = 4 && outsidePoint idc u.ext

/-- The reason a unit of its kind is unsupported, 0 for none. -/
def CodedUnit.reason (u : CodedUnit) (codec : Nat) : Nat :=
  match u.kind with
  | .partition => if codec = 2 then 8 else 0
  | .tileList => if codec = 4 then 11 else 0
  | .annexB => if codec = 4 then 7 else 0
  | .segment g => if codec = 2 ∧ (g.kind = .sp ∨ g.kind = .si) then 8 else 0
  | _ => 0

/-! ### The tally’s walk over a picture (R167, R194) -/

/-- What the tally must know besides the picture: codec, FORMAT and declared maximum of the context, the berth, the operating point
chosen, the missing offsets of the loss map and, when the buffer is TRUNCATED, its length. -/
structure TallyView where
  codec : Nat
  format : Nat
  maxW : Nat
  maxH : Nat
  grp : Bool
  split : Nat
  members : Nat
  opPoint : Nat
  params : List (ParamSet × Nat)
  missing : List Nat
  len : Option Nat
  deriving DecidableEq, Repr

/-- The parameter set a picture activates. -/
def TallyView.active (v : TallyView) (o : CodedPic) : Option (ParamSet × Nat) := v.params.find? (fun p => p.1.id = o.params)

/-- The reason of a whole picture when its parameter set is in force: the set’s own, its size and format against the context and the
berth, its division, references and segments (R155, R156, R158, R160, R169, R172; assumption 63 for the format). -/
def TallyView.picReason (v : TallyView) (o : CodedPic) (p : ParamSet × Nat) : Nat :=
  if p.2 ≠ 0 then p.2
  else if v.maxW < p.1.width ∨ v.maxH < p.1.height then 4
  else if !sizeOk v.grp true v.codec p.1.width p.1.height ∨ !dimsOk v.codec p.1.chroma p.1.width p.1.height then 5
  else if bits v.format 5 4 < p.1.chroma then 2
  else if !v.format.testBit 6 ∧ 8 < max p.1.depthY p.1.depthC then 3
  else if v.grp ∧ (o.shares p.1 v.split v.members).isNone then 6
  else if refLimit v.codec < (o.slots.filter (fun k => k != 0)).length then 9
  else if !o.segmentsOk v.codec then 10
  else 0

/-- Cells of a segment decoded before a byte position. -/
def cellsBefore (stop : Nat) (l : List Cell) : List Cell := l.takeWhile (fun c => decide (c.pos ≤ stop))

/-- The position at which a segment that begins at a position stops: its first error, the first missing offset in it, the end of a
truncated buffer (R194). -/
def TallyView.lostAt (v : TallyView) (start : Nat) (g : Segment) : Option Nat :=
  let last := (g.cells.map (fun c => c.pos)).foldl max start
  let l := g.err.toList ++ v.missing.filter (fun m => decide (start ≤ m) && decide (m < last))
    ++ (v.len.toList.filter (fun n => decide (n < last)))
  l.min?

/-- The walk’s state: what was found, and whether the segment before lost its rest. -/
structure TallyWalk where
  found : Found
  lost : Bool
  stopped : Bool

/-- One segment: decoded up to its loss, its unsupported mode, or its end (R167, R194). -/
def TallyView.segment (v : TallyView) (i start : Nat) (g : Segment) (w : TallyWalk) : TallyWalk :=
  let f := w.found
  let f := if w.lost then { f with resyncs := f.resyncs ++ [start] } else f
  let stop := v.lostAt start g
  let bad := match g.tool, stop with
    | some t, some e => if t ≤ e then some t else none
    | some t, none => some t
    | none, _ => none
  match bad with
  | some t =>
    { found := { f with reason := 7, errs := f.errs ++ [t], segs := f.segs ++ [(i, cellsBefore t g.cells)] }, lost := true, stopped := true }
  | none =>
    match stop with
    | some e =>
      let errs := if g.err = some e then f.errs ++ [e] else f.errs
      { found := { f with errs, segs := f.segs ++ [(i, cellsBefore e g.cells)] }, lost := true, stopped := false }
    | none => { found := { f with segs := f.segs ++ [(i, g.cells)] }, lost := false, stopped := false }

/-- One unit of the picture, with the number of segments before it. The first segment puts the parameter set in force. A picture whose
parameter set was never received is in error as a whole. -/
def TallyView.unit (v : TallyView) (o : CodedPic) (w : TallyWalk × Nat) (u : CodedUnit) : TallyWalk × Nat :=
  let idc := match v.active o with
    | some p => p.1.opIdc.getD v.opPoint 0
    | none => 0
  if w.1.stopped ∨ u.ignored v.codec idc then w
  else
    let stop := fun (r : Nat) => ({ w.1 with found := { w.1.found with reason := r, errs := w.1.found.errs ++ [u.pos] }, stopped := true }, w.2)
    if u.reason v.codec ≠ 0 then stop (u.reason v.codec)
    else
      match u.kind with
      | .segment g =>
        match v.active o with
        | none => ({ w.1 with found := { w.1.found with errs := w.1.found.errs ++ [u.pos] }, stopped := true }, w.2)
        | some p =>
          if w.2 = 0 ∧ v.picReason o p ≠ 0 then
            let s := stop (v.picReason o p)
            ({ s.1 with found := { s.1.found with params := some p.1 } }, s.2)
          else
            let n := v.segment w.2 u.pos g { w.1 with found := { w.1.found with params := some p.1 } }
            (n, w.2 + 1)
      | _ => w

/-- What the tally finds in a picture. -/
def TallyView.found (v : TallyView) (o : CodedPic) : Found :=
  (o.units.foldl (v.unit o) ({ found := Found.reset, lost := false, stopped := false }, 0)).1.found

/-- Units ignored before the picture stops; units after the element that stops it are still read and counted. -/
def TallyView.ignoredUnits (v : TallyView) (o : CodedPic) : Nat :=
  let idc := match v.active o with
    | some p => p.1.opIdc.getD v.opPoint 0
    | none => 0
  (o.units.filter (fun u => u.ignored v.codec idc)).length

/-- Parameter sets after a picture’s units: each stored under its number, marked unusable where it holds unsupported syntax (R169). -/
def TallyView.stored (v : TallyView) (o : CodedPic) : List (ParamSet × Nat) :=
  o.units.foldl (fun l u => match u.kind with
    | .params p => (p, setReason v.codec p) :: l.filter (fun q => q.1.id != p.id)
    | _ => l) v.params

end Sys2Proof
end

