-- ==== Sys2Proof/Machine/Conceal.lean ====
section
/-! DEFINITION. Concealment (05_decoding.md: R207 to R209): references never received, the motion of lost blocks, and the samples they
are concealed with. -/

namespace Sys2Proof.Machine

/-! ### References (R208) -/

/-- A reference of a picture: output order, buffer (0 for mid-grey), source tide, and the substitution order that stands for it, 0 where
it is held. -/
structure RefPic where
  order : Int
  addr : Nat
  tide : Nat
  level : Nat
  deriving DecidableEq, Repr

/-- Pictures a decode stream holds as references. -/
def State.heldRefs (s : State) (c : Nat) : List DecPic := (s.dec c).pics.filter (fun p => p.isRef)

/-- The picture of a list nearest in output order; of two at equal distance the earlier. -/
def nearestTo (n : Int) (l : List DecPic) : Option DecPic :=
  l.foldl (fun b p => match b with
    | none => some p
    | some q =>
      if (p.order - n).natAbs < (q.order - n).natAbs ∨ ((p.order - n).natAbs = (q.order - n).natAbs ∧ p.order < q.order) then some p
      else some q) none

/-- The picture a reference names, when it is held. -/
def State.heldRef (s : State) (c : Nat) (u : RefUse) : Option DecPic :=
  match u.order with
  | some n => (s.heldRefs c).find? (fun p => p.order = n)
  | none =>
    let e := s.refEntry c 128 u.slot
    if e.testBit 63 then (s.heldRefs c).find? (fun p => p.addr = e % two40) else none

/-- A reference of a picture of an output order: the one held, or its substitute (R208). -/
def State.resolveRef (s : State) (c : Nat) (order : Int) (u : RefUse) : RefPic :=
  let n := u.order.getD (order - 1)
  match s.heldRef c u with
  | some p => { order := p.order, addr := p.addr, tide := p.tide, level := 0 }
  | none =>
    match nearestTo n (s.heldRefs c) with
    | some p => { order := p.order, addr := p.addr, tide := p.tide, level := 1 }
    | none =>
      let a := s.sf c 116 8 % two40
      if a ≠ 0 then { order := n, addr := a, tide := s.rdM (a + 8) 6, level := 2 }
      else { order := n, addr := 0, tide := 0, level := 3 }

/-- The picture of a reference, or of a buffer that address 0 leaves mid-grey. -/
def State.picAt (s : State) (a w h fmt : Nat) : Pic := if a = 0 then Pic.grey w h fmt else s.loadPic a

/-! ### Lost blocks (R207) -/

/-- How an 8 × 8 luma block is concealed: with motion from a reference, by its place in the picture’s list, or with the co-located
samples of LAST_DISPLAYED or mid-grey. -/
inductive Conceal where
  | motion (x y : Int) (ref : Nat)
  | still
  deriving DecidableEq, Repr

/-- An inter block’s vector and reference. -/
abbrev Motion := Int × Int × Nat

/-- The median: of an even count, the lower of the two middle values. -/
def medianOf (l : List Int) : Int := (l.mergeSort (fun a b => decide (a ≤ b))).getD ((l.length - 1) / 2) 0

/-- The four edge neighbours of a block, in raster order: above, left, right, below. -/
def edgesOf (bw bh i : Nat) : List Nat :=
  let x := i % max 1 bw
  let y := i / max 1 bw
  (if y = 0 then [] else [i - bw]) ++ (if x = 0 then [] else [i - 1]) ++ (if x + 1 < bw then [i + 1] else [])
    ++ (if y + 1 < bh then [i + bw] else [])

/-- The conceal rule of one block, from the motion of its inter neighbours, each with its index; `coloc` is the motion in the reference
nearest in output order, where the picture has a reference. Where no neighbour stands before the block, the first one after it gives
the reference (assumption 65). -/
def concealRule (i : Nat) (near : List (Nat × Motion)) (coloc : Option Motion) : Conceal :=
  match near with
  | [] =>
    match coloc with
    | some m => .motion m.1 m.2.1 m.2.2
    | none => .still
  | [n] => .motion n.2.1 n.2.2.1 n.2.2.2
  | n :: _ =>
    let ref := ((near.filter (fun k => decide (k.1 < i))).getLastD n).2.2.2
    .motion (medianOf (near.map (fun k => k.2.1))) (medianOf (near.map (fun k => k.2.2.1))) ref

/-- The motion of a block: decoded, or concealed as inter. -/
def motionOf (decoded : Nat → Bool) (mot : Nat → Option Motion) (done : SMap Conceal) (i : Nat) : Option Motion :=
  if decoded i then mot i
  else
    match done.find? (fun p => p.1 = i) with
    | some (_, .motion x y r) => some (x, y, r)
    | _ => none

/-- Every block that is not decoded, in raster order, with its rule. -/
def concealAll (bw bh : Nat) (decoded : Nat → Bool) (mot coloc : Nat → Option Motion) : SMap Conceal :=
  (List.range (bw * bh)).foldl (fun done i =>
    if decoded i then done
    else
      let near := (edgesOf bw bh i).filterMap (fun k => (motionOf decoded mot done k).map (fun m => (k, m)))
      done ++ [(i, concealRule i near (coloc i))]) []

/-! ### A picture’s blocks -/

/-- Is the 8 × 8 block i in a cell the tally decoded? -/
def Found.decodedBlock (f : Found) (bw blockRow i : Nat) : Bool :=
  let x := i % max 1 bw * 8 / 64
  let y := i / max 1 bw * 8 / max 1 blockRow
  f.segs.any (fun g => g.2.any (fun c => c.row = y && c.col = x))

/-- A picture while it is reconstructed: its size and format, its references, and how each lost block is concealed. -/
structure Blocks where
  w : Nat
  h : Nat
  format : Nat
  refs : List RefPic
  decoded : Nat → Bool
  mot : Nat → Option BlockMv
  lost : SMap Conceal

def Blocks.bw (b : Blocks) : Nat := cdiv b.w 8
def Blocks.bh (b : Blocks) : Nat := cdiv b.h 8

/-- N of R209. -/
def Blocks.count (b : Blocks) : Nat := b.bw * b.bh

/-- A decoded block whose prediction read a substituted picture. -/
def Blocks.readSubst (b : Blocks) (i : Nat) : Bool :=
  let sub := fun r => match b.refs[r]? with
    | some x => x.level != 0
    | none => false
  b.decoded i && (match b.mot i with
    | some m => sub m.ref || (match m.second with
      | some t => sub t.2.2
      | none => false)
    | none => false)

/-- A of R209: blocks concealed, or predicted from a substituted picture. -/
def Blocks.damaged (b : Blocks) : Nat := b.lost.length + ((List.range b.count).filter b.readSubst).length

/-- Substitutions of orders 1, 2 and 3 among the references (R208, R215). -/
def Blocks.substs (b : Blocks) : List Nat := [1, 2, 3].map (fun k => (b.refs.filter (fun r => r.level = k)).length)

/-- The reference nearest in output order; of two, the earlier. -/
def nearestRef (order : Int) (l : List RefPic) : Option Nat :=
  (l.zipIdx.foldl (fun b p => match b with
    | none => some p
    | some q =>
      let dp := (p.1.order - order).natAbs
      let dq := (q.1.order - order).natAbs
      if dp < dq ∨ (dp = dq ∧ p.1.order < q.1.order) then some p else some q) none).map (fun p => p.2)

/-- The blocks of a picture of a decode context (R207, R208). The co-located block’s motion is the record over it in the reference
nearest in output order, with that reference; zero motion if it was intra. A picture whose parameter set was never received has the
context’s largest size and format; none is larger than those (assumption 64). -/
def State.blocksOf (s : State) (c : Nat) (o : CodedPic) (f : Found) : Blocks :=
  let w := match f.params with
    | some p => min p.width (s.ctxW c)
    | none => s.ctxW c
  let h := match f.params with
    | some p => min p.height (s.ctxH c)
    | none => s.ctxH c
  let fmt := match f.params with
    | some p => s.ctxFormat c / 128 * 128 + Sys2Proof.ParamSet.format p
    | none => s.ctxFormat c
  let row := match f.params with
    | some p => p.blockRow
    | none => 64
  let refs := o.refs.map (s.resolveRef c o.order)
  let decoded := f.decodedBlock (cdiv w 8) row
  let mot := fun i => (o.motion.getD i none)
  let near := nearestRef o.order refs
  let coloc := fun i => near.map (fun r =>
    let a := (refs.getD r { order := 0, addr := 0, tide := 0, level := 3 }).addr
    let bw := cdiv w 8
    let m := if a = 0 then MvRec.intra else s.mvAt a (i / max 1 bw / 2 * cdiv w 16 + i % max 1 bw / 2)
    if m.cls = 0 then ((0 : Int), (0 : Int), r) else (m.x, m.y, r))
  { w, h, format := fmt, refs, decoded, mot
    lost := concealAll (cdiv w 8) (cdiv h 8) decoded (fun i => (mot i).map (fun m => (m.x, m.y, m.ref))) coloc }

/-- The reconstructed picture: the decoded samples where blocks were decoded, and the concealment elsewhere, without residual or
in-loop filtering (R207). `still` is LAST_DISPLAYED, or mid-grey. -/
def Blocks.picture (b : Blocks) (codec struct : Nat) (planes : List (List Nat)) (refPic : Nat → Pic) (still : Pic) : Pic :=
  let dec := Pic.ofPlanes b.w b.h b.format struct planes
  { dec with px := fun k x y =>
      let lx := if k ≠ 0 ∧ dec.chroma ≠ 3 then 2 * x else x
      let ly := if k ≠ 0 ∧ dec.chroma = 1 then 2 * y else y
      match b.lost.find? (fun p => p.1 = ly / 8 * b.bw + lx / 8) with
      | some (_, .motion mx my r) => (refPic r).predict codec k x y mx my
      | some (_, .still) => still.at k x y
      | none => dec.px k x y }

/-- The motion record of the 16 × 16 block i: that of its first 8 × 8 block (R207, R229; assumption 66). Distances are from the
picture’s source tide. -/
def Blocks.mvRec (b : Blocks) (tide i : Nat) : MvRec :=
  let bw16 := cdiv b.w 16
  let k := i / max 1 bw16 * 2 * b.bw + i % max 1 bw16 * 2
  let dist := fun r => tide - (b.refs.getD r { order := 0, addr := 0, tide, level := 3 }).tide
  match b.lost.find? (fun p => p.1 = k) with
  | some (_, .motion x y r) => { MvRec.intra with x, y, dist := dist r, cls := 3 }
  | some (_, .still) => { MvRec.intra with cls := 3 }
  | none =>
    match b.mot k with
    | none => MvRec.intra
    | some m =>
      let r1 := { MvRec.intra with x := m.x, y := m.y, dist := dist m.ref, cls := if m.skip then 2 else 1 }
      match m.second with
      | some t => { r1 with x2 := t.1, y2 := t.2.1, dist2 := dist t.2.2, cls2 := r1.cls }
      | none => r1

/-- The motion data of the side area (R190, R229). -/
def Blocks.motionBytes (b : Blocks) (tide : Nat) : List Nat := (List.range (mvBlocks b.w b.h)).flatMap (fun i => (b.mvRec tide i).bytes)

end Sys2Proof.Machine
end

