-- ==== Sys2Proof/Machine/Decode.lean ====
section
/-! DEFINITION. Decode jobs (05_decoding.md: R182 to R215): entropy decoding through the quay, reconstruction, commit and replay,
concealment score and recovery, START, STOP, READ_STATUS and FLUSH. The syntax of a coded picture and the samples its decoded blocks
come to by its standard are the commands’ operands. -/

namespace Sys2Proof.Machine

/-! ### Refresh requests (R211) -/

/-- A refresh request (R351). -/
def refreshBytes (node target ctx await reqCtx : Nat) : List Nat :=
  [0x81, 204, 0, 6] ++ beBytes 4 node ++ [0x54, 0x4E, 0x46, 0x42] ++ beBytes 2 target ++ beBytes 2 ctx ++ beBytes 6 await
    ++ beBytes 2 reqCtx ++ [0, 0, 0, 0]

/-- Send a refresh request to the upstream node of a decode context, on every path of its stream (R211, R351). -/
def State.askRefresh (c : Nat) (s : State) : State :=
  if s.ctrlBit c 0 && s.ctrlBit c 1 && s.sf c 106 2 != 0xFFFF then
    let m := refreshBytes (s.fld Reg.NET_NODE 15 0) (s.sf c 106 2) (s.dec c).elemCtx (s.sf c 108 6) c
    let s := s.each (s.dec c).paths (fun p => State.emit (.refresh p.2.1 p.2.2 (s.fld Reg.NET_FB_PORT 15 0) m))
    ((s.bump Reg.NET_FB_TX_LAST 1).incSf c 124).setDec c { s.dec c with asked := s.tideNum }
  else s

/-- Enter AWAITING_RECOVERY with a held score (R204); a recovery begun is cancelled (R206). A stream that is stopping keeps its STATE
(R213). -/
def State.await (c held : Nat) (s : State) : State :=
  let s := s.whenB (s.ctxState c != 3 && s.ctxState c != 4) (State.setCtxState c 1)
  let s := (s.setSf c 108 6 s.tideNum).setSf c 79 1 (min 255 held)
  (s.setDec c { s.dec c with points := [], sweepBegun := none }).askRefresh c

/-- REFRESH_REQUEST_REPEAT: every REFRESH_INTERVAL tides while no recovery has begun (R211). -/
def State.refreshRepeat (c : Nat) (s : State) : State :=
  let d := s.dec c
  if s.ctxKind c = 1 && s.ctxState c = 1 && d.points.isEmpty && d.sweepBegun.isNone && decide (d.asked + max 1 (s.sf c 26 1) ≤ s.tideNum)
  then s.askRefresh c else s

/-! ### START, STOP, READ_STATUS, FLUSH (R185, R187, R213) -/

/-- A berth is bound to a context, with a leaf type (check 6). -/
def State.boundTo (s : State) (u c : Nat) (k : Kind) : Bool :=
  (s.unit u).berth == .bound && (s.unit u).ctxs.contains c && s.leafOf u == some k

/-- A pool is defined. -/
def State.poolDefined (s : State) (p : Nat) : Bool := decide (p < 256) && s.poolOn p

/-- FORMAT holds no reserved value (R153). -/
def State.formatOk (s : State) (c : Nat) : Bool :=
  decide (1 ≤ s.codec c) && decide (s.codec c ≤ 4) && decide (bits (s.ctxFormat c) 9 7 ≤ 3) && decide (s.ctxFormat c < 2048)

/-- Bytes of the largest picture of a context (R190). -/
def State.ctxPicBytes (s : State) (c : Nat) : Nat := picBytes (s.ctxW c) (s.ctxH c) (s.chroma c) (s.depth10 c)

/-- The first failing check of R187, 0 when all pass. -/
def State.decStartCode (s : State) (c : Nat) : Nat :=
  if s.sf c 0 2 ≠ c ∨ s.ctxKind c ≠ 1 then 1
  else if s.ctxState c ≠ 0 then 2
  else if !s.formatOk c then 3
  else if s.cadD c ≤ s.cadPhi c then 4
  else if !s.sizeFits c then 5
  else if !s.boundTo (s.gtBerth c) c .gantry || !s.boundTo (s.tlBerth c) c .tally then 6
  else if !s.poolDefined (s.sf c 20 2) || !s.poolDefined (s.sf c 22 2) || decide (s.poolSize (s.sf c 22 2) < s.ctxPicBytes c) then 7
  else if 2 < s.sf c 18 1 % 8 ∨ bits (s.sf c 7 1) 5 4 = 3 ∨ 31 < s.sf c 24 1 ∨ s.sf c 26 1 = 0 ∨ 8 < s.sf c 27 1 then 8
  else 0

/-- START of a decode context (R187, R204). -/
def State.decStart (u : Nat) (j : Job) (s : State) : State :=
  let code := s.decStartCode j.ctx
  if code ≠ 0 then (s.setJob u { j with b1 := code }).endJob u 0x20
  else
    let s := ((s.readCtx j.ctx).clearRefs j.ctx 128 16).setDec j.ctx { DecSt.reset with pics := (s.dec j.ctx).pics, since := s.tideNum }
    let s := s.setSf j.ctx 106 2 0xFFFF
    ((s.await j.ctx 255).each (s.leafList u) State.spadNeed).endJob u 0

/-- STOP: flag bit 0 clear QUIESCE, set HALT (R185, R213). The job ends with the stop. -/
def State.streamStopJob (_u : Nat) (j : Job) (s : State) : State :=
  let s := s.stopStream j.ctx (j.flags.testBit 0)
  if s.ctxState j.ctx = 0 then s.each (s.stopJobs j.ctx) (fun u s => s.endJob u 0) else s

/-- READ_STATUS: 64 bytes of the context to the destination; clears FIRST_REASON in a decode context (R185, R220). -/
def State.readStatus (u off : Nat) (dec : Bool) (j : Job) (s : State) : State :=
  let bs := (List.range 64).map (fun i => s.ctxByte j.ctx (off + i))
  let r := s.writeMem u (j.s0 % two40) bs
  match r.1 with
  | .ok => ((if dec then r.2.setSf j.ctx 77 1 0 else r.2)).endJob u 0
  | _ => r.2.endJob u 0x21

/-- FLUSH (R185, R204). -/
def State.flushJob (u : Nat) (j : Job) (s : State) : State :=
  let s := s.retireRefs j.ctx
  let s := s.setDec j.ctx { s.dec j.ctx with joined := false, skipB := false, skipRasl := false }
  (s.await j.ctx 255).endJob u 0

/-! ### Statistics of a berth’s members (R214, R215) -/

/-- The event of R613 that a latched statistic counts too: blocks concealed, blocks coded by exact match, resynchronisations,
composed samples; 0 for none. -/
def statEvent (r : Nat) : Nat :=
  if r = Reg.GT_CONCEAL_LAST then 0x106
  else if r = Reg.GT_HASH_EXACT_LAST then 0x105
  else if r = Reg.TL_RESYNC_LAST then 0x203
  else 0

/-- Count in a latched statistic of leaf i of a berth, and in the counters of the same event. -/
def State.leafBumpAt (u i r n : Nat) (s : State) : State :=
  match (s.leafList u)[i]? with
  | some m =>
    let s := s.bump (ucb m r) n
    if statEvent r = 0 then s else s.sndCount m (statEvent r) n
  | none => s

/-- Bins of CABAC or symbols of another coder at leaf i of a tally berth (R214, R613). -/
def State.symbolsAt (u c i n : Nat) (s : State) : State :=
  match (s.leafList u)[i]? with
  | some m => (s.bump (ucb m Reg.TL_SYMBOLS_LAST) n).sndCount m (if s.cabac c then 0x200 else 0x201) n
  | none => s

/-- A register of leaf i of a berth. -/
def State.leafWrAt (u i r v : Nat) (s : State) : State :=
  match (s.leafList u)[i]? with
  | some m => s.wr (ucb m r) v
  | none => s

/-! ### Entropy decoding (R159, R167, R193, R194, R195) -/

/-- The missing offsets of the loss map at an address, whose entries number 1 to 255 (R340). -/
def State.lossMapAt (s : State) (a : Nat) : List Nat :=
  if a = 0 ∨ s.rdM a 4 ≠ 0x50414D4C then []
  else (List.range (min 255 (s.rdM (a + 4) 4))).map (fun i => s.rdM (a + 8 + 8 * i) 4)

/-- What the tally sees of a job’s picture besides its syntax. -/
def State.tallyView (s : State) (j : Job) (o : CodedPic) : TallyView :=
  let c := j.ctx
  let g := s.gtBerth c
  let v : TallyView :=
    { codec := s.codec c, format := s.ctxFormat c, maxW := s.ctxW c, maxH := s.ctxH c, grp := unitKind g == some .group
      split := s.split g, members := (s.leafList g).length, opPoint := s.sf c 24 1, params := (s.dec c).params
      missing := s.lossMapAt (j.s1 % two40)
      len := if j.flags.testBit 2 then some (s.rdM (j.s0 % two40 + 16) 4) else none }
  { v with params := Sys2Proof.TallyView.stored v o }

/-- COMMIT_SPAN of a gantry, 1 to 16 (R200). -/
def State.decSpan (s : State) (gt i : Nat) : Nat :=
  match (s.leafList gt)[i]? with
  | some m => max 1 (s.fld (ucb m Reg.GT_DEC_CFG) 4 0)
  | none => 1

/-- The entries of cells as commit regions: `span` × 64 columns of one block row, or the remainder of the row (R200). A cell has at
most 1,024 entries (R192). -/
def regionRuns (leaf seg member span cols : Nat) : List Cell → List QRun
  | [] => []
  | c :: cs =>
    let stop := min cols ((c.col / span + 1) * span)
    let n := min 1024 c.entries
    match regionRuns leaf seg member span cols cs with
    | r :: rs =>
      if r.row = c.row ∧ r.stop = stop then { r with todo := r.todo + n } :: rs
      else { leaf, seg, member, row := c.row, stop, n := 0, todo := n, read := 0 } :: r :: rs
    | [] => [{ leaf, seg, member, row := c.row, stop, n := 0, todo := n, read := 0 }]

/-- The member of the gantry berth whose share holds a segment; a whole picture goes to the members in turn (R158, R195). -/
def State.memberOf (s : State) (c : Nat) (o : CodedPic) (p : Option ParamSet) (g : Segment) : Nat :=
  let gt := s.gtBerth c
  let n := (s.leafList gt).length
  if unitKind gt != some .group then 0
  else if s.split gt ≠ 0 ∧ s.split gt ≠ 1 then s.sf c 80 4 % max 1 n
  else
    match p.bind (fun p => Sys2Proof.CodedPic.shares o p (s.split gt) n) with
    | some l => l.getD (if s.split gt = 0 then g.slice else g.tile) 0
    | none => 0

/-- The tally leaf of a segment; a picture without entry points is handled on one tally (R159). -/
def State.leafIndex (s : State) (u : Nat) (o : CodedPic) (g : Segment) : Nat :=
  if (Sys2Proof.CodedPic.segments o).length ≤ 1 then 0 else g.leaf % max 1 (s.leafList u).length

/-- The quay entry list of a picture: each segment’s cells up to where it was lost or stopped (R193, R194, R195). -/
def State.picRuns (s : State) (u c : Nat) (o : CodedPic) (f : Found) : List QRun :=
  let segs := (Sys2Proof.CodedPic.segments o).map (fun g => g.2)
  let cols := match f.params with
    | some p => cdiv p.width 64
    | none => 1
  f.segs.flatMap (fun x => match segs[x.1]? with
    | some g =>
      let m := s.memberOf c o f.params g
      regionRuns (s.leafIndex u o g) x.1 m (s.decSpan (s.gtBerth c) m) cols x.2
    | none => [])

/-- The statistics of a picture’s segments, each at the tally leaf that decodes it (R214). -/
def State.tallyStats (u c : Nat) (o : CodedPic) (f : Found) (s : State) : State :=
  let segs := (Sys2Proof.CodedPic.segments o).map (fun g => g.2)
  let s := s.each f.segs (fun x s => match segs[x.1]? with
    | some g => s.symbolsAt u c (s.leafIndex u o g) ((x.2.map (fun c => c.symbols)).foldl (· + ·) 0)
    | none => s)
  s.leafBumpAt u (match f.segs.getLast? with
    | some x => match segs[x.1]? with
      | some g => s.leafIndex u o g
      | none => 0
    | none => 0) Reg.TL_RESYNC_LAST f.resyncs.length

/-- TL_ERR_POS and TL_ERR_INFO take the last syntax error or unsupported element, as an offset in the bitstream buffer (R214). -/
def State.tallyErr (u c : Nat) (f : Found) (s : State) : State :=
  match f.errs.getLast? with
  | some e =>
    let i := match f.segs.getLast? with
      | some x => x.1 % max 1 (s.leafList u).length
      | none => 0
    (s.leafWrAt u i Reg.TL_ERR_POS (64 + e)).leafWrAt u i Reg.TL_ERR_INFO (c % 4096 + f.reason % 256 * 65536)
  | none => s

/-- The ENTROPY_DECODE of a picture completes once its end-of-picture entry is written: the bitstream buffer is freed (R193). One
whose RECONSTRUCT found its ring full leaves nothing in the quay (R657). -/
def State.tallyDone (u : Nat) (x : QuayPic) (s : State) : State :=
  match s.jobAt u 0x0101 with
  | some j =>
    if j.ctx = x.ctx ∧ j.seq = x.seq then
      let s := s.whenB ((s.dec j.ctx).orphans.contains j.seq) (State.quayDrop u j.ctx j.seq)
      ((s.giveBack u (j.s0 % two40)).setJob u { j with b1 := x.found.reason }).endJob u (if x.found.reason ≠ 0 then 3 else 0)
    else s
  | none => s

/-- The tally writes on while there is room, and completes its job when all is written (R71, R193). -/
def State.tallyWrite (u c seq : Nat) (s : State) : State :=
  match s.quayFind u c seq with
  | none => s
  | some x =>
    let y := s.quayFill u x
    let s := s.quayPut u y
    if y.eop = 1 then s.tallyDone u y else s

/-- A picture is begun: its parameter sets are stored, its units counted, and its entries are to be written (R165, R166, R169, R193). -/
def State.tallyBegin (o : CodedPic) (u : Nat) (j : Job) (s : State) : State :=
  let c := j.ctx
  let v := s.tallyView j o
  let f := Sys2Proof.TallyView.found v o
  let s := s.tagPicture false o.tags j
  let s := s.setDec c { s.dec c with params := v.params }
  let s := s.setSf c 92 4 (s.sf c 92 4 + Sys2Proof.TallyView.ignoredUnits v o)
  let s := match Sys2Proof.TallyView.active v o with
    | some p => s.setSf c 104 2 (p.1.level % 65536)
    | none => s
  let runs := s.picRuns u c o f
  let s := (s.tallyStats u c o f).tallyErr u c f
  s.quayAdd u { ctx := c, seq := j.seq, runs, eop := 0, eopLeaf := (runs.getLast?.map (fun r => r.leaf)).getD 0, found := f, pic := some o }

/-- ENTROPY_DECODE: while ABOVE_HIGH is 1 no new picture is begun (R192); a picture begun is written on. -/
def State.entropyDecode (o : CodedPic) (u : Nat) (j : Job) (s : State) : State :=
  match s.quayFind u j.ctx j.seq with
  | some _ => s.tallyWrite u j.ctx j.seq
  | none => if s.quayHigh u then s else (s.tallyBegin o u j).tallyWrite u j.ctx j.seq

/-! ### Commits (R195, R200) -/

/-- A gantry member commits regions of a picture: GT_COMMIT_POS and GT_DEC_STATUS follow the last. -/
def State.showCommit (gt c : Nat) (l : List QRun) (s : State) : State :=
  s.each l (fun r s =>
    (s.leafWrAt gt r.member Reg.GT_COMMIT_POS (r.row % 65536 + r.stop % 65536 * 65536)).leafWrAt gt r.member Reg.GT_DEC_STATUS
      (c % 4096 + r.row % 65536 * 65536))

/-- One turn: the tally writes what there is room for, the gantry commits the regions that are complete. -/
def State.quayTurn (t c seq : Nat) (s : State) : State × Bool :=
  let s := s.tallyWrite t c seq
  match s.quayFind t c seq with
  | none => (s, false)
  | some x =>
    let k := commitRuns [] x.runs
    ((s.quayPut t { x with runs := k.1 }).showCommit (s.gtBerth c) c k.2, !k.2.isEmpty)

/-- The tally and the gantry of a picture go on in turn while a region is committed. -/
def State.quayRun (t c seq : Nat) : Nat → State → State
  | 0, s => s
  | n + 1, s =>
    let r := s.quayTurn t c seq
    if r.2 then State.quayRun t c seq n r.1 else r.1

/-! ### Reconstruction (R196 to R212) -/

/-- Own score of a picture (R209). -/
def ownScore (a w h : Nat) : Nat :=
  if a = 0 then 0 else max 1 (cdiv (255 * a) (max 1 (cdiv w 8 * cdiv h 8)))

/-- Highest substitution order used (R208). -/
def substOrder (l : List Nat) : Nat :=
  if l.getD 2 0 ≠ 0 then 3 else if l.getD 1 0 ≠ 0 then 2 else if l.getD 0 0 ≠ 0 then 1 else 0

/-- Count substitutions in GT_SUBST_LAST, each field saturating at 1,023 (R215). -/
def State.substCount (u : Nat) (l : List Nat) (s : State) : State :=
  match s.leafList u with
  | [] => s
  | m :: _ =>
    let o := ucb m Reg.GT_SUBST_LAST
    let v := SMap.get (fun _ => 0) s.counts o
    let n := (List.range 3).foldl (fun acc i =>
      acc + min 1023 (bits v (10 * i + 9) (10 * i) + l.getD i 0) * 2 ^ (10 * i)) 0
    { s with counts := SMap.ins o n s.counts }

/-- REF_TABLE after a picture: each slot empty, this picture, or an entry that stood before; the entries beyond the codec’s limit stay
empty (R160, R196). -/
def State.newRefs (s : State) (c a : Nat) (slots : List Nat) : List Nat :=
  (List.range 16).map (fun i =>
    if refLimit (s.codec c) ≤ i then 0
    else match slots.getD i 0 with
    | 0 => 0
    | 1 => a + 2 ^ 63
    | k + 2 => if k < 16 then s.refEntry c 128 k else 0)

/-- A join point (R205). -/
def joinPoint (codec : Nat) (o : CodedPic) : Bool :=
  match o.kind with
  | .mpegI hdr _ => codec = 1 && hdr
  | .idr => codec = 2
  | .irap _ => codec = 3
  | .key shown => codec = 4 && shown
  | _ => (codec = 2 || codec = 3) && o.recovery.isSome

/-- A picture that ends a recovery by itself (rule 1 of R206). -/
def randomAccess : PicKind → Bool
  | .mpegI _ _ => true
  | .idr => true
  | .irap _ => true
  | .key _ => true
  | _ => false

/-- A picture discarded after joining (R205). -/
def DecSt.skips (d : DecSt) (k : PicKind) : Bool := (d.skipB && k == .mpegB) || (d.skipRasl && k == .rasl)

/-- The stream joins at a picture, or goes on: the pictures discarded after joining are MPEG-2 B pictures before the next anchor, unless
closed_gop is 1, and RASL pictures of the CRA or BLA joined at (R205). -/
def DecSt.join (d : DecSt) (k : PicKind) : DecSt :=
  if !d.joined then
    let openGop := match k with
      | .mpegI _ closed => !closed
      | _ => false
    let lead := match k with
      | .irap lead => lead
      | _ => false
    { d with joined := true, skipB := openGop, skipRasl := lead }
  else
    let irap := match k with
      | .irap _ => true
      | _ => false
    { d with skipB := d.skipB && k == .mpegB, skipRasl := d.skipRasl && !irap }

/-- A picture discarded before the join point, or after joining (R205): counted, its entries freed unread, and nothing written. -/
def State.discardPic (u : Nat) (j : Job) (st : Nat) (s : State) : State :=
  let c := j.ctx
  let s := (s.quayDrop (s.tlBerth c) c j.seq).incSf c 92
  (s.setJob u { j with b2 := s.sf c 79 1, b3 := b2n (s.ctxState c = 1) }).endJob u st

/-- Allocate the output buffer and, with grain, the copy’s buffer; none when PIC_POOL has none (R198, R212). -/
def State.picBuffers (u : Nat) (j : Job) (grain : Bool) (s : State) : Option (Nat × Nat) × State :=
  let p := s.sf j.ctx 22 2
  let r := if j.s0 ≠ 0 then (0, j.s0 % two40, s) else s.alloc u u p .job
  if r.1 ≠ 0 then (none, r.2.2)
  else if !grain then (some (r.2.1, 0), r.2.2)
  else
    let g := r.2.2.alloc u u p .job
    if g.1 ≠ 0 then (none, if j.s0 ≠ 0 then g.2.2 else g.2.2.giveBack u r.2.1) else (some (r.2.1, g.2.1), g.2.2)

/-- A mismatch of the decoded picture hash (R199). -/
def hashMismatch (o : CodedPic) (p : Pic) : Bool :=
  match o.hash with
  | some (t, v) =>
    decide (t ≤ 2) && Config.pictureHash t ((List.range 3).map (fun k =>
      (List.range (p.dims k).2).flatMap (fun y => (List.range (p.dims k).1).map (fun x => p.px k x y)))) != v
  | none => false

/-- FLAGS and SWEEP_ID of the element received with a picture (R350). -/
def State.markOf (s : State) (c src : Nat) : Nat × Nat :=
  match (s.dec c).marks.find? (fun m => m.1 = src) with
  | some m => if s.ctrlBit c 0 then m.2 else (0, 0)
  | none => (0, 0)

/-- Where a stream stands after a picture (R204, R206): whether the picture enters AWAITING_RECOVERY, whether it ends the recovery, and
the recoveries begun. -/
structure Recovery where
  enter : Bool
  leave : Bool
  points : List Nat
  sweep : Option Nat
  deriving DecidableEq, Repr

/-- The recovery rules for a picture with an own score and reason. A substitution alone enters when the stream was not awaiting
(assumption 67). -/
def State.recoveryOf (s : State) (c src : Nat) (o : CodedPic) (own reason : Nat) (late hashBad subst : Bool) : Recovery :=
  let d := s.dec c
  let awaiting := s.ctxState c = 1
  let m := s.markOf c src
  let ref := o.isRef && o.kind != .mpegB
  let enter := (ref && (decide (0 < own) || late || (subst && !awaiting))) || hashBad
  let mf := (((d.params.find? (fun p => p.1.id = o.params)).map (fun p => p.1.maxFrameNum)).getD 0)
  let wrap := fun n => if s.codec c = 2 ∧ mf ≠ 0 then n % mf else n
  let points := match awaiting && (s.codec c = 2 || s.codec c = 3), o.recovery with
    | true, some n => wrap (o.num + n) :: d.points
    | _, _ => d.points
  let sweep := if awaiting && m.1.testBit 7 then some m.2 else d.sweepBegun
  { enter, points, sweep
    leave := awaiting && own = 0 && reason = 0 && !enter
      && (randomAccess o.kind || points.contains o.num || (m.1.testBit 6 && sweep == some m.2)) }

/-- Where each concealed 8 × 8 block’s count goes: the member whose share holds it (R215). -/
def State.concealStats (gt c : Nat) (x : QuayPic) (o : CodedPic) (b : Blocks) (s : State) : State :=
  let n := (s.leafList gt).length
  let row := (x.found.params.map (fun p => p.blockRow)).getD 64
  let member := fun (i : Nat) =>
    let cx := i % max 1 b.bw * 8 / 64
    let cy := i / max 1 b.bw * 8 / max 1 row
    match (Sys2Proof.CodedPic.segments o).find? (fun g => g.2.cells.any (fun k => k.row = cy && k.col = cx)) with
    | some g => s.memberOf c o x.found.params g.2
    | none => 0
  s.each (List.range n) (fun m s =>
    s.leafBumpAt gt m Reg.GT_CONCEAL_LAST ((b.lost.filter (fun p => member p.1 = m)).length))

/-- Members that reconstructed a part of a picture. -/
def State.picMembers (s : State) (c : Nat) (o : CodedPic) (x : QuayPic) : List Nat :=
  (((Sys2Proof.CodedPic.segments o).map (fun g => s.memberOf c o x.found.params g.2)).eraseDups).headD 0 ::
    (((Sys2Proof.CodedPic.segments o).map (fun g => s.memberOf c o x.found.params g.2)).eraseDups).drop 1

/-- The size of a picture’s buffer: that of the picture where the job names the buffer, that of the pool otherwise (R190, R211). -/
def State.outSize (s : State) (j : Job) (b : Blocks) : Nat :=
  if j.s0 ≠ 0 then picBytes b.w b.h (bits b.format 5 4) (b.format.testBit 6) else s.poolSize (s.sf j.ctx 22 2)

/-- The picture as it is written: the decoded blocks and the concealed ones (R196, R207, R208). -/
def State.picWritten (s : State) (o : CodedPic) (out : PicOut) (b : Blocks) (c : Nat) : Pic :=
  let last := s.sf c 116 8 % two40
  b.picture (s.codec c) o.struct out.planes
    (fun i => s.picAt (b.refs.getD i { order := 0, addr := 0, tide := 0, level := 3 }).addr b.w b.h b.format) (s.picAt last b.w b.h b.format)

/-- How a picture ends (R199, R203, R206 to R212): whether its hash failed, the highest order of substitution, where the stream then
stands, the score reported, and the status. -/
structure PicEnd where
  hashBad : Bool
  order : Nat
  recovery : Recovery
  score : Nat
  status : Nat
  deriving DecidableEq, Repr

/-- The end of a RECONSTRUCT job’s picture; `late` when the tide start stopped it (R203). -/
def State.picEnd (s : State) (o : CodedPic) (x : QuayPic) (b : Blocks) (pic : Pic) (late : Bool) (j : Job) : PicEnd :=
  let c := j.ctx
  let reason := x.found.reason
  let hashBad := s.ctrlBit c 2 && s.codec c = 3 && hashMismatch o pic
  let own := max (b2n hashBad) (ownScore b.damaged b.w b.h)
  let order := substOrder b.substs
  let recovery := s.recoveryOf c (s.srcTide j) o own reason late hashBad (order ≠ 0)
  let score := if recovery.leave then own else max own (s.sf c 79 1)
  let status := if late then 0x30 else if reason ≠ 0 then 3 else if 0 < score ∨ order ≠ 0 then 1 else if j.rerun then 0x31 else 0
  { hashBad, order, recovery, score, status }

/-- The stream enters AWAITING_RECOVERY, leaves it, or holds the score while it waits (R204, R206, R210). -/
def State.recover (c : Nat) (kind : PicKind) (e : PicEnd) (s : State) : State :=
  let rc := e.recovery
  let awaiting := s.ctxState c = 1
  let held := s.sf c 79 1
  let s := s.setDec c { (s.dec c).join kind with
    points := if rc.leave then [] else rc.points, sweepBegun := if rc.leave then none else rc.sweep }
  if rc.enter then s.await c e.score
  else if rc.leave then ((s.setCtxState c 2).setSf c 79 1 0).incSf c 100
  else if awaiting && decide (held < e.score) then s.setSf c 79 1 e.score
  else s

/-- A picture is NOT_FOR_DISPLAY: a late one, and by HOLD_MODE (R203, R210). -/
def State.notForDisplay (s : State) (c : Nat) (late : Bool) (score : Nat) : Bool :=
  let mode := bits (s.sf c 7 1) 5 4
  late || (mode = 1 && decide (s.sf c 25 1 < score)) || (mode = 2 && s.ctxState c = 1)

/-- The record, the samples, the motion data and the row context of a picture are written into its buffer, and those of its copy with
film grain into the copy’s (R189, R190, R198). No byte is written beyond the buffer. -/
def State.pictureOut (c u a g size src : Nat) (o : CodedPic) (out : PicOut) (b : Blocks) (pic : Pic) (rec_ : List Nat) (s : State) : State :=
  let side := planeOfs (bits b.format 5 4) b.w b.h (b.format.testBit 6) 3
  let mot := b.motionBytes src
  let s := ((s.writeMem u a rec_).2.storePic u a size pic)
  let s := s.whenB (side + mot.length ≤ size) (fun s => (s.writeMem u (a + side) mot).2)
  let s := s.whenB (side + mot.length + 65536 ≤ size) (fun s => (s.writeMem u (a + side + mot.length) (out.context.take 65536)).2)
  if g ≠ 0 then ((s.writeMem u g (rec_.take 80 ++ List.replicate 48 0)).2.storePic u g (s.poolSize (s.sf c 22 2))
    (Pic.ofPlanes b.w b.h b.format o.struct out.grainPlanes))
  else s

/-- The picture is kept: REF_TABLE takes its new entries, and it waits to be shown (R191, R196). -/
def State.keepPicture (c a g src : Nat) (hidden : Bool) (o : CodedPic) (s : State) : State :=
  let refs := s.newRefs c a o.slots
  let live := fun (x : Nat) => refs.any (fun r => r = x + 2 ^ 63)
  let s := s.each refs.zipIdx (fun p s => s.setSf c (128 + 8 * p.2) 8 p.1)
  let d := s.dec c
  s.setDec c { d with
    pics := { addr := a, grain := g, tide := src, hidden, isRef := live a, order := o.order } ::
      d.pics.map (fun p => { p with isRef := live p.addr }) }

/-- The counts of the context, the last picture’s tide, size and score (R182). -/
def State.countPicture (c src reason : Nat) (b : Blocks) (e : PicEnd) (s : State) : State :=
  let s := (s.setSf c 64 6 src).setSf c 72 4 (b.w % 65536 + b.h % 65536 * 65536)
  let s := (s.setSf c 78 1 e.score).incSf c 80
  let s := s.whenB (e.status = 1) (State.incSf c 84)
  s.whenB (e.status = 3) (fun s => (s.incSf c 88).setSf c 77 1 (if s.sf c 77 1 = 0 then reason else s.sf c 77 1))

/-- The picture of a RECONSTRUCT job is complete (R196 to R210); `late` when the tide start stopped it (R203). -/
def State.completePic (o : CodedPic) (out : PicOut) (x : QuayPic) (late : Bool) (u : Nat) (j : Job) (a g : Nat) (s : State) : State :=
  let c := j.ctx
  let src := s.srcTide j
  let b := s.blocksOf c o x.found
  let size := s.outSize j b
  let pic := s.picWritten o out b c
  let e := s.picEnd o x b pic late j
  let s := s.recover c o.kind e
  let hidden := s.notForDisplay c late e.score
  let rec_ := picRecord c e.status e.score src (b2n hidden + b2n o.isRef * 2 + o.hdrFlags % 4 * 4) o.struct b.w b.h b.format o.order g o.hdr
  let s := (s.pictureOut c u a g size src o out b pic rec_).keepPicture c a g src hidden o
  let s := s.countPicture c src x.found.reason b e
  let s := s.each (s.picMembers c o x) (fun m s => s.leafBumpAt u m Reg.GT_PICS_LAST 1)
  let s := (s.concealStats u c x o b).substCount u b.substs
  let s := s.quayDrop (s.tlBerth c) c j.seq
  let j := { j with
    b1 := if e.status = 3 then x.found.reason else 0, b2 := e.score, bufs := []
    b3 := b2n (s.ctxState c = 1) + b2n (e.order ≠ 0) * 2 + b2n e.recovery.leave * 4 + b2n j.rerun * 8 + b2n e.hashBad * 16
      + b2n hidden * 32
    b15 := e.order }
  (s.setJob u j).endJob u e.status

/-- An output buffer that the picture would leave: a pointer that reaches an unmapped range (R29, R34, R212). -/
def State.outRefused (s : State) (u : Nat) (j : Job) (b : Blocks) : Bool :=
  j.s0 != 0 && s.canWrite u (j.s0 % two40) (s.outSize j b) == .refused

/-- A picture with its entries all read is completed, unless it is discarded or finds no buffer (R205, R212). -/
def State.finishPic (o : CodedPic) (out : PicOut) (x : QuayPic) (late : Bool) (u : Nat) (j : Job) (s : State) : State :=
  let c := j.ctx
  let d := s.dec c
  if (!d.joined && !joinPoint (s.codec c) o) || d.skips o.kind then s.discardPic u j (if late then 0x30 else 0)
  else if s.outRefused u j (s.blocksOf c o x.found) then
    ((s.quayDrop (s.tlBerth c) c j.seq).usageAddr u 2 (j.s0 % two40)).endJob u 0x21
  else
    match s.picBuffers u j (!late && o.grain && s.ctrlBit c 3 && s.codec c = 4) with
    | (none, s) => (s.quayDrop (s.tlBerth c) c j.seq).endJob u 0x22
    | (some (a, g), s) => s.completePic o out x late u j a g

/-- RECONSTRUCT: the gantry reads and commits the entries of its picture as the tally writes them; when the last region is committed
it reads the end-of-picture entry and the picture is complete (R196 to R212). Until then it waits. A read of quays that hold no unread
entry sets UNDERRUN (R70). -/
def State.reconstruct (out : PicOut) (u : Nat) (j : Job) (s : State) : State :=
  let t := s.tlBerth j.ctx
  match s.quayFind t j.ctx j.seq with
  | none => s.quayRead t
  | some x =>
    let s := s.quayRun t j.ctx j.seq (x.runs.length + 1)
    match s.quayFind t j.ctx j.seq with
    | some y =>
      match y.pic with
      | some o => if y.eop = 1 ∧ y.runs.isEmpty then s.finishPic o out y false u j else s
      | none => s
    | none => s

/-! ### Jobs still running at a tide start (R132, R203) -/

/-- What was found of a picture, with the cells whose regions were not committed taken out: the rest is concealed (R203). -/
def Found.committed (f : Found) (runs : List QRun) (span : Nat) : Found :=
  { f with segs := f.segs.map (fun x => (x.1, x.2.filter (fun c =>
      !runs.any (fun r => r.seg = x.1 && r.row = c.row && decide (c.col < r.stop) && decide (r.stop ≤ (c.col / span + 1) * span))))) }

/-- A picture whose tally never began: its syntax is not known, so it is a reference of the context’s largest size, next in output
order, concealed whole from the references held (R203, R207; assumption 68). -/
def State.unseenPic (s : State) (c : Nat) : CodedPic :=
  { units := [], params := 0, kind := .plain, struct := 0
    order := ((s.dec c).pics.head?.map (fun p => p.order + 1)).getD 0, num := 0, isRef := true
    slots := 1 :: (List.range (refLimit (s.codec c) - 1)).map (· + 2), tileCols := [], tileRows := []
    refs := (s.heldRefs c).map (fun p => { order := some p.order, slot := 0 })
    motion := [], recovery := none, hash := none, hdrFlags := 0, hdr := [], grain := false, tags := { blocks := 0, hits := [] } }

/-- A RECONSTRUCT still running at a tide start: a stop marked on it and the checks of R212 come first; else the rest of the picture is
concealed, and it is kept as a reference with status DEADLINE_MISSED (R132, R203, R212). -/
def State.lateRec (out : Option PicOut) (u : Nat) (s : State) : State :=
  match s.jobAt u 0x0102 with
  | none => s
  | some j =>
    match j.stopWith with
    | some st => s.abandonJob u st
    | none =>
      match s.jobRefused j true with
      | some st => s.abandonJob u st
      | none =>
        let x := s.quayFind (s.tlBerth j.ctx) j.ctx j.seq
        let none_ : PicOut := { planes := [], context := [], grainPlanes := [] }
        let span := s.decSpan (s.gtBerth j.ctx) 0
        match x.bind (fun x => x.pic.map (fun o => (x, o))) with
        | some (x, o) =>
          -- a picture whose samples are not given had none committed
          let f := match out with
            | some _ => x.found.committed x.runs span
            | none => { x.found with segs := [] }
          s.finishPic o (out.getD none_) { x with found := f } true u j
        | none =>
          let o := s.unseenPic j.ctx
          s.finishPic o none_ { ctx := j.ctx, seq := j.seq, runs := [], eop := 0, eopLeaf := 0, found := Found.reset, pic := some o } true u j

/-- An ENTROPY_DECODE still running at a tide start ends with its end-of-picture entry directly after the last entry it wrote, and its
buffer freed, so that its RECONSTRUCT can run (R132, R193, R200). -/
def State.lateTally (u : Nat) (s : State) : State :=
  match s.jobAt u 0x0101 with
  | none => s
  | some j =>
    let s := match s.quayFind u j.ctx j.seq with
      | some x =>
        let l : List QRun := x.runs.map (fun (r : QRun) => { r with todo := 0 })
        let f := x.found.committed (x.runs.filter (fun r => r.todo != 0)) (s.decSpan (s.gtBerth j.ctx) 0)
        s.quayPut u { x with runs := l, eop := 1, found := f }
      | none =>
        s.quayAdd u { ctx := j.ctx, seq := j.seq, runs := [], eop := 1, eopLeaf := 0, found := Found.reset, pic := some (s.unseenPic j.ctx) }
    (s.giveBack u (j.s0 % two40)).endJob u 0x30

/-- A picture has been superseded for output: the compositions of this tide want a newer picture that is there, or it stands beyond
the EXTRA_OUT newest pictures held besides the references (R129, R182, R191; assumption 69). A picture that is not for display waits
for no output. -/
def State.superseded (s : State) (c : Nat) (p : DecPic) : Bool :=
  let shown := (s.dec c).pics.filter (fun q => !q.hidden)
  let extra := (shown.filter (fun q => !q.isRef)).map (fun q => q.addr)
  p.hidden || shown.any (fun q => decide (p.tide < q.tide) && decide (q.tide + s.presentL ≤ s.tideNum + 1))
    || !(extra.take (s.sf c 27 1)).contains p.addr

/-- At each tide start the gantry frees every picture no longer in the stream’s use whose reference count is 1 (R191). -/
def State.freePics (c : Nat) (s : State) : State :=
  let d := s.dec c
  let gone := d.pics.filter (fun p => !p.isRef && s.superseded c p
    && (match s.poolOf p.addr with
      | some q => decide (s.refCount (s.globalIndex q p.addr) ≤ 1)
      | none => true))
  let s := s.each gone (fun p s =>
    let s := s.free (s.gtBerth c) p.addr
    if p.grain ≠ 0 then s.free (s.gtBerth c) p.grain else s)
  s.setDec c { s.dec c with pics := (s.dec c).pics.filter (fun p => !(gone.any (fun g => g.addr = p.addr))) }

/-! ### Views (R214, R215) -/

/-- TL_STATUS: coder and context of the job a tally works on, its own or that of the group it is a member of. -/
def State.viewTlStatus (s : State) (u : Nat) : Nat :=
  match (s.unit (s.workOf u)).job with
  | some j =>
    let cavlc := match s.quayFind (s.tlBerth j.ctx) j.ctx j.seq with
      | some x => (x.found.params.map (fun p => p.cavlc)).getD false
      | none => false
    let k := match s.codec j.ctx with
      | 1 => 4
      | 4 => 2
      | _ => if s.cabac j.ctx && !cavlc then 1 else 3
    k + j.ctx % 4096 * 65536
  | none => 0

/-! ### Meanings -/

/-- ENTROPY_DECODE at a tally berth (R193). -/
def execEntropyDecode (unit : Nat) (pic : CodedPic) (s : State) : Host.Outcome State Fault Refusal :=
  .next (s.runJob unit 0x0101 true (fun j s => s.entropyDecode pic unit j))
/-- RECONSTRUCT at a gantry berth (R196). -/
def execReconstruct (unit : Nat) (out : PicOut) (s : State) : Host.Outcome State Fault Refusal :=
  .next (s.runJob unit 0x0102 true (fun j s => s.reconstruct out unit j))
/-- START of a decode context (R187). -/
def execDecodeStart (unit : Nat) (s : State) : Host.Outcome State Fault Refusal :=
  .next (s.runJob unit 0x0103 false (fun j s => s.decStart unit j))
/-- STOP of a decode context (R213). -/
def execDecodeStop (unit : Nat) (s : State) : Host.Outcome State Fault Refusal :=
  .next (s.runJob unit 0x0104 false (fun j s => s.streamStopJob unit j))
/-- READ_STATUS of a decode context (R185). -/
def execDecodeReadStatus (unit : Nat) (s : State) : Host.Outcome State Fault Refusal :=
  .next (s.runJob unit 0x0105 false (fun j s => s.readStatus unit 64 true j))
/-- FLUSH (R185, R204). -/
def execFlush (unit : Nat) (s : State) : Host.Outcome State Fault Refusal :=
  .next (s.runJob unit 0x0106 true (fun j s => s.flushJob unit j))
/-- REFRESH_REQUEST_REPEAT (R211). -/
def execRefreshRequestRepeat (ctx : Nat) (s : State) : Host.Outcome State Fault Refusal := .next (s.refreshRepeat ctx)

end Sys2Proof.Machine
end

