-- ==== Sys2Proof/Machine/Layers.lean ====
section
/-! DEFINITION. Layers of a composition (08_composition.md: R294, R295, R303 to R313, R316): what a layer shows at a place, scaling,
deinterlacing, blending, glyphs, and the layer map. -/

namespace Sys2Proof.Machine

/-! ### Storms and the layout of a composition (R305, R316) -/

/-- The setting of an ID for presentation tide P. -/
def Storm.for (x : Storm) (p : Nat) : Option StormSet :=
  match x.pend with
  | some n => if n.at_ ≤ p then some n else x.act
  | none => x.act

/-- The storm in force for P: the highest level, the higher ID between equals (R316). -/
def State.stormFor (s : State) (p : Nat) : Option (Storm × StormSet) :=
  s.storms.foldl (fun best x =>
    match x.for p with
    | some n =>
      if n.level = 0 ∨ p < n.at_ then best
      else
        match best with
        | some (y, m) => if m.level < n.level ∨ (m.level = n.level ∧ y.id < x.id) then some (x, n) else best
        | none => some (x, n)
    | none => best) none

/-- The layout a composition uses: the storm’s when one applies and matches in size; and whether a mismatch kept the base layout
(R316). -/
def State.composeUses (s : State) (n p : Nat) : Nat × Bool :=
  let a := s.layoutAddr n (s.layoutCopy n p)
  match s.stormFor p with
  | some (_, m) =>
    let sb := s.lf a 12 2
    if sb = 0xFFFF then (n, false)
    else
      let b := s.layoutAddr (sb + m.slate) (s.layoutCopy (sb + m.slate) p)
      if s.lf b 0 2 = s.lf a 0 2 ∧ s.lf b 2 2 = s.lf a 2 2 then (sb + m.slate, false) else (n, true)
  | none => (n, false)

/-- Address of the layout copy a composition uses, and whether a mismatch kept the base layout. -/
def State.composeAddr (s : State) (n p : Nat) : Nat × Bool :=
  let k := s.composeUses n p
  (s.layoutAddr k.1 (s.layoutCopy k.1 p), k.2)

/-- P_eff of the copy of layout n that a composition uses; a copy no flip brought in is in force from the first tide (R293, R305). -/
def State.copyStart (s : State) (n p : Nat) : Nat :=
  let x := s.layoutSt n
  let old := if x.started = 0 then s.tide.first else x.started
  match x.pend with
  | some e => if e ≤ p then e else old
  | none => old

/-! ### The picture of a STREAM layer (R129, R191) -/

/-- A coded picture of source tide t has arrived and its decode has not completed. -/
def State.decodeDue (s : State) (c t : Nat) : Bool :=
  s.units.any (fun p => match p.2.job with
    | some j => j.op = 0x0102 && j.ctx = c && s.srcTide j = t
    | none => false) ||
  ((List.range (min 65536 (sub32 (s.qProd c) (s.qDisp c)))).any (fun i =>
    let j := s.readJob c 0 (s.qSlot c (s.qDisp c + i))
    j.op = 0x0102 && j.ctx = c && s.srcTide j = t))

/-- The newest of a list of pictures by source tide. -/
def newestPic (l : List DecPic) : Option DecPic :=
  l.foldl (fun b p => match b with
    | some q => if q.tide < p.tide then some p else b
    | none => some p) none

/-- The picture a STREAM layer shows for source tide t: that one, or the newest smaller one, passing over hidden ones and those that
were LATE; and whether the picture of t is LATE (R129, R191). -/
def State.layerPic (s : State) (c t : Nat) : Option DecPic × Bool :=
  let d := s.dec c
  (newestPic (d.pics.filter (fun p => !p.hidden && decide (p.tide ≤ t) && !d.late.contains p.tide)),
    !d.pics.any (fun p => p.tide = t && !d.late.contains p.tide) && s.decodeDue c t)

/-- The buffer shown for a picture: its grain copy where there is one (R198, R303). -/
def DecPic.shown (p : DecPic) : Nat := if p.grain ≠ 0 then p.grain else p.addr

/-! ### Deinterlacing (R308) -/

/-- Two fields as one frame: top lines are the even ones. -/
def Pic.woven (top bottom : Pic) : Pic :=
  { top with h := 2 * top.h, struct := 1, px := fun k x y => if y % 2 = 0 then top.px k x (y / 2) else bottom.px k x (y / 2) }

/-- A sample between two lines of a field. -/
def Pic.between (p : Pic) (k : Nat) (x y : Int) : Nat := (p.at k x (y - 1) + p.at k x (y + 1) + 1) / 2

/-- The lines of one parity, the others interpolated vertically. -/
def Pic.bob (p : Pic) (keep : Nat) : Pic :=
  { p with px := fun k x y =>
      if y % 2 = keep then p.px k x y
      else if y = 0 then p.at k x 1
      else if y + 1 = (p.dims k).2 then p.at k x ((y : Int) - 1)
      else p.between k x y }

/-- Two samples differ by at most 4/1,023 of full scale. -/
def sameSample (depth a b : Nat) : Bool := decide (1023 * (a - b + (b - a)) ≤ 4 * (2 ^ depth - 1))

/-- Woven where both fields stand as in the fields of the same parity before, interpolated elsewhere. -/
def Pic.adaptive (p prev : Pic) (keep : Nat) : Pic :=
  { p with px := fun k x y =>
      let same := fun (dy : Int) => sameSample p.depth (p.at k x ((y : Int) + dy)) (prev.at k x ((y : Int) + dy))
      if y % 2 = keep || (same 0 && same (-1) && same 1) then p.px k x y else (p.bob keep).px k x y }

/-- A frame of two fields deinterlaced by DEINT; `keep` is the parity of its first field, `prev` the frame before (assumption 71). -/
def Pic.deint (p : Pic) (mode keep : Nat) (prev : Option Pic) : Pic :=
  match mode with
  | 0 =>
    match prev with
    | some q => if q.w = p.w ∧ q.h = p.h ∧ q.format = p.format then p.adaptive q keep else p.bob keep
    | none => p.bob keep
  | 1 => p.bob keep
  | _ => p

/-- A single field as a frame, its missing lines interpolated. -/
def Pic.loneField (p : Pic) : Pic :=
  let keep := if p.struct = 4 then 1 else 0
  (Pic.woven p p).bob keep

/-- The frame of a decoded picture: itself, or with its partner when it is a field; and the parity of its first field (R308). -/
def State.frameOf (s : State) (c : Nat) (p : DecPic) : Pic × Nat × Bool :=
  let a := s.loadPic p.shown
  if a.struct = 1 then (a, 0, true)
  else if a.struct = 2 then (a, 1, true)
  else if a.struct = 3 ∨ a.struct = 4 then
    let before := newestPic ((s.dec c).pics.filter (fun q => !q.hidden && decide (q.tide ≤ p.tide) && decide (q.order < p.order)))
    match before with
    | some q =>
      let b := s.loadPic q.shown
      if b.struct + a.struct = 7 ∧ b.w = a.w ∧ b.h = a.h then
        (if a.struct = 3 then Pic.woven a b else Pic.woven b a, if b.struct = 4 then 1 else 0, true)
      else (a.loneField, 0, false)
    | none => (a.loneField, 0, false)
  else (a, 0, false)

/-- The picture a STREAM layer shows, deinterlaced (R303, R308). -/
def State.streamPic (s : State) (c mode : Nat) (p : DecPic) : Pic :=
  let f := s.frameOf c p
  if f.2.2 then
    let prev := newestPic ((s.dec c).pics.filter (fun q => !q.hidden && decide (q.tide < p.tide)))
    f.1.deint mode f.2.1 (prev.map (fun q => (s.frameOf c q).1))
  else f.1

/-- The picture of a STILL layer, deinterlaced; a still stands as in the field before. -/
def State.stillPic (s : State) (a mode : Nat) : Pic :=
  let p := s.loadPic a
  if p.struct = 1 ∨ p.struct = 2 then p.deint mode (p.struct - 1) (some p)
  else if p.struct = 3 ∨ p.struct = 4 then p.loneField
  else p

/-! ### Scaling (R306; assumption 72) -/

/-- One channel of a source: its size and its samples. -/
structure Grid where
  w : Nat
  h : Nat
  px : Nat → Nat → Nat

/-- A rectangle of a channel. -/
def Grid.crop (g : Grid) (x0 y0 w h : Nat) : Grid :=
  { w := min w (g.w - x0), h := min h (g.h - y0), px := fun x y => g.px (x0 + x) (y0 + y) }

/-- Boxes of 2^kx by 2^ky samples averaged. -/
def Grid.boxes (g : Grid) (kx ky : Nat) : Grid :=
  if kx = 0 ∧ ky = 0 then g
  else
    { w := cdiv g.w (2 ^ kx), h := cdiv g.h (2 ^ ky)
      px := fun x y =>
        let l := (List.range (2 ^ ky)).flatMap (fun j => (List.range (2 ^ kx)).filterMap (fun i =>
          let a := x * 2 ^ kx + i
          let b := y * 2 ^ ky + j
          if a < g.w ∧ b < g.h then some (g.px a b) else none))
        (2 * l.foldl (· + ·) 0 + l.length) / (2 * max 1 l.length) }

/-- The smallest k with which a reduction from n to m samples comes to 2:1 or less. -/
def boxExp (n m : Nat) : Nat := ((List.range 4).find? (fun k => decide (n ≤ 2 * m * 2 ^ k))).getD 4

/-- Fractional bits of a source position. -/
abbrev posOne : Int := 1048576

/-- The sample at a whole place; with a wrap places repeat, else an edge sample stands for those beyond it. -/
def Grid.tap (g : Grid) (wrapX wrapY : Bool) (x y : Int) : Nat :=
  g.px (if wrapX then (x % (max 1 g.w : Nat)).toNat else within g.w x) (if wrapY then (y % (max 1 g.h : Nat)).toNat else within g.h y)

/-- Weight of a BICUBIC tap at a distance d, a = −0.5, with 61 fractional bits. -/
def cubicWeight (d : Int) : Int :=
  let a := (d.natAbs : Int)
  if a ≤ posOne then 3 * a ^ 3 - 5 * a ^ 2 * posOne + 2 * posOne ^ 3
  else if a < 2 * posOne then -(a ^ 3) + 5 * a ^ 2 * posOne - 8 * a * posOne ^ 2 + 4 * posOne ^ 3
  else 0

/-- Sample a channel by FILTER at a position, in which sample i covers i to i + 1; the result lies from 0 to `top`. -/
def Grid.sample (g : Grid) (filter top : Nat) (wrapX wrapY : Bool) (u v : Int) : Nat :=
  let x := u - posOne / 2
  let y := v - posOne / 2
  let fx := x % posOne
  let fy := y % posOne
  let tap := fun (i j : Int) => (g.tap wrapX wrapY (x / posOne + i) (y / posOne + j) : Int)
  match filter with
  | 0 => g.tap wrapX wrapY (u / posOne) (v / posOne)
  | 1 =>
    let t := (posOne - fx) * (posOne - fy) * tap 0 0 + fx * (posOne - fy) * tap 1 0 + (posOne - fx) * fy * tap 0 1 + fx * fy * tap 1 1
    ((t + posOne * posOne / 2) / (posOne * posOne)).toNat
  | _ =>
    let one := (2 * posOne ^ 3) ^ 2
    let t := ([-1, 0, 1, 2] : List Int).foldl (fun acc j => acc + ([-1, 0, 1, 2] : List Int).foldl (fun acc i =>
      acc + cubicWeight (fx - i * posOne) * cubicWeight (fy - j * posOne) * tap i j) 0) 0
    (clamp 0 top ((t + one / 2) / one)).toNat

/-! ### Colour (R295, R304, R307) -/

/-- 12-bit non-linear R′G′B′. -/
abbrev Rgb := Nat × Nat × Nat

/-- Each component held to 12 bits. -/
def held12 (c : Rgb) : Rgb := (c.1 % 4096, c.2.1 % 4096, c.2.2 % 4096)

/-- A Y, Cb, Cr triple in a FORMAT’s COLOUR and range, of a number of bits. -/
def toRgb (format bitsOf : Nat) (c : Nat × Nat × Nat) : Rgb := held12 (Config.toRgb (bits format 9 7, format.testBit 10, bitsOf) c)

/-- A colour word in the output’s colour space (R295). -/
def wordRgb (format w : Nat) : Rgb := toRgb format 10 (bits w 29 20, bits w 19 10, bits w 9 0)

/-- Mid-grey in the output’s colour space. -/
def greyRgb (format : Nat) : Rgb := toRgb format 10 (512, 512, 512)

/-- A PQ or HLG source shown on an output of another COLOUR (R307). -/
def colourMismatch (src dst : Nat) : Bool := (bits src 9 7 = 2 || bits src 9 7 = 3) && bits src 9 7 != bits dst 9 7

/-- A source’s R′G′B′ in the output’s colour space (R307). -/
def carryRgb (src dst : Nat) (c : Rgb) : Rgb :=
  if bits src 9 7 = bits dst 9 7 then c
  else if colourMismatch src dst then greyRgb dst
  else held12 (Config.mapRgb (bits src 9 7) (bits dst 9 7) c)

/-! ### What a layer shows (R303 to R306, R309, R311 to R313) -/

/-- One thing to blend at a place: colour, α in 65,025ths, and whether the colour has been multiplied by α. -/
structure Blend where
  rgb : Rgb
  a : Nat
  pre : Bool
  deriving DecidableEq, Repr

/-- A layer ready to be drawn: destination rectangle, BLEND, and what it shows at a place of the rectangle, in order; none outside its
source. -/
structure Layer where
  x : Int
  y : Int
  w : Nat
  h : Nat
  replace : Bool
  at_ : Nat → Nat → List Blend

/-- The crop of a layer entry on a source of a size: place and size (R303). -/
def State.cropOf (s : State) (a i w h : Nat) : Nat × Nat × Nat × Nat :=
  let sw := s.layerF a i 16 2
  let sh := s.layerF a i 18 2
  if sw = 0 ∨ sh = 0 then (0, 0, w, h)
  else
    let x := min (s.layerF a i 12 2) w
    let y := min (s.layerF a i 14 2) h
    (x, y, min sw (w - x), min sh (h - y))

/-- Displacement of a layer in eighths of a source sample (R305). -/
def State.scrollOf (s : State) (a i : Nat) (tides : Int) : Int × Int :=
  let wrap := fun (d : Int) (n : Nat) => if n = 0 then d else d % (8 * n : Nat)
  (wrap (signed 16 (s.layerF a i 48 2) * tides) (s.layerF a i 16 2), wrap (signed 16 (s.layerF a i 50 2) * tides) (s.layerF a i 18 2))

/-- Source position of place d of n, on m source samples, displaced; within the wrap where there is one; none outside the source. -/
def sourcePos (d n m : Nat) (disp : Int) (wrap : Bool) : Option Int :=
  let u := ((2 * d + 1 : Nat) : Int) * m * posOne / (2 * max 1 n : Nat) - disp * (posOne / 8)
  if wrap then some (u % (max 1 m * posOne)) else if 0 ≤ u ∧ u < m * posOne then some u else none

/-- Sample channel `g` of a crop for a place of a layer: the position in luma source samples brought to the channel’s and to boxes. -/
def Grid.place (g : Grid) (filter top kx ky : Nat) (halfX halfY wrapX wrapY : Bool) (u v : Int) : Nat :=
  let u := if halfX then u / 2 + posOne / 4 else u
  let v := if halfY then v / 2 else v
  (g.boxes kx ky).sample filter top wrapX wrapY (u / 2 ^ kx) (v / 2 ^ ky)

/-- A YCbCr picture as a layer’s source: its R′G′B′ at a source position. -/
def picSource (p : Pic) (fmt filter : Nat) (crop : Nat × Nat × Nat × Nat) (kx ky : Nat) (wrapX wrapY : Bool) (u v : Int) : Rgb :=
  let plane := fun (k : Nat) =>
    let hx := k ≠ 0 ∧ p.chroma ≠ 3
    let hy := k ≠ 0 ∧ p.chroma = 1
    let g : Grid := { w := (p.dims k).1, h := (p.dims k).2, px := p.px k }
    let g := g.crop (if hx then crop.1 / 2 else crop.1) (if hy then crop.2.1 / 2 else crop.2.1)
      (if hx then cdiv crop.2.2.1 2 else crop.2.2.1) (if hy then cdiv crop.2.2.2 2 else crop.2.2.2)
    if k ≠ 0 ∧ p.chroma = 0 then 2 ^ (p.depth - 1) else g.place filter (2 ^ p.depth - 1) kx ky hx hy wrapX wrapY u v
  carryRgb p.format fmt (toRgb p.format p.depth (plane 0, plane 1, plane 2))

/-- Component k of a host plane sample as it stands: B, G, R, A (R304). -/
def State.planeChan (s : State) (a pitch pfmt k x y : Nat) : Nat :=
  let v := s.rdM (a + pitch * y + 4 * x) 4
  if pfmt = 0 then bits v (8 * k + 7) (8 * k) else if k = 3 then bits v 31 30 * 85 else bits v (10 * k + 9) (10 * k)

/-- A host plane as a layer’s source: R′G′B′ and alpha at a source position. -/
def State.planeSource (s : State) (a pitch pfmt filter w h : Nat) (crop : Nat × Nat × Nat × Nat) (kx ky : Nat) (wrapX wrapY : Bool)
    (u v : Int) : Rgb × Nat :=
  let top := fun (k : Nat) => if k = 3 ∨ pfmt = 0 then 255 else 1023
  let chan := fun (k : Nat) =>
    let g : Grid := { w, h, px := s.planeChan a pitch pfmt k }
    (g.crop crop.1 crop.2.1 crop.2.2.1 crop.2.2.2).place filter (top k) kx ky false false wrapX wrapY u v
  let to12 := fun (k : Nat) => (2 * chan k * 4095 + top k) / (2 * top k)
  ((to12 2, to12 1, to12 0), chan 3)

/-- Entry i of a glyph run list: glyph ID, place, colour index (R312). -/
def State.glyphEntry (s : State) (run i : Nat) : Nat × Int × Int × Nat :=
  let e := run + 64 + 8 * i
  (s.rdM e 2, signed 16 (s.rdM (e + 2) 2), signed 16 (s.rdM (e + 4) 2), s.rdM (e + 6) 1)

/-- A glyph to draw: its box in the layer’s rectangle, its texels, its colour. -/
structure Glyph where
  x : Int
  y : Int
  w : Nat
  h : Nat
  texel : Nat → Nat → Nat
  colour : Nat

/-- Glyph g of an atlas, drawn at a place with a colour (R311, R312). -/
def State.glyphOf (s : State) (atlas g : Nat) (x y : Int) (colour : Nat) : Glyph :=
  let e := atlas + 16 + 12 * g
  let base := atlas + s.rdM (atlas + 12) 4
  let pitch := s.rdM (atlas + 10) 2
  let ax := s.rdM e 2
  let ay := s.rdM (e + 2) 2
  { x := x + signed 16 (s.rdM (e + 8) 2), y := y + signed 16 (s.rdM (e + 10) 2), w := s.rdM (e + 4) 2, h := s.rdM (e + 6) 2
    texel := fun i j => s.memByte (base + pitch * (ay + j) + ax + i), colour }

/-- The glyphs of a run list and the entries skipped: an ID beyond the atlas, a colour index above 14, a box beyond twice the layer’s
area (R313). A wrong magic makes the layer transparent and counts once. Displaced places are rounded to whole samples, halves up
(R305). -/
def State.glyphs (s : State) (run atlas colour0 area : Nat) (disp : Int × Int) : List Glyph × Nat :=
  if s.rdM run 4 ≠ 0x4E555247 ∨ s.rdM atlas 4 ≠ 0x54414C47 then ([], 1)
  else
    let r := (List.range (min 16384 (s.rdM (run + 4) 4))).foldl (fun acc i =>
      let e := s.glyphEntry run i
      if s.rdM (atlas + 4) 2 ≤ e.1 ∨ 14 < e.2.2.2 then (acc.1, acc.2.1, acc.2.2 + 1)
      else
        let c := if e.2.2.2 = 0 then colour0 else s.rdM (run + 4 + 4 * e.2.2.2) 4
        let g := s.glyphOf atlas e.1 (e.2.1 + (disp.1 + 4) / 8) (e.2.2.1 + (disp.2 + 4) / 8) c
        if 2 * area < acc.2.1 + g.w * g.h then (acc.1, acc.2.1, acc.2.2 + 1) else (g :: acc.1, acc.2.1 + g.w * g.h, acc.2.2))
      (([] : List Glyph), 0, 0)
    (r.1.reverse, r.2.2)

/-- A glyph at a place of the layer: its texel there. -/
def Glyph.at_ (g : Glyph) (x y : Nat) : Option Nat :=
  let i := (x : Int) - g.x
  let j := (y : Int) - g.y
  if 0 ≤ i ∧ i < g.w ∧ 0 ≤ j ∧ j < g.h then some (g.texel i.toNat j.toNat) else none

/-- Run list of a GLYPH layer: its ADDR, or the text of a storm slot (R314, R316). -/
def State.glyphRun (s : State) (a i : Nat) : Nat :=
  if (s.layerF a i 1 1).testBit 5 then s.rd40 Reg.CMP_STORM_TEXT_BASE_LO + 65536 * (s.layerF a i 20 2 % 8) else s.layerF a i 32 5

/-- What a layer shows, and what of it is counted: glyph entries skipped, and a COLOUR that cannot be shown (R303 to R313). `t` is the
source tide of the stream pictures, `tides` P − P_eff, `fmt` the output’s FORMAT. -/
def State.layerOf (s : State) (a i t fmt : Nat) (tides : Int) : Layer × Nat × Bool :=
  let ty := s.layerF a i 0 1
  let fl := s.layerF a i 1 1
  let filter := bits fl 1 0
  let alpha := s.layerF a i 2 1
  let w := s.layerF a i 8 2
  let h := s.layerF a i 10 2
  let disp := s.scrollOf a i tides
  let wrapX := s.layerF a i 16 2 ≠ 0
  let wrapY := s.layerF a i 18 2 ≠ 0
  let base : Layer := { x := signed 16 (s.layerF a i 4 2), y := signed 16 (s.layerF a i 6 2), w, h, replace := s.layerF a i 3 1 = 1
                        at_ := fun _ _ => [] }
  let shown := fun (p : Pic) =>
    let crop := s.cropOf a i p.w p.h
    let kx := boxExp crop.2.2.1 w
    let ky := boxExp crop.2.2.2 h
    ({ base with at_ := fun x y =>
        match sourcePos x w crop.2.2.1 disp.1 wrapX, sourcePos y h crop.2.2.2 disp.2 wrapY with
        | some u, some v => [{ rgb := picSource p fmt filter crop kx ky wrapX wrapY u v, a := 255 * alpha, pre := fl.testBit 4 }]
        | _, _ => [] }, 0, colourMismatch p.format fmt)
  match ty with
  | 1 =>
    let c := s.layerF a i 20 2
    match (s.layerPic c t).1 with
    | some p => if c < 4096 then shown (s.streamPic c (bits fl 3 2) p) else (base, 0, false)
    | none => (base, 0, false)
  | 2 => shown (s.stillPic (s.layerF a i 32 5) (bits fl 3 2))
  | 3 =>
    let sw := if s.layerF a i 16 2 = 0 ∨ s.layerF a i 18 2 = 0 then w else s.layerF a i 12 2 + s.layerF a i 16 2
    let sh := if s.layerF a i 16 2 = 0 ∨ s.layerF a i 18 2 = 0 then h else s.layerF a i 14 2 + s.layerF a i 18 2
    let crop := s.cropOf a i sw sh
    let kx := boxExp crop.2.2.1 w
    let ky := boxExp crop.2.2.2 h
    ({ base with at_ := fun x y =>
        match sourcePos x w crop.2.2.1 disp.1 wrapX, sourcePos y h crop.2.2.2 disp.2 wrapY with
        | some u, some v =>
          let k := s.planeSource (s.layerF a i 32 5) (s.layerF a i 24 4) (s.layerF a i 22 1) filter sw sh crop kx ky wrapX wrapY u v
          [{ rgb := k.1, a := k.2 * alpha, pre := fl.testBit 4 }]
        | _, _ => [] }, 0, false)
  | 4 =>
    let g := s.glyphs (s.glyphRun a i) (s.layerF a i 40 5) (s.layerF a i 28 4) (w * h) disp
    ({ base with at_ := fun x y => g.1.filterMap (fun q =>
        (q.at_ x y).map (fun k => { rgb := wordRgb fmt q.colour, a := k * alpha, pre := false })) }, g.2, false)
  | 5 => ({ base with at_ := fun _ _ => [{ rgb := wordRgb fmt (s.layerF a i 28 4), a := 255 * alpha, pre := false }] }, 0, false)
  | _ => (base, 0, false)

/-! ### Blending (R309) -/

/-- One component blended OVER another, to the nearest of 12 bits. -/
def blendOver (src dst a : Nat) (pre : Bool) : Nat :=
  min 4095 ((2 * ((if pre then src * 65025 else src * a) + dst * (65025 - a)) + 65025) / 130050)

/-- Blend over a colour: OVER, or REPLACE. -/
def Blend.on (b : Blend) (replace : Bool) (d : Rgb) : Rgb :=
  if replace then b.rgb else (blendOver b.rgb.1 d.1 b.a b.pre, blendOver b.rgb.2.1 d.2.1 b.a b.pre, blendOver b.rgb.2.2 d.2.2 b.a b.pre)

/-- What a layer shows at a place of the output; nothing outside its rectangle. -/
def Layer.here (l : Layer) (x y : Nat) : List Blend :=
  let i := (x : Int) - l.x
  let j := (y : Int) - l.y
  if 0 ≤ i ∧ i < l.w ∧ 0 ≤ j ∧ j < l.h then l.at_ i.toNat j.toNat else []

/-- A layer’s rectangle covers a place of the output. -/
def Layer.covers (l : Layer) (x y : Nat) : Bool :=
  let i := (x : Int) - l.x
  let j := (y : Int) - l.y
  decide (0 ≤ i) && decide (i < l.w) && decide (0 ≤ j) && decide (j < l.h)

/-- The output at a place: the layers in order over the background. -/
def blendAll (bg : Rgb) (ls : List Layer) (x y : Nat) : Rgb :=
  ls.foldl (fun d l => (l.here x y).foldl (fun d b => b.on l.replace d) d) bg

/-- R′G′B′ of an output as a picture of its FORMAT. -/
def Pic.ofRgb (w h format : Nat) (f : Nat → Nat → Rgb) : Pic :=
  let deep := format.testBit 6
  let chroma := bits format 5 4
  let top := if deep then 1024 else 256
  let ycc := fun (x y : Nat) => Config.fromRgb (bits format 9 7, format.testBit 10, if deep then 10 else 8) (f x y)
  let comp := fun (k : Nat) (c : Nat × Nat × Nat) => (if k = 0 then c.1 else if k = 1 then c.2.1 else c.2.2) % top
  { w, h, format, struct := 0
    px := fun k x y =>
      if k = 0 ∨ chroma = 3 then comp k (ycc x y)
      else
        let cx := (2 * x : Int)
        let cy := if chroma = 1 then (2 * y : Int) else y
        Config.chromaDown chroma ((List.range 16).map (fun n =>
          comp k (ycc (within w (cx - 1 + (n % 4 : Nat))) (within h (cy - 1 + (n / 4 : Nat)))))) % top }

/-! ### The layer map (R310) -/

/-- Output position of crop sample (0, 0) of a layer in eighths, scroll included, and its scale factors. -/
def State.layerPos (s : State) (a i t : Nat) (tides : Int) : LayerPos × Nat × Nat :=
  let ty := s.layerF a i 0 1
  let w := s.layerF a i 8 2
  let h := s.layerF a i 10 2
  let c := s.layerF a i 20 2
  let pic := if ty = 1 ∧ c < 4096 then (s.layerPic c t).1 else none
  let size := match ty, pic with
    | 1, some p => let q := s.loadPic p.shown; (q.w, if q.struct = 3 ∨ q.struct = 4 then 2 * q.h else q.h)
    | 2, _ => let q := s.loadPic (s.layerF a i 32 5); (q.w, if q.struct = 3 ∨ q.struct = 4 then 2 * q.h else q.h)
    | _, _ => if s.layerF a i 16 2 = 0 ∨ s.layerF a i 18 2 = 0 then (w, h) else (65536, 65536)
  let crop := s.cropOf a i size.1 size.2
  let sx := w * 65536 / max 1 crop.2.2.1
  let sy := h * 65536 / max 1 crop.2.2.2
  let disp := s.scrollOf a i tides
  ({ ty, source := c, x := 8 * signed 16 (s.layerF a i 4 2) + disp.1 * sx / 65536, y := 8 * signed 16 (s.layerF a i 6 2) + disp.2 * sy / 65536
     tide := match pic with
       | some p => p.tide
       | none => 0 }, sx, sy)

/-- The layer the map names for a 16 × 16 block: the topmost that covers its centre, 0xFF where it is not opaque there. -/
def mapByte (w h : Nat) (ls : List Layer) (i : Nat) : Nat :=
  let x := min (w - 1) (i % max 1 (cdiv w 16) * 16 + 8)
  let y := min (h - 1) (i / max 1 (cdiv w 16) * 16 + 8)
  match (ls.zipIdx.reverse.find? (fun p => p.1.covers x y)) with
  | some (l, k) => if (l.here x y).any (fun b => b.a = 65025) then k else 0xFF
  | none => 0xFF

/-- One history record of a layer entry. -/
def histBytes (p : LayerPos) : List Nat :=
  leBytes 4 (unsigned 32 p.x) ++ leBytes 4 (unsigned 32 p.y) ++ leBytes 6 p.tide ++ [1, 0]

/-- Layer entry i of a map: TYPE, SOURCE, scale, and the records of this composition and of those 1 to 4 cadence pictures before, where
the same layer stood in them. -/
def mapEntry (k : LayerPos × Nat × Nat) (p d i : Nat) (old : List CompRec) : List Nat :=
  let past := (List.range 4).flatMap (fun n =>
    match (old.find? (fun r => r.p + (n + 1) * d = p)).bind (fun r => r.layers[i]?) with
    | some q => if q.ty = k.1.ty ∧ q.source = k.1.source then histBytes q else List.replicate 16 0
    | none => List.replicate 16 0)
  [k.1.ty % 256, 0] ++ leBytes 2 k.1.source ++ leBytes 4 k.2.1 ++ leBytes 4 k.2.2 ++ List.replicate 4 0 ++ histBytes k.1 ++ past

/-- The motion area and the head of the row-context area of a composed picture whose layout has MAP 1. -/
def layerMap (w h p d : Nat) (ls : List Layer) (pos : List (LayerPos × Nat × Nat)) (old : List CompRec) : List Nat :=
  let n := mvBlocks w h
  let map := (List.range n).map (mapByte w h ls)
  map ++ List.replicate (n * 15) 0 ++ (List.range 16).flatMap (fun i => match pos[i]? with
    | some k => mapEntry k p d i old
    | none => List.replicate 96 0)

end Sys2Proof.Machine
end

