-- ==== Sys2Proof/Machine/Pilot.lean ====
section
/-! DEFINITION. Pilots and rate control (07_rate_control.md: R264 to R286): state records, arrival and the receiver buffer,
the complexity model, targets and limits, row quantisers, salvage floors. The customer window is in Window.lean. -/

namespace Sys2Proof.Machine

/-! ### Which pilot (R264, R265) -/

/-- The leaf pilot a context is booked on, or attached to. -/
def State.pilotOf (s : State) (c : Nat) : Nat :=
  match (s.book c).charges.find? (fun x => x.2.2 = 0) with
  | some x => x.1
  | none => (s.leafList (s.plBerth c)).headD (s.plBerth c)

/-- PL_STATE_BASE of a pilot, and the state record of a context. -/
def State.plBase (s : State) (p : Nat) : Nat := s.rd40 (ucb p Reg.PL_STATE_BASE_LO)
def State.plRec (s : State) (c : Nat) : Nat := s.plBase (s.pilotOf c) + 128 * c

/-- A field of a state record (R265). -/
def State.pf (s : State) (c off n : Nat) : Nat := s.rdM (s.plRec c + off) n
def State.setPf (c off n v : Nat) (s : State) : State := s.wrM (s.plRec c + off) n v

def State.fullness (s : State) (c : Nat) : Nat := s.pf c 0 5
def State.bank (s : State) (c : Nat) : Int := signed 40 (s.pf c 8 5)
def State.bank2 (s : State) (c : Nat) : Nat := s.pf c 13 3

/-- Write BANK with the second arrival remainder beside it (R265). -/
def State.setBank (c : Nat) (b : Int) (rem : Nat) (s : State) : State := (s.setPf c 8 5 (unsigned 40 b)).setPf c 13 3 rem

/-! ### Arrival (R270) -/

/-- B_arr and B_avg of the picture to come, with the remainders they leave. -/
def State.arrive (s : State) (c : Nat) : Nat × Nat × Nat × Nat :=
  let d := s.cadD c
  let r1 := s.pf c 52 4
  let r2 := s.bank2 c
  match s.sf c 84 1 with
  | 0 => let x := s.perPicture (s.sf c 88 4) d r1; (x.1, x.1, x.2, r2)
  | 1 =>
    let x := s.perPicture (s.sf c 44 4) d r1
    let y := s.perPicture (s.sf c 88 4) d r2
    (x.1, y.1, x.2, y.2)
  | _ => let x := s.perPicture (s.sf c 44 4) d r1; (x.1, x.1, x.2, r2)

/-- Smallest filler of a codec, bytes (R271). -/
def minFiller (codec : Nat) : Nat := if codec = 2 then 6 else if codec = 3 then 7 else 2

/-- Filler sent after a picture of b bits, in bits: whole bytes, at least the smallest the codec allows (R271). -/
def State.filler (s : State) (c b bArr : Nat) : Nat :=
  if s.sf c 84 1 ≠ 0 then 0
  else
    let excess := s.fullness c + bArr - b - s.bEff c
    if s.fullness c + bArr ≤ b + s.bEff c then 0 else 8 * max (minFiller (s.codec c)) (cdiv excess 8)

/-- F and BANK after a picture of b bits, filler included, is sent (R271). -/
def State.afterSent (c b : Nat) (s : State) : State :=
  let a := s.arrive c
  let e := s.bEff c
  let f := s.fullness c + a.1 - b
  let f := if s.sf c 84 1 = 0 then f else min f e
  let k := if s.sf c 84 1 = 1 then clamp (-(e : Int)) e (s.bank c + a.2.1 - b) else s.bank c
  ((s.setPf c 0 5 (f % two40)).setPf c 52 4 a.2.2.1).setBank c k a.2.2.2

/-! ### The complexity model (R273, R274) -/

/-- 24 fractional bits. -/
abbrev two24 : Nat := 16777216

/-- The largest x below 2^bits with x⁶ ≤ n. -/
def root6 (n : Nat) : Nat → Nat → Nat
  | 0, x => x
  | b + 1, x => if (x + 2 ^ b) ^ 6 ≤ n then root6 n b (x + 2 ^ b) else root6 n b x

/-- qs(q), u40 with 24 fractional bits, truncated: 2^((q − 4) / 6) for AVC and HEVC, the AV1 ac_q table over 8 (R273). -/
def qScale (codec : Nat) (q : Int) : Nat :=
  if codec = 4 then Config.av1AcQ q.toNat * two24 / 8
  else root6 (2 ^ (q - 4 + 144).toNat) 40 0

/-- e of an effort, 24 fractional bits, rounded to nearest, halves up (R273). -/
def effortFactor (e : Nat) : Nat :=
  let h := [130, 118, 108, 100, 96, 93, 91, 89].getD e 89
  (2 * h * two24 + 100) / 200

def State.cInter (s : State) (c : Nat) : Nat := s.pf c 16 5
def State.cStripe (s : State) (c : Nat) : Nat := s.pf c 24 5
def State.cIntra (s : State) (c : Nat) : Nat := s.pf c 32 5

/-- Complexity-weighted samples of a row, 24 fractional bits, in thirds: c(j) of R279. -/
def State.rowWeight (s : State) (c : Nat) (w : List Nat) : Nat :=
  s.cInter c * w.getD 0 0 + s.cStripe c * w.getD 1 0 + s.cIntra c * w.getD 2 0

/-- Update one class: 3:1 average for inter and stripe, 1:1 for intra, the larger for a salvaged picture (R274). -/
def classUpdate (cls old obs : Nat) (salvaged : Bool) : Nat :=
  min (two40 - 1) (if salvaged then max old obs else if cls = 2 then (old + obs) / 2 else (3 * old + obs) / 4)

/-- Observed complexity of a class over rows: (bits, quantiser scale, thirds of weighted samples) per row (R274). -/
def observed (l : List (Nat × Nat × Nat)) (e : Nat) : Option Nat :=
  let w := (l.map (fun r => r.2.2)).foldl (· + ·) 0
  if w = 0 then none
  else some (((l.map (fun r => r.1 * r.2.1)).foldl (· + ·) 0) * 3 * two24 / (w * max 1 e))

/-! ### Stripes and floors (R246, R247, R281) -/

/-- PATTERN and P of a context. -/
def State.pattern (s : State) (c : Nat) : Nat := s.sf c 29 1 % 4
def State.period (s : State) (c : Nat) : Nat := s.sf c 30 2

/-- Units of step s of a sweep over U units in P steps: from, and up to but not including (R246). -/
def stripeUnits (u p st : Nat) : Nat × Nat := (st * u / max 1 p, (st + 1) * u / max 1 p)

/-- Luma interval of the stripe at a step, on the pattern’s axis; for TILE_ROTATION within tile t of the shares (R246). -/
def State.stripeSpan (s : State) (c st : Nat) : Nat × Nat :=
  let p := s.period c
  match s.pattern c with
  | 0 => let r := stripeUnits (cdiv (s.ctxW c) 16) p st; (16 * r.1, 16 * r.2)
  | 1 => let r := stripeUnits (cdiv (s.ctxH c) 16) p st; (16 * r.1, 16 * r.2)
  | _ =>
    let sh := s.shares (s.gtBerth c) (s.ctxW c) (s.ctxH c)
    let t := max 1 sh.length
    let x0 := ((sh.take (st % t)).map (fun x => x.1)).foldl (· + ·) 0
    let ut := cdiv ((sh.getD (st % t) (0, 0)).1) 16
    let i := st / t
    (x0 + 16 * (i * ut * t / max 1 p), x0 + 16 * ((i + 1) * ut * t / max 1 p))

/-- Clean-area edges at a step, on the pattern’s axis (R247): where a stripe of steps 0 to s ends short of the picture. -/
def State.cleanEdges (s : State) (c st : Nat) : List Nat :=
  match s.pattern c with
  | 0 => let e := (s.stripeSpan c st).2; if s.ctxW c ≤ e ∨ e = 0 then [] else [e]
  | 1 => let e := (s.stripeSpan c st).2; if s.ctxH c ≤ e ∨ e = 0 then [] else [e]
  | _ =>
    let sh := s.shares (s.gtBerth c) (s.ctxW c) (s.ctxH c)
    let n := max 1 sh.length
    (List.range (min n (st + 1))).flatMap (fun t =>
      let x0 := ((sh.take t).map (fun x => x.1)).foldl (· + ·) 0
      let last := if st % n < t then st - st % n + t - n else st - st % n + t
      let e := (s.stripeSpan c last).2
      (if x0 = 0 then [] else [x0]) ++ (if x0 + (sh.getD t (0, 0)).1 ≤ e then [] else [e]))

/-- F of R248 in luma samples. -/
def reachF (codec : Nat) : Nat := if codec = 4 then 12 else 4

/-- A unit that covers luma [lo, hi) on the pattern’s axis is a DC unit: it holds stripe blocks, or a sample within
16 + F of a clean-area edge (R281). -/
def State.spanDc (s : State) (c st : Nat) (whole : Bool) (lo hi : Nat) : Bool :=
  let sp := s.stripeSpan c st
  let f := 16 + reachF (s.codec c)
  (decide (lo < sp.2) && decide (sp.1 < hi)) ||
    (!whole && (s.cleanEdges c st).any (fun e => decide (lo < e + f) && decide (e < hi + f)))

/-- Floor of units k to the end of row i of share (x0, y0, w): 16 bits and slice bits only when whole (R281). -/
def State.rowFloor (s : State) (c st : Nat) (intra whole : Bool) (x0 y0 w i k : Nat) : Nat :=
  let u := rowLines (s.codec c)
  let dc := if s.codec c = 2 then 4 else 6
  let units := (List.range (cdiv w u)).drop k
  let bits := (units.map (fun n =>
    let isDc := intra || (if s.pattern c = 1 then s.spanDc c st whole (y0 + i * u) (y0 + i * u + u)
      else s.spanDc c st whole (x0 + n * u) (x0 + n * u + u))
    if isDc then dc else 1)).foldl (· + ·) 0
  if k = 0 then 16 + bits + (if s.rowStarts c i then 320 else 0) else bits

/-- Shares with their origins, member by member. -/
def State.placed (s : State) (c : Nat) : List (Nat × Nat × Nat × Nat) :=
  let sh := s.shares (s.gtBerth c) (s.ctxW c) (s.ctxH c)
  let slices := unitKind (s.gtBerth c) == some .group && s.split (s.gtBerth c) = 0
  sh.zipIdx.map (fun p =>
    let before := sh.take p.2
    if slices then (0, (before.map (fun x => x.2)).foldl (· + ·) 0, p.1.1, p.1.2)
    else ((before.map (fun x => x.1)).foldl (· + ·) 0, 0, p.1.1, p.1.2))

/-- Rows of a picture in member order: share and row within it (R279). -/
def State.rowList (s : State) (c : Nat) : List ((Nat × Nat × Nat × Nat) × Nat) :=
  (s.placed c).flatMap (fun p => (List.range (cdiv p.2.2.2 (rowLines (s.codec c)))).map (fun i => (p, i)))

/-- Floors of all rows (R281). -/
def State.floors (s : State) (c st : Nat) (intra whole : Bool) : List Nat :=
  (s.rowList c).map (fun r => s.rowFloor c st intra whole r.1.1 r.1.2.1 r.1.2.2.1 r.2 0)

/-! ### Target and hard limit (R276, R277) -/

/-- t and h of R276; `phi` is the sum of the floors, `est` the model’s estimate at CQ_LEVEL. -/
def State.picLimits (s : State) (c hdr phi est : Nat) (intra : Bool) : Nat × Nat :=
  let a := s.arrive c
  let f : Int := s.fullness c
  let e := s.bEff c
  let fTgt : Int := (e * s.sf c 96 2 / 1000 : Nat)
  let t0 : Int := match s.sf c 84 1 with
    | 0 => a.1 + Int.tdiv (f - fTgt) 4
    | 1 => a.2.1 + Int.tdiv (s.bank c) 8
    | _ => hdr + est
  let t1 := max t0 (max ((a.2.1 * s.sf c 104 2 / 1000 : Nat) : Int) ((hdr + phi : Nat) : Int))
  let h0 := min (s.fullness c) (8 * (s.poolSize (s.sf c 20 2) - 64))
  let h := if intra then min h0 (max (a.2.1 * (100 + s.sf c 34 1) / 100) (hdr + phi)) else h0
  ((min t1 (h : Int)).toNat, h)

/-! ### Row quantisers (R279) -/

/-- QP_MIN and QP_MAX in use. -/
def State.qLow (s : State) (c : Nat) : Int := qVal (s.codec c) (s.sf c 85 1)
def State.qHigh (s : State) (c : Nat) : Int :=
  if s.sf c 86 1 = 0 then qMax (s.codec c) else qVal (s.codec c) (s.sf c 86 1)

/-- Largest change between rows. -/
def State.qStep (s : State) (c : Nat) : Int := s.sf c 99 1 * (if s.codec c = 4 then 4 else 1)

/-- The smallest quantiser from `q` on, `n` tries, whose modelled row size is at most r. -/
def qSearch (codec w e r : Nat) (top : Int) : Nat → Int → Int
  | 0, _ => top
  | n + 1, q => if cdiv (w * e) (3 * two24 * max 1 (qScale codec q)) ≤ r then q else qSearch codec w e r top n (q + 1)

/-- q of a row (R279): t, hdr and used_est in bits; c(i) and the sum from i on; the row before’s quantiser. -/
def State.rowQ (s : State) (c t hdr used wi wrest e : Nat) (prev : Option Int) : Int :=
  let lo := s.qLow c
  let hi := s.qHigh c
  let rem : Int := (t : Int) - hdr - used
  let q := if rem ≤ 0 then hi else qSearch (s.codec c) wi e (rem.toNat * wi / max 1 wrest) hi (hi - lo + 1).toNat lo
  let q := match prev with
    | some p => min (max q (p - s.qStep c)) (p + s.qStep c)
    | none => q
  let q := if s.sf c 84 1 = 2 then max q (qVal (s.codec c) (s.sf c 87 1)) else q
  min (max q lo) hi

/-! ### START of a context on its pilot (R264, R271, R273, R291) -/

/-- Attach a context to the least loaded leaf of its pilot berth (R264): its booking moves with it. -/
def State.attach (c : Nat) (s : State) : State :=
  let p := leastOf s.attached (s.leafList (s.plBerth c))
  let b := s.book c
  s.setBook c { b with charges := b.charges.map (fun x => if x.2.2 ≤ 1 then (p, x.2.1, x.2.2) else x) }

/-- The state record at START (R271, R273): F, BANK, B_REM, the classes, UCW_OFF and scratch as they stand. -/
def State.initRecord (c : Nat) (seed : Option (Nat × Nat × Nat)) (s : State) : State :=
  let k := seed.getD (two24 / 4, 3 * two24 / 2, 2 * two24)
  let s := ((s.setPf c 0 8 (s.bEff c * s.sf c 96 2 / 1000 % two40)).setPf c 8 8 0).setPf c 52 4 0
  let s := ((s.setPf c 16 8 (k.1 % two40)).setPf c 24 8 (k.2.1 % two40)).setPf c 32 8 (k.2.2 % two40)
  ((s.setPf c 40 8 0).setPf c 49 1 0).setPf c 50 2 0

end Sys2Proof.Machine
end

