-- ==== Sys2Proof/Machine/Search.lean ====
section
/-! DEFINITION. Motion search and mode decision (06_encoding.md: R226, R229 to R253): the clean area and what may be read, candidates,
the search, siblings, hash tables, and what a coding block may be coded as. -/

namespace Sys2Proof.Machine

/-! ### Motion (R231) -/

/-- scale of R231: a vector component brought to the picture and the distance of the reference; none where refused. -/
def scaleMv (v : Int) (sc de ds : Nat) : Option Int :=
  if sc < 0x2000 ∨ 0x80000 < sc then none
  else if 4 * ds < de ∨ 4 * de < ds then none
  else
    let q := de * 65536 / max 1 ds
    let t := (v * (sc : Int) + 0x8000) / 65536
    some ((t * (q : Int) + 0x8000) / 65536)

/-- scale of both components. -/
def scaleBoth (v : Int × Int) (sx sy de ds : Nat) : Option (Int × Int) :=
  match scaleMv v.1 sx de ds, scaleMv v.2 sy de ds with
  | some x, some y => some (x, y)
  | _, _ => none

/-- A component rounded to steps of `p` eighths, half toward plus infinity (R231). -/
def toStep (p : Int) (t : Int) : Int := (2 * t + p) / (2 * p) * p

/-! ### Picture and references while a picture is coded -/

/-- What the layer map says of a block’s layer: TYPE, SOURCE, scale, the origins of five compositions (valid, x, y, source tide), the
crop’s place in the source, and the source picture’s buffer (R310). -/
structure MapLayer where
  ty : Nat
  source : Nat
  sx : Nat
  sy : Nat
  hist : List (Bool × Int × Int × Nat)
  crop : Nat × Nat
  src : Option Nat

/-- A reference searched. -/
structure RefView where
  ref : EncRef
  pic : Pic
  /-- its clean area on the pattern’s axis -/
  spans : List (Nat × Nat)
  mv : Nat → MvRec
  /-- cadence pictures between it and the picture -/
  back : Nat
  /-- entries of its hash table for a key, in bucket order -/
  lookup : Nat → List (Nat × Nat)

/-- A picture being coded: its samples and settings, its clean area, and the references searched, newest first. -/
structure EncView where
  ctx : Nat
  codec : Nat
  profile : Nat
  pic : Pic
  effort : Nat
  hints : Nat
  src : Nat
  tide : Nat
  intra : Bool
  /-- the sweep began on an intra picture: no constraint (R252) -/
  whole : Bool
  sweep : Nat
  /-- PATTERN 1: the axis is vertical -/
  vert : Bool
  spans : List (Nat × Nat)
  stripe : Nat × Nat
  /-- integer vectors are forced (R244) -/
  forced : Bool
  refs : List RefView
  layer : Nat → Option MapLayer
  /-- cadence divisor of the encode and of a source, by decode context (R235) -/
  cadence : Nat
  cadenceOf : Nat → Nat
  mvOf : Nat → Nat → MvRec
  sizeOf : Nat → Nat × Nat
  /-- SIB_SOURCE with its largest size, whether siblings are used, and a valid entry’s vector and distance (R232) -/
  sibSource : Nat
  sibDims : Nat × Nat
  sibOn : Bool
  sib : Nat → Option (Int × Int × Nat)

/-- 16 × 16 search blocks in a row, and how many there are. -/
def EncView.bw (v : EncView) : Nat := cdiv v.pic.w 16
def EncView.blocks (v : EncView) : Nat := v.bw * cdiv v.pic.h 16

/-- SCREEN of R216. -/
def EncView.screen (v : EncView) : Bool := v.hints.testBit 0

/-- AV1 allow_high_precision_mv: at the efforts that refine to an eighth (R226). -/
def EncView.highMv (v : EncView) : Bool := v.codec = 4 && decide (4 ≤ v.effort) && !v.forced

/-- The codec’s vector precision in eighths (R231, R244). -/
def EncView.unit (v : EncView) : Int := if v.forced then 8 else if v.highMv then 1 else 2

/-! ### The clean area (R247, R248) -/

/-- Clean spans at a step on the pattern’s axis (R246, R247). -/
def State.cleanSpans (s : State) (c st : Nat) : List (Nat × Nat) :=
  match s.pattern c with
  | 0 | 1 => [(0, (s.stripeSpan c st).2)]
  | _ =>
    let sh := s.shares (s.gtBerth c) (s.ctxW c) (s.ctxH c)
    let n := max 1 sh.length
    (List.range (min n (st + 1))).map (fun t =>
      let x0 := ((sh.take t).map (fun x => x.1)).foldl (· + ·) 0
      let last := if st % n < t then st - st % n + t - n else st - st % n + t
      (x0, (s.stripeSpan c last).2))

/-- A place on the axis lies in an area. -/
def inSpans (l : List (Nat × Nat)) (p : Int) : Bool := l.any (fun r => decide ((r.1 : Int) ≤ p) && decide (p < r.2))

/-- A place lies in an area and at least f samples from the nearest sample outside it; `n` is the picture’s length (R248). -/
def clearBy (l : List (Nat × Nat)) (n f : Nat) (p : Int) : Bool :=
  let p : Int := within n p
  (List.range (2 * f - 1)).all (fun k =>
    let q := p + (k : Nat) - ((f : Int) - 1)
    decide (q < 0) || decide ((n : Int) ≤ q) || inSpans l q)

/-- Taps before and after the place a codec’s interpolation reads, luma or chroma. -/
def tapsOf (codec : Nat) (chroma : Bool) : Nat × Nat :=
  match codec, chroma with
  | 2, false => (2, 3)
  | 2, true => (0, 1)
  | 3, true => (1, 2)
  | _, _ => (3, 4)

/-- Full-sample places the prediction of `n` samples from `b` reads along one axis: first and last. `u` is one sample in eighths of a
luma sample. -/
def readSpan (taps : Nat × Nat) (u : Int) (b n : Nat) (m : Int) : Int × Int :=
  let q := (b : Int) + m / u
  if m % u = 0 then (q, q + n - 1) else (q - taps.1, q + n - 1 + taps.2)

/-- A block has a sample in the clean area of the picture (R247). -/
def EncView.clean (v : EncView) (x y w h : Nat) : Bool :=
  let lo := if v.vert then y else x
  let n := if v.vert then h else w
  (List.range n).any (fun k => inSpans v.spans (lo + k : Nat))

/-- A vector for a block obeys R248: in luma and, where chroma is subsampled, in chroma. -/
def EncView.cleanRead (v : EncView) (r : RefView) (x y w h : Nat) (m : Int × Int) : Bool :=
  if v.whole || !v.clean x y w h then true
  else
    r.ref.sweep = v.sweep && !r.ref.whole &&
      (List.range (if v.pic.chroma = 0 then 1 else 2)).all (fun k =>
        let sub := if v.vert then v.pic.chroma = 1 && k = 1 else v.pic.chroma != 3 && k = 1
        let d := if sub then 2 else 1
        let len := (if v.vert then v.pic.h else v.pic.w) / d
        let sp := r.spans.map (fun s => (s.1 / d, s.2 / d))
        let f := reachF v.codec / d
        let e := readSpan (tapsOf v.codec (k = 1)) (8 * d) ((if v.vert then y else x) / d) (max 1 ((if v.vert then h else w) / d))
          (if v.vert then m.2 else m.1)
        (List.range ((e.2 - e.1 + 1).toNat)).all (fun i => clearBy sp len f (e.1 + (i : Nat))))

/-- allowed() of R236: R248, the codec’s vector range and the padding it reads (R237). -/
def EncView.allowed (v : EncView) (r : RefView) (x y n : Nat) (m : Int × Int) : Bool :=
  v.cleanRead r x y (min n (v.pic.w - x)) (min n (v.pic.h - y)) m && Config.mvInRange v.codec (v.pic.w, v.pic.h) (x, y, n) m

/-- A vector as R237 leaves it: itself, or clamped to the nearest allowed one between it and the block’s own position, the horizontal
component moved less between equals; none where there is none. -/
def EncView.clampMv (v : EncView) (r : RefView) (x y n : Nat) (m : Int × Int) : Option (Int × Int) :=
  if v.allowed r x y n m then some m
  else
    let p := v.unit
    let a := m.1.natAbs / p.toNat
    let b := m.2.natAbs / p.toNat
    let back := fun (c : Int) (k : Nat) => if c < 0 then c + k * p else c - k * p
    ((List.range (a + b + 1)).flatMap (fun t => (List.range (t + 1)).filterMap (fun i =>
      if i ≤ a ∧ t - i ≤ b then some (back m.1 i, back m.2 (t - i)) else none))).find? (v.allowed r x y n)

/-! ### Cost (R236) -/

/-- floor(log2 n). -/
def log2 (n : Nat) : Nat := n.log2

/-- Bits of a vector against its predictor, in the codec’s precision (R236). -/
def mvBits (p : Int) (m pred : Int × Int) : Nat :=
  let one := fun (a b : Int) => 1 + 2 * log2 (((a - b) / p).natAbs + 1)
  one m.1 pred.1 + one m.2 pred.2

/-- The differences of an n × n luma block from its prediction, in raster order. -/
def EncView.diffs (v : EncView) (r : RefView) (x y n : Nat) (m : Int × Int) : List Int :=
  (List.range (n * n)).map (fun i =>
    (v.pic.at 0 (x + i % n : Nat) (y + i / n : Nat) : Int) - r.pic.predict v.codec 0 (x + i % n) (y + i / n) m.1 m.2)

/-- Sum of absolute differences. -/
def sadOf (l : List Int) : Nat := (l.map Int.natAbs).foldl (· + ·) 0

/-- A 4-point Hadamard transform. -/
def had4 (a b c d : Int) : List Int := [a + b + c + d, a - b + c - d, a + b - c - d, a - b - c + d]

/-- Sum of the absolute 4 × 4 Hadamard coefficients of an n × n block. -/
def satdOf (n : Nat) (l : List Int) : Nat :=
  ((List.range (n / 4 * (n / 4))).map (fun b =>
    let e := fun (i j : Nat) => l.getD ((b / (n / 4) * 4 + i) * n + b % (n / 4) * 4 + j) 0
    let rows := (List.range 4).map (fun i => had4 (e i 0) (e i 1) (e i 2) (e i 3))
    ((List.range 4).flatMap (fun j =>
      let q := fun (i : Nat) => (rows.getD i []).getD j 0
      had4 (q 0) (q 1) (q 2) (q 3))).map Int.natAbs |>.foldl (· + ·) 0)).foldl (· + ·) 0

/-- Cost of a vector: D + λ × bits, λ with 24 fractional bits, u40 and saturating; D is SAD at whole samples, else the Hadamard sum. -/
def EncView.cost (v : EncView) (r : RefView) (x y n lam : Nat) (pred : Int × Int) (whole : Bool) (m : Int × Int) : Nat :=
  let l := v.diffs r x y n m
  min (two40 - 1) ((if whole then sadOf l else satdOf n l) + lam * mvBits v.unit m pred / two24)

/-! ### What a block has (R230, R232) -/

/-- The position in the source under a place of the picture, in luma samples, from the first origin of the block’s layer. -/
def MapLayer.sourceAt (l : MapLayer) (x y : Nat) : Int × Int :=
  match l.hist.head? with
  | some (_, ox, oy, _) =>
    ((l.crop.1 : Int) + (8 * x - ox) * 65536 / max 1 l.sx / 8, (l.crop.2 : Int) + (8 * y - oy) * 65536 / max 1 l.sy / 8)
  | none => (0, 0)

/-- The 16 × 16 block of a source of a size under the centre of block i; none outside. -/
def EncView.underBlock (v : EncView) (l : MapLayer) (w h i : Nat) : Option Nat :=
  let p := l.sourceAt (i % max 1 v.bw * 16 + 8) (i / max 1 v.bw * 16 + 8)
  if 0 ≤ p.1 ∧ p.1 < w ∧ 0 ≤ p.2 ∧ p.2 < h then some (p.2.toNat / 16 * cdiv w 16 + p.1.toNat / 16) else none

/-- The source motion record under a block’s centre. -/
def EncView.sourceMv (v : EncView) (l : MapLayer) (i : Nat) : Option MvRec :=
  match l.src with
  | some a =>
    let d := v.sizeOf a
    (v.underBlock l d.1 d.2 i).map (v.mvOf a)
  | none => none

/-- A layer’s displacement since the composition of a reference, where both are known (R230, R310). -/
def MapLayer.disp (l : MapLayer) (back : Nat) : Option ((Int × Int) × Bool) :=
  match l.hist[back]?, l.hist.head? with
  | some (true, x, y, t), some (_, x0, y0, t0) => some ((x - x0, y - y0), t = t0)
  | _, _ => none

/-- A search block once decided: the vector it has been coded with as inter, and the class its vector grew from, 0 for an exact
match. -/
structure Chosen where
  mv : Option (Int × Int)
  cls : Nat
  deriving DecidableEq, Repr

/-- The vectors of the left, above, above-right and above-left search blocks (R230, R236). -/
def EncView.neighbours (v : EncView) (done : List Chosen) (i : Nat) : List (Option (Int × Int)) :=
  let x := i % max 1 v.bw
  let at_ := fun (ok : Bool) (k : Nat) => if ok then ((done[k]?).bind (fun c => c.mv)) else none
  [at_ (0 < x) (i - 1), at_ (v.bw ≤ i) (i - v.bw), at_ (v.bw ≤ i && decide (x + 1 < v.bw)) (i + 1 - v.bw),
    at_ (v.bw ≤ i && decide (0 < x)) (i - v.bw - 1)]

/-- The region vector: the most frequent integer vector among the inter blocks of the previous coded picture in the block’s region of an
8 × 8 grid; the first of equals in raster order (R230). -/
def EncView.regionMv (v : EncView) (i : Nat) : Option (Int × Int) :=
  match v.refs.head? with
  | some r =>
    let bh := cdiv v.pic.h 16
    let reg := fun (k : Nat) => (k % max 1 v.bw * 8 / max 1 v.bw, k / max 1 v.bw * 8 / max 1 bh)
    let l := (List.range v.blocks).filterMap (fun k =>
      let m := r.mv k
      if reg k = reg i ∧ (m.cls = 1 ∨ m.cls = 2) then some (toStep 8 m.x, toStep 8 m.y) else none)
    (l.foldl (fun (b : Option ((Int × Int) × Nat)) m =>
      let n := l.count m
      match b with
      | some (_, k) => if k < n then some (m, n) else b
      | none => some (m, n)) none).map (fun b => b.1)
  | none => none

/-- The candidates of a block and reference with their classes, before R237: 1 source, 2 sibling, 3 neighbours, 4 global and zero
(R230). -/
def EncView.rawCands (v : EncView) (done : List Chosen) (sib : Nat → Option (Int × Int × Nat)) (r : RefView) (i : Nat) :
    List (Nat × (Int × Int)) :=
  let de := v.src - r.ref.tide
  let l := v.layer i
  let disp := l.bind (fun l => l.disp r.back)
  let c1 := if v.hints.testBit 1 then
      match l with
      | some l =>
        if l.ty = 1 then
          match disp with
          | some (d, true) => [d]
          | _ =>
            match v.sourceMv l i with
            | some m => if 1 ≤ m.cls ∧ m.cls ≤ 3 then (scaleBoth (m.x, m.y) l.sx l.sy de m.dist).toList else []
            | none => []
        else []
      | none => []
    else []
  let c2 := if v.sibOn then
      match l with
      | some l =>
        if l.ty = 1 ∧ l.source = v.sibSource then
          match (v.underBlock l v.sibDims.1 v.sibDims.2 i).bind sib with
          | some (x, y, ds) => (scaleBoth (x, y) l.sx l.sy de ds).toList
          | none => []
        else []
      | none => []
    else []
  let co := r.mv i
  let c3 := (v.neighbours done i).filterMap id ++ (if co.cls = 1 ∨ co.cls = 2 then [(co.x, co.y)] else [])
  let c4 := (disp.map (fun d => d.1)).toList ++ (v.regionMv i).toList ++ [(0, 0)]
  c1.map (fun m => (1, m)) ++ c2.map (fun m => (2, m)) ++ c3.map (fun m => (3, m)) ++ c4.map (fun m => (4, m))

/-- Keep the first of equal vectors. -/
def firstMvs (l : List (Nat × (Int × Int))) : List (Nat × (Int × Int)) :=
  l.foldl (fun acc c => if acc.any (fun a => a.2 = c.2) then acc else acc ++ [c]) []

/-- The candidate list: each brought to the codec’s precision and clamped, duplicates removed, 16 kept; and the number clamped or
dropped (R230, R237). -/
def EncView.cands (v : EncView) (done : List Chosen) (sib : Nat → Option (Int × Int × Nat)) (r : RefView) (i : Nat) :
    List (Nat × (Int × Int)) × Nat :=
  let x := i % max 1 v.bw * 16
  let y := i / max 1 v.bw * 16
  let raw := (v.rawCands done sib r i).map (fun c => (c.1, (toStep v.unit c.2.1, toStep v.unit c.2.2)))
  let l := raw.map (fun c => (c.1, c.2, v.clampMv r x y 16 c.2))
  ((firstMvs (l.filterMap (fun c => c.2.2.map (fun m => (c.1, m))))).take 16,
    (l.filter (fun c => c.2.2 != some c.2.1)).length)

/-! ### The search (R226, R236) -/

/-- Integer radius and kept candidates of an effort (R226). -/
def searchRad (e : Nat) : Nat := [4, 8, 16, 24, 32, 48, 64, 96].getD e 96
def searchK (e : Nat) : Nat := [1, 2, 2, 3, 3, 4, 4, 6].getD e 6

/-- The lowest-cost entry of a list, the earlier of equals. -/
def lowest (cost : Int × Int → Nat) : List (Nat × (Int × Int)) → Option (Nat × (Int × Int))
  | [] => none
  | c :: cs => some (cs.foldl (fun b d => if cost d.2 < cost b.2 then d else b) c)

/-- The n lowest-cost entries, in order of cost, earlier ones first among equals. -/
def keepLowest (cost : Int × Int → Nat) (n : Nat) (l : List (Nat × (Int × Int))) : List (Nat × (Int × Int)) :=
  (l.mergeSort (fun a b => decide (cost a.2 ≤ cost b.2))).take n

/-- The eight neighbours of a point at a distance, in the order of R236. -/
def around (p : Int × Int) (d : Int) : List (Int × Int) :=
  ([(d, 0), (-d, 0), (0, d), (0, -d), (d, d), (d, -d), (-d, d), (-d, -d)] : List (Int × Int)).map (fun q => (p.1 + q.1, p.2 + q.2))

/-- One descent of R236 from `p` with step `st` samples about c0: pass after pass, the step halved when no point is better. -/
def descend (cost : Int × Int → Nat) (ok : Int × Int → Bool) (rad : Nat) (c0 : Int × Int) : Nat → Nat → Int × Int → Int × Int
  | 0, _, p => p
  | fuel + 1, st, p =>
    if st = 0 then p
    else
      let inR := fun (n : Int × Int) => decide ((n.1 - c0.1).natAbs ≤ 8 * rad) && decide ((n.2 - c0.2).natAbs ≤ 8 * rad)
      let q := (around p (8 * st)).foldl (fun b n => if inR n && ok n && decide (cost n < cost b) then n else b) p
      if q = p then descend cost ok rad c0 fuel (st / 2) p else descend cost ok rad c0 fuel st q

/-- search of R236 from a candidate list, for an n × n block. -/
def EncView.searchFrom (v : EncView) (r : RefView) (x y n lam : Nat) (pred : Int × Int) (cands : List (Nat × (Int × Int))) :
    Option (Nat × (Int × Int)) :=
  let rad := searchRad v.effort
  let costI := v.cost r x y n lam pred true
  let ok := v.allowed r x y n
  let whole := fun (c : Nat × (Int × Int)) => (c.1, (toStep 8 c.2.1, toStep 8 c.2.2))
  let kept := (keepLowest (fun m => costI (toStep 8 m.1, toStep 8 m.2)) (searchK v.effort) cands).map whole
  let ends := kept.map (fun c => (c.1, descend costI ok rad c.2 ((2 * rad + 1) * (2 * rad + 1) + 8) (2 ^ log2 (max 1 (rad / 2))) c.2))
  match lowest costI ends with
  | none => none
  | some best =>
    let best := if 6 ≤ v.effort then
        let pts := ([-2, -1, 0, 1, 2] : List Int).flatMap (fun j => ([-2, -1, 0, 1, 2] : List Int).map (fun i =>
          (best.2.1 + 8 * i, best.2.2 + 8 * j)))
        (lowest costI (best :: (pts.filter ok).map (fun m => (best.1, m)))).getD best
      else best
    if v.forced then some best
    else
      let steps : List Int := if v.effort = 0 then [4] else if v.highMv then [4, 2, 1] else [4, 2]
      let costS := v.cost r x y n lam pred false
      some (steps.foldl (fun b d => (lowest costS (b :: ((around b.2 d).filter ok).map (fun m => (b.1, m)))).getD b) best)

/-! ### Hash tables and exact match (R238, R239, R242, R243) -/

/-- The key of the 8 × 8 block at a place: CRC-32C over its samples. -/
def Pic.key (p : Pic) (x y : Nat) : Nat :=
  crc32c ((List.range (if p.chroma = 3 then 3 else 1)).flatMap (fun k =>
    (List.range 64).flatMap (fun i => leBytes (sampleBytes p.deep) (p.px k (x + i % 8) (y + i / 8)))))

/-- All samples of the 8 × 8 block at a place are equal within each component. -/
def Pic.flat (p : Pic) (x y : Nat) : Bool :=
  (List.range (if p.chroma = 3 then 3 else 1)).all (fun k =>
    (List.range 64).all (fun i => p.px k (x + i % 8) (y + i / 8) = p.px k x y))

/-- k of R238: 2^k buckets of 32 bytes in a buffer. -/
def bucketBits (size : Nat) : Nat := log2 (max 1 (size / 32))

/-- The hash table of a picture: each block position in raster order, unless its block is flat or its bucket full. -/
def hashTable (p : Pic) (k : Nat) : SMap (List (Nat × Nat × Nat)) :=
  ((List.range (p.h - 7)).flatMap (fun y => (List.range (p.w - 7)).map (fun x => (x, y)))).foldl (fun m q =>
    if p.flat q.1 q.2 then m
    else
      let key := p.key q.1 q.2
      let b := SMap.get (fun _ => []) m (key % 2 ^ k)
      if 4 ≤ b.length then m else SMap.ins (key % 2 ^ k) (b ++ [(q.1, q.2, key)]) m) []

/-- A hash table in its buffer’s bytes. -/
def hashBytes (m : SMap (List (Nat × Nat × Nat))) (k : Nat) : List Nat :=
  (List.range (2 ^ k)).flatMap (fun b =>
    let l := SMap.get (fun _ => []) m b
    (List.range 4).flatMap (fun i => match l[i]? with
      | some (x, y, key) => leBytes 2 x ++ leBytes 2 y ++ leBytes 4 key
      | none => List.replicate 8 0))

/-- Entries of a key in the table of a buffer, in bucket order. -/
def State.hashLookup (s : State) (a k key : Nat) : List (Nat × Nat) :=
  (List.range 4).filterMap (fun i =>
    let e := a + 32 * (key % 2 ^ k) + 8 * i
    if s.rdM (e + 4) 4 = key then some (s.rdM e 2, s.rdM (e + 2) 2) else none)

/-- Hash exact matching runs: SCREEN, from effort 1 (R242, R243). -/
def EncView.exactOn (v : EncView) : Bool := v.screen && decide (1 ≤ v.effort)

/-- exact_match of R239: the first displacement, in bucket entry order, at which all four sub-blocks have a hit, every sample compares
equal and the vector is allowed. -/
def EncView.exact (v : EncView) (r : RefView) (x y : Nat) : Option (Int × Int) :=
  if !v.exactOn then none
  else
    let subs : List (Nat × Nat) := [(x, y), (x + 8, y), (x, y + 8), (x + 8, y + 8)]
    let hits := fun (q : Nat × Nat) => (r.lookup (v.pic.key q.1 q.2)).map (fun e => ((e.1 : Int) - q.1, (e.2 : Int) - q.2))
    let same := fun (d : Int × Int) =>
      (List.range (if v.pic.chroma = 0 then 1 else 3)).all (fun k =>
        let hx := k ≠ 0 ∧ v.pic.chroma ≠ 3
        let hy := k ≠ 0 ∧ v.pic.chroma = 1
        let w := if hx then 8 else 16
        let h := if hy then 8 else 16
        (List.range (w * h)).all (fun i =>
          let px := (if hx then x / 2 else x) + i % w
          let py := (if hy then y / 2 else y) + i / w
          v.pic.at k px py = r.pic.predict v.codec k px py (8 * d.1) (8 * d.2)))
    ((hits (x, y)).find? (fun d => subs.all (fun q => (hits q).contains d) && same d && v.allowed r x y 16 (8 * d.1, 8 * d.2))).map
      (fun d => (8 * d.1, 8 * d.2))

/-! ### Transcoding (R235) -/

/-- A block’s layer covers the whole picture at scale 1.0 and shows a decoded stream of the same cadence. -/
def EncView.transcodes (v : EncView) (i : Nat) : Bool :=
  v.hints.testBit 4 && (match v.layer i with
    | some l => l.ty = 1 && l.sx = 65536 && l.sy = 65536 && decide (v.cadenceOf l.source = v.cadence)
        && (match l.hist.head? with
          | some (_, x, y, _) => x = 0 && y = 0
          | none => false)
        && (match l.src with
          | some a => v.sizeOf a == (v.pic.w, v.pic.h)
          | none => false)
    | none => false)

/-- Every block of the picture shows that one layer. -/
def EncView.transcode (v : EncView) : Bool :=
  (List.range v.blocks).all (fun i => v.transcodes i && (v.layer i).map (fun l => l.source) == (v.layer 0).map (fun l => l.source))

/-- The skip of R235: the source’s zero-residual vector, where its cost is no more than that of skip with the zero vector. -/
def EncView.transSkip (v : EncView) (r : RefView) (lam i : Nat) (pred : Int × Int) : Option (Int × Int) :=
  let x := i % max 1 v.bw * 16
  let y := i / max 1 v.bw * 16
  match (v.layer i).bind (fun l => v.sourceMv l i) with
  | some m =>
    if m.cls = 2 then
      match scaleBoth (m.x, m.y) 65536 65536 (v.src - r.ref.tide) m.dist with
      | some q =>
        let q := (toStep v.unit q.1, toStep v.unit q.2)
        let c := v.cost r x y 16 lam pred true
        if v.allowed r x y 16 q && decide (c q ≤ c (0, 0)) then some q else none
      | none => none
    else none
  | none => none

/-! ### Mode decision held to the rules (R226, R240 to R243, R249, R256) -/

/-- Partition sizes of an effort, and of an AV1 anchor key frame (R226, R256). -/
def EncView.sizeAllowed (v : EncView) (n : Nat) : Bool :=
  if v.intra && v.codec = 4 then n = 32 || n = 64
  else if v.codec = 2 then n = 8 || n = 16
  else if v.effort = 0 then n = 16 || n = 32
  else if v.effort = 1 then n = 8 || n = 16 || n = 32
  else n = 8 || n = 16 || n = 32 || n = 64

/-- The colours of a block, each sample merged with the first colour within a tolerance in every component, with their counts (R241). -/
def coloursOf (p : Pic) (planes : List Nat) (x y n tol : Nat) : List (List Nat × Nat) :=
  (List.range (n * n)).foldl (fun acc i =>
    let c := planes.map (fun k =>
      p.at k (if k ≠ 0 ∧ p.chroma ≠ 3 then ((x + i % n) / 2 : Nat) else (x + i % n : Nat))
        (if k ≠ 0 ∧ p.chroma = 1 then ((y + i / n) / 2 : Nat) else (y + i / n : Nat)))
    let near := fun (q : List Nat × Nat) => (q.1.zip c).all (fun e => decide (e.1 ≤ e.2 + tol) && decide (e.2 ≤ e.1 + tol))
    if acc.any near then
      let l : List (List Nat × Nat) := acc.zipIdx.map (fun q =>
        if some q.2 = acc.findIdx? near then (q.1.1, q.1.2 + 1) else q.1)
      l
    else acc ++ [(c, 1)]) []

/-- A block is tried in palette mode (R241, R242, R243). -/
def EncView.paletteOk (v : EncView) (x y n tol : Nat) : Bool :=
  v.screen && decide (1 ≤ v.effort) &&
    (if v.codec = 3 then
      let l := coloursOf v.pic (if v.pic.chroma = 0 then [0] else [0, 1, 2]) x y n tol
      let top := ((l.mergeSort (fun a b => decide (b.2 ≤ a.2))).take 64).map (fun q => q.2)
      v.profile = 4 && decide (15 * n * n ≤ 16 * top.foldl (· + ·) 0)
     else v.codec = 4 && decide (8 ≤ n) && decide (n ≤ 64)
      && (List.range (if v.pic.chroma = 0 then 1 else 3)).all (fun k => decide ((coloursOf v.pic [k] x y n tol).length ≤ 8)))

/-- A place lies in a coding block. -/
def inBlk (b : CodBlk) (x y : Nat) : Bool := decide (b.x ≤ x) && decide (x < b.x + b.size) && decide (b.y ≤ y) && decide (y < b.y + b.size)

/-- An intra block copy is allowed (R240, R242, R243): in every picture of a Screen-Extended HEVC stream, in AV1 key frames; from
reconstructed samples whose keys stand in the current picture’s table, inside the clean area. `before` are the blocks coded before. -/
def EncView.copyOk (v : EncView) (raw : Pic) (before : List CodBlk) (x y n : Nat) (d : Int × Int) : Bool :=
  let sx := (x : Int) + d.1
  let sy := (y : Int) + d.2
  v.screen && decide (2 ≤ v.effort) && ((v.codec = 3 && v.profile = 4) || (v.codec = 4 && v.intra && Config.copyInRange 4 (x, y, n) d))
    && decide (0 ≤ sx) && decide (0 ≤ sy) && decide (sx + n ≤ v.pic.w) && decide (sy + n ≤ v.pic.h)
    && (List.range (n * n)).all (fun i => before.any (fun b => inBlk b (sx.toNat + i % n) (sy.toNat + i / n)))
    && (List.range (n / 8 * (n / 8))).all (fun i =>
      let ox := i % max 1 (n / 8) * 8
      let oy := i / max 1 (n / 8) * 8
      v.pic.key (x + ox) (y + oy) = raw.key (sx.toNat + ox) (sy.toNat + oy))
    && (v.whole || !v.clean x y n n || (List.range n).all (fun k =>
      clearBy v.spans (if v.vert then v.pic.h else v.pic.w) (if v.pic.chroma = 1 then 4 else 1)
        ((if v.vert then sy else sx) + (k : Nat))))

/-- A block of the clean area whose above-right neighbour lies outside it uses DC prediction (R249). -/
def EncView.dcOnly (v : EncView) (x y n : Nat) : Bool :=
  !v.whole && v.clean x y n n && decide (0 < y) && decide (x + n < v.pic.w)
    && !inSpans v.spans (if v.vert then ((y : Int) - 1) else (x + n : Nat))

/-- The intra mode a block may have: DC where R249 holds; DC or SMOOTH in an AV1 key frame (R256). -/
def EncView.intraMode (v : EncView) (x y n : Nat) (m : CodMode) : CodMode :=
  if v.dcOnly x y n then .dc
  else match m with
    | .smooth => .smooth
    | .intra => if v.intra && v.codec = 4 then .dc else .intra
    | _ => .dc

/-- Adaptive colour transform: Screen-Extended HEVC in 4:4:4, intra and copied blocks, from effort 4 (R242). -/
def EncView.actOk (v : EncView) (m : CodMode) : Bool :=
  v.codec = 3 && v.profile = 4 && v.pic.chroma = 3 && v.screen && decide (4 ≤ v.effort)
    && (match m with
      | .inter _ _ _ => false
      | .palette => false
      | _ => true)

end Sys2Proof.Machine
end

