-- ==== Sys2Proof/Machine/Bitstream.lean ====
section
/-! DEFINITION. The coded streams the encoders write (04_coding_formats.md: R154, R173 to R181; 06_encoding.md: R222, R242, R244, R250,
R254; 07_rate_control.md: R271, R272): the syntax elements of parameter sets, SEI messages, OBUs and slice or frame headers by name, and
filler byte for byte. -/

namespace Sys2Proof.Machine

/-- Syntax elements of a unit, by the names of the codec’s standard. -/
abbrev Elems := List (String × Int)

/-- An element. -/
def el (n : String) (v : Nat) : String × Int := (n, v)

/-- A flag. -/
def flag (n : String) (b : Bool) : String × Int := (n, b2n b)

/-! ### What the stream says of itself (R154, R174, R175) -/

/-- colour_primaries, transfer_characteristics, matrix_coefficients of a COLOUR (R174). -/
def colourPoints (colour : Nat) : Nat × Nat × Nat :=
  match colour with
  | 0 => (1, 1, 1)
  | 1 => (9, 14, 9)
  | 2 => (9, 16, 9)
  | _ => (9, 18, 9)

/-- The profile indication of an ENC_PROFILE (R154). -/
def profileIdc (codec prof : Nat) : Nat :=
  match codec with
  | 2 => [66, 77, 100].getD prof 66
  | 3 => [1, 2, 4, 4, 9].getD prof 1
  | _ => prof

/-- Tick and scale of the timing information (R174). -/
def State.unitTick (s : State) (c : Nat) : Nat := s.rateDen * s.cadD c
def State.timeScale (s : State) (c : Nat) : Nat := if s.codec c = 2 then 2 * s.rateNum else s.rateNum

/-- ENC_PROFILE, COLOUR and FULL_RANGE of a context. -/
def State.encProfile (s : State) (c : Nat) : Nat := s.sf c 26 1 % 16
def State.colour (s : State) (c : Nat) : Nat := bits (s.ctxFormat c) 9 7
def State.fullRange (s : State) (c : Nat) : Bool := (s.ctxFormat c).testBit 10

/-- The stream carries HRD signalling: CBR and capped VBR of AVC and HEVC (R181). -/
def State.hrdOn (s : State) (c : Nat) : Bool := decide (s.sf c 84 1 ≤ 1) && s.codec c != 4

/-- The signalled bit rate (R272). -/
def State.hrdRate (s : State) (c : Nat) : Nat := if s.sf c 84 1 = 0 then s.sf c 88 4 else s.sf c 44 4

/-- initial_cpb_removal_delay for a fullness (R272). -/
def State.removalDelay (s : State) (c : Nat) : Nat := cdiv (s.fullness c * 90000) (max 1 (s.hrdRate c))

/-- Colour, range, timing and HRD elements common to AVC and HEVC (R174, R272). -/
def State.vuiElems (s : State) (c : Nat) : Elems :=
  let k := colourPoints (s.colour c)
  [flag "video_full_range_flag" (s.fullRange c), el "colour_primaries" k.1, el "transfer_characteristics" k.2.1,
    el "matrix_coefficients" k.2.2, el "chroma_loc_info_present_flag" 0]
    ++ (if s.hrdOn c then [el "bit_rate" (s.hrdRate c), el "cpb_size" (s.bEff c), flag "cbr_flag" (s.sf c 84 1 = 0)] else [])

/-- Widths of the tile columns: one for each member share of a group split by tile (R178, R179). -/
def State.tileWidths (s : State) (c : Nat) : List Nat :=
  if unitKind (s.gtBerth c) == some .group && s.split (s.gtBerth c) = 1 then
    (s.shares (s.gtBerth c) (s.ctxW c) (s.ctxH c)).map (fun x => x.1)
  else [s.ctxW c]

/-- The reference count of a stream (R173, R227). -/
def State.refCountOf (s : State) (c : Nat) : Nat := effortRefs (s.book c).effortMax

/-! ### Parameter sets and sequence header (R173, R176 to R179) -/

/-- AVC SPS and PPS (R177). -/
def State.avcSets (s : State) (c : Nat) : List Elems :=
  let p := s.encProfile c
  [[el "nal_unit_type" 7, el "profile_idc" (profileIdc 2 p), flag "constraint_set1_flag" (p = 0), el "level_idc" ((s.levelOf c).getD 0),
      el "seq_parameter_set_id" 0, el "frame_mbs_only_flag" 1, el "pic_order_cnt_type" 2, el "log2_max_frame_num_minus4" 12,
      el "gaps_in_frame_num_value_allowed_flag" 0, el "max_num_ref_frames" 4, el "max_num_reorder_frames" 0, el "width" (s.ctxW c),
      el "height" (s.ctxH c), el "num_units_in_tick" (s.unitTick c), el "time_scale" (s.timeScale c), el "fixed_frame_rate_flag" 1] ++ s.vuiElems c,
    [el "nal_unit_type" 8, el "pic_parameter_set_id" 0, flag "entropy_coding_mode_flag" (p ≠ 0), flag "transform_8x8_mode_flag" (p = 2),
      el "weighted_pred_flag" 0, el "disable_deblocking_filter_idc" 0]]

/-- HEVC VPS, SPS and PPS (R178, R242, R250). -/
def State.hevcSets (s : State) (c : Nat) : List Elems :=
  let p := s.encProfile c
  let wide := decide (2 ≤ p)
  let full := s.chroma c = 3
  let t := s.tileWidths c
  [[el "nal_unit_type" 32, el "vps_video_parameter_set_id" 0, el "vps_max_sub_layers_minus1" 0],
    [el "nal_unit_type" 33, el "sps_seq_parameter_set_id" 0, el "general_profile_idc" (profileIdc 3 p), el "general_tier_flag" 0,
      el "general_level_idc" ((s.levelOf c).getD 0), el "chroma_format_idc" (s.chroma c), el "width" (s.ctxW c), el "height" (s.ctxH c),
      el "bit_depth" (if s.depth10 c then 10 else 8), el "log2_ctb_size" 6, el "log2_min_coding_block_size" 3,
      el "log2_min_transform_size" 2, el "log2_max_transform_size" 5, el "sps_max_num_reorder_pics" 0,
      el "sps_max_dec_pic_buffering_minus1" (s.refCountOf c), el "sps_temporal_mvp_enabled_flag" 0,
      el "sample_adaptive_offset_enabled_flag" 1, flag "implicit_rdpcm_enabled_flag" wide, flag "palette_mode_enabled_flag" (p = 4),
      el "palette_max_size" (if p = 4 then 64 else 0), el "delta_palette_max_predictor_size" (if p = 4 then 64 else 0),
      el "motion_vector_resolution_control_idc" (if p = 4 then 2 else 0), el "vui_num_units_in_tick" (s.unitTick c),
      el "vui_time_scale" (s.timeScale c)] ++ s.vuiElems c,
    [el "nal_unit_type" 34, el "pps_pic_parameter_set_id" 0, flag "tiles_enabled_flag" (decide (1 < t.length)),
      el "num_tile_columns_minus1" (t.length - 1), el "loop_filter_across_tiles_enabled_flag" 1, el "entropy_coding_sync_enabled_flag" 0,
      flag "transform_skip_enabled_flag" wide, el "log2_max_transform_skip_block_size_minus2" 0,
      flag "pps_curr_pic_ref_enabled_flag" (p = 4), flag "residual_adaptive_colour_transform_enabled_flag" (p = 4 && full),
      flag "cross_component_prediction_enabled_flag" ((p = 2 || p = 3) && full), el "pps_deblocking_filter_disabled_flag" 0]
      ++ t.map (fun w => el "column_width" w)]

/-- The AV1 sequence header (R174, R179). -/
def State.av1Header (s : State) (c : Nat) : Elems :=
  let k := colourPoints (s.colour c)
  [el "obu_type" 1, el "seq_profile" (s.encProfile c), el "seq_level_idx" ((s.levelOf c).getD 0), el "seq_tier" 0, el "still_picture" 0,
    el "operating_points_cnt_minus_1" 0, el "operating_point_idc" 0, el "use_128x128_superblock" 0, el "enable_order_hint" 1,
    el "enable_ref_frame_mvs" 1, el "enable_superres" 0, el "enable_cdef" 1, el "enable_restoration" 0, el "enable_interintra_compound" 0,
    el "enable_masked_compound" 0, el "enable_jnt_comp" 0, el "enable_filter_intra" 1, el "frame_id_numbers_present_flag" 1,
    el "film_grain_params_present" 0, el "seq_force_screen_content_tools" 2, el "seq_force_integer_mv" 2, el "width" (s.ctxW c),
    el "height" (s.ctxH c), el "bit_depth" (if s.depth10 c then 10 else 8), flag "mono_chrome" (s.chroma c = 0),
    flag "color_range" (s.fullRange c), el "color_primaries" k.1, el "transfer_characteristics" k.2.1, el "matrix_coefficients" k.2.2,
    el "num_units_in_display_tick" (s.unitTick c), el "time_scale" (s.timeScale c), el "equal_picture_interval" 1,
    el "num_ticks_per_picture_minus_1" 0]

/-- Parameter sets or sequence header of a stream: they depend on the context as START read it alone, so their bytes stay the same
(R173). -/
def State.paramSets (s : State) (c : Nat) : List Elems :=
  match s.codec c with
  | 2 => s.avcSets c
  | 3 => s.hevcSets c
  | _ => [s.av1Header c]

/-! ### SEI and metadata (R178 to R181, R254, R272) -/

/-- A payload of the context, byte by byte; none when it is all zero. -/
def State.hdrPayload (s : State) (c off n : Nat) : Option (List Nat) :=
  let l := (List.range n).map (fun i => s.ctxByte c (off + i))
  if l.all (· = 0) then none else some l

/-- HDR payloads with the parameter sets, when COLOUR is 2 and the context carries values (R178, R179). -/
def State.hdrUnits (s : State) (c : Nat) : List Elems :=
  let unit := fun (sei obu : Nat) (l : List Nat) =>
    (if s.codec c = 4 then [el "obu_type" 5, el "metadata_type" obu] else [el "nal_unit_type" 39, el "payloadType" sei])
      ++ l.map (fun b => el "byte" b)
  if s.colour c = 2 ∧ s.codec c ≠ 2 then
    ((s.hdrPayload c 60 24).map (unit 137 2)).toList ++ ((s.hdrPayload c 56 4).map (unit 144 1)).toList
  else []

/-- NAL unit type of a prefix SEI. -/
def seiType (codec : Nat) : Nat := if codec = 2 then 6 else 39

/-- Recovery point SEI of a sweep start: count P − 1 + A (R180). -/
def State.recoverySei (s : State) (c : Nat) : Elems :=
  [el "nal_unit_type" (seiType (s.codec c)), el "payloadType" 6,
    el (if s.codec c = 2 then "recovery_frame_cnt" else "recovery_poc_cnt") (s.period c - 1 + s.sf c 32 1 % 16),
    el "exact_match_flag" 1, el "broken_link_flag" 0]

/-- Buffering period SEI of a sweep start (R181, R272). -/
def State.bufferingSei (s : State) (c : Nat) : Elems :=
  [el "nal_unit_type" (seiType (s.codec c)), el "payloadType" 0, el "initial_cpb_removal_delay" (s.removalDelay c)]

/-- Picture timing SEI (R181). -/
def State.timingSei (s : State) (c order : Nat) : Elems :=
  [el "nal_unit_type" (seiType (s.codec c)), el "payloadType" 1, el "picture" order]

/-- The stream of a context leaves in a transport stream (R176). -/
def State.inTs (s : State) (c : Nat) : Bool :=
  s.outFlow c != 0xFFFF && (s.ff (s.outFlow c) 0 1 % 4 = 1 || s.ff (s.outFlow c) 0 1 % 4 = 2)

/-- The units before the first slice or tile of a picture, in order (R176, R178 to R181). -/
def State.headUnits (s : State) (c order : Nat) (begins : Bool) : List Elems :=
  let k := s.codec c
  if k = 4 then
    [[el "obu_type" 2]] ++ (if begins then s.paramSets c ++ s.hdrUnits c else [])
  else
    (if s.inTs c then [[el "nal_unit_type" (if k = 2 then 9 else 35)]] else []) ++ (if begins then s.paramSets c ++ s.hdrUnits c else [])
      ++ (if begins && s.hrdOn c then [s.bufferingSei c] else []) ++ (if s.hrdOn c then [s.timingSei c order] else [])
      ++ (if begins then [s.recoverySei c] else [])

/-- Bytes of units. -/
def unitsBytes (codec : Nat) (l : List Elems) : List Nat := l.flatMap (Config.unitBytes codec)

/-- Units after the last slice: the decoded picture hash of an HEVC stream that asks for it, CRC type (R178, R217). -/
def State.tailUnits (s : State) (c : Nat) (p : Pic) : List Elems :=
  if s.codec c = 3 ∧ s.ctrlBit c 2 then
    [[el "nal_unit_type" 40, el "payloadType" 132, el "hash_type" 1,
      el "picture_crc" (Config.pictureHash 1 ((List.range 3).map (fun k =>
        (List.range (p.dims k).2).flatMap (fun y => (List.range (p.dims k).1).map (fun x => p.px k x y)))))]]
  else []

/-! ### Slice and frame headers (R177 to R179, R244, R250) -/

/-- Elements of the slice or frame header of a picture; `n` counts pictures since the last intra picture. -/
def State.sliceElems (s : State) (c n : Nat) (intra forced high : Bool) : Elems :=
  let screen := (s.sf c 27 1).testBit 0
  match s.codec c with
  | 2 => [el "nal_unit_type" (if intra then 5 else 1), el "slice_type" (if intra then 2 else 0), el "frame_num" (n % 65536),
      el "slice_rows" (s.sf c 35 1), el "direct_spatial_mv_pred_flag" 0]
  | 3 => [el "nal_unit_type" (if intra then 20 else 1), el "slice_type" (if intra then 2 else 1), el "pic_order_cnt" n,
      el "slice_rows" (s.sf c 35 1), flag "use_integer_mv_flag" forced, el "slice_temporal_mvp_enabled_flag" 0, el "nuh_temporal_id_plus1" 1]
  | _ => [el "obu_type" 6, el "obu_has_size_field" 1, el "frame_type" (if intra then 0 else 1), el "show_frame" 1, el "order_hint" n,
      el "error_resilient_mode" 0, el "primary_ref_frame" 7, el "use_ref_frame_mvs" 0, el "segmentation_enabled" 0,
      flag "allow_screen_content_tools" screen, flag "allow_intrabc" (intra && screen), flag "force_integer_mv" forced,
      flag "allow_high_precision_mv" high, el "reference_select" 0, el "tile_columns" (s.tileWidths c).length]
      ++ (if intra then [el "refresh_frame_flags" 0xFF] else [])

/-! ### Filler (R181, R271) -/

/-- Bytes of a number as leb128. -/
def leb128 : Nat → Nat → List Nat
  | 0, n => [n % 128]
  | k + 1, n => if n < 128 then [n] else (n % 128 + 128) :: leb128 k (n / 128)

/-- A padding OBU of exactly n bytes, where one can have that size: header, size field and payload ending in its trailing bit. -/
def paddingObu (n : Nat) : Option (List Nat) :=
  ((List.range 5).find? (fun k => decide (k + 2 ≤ n) && (leb128 8 (n - 2 - k)).length = k + 1)).map (fun k =>
    let m := n - 2 - k
    [0x7A] ++ leb128 8 m ++ (if m = 0 then [] else List.replicate (m - 1) 0 ++ [0x80]))

/-- Filler of exactly n bytes: one filler NAL unit with its start code, or one padding OBU, or two where one cannot have the size
(R271). -/
def fillerBytes (codec n : Nat) : List Nat :=
  if n = 0 then []
  else if codec = 2 then [0, 0, 0, 1, 0x0C] ++ List.replicate (n - 6) 0xFF ++ [0x80]
  else if codec = 3 then [0, 0, 0, 1, 0x4C, 0x01] ++ List.replicate (n - 7) 0xFF ++ [0x80]
  else
    match paddingObu n with
    | some l => l
    | none => (paddingObu (n - 2)).getD [] ++ [0x7A, 0]

end Sys2Proof.Machine
end

