-- ==== Sys2Proof/Machine/Window.lean ====
section
/-! DEFINITION. The plan of a picture and the customer window (06_encoding.md: R247, R252, R255; 07_rate_control.md: R275, R276, R281, R287
to R292; 15_microcode.md: R543, R549): how the next picture stands in the sweeps, its limits and row quantisers, the view and the bounded
outputs of a window program, and the jobs and views of a pilot. -/

namespace Sys2Proof.Machine

/-! ### The picture to come (R247, R276, R281) -/

/-- A held request that the sweep in progress does not cover (rule 1 of R255). -/
def State.requestOpen (s : State) (c : Nat) : Bool :=
  let x := s.enc c
  match x.request with
  | some t => !(x.sweeping && decide (t < s.sf c 140 6))
  | none => false

/-- How the next picture stands in the refresh sweeps: begins a sweep, forced, intra, step, picture index (R247, R252,
R255, R256). -/
structure SweepPos where
  begins : Bool
  forced : Bool
  intra : Bool
  step : Nat
  pic : Nat
  deriving DecidableEq, Repr

def State.sweepPos (s : State) (c : Nat) : SweepPos :=
  let x := s.enc c
  let due := x.intraNext || !x.sweeping
  let gap := match x.sinceForced with
    | some n => decide (s.sf c 36 1 ≤ n)
    | none => true
  let force := !due && s.requestOpen c && gap
  let begins := due || force
  { begins, forced := force,
    intra := x.intraNext || (begins && s.codec c = 4 && x.sweepIdx % max 1 (s.sf c 33 1) = 0)
    step := if begins then 0 else x.nextStep
    pic := if begins then 0 else x.nextPic }

/-- Weighted samples of a row’s units by class, in thirds: inter outside the stripe, stripe, intra (R273). -/
def State.rowSamples (s : State) (c st : Nat) (intra : Bool) (r : (Nat × Nat × Nat × Nat) × Nat) : List Nat :=
  let u := rowLines (s.codec c)
  let sp := s.stripeSpan c st
  let y := r.1.2.1 + r.2 * u
  let lines := min u (r.1.2.2.2 - r.2 * u)
  let cls := (List.range (cdiv r.1.2.2.1 u)).map (fun n =>
    let x := r.1.1 + n * u
    let wide := min u (r.1.2.2.1 - n * u)
    let lo := if s.pattern c = 1 then y else x
    let len := if s.pattern c = 1 then lines else wide
    (if intra then 2 else if lo < sp.2 ∧ sp.1 < lo + len then 1 else 0, wide * lines * weight3 (s.chroma c)))
  (List.range 3).map (fun k => ((cls.filter (fun q => q.1 = k)).map (fun q => q.2)).foldl (· + ·) 0)

/-- The sweep of a picture began on an intra picture (R252, R281). -/
def State.sweepWhole (s : State) (c : Nat) (p : SweepPos) : Bool := p.intra || (!p.begins && (s.enc c).sweepIntra)

/-- What the pilot holds of a picture before its row 0 (R276, R281): how it stands in the sweeps, its bytes before the first slice or tile,
hdr and phi, floors and weighted samples of its rows, and t and h. -/
structure PicPlan where
  pos : SweepPos
  head : List Nat
  hdr : Nat
  phi : Nat
  floors : List Nat
  samples : List (List Nat)
  t : Nat
  h : Nat
  deriving DecidableEq, Repr

/-- The plan of a context’s next picture at an effort. -/
def State.picPlan (s : State) (c eff : Nat) : PicPlan :=
  let p := s.sweepPos c
  let head := unitsBytes (s.codec c) (s.headUnits c (s.sf c 180 4) p.begins)
  let hdr := min 2048 (8 * head.length)
  let floors := s.floors c p.step p.intra (s.sweepWhole c p)
  let phi := floors.foldl (· + ·) 0
  let samples := (s.rowList c).map (s.rowSamples c p.step p.intra)
  let cq := qScale (s.codec c) (qVal (s.codec c) (s.sf c 87 1))
  let est := cdiv (((samples.map (s.rowWeight c)).foldl (· + ·) 0) * effortFactor eff) (3 * two24 * max 1 cq)
  let lim := s.picLimits c hdr phi est p.intra
  { pos := p, head, hdr, phi, floors, samples, t := lim.1, h := lim.2 }

/-- The quantiser R279 gives row i of a plan at an effort: target, used_est and the row before’s quantiser. -/
def State.planQ (s : State) (c eff : Nat) (p : PicPlan) (t used : Nat) (prev : Option Int) (i : Nat) : Int :=
  s.rowQ c t p.hdr used (s.rowWeight c (p.samples.getD i [])) (((p.samples.drop i).map (s.rowWeight c)).foldl (· + ·) 0) (effortFactor eff) prev

/-! ### The customer window (R287 to R291) -/

/-- A pilot holds a window program. -/
def State.ucwLoaded (s : State) (p : Nat) : Bool := s.bit (ucb p Reg.PL_UCW_STATUS) 0

/-- A context’s window events are served: program loaded, USE_UCW 1, UCW_OFF 0 (R287). -/
def State.windowOn (s : State) (c : Nat) : Bool :=
  s.ucwLoaded (s.pilotOf c) && s.usesWindow c && !(s.pf c 49 1).testBit 0

/-- Invocations waiting on a pilot, the running one first: context, entry point, row. -/
def State.winq (s : State) (p : Nat) : List (Nat × Nat × Nat) := SMap.get (fun _ => []) s.windows p
def State.setWinq (p : Nat) (l : List (Nat × Nat × Nat)) (s : State) : State :=
  { s with windows := SMap.set (fun _ => []) s.windows p l }

/-- View of the window: slot k of 40 bits, kept in the pilot’s micro-state at LOCAL 1,024 + k (R289). -/
def viewKey (k : Nat) : Nat := 1024 + k

/-- FLAGS of the picture to come at a row (R289). -/
def State.windowFlags (s : State) (c : Nat) (p : PicPlan) (row : Option Nat) : Nat :=
  b2n p.pos.intra + b2n p.pos.begins * 2 + (match row with
    | some i => b2n ((p.samples.getD i []).getD 1 0 != 0) * 4
    | none => 0) + b2n (s.effortFor c).2 * 16

/-- FLAGS of the picture last coded: its effort byte, sweep start and intra picture, and the state record (R217, R285, R289). -/
def State.endFlags (s : State) (c : Nat) : Nat :=
  b2n ((s.enc c).intraAt + 1 = s.sf c 180 4) + b2n (s.sf c 140 6 = s.sf c 128 6) * 2 + b2n ((s.pf c 49 1).testBit 2) * 8
    + b2n ((s.sf c 139 1).testBit 3) * 16

/-- The values the pilot loads into the view before an entry (R289). USED_EST and ROW_EST rest on the gantry’s estimates, and are free
values (assumption 3). -/
def State.windowView (s : State) (c entry row n : Nat) : List (Nat × Nat) :=
  let a := s.arrive c
  let e := s.sf c 28 1
  let x := s.enc c
  let fv := fun (k : Nat) => Config.free (n + k) % two40
  let scr := (List.range 4).map (fun i => (28 + i, s.pf c (56 + 8 * i) 5))
  let base := [(0, c), (1, entry), (2, s.tideNum % two40)]
  let pic := [(3, a.2.1), (4, s.fullness c), (5, s.bEff c), (11, s.rowCount c), (14, min (bits e 2 0) s.gov + bits e 6 4 * 16),
    (16, s.cInter c), (17, s.cStripe c), (18, s.cIntra c), (19, s.sf c 100 4)]
  let eff := match x.outEffort with
    | some k => k
    | none => (s.effortFor c).1
  let p := s.picPlan c eff
  let t := match x.outTarget with
    | some g => g
    | none => p.t
  let prev := (x.outQ.find? (fun q => q.1 = row)).map (fun q => q.2)
  match entry with
  | 0 => base ++ [(19, s.sf c 100 4)] ++ scr
  | 1 => base ++ pic ++ [(6, p.t), (7, p.h), (9, p.phi), (15, s.windowFlags c p none), (24, p.t),
      (25, unsigned 40 (s.planQ c eff p p.t 0 none 0)), (26, 256), (27, eff)] ++ scr
  | 2 => base ++ pic ++ [(6, p.t), (7, p.h), (8, fv 8), (9, (p.floors.drop (row + 1)).foldl (· + ·) 0), (10, row), (12, fv 12),
      (15, s.windowFlags c p (some row)), (24, t), (25, unsigned 40 (s.planQ c eff p t (fv 8) prev (row + 1))), (26, 256), (27, eff)] ++ scr
  | _ => base ++ pic ++ [(13, s.pf c 40 5), (15, s.endFlags c)] ++ scr

/-- Begin the next waiting invocation of an idle pilot (R288, R543): its view is loaded and the micro-PC set to the entry
point in the last 8 Ki words. -/
def State.windowNext (p : Nat) (s : State) : State :=
  let s := if (s.unit p).micro.window.isSome then s else s.setWinq p ((s.winq p).filter (fun w => s.windowOn w.1))
  match s.winq p with
  | [] => s
  | (c, entry, row) :: _ =>
    if (s.unit p).micro.window.isSome || s.eng p != .idle then s
    else
      let r := s.drawMany 4096
      let s := r.2
      let v := s.windowView c entry row (r.1 + 2048)
      (s.sndCount p 0x302 1).setUnitF p (fun x => { x with micro := { x.micro with
        pc := 0x6000 + entry, stack := [], inRoutine := true, routine := 0xF0 + entry, trapped := false, waiting := none, causes := 0
        undef := none, d := [], locals := v.foldl (fun m q => SMap.ins (viewKey q.1) q.2 m) []
        z := false, n := false, c := false, v := false, window := some c, cycles := 0 } })

/-- Ask for an invocation; one for each entry point of R288, when the context’s window is on. -/
def State.windowAsk (c entry row : Nat) (s : State) : State :=
  if s.windowOn c then
    let p := s.pilotOf c
    (s.setWinq p (s.winq p ++ [(c, entry, row)])).windowNext p
  else s

/-- The words of a window program stand in the control store from 0x6000 up (R543). -/
def State.ucwWrite (p : Nat) (ws : List Nat) (s : State) : State :=
  { s with cs := ws.zipIdx.foldl (fun m w => SMap.ins (p * 65536 + 0x6000 + w.2) w.1 m) s.cs }

/-- Programs in force for a pilot that runs no invocation are written to its control store (R549). -/
def State.ucwSettle (p : Nat) (s : State) : State :=
  if (s.unit p).micro.window.isSome then s
  else
    let l := s.ucwNext
    ({ s with ucwNext := l.filter (fun (q : Nat × Bool × List Nat) => !(q.1 = p && q.2.1)) }).each
      (l.filter (fun (q : Nat × Bool × List Nat) => q.1 = p && q.2.1)) (fun q s => s.ucwWrite p q.2.2)

/-- At a tide start programs loaded before it come into force, and PL_UCW_STATUS changes; an invocation that has begun runs on with
the program it began with (R549). -/
def State.ucwTide (s : State) : State :=
  let l := s.ucwNext
  let s := { s with ucwNext := List.map (fun (q : Nat × Bool × List Nat) => (q.1, true, q.2.2)) l }
  s.each (l.filter (fun (q : Nat × Bool × List Nat) => !q.2.1)) (fun q s =>
    (s.wr (ucb q.1 Reg.PL_UCW_STATUS) (b2n (!q.2.2.isEmpty) + q.2.2.length * 65536)).ucwSettle q.1)

/-- The running invocation ends, whatever its outcome. -/
def State.windowDone (p : Nat) (s : State) : State :=
  let s := s.setWinq p ((s.winq p).drop 1)
  let s := s.setUnitF p (fun x => { x with micro := { x.micro with window := none, inRoutine := false, cycles := 0, locals := [] } })
  (s.ucwSettle p).windowNext p

/-- Bound an output and count it when it was outside (R290). -/
def State.bounded (p : Nat) (lo hi x : Int) (s : State) : Int × State :=
  if x < lo ∨ hi < x then (clamp lo hi x, s.bump (ucb p Reg.PL_CLAMPS_LAST) 1) else (x, s)

/-- A normal exit: the outputs the entry point honours take effect within their bounds (R288, R290). -/
def State.windowExit (p : Nat) (s : State) : State :=
  match s.winq p with
  | [] => s
  | (c, entry, row) :: _ =>
    let view := fun (k : Nat) => SMap.get (fun _ => 0) (s.unit p).micro.locals (viewKey k)
    let s := s.each (List.range 4) (fun i s => s.setPf c (56 + 8 * i) 8 (view (28 + i)))
    let x := s.enc c
    let s := match entry with
      | 1 | 2 =>
        let q := qVal (s.codec c) (view 25 % 256)
        let prev := (x.outQ.find? (fun (k : Nat × Int) => k.1 = row)).map (fun (k : Nat × Int) => k.2)
        let lo := match prev with
          | some k => if entry = 1 then s.qLow c else max (s.qLow c) (k - s.qStep c)
          | none => s.qLow c
        let hi := match prev with
          | some k => if entry = 1 then s.qHigh c else min (s.qHigh c) (k + s.qStep c)
          | none => s.qHigh c
        let r := s.bounded p lo hi q
        let l := r.2.bounded p 64 1024 (view 26)
        let t := l.2
        let ef := if entry = 1 then
            let e := t.effortFor c
            let z := t.bounded p (min (min (bits (t.sf c 28 1) 6 4) (t.book c).effortMin) e.1) e.1 (view 27 % 8)
            (some z.1.toNat, z.2)
          else (x.outEffort, t)
        let pl := s.picPlan c (s.effortFor c).1
        let g := if entry = 1 then
            let z := ef.2.bounded p ((pl.hdr + pl.phi : Nat) : Int) pl.h (view 24)
            (some z.1.toNat, z.2)
          else (x.outTarget, ef.2)
        g.2.setEnc c { x with
          outQ := x.outQ ++ [(if entry = 1 then 0 else row + 1, r.1)], outLambda := l.1.toNat, outTarget := g.1, outEffort := ef.1 }
      | 3 =>
        s.each (List.range 3) (fun i s =>
          let b := s.bounded p 1 ((two40 - 1 : Nat) : Int) (view (16 + i))
          b.2.setPf c (16 + 8 * i) 8 b.1.toNat)
      | _ => s
    -- the row after is asked for once its row before is decided (R288)
    let more := if entry = 1 then [(c, 2, 0)] else if entry = 2 then [(c, 2, row + 1)] else []
    let more := more.filter (fun m => decide (m.2.2 + 2 ≤ s.rowCount c))
    (s.setWinq p (((s.winq p).take 1) ++ more ++ (s.winq p).drop 1)).windowDone p

/-- UCW_OVERRUN: the invocation is stopped, its outputs discarded and UCW_OFF set; a usage fault names the pilot (R291). -/
def State.ucwOverrun (p : Nat) (s : State) : State :=
  match s.winq p with
  | [] => s
  | (c, entry, _) :: _ =>
    if (s.unit p).micro.window.isNone then s
    else
      let s := s.setPf c 49 1 (putBits (s.pf c 49 1) 0 0 1)
      let s := (s.wr (ucb p Reg.PL_UCW_LAST) (c % 4096 + entry * 4096)).inc (ucb p Reg.PL_UCW_OVERRUNS)
      (s.report 0x1A30 p 0 0).windowDone p

/-- A write of PL_UCW_REARM: UCW_OFF clears for one attached context, or for all (R291, R292). -/
def State.ucwRearm (agent p v : Nat) (s : State) : State :=
  let o := ucb p Reg.PL_UCW_REARM
  if s.armBlocks agent o then s.usageReg agent o
  else
    let all := (s.books.filter (fun k => decide (k.1 < 4096) && s.ctxState k.1 != 0
      && k.2.charges.any (fun x => x.1 = p && x.2.2 = 0))).map (fun k => k.1)
    let cs := if v.testBit 31 then all else all.filter (fun c => c = bits v 11 0)
    s.each cs (fun c s => s.setPf c 49 1 (putBits (s.pf c 49 1) 0 0 0))

/-! ### Pilot jobs (R275) -/

/-- A pilot job’s context is an encode context of the job’s berth. -/
def State.pilotCtx (s : State) (u : Nat) (j : Job) : Bool := decide (j.ctx < 4096) && s.ctxKind j.ctx = 2 && s.plBerth j.ctx = u

/-- MODEL_READ: the state record to 128 bytes (R275). -/
def State.modelRead (u : Nat) (j : Job) (s : State) : State :=
  if !s.pilotCtx u j then s.endJob u 0x20
  else
    let r := s.writeMem u (j.s0 % two40) (Memory.bytes s.mem (s.plRec j.ctx) 128)
    r.2.endJob u (if r.1 = .ok ∧ j.s0 ≠ 0 then 0 else 0x21)

/-- MODEL_SEED: the classes for the next START of a STOPPED context (R275). -/
def State.modelSeed (u : Nat) (j : Job) (s : State) : State :=
  if !s.pilotCtx u j || s.ctxState j.ctx != 0 then s.endJob u 0x20
  else
    let r := s.readMem u (j.s0 % two40) 24
    if r.1 = .ok ∧ j.s0 ≠ 0 then
      let b := r.2.1
      let s := r.2.2
      (s.setEnc j.ctx { s.enc j.ctx with seed := some (leNat (b.take 5), leNat ((b.drop 8).take 5), leNat ((b.drop 16).take 5)) }).endJob u 0
    else r.2.2.endJob u 0x21

/-! ### Views (R292) -/

def State.viewPlStatus (s : State) (p : Nat) : Nat :=
  match (s.unit p).micro.window, s.winq p with
  | some c, (_, e, _) :: _ => c % 4096 + e * 4096 + 2 ^ 14
  | _, _ => match (s.unit p).job with
    | some j => j.ctx % 4096
    | none => 0

/-- Cycles booked per tide on a pilot (R267). -/
def State.viewPlBooked (s : State) (p : Nat) : Nat :=
  cadenceSum (s.books.flatMap (fun k => if k.2.charges.any (fun c => c.1 = p && c.2.2 = 0) then
    (k.2.works.filter (fun w => w.2.1 = 4)).map (fun w => (if w.1 = 1 then 1 else k.2.divisor, if w.1 = 1 then 0 else k.2.phase,
      w.2.2 / 300)) else []))

/-! ### Meanings -/

/-- MODEL_READ (R275). -/
def execModelRead (unit : Nat) (s : State) : Host.Outcome State Fault Refusal :=
  .next (s.runJob unit 0x0601 false (fun j s => s.modelRead unit j))
/-- MODEL_SEED (R275). -/
def execModelSeed (unit : Nat) (s : State) : Host.Outcome State Fault Refusal :=
  .next (s.runJob unit 0x0602 false (fun j s => s.modelSeed unit j))
/-- UCW_OVERRUN (R291). -/
def execUcwOverrun (pilot : Nat) (s : State) : Host.Outcome State Fault Refusal := .next (s.ucwOverrun pilot)
/-- PL_UCW_REARM (R291). -/
def execPlUcwRearm (agent pilot value : Nat) (s : State) : Host.Outcome State Fault Refusal :=
  .next (s.ucwRearm agent pilot value)

end Sys2Proof.Machine
end

