-- ==== Sys2Proof/Machine/Encode.lean ====
section
/-! DEFINITION. Encode jobs (06_encoding.md: R216 to R263): START, refresh sweeps, coding a picture within its limits,
entropy coding through the quay, the bitstream header, and what is sent or dropped. The operand brings what the manual leaves to the
gantry or to the codec’s standard. -/

namespace Sys2Proof.Machine

/-! ### START (R219, R264, R271) -/

/-- ENC_PROFILE agrees with CODEC, CHROMA and DEPTH (R154). -/
def profileOk (codec prof chroma : Nat) (deep : Bool) : Bool :=
  match codec with
  | 2 => decide (prof ≤ 2) && chroma = 1 && !deep
  | 3 =>
    match prof with
    | 0 => chroma = 1 && !deep
    | 1 => chroma = 1
    | 2 => (chroma = 1 || chroma = 3) && !deep
    | 3 | 4 => chroma = 1 || chroma = 3
    | _ => false
  | 4 => if prof = 0 then chroma = 0 || chroma = 1 else if prof = 1 then chroma = 3 else false
  | _ => false

/-- The refresh pattern’s own conditions (R245). -/
def State.patternOk (s : State) (c : Nat) : Bool :=
  match s.sf c 29 1 with
  | 0 | 1 => true
  | 2 =>
    let g := s.gtBerth c
    let t := (s.shares g (s.ctxW c) (s.ctxH c)).length
    (s.codec c = 3 || s.codec c = 4) && unitKind g == some .group && s.split g = 1 && decide (2 ≤ t) && s.period c % t = 0
  | _ => false

/-- Running members of a context’s sibling set other than itself. -/
def State.sibOthers (s : State) (c : Nat) : List Nat :=
  (s.books.map (fun k => k.1)).filter (fun d => d != c && decide (d < 4096) && s.ctxKind d = 2 && s.ctxState d = 2
    && s.sf d 38 2 % 1024 = s.sf c 38 2 % 1024)

/-- Check 11 of R219. -/
def State.sibOk (s : State) (c : Nat) : Bool :=
  s.sf c 38 2 % 1024 = 0 ||
    (s.sf c 48 8 != 0 && (s.sibOthers c).all (fun d => s.sf d 40 2 = s.sf c 40 2 && s.sf d 48 8 = s.sf c 48 8
      && !((s.sf c 27 1).testBit 3 && (s.sf d 27 1).testBit 3)))

/-- The first failing check of R219, 0 when all pass; code 6 also for R264, R269 and R343. -/
def State.encStartCode (s : State) (c : Nat) : Nat :=
  let screen := (s.sf c 27 1).testBit 0
  let lay := s.layoutOf c
  if s.sf c 0 2 ≠ c ∨ s.ctxKind c ≠ 2 then 1
  else if s.ctxState c ≠ 0 then 2
  else if !s.formatOk c || !profileOk (s.codec c) (s.sf c 26 1) (s.chroma c) (s.depth10 c) then 3
  else if s.cadD c ≤ s.cadPhi c then 4
  else if s.ctxW c % 8 ≠ 0 || s.ctxH c % 8 ≠ 0 || !s.sizeFits c then 5
  else if !s.boundTo (s.gtBerth c) c .gantry || !s.boundTo (s.tlBerth c) c .tally || !s.boundTo (s.plBerth c) c .pilot
      || !s.rateOk c || (s.outFlow c != 0xFFFF && s.flowBad (s.outFlow c) (s.codec c))
      || (s.leafList (s.plBerth c)).all (fun p => decide (512 ≤ s.attached p)) then 6
  else if !s.poolDefined (s.sf c 20 2) || !s.poolDefined (s.sf c 22 2) || decide (s.poolSize (s.sf c 22 2) < s.ctxPicBytes c)
      || (screen && (!s.poolDefined (s.sf c 42 2) || decide (s.poolSize (s.sf c 42 2) < 1048576))) then 7
  else if s.period c < 8 || decide (1024 < s.period c) || decide (15 < s.sf c 32 1) || s.sf c 33 1 = 0 || decide (64 < s.sf c 33 1)
      || decide (100 < s.sf c 34 1) || !s.patternOk c then 8
  else if bits (s.sf c 28 1) 2 0 < bits (s.sf c 28 1) 6 4 then 9
  else if Nat.land (s.sf c 7 1) 0x38 ≠ 0 then 10
  else if !s.sibOk c then 11
  else if !s.levelHolds c then 12
  else if lay ≠ 0xFFFF ∧ (1023 < lay ∨ s.lf (s.layoutAddr lay (s.layoutSt lay).copy) 0 2 ≠ s.ctxW c
      ∨ s.lf (s.layoutAddr lay (s.layoutSt lay).copy) 2 2 ≠ s.ctxH c) then 13
  else 0

/-- START of an encode context (R219, R264, R271, R273). -/
def State.encStart (u : Nat) (j : Job) (s : State) : State :=
  let c := j.ctx
  let code := s.encStartCode c
  if code ≠ 0 then (s.setJob u { j with b1 := code }).endJob u 0x20
  else
    let x := s.enc c
    let e := s.sf c 28 1
    let s := (s.readCtx c).attach c
    let s := s.setBook c { s.book c with effortMin := bits e 6 4, effortMax := bits e 2 0 }
    let s := (((s.setCtxState c 2).clearRefs c 192 4).setSf c 180 4 0).setEnc c EncSt.reset
    ((s.initRecord c x.seed).each (s.leafList u) State.spadNeed).endJob u 0

/-! ### Refresh requests (R255) -/

/-- A refresh request naming a tide: counted always, held when answered (R255). -/
def State.refreshAsked (c tide : Nat) (s : State) : State :=
  let s := s.incSf c 168
  if s.ctrlBit c 1 then
    let x := s.enc c
    s.setEnc c { x with request := some (match x.request with
      | some t => max t tide
      | none => tide) }
  else s

/-- FORCE_SWEEP: a request naming the current tide (R255). -/
def State.forceSweep (u : Nat) (j : Job) (s : State) : State := (s.refreshAsked j.ctx s.tideNum).endJob u 0

/-- RESTART: the next picture is intra and the current sweep is abandoned (R252). -/
def State.restartJob (u : Nat) (j : Job) (s : State) : State :=
  (s.setEnc j.ctx { s.enc j.ctx with intraNext := true, sweeping := false }).endJob u 0

/-! ### Coding a picture (R224, R247, R253, R276 to R283) -/

/-- State of the walk over rows: quantiser of the row before, bits used, where salvage began (row and start column), quantiser scale and
class bits of each row coded before salvage, rows walked, regions discarded, and every region’s row, end column, bits and entries. -/
structure RowWalk where
  prev : Option Int
  used : Nat
  cut : Option (Nat × Nat)
  scales : List Nat
  bits : List (List Nat)
  rows : Nat
  rewinds : Nat
  regions : List (Nat × Nat × Nat × Nat)
  deriving DecidableEq, Repr

/-- Bits of a region. -/
def regionBits (g : RegionOut) : Nat := g.bits.foldl (· + ·) 0

/-- Commit the regions of a row while R282 holds, from a start column: those committed, and those left with the column they start at. -/
def commitRegions (h : Nat) (restOf : Nat → Nat) : List RegionOut → Nat → Nat → List RegionOut × List RegionOut × Nat
  | [], _, col => ([], [], col)
  | g :: gs, used, col =>
    if used + regionBits g + restOf g.stop ≤ h then
      let k := commitRegions h restOf gs (used + regionBits g) g.stop
      (g :: k.1, k.2)
    else ([], g :: gs, col)

/-- Class bits of regions, summed. -/
def classBits (l : List RegionOut) : List Nat := (List.range 3).map (fun k => (l.map (fun g => g.bits.getD k 0)).foldl (· + ·) 0)

/-- One row of the picture: its quantiser, then its regions, or its salvage coding within its floor (R279, R282, R283). -/
def State.codeRow (s : State) (c t h hdr e : Nat) (o : EncOut) (samples : List (List Nat)) (floors : List Nat) (part : Nat → Nat → Nat)
    (w : RowWalk) (i : Nat) : RowWalk :=
  let r := o.rows.getD i { usedEst := 0, regions := [] }
  let fl := floors.getD i 0
  let tail := ((floors.drop (i + 1))).foldl (· + ·) 0
  let salv := fun (l : List RegionOut) (room : Nat) => min room ((l.map (fun g => g.salvBits)).foldl (· + ·) 0)
  let put := fun (l : List RegionOut) (s : Bool) => l.map (fun g => (i, g.stop, if s then g.salvBits else regionBits g, if s then g.salvEntries else g.entries))
  if w.cut.isSome then { w with used := w.used + salv r.regions fl, rows := i + 1, regions := w.regions ++ put r.regions true }
  else
    let wi := s.rowWeight c (samples.getD i [])
    let wr := ((samples.drop i).map (s.rowWeight c)).foldl (· + ·) 0
    let q := match (s.enc c).outQ.find? (fun x => x.1 = i) with
      | some x => x.2
      | none => s.rowQ c t hdr r.usedEst wi wr e w.prev
    let k := commitRegions h (fun col => part i col + tail) r.regions w.used 0
    let used := w.used + (k.1.map regionBits).foldl (· + ·) 0
    if k.2.1.isEmpty then
      { w with prev := some q, used, scales := w.scales ++ [qScale (s.codec c) q], bits := w.bits ++ [classBits k.1], rows := i + 1
               regions := w.regions ++ put k.1 false }
    else
      { w with prev := some q, used := used + salv k.2.1 (part i k.2.2), cut := some (i, k.2.2), rows := i + 1, rewinds := w.rewinds + 1
               regions := w.regions ++ put k.1 false ++ put k.2.1 true }

/-- The row of a place: its index in member order (R279). -/
def State.rowIndex (s : State) (c x y : Nat) : Nat :=
  let u := rowLines (s.codec c)
  ((s.rowList c).findIdx? (fun r => decide (r.1.1 ≤ x) && decide (x < r.1.1 + r.1.2.2.1) && decide (r.1.2.1 + r.2 * u ≤ y)
    && decide (y < r.1.2.1 + r.2 * u + u))).getD 0

/-- The member whose share holds a place. -/
def State.memberAt (s : State) (c x y : Nat) : Nat :=
  ((s.placed c).findIdx? (fun p => decide (p.1 ≤ x) && decide (x < p.1 + p.2.2.1) && decide (p.2.1 ≤ y) && decide (y < p.2.1 + p.2.2.2))).getD 0

/-- Give buffers back and complete an ENCODE with a status that drops the picture (R224). -/
def State.dropEnc (u st : Nat) (l : List Nat) (j : Job) (s : State) : State :=
  let s := (s.freeBufs u l).incSf j.ctx 172
  ((s.setEnc j.ctx { s.enc j.ctx with dropped := some (j.seq, st) }).setJob u { j with bufs := [] }).endJob u st

/-- Buffers of an ENCODE: bitstream, reconstruction and hash table; none where a pool has none (R212, R224, R238). -/
def State.encBuffers (u : Nat) (j : Job) (s : State) : Option (Nat × Nat × Nat × List Nat) × State :=
  let c := j.ctx
  let screen := (s.sf c 27 1).testBit 0
  let b := if j.s1 ≠ 0 then (0, j.s1 % two40, s) else s.alloc u u (s.sf c 20 2) .job
  if b.1 ≠ 0 then (none, b.2.2)
  else
    let own := if j.s1 ≠ 0 then [] else [b.2.1]
    let r := if j.s2 ≠ 0 then (0, j.s2 % two40, b.2.2) else b.2.2.alloc u u (s.sf c 22 2) .job
    if r.1 ≠ 0 then (none, r.2.2.freeBufs u own)
    else
      let own := own ++ (if j.s2 ≠ 0 then [] else [r.2.1])
      let h := if screen then r.2.2.alloc u u (s.sf c 42 2) .job else (0, 0, r.2.2)
      if h.1 ≠ 0 then (none, h.2.2.freeBufs u own) else (some (b.2.1, r.2.1, h.2.1, own ++ (if screen then [h.2.1] else [])), h.2.2)

/-- Live counts of the gantry’s encode statistics, in the order of R263. -/
def encStats : List Nat :=
  [Reg.GT_CAND_SRC_LAST, Reg.GT_CAND_SIB_LAST, Reg.GT_CAND_NBR_LAST, Reg.GT_CAND_GLB_LAST, Reg.GT_HASH_EXACT_LAST,
    Reg.GT_PALETTE_LAST, Reg.GT_IBC_LAST, Reg.GT_STRIPE_LAST, Reg.GT_CLAMPED_LAST, Reg.GT_SIB_WRITES_LAST]

/-! ### The picture as the search sees it -/

/-- The picture an ENCODE codes: that of its slot, or the most recent composed picture that completed OK when it carries another status
(R225). -/
def State.encSource (s : State) (j : Job) : Nat :=
  let a := j.s0 % two40
  if s.memByte (a + 6) ≠ 0 ∧ (s.enc j.ctx).composed ≠ 0 then (s.enc j.ctx).composed else a

/-- What the layer map in a composed buffer says of a block; none for a picture the host supplies or a layout without a map (R221,
R310). -/
def State.mapLayer (s : State) (c a p i : Nat) : Option MapLayer :=
  let n := s.layoutOf c
  if 1023 < n then none
  else
    let lay := (s.composeAddr n p).1
    let side := s.sideOf a
    let k := s.memByte (side + i)
    if !(s.lf lay 7 1).testBit 0 || decide (15 < k) then none
    else
      let e := side + 16 * mvBlocks (s.ctxW c) (s.ctxH c) + 96 * k
      let hist := (List.range 5).map (fun h =>
        let b := e + 16 + 16 * h
        ((s.memByte (b + 14)).testBit 0, signed 32 (s.rdM b 4), signed 32 (s.rdM (b + 4) 4), s.rdM (b + 8) 6))
      let src := s.rdM (e + 2) 2
      let crop := if s.layerF lay k 16 2 = 0 ∨ s.layerF lay k 18 2 = 0 then (0, 0) else (s.layerF lay k 12 2, s.layerF lay k 14 2)
      some { ty := s.memByte e, source := src, sx := s.rdM (e + 4) 4, sy := s.rdM (e + 8) 4, hist, crop
             src := if s.memByte e = 1 ∧ src < 4096 then
                 ((s.dec src).pics.find? (fun q => match hist.head? with
                   | some h => h.2.2.2 = q.tide
                   | none => false)).map (fun q => q.addr)
               else none }

/-- Integer vectors are forced: SCREEN, and at least 3/4 of the previous picture’s inter blocks were coded by exact match (R244). -/
def State.forcedInt (s : State) (c : Nat) : Bool :=
  let x := s.enc c
  (s.sf c 27 1).testBit 0 && x.lastInter != 0 && decide (3 * x.lastInter ≤ 4 * x.lastExact)

/-- An entry of the sibling table: valid when VALID is 1 and it was written in the tide of the reader’s ENCODE (R232). -/
def State.sibAt (s : State) (c tide i : Nat) : Option (Int × Int × Nat) :=
  let a := s.sf c 48 5 + 16 * i
  if (s.rdM (a + 6) 1).testBit 0 ∧ s.rdM (a + 8) 6 = tide then
    some (signed 16 (s.rdM a 2), signed 16 (s.rdM (a + 2) 2), s.rdM (a + 4) 2)
  else none

/-- A picture at the start of its search: its samples, effort, sweep position and references (R226, R227, R247). -/
def State.encView (s : State) (c a eff : Nat) (p : SweepPos) (src : Nat) : EncView :=
  let x := s.enc c
  let pic := { s.loadPic a with w := s.ctxW c, h := s.ctxH c }
  let k := bucketBits (s.poolSize (s.sf c 42 2))
  let sib := s.sf c 40 2
  { ctx := c, codec := s.codec c, profile := s.encProfile c, pic, effort := eff, hints := s.sf c 27 1, src, tide := src - 1
    intra := p.intra, whole := s.sweepWhole c p, sweep := if p.begins then x.sweepIdx else x.sweepIdx - 1
    vert := s.pattern c = 1, spans := s.cleanSpans c p.step, stripe := s.stripeSpan c p.step, forced := s.forcedInt c
    refs := if p.intra then [] else (x.refs.take (effortRefs eff)).map (fun r =>
      { ref := r, pic := s.loadPic r.recon, spans := s.cleanSpans c r.step, mv := s.mvAt r.recon, back := (src - r.tide) / s.cadD c
        lookup := fun key => if r.hash = 0 then [] else s.hashLookup r.hash k key })
    layer := fun i => s.mapLayer c a (src + s.presentL) i
    cadence := s.cadD c, cadenceOf := s.cadD, mvOf := s.mvAt, sizeOf := fun b => (s.rdM (b + 16) 2, s.rdM (b + 18) 2)
    sibSource := sib, sibDims := (s.ctxW sib, s.ctxH sib)
    sibOn := (s.sf c 27 1).testBit 2 && s.sf c 38 2 % 1024 != 0, sib := s.sibAt c (src - 1) }

/-! ### The search over a picture -/

/-- What the search of a block comes to: its vector and class, the reference, whether by exact match, whether without search (R235), the
candidates clamped or dropped, and the sibling entry it writes. -/
structure BlkRes where
  ch : Chosen
  ref : Nat
  exact : Bool
  trans : Bool
  clamps : Nat
  sib : Option (Nat × List Nat)
  deriving DecidableEq, Repr

/-- One 16-byte sibling entry (R232): vector and distance, VALID, tide, writer. -/
def sibEntry (mv : Int × Int) (dist tide c : Nat) : List Nat :=
  s16Bytes mv.1 ++ s16Bytes mv.2 ++ leBytes 2 dist ++ [1, 0] ++ leBytes 6 tide ++ leBytes 2 (c % 4096)

/-- The sibling entry of a block decided as inter: its vector through the inverse of R231 (R233). The source’s distance is that of the
record under the block’s centre, the reference’s own where it has none (assumption 75). -/
def EncView.sibWrite (v : EncView) (i : Nat) (de : Nat) (mv : Int × Int) (now : Nat) : Option (Nat × List Nat) :=
  match v.sibOn, v.layer i with
  | true, some l =>
    if l.ty = 1 ∧ l.source = v.sibSource then
      let ds := match v.sourceMv l i with
        | some m => if m.dist = 0 then de else m.dist
        | none => de
      match v.underBlock l v.sibDims.1 v.sibDims.2 i, scaleBoth mv (two32 / max 1 l.sx) (two32 / max 1 l.sy) ds de with
      | some k, some m => some (k, sibEntry m ds now v.ctx)
      | _, _ => none
    else none
  | _, _ => none

/-- One search block, decided: without search under R235, else every reference is searched and mode decision names the one used (R230,
R236, R239). A salvaged block is not searched. -/
def EncView.searchBlock (v : EncView) (lam now : Nat) (salv trans : Bool) (mode : CodMode) (done : List Chosen)
    (sib : Nat → Option (Int × Int × Nat)) (i : Nat) : BlkRes :=
  let x := i % max 1 v.bw * 16
  let y := i / max 1 v.bw * 16
  let none_ : BlkRes := { ch := { mv := none, cls := 5 }, ref := 0, exact := false, trans := false, clamps := 0, sib := none }
  let pred := Config.mvPredictor v.codec (v.neighbours done i)
  match v.refs with
  | [] => none_
  | r0 :: _ =>
    if salv then none_
    else
      match if trans then v.transSkip r0 lam i pred else none with
      | some m => { none_ with ch := { mv := some m, cls := 5 }, trans := true, sib := v.sibWrite i (v.src - r0.ref.tide) m now }
      | none =>
        let found := v.refs.map (fun r =>
          match v.exact r x y with
          | some m => (some (0, m), 0)
          | none =>
            let k := v.cands done sib r i
            (v.searchFrom r x y 16 lam pred k.1, k.2))
        let clamps := (found.map (fun f => f.2)).foldl (· + ·) 0
        match mode with
        | .inter n _ _ =>
          match v.refs[n]?, (found[n]?).bind (fun f => f.1) with
          | some r, some (cls, m) =>
            { ch := { mv := some m, cls }, ref := n, exact := cls = 0, trans := false, clamps, sib := v.sibWrite i (v.src - r.ref.tide) m now }
          | _, _ => { none_ with clamps }
        | _ => { none_ with clamps }

/-- Search every block in raster order; sibling entries written are seen by the blocks after. -/
def EncView.searchAll (v : EncView) (lamOf : Nat → Nat) (now : Nat) (salvOf : Nat → Bool) (modeOf : Nat → CodMode) : List BlkRes :=
  let trans := v.transcode
  ((List.range v.blocks).foldl (fun (acc : List BlkRes × SMap (List Nat)) i =>
    let sib := fun (k : Nat) => match acc.2.find? (fun q => q.1 = k) with
      | some q => some (signed 16 (leNat (q.2.take 2)), signed 16 (leNat ((q.2.drop 2).take 2)), leNat ((q.2.drop 4).take 2))
      | none => v.sib k
    let r := v.searchBlock (lamOf i) now (salvOf i) trans (modeOf i) (acc.1.map (fun q => q.ch)) sib i
    (acc.1 ++ [r], match r.sib with
      | some q => SMap.ins q.1 q.2 acc.2
      | none => acc.2)) ([], [])).1

/-! ### Coding blocks as coded -/

/-- A coding block as coded: its mode, and for inter the reference, the vector, and whether without residual. -/
structure FinBlk where
  blk : CodBlk
  inter : Option (Nat × (Int × Int) × Bool)
  exact : Bool
  deriving DecidableEq, Repr

/-- A coding block held to the rules: salvaged blocks are zero-vector skip where R248 allows it, or DC with the stripe; an inter block
has an allowed vector; every other mode is allowed or falls back to DC (R235 to R256). -/
def EncView.finish (v : EncView) (raw : Pic) (tol : Nat) (lam : Nat) (salv : Bool) (res : List BlkRes) (before : List CodBlk) (b : CodBlk) : FinBlk :=
  let at_ := fun (k : Nat) => res[b.y / 16 * v.bw + b.x / 16 + k / max 1 (b.size / 16) * v.bw + k % max 1 (b.size / 16)]?
  let as_ := fun (m : CodMode) => ({ blk := { b with mode := m, act := b.act && v.actOk m }, inter := none, exact := false } : FinBlk)
  let asInter := fun (n : Nat) (m : Int × Int) (skip exact : Bool) =>
    ({ blk := { b with mode := .inter n 0 skip, act := false }, inter := some (n, m, skip), exact } : FinBlk)
  let lo := if v.vert then b.y else b.x
  let stripe := decide (lo < v.stripe.2) && decide (v.stripe.1 < lo + b.size)
  let other := fun (m : CodMode) => as_ (v.intraMode b.x b.y b.size m)
  if salv then
    match v.refs with
    | r :: _ => if !stripe && v.allowed r b.x b.y b.size (0, 0) then asInter 0 (0, 0) true false else as_ .dc
    | [] => as_ .dc
  else
    match at_ 0, v.refs[0]? with
    | some { trans := true, ch := { mv := some m, .. }, .. }, some _ => asInter 0 m true false
    | _, _ =>
      match b.mode with
      | .palette => if v.paletteOk b.x b.y b.size tol then as_ .palette else other .dc
      | .copy dx dy => if v.copyOk raw before b.x b.y b.size (dx, dy) then as_ (.copy dx dy) else other .dc
      | .inter n k skip =>
        match v.refs[n]?, at_ k with
        | some r, some q =>
          match q.ch.mv with
          | some m =>
            let near := ((v.neighbours (res.map (fun q => q.ch)) (b.y / 16 * v.bw + b.x / 16)).filterMap id).filter (v.allowed r b.x b.y 8)
            let m := if b.size = 8 ∧ 4 ≤ v.effort ∧ !q.exact then
                ((v.searchFrom r b.x b.y 8 lam (Config.mvPredictor v.codec (near.map some)) ((q.ch.cls, m) :: near.map (fun z => (3, z)))).map
                  (fun z => z.2)).getD m
              else m
            match v.clampMv r b.x b.y b.size m with
            | some m => asInter n m skip q.exact
            | none => other .dc
          | none => other .dc
        | _, _ => other .dc
      | m => other m

/-- The coding blocks of a picture in coding order. -/
def EncView.finishAll (v : EncView) (raw : Pic) (tolOf lamOf : Nat → Nat → Nat) (salvOf : Nat → Nat → Bool) (res : List BlkRes)
    (blocks : List CodBlk) : List FinBlk :=
  ((blocks.filter (fun b => v.sizeAllowed b.size)).foldl (fun (acc : List FinBlk × List CodBlk) b =>
    let f := v.finish raw (tolOf b.x b.y) (lamOf b.x b.y) (salvOf b.x b.y) res acc.2 b
    (acc.1 ++ [f], acc.2 ++ [b])) ([], [])).1

/-- The motion record of a 16 × 16 block: that of the coding block over its first sample (R229). -/
def EncView.mvRec (v : EncView) (l : List FinBlk) (i : Nat) : MvRec :=
  match l.find? (fun f => inBlk f.blk (i % max 1 v.bw * 16) (i / max 1 v.bw * 16)) with
  | some { inter := some (n, m, skip), .. } =>
    { MvRec.intra with x := m.1, y := m.2, cls := if skip then 2 else 1
                       dist := match v.refs[n]? with
                         | some r => v.src - r.ref.tide
                         | none => 0 }
  | _ => MvRec.intra

/-- The encode statistics of R263 for the parts of a picture that a test on places picks out, in the order of `encStats`. -/
def EncView.counts (v : EncView) (res : List BlkRes) (fin : List FinBlk) (mine : Nat → Nat → Bool) : List Nat :=
  let r := (res.zipIdx.filter (fun q => mine (q.2 % max 1 v.bw * 16) (q.2 / max 1 v.bw * 16))).map (fun q => q.1)
  let f := fin.filter (fun q => mine q.blk.x q.blk.y)
  let cls := fun (k : Nat) => (r.filter (fun q => q.ch.mv.isSome && q.ch.cls = k)).length
  let stripes := ((List.range (cdiv v.pic.w 8 * cdiv v.pic.h 8)).filter (fun i =>
    let x := i % max 1 (cdiv v.pic.w 8) * 8
    let y := i / max 1 (cdiv v.pic.w 8) * 8
    let p := if v.vert then y else x
    mine x y && decide (p < v.stripe.2) && decide (v.stripe.1 < p + 8))).length
  [cls 1, cls 2, cls 3, cls 4, (f.filter (fun q => q.exact)).length, (f.filter (fun q => q.blk.mode == .palette)).length,
    (f.filter (fun q => match q.blk.mode with
      | .copy _ _ => true
      | _ => false)).length, stripes, (r.map (fun q => q.clamps)).foldl (· + ·) 0, (r.filter (fun q => q.sib.isSome)).length]

/-! ### Coding a picture -/

/-- The quay’s entry list of an encode picture: its regions in order (R257). -/
def State.encRuns (s : State) (c t : Nat) (l : List (Nat × Nat × Nat × Nat)) : List QRun :=
  let rows := s.rowList c
  let n := max 1 (s.leafList t).length
  l.map (fun g =>
    let r := rows.getD g.1 ((0, 0, 0, 0), 0)
    let m := ((s.placed c).findIdx? (fun p => p = r.1)).getD 0
    { leaf := m % n, seg := m, member := m, row := r.2, stop := g.2.1, n := 0, todo := g.2.2.2, read := 0 })

/-- An ENCODE begins its picture: limits, rows, search and mode decision, reconstruction, and the entries its tally will read (R220 to
R283). -/
def State.encBegin (o : EncOut) (u : Nat) (j : Job) (bs rc hs : Nat) (s : State) : State :=
  let c := j.ctx
  let x := s.enc c
  let src := s.srcTide j
  let eff := match x.outEffort with
    | some e => min e (j.effort % 8)
    | none => j.effort % 8
  let gov := 8 ≤ j.effort
  let ef := effortFactor eff
  let pp := s.picPlan c eff
  let p := pp.pos
  let hdr := pp.hdr
  let v := s.encView c (s.encSource j) eff p src
  let order := s.sf c 180 4
  let since := if p.intra then 0 else order - x.intraAt
  let rl := s.rowList c
  let t := match x.outTarget with
    | some g => min (max g (hdr + pp.phi)) pp.h
    | none => pp.t
  let part := fun (i col : Nat) =>
    let r := rl.getD i ((0, 0, 0, 0), 0)
    let k := col * 64 / rowLines (s.codec c)
    if k = 0 then pp.floors.getD i 0 else s.rowFloor c p.step p.intra v.whole r.1.1 r.1.2.1 r.1.2.2.1 r.2 k
  let w := (List.range rl.length).foldl (s.codeRow c t pp.h hdr ef o pp.samples pp.floors part)
    { prev := none, used := hdr, cut := if pp.h ≤ hdr + pp.phi then some (0, 0) else none, scales := [], bits := [], rows := 0, rewinds := 0
      regions := [] }
  let salv := w.cut.isSome
  -- λ and the palette tolerance of a row (R278)
  let deep := if s.depth10 c then 4 else 1
  let lamAt := fun (px py : Nat) => 3 * w.scales.getD (s.rowIndex c px py) 0 * deep * x.outLambda / 2560
  let tolAt := fun (px py : Nat) => w.scales.getD (s.rowIndex c px py) 0 / (2 * two24) * deep
  let salvAt := fun (px py : Nat) => match w.cut with
    | some k =>
      let i := s.rowIndex c px py
      let r := rl.getD i ((0, 0, 0, 0), 0)
      decide (k.1 < i) || (i = k.1 && decide (k.2 ≤ (px - r.1.1) / 64))
    | none => false
  let place := fun (i : Nat) => (i % max 1 v.bw * 16, i / max 1 v.bw * 16)
  let modeAt := fun (i : Nat) => match o.blocks.find? (fun b => inBlk b (place i).1 (place i).2) with
    | some b => b.mode
    | none => .dc
  let res := v.searchAll (fun i => lamAt (place i).1 (place i).2) s.tideNum (fun i => salvAt (place i).1 (place i).2) modeAt
  let raw := Pic.ofPlanes (s.ctxW c) (s.ctxH c) (s.ctxFormat c) 0 o.raw
  let rec_ := Pic.ofPlanes (s.ctxW c) (s.ctxH c) (s.ctxFormat c) 0 o.planes
  let fin := v.finishAll raw tolAt lamAt salvAt res o.blocks
  -- model of R274 over the rows coded before salvage
  let obs := fun (k : Nat) => observed ((w.scales.zipIdx).map (fun q => ((w.bits.getD q.2 []).getD k 0, q.1, (pp.samples.getD q.2 []).getD k 0))) ef
  let model := (List.range 3).map (fun k => match obs k with
    | some g => classUpdate k (s.pf c (16 + 8 * k) 5) g salv
    | none => s.pf c (16 + 8 * k) 5)
  let empty := decide ((s.stripeSpan c p.step).2 ≤ (s.stripeSpan c p.step).1)
  let d := if p.begins then 0 else s.sf c 138 1
  let defer := salv && !empty && decide (d < s.sf c 32 1 % 16)
  let ends := !defer && decide (p.step + 1 = s.period c)
  let flags := b2n p.begins + b2n ends * 2 + b2n p.intra * 4 + b2n defer * 16 + b2n p.forced * 32
  let tail := unitsBytes (s.codec c) (s.tailUnits c rec_)
  let inters := (res.filter (fun q => q.ch.mv.isSome)).length
  let pic : EncPic := {
    seq := j.seq, status := if salv then 2 else 0, bits := bs, coded := w.used, tide := src, flags, effort := eff + 8 * b2n gov
    qp := o.qpMean % 256, order, step := p.step, pic := p.pic, defers := d + b2n defer, begins := p.begins, intra := p.intra
    sweepId := v.sweep, recon := rc, hash := hs, model, whole := v.whole, head := pp.head, tail
    elems := s.sliceElems c since p.intra v.forced v.highMv, inters, exacts := (res.filter (fun q => q.exact)).length
    qLast := w.prev.getD 0, rows := w.rows
    shareBits := (List.range (s.placed c).length).map (fun m =>
      ((w.regions.filter (fun g => some m = (s.placed c).findIdx? (fun q => q = (rl.getD g.1 ((0, 0, 0, 0), 0)).1))).map
        (fun g => g.2.2.1)).foldl (· + ·) 0)
    done := false }
  let s := s.setEnc c { x with cur := some pic, dropped := none, outTarget := none, outEffort := none, outLambda := 256, outQ := [] }
  -- reconstruction: a picture buffer of R189, with its motion data and row context
  let size := if j.s2 ≠ 0 then picBytes (s.ctxW c) (s.ctxH c) (s.chroma c) (s.depth10 c) else s.poolSize (s.sf c 22 2)
  let side := planeOfs (s.chroma c) (s.ctxW c) (s.ctxH c) (s.depth10 c) 3
  let mot := (List.range v.blocks).flatMap (fun i => (v.mvRec fin i).bytes)
  let s := (s.writeMem u rc (picRecord c pic.status 0 src 2 0 (s.ctxW c) (s.ctxH c) (s.ctxFormat c) order 0 [])).2.storePic u rc size rec_
  let s := (s.writeMem u (rc + side) mot).2
  let s := (s.writeMem u (rc + side + mot.length) (o.context.take 65536)).2
  -- the hash table of the picture (R238)
  let k := bucketBits (s.poolSize (s.sf c 42 2))
  let s := s.whenB (hs ≠ 0) (fun s => (s.writeMem u hs (hashBytes (hashTable raw k) k)).2)
  let s := s.each (res.filterMap (fun q => q.sib)) (fun q s => (s.writeMem u (s.sf c 48 5 + 16 * q.1) q.2).2)
  let pl := s.pilotOf c
  let s := (s.bump (ucb pl Reg.PL_PICS_LAST) 1).bump (ucb pl Reg.PL_REWINDS_LAST) w.rewinds
  let s := ((s.whenB salv (State.bump (ucb pl Reg.PL_SALVAGED_LAST) 1)).whenB defer (State.bump (ucb pl Reg.PL_DEFERRED_LAST) 1)).whenB
    gov (State.bump (ucb pl Reg.PL_GOVERNED_LAST) 1)
  let s := s.bump (ucb pl Reg.PL_CYCLES_LAST) (s.pilotCycles c)
  let s := s.each (List.range (s.placed c).length) (fun m s =>
    let s := s.leafBumpAt u m Reg.GT_ENC_PICS_LAST 1
    let s := s.leafWrAt u m Reg.GT_ENC_STATUS (c % 4096 + eff % 8 * 4096 + b2n salv * 32768)
    s.each (encStats.zip (v.counts res fin (fun px py => s.memberAt c px py = m))) (fun q s => s.leafBumpAt u m q.1 q.2))
  s.quayAdd (s.tlBerth c) { ctx := c, seq := j.seq, runs := s.encRuns c (s.tlBerth c) w.regions, eop := 2, eopLeaf := 0, found := Found.reset
                            pic := none }

/-! ### Commits (R257 to R259, R280) -/

/-- The units of a job whose picture a context’s sequence field names. -/
def State.jobOf (s : State) (u op c seq : Nat) : Option Job :=
  match s.jobAt u op with
  | some j => if j.ctx = c ∧ j.seq = seq then some j else none
  | none => none

/-- The last region is committed: the ENCODE completes (R224). A fence of the gantry or of the tally shows as RERUN (R260, R261). -/
def State.encDone (c : Nat) (p : EncPic) (s : State) : State :=
  let g := s.gtBerth c
  match s.jobOf g 0x0201 c p.seq with
  | some j =>
    let again := j.rerun || ((s.jobOf (s.tlBerth c) 0x0202 c p.seq).map (fun k => k.rerun)).getD false
    let p := { p with done := true, status := if p.status = 0 && again then 0x31 else p.status, flags := p.flags + b2n again * 8 }
    let s := s.setEnc c { s.enc c with cur := some p }
    let s := s.wrM (p.recon + 6) 1 p.status
    ((s.doneComposed g j).setJob g { j with b2 := p.effort, b3 := p.flags, bufs := [] }).endJob g p.status
  | none => s

/-- The gantry writes on, at most 4 regions ahead of the tally’s last commit, and commits each region whose entries are all in the quay
(R257, R280); the ENCODE ends with its last region. -/
def State.encWrite (c seq : Nat) (s : State) : State :=
  let t := s.tlBerth c
  match s.quayFind t c seq, (s.enc c).cur with
  | some x, some p =>
    let y := s.quayFill t { x with runs := x.runs.take 4 }
    let now := (x.runs.zip y.runs).filterMap (fun q => if q.1.todo ≠ 0 ∧ q.2.todo = 0 then some q.2 else none)
    let s := s.quayPut t { x with runs := y.runs ++ x.runs.drop 4 }
    let g := s.gtBerth c
    let s := s.each now (fun r s =>
      let s := s.leafWrAt g r.member Reg.GT_ENC_COMMIT_POS (r.row % 65536 + r.stop % 65536 * 65536)
      match (s.leafList g)[r.member]? with
      | some m => s.wrFld (ucb m Reg.GT_ENC_STATUS) 31 16 (r.row % 65536)
      | none => s)
    if (y.runs ++ x.runs.drop 4).all (fun r => r.todo = 0) && !p.done then s.encDone c p else s
  | _, _ => s

/-- One turn: the gantry writes on, the tally commits the regions published, which frees their entries (R258). -/
def State.encTurn (c seq : Nat) (s : State) : State × Bool :=
  let s := s.encWrite c seq
  match s.quayFind (s.tlBerth c) c seq with
  | some x => (s.quayPut (s.tlBerth c) { x with runs := x.runs.filter (fun r => r.todo != 0) }, x.runs.any (fun r => r.todo = 0))
  | none => (s, false)

/-- Gantry and tally go on in turn while a region is committed. -/
def State.encRun (c seq : Nat) : Nat → State → State
  | 0, s => s
  | n + 1, s =>
    let r := s.encTurn c seq
    if r.2 then State.encRun c seq n r.1 else r.1

/-- ENCODE: a picture begun is written on. One is begun when the quay of its tally is not ABOVE_HIGH and the picture before has been
entropy coded (R220, R259, R280). One whose ENTROPY_ENCODE found its ring full is dropped (R657). -/
def State.encodePic (o : EncOut) (u : Nat) (j : Job) (s : State) : State :=
  let c := j.ctx
  if j.s0 = 0 then s.dropEnc u 0x21 [] j
  else if (s.enc c).orphans.contains j.seq then (s.doneComposed u j).dropEnc u 0x30 [] j
  else
    match (s.enc c).cur with
    | some p => if p.seq = j.seq then s.encWrite c j.seq else s
    | none =>
      if s.quayHigh (s.tlBerth c) then s
      else
        match s.encBuffers u j with
        | (none, s) => (s.doneComposed u j).dropEnc u 0x22 [] j
        | (some (bs, rc, hs, _), s) => ((s.tagPicture true o.tags j).encBegin o u j bs rc hs).encWrite c j.seq

/-- An encode picture is dropped after its ENCODE began: nothing is sent, kept or advanced (R224). -/
def State.dropPic (c st : Nat) (p : EncPic) (s : State) : State :=
  let g := s.gtBerth c
  let s := (s.quayDrop (s.tlBerth c) c p.seq).freeBufs g ([p.bits, p.recon] ++ (if p.hash = 0 then [] else [p.hash]))
  (s.incSf c 172).setEnc c { s.enc c with cur := none, dropped := some (p.seq, st) }

/-- REF_TABLE takes a reconstruction; the oldest beyond the reference count leaves, its buffers freed (R173, R227). -/
def State.keepRecon (c : Nat) (p : EncPic) (s : State) : State :=
  let g := s.gtBerth c
  let r : EncRef := { recon := p.recon, hash := p.hash, tide := p.tide, step := p.step, sweep := p.sweepId, whole := p.whole }
  let old := (s.enc c).refs
  let keep := if p.intra then [r] else (r :: old).take (s.refCountOf c)
  let gone := old.filter (fun e => !keep.contains e)
  let s := s.freeBufs g (gone.flatMap (fun e => [e.recon] ++ (if e.hash = 0 then [] else [e.hash])))
  let s := s.each (List.range 4) (fun i s => s.setSf c (192 + 8 * i) 8 (match keep[i]? with
    | some e => e.recon % two40 + 2 ^ 63
    | none => 0))
  s.setEnc c { s.enc c with refs := keep, lastInter := p.inters, lastExact := p.exacts
                            intraAt := if p.intra then p.order else (s.enc c).intraAt }

/-- The header of a bitstream buffer (R222). -/
def bitHeader (c : Nat) (p : EncPic) (len : Nat) : List Nat :=
  [0x45, 0x42, 0x49, 0x54] ++ leBytes 2 c ++ [p.status % 256, p.flags % 256] ++ leBytes 6 p.tide ++ [0, 0] ++ leBytes 4 len
    ++ [p.effort % 256, p.qp % 256, 0, 0] ++ leBytes 4 p.order ++ leBytes 2 p.step ++ leBytes 2 p.pic ++ List.replicate 32 0

/-- A buffer passes to a new owner, as the harbourmaster hands it over with a post (R490). -/
def State.handOver (a owner : Nat) (s : State) : State :=
  match s.poolOf a with
  | some p => s.transfer (s.ownerOf (s.globalIndex p a)) a owner
  | none => s

/-- The coded bytes of a picture: the units before its slices, its slices or tiles, the units after, and filler (R176 to R181, R222,
R271). -/
def codedBytes (codec fill : Nat) (p : EncPic) (payload : List Nat) : List Nat :=
  let body := cdiv p.coded 8 - p.head.length - p.tail.length
  let slices := Config.sliceBytes codec p.elems payload
  p.head ++ (List.range body).map (fun i => slices.getD i 0 % 256) ++ p.tail ++ fillerBytes codec fill

/-- The state record of the rate controller at the last tally commit, and its model (R285). -/
def State.pilotRecord (c fill : Nat) (p : EncPic) (s : State) : State :=
  let salv := p.status = 2
  let s := ((s.setPf c 40 8 (p.coded % two40)).setPf c 48 1 (unsigned 8 p.qLast)).setPf c 50 2 (p.rows % 65536)
  let s := (s.setPf c 49 1 (putBits (putBits (s.pf c 49 1) 1 1 (b2n salv)) 2 2 (b2n salv))).afterSent c (p.coded + fill)
  s.each (p.model.zipIdx) (fun q s => s.setPf c (16 + 8 * q.2) 8 (max 1 q.1))

/-- The context’s account of its last picture, and its counts (R217, R223, R253). -/
def State.countSent (c len : Nat) (p : EncPic) (s : State) : State :=
  let s := (((s.setSf c 128 6 p.tide).setSf c 134 2 p.step).setSf c 136 2 p.pic).setSf c 138 1 p.defers
  let s := ((s.setSf c 139 1 p.effort).setSf c 176 4 len).whenB p.begins (State.setSf c 140 6 p.tide)
  let s := (((s.incSf c 148).incSf c 180).whenB (p.status = 2) (State.incSf c 152)).whenB (p.flags.testBit 1) (State.incSf c 156)
  (s.whenB (p.flags.testBit 5) (State.incSf c 160)).whenB p.intra (State.incSf c 164)

/-- The sweep moves on past a sent picture; a refresh asked for is met by a sweep begun after it (R247 to R253). -/
def EncSt.sent (y : EncSt) (p : EncPic) : EncSt :=
  let ends := p.flags.testBit 1
  let open_ := match y.request with
    | some t => decide (p.tide ≤ t) || !p.begins
    | none => false
  { y with
    cur := none, sweeps := ((p.tide, p.sweepId) :: y.sweeps).take 8, intraNext := if p.intra then false else y.intraNext, sweeping := !ends
    sweepIntra := if p.begins then p.intra else y.sweepIntra
    sweepIdx := if p.begins then y.sweepIdx + 1 else y.sweepIdx
    nextStep := if p.flags.testBit 4 then p.step else p.step + 1, nextPic := p.pic + 1
    request := if open_ then y.request else none
    sinceForced := if p.flags.testBit 5 then some 1 else y.sinceForced.map (· + 1) }

/-- The bitstream buffer goes to the picture’s flow as a TRANSMIT, or to the host’s delivery queue (R222, R344, R380). -/
def State.passOn (u : Nat) (j : Job) (p : EncPic) (len : Nat) (s : State) : State :=
  let c := j.ctx
  let f := s.outFlow c
  if f = 0xFFFF then (s.handOver p.bits hostAgent).deliver (s.fld Reg.HM_DELIVER_Q 19 0) 2 c len p.bits p.tide
  else
    let r := s.post (s.ff f 20 4 % 1048576) (descBytes 0x0401 0 c j.seq p.tide 0 p.bits 0 0 0) []
    -- a TRANSMIT that cannot be posted is counted in DROPS, its buffer freed (R657)
    if r.1 then r.2.2.handOver p.bits (s.flowEngine f) else (r.2.2.giveBack u p.bits).incSf c 172

/-- The coded bytes and header are in the bitstream buffer: the picture counts as sent, the sweep and the receiver buffer move on, and the
picture goes to its flow or to the host (R222, R224, R247, R271, R344, R380). -/
def State.encSent (payload : List Nat) (u : Nat) (j : Job) (p : EncPic) (s : State) : State :=
  let c := j.ctx
  let p := { p with flags := p.flags + b2n (j.rerun && !p.flags.testBit 3) * 8 }
  let fill := s.filler c p.coded (s.arrive c).1
  let data := codedBytes (s.codec c) (fill / 8) p payload
  let len := cdiv p.coded 8 + fill / 8
  let s := s.quayDrop u c j.seq
  let n := max 1 (s.leafList u).length
  let s := s.each p.shareBits.zipIdx (fun q s => s.symbolsAt u c (q.2 % n) (q.1 * s.fld Reg.HM_TL_ENC_BINS 15 0 / 256))
  let s := ((s.writeMem u p.bits (bitHeader c p len)).2.writeMem u (p.bits + 64) (data.take len)).2
  let s := ((s.pilotRecord c fill p).keepRecon c p).countSent c len p
  let s := (s.setEnc c ((s.enc c).sent p)).passOn u j p len
  let s := s.setJob u { j with b2 := p.effort, b3 := p.flags }
  -- the window’s picture end follows the completion record and the model (R288)
  (s.endJob u p.status).windowAsk c 3 0

/-- ENTROPY_ENCODE: the tally commits what the gantry publishes; when all is committed and the ENCODE has completed, the picture is sent.
It completes with the status of its ENCODE (R224, R257, R258). -/
def State.entropyEncode (payload : List Nat) (u : Nat) (j : Job) (s : State) : State :=
  let c := j.ctx
  match (s.enc c).cur with
  | none =>
    match (s.enc c).dropped with
    | some (q, st) => if q = j.seq then s.endJob u st else s
    | none => s
  | some p =>
    if p.seq ≠ j.seq then
      match (s.enc c).dropped with
      | some (q, st) => if q = j.seq then s.endJob u st else s
      | none => s
    else
      let n := match s.quayFind u c j.seq with
        | some x => x.runs.length + 1
        | none => 1
      let s := s.encRun c j.seq n
      match (s.enc c).cur, s.quayFind u c j.seq with
      | some p, some x => if p.done && x.runs.isEmpty then s.encSent payload u j p else s
      | _, _ => s

/-- The picture of an ENCODE or ENTROPY_ENCODE job is dropped with a status, when it had begun; answers whether it had. -/
def State.dropCur (st : Nat) (j : Job) (s : State) : Bool × State :=
  match (s.enc j.ctx).cur with
  | some p => if p.seq = j.seq then (true, s.dropPic j.ctx st p) else (false, s)
  | none => (false, s)

/-- An ENCODE or ENTROPY_ENCODE still running at a tide start: the picture is dropped (R132, R224). A stop marked on it comes first. -/
def State.lateEnc (u : Nat) (s : State) : State :=
  match (s.unit u).job with
  | some j =>
    if j.op = 0x0201 then
      let r := s.dropCur 0x30 j
      if r.1 then ((r.2.doneComposed u j).setJob u { j with bufs := [] }).endJob u 0x30 else (s.doneComposed u j).dropEnc u 0x30 j.bufs j
    else if j.op = 0x0202 then (s.dropCur 0x30 j).2.endJob u 0x30
    else s
  | none => s

/-- An encode job that a HALT stopped: the picture is abandoned (R224, R262). -/
def State.haltEnc (u st : Nat) (s : State) : State :=
  match (s.unit u).job with
  | some j =>
    let r := s.dropCur st j
    let s := if j.op = 0x0201 then (if r.1 then r.2 else s.incSf j.ctx 172).giveBack u (j.s0 % two40) else if j.op = 0x0202 then r.2 else s
    s.abandonJob u st
  | none => s

/-- Run an encode picture job: a stop marked on it abandons the picture first. -/
def State.runEnc (u op : Nat) (f : Job → State → State) (s : State) : State :=
  match s.jobAt u op with
  | none => s
  | some j =>
    match j.stopWith with
    | some st => s.haltEnc u st
    | none => s.runJob u op true f

/-! ### Meanings -/

/-- ENCODE at a gantry berth (R220). -/
def execEncode (unit : Nat) (out : EncOut) (s : State) : Host.Outcome State Fault Refusal :=
  .next (s.runEnc unit 0x0201 (fun j s => s.encodePic out unit j))
/-- ENTROPY_ENCODE at a tally berth (R220). -/
def execEntropyEncode (unit : Nat) (data : List Nat) (s : State) : Host.Outcome State Fault Refusal :=
  .next (s.runEnc unit 0x0202 (fun j s => s.entropyEncode data unit j))
/-- START of an encode context (R219). -/
def execEncodeStart (unit : Nat) (s : State) : Host.Outcome State Fault Refusal :=
  .next (s.runJob unit 0x0203 false (fun j s => s.encStart unit j))
/-- STOP of an encode context (R262). -/
def execEncodeStop (unit : Nat) (s : State) : Host.Outcome State Fault Refusal :=
  .next (s.runJob unit 0x0204 false (fun j s => s.streamStopJob unit j))
/-- READ_STATUS of an encode context (R220). -/
def execEncodeReadStatus (unit : Nat) (s : State) : Host.Outcome State Fault Refusal :=
  .next (s.runJob unit 0x0205 false (fun j s => s.readStatus unit 128 false j))
/-- FORCE_SWEEP (R255). -/
def execForceSweep (unit : Nat) (s : State) : Host.Outcome State Fault Refusal :=
  .next (s.runJob unit 0x0206 true (fun j s => s.forceSweep unit j))
/-- RESTART (R252). -/
def execRestart (unit : Nat) (s : State) : Host.Outcome State Fault Refusal :=
  .next (s.runJob unit 0x0207 true (fun j s => s.restartJob unit j))

end Sys2Proof.Machine
end

