-- ==== Sys2Proof/Machine/Compose.lean ====
section
/-! DEFINITION. Composition and display outputs (08_composition.md: R293 to R327): layout flips, COMPOSE jobs, storm
signals, the safe slate, frames, and links. -/

namespace Sys2Proof.Machine

/-! ### Layouts (R296 to R299) -/

/-- A scale DST/SRC outside 1/8 to 8; a source size of 0 is the whole source and passes. -/
def scaleBad (dst src : Nat) : Bool := src != 0 && (decide (8 * src < dst) || decide (8 * dst < src))

/-- Reserved values of a layer entry (R294). -/
def State.layerBad (s : State) (a i : Nat) : Bool :=
  let ty := s.layerF a i 0 1
  let fl := s.layerF a i 1 1
  decide (5 < ty) || decide (64 ≤ fl) || bits fl 1 0 = 3 || bits fl 3 2 = 3 || decide (1 < s.layerF a i 3 1)
    || s.layerF a i 23 1 != 0 || (ty = 3 && (decide (1 < s.layerF a i 22 1) || s.layerF a i 24 4 % 256 != 0))
    || decide (1073741824 ≤ s.layerF a i 28 4)

/-- The first failing check of R296 of a layout copy: 1 size, 2 LAYERS, 3 reserved value, 4 scale, 5 LANE, 6 STORM_BASE;
0 when all pass. -/
def State.layoutCheck (s : State) (a : Nat) : Nat :=
  let w := s.lf a 0 2
  let h := s.lf a 2 2
  let n := s.lf a 6 1
  let f := s.lf a 4 2
  let sizeBad := fun (v : Nat) => decide (v < 64) || decide (8192 < v) || v % 2 != 0
  let ls := List.range (min n 16)
  if sizeBad w || sizeBad h then 1
  else if 16 < n then 2
  else if decide (4 < bits f 3 0) || decide (3 < bits f 9 7) || decide (2048 ≤ f) || decide (1 < s.lf a 7 1)
      || decide (1073741824 ≤ s.lf a 8 4) || ls.any (s.layerBad a) then 3
  else if ls.any (fun i => s.layerF a i 0 1 != 0 && (scaleBad (s.layerF a i 8 2) (s.layerF a i 16 2)
      || scaleBad (s.layerF a i 10 2) (s.layerF a i 18 2))) then 4
  else if s.leafOf (s.lf a 14 2 % 4096) != some .lane then 5
  else if s.lf a 12 2 ≠ 0xFFFF ∧ 1023 < s.lf a 12 2 + 15 then 6
  else 0

/-- Flips pending now, and those that became pending in this tide (R298, R325). -/
def State.flipsPending (s : State) : Nat := (s.layouts.filter (fun p => p.2.pend.isSome)).length
def State.flipsFresh (s : State) : Nat := (s.layouts.filter (fun p => p.2.pend.isSome && p.2.fresh)).length

/-- The tide from which a change made now applies: T + 2 + L with T the next tide start (R297). -/
def State.effFrom (s : State) : Nat := s.tideNum + 1 + 2 + s.presentL

/-- A flip of layout n: answers whether it was accepted (R297, R298). -/
def State.layoutFlip (agent n : Nat) (s : State) : Bool × State :=
  let o := Reg.CMP_LAYOUT_FLIP
  let x := s.layoutSt n
  if x.pend.isSome || decide (64 ≤ s.flipsFresh) then (false, s.usageReg agent o)
  else
    let e := s.layoutCheck (s.layoutAddr n (1 - x.copy))
    if e ≠ 0 then (false, (s.setLayout n { x with err := e }).usageReg agent o)
    else (true, s.setLayout n { x with pend := some s.effFrom, pEff := s.effFrom, err := 0, fresh := true })

/-- At the start of tide t: flips whose P_eff − 1 has come are over, and the new copy is the one in force (R298). -/
def State.flipsDone (t : Nat) (s : State) : State :=
  s.each s.layouts (fun p s =>
    let x := s.layoutSt p.1
    match x.pend with
    | some e =>
      if e ≤ t + 1 then s.setLayout p.1 { x with copy := 1 - x.copy, pend := none, started := e, fresh := false }
      else s.setLayout p.1 { x with fresh := false }
    | none => s)

def State.viewLayoutInfo (s : State) : Nat :=
  let x := s.layoutSt (s.fld Reg.CMP_LAYOUT_QUERY 9 0)
  x.copy + b2n x.pend.isSome * 2 + x.err * 16

/-! ### Storm signals (R314 to R317, R359) -/

/-- A free text slot. -/
def State.stormSlot (s : State) : Nat := ((List.range 8).find? (fun k => !(s.storms.any (fun x => x.slot = k)))).getD 0

/-- A storm signal with all its text is accepted (R315): status, tide of effect. -/
def State.stormAccept (id level slate e : Nat) (text : List Nat) (s : State) : Nat × Nat × State :=
  let first := s.tideNum + 3 + s.presentL
  let late := decide (e < first)
  let at_ := if late then first else e
  let st := if late then 0x0A else 0
  let n : StormSet := { level, slate, at_ }
  let held := s.storms.find? (fun x => x.id = id)
  let put := fun (k : Nat) (s : State) =>
    if text = [] then s else (s.writeMem agentCc0 (s.rd40 Reg.CMP_STORM_TEXT_BASE_LO + 65536 * k) text).2
  match held with
  | some x =>
    let s := { s with storms := List.map (fun (y : Storm) => if y.id = id then { y with pend := some n } else y) s.storms }
    (st, at_, put x.slot { s with stormLate := s.stormLate || late })
  | none =>
    if 8 ≤ s.storms.length then (9, 0, s)
    else
      let k := s.stormSlot
      let s := { s with storms := s.storms ++ [{ id, act := none, pend := some n, slot := k }], stormLate := s.stormLate || late }
      (st, at_, put k s)

/-- At the start of tide t: settings that hold for every composition from now on take the place of the old, and an ID
cleared is held no more (R315, R317). -/
def State.stormsDone (t : Nat) (s : State) : State :=
  let l := s.storms.map (fun x =>
    match x.pend with
    | some n => if n.at_ ≤ t + 1 then { x with act := some n, pend := none } else x
    | none => x)
  { s with storms := l.filter (fun x => !(x.pend.isNone && (match x.act with
    | some n => n.level = 0
    | none => true))) }

/-- Fields of a STORM body other than the text (R359). -/
def stormFields (b : List Nat) : Nat × Nat × Nat × Nat × Nat :=
  (bodyN b 0 2, byteAt b 2, byteAt b 3, bodyN b 4 6, bodyN b 12 4)

/-- A STORM body that cannot be served: lengths, ranges and reserved bytes (R314, R359). -/
def stormBad (b : List Nat) : Bool :=
  let f := stormFields b
  decide (b.length < 20) || decide (1400 < b.length) || f.1 = 0 || decide (7 < f.2.1) || decide (15 < f.2.2.1)
    || bodyN b 10 2 != 0 || decide (65536 < f.2.2.2.2) || decide (f.2.2.2.2 < bodyN b 16 4 + (b.length - 20))

/-- Bytes 0 to n − 1 are all held. -/
def fragsWhole (m : SMap Nat) (n : Nat) : Bool := decide (n ≤ m.length) && (List.range n).all (fun i => m.any (fun p => p.1 = i))

/-- A storm signal message: its fragment is collected, and the signal accepted once its text is whole (R359). Answers the
status, the response body, whether it was accepted, and the state. -/
def State.stormMsg (b : List Nat) (s : State) : Nat × List Nat × Bool × State :=
  if stormBad b then (stBadRequest, [], false, s)
  else
    let f := stormFields b
    let ofs := bodyN b 16 4
    let text := b.drop 20
    let same := fun (x : StormFrag) => x.id = f.1 && x.level = f.2.1 && x.slate = f.2.2.1 && x.tide = f.2.2.2.1 && x.len = f.2.2.2.2
    let old := s.stormText.find? (fun x => same x)
    let base : StormFrag := old.getD { id := f.1, level := f.2.1, slate := f.2.2.1, tide := f.2.2.2.1, len := f.2.2.2.2, bytes := [], since := s.tideNum }
    let fr := { base with bytes := text.zipIdx.foldl (fun m p => SMap.ins (ofs + p.2) (p.1 % 256) m) base.bytes }
    let rest := s.stormText.filter (fun x => x.id != f.1)
    if fragsWhole fr.bytes fr.len then
      let s := { s with stormText := rest }
      let r : Nat × Nat × State := s.stormAccept f.1 f.2.1 f.2.2.1 f.2.2.2.1 ((List.range fr.len).map (fun i => SMap.get (fun _ => 0) fr.bytes i))
      (r.1, if r.1 = 0x0A then leBytes 6 r.2.1 else [], r.1 != 9, r.2.2)
    else (stOk, [], false, { s with stormText := rest ++ [fr] })

/-- STORM_FRAGMENT_EXPIRY: fragments held for 64 tides are discarded (R359). -/
def State.fragExpiry (id : Nat) (s : State) : State :=
  { s with stormText := s.stormText.filter (fun x => !(x.id = id && decide (x.since + 64 ≤ s.tideNum))) }

def State.viewStorm (s : State) : Nat :=
  (match s.stormFor (s.tideNum + 1) with
    | some (x, n) => x.id % 65536 + n.level * 65536 + n.slate * 2 ^ 20
    | none => 0) + s.storms.length * 2 ^ 24 + b2n s.stormLate * 2 ^ 28
def State.viewStormE (s : State) : Nat :=
  match s.stormFor (s.tideNum + 1) with
  | some (_, n) => n.at_
  | none => 0

/-! ### COMPOSE jobs (R300 to R316) -/

/-- Show the stream layers of a layout copy: a share taken and released for each picture, LAST_DISPLAYED kept; the picture of t that is
LATE is counted once, sets LATE and is never shown (R129, R182, R191). -/
def State.showLayers (u a t : Nat) (s : State) : State :=
  s.each ((List.range (min 16 (s.lf a 6 1))).filter (fun i => s.layerF a i 0 1 = 1 && decide (s.layerF a i 20 2 < 4096))) (fun i s =>
    let c := s.layerF a i 20 2
    let r := s.layerPic c t
    let s := s.whenB (r.2 && !(s.dec c).late.contains t) (fun s =>
      ((s.bump Reg.TIDE_LATE_LAST 1).setBit Reg.TIDE_EVENT 7).setDec c { s.dec c with late := (t :: (s.dec c).late).take 64 })
    match r.1 with
    | some p => ((s.share u p.shown).release u p.shown).setSf c 116 8 p.shown
    | none => s)

/-- A buffer nothing will use any more returns to its pool from whoever owns it (R490). -/
def State.dropBuf (a : Nat) (s : State) : State :=
  match s.poolOf a with
  | some p => s.giveBack (s.ownerOf (s.globalIndex p a)) a
  | none => s

/-- The ENCODE and ENTROPY_ENCODE of a composed picture, for tide S − 1 (R221, R390, R490). -/
def State.postEncode (c src buf : Nat) (s : State) : State :=
  let s := if buf ≠ 0 then s.handOver buf (s.gtBerth c) else s
  let lead := ((s.sibOthers c).find? (fun d => (s.sf d 27 1).testBit 3))
  let deps := match lead with
    | some d => if (s.sf c 27 1).testBit 3 then [] else
        -- the lead’s ENCODE of the same tide, if it is posted (R234)
        ((List.range (sub32 (s.qProd d) (s.qDone d))).filter (fun i =>
          let j := s.readJob d 0 (s.qSlot d (s.qDone d + i))
          j.op = 0x0201 && j.tide = src - 1)).map (fun i => (d, (s.qDone d + i) % two32))
    | none => []
  let r := s.post c (descBytes 0x0201 0 c (src % 65536) (src - 1) 0 buf 0 0 0) deps
  -- on a full ring the picture is dropped (R657)
  if !r.1 then (r.2.2.dropBuf buf).incSf c 172
  else
    let t := r.2.2.post c (descBytes 0x0202 0 c (src % 65536) (src - 1) 0 0 0 0 0) []
    if t.1 then t.2.2
    else t.2.2.setEnc c { t.2.2.enc c with orphans := (src % 65536 :: (t.2.2.enc c).orphans).take 16 }

/-- A composition ends with a status: a display output takes the picture when it is OK; an encode output’s ENCODE is
posted, with the most recent good picture in place of one that failed (R221, R225, R322). -/
def State.composed (c p buf st : Nat) (s : State) : State :=
  if 0xF000 ≤ c then
    let x := s.disp (c - 0xF000)
    if st = 0 ∨ st = 0x31 then s.setDisp (c - 0xF000) { x with ready := x.ready ++ [(p, buf)] }
    else if buf ≠ 0 then s.setDisp (c - 0xF000) { x with done := x.done ++ [buf] } else s
  else if s.ctxState c = 2 then s.postEncode c (p - s.presentL) (if buf ≠ 0 then buf else (s.enc c).composed)
  else s.dropBuf buf

/-- Cadence of an output’s pictures: DIV of a display output, d of an encode context (R300). -/
def State.outCadence (s : State) (c : Nat) : Nat := if 0xF000 ≤ c then s.dispDiv (c - 0xF000) else s.cadD c

/-- Compositions of an output kept for its layer maps (R310). -/
def State.compsOf (s : State) (c : Nat) : List CompRec := SMap.get (fun _ => []) s.comps c
def State.setComps (c : Nat) (l : List CompRec) (s : State) : State := { s with comps := SMap.set (fun _ => []) s.comps c l }

/-- What a composition draws: the layers, glyph entries skipped, and layers drawn as mid-grey (R303 to R313). -/
def State.drawn (s : State) (a p fmt : Nat) (start : Nat) : List Layer × Nat × Nat :=
  let ls := (List.range (min 16 (s.lf a 6 1))).map (fun i => s.layerOf a i (p - s.presentL) fmt ((p : Int) - start))
  (ls.map (fun l => l.1), (ls.map (fun l => l.2.1)).foldl (· + ·) 0, (ls.filter (fun l => l.2.2)).length)

/-- The composed picture and the bytes of its layer map, none with MAP 0 (R309, R310). -/
def State.composition (s : State) (c a p fmt start : Nat) : Pic × List Nat × CompRec :=
  let w := s.lf a 0 2
  let h := s.lf a 2 2
  let d := s.drawn a p fmt start
  let pos := (List.range (min 16 (s.lf a 6 1))).map (fun i => s.layerPos a i (p - s.presentL) ((p : Int) - start))
  (Pic.ofRgb w h fmt (blendAll (wordRgb fmt (s.lf a 8 4)) d.1),
    if (s.lf a 7 1).testBit 0 then layerMap w h p (s.outCadence c) d.1 pos (s.compsOf c) else [],
    { p, layers := pos.map (fun k => k.1) })

/-- The memory a composition draws from: the module’s own and, while the outbound window answers, what the host has there (R33,
R35, R557; assumption 54). -/
def State.hostView (host : List (Nat × List Nat)) (s : State) : State :=
  { s with mem := (host.filter (fun p => s.outboundOk && decide (0x8000000000 ≤ p.1))).foldl (fun m p => Memory.put m p.1 p.2) s.mem }

/-- COMPOSE: the layout in force for P is composed into a picture buffer (R300 to R316). -/
def State.composeJob (u : Nat) (host : List (Nat × List Nat)) (j : Job) (s : State) : State :=
  let c := j.ctx
  let n := s.composeLayout c
  let p := s.laneP c
  if 1023 < n then s.endJob u 0x20
  else
    let uses := s.composeUses n p
    let a := (s.composeAddr n p).1
    let pool := s.lf (s.layoutAddr n (s.layoutCopy n p)) 16 2
    let b := if j.s0 ≠ 0 then (0, j.s0 % two40, s) else s.alloc u u pool .job
    if b.1 ≠ 0 then (b.2.2.composed c p 0 0x22).endJob u 0x22
    else
      let s := b.2.2
      let fmt := if 0xF000 ≤ c then s.lf a 4 2 else s.ctxFormat c
      let st := if j.rerun then 0x31 else 0
      let w := s.lf a 0 2
      let h := s.lf a 2 2
      let size := if j.s0 ≠ 0 then picBytes w h (bits fmt 5 4) (fmt.testBit 6) else s.poolSize pool
      let start := s.copyStart uses.1 p
      let s := s.showLayers u a (p - s.presentL)
      let d := (s.hostView host).drawn a p fmt start
      let k := (s.hostView host).composition c a p fmt start
      let rec_ := picRecord c st 0 (p - 2 - s.presentL) 0 0 w h fmt 0 0 []
      let side := planeOfs (bits fmt 5 4) w h (fmt.testBit 6) 3
      let s := ((s.writeMem u b.2.1 rec_).2.storePic u b.2.1 size k.1)
      let s := s.whenB (side + k.2.1.length ≤ size) (fun s => (s.writeMem u (b.2.1 + side) k.2.1).2)
      let s := s.setComps c ((k.2.2 :: (s.compsOf c).filter (fun r => r.p != p)).take 5)
      let s := (s.bump Reg.CMP_GLYPH_SKIP_LAST d.2.1).bump Reg.CMP_COLOUR_MISMATCH_LAST (d.2.2 + b2n uses.2)
      -- the pictures of a group of lanes are dealt to its members in turn (R302)
      let s := s.leafBumpAt u (p % max 1 (s.leafList u).length) Reg.CL_SAMPLES_LAST (cdiv (s.layoutCost4 a) 4)
      let id := match s.stormFor p with
        | some (x, _) => x.id
        | none => 0
      let s := if 0xF000 ≤ c ∧ (s.disp (c - 0xF000)).storm ≠ id then
          (s.setDisp (c - 0xF000) { s.disp (c - 0xF000) with storm := id }).setBit (Reg.DISP_OUT_EVENT + 0x100 * (c - 0xF000)) 4
        else s
      (s.composed c p b.2.1 st).endJob u st

/-- A COMPOSE still running at a tide start completes DEADLINE_MISSED (R132, R301, R325). -/
def State.lateCompose (u : Nat) (s : State) : State :=
  match (s.unit u).job with
  | some j =>
    if j.op ≠ 0x0301 then s
    else ((s.composed j.ctx (if 0xF000 ≤ j.ctx then j.started + 1 else j.started + 2 + s.presentL) 0 0x30).bump Reg.CMP_LATE_LAST 1).endJob u 0x30
  | none => s

/-- A STOP or HALT of a COMPOSE ends it with no picture. -/
def State.runCompose (u : Nat) (host : List (Nat × List Nat)) (s : State) : State :=
  s.runJob u 0x0301 false (fun j s => if j.ctx < 4096 && s.ctxState j.ctx = 0 then s.endJob u 0x20 else s.composeJob u host j)

/-- With L = 2 a COMPOSE waits for the RECONSTRUCT of every stream layer’s picture of source tide P − 2 posted before it (R390). -/
def State.composeDeps (s : State) (n p : Nat) : List (Nat × Nat) :=
  if s.presentL ≠ 2 ∨ 1023 < n then []
  else
    let a := (s.composeAddr n p).1
    ((List.range (min 16 (s.lf a 6 1))).filter (fun i => s.layerF a i 0 1 = 1 && decide (s.layerF a i 20 2 < 4096))).flatMap (fun i =>
      let d := s.layerF a i 20 2
      ((List.range (sub32 (s.qProd d) (s.qDone d))).filter (fun k =>
        let j := s.readJob d 0 (s.qSlot d (s.qDone d + k))
        j.op = 0x0102 && s.srcTide j = p - 2)).map (fun k => (d, (s.qDone d + k) % two32)))

/-- The COMPOSE jobs due in tide t (R300): display outputs with P mod DIV = 0, but none while they repeat after an increase of L
(R130), and encode contexts of the cadence. -/
def State.postComposes (t : Nat) (s : State) : State :=
  let s := s.each (List.range 8) (fun n s =>
    if s.tide.repeats = 0 && s.bit (Reg.DISP_OUT_CTRL + 0x100 * n) 0 && s.books.any (fun k => k.1 = 0xF000 + n) && (t + 1) % s.dispDiv n = 0
        && decide (s.dispLayout n (t + 1) < 1024) then
      (s.post (4096 + n) (descBytes 0x0301 0 (0xF000 + n) (t % 65536) t 0 0 0 0 0) (s.composeDeps (s.dispLayout n (t + 1)) (t + 1))).2.2
    else s)
  s.each ((s.books.map (fun k => k.1)).filter (fun c => decide (c < 4096))) (fun c s =>
    if s.ctxKind c = 2 && s.ctxState c = 2 && s.layoutOf c != 0xFFFF && (t + 2) % s.cadD c = s.cadPhi c then
      let r := s.post c (descBytes 0x0301 0 c (t % 65536) t 0 0 0 0 0) (s.composeDeps (s.layoutOf c) (t + 2 + s.presentL))
      if r.1 then r.2.2 else r.2.2.incSf c 172
    else s)

def State.viewClStatus (s : State) (u : Nat) : Nat :=
  match (s.unit u).job with
  | some j => s.composeLayout j.ctx % 4096
  | none => 0

/-- CL_BOOKED: cost booked per tide on a lane (R326). -/
def State.viewClBooked (s : State) (u : Nat) : Nat :=
  cadenceSum (s.books.flatMap (fun k => if k.2.charges.any (fun c => c.1 = u && c.2.2 = 0x0301) then
    (k.2.works.filter (fun w => w.1 = 0x0301)).map (fun w => (k.2.divisor, k.2.phase, w.2.2 / 300)) else []))

/-! ### The safe slate (R318, R319) -/

/-- Is a slate sound? (R318) -/
def slateOk (b : List Nat) : Bool :=
  let n := fun (o k : Nat) => bodyN b o k
  let len := n 16 4
  let cnt := n 12 2
  let po := n 20 4
  let ao := n 24 4
  let glyphs := n (ao + 4) 2
  let texels := n (ao + 12) 4
  let pitch := n (ao + 10) 2
  let atlasEnd := ao + max (16 + 12 * glyphs) (texels + pitch * n (ao + 8) 2)
  n 0 4 = 0x45464153 && n 14 2 = 0 && n 28 4 = 0 && decide (32 ≤ len) && decide (len ≤ 262144) && decide (cnt ≤ 256) &&
    (if cnt = 0 then po = 0 && ao = 0
     else
      po % 8 = 0 && decide (32 ≤ po) && decide (po + 8 * cnt ≤ len) && ao % 256 = 0 && ao != 0
        && n ao 4 = 0x54414C47 && decide (atlasEnd ≤ len) && (decide (po + 8 * cnt ≤ ao) || decide (atlasEnd ≤ po))
        && (List.range cnt).all (fun i => decide (n (po + 8 * i) 2 < glyphs) && n (po + 8 * i + 6) 1 = 0 && n (po + 8 * i + 7) 1 = 0))

/-- At the first tide start the slate is copied, if an image names one and it passes (R318). -/
def State.loadSlate (s : State) : State :=
  let a := s.rd40 Reg.CMP_SAFE_SRC_LO
  let len := min 262144 (s.rdM (a + 16) 4)
  let b := Memory.bytes s.mem a len
  if a ≠ 0 ∧ slateOk b then ({ s with slate := b }).wr Reg.CMP_SAFE_STATUS (len * 2)
  else ({ s with slate := [] }).wr Reg.CMP_SAFE_STATUS 1

/-! ### Frames and links (R320 to R324) -/

/-- Registers of output n. -/
def dreg (r n : Nat) : Nat := r + 0x100 * n

/-- Pixel clock in kHz (R321). -/
def State.pclk (s : State) (n : Nat) : Nat :=
  s.fld (dreg Reg.DISP_OUT_H n) 31 16 * s.fld (dreg Reg.DISP_OUT_V n) 31 16 * s.rateNum / max 1 (s.rateDen * s.dispDiv n * 1000)

/-- Bits per pixel. -/
def State.bpp (s : State) (n : Nat) : Nat := if s.bit (dreg Reg.DISP_OUT_CTRL n) 9 then 30 else 24

/-- Link rate in kb/s per lane. -/
def linkKbps (r : Nat) : Nat := [1620000, 2700000, 5400000, 8100000].getD r 0

/-- A timing within the fixed limits of R321. -/
def State.timingOk (s : State) (n : Nat) : Bool :=
  decide (s.fld (dreg Reg.DISP_OUT_H n) 15 0 ≤ 3840) && decide (s.fld (dreg Reg.DISP_OUT_V n) 15 0 ≤ 2160) && decide (s.pclk n ≤ 600000)

/-- A link of some lanes and rate carries the timing (R321). -/
def State.linkFits (s : State) (n lanes r : Nat) : Bool := decide (10 * s.pclk n * s.bpp n ≤ 8 * lanes * linkKbps r)

/-- Configured largest lanes and rate. -/
def State.maxLanes (s : State) (n : Nat) : Nat := 2 ^ min 2 (s.fld (dreg Reg.DISP_OUT_CTRL n) 8 7)
def State.maxRate (s : State) (n : Nat) : Nat := s.fld (dreg Reg.DISP_OUT_CTRL n) 6 5

/-- Lane k of output n is recorded faulty. -/
def State.laneBad (s : State) (n k : Nat) : Bool := s.fld (dreg Reg.DISP_OUT_LANE_DIAG n) (2 * k + 1) (2 * k) != 0

/-- The link to train: 4, 2 or 1 lanes, each at HBR3 down to RBR, within the configuration and the sink, avoiding faulty
lanes and carrying the timing (R324). -/
def State.bestLink (s : State) (n : Nat) : Option (Nat × Nat) :=
  let x := s.disp n
  let cands := [4, 2, 1].flatMap (fun l => [3, 2, 1, 0].map (fun r => (l, r)))
  cands.find? (fun p => decide (p.1 ≤ s.maxLanes n) && decide (p.1 ≤ x.sinkLanes) && decide (p.2 ≤ s.maxRate n)
    && decide (p.2 ≤ x.sinkRate) && (List.range p.1).all (fun k => !s.laneBad n k) && s.linkFits n p.1 p.2)

/-- A change of the link: LINK_CHANGE, and a DISP_LINK warning when reduced or dark (R324, R583). -/
def State.linkSet (n : Nat) (y : DispSt) (s : State) : State :=
  let x := s.disp n
  let s := s.setDisp n y
  let s := s.whenB (x.up != y.up) (State.setBit (dreg Reg.DISP_OUT_EVENT n) 1)
  s.whenB ((y.fail && !x.fail) || (y.degraded && !x.degraded)) (fun s => s.report 0x3B40 noAgent 0 (regAddr (dreg Reg.DISP_OUT_STATUS n)))

/-- Train the link (R323, R324). `trains` says whether the sink completes training. -/
def State.train (n : Nat) (trains : Bool) (s : State) : State :=
  let x := s.disp n
  if !x.hpd then s
  else if !s.timingOk n then
    s.linkSet n { x with up := false, lanes := 0, rate := 0, timingBad := true, fail := false, degraded := false }
  else
    match s.bestLink n with
    | none => s.linkSet n { x with up := false, lanes := 0, rate := 0, timingBad := false, fail := true, degraded := false }
    | some (l, r) =>
      if trains && s.outputsOn then
        s.linkSet n { x with up := true, lanes := l, rate := r, timingBad := false, fail := false
                             degraded := decide (l < s.maxLanes n) || decide (r < s.maxRate n) }
      else s.linkSet n { x with up := false, lanes := 0, rate := 0, timingBad := false }

/-- HPD low for 2 ms: the sink is absent and the link stops (R323). -/
def State.hpdLow (n : Nat) (s : State) : State :=
  let x := s.disp n
  let s := s.whenB x.hpd (State.setBit (dreg Reg.DISP_OUT_EVENT n) 0)
  s.linkSet n { s.disp n with hpd := false, up := false, lanes := 0, rate := 0, locked := false }

/-- HPD_ASSERT: the output reads the sink’s DPCD, checks its lanes and trains (R323, R324). -/
def State.hpdAssert (n lanes rate diag : Nat) (trains : Bool) (s : State) : State :=
  let x := s.disp n
  let s := s.whenB (!x.hpd) (State.setBit (dreg Reg.DISP_OUT_EVENT n) 0)
  let s := s.wrFld (dreg Reg.DISP_OUT_LANE_DIAG n) 7 0 diag
  (s.setDisp n { s.disp n with hpd := true, sinkLanes := lanes, sinkRate := rate, aux := 0 }).train n trains

/-- IRQ_HPD: handled as DisplayPort 1.4a prescribes: the sink’s link status is read, and a link it reports lost is trained
again (R323). -/
def State.irqHpd (n : Nat) (linkLost trains : Bool) (s : State) : State :=
  if (s.disp n).hpd && linkLost then s.train n trains else s

/-- LINK_TRAINING_RETRY: every 5 s while HPD is high and the link is not up (R323). -/
def State.linkRetry (n : Nat) (trains : Bool) (s : State) : State :=
  if (s.disp n).hpd && !(s.disp n).up then s.train n trains else s

/-- AUX_TIMEOUT: retried 3 times, then AUX_FAULT (R323). -/
def State.auxTimeout (n : Nat) (s : State) : State :=
  let x := s.disp n
  if x.aux < 3 then s.setDisp n { x with aux := x.aux + 1 }
  else
    (((s.setDisp n { x with aux := 0 }).setBit (dreg Reg.DISP_OUT_LANE_DIAG n) 8)).report 0x3B40 noAgent 0
      (regAddr (dreg Reg.DISP_OUT_LANE_DIAG n))

/-- LANE_FAULT: a lane found SHORT or OPEN, and the link retrained round it (R324). -/
def State.laneFault (n lane kind : Nat) (trains : Bool) (s : State) : State :=
  let o := dreg Reg.DISP_OUT_LANE_DIAG n
  let s := s.wrFld o (2 * (lane % 4) + 1) (2 * (lane % 4)) (if kind = 2 then 2 else 1)
  let s := (s.setBit (dreg Reg.DISP_OUT_EVENT n) 2).report 0x3B40 noAgent 0 (regAddr o)
  s.train n trains

/-- DISPLAY_VSYNC: a frame starts at start(T) + PHASE; it shows the composition for P = T, or repeats (R319, R322). -/
def State.vsync (n : Nat) (s : State) : State :=
  let x := s.disp n
  let t := s.tideNum
  if !s.bit (dreg Reg.DISP_OUT_CTRL n) 0 then s
  else if x.slate then s.emit (.frame n 0 3)
  else if t % s.dispDiv n ≠ 0 then s
  else
    let s := s.setDisp n { x with locked := x.up }
    let x := s.disp n
    if 1023 < s.dispLayout n t then s.emit (.frame n 0 2)
    else
      match x.ready.find? (fun p => p.1 = t) with
      | some p =>
        let old := (x.ready.filter (fun q => decide (q.1 < t))).map (fun q => q.2)
        let done := x.done ++ old ++ (if x.shown = 0 then [] else [x.shown])
        let s := s.setDisp n { x with shown := p.2, done, ready := x.ready.filter (fun q => decide (t < q.1)) }
        -- a layout that is not 4:4:4 shows its background only (R320)
        s.emit (.frame n p.2 (if bits (s.rdM (p.2 + 20) 2) 5 4 = 3 then 0 else 2))
      | none =>
        ((s.bump (dreg Reg.DISP_OUT_REPEATS_LAST n) 1).setBit (dreg Reg.DISP_OUT_EVENT n) 3).emit (.frame n x.shown 1)

/-- The lane frees a display’s composed buffers at the tide start after the output began its next frame (R490). -/
def State.freeShown (n : Nat) (s : State) : State :=
  let x := s.disp n
  let s := s.each x.done State.dropBuf
  s.setDisp n { x with done := [] }

/-- DISP_OUTn_STATUS. -/
def State.viewDisp (s : State) (n : Nat) : Nat :=
  let x := s.disp n
  b2n x.hpd + b2n x.up * 2 + b2n x.locked * 4 + b2n x.timingBad * 8 + b2n x.fail * 16 + b2n x.degraded * 32 + b2n x.slate * 64
    + (if x.lanes = 4 then 3 else x.lanes) * 256 + x.rate * 1024

/-! ### RMP commands (R356, R359) -/

def flipCmd (b : List Nat) (s : State) : Nat × List Nat × State :=
  if b.length ≠ 2 ∨ 1023 < bodyN b 0 2 then (stBadRequest, [], s)
  else
    let r := s.layoutFlip agentCc0 (bodyN b 0 2)
    (if r.1 then stOk else stRefused, [], r.2)

/-- On the storm flow a signal accepted sets STORM_RX. -/
def stormCmd (via : Via) (b : List Nat) (s : State) : Nat × List Nat × State :=
  let r := s.stormMsg b
  (r.1, r.2.1, r.2.2.2.whenB (r.2.2.1 && via == .net) (State.setBit Reg.NET_EVENT 13))

/-! ### Meanings -/

/-- COMPOSE at a lane berth (R300). -/
def execCompose (unit : Nat) (host : List (Nat × List Nat)) (s : State) : Host.Outcome State Fault Refusal :=
  .next (s.runCompose unit host)
/-- CMP_LAYOUT_FLIP (R297, R298). -/
def execCmpLayoutFlip (agent value : Nat) (s : State) : Host.Outcome State Fault Refusal :=
  .next (if s.armBlocks agent Reg.CMP_LAYOUT_FLIP then s.usageReg agent Reg.CMP_LAYOUT_FLIP else (s.layoutFlip agent (bits value 9 0)).2)
/-- DISPLAY_VSYNC (R322). -/
def execDisplayVsync (output : Nat) (s : State) : Host.Outcome State Fault Refusal := .next (s.vsync (output % 8))
/-- HPD_LOW (R323). -/
def execHpdLow (output : Nat) (s : State) : Host.Outcome State Fault Refusal := .next (s.hpdLow (output % 8))
/-- IRQ_HPD (R323). -/
def execIrqHpd (output : Nat) (linkLost trains : Bool) (s : State) : Host.Outcome State Fault Refusal :=
  .next (s.irqHpd (output % 8) linkLost trains)
/-- HPD_ASSERT (R323). -/
def execHpdAssert (output lanes rate diag : Nat) (trains : Bool) (s : State) : Host.Outcome State Fault Refusal :=
  .next (s.hpdAssert (output % 8) lanes rate diag trains)
/-- LINK_TRAINING_RETRY (R323). -/
def execLinkTrainingRetry (output : Nat) (trains : Bool) (s : State) : Host.Outcome State Fault Refusal :=
  .next (s.linkRetry (output % 8) trains)
/-- AUX_TIMEOUT (R323). -/
def execAuxTimeout (output : Nat) (s : State) : Host.Outcome State Fault Refusal := .next (s.auxTimeout (output % 8))
/-- LANE_FAULT (R324). -/
def execLaneFault (output lane kind : Nat) (trains : Bool) (s : State) : Host.Outcome State Fault Refusal :=
  .next (s.laneFault (output % 8) lane kind trains)
/-- LAYOUT_FLIP (R356). -/
def execLayoutFlip (req : Req) (body : List Nat) (s : State) : Host.Outcome State Fault Refusal :=
  .next (s.rmpRun req 0x12 .operational (flipCmd body))
/-- STORM (R314, R315, R359). -/
def execStorm (req : Req) (body : List Nat) (s : State) : Host.Outcome State Fault Refusal :=
  .next (s.rmpRun req 0x13 .operational (stormCmd req.via body))
/-- STORM_FRAGMENT_EXPIRY (R359). -/
def execStormFragmentExpiry (id : Nat) (s : State) : Host.Outcome State Fault Refusal := .next (s.fragExpiry id)

end Sys2Proof.Machine
end

