-- ==== Sys2Proof/Machine/Packets.lean ====
section
/-! DEFINITION. Payload formats and packets (09_network_and_feeders.md: R338, R345 to R347, R349, R351): depacketising RTP payloads of
AVC, HEVC and AV1, packetising a coded picture into them or into a transport stream, RTP headers, and the messages sent. -/

namespace Sys2Proof.Machine

/-- The start code before each NAL unit (R338). -/
def startCode : List Nat := [0, 0, 0, 1]

/-- Cut a list into pieces of at most `n`, `fuel` at most. -/
def chunks {α : Type} (n : Nat) : Nat → List α → List (List α)
  | 0, _ => []
  | fuel + 1, l => if l.isEmpty then [] else l.take n :: chunks n fuel (l.drop n)

/-- Read a leb128 number: value and bytes used. -/
def readLeb : Nat → List Nat → Nat × Nat
  | 0, _ => (0, 0)
  | _ + 1, [] => (0, 0)
  | f + 1, b :: bs =>
    if (b % 256).testBit 7 then
      let r := readLeb f bs
      (b % 128 + 128 * r.1, r.2 + 1)
    else (b % 128, 1)

/-! ### Units of coded data -/

/-- NAL units of a byte stream; `cur` is the unit being read, last byte first. Zero bytes before a start code belong to no unit. -/
def nalsFrom : List Nat → List Nat → List (List Nat)
  | cur, [] => [cur.reverse]
  | cur, 0 :: 0 :: 1 :: t => (cur.dropWhile (· = 0)).reverse :: nalsFrom [] t
  | cur, b :: t => nalsFrom (b :: cur) t

/-- The NAL units of a byte stream. -/
def nals (l : List Nat) : List (List Nat) := (nalsFrom [] l).filter (fun n => !n.isEmpty)

/-- NAL unit type. -/
def nalType (codec : Nat) (n : List Nat) : Nat := if codec = 2 then byteAt n 0 % 32 else byteAt n 0 / 2 % 64

/-- An OBU of low-overhead data without its size field, and the bytes it takes there. -/
def obuHead (l : List Nat) : List Nat × Nat :=
  let h := byteAt l 0
  let k := if h.testBit 2 then 2 else 1
  let hdr := Nat.land h 0xFD :: (l.drop 1).take (k - 1)
  if h.testBit 1 then
    let r := readLeb 8 (l.drop k)
    (hdr ++ (l.drop (k + r.2)).take r.1, k + r.2 + r.1)
  else (hdr ++ l.drop k, l.length)

/-- The OBUs of low-overhead data, without size fields. -/
def obus : Nat → List Nat → List (List Nat)
  | 0, _ => []
  | fuel + 1, l =>
    if l.isEmpty then []
    else
      let r := obuHead l
      r.1 :: obus fuel (l.drop (max 1 r.2))

/-- OBU type. -/
def obuType (o : List Nat) : Nat := byteAt o 0 / 8 % 16

/-- An OBU in low-overhead format, its size field restored (R338). -/
def obuSized (o : List Nat) : List Nat :=
  let k := if (byteAt o 0).testBit 2 then 2 else 1
  if (byteAt o 0).testBit 1 then o
  else Nat.lor (byteAt o 0) 2 :: (o.drop 1).take (k - 1) ++ leb128 8 (o.length - k) ++ o.drop k

/-- A temporal delimiter OBU (R338). -/
def temporalDelimiter : List Nat := [0x12, 0]

/-! ### Depacketising (R338) -/

/-- A coded picture as it is put together: its bytes, the AV1 OBU still open, units ignored, and losses by offset. -/
structure Depack where
  out : List Nat
  part : Option (List Nat)
  ignored : Nat
  losses : List (Nat × Nat)
  deriving DecidableEq, Repr

/-- Aggregated units, each after its 16-bit length. -/
def aggregated : Nat → List Nat → List (List Nat)
  | 0, _ => []
  | fuel + 1, l => if l.length < 2 then [] else
    let n := byteAt l 0 * 256 + byteAt l 1
    (l.drop 2).take n :: aggregated fuel (l.drop (2 + n))

/-- Units in byte-stream format. -/
def byteStream (l : List (List Nat)) : List Nat := (l.filter (fun n => !n.isEmpty)).flatMap (fun n => startCode ++ n)

/-- An RFC 6184 payload: bytes written, units ignored. -/
def avcPayload (p : List Nat) : List Nat × Nat :=
  let t := byteAt p 0 % 32
  if 1 ≤ t ∧ t ≤ 23 then (startCode ++ p, 0)
  else if t = 24 then (byteStream (aggregated p.length (p.drop 1)), 0)
  else if t = 28 then
    let h := byteAt p 1
    ((if h.testBit 7 then startCode ++ [Nat.land (byteAt p 0) 0xE0 + h % 32] else []) ++ p.drop 2, 0)
  else ([], 1)

/-- An RFC 7798 payload. -/
def hevcPayload (p : List Nat) : List Nat × Nat :=
  let t := byteAt p 0 / 2 % 64
  if t < 48 then (startCode ++ p, 0)
  else if t = 48 then (byteStream (aggregated p.length (p.drop 2)), 0)
  else if t = 49 then
    let h := byteAt p 2
    ((if h.testBit 7 then startCode ++ [Nat.land (byteAt p 0) 0x81 + h % 64 * 2, byteAt p 1] else []) ++ p.drop 3, 0)
  else ([], 1)

/-- OBU elements of an AV1 payload after its aggregation header: with W not 0 the W-th has no length. -/
def obuElems (w : Nat) : Nat → Nat → List Nat → List (List Nat)
  | 0, _, _ => []
  | fuel + 1, k, l =>
    if l.isEmpty then []
    else if w ≠ 0 ∧ w ≤ k + 1 then [l]
    else
      let r := readLeb 8 l
      (l.drop r.2).take r.1 :: obuElems w fuel (k + 1) (l.drop (max 1 (r.2 + r.1)))

/-- A complete OBU is written: delimiters are restored elsewhere, tile lists are ignored. -/
def Depack.obu (o : List Nat) (d : Depack) : Depack :=
  if o.isEmpty ∨ obuType o = 2 then d
  else if obuType o = 8 then { d with ignored := d.ignored + 1 }
  else { d with out := d.out ++ obuSized o }

/-- The OBU open is complete. -/
def Depack.close (d : Depack) : Depack :=
  match d.part with
  | some o => { d with part := none }.obu o
  | none => d

/-- The OBU elements of a packet: the last stays open with Y. -/
def Depack.elems (y : Bool) : List (List Nat) → Depack → Depack
  | [], d => d
  | [e], d => if y then { d with part := some e } else d.obu e
  | e :: es, d => Depack.elems y es (d.obu e)

/-- An AV1 payload (Z, Y, W and N of its aggregation header). A fragment whose OBU is not open is written on its own. -/
def Depack.av1 (p : List Nat) (d : Depack) : Depack :=
  let h := byteAt p 0
  let es := obuElems (h / 16 % 4) p.length 0 (p.drop 1)
  match h.testBit 7, d.part, es with
  | true, some o, e :: es => Depack.elems (h.testBit 6) ((o ++ e) :: es) { d with part := none }
  | _, _, _ => Depack.elems (h.testBit 6) es d.close

/-- A packet of a picture, `gap` numbers missing before it. A gap closes an open OBU, and is a loss at the byte reached (R340). -/
def Depack.packet (codec gap : Nat) (p : List Nat) (d : Depack) : Depack :=
  let d := if gap = 0 then d
    else
      let d := d.close
      { d with losses := d.losses ++ [(d.out.length, gap)] }
  if codec = 4 then d.av1 p
  else
    let r := match codec with
      | 2 => avcPayload p
      | 3 => hevcPayload p
      | _ => (p, 0)
    { d with out := d.out ++ r.1, ignored := d.ignored + r.2 }

/-- Before the first packet: a temporal delimiter in AV1. -/
def Depack.start (codec : Nat) : Depack := { out := if codec = 4 then temporalDelimiter else [], part := none, ignored := 0, losses := [] }

/-! ### Packetising (R345) -/

/-- Pieces of a unit in fragments of at most n bytes, with first and last. -/
def fragments (n : Nat) (l : List Nat) : List (Bool × Bool × List Nat) :=
  let c := chunks n l.length l
  c.zipIdx.map (fun x => (decide (x.2 = 0), decide (x.2 + 1 = c.length), x.1))

/-- Payloads of one NAL unit: single NAL unit packet, or FU-A or FU. -/
def nalPayloads (codec room : Nat) (n : List Nat) : List (List Nat) :=
  if n.length ≤ room then [n]
  else if codec = 2 then
    (fragments (room - 2) (n.drop 1)).map (fun f =>
      [Nat.land (byteAt n 0) 0xE0 + 28, 128 * b2n f.1 + 64 * b2n f.2.1 + byteAt n 0 % 32] ++ f.2.2)
  else
    (fragments (room - 3) (n.drop 2)).map (fun f =>
      [Nat.land (byteAt n 0) 0x81 + 98, byteAt n 1, 128 * b2n f.1 + 64 * b2n f.2.1 + byteAt n 0 / 2 % 64] ++ f.2.2)

/-- One STAP-A or AP of units. -/
def aggregate (codec : Nat) (l : List (List Nat)) : List Nat :=
  (if codec = 2 then [(l.map (fun n => byteAt n 0 / 32 % 4)).foldl max 0 * 32 + 24]
    else [(l.map (fun n => byteAt n 0 / 128)).foldl max 0 * 128 + 96, 1])
    ++ l.flatMap (fun n => beBytes 2 n.length ++ n)

/-- The units that go together: AVC parameter sets and SEI, HEVC parameter sets. -/
def together (codec : Nat) (n : List Nat) : Bool :=
  let t := nalType codec n
  if codec = 2 then t = 6 || t = 7 || t = 8 else t = 32 || t = 33 || t = 34

/-- RTP payloads of an AVC or HEVC picture: the units that go together in one packet at the place of the first, if they fit and there are
two or more (assumption 77). -/
def nalPackets (codec room : Nat) (l : List (List Nat)) : List (List Nat) :=
  let t := l.filter (together codec)
  let a := aggregate codec t
  if 2 ≤ t.length ∧ a.length ≤ room then
    let i := l.findIdx (together codec)
    (l.take i).flatMap (nalPayloads codec room) ++ [a] ++ ((l.drop i).filter (fun n => !together codec n)).flatMap (nalPayloads codec room)
  else l.flatMap (nalPayloads codec room)

/-- RTP payloads of an AV1 picture: one OBU element to a packet, W 1, so that none needs a size; N on the first of a key frame. -/
def obuPackets (room : Nat) (key : Bool) (l : List (List Nat)) : List (List Nat) :=
  ((l.filter (fun o => obuType o != 2)).flatMap (fun o => fragments (room - 1) o)).zipIdx.map (fun x =>
    (128 * b2n (!x.1.1) + 64 * b2n (!x.1.2.1) + 16 + 8 * b2n (key && x.2 = 0)) :: x.1.2.2)

/-! ### Transport streams (R345, R346) -/

/-- One bit and one byte of the CRC of a PSI section. -/
def psiBit (c : Nat) : Nat := if 2 ^ 31 ≤ c then Nat.xor (c * 2 % two32) 0x04C11DB7 else c * 2 % two32
def psiByte (c b : Nat) : Nat := psiBit (psiBit (psiBit (psiBit (psiBit (psiBit (psiBit (psiBit (Nat.xor c (b % 256 * 2 ^ 24)))))))))

/-- A PSI section with its CRC. -/
def psiSection (l : List Nat) : List Nat := l ++ beBytes 4 (l.foldl psiByte 0xFFFFFFFF)

/-- PAT and PMT sections: program_number 1, stream_type 0x1B or 0x24. -/
def patSection (flow pmt : Nat) : List Nat :=
  psiSection ([0, 0xB0, 13] ++ beBytes 2 (Config.tsId flow) ++ [0xC1, 0, 0, 0, 1] ++ beBytes 2 (0xE000 + pmt))
def pmtSection (codec video : Nat) : List Nat :=
  psiSection ([2, 0xB0, 18, 0, 1, 0xC1, 0, 0] ++ beBytes 2 (0xE000 + video) ++ [0xF0, 0, if codec = 2 then 0x1B else 0x24]
    ++ beBytes 2 (0xE000 + video) ++ [0xF0, 0])

/-- A transport packet: PID, unit start, continuity counter, adaptation field if any, payload; what is short of 188 bytes is stuffed in
the adaptation field. -/
def tsPacket (pid cc : Nat) (start : Bool) (af : Option (List Nat)) (pay : List Nat) : List Nat :=
  let head := [0x47, 64 * b2n start + pid / 256 % 32, pid % 256]
  let room := 184 - pay.length
  if room = 0 then head ++ [16 + cc % 16] ++ pay
  else if room = 1 then head ++ [48 + cc % 16, 0] ++ pay
  else
    let a := af.getD [0]
    head ++ [48 + cc % 16, room - 1] ++ a ++ List.replicate (room - 1 - a.length) 0xFF ++ pay

/-- A section in a packet: pointer field and stuffing after the section. -/
def psiPacket (pid cc : Nat) (sec : List Nat) : List Nat :=
  tsPacket pid cc true none (([0] ++ sec ++ List.replicate 183 0xFF).take 184)

/-- The header of a PES packet with its PTS. -/
def pesHeader (pts : Nat) : List Nat :=
  [0, 0, 1, 0xE0, 0, 0, 0x80, 0x80, 5, 0x21 + pts / 2 ^ 30 % 8 * 2, pts / 2 ^ 22 % 256, pts / 2 ^ 15 % 128 * 2 + 1, pts / 2 ^ 7 % 256,
    pts % 128 * 2 + 1]

/-- The adaptation field of a PCR, device time in 27 MHz units. -/
def pcrField (ns : Nat) : List Nat :=
  let t := ns * 27 / 1000
  let b := t / 300 % 2 ^ 33
  [0x10] ++ beBytes 4 (b / 2) ++ [b % 2 * 128 + 126 + t % 300 / 256, t % 300 % 256]

/-- The packets of a PES packet: bytes of payload each holds. The first has 8 fewer, for its PCR. -/
def pesSplit (l : List Nat) : List (List Nat) :=
  l.take 176 :: chunks 184 l.length (l.drop 176)

/-! ### Headers (R346, R349) -/

/-- An RTP header: version 2, extension, marker, payload type, number, timestamp, SSRC. -/
def rtpHeader (ext marker : Bool) (pt seq ts ssrc : Nat) : List Nat :=
  [128 + 16 * b2n ext, 128 * b2n marker + pt % 128] ++ beBytes 2 seq ++ beBytes 4 ts ++ beBytes 4 ssrc

/-- The 0xBEDE extension block of 24 bytes with the element, its TX_OFS at bytes 8 to 11. -/
def elemBlock (id : Nat) (el : List Nat) (ofs : Nat) : List Nat :=
  [0xBE, 0xDE, 0, 5, id % 16 * 16 + 15] ++ el.take 8 ++ beBytes 4 (min 0xFFFFFFFF ofs) ++ (el.drop 8).take 4 ++ [0, 0, 0]

end Sys2Proof.Machine
end

