-- ==== Sys2Proof/Machine/Network.lean ====
section
/-! DEFINITION. Network and feeder ports (09_network_and_feeders.md: R328 to R352, R360 to R371; R597): links,
classification and policing, ordering and release, the demultiplexer, transmission, refresh requests, the feeder FIFOs. -/

namespace Sys2Proof.Machine

/-! ### Ports (R328 to R330) -/

/-- A register of network port k. -/
def nreg (r k : Nat) : Nat := r + 0x100 * k

/-- A port exists in the current NET_CFG (R328, R369). -/
def State.portExists (s : State) (k : Nat) : Bool :=
  let m := s.fld Reg.NET_CFG (2 * (k / 4) + 1) (2 * (k / 4))
  if k = 8 then s.fld Reg.NET_CFG 5 4 = 1 || s.fld Reg.NET_CFG 5 4 = 2
  else if k < 8 then m = 2 || (m = 1 && k % 4 = 0)
  else false

/-- The link of a port is up and the port is enabled. -/
def State.portUp (s : State) (k : Nat) : Bool :=
  s.portExists k && s.bit (nreg Reg.NET_PORT_CTRL k) 0 && s.bit (nreg Reg.NET_PORT_STATUS k) 0

/-- Speed code of a port: that of its mode, on the management port what the PHY signals (R328, R369). -/
def State.portSpeed (s : State) (k sp : Nat) : Nat :=
  if k = 8 then (if s.fld Reg.NET_CFG 5 4 = 1 then 3 else sp % 4)
  else if s.fld Reg.NET_CFG (2 * (k / 4) + 1) (2 * (k / 4)) = 1 then 5 else 4

/-- A link changes state (R330): its status, its event and a warning. A fault, or a missing FEC lock where RS-FEC runs,
holds the link down. -/
def State.linkChange (k : Nat) (up fec lf rf : Bool) (sp : Nat) (s : State) : State :=
  if !s.portExists k || (up && !s.outputsOn) then s
  else
    let sp := s.portSpeed k sp
    let needFec := sp = 5 || (sp = 4 && s.bit (nreg Reg.NET_PORT_CTRL k) 1)
    let lock := needFec && fec
    let up := up && !lf && !rf && (lock || !needFec) && s.bit (nreg Reg.NET_PORT_CTRL k) 0
    let o := nreg Reg.NET_PORT_STATUS k
    let old := s.bit o 0
    let s := s.wr o (b2n up + 2 * b2n lock + 4 * b2n lf + 8 * b2n rf + 16 * (if up then sp else 0))
    if old = up then s else (s.setBit Reg.NET_EVENT k).report 0x3C03 noAgent 0 0

/-- CC2/CC3 answer ARP and echo with IP4 set, neighbour discovery and echo over IPv6 with IP6_EN (R330). Kind: 0 ARP,
1 ICMP echo, 2 neighbour discovery, 3 ICMPv6 echo. -/
def State.neighbourRx (k kind : Nat) (s : State) : State :=
  let v4 := s.rd (nreg Reg.NET_PORT_IP4 k) != 0
  let v6 := s.bit (nreg Reg.NET_PORT_CTRL k) 2
  if s.portUp k && decide (7 ≤ s.bootStep) && decide (s.watch.pairsFenced.length < 2) && (if kind < 2 then v4 else v6) then
    s.emit (.neighbour k kind)
  else s

/-! ### Protected paths (R597) -/

/-- A classifier record field. -/
def State.classAddr (s : State) (i : Nat) : Nat := s.rd40 Reg.NET_CLASS_BASE_LO + 64 * i
def State.cf (s : State) (i off n : Nat) : Nat := s.rdM (s.classAddr i + off) n
/-- An address field, in network order. -/
def State.cfBE (s : State) (i off n : Nat) : Nat := leNat (Memory.bytes s.mem (s.classAddr i + off) n).reverse
def State.cValid (s : State) (i : Nat) : Bool := (s.cf i 0 1).testBit 0
def State.cMerge (s : State) (i : Nat) : Nat := s.cf i 14 2

/-- Classifiers with VALID set, in ascending index. -/
def State.validClasses (s : State) : List Nat :=
  let b := s.rd40 Reg.NET_CLASS_BASE_LO
  (s.mem.filter (fun (c : Host.Cell) => decide (b ≤ c.1) && decide (c.1 < b + 0x400000) && (c.1 - b) % 64 = 0 && c.2.toNat % 2 = 1)).map
    (fun c => (c.1 - b) / 64)

/-- A port carries a path of a DUAL flow of a booked context, or a classifier of a merge pair. -/
def State.portProtected (s : State) (k : Nat) : Bool :=
  s.books.any (fun b => decide (b.1 < 4096) && s.ctxKind b.1 = 2 && s.outFlow b.1 != 0xFFFF
    && (s.ff (s.outFlow b.1) 0 1).testBit 2 && (s.flowPorts (s.outFlow b.1)).contains k)
  || s.validClasses.any (fun i => s.cMerge i != 0xFFFF && (s.cf i 2 2).testBit k)

/-- PATH_LOST (R597). -/
def State.pathLostAt (k : Nat) (s : State) : State :=
  if s.portExists k && !s.bit (nreg Reg.NET_PORT_STATUS k) 0 && s.portProtected k && !s.pathLost.contains k then
    ({ s with pathLost := s.pathLost ++ [k] }).report 0x5C04 noAgent 0 0
  else s

/-- The report ends when no port is lost (R597, R586). -/
def State.pathFound (k : Nat) (s : State) : State :=
  if s.bit (nreg Reg.NET_PORT_STATUS k) 0 && s.pathLost.contains k then
    let s := { s with pathLost := s.pathLost.filter (fun p => p != k) }
    s.whenB s.pathLost.isEmpty (State.endCond 0x5C04 noAgent)
  else s

/-! ### Classification (R331 to R336) -/

/-- A reserved value in a classifier record (R331). -/
def State.classReserved (s : State) (i : Nat) : Bool :=
  let a := s.cf i 1 1
  decide (15 < s.cf i 0 1) || decide (7 < a) || decide (511 < s.cf i 2 2) || decide (4095 < s.cf i 4 2) || decide (8191 < s.cf i 12 2)
    || decide (0xFFFFF < s.cf i 56 4) || decide (s.cf i 60 2 < 1) || decide (150 < s.cf i 60 2) || s.cf i 62 2 != 0
    || (s.cf i 16 4 != 0 && (decide (s.cf i 20 4 < 1500) || decide (16777215 < s.cf i 20 4)))
    || (1 ≤ a && a ≤ 3 && decide (4095 < s.cf i 10 2))

/-- What a record matches on besides its ports (R332). -/
def State.classKey (s : State) (i : Nat) : List Nat :=
  let f := s.cf i 0 1
  [if f.testBit 2 then 1 + s.cf i 4 2 else 0, b2n (f.testBit 3), s.cfBE i 24 (if f.testBit 3 then 16 else 4), s.cf i 6 2]
    ++ (if f.testBit 1 then [1, s.cfBE i 40 (if f.testBit 3 then 16 else 4), s.cf i 8 2] else [0])

/-- The partner of a record is VALID, names it, and agrees with it (R332). -/
def State.mergeOk (s : State) (i : Nat) : Bool :=
  let m := s.cMerge i
  m = 0xFFFF || ((s.cf i 1 1 = 1 || s.cf i 1 1 = 2) && s.cValid m && s.cMerge m = i && s.cf m 1 1 = s.cf i 1 1
    && s.cf m 10 2 = s.cf i 10 2 && s.cf m 12 2 = s.cf i 12 2 && s.cf m 60 2 = s.cf i 60 2)

/-- A record refused under R332, its pair apart. -/
def State.classBad (s : State) (i : Nat) : Bool :=
  s.classReserved i || (s.cMerge i != 0xFFFF && s.cf i 1 1 != 1 && s.cf i 1 1 != 2)
    || s.validClasses.any (fun k => k != i && s.classKey k == s.classKey i && Nat.land (s.cf k 2 2) (s.cf i 2 2) != 0)

/-- A VALID record that no case of R332 refuses. -/
def State.classOn (s : State) (i : Nat) : Bool := s.cValid i && !s.classBad i && s.mergeOk i

/-- A record matches a datagram on its port, VLAN, destination and source (R333). -/
def State.classMatch (s : State) (d : Datagram) (i : Nat) : Bool :=
  let f := s.cf i 0 1
  let n := if d.ipv6 then 16 else 4
  (s.cf i 2 2).testBit d.port && f.testBit 3 = d.ipv6 && s.cfBE i 24 n = d.dst && s.cf i 6 2 = d.dstUdp
    && (!f.testBit 2 || d.vlan = some (s.cf i 4 2))
    && (!f.testBit 1 || (s.cfBE i 40 n = d.src && (s.cf i 8 2 = 0 || s.cf i 8 2 = d.srcUdp)))

/-- The record a datagram is handled by: one with SRC_MATCH first (R333). -/
def State.classify (s : State) (d : Datagram) : Option Nat :=
  let l := s.validClasses.filter (fun i => s.classMatch d i && s.classOn i)
  match l.find? (fun i => (s.cf i 0 1).testBit 1) with
  | some i => some i
  | none => l.head?

/-- Policing (R334): accepted or not. -/
def State.policeAt (i n : Nat) (s : State) : Bool × State :=
  let rate := s.cf i 16 4
  let burst := s.cf i 20 4
  if rate = 0 then (true, s)
  else
    let b := SMap.get (fun _ => (burst, s.now)) s.police i
    let t := min burst (b.1 + (s.now - b.2) * rate * 1000 / 8 / 1000000000)
    if n ≤ t then (true, { s with police := SMap.ins i (t - n, s.now) s.police })
    else
      let s := { s with police := SMap.ins i (t, s.now) s.police }
      (false, (s.bump Reg.NET_RX_POLICED_LAST 1).setBit Reg.NET_EVENT 9)

/-- After a write to the classifier table: a record that has become VALID gets a full bucket, and one that R332 refuses is a
usage event (R332, R334). -/
def State.classWatch (old : State) (agent : Nat) (s : State) : State :=
  s.each (s.validClasses.filter (fun i => !old.cValid i)) (fun i s =>
    let s := { s with police := SMap.del i s.police }
    s.whenB (!s.classOn i) (State.usage 12 agent 2 (s.classAddr i)))

/-! ### Release of coded pictures (R338 to R342) -/

/-- Node and source tide of an element (R349), and its context. -/
def elemTide (e : List Nat) : Nat := leNat (e.take 6).reverse
def elemNode (e : List Nat) : Nat := leNat ((e.drop 6).take 2).reverse
def elemCtxOf (e : List Nat) : Nat := leNat ((e.drop 14).take 2).reverse % 4096

/-- The element of a datagram: the ID of NET_ELEMENT_ID and a length of 16, in a context with CTRL.ELEMENT (R342, R350). -/
def State.elemOf (s : State) (c : Nat) (d : Datagram) : Option (List Nat) :=
  if s.ctrlBit c 0 then
    (d.elems.find? (fun e => e.1 = s.fld Reg.NET_ELEMENT_ID 3 0 && e.2.length = 16)).map (fun e => e.2)
  else none

/-- The header of an ingress bitstream buffer (R340). -/
def dbitHeader (c src node len : Nat) : List Nat :=
  [0x44, 0x42, 0x49, 0x54] ++ leBytes 2 c ++ [0, 0] ++ leBytes 6 src ++ leBytes 2 node ++ leBytes 4 len ++ List.replicate 44 0

/-- A loss map (R340). -/
def lossMap (l : List (Nat × Nat)) : List Nat :=
  [0x4C, 0x4D, 0x41, 0x50] ++ leBytes 4 l.length ++ l.flatMap (fun e => leBytes 4 e.1 ++ leBytes 4 e.2)

/-- Bitstream buffers of a context: ingress class, for its TL_BERTH (R335, R490, R492). -/
def State.bsAlloc (c : Nat) (s : State) : Option Nat × State :=
  let r := s.alloc (s.tlBerth c) (s.tlBerth c) (s.sf c 20 2) .ingress
  (if r.1 = 0 then some r.2.1 else none, r.2.2)

/-- A datagram or picture finds no buffer (R335). -/
def State.noBuffer (s : State) : State := (s.bump Reg.NET_RX_NOBUF_LAST 1).setBit Reg.NET_EVENT 10

/-- The element of a picture is noted: the node, the encode context and the marks of its source tide (R205, R206, R349). -/
def State.noteElem (c : Nat) (elem : Option (List Nat)) (s : State) : State :=
  match elem with
  | some e => (s.setSf c 106 2 (elemNode e)).setDec c { s.dec c with
      elemCtx := elemCtxOf e, marks := ((elemTide e, byteAt e 12, byteAt e 13) :: (s.dec c).marks).take 64 }
  | none => s

/-- What a bitstream buffer takes of a picture: its data, cut where the buffer or the loss map is full, at most 255 losses, and whether
anything was cut (R340, R342). -/
def State.fitted (s : State) (c : Nat) (data : List Nat) (losses : List (Nat × Nat)) : List Nat × List (Nat × Nat) × Bool :=
  let room := s.poolSize (s.sf c 20 2) - 64 - (if losses.isEmpty then 0 else 24 + 8 * min 255 losses.length)
  let cut := match losses[255]? with
    | some l => min room l.1
    | none => room
  (data.take cut, (losses.take 255).filter (fun l => decide (l.1 ≤ (data.take cut).length)),
    decide (cut < data.length) || (losses[255]?).isSome)

/-- The jobs of a coded picture of tide S are posted with tide S + 1; a picture whose ENTROPY_DECODE finds no room is discarded (R341,
R342). -/
def State.postPic (c src addr lm fl : Nat) (s : State) : State :=
  let r := s.post c (descBytes 0x0101 fl c (src % 65536) (src + 1) 0 addr lm 0 0) []
  if r.1 then
    let t := r.2.2.post c (descBytes 0x0102 fl c (src % 65536) (src + 1) 0 0 0 0 0) []
    let d := t.2.2.dec c
    -- a picture whose RECONSTRUCT finds its ring full is LOST, and its tally’s entries go nowhere (R657)
    (t.2.2.setDec c (if t.1 then { d with arrived := (d.arrived ++ [src]).drop (d.arrived.length + 1 - 64) }
      else { d with orphans := (src % 65536 :: d.orphans).take 16 })).dispatch
  else r.2.2.giveBack (s.tlBerth c) addr

/-- A coded picture is released: header, data and loss map written, its jobs posted (R340 to R342). One released after the start of tide
S + 2, or whose queue takes no job, is discarded. The loss map stands in the same buffer after the data. -/
def State.releasePic (c tide addr : Nat) (elem : Option (List Nat)) (data : List Nat) (losses : List (Nat × Nat)) (trunc disc : Bool)
    (s : State) : State :=
  let src := match elem with
    | some e => elemTide e
    | none => tide
  let node := match elem with
    | some e => elemNode e
    | none => 0xFFFF
  let tl := s.tlBerth c
  let s := s.noteElem c elem
  let k := s.fitted c data losses
  if s.ctxKind c ≠ 1 ∨ (s.ctxState c ≠ 1 ∧ s.ctxState c ≠ 2) ∨ src + 2 ≤ s.tideNum then s.giveBack tl addr
  else
    let lm := addr + 64 + (k.1.length + 15) / 16 * 16
    let s := (s.writeMem tl addr (dbitHeader c src node k.1.length ++ k.1)).2
    let s := s.whenB (!k.2.1.isEmpty) (fun s => (s.writeMem tl lm (lossMap k.2.1)).2)
    s.postPic c src addr (if k.2.1.isEmpty then 0 else lm) (2 * b2n disc + 4 * b2n (trunc || k.2.2))

/-- At the start of tide t: source tide t − 2 of a running stream’s cadence is LOST if no coded picture came (R182, R342). -/
def State.countLost (c t : Nat) (s : State) : State :=
  let d := s.dec c
  if s.ctxKind c = 1 && (s.ctxState c = 1 || s.ctxState c = 2) && decide (d.since + 2 ≤ t) && (t - 2) % s.cadD c = s.cadPhi c
      && !d.arrived.contains (t - 2) then s.incSf c 96 else s

/-! ### The demultiplexer (R339, R341) -/

def State.pesAt (s : State) (k : Nat) : PesSt := SMap.get (fun _ => PesSt.reset) s.pes k
def State.setPes (k : Nat) (x : PesSt) (s : State) : State := { s with pes := SMap.set (fun _ => PesSt.reset) s.pes k x }

/-- Fields of a transport packet: PID, unit start, error indicator, continuity counter, payload. -/
def tsPid (p : List Nat) : Nat := byteAt p 1 % 32 * 256 + byteAt p 2
def tsStart (p : List Nat) : Bool := (byteAt p 1).testBit 6
def tsError (p : List Nat) : Bool := (byteAt p 1).testBit 7
def tsCc (p : List Nat) : Nat := byteAt p 3 % 16
def tsPayload (p : List Nat) : List Nat :=
  if (byteAt p 3).testBit 4 then p.drop (4 + (if (byteAt p 3).testBit 5 then 1 + byteAt p 4 else 0)) else []

/-- Elementary stream bytes at the start of a PES packet. -/
def pesBody (l : List Nat) : List Nat := l.drop (9 + byteAt l 8)

/-- A packet needs a bitstream buffer: it starts a PES packet. -/
def needsBuffer (p : List Nat) : Bool := tsStart p && !(tsPayload p).isEmpty && !tsError p

/-- One packet of the video PID under key k for context c, arrived in tide t; `buf` is the buffer of a PES packet it starts (R127,
R339). Answers the number of packets missing before it. -/
def State.pesPacket (k c t : Nat) (buf : Option Nat) (elem : Option (List Nat)) (p : List Nat) (s : State) : Nat × State :=
  let x := s.pesAt k
  let pay := tsPayload p
  if pay.isEmpty || (x.cc = some (tsCc p) && !tsError p) then (0, s)
  else
    let gap := match x.cc with
      | some v => (tsCc p + 31 - v) % 16
      | none => 0
    let miss := gap + b2n (tsError p)
    let x := { x with cc := some (tsCc p), losses := if miss = 0 then x.losses else x.losses ++ [(x.data.length, miss)]
                      disc := x.disc || (miss != 0 && !x.isOpen) }
    if tsError p then (gap, s.setPes k x)
    else if tsStart p then
      let s := s.setPes k { PesSt.reset with isOpen := buf.isSome, addr := buf.getD 0, data := pesBody pay, cc := x.cc, tide := t
                                             elem := elem, disc := decide (gap ≠ 0) }
      (gap, if x.isOpen then s.releasePic c x.tide x.addr x.elem x.data x.losses (decide (gap ≠ 0)) x.disc else s)
    else
      (gap, s.setPes k { x with data := if x.isOpen then x.data ++ pay else [], tide := max x.tide t
                                elem := if x.elem.isSome then x.elem else elem })

/-- Cut bytes into transport packets. -/
def tsPackets : Nat → List Nat → List (List Nat)
  | 0, _ => []
  | n + 1, l => if l.length < 188 then [] else l.take 188 :: tsPackets n (l.drop 188)

/-- Transport packets from the network (actions 2 and 3), arrived in tide t. -/
def State.tsNet (k i t : Nat) (elem : Option (List Nat)) (data : List Nat) (s : State) : State :=
  let c := s.cf i 10 2
  if data.length % 188 ≠ 0 then s.setSf c 92 4 (s.sf c 92 4 + 1)
  else
    s.each (tsPackets (data.length / 188) data) (fun p s =>
      if tsPid p ≠ s.cf i 12 2 then s
      else if needsBuffer p then
        let r := s.bsAlloc c
        let s := if r.1.isNone then r.2.noBuffer else r.2
        (s.pesPacket k c t r.1 elem p).2
      else (s.pesPacket k c t none elem p).2)

/-! ### Ordering and merging (R337) -/

def State.rxAt (s : State) (k : Nat) : RxSt := SMap.get (fun _ => RxSt.reset) s.rx k
def State.setRx (k : Nat) (x : RxSt) (s : State) : State := { s with rx := SMap.set (fun _ => RxSt.reset) s.rx k x }

/-- The sequence space of a classifier: a pair shares that of its lower number. -/
def State.rxKey (s : State) (i : Nat) : Nat := if s.cMerge i = 0xFFFF then i else min i (s.cMerge i)

/-- A sequence number extended to 32 bits and more: nearest the highest seen. -/
def extSeq (top : Option Nat) (q : Nat) : Nat :=
  match top with
  | none => 65536 + q % 65536
  | some t => ((t : Int) + signed 16 (q + 65536 - t % 65536)).toNat

/-- A packet in its place. -/
def insPkt (p : RxPkt) : List RxPkt → List RxPkt
  | [] => [p]
  | x :: xs => if p.seq < x.seq then p :: x :: xs else x :: insPkt p xs

def RxPic.first (p : RxPic) : Nat := (p.pkts.head?.map (fun x => x.seq)).getD 0
def RxPic.marked (p : RxPic) : Bool := p.pkts.any (fun x => x.marker)
/-- The marker’s number, or the highest held. -/
def RxPic.final (p : RxPic) : Nat :=
  match p.pkts.find? (fun x => x.marker) with
  | some x => x.seq
  | none => (p.pkts.getLast?.map (fun x => x.seq)).getD 0

/-- Numbers of a picture not held, from `f` on. -/
def RxPic.missing (p : RxPic) (f : Nat) : List Nat :=
  ((List.range (p.final + 1 - f)).map (· + f)).filter (fun n => !(p.pkts.any (fun x => x.seq = n)))

/-- The packets of a picture depacketised in order, from number `f` on (R338, R341). -/
def depackFrom (codec : Nat) : Nat → List RxPkt → Depack → Depack
  | _, [], d => d.close
  | f, p :: ps, d => depackFrom codec (p.seq + 1) ps (d.packet codec (p.seq - f) p.data)

/-- The oldest picture held. -/
def oldestPic : List RxPic → Option RxPic
  | [] => none
  | p :: ps =>
    match oldestPic ps with
    | some q => if q.first < p.first then some q else some p
    | none => some p

/-- Release what is due, in sequence order: complete pictures, and with PD_MAX past the rest; `all` releases the oldest
whatever the time (R337). -/
def State.rxRelease (k i : Nat) : Nat → Bool → State → State
  | 0, _, s => s
  | fuel + 1, all, s =>
    let x := s.rxAt k
    match oldestPic x.pics with
    | none => s
    | some p =>
      let f := x.next.getD p.first
      let miss := p.missing f
      let due := match p.since with
        | some t => all || decide (t + s.cf i 60 2 * 1000000 ≤ s.now)
        | none => false
      if (p.marked && miss.isEmpty) || due then
        let s := s.setRx k { x with
          next := some (p.final + 1), pics := x.pics.filter (fun y => y.ts != p.ts), lost := (miss ++ x.lost).take 4096 }
        let s := if miss.isEmpty then s
          else (s.bump Reg.NET_MERGE_BOTH_LOST_LAST miss.length).setBit Reg.NET_EVENT 11
        let c := s.cf i 10 2
        let s := if s.cf i 1 1 = 2 then s.each p.pkts (fun y s => s.tsNet k i y.tide y.elem y.data)
          else
            let d := depackFrom (s.codec c) f p.pkts (Depack.start (s.codec c))
            (s.setSf c 92 4 (s.sf c 92 4 + d.ignored)).releasePic c p.tide p.addr
              ((p.pkts.find? (fun y => y.elem.isSome)).bind (fun y => y.elem)) d.out d.losses (!p.marked) (decide (f < p.first))
        State.rxRelease k i fuel false s
      else s

/-- The source of the last packet of a stream on a path of its merge pair (R351). -/
def State.notePath (i : Nat) (d : Datagram) (s : State) : State :=
  let c := s.cf i 10 2
  if 4096 ≤ c then s
  else s.setDec c { s.dec c with paths := ((i, d.port, d.src) :: (s.dec c).paths.filter (fun p => p.1 != i)).take 2 }

/-- A packet joins the pictures held: its own, new or known, and those that a later packet or a marker starts the window of (R336 to
R338). -/
def RxSt.take (x : RxSt) (p : RxPic) (n ts now : Nat) (marker : Bool) : RxSt :=
  let later := fun (a b : Nat) => decide (signed 32 (a + two32 - b % two32) < 0)
  let p := { p with since := if p.since.isNone && marker then some now else p.since }
  let rest := (x.pics.filter (fun y => y.ts != ts)).map (fun y => if y.since.isNone && later y.ts ts then { y with since := some now } else y)
  let p := { p with since := if p.since.isNone && rest.any (fun y => later p.ts y.ts) then some now else p.since }
  { x with pics := rest ++ [p], top := some (match x.top with
    | some t => max t n
    | none => n) }

/-- A packet is placed in its picture, whose bitstream buffer is at `a` when the picture is new. -/
def State.rxPlace (k i n a : Nat) (d : Datagram) (s : State) : State :=
  let x := s.rxAt k
  let p := (x.pics.find? (fun p => p.ts = d.ts)).getD { ts := d.ts, addr := a, pkts := [], tide := 0, since := none }
  let y := { seq := n, data := d.data, marker := d.marker, elem := s.elemOf (s.cf i 10 2) d, tide := s.tideNum }
  (s.setRx k (x.take { p with pkts := insPkt y p.pkts, tide := s.tideNum } n d.ts s.now d.marker)).rxRelease k i (x.pics.length + 2) false

/-- An RTP packet of a classifier of action 1 or 2 (R336, R337). -/
def State.rxPacket (i : Nat) (d : Datagram) (s : State) : State :=
  let k := s.rxKey i
  let x := s.rxAt k
  let n := extSeq x.top d.seq
  let old := match x.next with
    | some m => decide (n < m)
    | none => false
  if old && x.lost.contains n then s.setRx k { x with lost := x.lost.filter (fun m => m != n) }
  else if old || x.pics.any (fun p => p.pkts.any (fun y => y.seq = n)) then s.bump Reg.NET_MERGE_DUP_LAST 1
  else if s.cf i 1 1 = 1 && !x.pics.any (fun p => p.ts = d.ts) then
    let r := s.bsAlloc (s.cf i 10 2)
    match r.1 with
    | none => r.2.noBuffer
    | some a => r.2.rxPlace k i n a d
  else s.rxPlace k i n 0 d

/-- MERGE_WINDOW_EXPIRY: PD_MAX has passed for the oldest picture held (R337). -/
def State.mergeExpiry (i : Nat) (s : State) : State :=
  if s.classOn i && (s.cf i 1 1 = 1 || s.cf i 1 1 = 2) then s.rxRelease (s.rxKey i) i ((s.rxAt (s.rxKey i)).pics.length + 1) true else s

/-! ### Refresh requests received (R352) -/

/-- A big-endian field of a payload. -/
def beN (l : List Nat) (i n : Nat) : Nat := leNat ((List.range n).map (fun k => byteAt l (i + n - 1 - k)))

/-- A datagram of a FEEDBACK classifier (R351, R352). -/
def State.feedback (p : List Nat) (s : State) : State :=
  let c := beN p 14 2
  if p.length = 28 && beN p 0 1 = 0x81 && beN p 1 1 = 204 && beN p 2 2 = 6 && beN p 8 4 = 0x544E4642 && beN p 12 2 = s.fld Reg.NET_NODE 15 0
      && decide (c < 4096) && s.ctxKind c = 2 && s.ctxState c = 2 && s.ctrlBit c 0 then
    (s.refreshAsked c (beN p 16 6)).setBit Reg.NET_EVENT 12
  else s.bump Reg.NET_FB_BAD_LAST 1

/-! ### Datagrams (R333, R335) -/

/-- A message of a STORM classifier: RMP messages of command STORM only (R353, R359). -/
def State.stormFlow (d : Datagram) (s : State) : State :=
  let p := d.data
  let n := bodyN p 12 2
  if bodyN p 0 2 = 0x4D52 && byteAt p 2 = 1 && bodyN p 8 2 = 0x13 && n + 16 = p.length && decide (n ≤ 1400) && s.boot.arm then
    let q : Req := { via := .net, addr := d.src * 65536 + d.srcUdp, seq := bodyN p 4 4, noReply := (byteAt p 3).testBit 1 }
    s.rmpRun q 0x13 .operational (fun s =>
      let r := s.stormMsg (p.drop 16)
      (r.1, r.2.1, r.2.2.2.whenB r.2.2.1 (State.setBit Reg.NET_EVENT 13)))
  else s

/-- A datagram of action 7: into a buffer of the record’s context’s BS_POOL, to the host’s queue (R335, R380). -/
def State.toHost (i : Nat) (d : Datagram) (s : State) : State :=
  let r := s.alloc hostAgent hostAgent (s.sf (s.cf i 10 2) 20 2) .ingress
  if r.1 ≠ 0 then r.2.2.noBuffer
  else (r.2.2.writeMem hostAgent r.2.1 d.data).2.deliver (s.cf i 56 4 % 1048576) 1 i d.data.length r.2.1 s.tideNum

/-- An arriving datagram (R329, R333 to R335). -/
def State.ingress (d : Datagram) (s : State) : State :=
  if !s.portUp d.port then s
  else
    let s := (s.bump (nreg Reg.NET_PORT_FEC_CORR_LAST d.port) d.fecCorr).bump (nreg Reg.NET_PORT_FEC_UNCORR_LAST d.port) d.fecBad
    if !d.fcsOk then s.bump (nreg Reg.NET_PORT_FCS_ERR_LAST d.port) 1
    else if 9022 < d.frame then s
    else
      let s := s.bump (nreg Reg.NET_PORT_RX_BYTES_LAST d.port) d.frame
      let i := if d.proto = 0 && !d.fragment then s.classify d else none
      match i with
      | some i =>
        let r := s.policeAt i d.len
        let s := r.2
        if !r.1 then s
        else
          match s.cf i 1 1 with
          | 1 | 2 => (s.notePath i d).rxPacket i d
          | 3 => (s.notePath i d).tsNet (s.rxKey i) i s.tideNum (s.elemOf (s.cf i 10 2) d) d.data
          | 4 => s.feedback d.data
          | 5 => s.stormFlow d
          | 7 => s.toHost i d
          | _ => s
      | none => if d.proto = 1 || d.proto = 2 then s else s.bump Reg.NET_RX_UNMATCHED_LAST 1

/-! ### Sending (R343 to R349) -/

/-- The element of a sent picture but for TX_OFS: TIDE, NODE, FLAGS, SWEEP_ID, CTX (R349). -/
def State.txElem (s : State) (c a : Nat) : List Nat :=
  let f := Memory.read s.mem (a + 7)
  let t := s.rdM (a + 8) 6
  beBytes 6 t ++ beBytes 2 (s.fld Reg.NET_NODE 15 0)
    ++ [b2n (f.testBit 0) * 128 + b2n (f.testBit 1) * 64 + b2n (f.testBit 2) * 32 + b2n (f.testBit 5) * 16,
        ((((s.enc c).sweeps.find? (fun x => x.1 = t)).map (fun x => x.2)).getD 0) % 256]
    ++ beBytes 2 c

/-- The RTP timestamp of source tide S (R346). -/
def State.rtpTime (s : State) (f src : Nat) : Nat := (s.startOf src * 9 / 100000 + s.ff f 8 4) % two32

/-- IP payload bytes a datagram may hold after its IP header: the paths of a flow carry identical payloads, so the longer header
counts (R345, R347). -/
def State.flowRoom (s : State) (f : Nat) : Nat :=
  let v6 := (s.ff f 33 1).testBit 0 || ((s.ff f 0 1).testBit 2 && (s.ff f 81 1).testBit 0)
  s.ff f 12 2 - (if v6 then 40 else 20)

def State.flowTsAt (s : State) (f : Nat) : FlowTs := SMap.get (fun _ => FlowTs.reset) s.flowTs f

/-- The transport packets of a picture: PAT and PMT before a sweep start and when 100 ms would otherwise pass, then its PES packet, the
first packet with the PCR (R345, R346). -/
def State.tsPicture (s : State) (c f src : Nat) (begins : Bool) (data : List Nat) : List (List Nat) × FlowTs :=
  let x := s.flowTsAt f
  let vid := s.ff f 14 2
  let pmt := s.ff f 16 2
  let tables := begins || (match x.tables with
    | some t => decide (100000000 ≤ s.now - t + (s.startOf (src + s.cadD c) - s.startOf src))
    | none => true)
  let es := pesSplit (pesHeader (s.startOf src * 9 / 100000) ++ data)
  let pk := es.zipIdx.map (fun q => tsPacket vid (x.video + q.2) (q.2 = 0) (if q.2 = 0 then some (pcrField 0) else none) q.1)
  ((if tables then [psiPacket 0 x.pat (patSection f pmt), psiPacket pmt x.pmt (pmtSection (s.codec c) vid)] else []) ++ pk,
    { video := (x.video + es.length) % 16, pat := (x.pat + b2n tables) % 16, pmt := (x.pmt + b2n tables) % 16
      tables := if tables then some s.now else x.tables })

/-- The PCR of the transport packets of a datagram, for the device time at which it leaves. -/
def stampPcr (vid ns : Nat) (l : List (List Nat)) : List Nat :=
  l.flatMap (fun p =>
    if tsPid p = vid && (byteAt p 3).testBit 5 && decide (7 ≤ byteAt p 4) && (byteAt p 5).testBit 4 then
      p.take 5 ++ pcrField ns ++ p.drop 12
    else p)

/-- The payloads of a picture’s datagrams, after RTP and its extension: those of a codec format, or transport packets (R345). -/
def State.txPayloads (s : State) (c f a : Nat) : List (List (List Nat)) × FlowTs :=
  let data := (Memory.bytes s.mem (a + 64) (s.rdM (a + 16) 4))
  let fl := Memory.read s.mem (a + 7)
  let pay := s.ff f 0 1 % 4
  let rtp := if pay = 2 then 0 else 12 + (if s.ctrlBit c 0 then 24 else 0)
  let room := s.flowRoom f - 8 - rtp
  let codec := s.codec c
  if pay = 0 then
    ((if codec = 4 then obuPackets room (fl.testBit 2) (obus data.length data) else nalPackets codec room (nals data)).map (fun p => [p]),
      s.flowTsAt f)
  else
    let r := s.tsPicture c f (s.rdM (a + 8) 6) (fl.testBit 0) data
    (chunks (min 7 (room / 188)) r.1.length r.1, r.2)

/-- A datagram’s UDP payload: RTP header, extension with the element, payload (R346, R349). -/
def State.txDatagram (s : State) (c f src : Nat) (el : List Nat) (seq : Nat) (last : Bool) (ns : Nat) (p : List (List Nat)) : List Nat :=
  let pay := s.ff f 0 1 % 4
  let body := if pay = 0 then p.flatMap (fun x => x) else stampPcr (s.ff f 14 2) ns p
  if pay = 2 then body
  else
    let on := s.ctrlBit c 0
    rtpHeader on last (if pay = 1 then 33 else s.ff f 2 1) seq (s.rtpTime f src) (s.ff f 4 4)
      ++ (if on then elemBlock (s.fld Reg.NET_ELEMENT_ID 3 0) el (ns - s.startOf src) else []) ++ body

/-- Bytes of the frame of a datagram of n UDP payload bytes on a path, FCS and VLAN tag included (R329). -/
def State.frameBytes (s : State) (f path n : Nat) : Nat :=
  let o := 32 + 48 * path
  max 64 (n + 8 + (if (s.ff f (o + 1) 1).testBit 0 then 40 else 20) + 18 + (if (s.ff f (o + 4) 2).testBit 12 then 4 else 0))

/-- The first moment, from the beginning of these gate intervals, at which gate g stays open for dur ns; `run` is when it opened. -/
def gateGap (g dur : Nat) : List (Nat × Nat) → Nat → Option Nat → Option Nat
  | [], _, _ => none
  | (m, n) :: es, e, run =>
    if m.testBit g then
      if run.getD e + dur ≤ e + n then some (run.getD e) else gateGap g dur es (e + n) (some (run.getD e))
    else gateGap g dur es (e + n) none

/-- The first device time from t on at which a packet of dur ns may start through the gate of queue q; none while the gate stays closed
(R398, R400). -/
def State.gateFrom (s : State) (q t dur : Nat) : Option Nat :=
  let v := s.qf q 14 1
  let k := bits v 3 0
  let x := s.gate k
  if !v.testBit 7 then some t
  else if x.oper && s.bit (Reg.HM_GATE_CTRL + 0x40 * k) 0 then
    let cyc := max 1 (gateCycle x.entries)
    let o := (((t : Int) - (x.change : Int)) % (cyc : Int)).toNat
    let e := gateEntry x.entries o 0
    let gone := gateCycle (x.entries.take e.1)
    let rest := (e.2, (x.entries.getD e.1 (0, 0)).2 - (o - gone)) :: x.entries.drop (e.1 + 1)
    (gateGap (bits v 6 4) dur (rest ++ x.entries ++ x.entries) 0 none).map (fun d => t + d)
  else if s.gateOpen q then some t else none

/-- When the packets of a job leave: not before the time the engine takes for each, no faster than PACE from the start of the job, and
through the queue’s gate (R348, R400). -/
def State.txTimes (s : State) (q c f start : Nat) (times : List Nat) : Nat → List Nat → List (Option Nat)
  | _, [] => []
  | sent, n :: ns =>
    let t := max (times.head?.getD 0) (start + cdiv (sent * 8 * 1000000000) (max 1 (s.flowPace f c)))
    let line := ((s.flowPorts f).map (fun k => s.lineRate k)).foldl min 100000000000
    s.gateFrom q t (cdiv (s.frameBytes f 0 n * 8 * 1000000000) (max 1 line))
      :: s.txTimes q c f start (times.drop 1) (sent + n + 8 + (s.ff f 12 2 - s.flowRoom f)) ns

/-- Packets leave on one path: sent while its link is up, otherwise dropped; those unsent are dropped (R330, R348). -/
def State.sendOn (u f src path unsent : Nat) (l : List (List Nat)) (s : State) : State :=
  let o := 32 + 48 * path
  let k := s.ff f o 1
  let s := if unsent = 0 then s else s.bump (nreg Reg.NET_PORT_TX_DROP_LAST k) unsent
  let n := l.length
  if n = 0 then s
  else if s.portUp k then
    let b := (l.map (fun p => s.frameBytes f path p.length)).foldl (· + ·) 0
    ((((s.bump (nreg Reg.NET_PORT_TX_BYTES_LAST k) b).bump (ucb u Reg.EG_PKTS_LAST) n).sndCount u 0x600 n).sndCount u 0x601 b).emit (.packets k f src (Memory.bytes s.mem (s.flowAddr f + o) 48) l)
  else s.bump (nreg Reg.NET_PORT_TX_DROP_LAST k) n

/-- The datagrams of a TRANSMIT job with the times at which they leave. -/
def State.txPlan (s : State) (j : Job) (times : List Nat) : List (List Nat × Option Nat) :=
  let c := j.ctx
  let f := s.outFlow c
  let a := j.s0 % two40
  let q := SMap.get (fun _ => 0) s.flowSeq f
  let src := s.rdM (a + 8) 6
  let l := (s.txPayloads c f a).1
  let dg := fun (i ns : Nat) (p : List (List Nat)) => s.txDatagram c f src (s.txElem c a) ((q + i) % 65536) (i + 1 = l.length) ns p
  let ts := s.txTimes j.queue c f j.startNs times 0 (l.zipIdx.map (fun p => (dg p.2 0 p.1).length))
  (l.zip ts).zipIdx.map (fun p => (dg p.2 (p.1.2.getD 0) p.1.1, p.1.2))

/-- The datagrams of a picture leave, on path A and with DUAL on path B alike; `n` of them are not sent (R345 to R348). -/
def State.sendPic (u : Nat) (j : Job) (l : List (List Nat)) (n : Nat) (s : State) : State :=
  let f := s.outFlow j.ctx
  let a := j.s0 % two40
  let src := s.rdM (a + 8) 6
  let q := SMap.get (fun _ => 0) s.flowSeq f
  let ts := (s.txPayloads j.ctx f a).2
  let s := s.each (List.range (s.flowPorts f).length) (fun k => State.sendOn u f src k n l)
  { s with flowSeq := SMap.set (fun _ => 0) s.flowSeq f ((q + l.length + n) % 65536)
           flowTs := SMap.set (fun _ => FlowTs.reset) s.flowTs f ts }

/-- TRANSMIT: the picture is sent and its buffer freed (R344); packets held behind a closed gate keep the job running (R400). -/
def State.transmit (times : List Nat) (u : Nat) (j : Job) (s : State) : State :=
  if j.s0 = 0 then s.abandonJob u 0x21
  else
    let l := s.txPlan j times
    if l.any (fun p => p.2.isNone) then s
    else (((s.sendPic u j (l.map (fun p => p.1)) 0).giveBack u (j.s0 % two40)).endJob u 0)

/-- The completion deadline of the current tide: what still runs completes DEADLINE_MISSED, its unsent packets discarded and its buffer
freed (R348). A packet has been sent when the operand gives its time and it could leave by now. -/
def State.txDeadline (outs : List (Nat × List Nat)) (s : State) : State :=
  s.each ((unitsOf .egress).filter (fun u => (s.jobAt u 0x0401).isSome)) (fun u s =>
    match s.jobAt u 0x0401 with
    | some j =>
      let times := ((outs.find? (fun p => p.1 = u)).map (fun p => p.2)).getD []
      let l := s.txPlan j times
      let go := (l.take times.length).filter (fun p => p.2.any (fun t => decide (t ≤ s.now)))
      ((s.sendPic u j (go.map (fun p => p.1)) (l.length - go.length)).giveBack u (j.s0 % two40)).endJob u 0x30
    | none => s)

/-- EG_STATUS and EG_BOOKED (R370). -/
def State.viewEgStatus (s : State) (u : Nat) : Nat :=
  match s.jobAt u 0x0401 with
  | some j => s.outFlow j.ctx % 4096
  | none => 0
def State.viewEgBooked (s : State) (u : Nat) : Nat := s.engineRate u / 1000000

/-! ### Feeder ports (R360 to R367) -/

def freg (r n : Nat) : Nat := r + 0x100 * n
def State.feed (s : State) (n : Nat) : FeedSt := SMap.get (fun _ => FeedSt.reset) s.feeds n
def State.setFeed (n : Nat) (x : FeedSt) (s : State) : State := { s with feeds := SMap.set (fun _ => FeedSt.reset) s.feeds n x }

/-- FPn_HOLD (R362). -/
def State.feedHold (s : State) (n : Nat) : Bool :=
  s.bit (freg Reg.FEED_CTRL n) 4 && (s.bit (freg Reg.FEED_FIFO_STATUS n) 18 || !s.bit (freg Reg.FEED_CTRL n) 0)

/-- The status word follows the FIFO, and HOLD follows the status word (R74, R362, R363). -/
def State.feedShow (n : Nat) (s : State) : State :=
  let o := freg Reg.FEED_FIFO_STATUS n
  let k := (s.feed n).fifo.length
  let s := s.wr o (fifoStatus (s.rd o) (s.rd (freg Reg.FEED_FIFO_WM n)) 256 k k)
  let h := s.feedHold n
  let x := s.feed n
  if h = s.bit (freg Reg.FEED_STATUS n) 3 then s
  else
    let s := (s.putBit (freg Reg.FEED_STATUS n) 3 h).setBit (freg Reg.FEED_EVENT n) 0
    if h then s.setFeed n { x with holdFrom := some s.now }
    else
      (s.bump (freg Reg.FEED_HOLD_LAST n) (match x.holdFrom with
        | some t => (s.now - t) / 1000
        | none => 0)).setFeed n { x with holdFrom := none }

/-- At a tide boundary the time HOLD has been 1 goes to the tide that ends (R371). -/
def State.feedTide (n : Nat) (s : State) : State :=
  match (s.feed n).holdFrom with
  | some t => (s.bump (freg Reg.FEED_HOLD_LAST n) ((s.now - t) / 1000)).setFeed n { s.feed n with holdFrom := some s.now }
  | none => s

/-- A packet at a feeder port (R360, R361, R364). `sync`: the byte positions at which SYNC was 1. -/
def State.feederPacket (n : Nat) (bytes sync : List Nat) (nextSync : Bool) (s : State) : State :=
  let st := freg Reg.FEED_STATUS n
  if !s.bit (freg Reg.FEED_CTRL n) 0 then s
  else
    let s := s.setBit st 1
    let len := if s.bit (freg Reg.FEED_CTRL n) 3 then 204 else 188
    let x := s.feed n
    if bytes.head? = some 0x47 && sync = [0] && nextSync && bytes.length = len then
      if !s.bit st 0 then
        if 2 ≤ x.good then ((s.setBit st 0).setBit (freg Reg.FEED_EVENT n) 2).setFeed n { x with good := 0, bad := 0 }
        else s.setFeed n { x with good := x.good + 1, bad := 0 }
      else if 256 ≤ x.fifo.length then
        (((s.setBit (freg Reg.FEED_FIFO_STATUS n) 20).setBit (freg Reg.FEED_EVENT n) 1).bump (freg Reg.FEED_OVERRUN_LAST n) 1).setFeed n
          { x with bad := 0 }
      else
        (((s.setFeed n { x with fifo := x.fifo ++ [(s.tideNum, bytes.take 188)], bad := 0 }).bump (freg Reg.FEED_PKTS_LAST n) 1).clrBit st 2).feedShow n
    else
      let s := s.bump (freg Reg.FEED_SYNC_ERR_LAST n) 1
      if s.bit st 0 && decide (2 ≤ x.bad) then
        ((s.clrBit st 0).setBit (freg Reg.FEED_EVENT n) 2).setFeed n { x with good := 0, bad := 0 }
      else s.setFeed n { x with good := 0, bad := x.bad + 1 }

/-- Filters of a feeder port that take a packet: filter, context (R366). -/
def State.feedFilters (s : State) (n : Nat) (p : List Nat) : List (Nat × Nat) :=
  if tsPid p = 0x1FFF then []
  else
    ((List.range 8).filter (fun k =>
      let v := s.rd (freg Reg.FEED_PID n + 4 * k)
      v.testBit 13 && bits v 12 0 = tsPid p)).map (fun k => (k, s.fld (freg Reg.FEED_PID n + 4 * k) 27 16))

/-- Buffers for every filter that needs one; none if some pool gives none (R362). -/
def State.feedBufs : List (Nat × Nat) → State → Option (List (Nat × Nat × Nat)) × State
  | [], s => (some [], s)
  | (k, c) :: l, s =>
    let r := s.bsAlloc c
    match r.1 with
    | none => (none, r.2)
    | some a =>
      let t := State.feedBufs l r.2
      match t.1 with
      | some m => (some ((k, c, a) :: m), t.2)
      | none => (none, t.2.giveBack (t.2.tlBerth c) a)

/-- DEMUX_READ: the demultiplexer reads a packet in DEMUX mode while EMPTY is 0, unless it can allocate no buffer (R339,
R362, R366). -/
def State.demuxRead (n : Nat) (s : State) : State :=
  let x := s.feed n
  if s.bit (freg Reg.FEED_CTRL n) 1 then s
  else
    match x.fifo with
    | [] => s
    | (t, p) :: ps =>
      let fs := s.feedFilters n p
      let r := if needsBuffer p then State.feedBufs fs s else (some (fs.map (fun f => (f.1, f.2, 0))), s)
      match r.1 with
      | none => r.2
      | some l =>
        let s := (r.2.setFeed n { r.2.feed n with fifo := ps, word := 0 }).feedShow n
        s.each l (fun f s =>
          let y := s.pesPacket (65536 + n * 8 + f.1) f.2.1 t (if needsBuffer p then some f.2.2 else none) none p
          if y.1 = 0 then y.2 else y.2.bump (freg Reg.FEED_CC_ERR_LAST n) 1)

/-- A read of FEEDn_DATA (R365). -/
def State.feedData (n : Nat) (s : State) : Nat × State :=
  let x := s.feed n
  if !s.bit (freg Reg.FEED_CTRL n) 1 then (x.last, s)
  else
    match x.fifo with
    | [] => (x.last, s.setBit (freg Reg.FEED_FIFO_STATUS n) 19)
    | (_, p) :: ps =>
      let v := leNat ((p.drop (4 * x.word)).take 4)
      let y := if 46 ≤ x.word then { x with fifo := ps, word := 0, last := v } else { x with word := x.word + 1, last := v }
      (v, (s.setFeed n y).feedShow n)

/-- FEEDER_SILENT (R365). -/
def State.feederSilent (n : Nat) (s : State) : State :=
  if s.bit (freg Reg.FEED_CTRL n) 0 && !s.bit (freg Reg.FEED_STATUS n) 2 then
    (s.setBit (freg Reg.FEED_STATUS n) 2).setBit (freg Reg.FEED_EVENT n) 3
  else s

/-- HOLD_SHORT: recorded, and the driver turned off for 10 ms; a driver that is off shows no difference (R367). -/
def State.holdShort (n : Nat) (s : State) : State :=
  if (s.feed n).driverOff.any (fun t => decide (s.now < t)) then s
  else
    let s := (s.setBit (freg Reg.FEED_PIN_DIAG n) 16).setBit (freg Reg.FEED_EVENT n) 4
    (s.setFeed n { s.feed n with driverOff := some (s.now + 10000000) }).report 0x3C02 noAgent 0 0

/-- FEEDER_PIN_TEST with FPn_CLK idle for 10 ms: inputs that follow the test pull are OPEN (R367). -/
def State.pinTest (n pins : Nat) (s : State) : State :=
  let s := s.clrBit (freg Reg.FEED_STATUS n) 1
  let old := s.fld (freg Reg.FEED_PIN_DIAG n) 10 0
  let s := s.wrFld (freg Reg.FEED_PIN_DIAG n) 10 0 pins
  if Nat.land (pins % 2048) (2047 - old) ≠ 0 then (s.setBit (freg Reg.FEED_EVENT n) 4).report 0x3C02 noAgent 0 0 else s

/-! ### Meanings -/

/-- NET_LINK_CHANGE (R330). -/
def execNetLinkChange (port : Nat) (up fec localFault remoteFault : Bool) (speed : Nat) (s : State) : Host.Outcome State Fault Refusal :=
  .next (s.linkChange port up fec localFault remoteFault speed)
/-- INGRESS_DATAGRAM (R333). -/
def execIngressDatagram (d : Datagram) (s : State) : Host.Outcome State Fault Refusal := .next (s.ingress d)
/-- MERGE_WINDOW_EXPIRY (R337). -/
def execMergeWindowExpiry (classifier : Nat) (s : State) : Host.Outcome State Fault Refusal := .next (s.mergeExpiry (classifier % 65536))
/-- NEIGHBOUR_REQUEST_RX (R333). -/
def execNeighbourRequestRx (port kind : Nat) (s : State) : Host.Outcome State Fault Refusal := .next (s.neighbourRx port kind)
/-- FEEDBACK_RX (R352). -/
def execFeedbackRx (payload : List Nat) (s : State) : Host.Outcome State Fault Refusal := .next (s.feedback payload)
/-- TRANSMIT (R344). -/
def execTransmit (unit : Nat) (times : List Nat) (s : State) : Host.Outcome State Fault Refusal :=
  .next (s.runJob unit 0x0401 false (fun j s => s.transmit times unit j))
/-- COMPLETION_DEADLINE (R348). -/
def execCompletionDeadline (outs : List (Nat × List Nat)) (s : State) : Host.Outcome State Fault Refusal := .next (s.txDeadline outs)
/-- FEEDER_PACKET (R361). -/
def execFeederPacket (port : Nat) (bytes sync : List Nat) (nextSync : Bool) (s : State) : Host.Outcome State Fault Refusal :=
  .next (s.feederPacket (port % 2) bytes sync nextSync)
/-- DEMUX_READ (R339). -/
def execDemuxRead (port : Nat) (s : State) : Host.Outcome State Fault Refusal := .next (s.demuxRead (port % 2))
/-- FEEDN_DATA_READ (R365). -/
def execFeednDataRead (agent port : Nat) (s : State) : Host.Outcome State Fault Refusal :=
  let r := s.feedData (port % 2)
  .next (r.2.emit (.readData agent (freg Reg.FEED_DATA (port % 2)) r.1))
/-- FEEDER_SILENT (R365). -/
def execFeederSilent (port : Nat) (s : State) : Host.Outcome State Fault Refusal := .next (s.feederSilent (port % 2))
/-- HOLD_SHORT (R367). -/
def execHoldShort (port : Nat) (s : State) : Host.Outcome State Fault Refusal := .next (s.holdShort (port % 2))
/-- FEEDER_PIN_TEST (R367). -/
def execFeederPinTest (port pins : Nat) (s : State) : Host.Outcome State Fault Refusal := .next (s.pinTest (port % 2) pins)
/-- PATH_LOST (R597). -/
def execPathLost (port : Nat) (s : State) : Host.Outcome State Fault Refusal := .next (s.pathLostAt port)
/-- PATH_LOST_ENDS (R597). -/
def execPathLostEnds (port : Nat) (s : State) : Host.Outcome State Fault Refusal := .next (s.pathFound port)

end Sys2Proof.Machine
end

