-- ==== Sys2Proof/Machine/Power.lean ====
section
/-! DEFINITION. Power and effort (11_power_and_effort.md: R415 to R441): inputs, samples, the ceiling, the energy bucket,
the governor, clock and power gating, scratchpad banks. -/

namespace Sys2Proof.Machine

/-! ### Inputs (R415 to R419) -/

def InState.code : InState → Nat
  | .absent => 0 | .reversed => 1 | .under => 2 | .ok => 3 | .high => 4 | .tripped => 5

/-- The state of an input at a voltage, with the hysteresis of R415. -/
def inputAt (old : InState) (mv : Int) : InState :=
  let on := old == .ok || old == .high
  if mv < -1000 then .reversed
  else if mv < 18000 then .absent
  else if mv < (if on then 33000 else 35000) then .under
  else if mv < (if old == .high then 78000 else 80000) then .ok
  else .high

def State.input (s : State) (b : Bool) : InputSt := if b then s.power.inB else s.power.inA
def State.setInput (b : Bool) (x : InputSt) (s : State) : State :=
  { s with power := if b then { s.power with inB := x } else { s.power with inA := x } }
/-- Offset of an input’s status register. -/
def inReg (b : Bool) : Nat := if b then Reg.PWR_IN_B_STATUS else Reg.PWR_IN_A_STATUS
/-- Some input is OK. -/
def State.powered (s : State) : Bool := s.power.inA.st == .ok || s.power.inB.st == .ok

/-- The open flash write is abandoned: its slot is erased (R110, R419). -/
def State.abandonFlash (s : State) : State := flashWriteTimeout s

/-- An input enters a state: the event, and the hold-up store taking over or giving back (R419). -/
def State.inputTo (b : Bool) (mv : Int) (st : InState) (s : State) : State :=
  let x := s.input b
  let was := s.powered
  let s := s.setInput b { x with mv, st }
  let s := s.wrFld (inReg b) 2 0 st.code
  let s := s.wr (inReg b + 4) (unsigned 32 mv)
  let s := s.whenB (x.st != st) (State.setBit Reg.PWR_EVENT (b2n b))
  if was && !s.powered then
    let s := { s with power := { s.power with riding := true } }
    ((s.setBit Reg.PWR_EVENT 2).report 0x3303 noAgent 0 0).abandonFlash
  else if s.powered && s.power.riding then
    ({ s with power := { s.power with riding := false } }).inc Reg.PWR_HOLDUP_RIDES
  else s

/-- INPUT_STATE_CHANGE: a voltage crosses a threshold; a tripped input stays TRIPPED (R415, R416). -/
def State.inputChange (b : Bool) (mv : Int) (s : State) : State :=
  let x := s.input b
  s.inputTo b mv (if x.st == .tripped then .tripped else inputAt x.st mv)

/-- Count a trip, saturating at 255 (R416). -/
def State.countTrip (b : Bool) (s : State) : State := s.wrFld (inReg b) 15 8 (min 255 (s.fld (inReg b) 15 8 + 1))

/-- EFUSE_TRIP: only an input that feeds the module can hold its limit (R416). -/
def State.efuseTrip (b : Bool) (s : State) : State :=
  if (s.input b).st == .ok then (s.inputTo b (s.input b).mv .tripped).countTrip b else s

/-- EFUSE_RETRY (R416). -/
def State.efuseRetry (b fault : Bool) (mv : Int) (s : State) : State :=
  if (s.input b).st != .tripped then s
  else if fault then s.countTrip b
  else if inputAt .absent mv == .ok then s.inputTo b mv .ok
  else s

/-- EXPECT of an input (R418). -/
def State.expected (s : State) (b : Bool) : Bool := s.bit Reg.PWR_IN_CTRL (b2n b)

def State.singleFeed (b : Bool) (s : State) : State :=
  let x := s.input b
  if s.expected b && x.st != .ok && !x.single then (s.setInput b { x with single := true }).report 0x3302 noAgent 0 0 else s

def State.singleFeedClears (b : Bool) (s : State) : State :=
  let x := s.input b
  if x.st == .ok then s.setInput b { x with single := false } else s

/-! ### Samples (R420, R423, R426, R434) -/

/-- CARRYING at a sample: the higher of two OK inputs; within 0.3 V, those whose current is not zero (R417). -/
def State.carries (s : State) (b : Bool) (r : PowerReading) : Bool :=
  let mine := if b then r.mvB else r.mvA
  let other := if b then r.mvA else r.mvB
  let ma := if b then r.maB else r.maA
  (s.input b).st == .ok &&
    ((s.input (!b)).st != .ok || decide (other + 300 < mine) || (decide (mine - other ≤ 300) && decide (other - mine ≤ 300) && ma != 0))

/-- POWER_SAMPLE (R420): 1 ms at r.mw mW is r.mw µJ. -/
def State.powerSample (r : PowerReading) (s : State) : State :=
  let s := (s.setInput false { s.input false with mv := r.mvA }).setInput true { s.input true with mv := r.mvB }
  let s := { s with power := { s.power with p3v3 := r.p3v3 } }
  let s := ((s.wr (inReg false + 4) (unsigned 32 r.mvA)).wr (inReg false + 8) r.maA).putBit (inReg false) 3 (s.carries false r)
  let s := ((s.wr (inReg true + 4) (unsigned 32 r.mvB)).wr (inReg true + 8) r.maB).putBit (inReg true) 3 (s.carries true r)
  (((s.wr Reg.PWR_IN_MW r.mw).wr Reg.PWR_HOLDUP_MV r.holdup).wr Reg.PWR_RAIL_MW r.rail).bump Reg.PWR_IN_ENERGY_LAST r.mw

/-- EFFICIENCY_UPDATE: PWR_EFF within 800 to 980 (R426). -/
def State.efficiency (eff fixed : Nat) (s : State) : State :=
  (s.wr Reg.PWR_EFF (max 800 (min 980 eff))).wr Reg.PWR_FIXED_MW fixed

/-- The largest of some readings. -/
def maxInt : List Int → Int → Int
  | [], d => d
  | x :: xs, _ => xs.foldl max x

/-- Upper limit of the grade (R423). -/
def State.gradeLimit (s : State) : Int := if s.ident.variant.testBit 0 then 85 else 80

/-- TEMPERATURE_SAMPLE: the module’s baseplate sensors, the die’s junction sensors and the GDDR6 ports’ temperatures, °C (R421,
R423, R440, R461). An empty list is no new reading. -/
def State.temperature (bases dies : List Int) (ports : List (Nat × Int)) (s : State) : State :=
  let s := s.each ports (fun p s => if p.1 < 17 then s.setPort p.1 { s.port p.1 with temp := p.2 } else s)
  let tb := maxInt bases s.power.tb
  let tj := maxInt dies s.power.tj
  let hot := (dies.findIdx? (fun x => x = tj)).getD (s.fld Reg.PWR_TEMP 19 16)
  let old := s.power
  let s := { s with power := { s.power with tb, tj } }
  let s := s.wr Reg.PWR_TEMP (unsigned 8 tb + unsigned 8 tj * 256 + hot % 16 * 65536)
  let s := if s.gradeLimit < tb then
      (s.setBit Reg.PWR_EVENT 7).whenB (decide (old.tb ≤ s.gradeLimit)) (State.report 0x3304 noAgent 0 0)
    else s
  s.whenB (decide (115 ≤ tj) && decide (old.tj < 115)) (State.report 0x6310 noAgent 0 0)

/-- C_eff in force, W. -/
def State.ceilEff (s : State) : Nat := s.fld Reg.PWR_CEIL_EFF 8 0

/-- POWER_WINDOW: the mean of 10 ms, mW (R434). -/
def State.powerWindow (mw : Nat) (s : State) : State :=
  let c := s.ceilEff * 1000
  if 105 * c < 100 * mw then
    let n := s.power.overRun + 1
    let s := { s with power := { s.power with overNext := true, overRun := n } }
    (s.setBit Reg.PWR_EVENT 6).whenB (decide (n = 100)) (State.report 0x3305 noAgent 0 0)
  else
    let s := { s with power := { s.power with overRun := 0 } }
    if mw ≤ c then ({ s with power := { s.power with above := false, overNext := false } }).clrBit Reg.PWR_GOV_STATUS 4 else s

/-! ### The ceiling, the refill and the governor (R421, R425, R431, R432) -/

/-- C_eff at a tide start (R421), with DERATE when it changes. -/
def State.setCeiling (s : State) : State :=
  let c := s.ceilNow
  (s.whenB (s.ceilEff != c.1) (State.setBit Reg.PWR_EVENT 3)).wr Reg.PWR_CEIL_EFF (c.1 + c.2 * 65536)

/-- The refill of a tide start (R425). -/
def State.refillAtTide (s : State) : State :=
  let r := s.refillFor s.ceilEff
  (s.wr Reg.PWR_REFILL r).bucketAdd (min r (two32 - 1) : Nat)

/-- g_calc of R431 over some booked jobs: highest effort the bucket covers. -/
def State.gCalc (s : State) (l : List (Nat × Nat × Nat × Nat)) : Option Nat :=
  [7, 6, 5, 4, 3, 2, 1, 0].find? (fun e => decide ((s.needOf e l : Int) ≤ s.power.bucket))

/-- Put a value of g in force: the event when it changes, the tides at it (R431, R440). -/
def State.setGov (g : Nat) (short : Bool) (s : State) : State :=
  let old := s.gov
  let s := s.whenB (old != g) (State.setBit Reg.PWR_EVENT 4)
  let s := s.whenB short (State.setBit Reg.PWR_EVENT 5)
  let s := { s with power := { s.power with gTides := if old = g then s.power.gTides else 0 } }
  s.wr Reg.PWR_GOV_STATUS (g + b2n short * 8 + b2n s.power.above * 16 + min 255 s.power.gTides * 256)

/-- The governor at a tide start (R431, R434). -/
def State.governor (s : State) : State :=
  let s := { s with power := { s.power with above := s.power.overNext, gTides := s.power.gTides + 1 } }
  let l := s.booked s.tideNum
  let cap := s.fld Reg.PWR_GOV_CTRL 10 8
  let s := if s.power.above then s.setGov 0 false
    else if s.bit Reg.PWR_GOV_CTRL 0 then
      let c := s.gCalc l
      s.setGov (min (c.getD 0) (min (s.gov + 1) cap)) c.isNone
    else s.setGov cap false
  let s := s.wr Reg.PWR_NEED_LAST (s.needOf s.gov l)
  s.whenB (decide (s.gov < 7)) (State.inc Reg.PWR_GOVERNED_TIDES)

/-- GOVERNOR_RECHECK (R432). -/
def State.governorRecheck (s : State) : State :=
  if !s.running || !s.bit Reg.PWR_GOV_CTRL 0 || s.power.above then s
  else
    let c := s.gCalc s.toDispatch
    let g := c.getD 0
    if g < s.gov || (c.isNone && !s.bit Reg.PWR_GOV_STATUS 3) then s.setGov (min g s.gov) c.isNone else s

/-- PWR_COEF_RESET (R430). -/
def State.coefReset (agent v : Nat) (s : State) : State :=
  if s.armBlocks agent Reg.PWR_COEF_RESET then s.usageReg agent Reg.PWR_COEF_RESET
  else if v.testBit 0 then { s with power := { s.power with coefs := [] } } else s

/-! ### Gating (R435 to R439) -/

def pwrUnit (u : Nat) : Nat := Reg.PWR_UNIT_CTRL + 4 * u
def State.forceOn (s : State) (u : Nat) : Bool := s.bit (pwrUnit u) 0

/-- The berth a unit belongs to: its topmost enclosing group, or itself. -/
def State.rootOf (s : State) : Nat → Nat → Nat
  | 0, u => u
  | n + 1, u =>
    match (s.unit u).parent with
    | some g => s.rootOf n g
    | none => u
def State.berthRoot (s : State) (u : Nat) : Nat := s.rootOf 4096 u

/-- A leaf unit of the module. -/
def isLeaf (u : Nat) : Bool :=
  match unitKind u with
  | some .group => false
  | some _ => true
  | none => false

/-- CLOCK_GATE: idle for CLK_IDLE cycles with no job (R435, R437). -/
def State.clockGate (u : Nat) (s : State) : State :=
  let x := s.unit u
  let free := match (s.unit (s.berthRoot u)).job with
    | some _ => false
    | none => true
  if isLeaf u && x.eng == .idle && x.job.isNone && free && x.pow == .on && !s.forceOn u then s.setUnit u { x with pow := .clockGated }
  else s

/-- A unit whose power R435 keeps gated. -/
def State.mustGate (s : State) (u : Nat) : Bool :=
  let x := s.unit u
  let b := (s.unit (s.berthRoot u)).berth
  (x.eng == .stopped || x.eng == .spare || x.eng == .fenced) && b == .free && !(s.forceOn u && x.eng != .fenced)
    && !s.watch.takeovers.any (fun t => t.2 = u)

/-- UNIT_WAKE: the unit is ON, and heads are looked at again (R436). -/
def State.unitWake (u : Nat) (s : State) : State :=
  if isLeaf u && !s.watch.safe && !s.mustGate u && (s.unit u).eng != .fenced then
    (s.setUnitF u (fun x => { x with pow := .on })).dispatch
  else s

/-- Kinds that deep gating takes (R435). -/
def deepKind (u : Nat) : Bool :=
  match unitKind u with
  | some .gantry | some .tally | some .lane => true
  | _ => false

/-- DEEP_GATE_WAKE: 25 µs before a tide with booked work the unit is being woken (R435, R436). -/
def State.deepWake (u : Nat) (s : State) : State :=
  if deepKind u && (s.unit u).pow == .powerGated && !s.mustGate u && s.bookedWork (s.berthRoot u) (s.tideNum + 1) then s.unitWake u else s

/-- At a tide start: bound units with no booked work in this tide and the next are power-gated (R435). -/
def State.deepGate (s : State) : State :=
  if !s.bit Reg.PWR_GATE_CFG 16 then s
  else
    s.each (leafUnits.filter deepKind) (fun u s =>
      let x := s.unit u
      let r := s.berthRoot u
      if x.eng == .idle && x.job.isNone && (s.unit r).job.isNone && (s.unit r).berth == .bound && !s.forceOn u && !s.bit (pwrUnit u) 1
          && !s.bookedWork r s.tideNum && !s.bookedWork r (s.tideNum + 1) then
        (s.spadGate u).setUnitF u (fun x => { x with pow := .powerGated, micro := Micro.reset })
      else s)

/-- A write of PWR_UNITu_CTRL (R437). -/
def State.unitPwrWrite (u v : Nat) (s : State) : State :=
  if !isLeaf u then s
  else
    let s := s.wr (pwrUnit u) (v % 4)
    let x := s.unit u
    if v.testBit 0 then (if x.eng == .fenced then s else (s.setUnitF u (fun x => { x with pow := .on })).dispatch)
    else if x.eng == .stopped || x.eng == .spare then s.setEng u x.eng
    else s

/-- PWR_UNITu_CTRL as read (R440). -/
def State.viewUnitPwr (s : State) (u : Nat) : Nat := if isLeaf u then s.rd (pwrUnit u) + (s.unit u).pow.code * 65536 else 0

/-- SPAD_BANK_RETENTION (R438). -/
def State.bankRetain (g i : Nat) (s : State) : State :=
  if g < 48 && i < s.fld (spadCtrl g) 22 16 && s.bankSt g i = 2 && !s.bit (spadCtrl g) 8 then s.setBankSt g i 1 else s

/-- An access to a bank turns it ON; an OFF bank then reads as zero (R439). -/
def State.bankAccess (g off : Nat) (s : State) : State := if g < 48 then s.setBankSt g (off / 65536 % 64) 2 else s

/-- A write of PWR_SPADg_CTRL (R438); a KEEP above 64 is refused. Answers whether it was taken. -/
def State.spadCtrlWrite (g v : Nat) (s : State) : Bool × State :=
  if 64 < bits v 6 0 then (false, s)
  else
    let s := s.wr (spadCtrl g) (s.fld (spadCtrl g) 22 16 * 65536 + Nat.land v 0x17F)
    (true, if v.testBit 8 then s.each (List.range 64) (fun i s => s.setBankSt g i 2) else s)

/-- PWR_SPADg_STATEw as read (R440). -/
def State.viewSpad (s : State) (g w : Nat) : Nat := (List.range 16).foldl (fun n j => n + s.bankSt g (16 * w + j) * 4 ^ j) 0

/-! ### Meanings -/

/-- EFUSE_TRIP (R416). -/
def execEfuseTrip (isB : Bool) (s : State) : Host.Outcome State Fault Refusal := .next (s.efuseTrip isB)
/-- SINGLE_FEED (R418). -/
def execSingleFeed (isB : Bool) (s : State) : Host.Outcome State Fault Refusal := .next (s.singleFeed isB)
/-- SINGLE_FEED_CLEARS (R418). -/
def execSingleFeedClears (isB : Bool) (s : State) : Host.Outcome State Fault Refusal := .next (s.singleFeedClears isB)
/-- POWER_SAMPLE (R420). -/
def execPowerSample (r : PowerReading) (s : State) : Host.Outcome State Fault Refusal := .next (s.powerSample r)
/-- EFFICIENCY_UPDATE (R426). -/
def execEfficiencyUpdate (eff fixed : Nat) (s : State) : Host.Outcome State Fault Refusal := .next (s.efficiency eff fixed)
/-- TEMPERATURE_SAMPLE (R423). -/
def execTemperatureSample (bases dies : List Int) (ports : List (Nat × Int)) (s : State) : Host.Outcome State Fault Refusal :=
  .next (s.temperature bases dies ports)
/-- GOVERNOR_RECHECK (R432). -/
def execGovernorRecheck (s : State) : Host.Outcome State Fault Refusal := .next s.governorRecheck
/-- POWER_WINDOW (R434). -/
def execPowerWindow (mw : Nat) (s : State) : Host.Outcome State Fault Refusal := .next (s.powerWindow mw)
/-- PWR_COEF_RESET (R430). -/
def execPwrCoefReset (agent value : Nat) (s : State) : Host.Outcome State Fault Refusal := .next (s.coefReset agent value)
/-- CLOCK_GATE (R435). -/
def execClockGate (unit : Nat) (s : State) : Host.Outcome State Fault Refusal := .next (s.clockGate unit)
/-- UNIT_WAKE (R436). -/
def execUnitWake (unit : Nat) (s : State) : Host.Outcome State Fault Refusal := .next (s.unitWake unit)
/-- DEEP_GATE_WAKE (R436). -/
def execDeepGateWake (unit : Nat) (s : State) : Host.Outcome State Fault Refusal := .next (s.deepWake unit)
/-- SPAD_BANK_RETENTION (R438). -/
def execSpadBankRetention (gantry bank : Nat) (s : State) : Host.Outcome State Fault Refusal := .next (s.bankRetain gantry bank)

end Sys2Proof.Machine
end

