-- ==== Sys2Proof/Machine/MemSys.lean ====
section
/-! DEFINITION. The memory system (12_memory.md: R442 to R473): roles, refresh, link errors, the patrol, calibration sets,
rotation through the dry dock, lost ports, in-place calibration. -/

namespace Sys2Proof.Machine

/-- Temperatures distance. -/
def tempDist (a b : Int) : Nat := (a - b).natAbs

def State.drift (s : State) : Nat := s.fld Reg.MEM_DRIFT 4 0

/-! ### Calibration (R459 to R461) -/

/-- A set takes its place among a port’s sets, kept in ascending temperature (R460). -/
def putSet (x : CalSet) (l : List CalSet) : List CalSet :=
  let l := l.filter (fun y => decide (1 < tempDist y.temp x.temp))
  let l := if l.length < 16 then l
    else
      let near := l.foldl (fun (b : Option CalSet) y =>
        match b with
        | none => some y
        | some z => if tempDist y.temp x.temp < tempDist z.temp x.temp then some y else some z) none
      l.filter (fun y => some y != near)
  l.filter (fun y => decide (y.temp < x.temp)) ++ [x] ++ l.filter (fun y => decide (x.temp < y.temp))

/-- The limits of a calibration value by element (R459). -/
def calLimit (e : Nat) : Nat := if e = 0 then 3 else if e = 3 then 63 else if e < 3 then 127 else 2

/-- A set from the values a session finds: 40 pins of 20 elements. -/
def mkSet (t : Int) (vals : List (Nat × Nat)) : CalSet :=
  { temp := t
    vals := (vals.filter (fun v => decide (v.1 / 32 < 40) && decide (v.1 % 32 < 20) && decide (v.2 ≤ calLimit (v.1 % 32)))).foldl
      (fun m v => SMap.set (fun _ => 0) m v.1 v.2) [] }

/-- The corrections of R461 at a temperature: the set in force and whether it is interpolated, or none when uncovered. -/
def corrections (drift : Nat) (t : Int) (l : List CalSet) : Option (CalSet × Bool) :=
  let lo := (l.filter (fun x => decide (x.temp ≤ t))).getLast?
  let hi := (l.filter (fun x => decide (t ≤ x.temp))).head?
  let near := fun (x : CalSet) => decide (tempDist x.temp t ≤ drift)
  let alone := match lo.toList ++ hi.toList |>.filter near with
    | [] => none
    | [x] => some (x, false)
    | x :: y :: _ => some (if tempDist y.temp t < tempDist x.temp t then y else x, false)
  match lo, hi with
  | some a, some b =>
    if b.temp - a.temp ≤ 4 * (drift : Int) then
      if a.temp = b.temp then some (a, false)
      else
        let w := b.temp - a.temp
        let pick := if t - a.temp ≤ b.temp - t then a else b
        let keys := (a.vals.map (fun (p : Nat × Nat) => p.1) ++ b.vals.map (fun (p : Nat × Nat) => p.1)).filter (fun k => k % 32 = 1 || k % 32 = 2 || k % 32 = 3)
        let choices := pick.vals.filter (fun (p : Nat × Nat) => p.1 % 32 = 0 || decide (4 ≤ p.1 % 32))
        let v := fun (m : SMap Nat) (k : Nat) => Int.ofNat (SMap.get (fun _ => 0) m k)
        let mixed := keys.foldl (fun m k =>
          let x := v a.vals k + Int.fdiv (2 * ((v b.vals k - v a.vals k) * (t - a.temp)) + w) (2 * w)
          SMap.set (fun _ => 0) m k x.toNat) choices
        some ({ temp := t, vals := mixed }, true)
    else alone
  | _, _ => alone

/-- A port is covered at its own temperature (R461). -/
def State.covered (s : State) (p : Nat) : Bool := (corrections s.drift (s.port p).temp (s.port p).sets).isSome

/-- The corrections of a port at a tide start (R461). -/
def State.correct (p : Nat) (s : State) : State :=
  let x := s.port p
  match corrections s.drift x.temp x.sets with
  | some (c, i) => s.setPort p { x with corr := c, interpolated := i, covered := true }
  | none => s.setPort p { x with covered := false }

/-- Training at step 5 of R77: the ports that trained, roles, capacity and first sets (R443, R459). `vals` is what each
port’s first session finds. -/
def State.trainPorts (failed : List Nat) (vals : List (Nat × Nat)) (s : State) : State :=
  let ok := (List.range 17).filter (fun p => !failed.contains p)
  let n := min ok.length 16
  let a := if 16 ≤ n then 16 else if 8 ≤ n then 8 else if 4 ≤ n then 4 else if 2 ≤ n then 2 else n
  let s := { s with memsys := { MemSt.reset with ports := a } }
  let s := s.each (List.range 17) (fun p s =>
    let t := (s.port p).temp
    let x := { PortSt.reset with temp := t, sets := [mkSet t vals], corr := mkSet t vals, covered := true }
    match ok.findIdx? (fun q => q = p) with
    | none => s.setPort p { PortSt.reset with role := .fenced, temp := t }
    | some i =>
      if i < a then s.setPort p { x with role := .active, logical := i }
      else if i + 1 = ok.length then s.setPort p { x with role := .drydock, selfRefresh := true }
      else s.setPort p { x with role := .reserve, selfRefresh := true })
  let s := s.whenB (!failed.isEmpty) (State.setBit Reg.MEM_EVENT 0)
  (s.whenB (!failed.isEmpty && s.spareHeld) (State.report 0x4510 noAgent 0 0)).memConds

/-! ### Refresh (R450, R451) -/

def State.debt (s : State) (p k : Nat) : Nat := SMap.get (fun _ => 0) (s.port p).debts k
def State.setDebt (p k v : Nat) (s : State) : State :=
  s.setPort p { s.port p with debts := SMap.set (fun _ => 0) (s.port p).debts k v }

/-- The interval of R450 passes for a bank. `queued`: the bank has a queued request, so that no REFpb is issued to it;
otherwise the channel issues REFpb until the bank owes none. -/
def State.refreshDue (p c b : Nat) (queued : Bool) (s : State) : State :=
  let x := s.port p
  let normal := x.role == .active || x.role == .migSrc || x.role == .migDst || (x.role == .drydock && x.calibrating)
  if !normal || x.selfRefresh then s
  else
    let k := c * 16 + b
    let s := s.setDebt p k (if queued then min 8 (s.debt p k + 1) else 0)
    let ds := (List.range 16).map (fun i => s.debt p (c * 16 + i))
    if ds.any (fun d => decide (8 ≤ d)) || decide (4 ≤ (ds.filter (fun d => decide (6 ≤ d))).length) then
      let s := s.each (List.range 16) (fun i s => s.setDebt p (c * 16 + i) (s.debt p (c * 16 + i) - 1))
      (s.bump (mreg Reg.MEM_PORT_REFAB_LAST p) 1).setBit Reg.MEM_EVENT 14
    else s

/-- SELF_REFRESH_ENTRY (R451). -/
def State.selfRefresh (p : Nat) (s : State) : State :=
  let x := s.port p
  if s.rd Reg.MEM_SR_IDLE ≠ 0 && x.role == .active then s.setPort p { x with selfRefresh := true, debts := [] } else s

/-! ### Link errors (R452 to R454, R466) -/

/-- EDC_FAIL: a burst fails its check `fails` times in a row (R452). The copy of a migration reads with agent 0xFFF; a
write to the destination of a migration that fails fails the destination (R464, R466). -/
def State.edcFail (agent addr : Nat) (isWrite : Bool) (fails : Nat) (toDest : Bool) (s : State) : State :=
  let retry := s.fld Reg.MEM_EDC_CFG 2 0
  let mig := s.memsys.phase ≠ 0
  let p := if toDest && mig then s.memsys.dst else s.physPort (s.logicalPort addr)
  let n := min fails retry
  let s := s.whenB (n != 0) (fun s => (s.bump (mreg Reg.MEM_PORT_EDC_RETRY_LAST p) n).setBit Reg.MEM_EVENT 12)
  if fails ≤ retry then s
  else
    let s := (s.inc (mreg Reg.MEM_PORT_EDC_FAIL p)).setBit Reg.MEM_EVENT 13
    if toDest && mig then s.dstFails
    else
      let copy := agent = noAgent && mig && s.memsys.src = p
      let s := s.memErr agent (if copy then 5 else if isWrite then 2 else 1) addr
      let s := s.poisonAt (if copy then s.memsys.dst else p) (lineOf addr)
      let s := if isWrite then s else s.report 0x3503 agent 1 addr
      -- a job whose read gets the bus error ends POINTER_INVALID
      match unitKind agent, (s.unit agent).job with
      | some k, some j =>
        if isWrite || k == .barge || k == .skiff then s else s.setUnitF agent (fun x => { x with job := some { j with stopWith := some 0x21 } })
      | _, _ => s

/-- PREDICT_WINDOW: reissues of a port in 1 s (R454). -/
def State.predict (p reissues : Nat) (s : State) : State :=
  let limit := s.fld Reg.MEM_EDC_CFG 31 16
  if limit = 0 ∨ reissues ≤ limit ∨ (s.port p).role != .active ∨ (s.port p).fenceAfter then s
  else (s.setBit Reg.MEM_EVENT 15).retirePort p

/-- Words of the data area take errors: 1 a single-bit error, 2 an uncorrectable one (R456). -/
def State.upset (errs : List (Nat × Nat)) (s : State) : State :=
  let l := errs.filter (fun e => s.inProtData (e.1 / 8 * 8) && (e.2 = 1 || e.2 = 2))
  let flips := l.foldl (fun m e => SMap.ins (e.1 / 8 * 8) e.2 m) s.memsys.flips
  { s with memsys := { s.memsys with flips } }

/-- SCRUB_READ: the patrol reads its next word. `errs` are the words of the data area that errors have come to since the last one,
each with its kind: they stand until an access meets them (R456, R458). -/
def State.scrubRead (errs : List (Nat × Nat)) (s : State) : State :=
  let s := s.upset errs
  if s.rd Reg.MEM_SCRUB_CFG = 0 ∨ !s.protOn then s
  else
    let words := 7 * s.protSize / 64
    let a := s.protBase + 8 * (s.memsys.patrol % max 1 words)
    let s := { s with memsys := { s.memsys with patrol := (s.memsys.patrol + 1) % max 1 words } }
    (s.eccRead noAgent a 8).2

/-! ### Rotation (R462 to R466) -/

/-- Logical ports that R453 or R454 names for a migration. -/
def State.condemned (s : State) : List Nat :=
  ((s.portsIn .active).filter (fun p => (s.port p).fenceAfter)).map (fun p => (s.port p).logical)

/-- The logical port the next migration takes, at a tide start (R462); of several that R454 names, the lowest. -/
def State.migChoice (s : State) : Option Nat :=
  match s.memsys.forced, s.condemned with
  | some l, _ => some l
  | none, l :: ls => some (ls.foldl min l)
  | none, [] =>
    let un := (s.portsIn .active).filter (fun p => !(s.port p).covered && (s.port p).inplace = 0)
    let dist := fun (p : Nat) => ((s.port p).sets.map (fun x => tempDist x.temp (s.port p).temp)).foldl min 1000
    (un.foldl (fun (b : Option (Nat × Nat × Nat)) p =>
      let d := dist p
      let l := (s.port p).logical
      match b with
      | none => some (l, d, p)
      | some y => if y.2.1 < d || (y.2.1 = d && l < y.1) then some (l, d, p) else b) none).map (fun x => x.1)

/-- Begin a migration at a tide start; in the safe state none begins (R462, R463, R598; DEDUCED, assumption 78). -/
def State.migBegin (s : State) : State :=
  if s.watch.safe || s.memsys.phase ≠ 0 || !s.bit Reg.MEM_MIG_CTRL 0 || s.bit Reg.MEM_MIG_CTRL 1 then s
  else
    match s.dock, s.migChoice with
    | some d, some l =>
      let src := s.physPort l
      if (s.port d).calibrating || (s.port src).role != .active then s
      else if !s.covered d then
        s.setPort d { s.port d with calibrating := true, calTemp := (s.port d).temp, selfRefresh := false }
      else
        let s := (s.setPort src { s.port src with role := .migSrc }).setPort d
          { s.port d with role := .migDst, selfRefresh := false, logical := l }
        ({ s with memsys := { s.memsys with phase := 1, src, dst := d, logical := l
                                            forced := if s.memsys.forced = some l then none else s.memsys.forced } }).setBit
          Reg.MEM_EVENT 4
    | _, _ => s

/-- What memory does at a tide start: a lost port’s place is taken, an abort ends, the phases move on, corrections follow
temperature, and a migration may begin (R461 to R467). -/
def State.memTide (s : State) : State :=
  let s := s.each s.memsys.lost (fun x s =>
    match x.2 with
    | some d =>
      let s := s.setPort d { s.port d with role := .active, logical := x.1, undef := true, clean := [], selfRefresh := false }
      ({ s with memsys := { s.memsys with lost := s.memsys.lost.filter (fun y => y != x) } }).setBit Reg.MEM_EVENT 1 |>.promote
    | none => s)
  let m := s.memsys
  let s := if m.abort then
      let s := s.setPort m.src { s.port m.src with role := .active }
      { s with memsys := { s.memsys with phase := 0, abort := false } }
    else if m.phase = 1 then { s with memsys := { m with phase := 2, copyNs := s.now } }
    else if m.phase = 3 then
      let x := s.port m.src
      let s := (s.setPort m.src { x with poison := [] }).each x.poison (fun l s => s.poisonAt m.dst l)
      { s with memsys := { s.memsys with phase := 4 } }
    else s
  let s := s.each (s.portsIn .active ++ s.portsIn .migSrc) State.correct
  s.migBegin.memConds

/-- MIGRATION_COPY_DONE (R463). -/
def State.copyDone (s : State) : State :=
  if s.memsys.phase = 2 && !s.memsys.abort then { s with memsys := { s.memsys with phase := 3 } } else s

/-- The migration has ended: events, count, IDLE (R463). -/
def State.migEnd (s : State) : State :=
  (({ s with memsys := { s.memsys with phase := 0 } }).setBit Reg.MEM_EVENT 5).inc Reg.MEM_MIGRATIONS

/-- MIGRATION_DRAIN_DONE: the destination serves the logical port; the source becomes DRYDOCK and calibrates, or is FENCED
(R454, R463, R466). -/
def State.drainDone (s : State) : State :=
  let m := s.memsys
  if m.phase ≠ 4 then s
  else
    let s := s.setPort m.dst { s.port m.dst with role := .active, logical := m.logical }
    let x := s.port m.src
    if x.fenceAfter then ((s.fencePort m.src).migEnd).promote
    else
      let s := s.setPort m.src { x with role := .drydock, logical := 0, calibrating := true, calTemp := x.temp, poison := [], debts := [] }
      { s with memsys := { s.memsys with phase := 5 } }

/-- CALIBRATION_SESSION: the session in progress on a port ends with a set (R460, R463). -/
def State.sessionDone (p : Nat) (vals : List (Nat × Nat)) (s : State) : State :=
  let x := s.port p
  if !x.calibrating then s
  else
    let role := if x.role == .reserve && s.dock.isNone then Role.drydock else x.role
    let s := s.setPort p { x with sets := putSet (mkSet x.calTemp vals) x.sets, calibrating := false, role, selfRefresh := true }
    let s := ((s.inc (mreg Reg.MEM_PORT_CAL_COUNT p)).setBit Reg.MEM_EVENT 7).correct p
    (if s.memsys.phase = 5 && s.memsys.src = p then s.migEnd else s).memConds

/-- MEM_MIG_FORCE (R462, R472); a logical port that is not in service is refused (assumption 78). -/
def State.migForce (agent v : Nat) (s : State) : State :=
  if s.armBlocks agent Reg.MEM_MIG_FORCE then s.usageReg agent Reg.MEM_MIG_FORCE
  else if !v.testBit 31 then s
  else if (s.dock.isNone && s.memsys.phase = 0) || decide (s.memsys.ports ≤ v % 16) then s.usageReg agent Reg.MEM_MIG_FORCE
  else { s with memsys := { s.memsys with forced := some (v % 16) } }

/-- PORT_LOST: a port fails outright (R466, R467). -/
def State.portLost (p : Nat) (s : State) : State :=
  let x := s.port p
  match x.role with
  | .active =>
    let l := x.logical
    let s := { s with memsys := { s.memsys with lost := s.memsys.lost ++ [(l, s.dock)] } }
    let s := (s.setPort p { PortSt.reset with role := .fenced, temp := x.temp }).setBit Reg.MEM_EVENT 0
    s.report 0x6514 noAgent 0 0
  | .migSrc => s.setPort p { x with fenceAfter := true }
  | .migDst => s.dstFails
  | .drydock | .reserve =>
    let s := (s.fencePort p).promote
    s.whenB (!s.spareHeld) (State.setBit Reg.MEM_EVENT 1)
  | _ => s

/-! ### In-place calibration (R468) -/

/-- INPLACE_CAL_STEP: at most one step per port and tide, at most 64; the last one yields a set. -/
def State.inplaceStep (p : Nat) (last : Bool) (vals : List (Nat × Nat)) (s : State) : State :=
  let x := s.port p
  if s.spareHeld || x.role != .active || (x.covered && x.inplace = 0) || x.stepTide = some s.tideNum then s
  else
    let t := if x.inplace = 0 then x.temp else x.calTemp
    let n := x.inplace + 1
    let s := (s.bump Reg.MEM_INPLACE_STEPS_LAST 1).whenB (!s.inplaceOn) (State.setBit Reg.MEM_EVENT 2)
    let s := if last || 64 ≤ n then
        (s.setPort p { x with sets := putSet (mkSet t vals) x.sets, inplace := 0, stepTide := some s.tideNum }).inc
          (mreg Reg.MEM_PORT_CAL_COUNT p)
      else s.setPort p { x with inplace := n, calTemp := t, stepTide := some s.tideNum }
    s.memConds

/-! ### Views (R472, R473) -/

def State.viewMemStatus (s : State) : Nat :=
  s.memsys.ports + b2n (s.memsys.ports != 0 && (decide (s.memsys.ports < 16) || s.dock.isNone)) * 32 + b2n s.inplaceOn * 64
    + b2n (s.memsys.phase != 0) * 128 + (s.dock.getD 31) * 256 + (s.portsIn .reserve).length * 65536

def State.viewMigStatus (s : State) : Nat :=
  let m := s.memsys
  if m.phase = 0 then 0 else m.phase + m.src * 256 + m.dst * 65536 + m.logical * 2 ^ 24

def State.viewMigMib (s : State) : Nat :=
  let m := s.memsys
  if m.phase = 2 then min 8192 ((s.now - m.copyNs) * s.fld Reg.MEM_MIG_RATE 5 0 / 1048576) else if 3 ≤ m.phase then 8192 else 0

def State.viewPoisoned (s : State) : Nat := (s.ports.map (fun p => p.2.poison.length)).foldl (· + ·) 0

def State.viewPortStatus (s : State) (p : Nat) : Nat :=
  let x := s.port p
  x.role.code + x.logical * 16 + b2n x.selfRefresh * 256 + b2n x.calibrating * 512 + b2n (x.inplace != 0) * 1024 + b2n x.covered * 2048

def State.viewPortTemp (s : State) (p : Nat) : Nat :=
  let x := s.port p
  unsigned 8 x.temp + unsigned 8 x.corr.temp * 256 + b2n x.interpolated * 65536

def State.viewSets (s : State) (p : Nat) : Nat :=
  let l := (s.port p).sets
  match l.head?, l.getLast? with
  | some a, some b => l.length + unsigned 8 a.temp * 256 + unsigned 8 b.temp * 65536
  | _, _ => 0

def State.viewSetInfo (s : State) (p : Nat) : Nat :=
  match (s.port p).sets[s.fld (mreg Reg.MEM_PORT_SET_SEL p) 3 0]? with
  | some x =>
    unsigned 8 x.temp + (x.vals.filter (fun (v : Nat × Nat) => v.1 % 32 = 0)).length % 256 * 256
      + (x.vals.filter (fun (v : Nat × Nat) => decide (4 ≤ v.1 % 32))).length % 1024 * 65536 + 2 ^ 31
  | none => 0

/-! ### Meanings -/

/-- REFRESH_DUE (R450). -/
def execRefreshDue (port channel bank : Nat) (queued : Bool) (s : State) : Host.Outcome State Fault Refusal :=
  .next (s.refreshDue (port % 17) (channel % 2) (bank % 16) queued)
/-- SELF_REFRESH_ENTRY (R451). -/
def execSelfRefreshEntry (port : Nat) (s : State) : Host.Outcome State Fault Refusal := .next (s.selfRefresh port)
/-- EDC_FAIL (R452). -/
def execEdcFail (agent addr : Nat) (isWrite : Bool) (fails : Nat) (toDest : Bool) (s : State) : Host.Outcome State Fault Refusal :=
  .next (if s.target addr = .gddr ∨ s.target addr = .check then s.edcFail agent addr isWrite fails toDest else s)
/-- PREDICT_WINDOW (R454). -/
def execPredictWindow (port reissues : Nat) (s : State) : Host.Outcome State Fault Refusal := .next (s.predict port reissues)
/-- SCRUB_READ (R458). -/
def execScrubRead (errs : List (Nat × Nat)) (s : State) : Host.Outcome State Fault Refusal := .next (s.scrubRead errs)
/-- CALIBRATION_SESSION (R460). -/
def execCalibrationSession (port : Nat) (vals : List (Nat × Nat)) (s : State) : Host.Outcome State Fault Refusal :=
  .next (s.sessionDone port vals)
/-- MIGRATION_COPY_DONE (R463). -/
def execMigrationCopyDone (s : State) : Host.Outcome State Fault Refusal := .next s.copyDone
/-- MIGRATION_DRAIN_DONE (R463). -/
def execMigrationDrainDone (s : State) : Host.Outcome State Fault Refusal := .next s.drainDone
/-- MEM_MIG_FORCE (R462). -/
def execMemMigForce (agent value : Nat) (s : State) : Host.Outcome State Fault Refusal := .next (s.migForce agent value)
/-- PORT_LOST (R467). -/
def execPortLost (port : Nat) (s : State) : Host.Outcome State Fault Refusal := .next (s.portLost port)
/-- INPLACE_CAL_STEP (R468). -/
def execInplaceCalStep (port : Nat) (last : Bool) (vals : List (Nat × Nat)) (s : State) : Host.Outcome State Fault Refusal :=
  .next (s.inplaceStep port last vals)

end Sys2Proof.Machine
end

