-- ==== Sys2Proof/Machine/HostFn.lean ====
section
/-! DEFINITION. The PCIe function (16_host_and_bell.md: R550 to R561, R575): link and resets, power states, BAR2, the
outbound window, configuration requests. -/

namespace Sys2Proof.Machine

/-! ### Link and resets (R552, R561, R575) -/

/-- HOST_BAR2_BASE is committed to 0 (R19, R20, R554). -/
def State.bar2Base0 (s : State) : State := (s.wr40 Reg.HOST_BAR2_BASE_LO 0).committed Reg.HOST_BAR2_BASE_LO

/-- The configuration space returns to its reset values, the MSI-X structures with it (R552, R568; assumption 7). -/
def State.configReset (s : State) : State :=
  let h := s.host
  let s := if h.bar2Size = 3 then s else s.bar2Base0
  let s := { s with host := { h with d3hot := false, bme := false, msixEn := false, msixMaskAll := false, pmeEn := false
                                     relaxed := false, bar2Size := 3 } }
  let s := s.each (List.range 128) (fun i s => s.wr (Reg.HOST_MSIX_TABLE + 4 * i) (resetOf (Reg.HOST_MSIX_TABLE + 4 * i)))
  s.wr Reg.HOST_MSIX_PBA 0

/-- The link goes down. -/
def State.linkDown (s : State) : State :=
  if s.host.linkUp then
    ({ s with host := { s.host with linkUp := false, rate := 0, width := 0 } }).setBit Reg.HOST_EVENT 0
  else s

/-- PERST_N asserted or released (R552, R575). -/
def State.perst (asserted : Bool) (s : State) : State :=
  if asserted then
    if s.host.perst then s
    else
      let s := (s.configReset.linkDown).setBit Reg.HOST_EVENT 1
      ({ s with host := { s.host with perst := true } }).bellHostReset
  else { s with host := { s.host with perst := false } }

/-- Function level reset (R552, R575). -/
def State.flr (s : State) : State := (s.configReset.setBit Reg.HOST_EVENT 2).bellHostReset

/-- The link goes up or down; it never trains with ENABLE 0 or PERST_N asserted (R552, R561). -/
def State.pcieLink (up : Bool) (rate width : Nat) (s : State) : State :=
  if !up then s.linkDown
  else if !s.hostEnabled || s.host.perst || !s.outputsOn then s
  else
    let was := s.host.linkUp
    let s := { s with host := { s.host with linkUp := true, rate := max 1 (min 5 rate)
                                            width := if [1, 2, 4, 8].contains width then width else 8 } }
    if was then s else (s.setBit Reg.HOST_EVENT 0).signalHosts

/-- A PM_PME message: PME_En is 1 and the function in D3hot, on a link that is up, holds a source presented (R575). -/
def State.wakeHost (s : State) : State :=
  if s.host.linkUp && !s.host.perst && s.host.d3hot && s.host.pmeEn && (List.range 32).any (fun v => (s.presented (v + 4)).isSome)
  then s.emit .pme else s

/-- D0 or D3hot (R575). -/
def State.dState (d3 : Bool) (s : State) : State :=
  if s.host.linkUp && s.host.d3hot != d3 then
    let s := ({ s with host := { s.host with d3hot := d3 } }).setBit Reg.HOST_EVENT 3
    if d3 then s.wakeHost else s.signalHosts
  else s

/-- A word of configuration space: what R550, R553 and R554 fix, the rest as PCIe Base 5.0 has it. BAR1, BAR4 and BAR5 read 0. -/
def State.configWord (s : State) (o : Nat) : Nat :=
  let pci := (Config.configSpace (o / 4 * 4) s.freeCtr).toNat
  match o / 4 * 4 with
  | 0x00 => 0x72161E6F
  | 0x08 => 0x04000000 + s.fld Reg.GLOBAL_STEPPING 7 0
  | 0x10 => putBits (putBits pci 3 0 4) 27 4 0
  | 0x14 => 0
  | 0x18 => putBits pci 3 0 0xC
  | 0x20 => 0
  | 0x24 => 0
  | 0x2C => 0x1E6F + s.fld Reg.GLOBAL_VARIANT 0 0 * 65536
  | 0x3C => putBits pci 15 8 0
  | _ => pci

/-- Every pending bit whose vector is no longer masked is settled (R568). -/
def State.unmaskAll (s : State) : State := s.each (List.range 32) State.msixUnmask

/-- A configuration request: Retry Status until step 3 ends, then completed (R80). -/
def State.configReq (c : ConfigReq) (s : State) : State :=
  if s.host.retry then s.emit (.config false 0)
  else if c.isWrite then
    let h := s.host
    let s := { s.emit (.config true 0) with host := { h with bme := c.bme, msixEn := c.msixEn, msixMaskAll := c.msixMaskAll
                                                             pmeEn := c.pmeEn, relaxed := c.relaxed } }
    let s := s.whenB (h.msixMaskAll && !c.msixMaskAll) State.unmaskAll
    let s := s.whenB (!(h.bme && h.msixEn) && c.bme && c.msixEn) State.signalHosts
    s.whenB (!h.pmeEn && c.pmeEn) State.wakeHost
  else s.draw.2.emit (.config true (s.configWord c.reg))

/-! ### BAR2 (R554, R555) -/

/-- A Resizable BAR change (R554). -/
def State.bar2Resize (k : Nat) (s : State) : State :=
  if 7 < k ∨ k = s.host.bar2Size then s
  else ({ s with host := { s.host with bar2Size := k } }).bar2Base0

/-- Bytes of BAR2. -/
def State.bar2Bytes (s : State) : Nat := 2 ^ (30 + s.host.bar2Size)

/-- A refused inbound access is counted (R555). -/
def State.inRefused (s : State) : State := (s.bump Reg.HOST_IN_REFUSED_LAST 1).setBit Reg.HOST_EVENT 5

/-- BAR2 reaches GDDR6 alone (R554): bytes that end above its range are an access to an unmapped range (R34). -/
def State.bar2Beyond (s : State) (off n : Nat) : Bool := decide (0x2000000000 < s.rd40 Reg.HOST_BAR2_BASE_LO + off + n)

/-- An inbound BAR2 write (R555). -/
def State.bar2Write (off : Nat) (bs : List Nat) (poisoned : Bool) (s : State) : State :=
  if !s.hostAwake || decide (s.bar2Bytes < off + bs.length) then s
  else
    let s := s.sndCount 0xF05 0xD00 1
    if poisoned then s.inRefused
    else if s.bar2Beyond off bs.length then (s.usageAddr hostAgent 2 (s.rd40 Reg.HOST_BAR2_BASE_LO + off)).inRefused
    else
    let r := s.writeMem hostAgent (s.rd40 Reg.HOST_BAR2_BASE_LO + off) bs
    match r.1 with
    | .refused => r.2.inRefused
    | _ => State.classWatch s hostAgent r.2

/-- An inbound BAR2 read (R555). -/
def State.bar2Read (off n : Nat) (s : State) : State :=
  if !s.hostAwake || decide (s.bar2Bytes < off + n) then s
  else
    let s := s.sndCount 0xF05 0xD01 1
    if s.bar2Beyond off n then
      (s.usageAddr hostAgent 1 (s.rd40 Reg.HOST_BAR2_BASE_LO + off)).emit (.bar2Data (List.replicate n 0) false)
    else
    let r := s.readMem hostAgent (s.rd40 Reg.HOST_BAR2_BASE_LO + off) n
    match r.1 with
    | .busError => r.2.2.inRefused.emit (.bar2Data r.2.1 true)
    | _ => r.2.2.emit (.bar2Data r.2.1 false)

/-! ### Views (R579) -/

def State.viewHostStatus (s : State) : Nat :=
  let h := s.host
  b2n h.linkUp + h.rate * 2 + h.width * 16 + (if h.d3hot then 3 else 0) * 256 + b2n h.bme * 1024 + b2n h.msixEn * 2048
    + b2n h.msixMaskAll * 4096 + b2n h.perst * 8192

/-! ### Meanings -/

/-- PERST_ASSERT (R552). -/
def execPerstAssert (asserted : Bool) (s : State) : Host.Outcome State Fault Refusal := .next (s.perst asserted)
/-- PCIE_LINK_CHANGE (R552). -/
def execPcieLinkChange (up : Bool) (rate width : Nat) (s : State) : Host.Outcome State Fault Refusal := .next (s.pcieLink up rate width)
/-- FLR (R552). -/
def execFlr (s : State) : Host.Outcome State Fault Refusal := .next s.flr
/-- D_STATE_CHANGE (R575). -/
def execDStateChange (d3 : Bool) (s : State) : Host.Outcome State Fault Refusal := .next (s.dState d3)
/-- BAR2_RESIZE (R554). -/
def execBar2Resize (size : Nat) (s : State) : Host.Outcome State Fault Refusal := .next (s.bar2Resize size)
/-- BAR2_WRITE (R555). -/
def execBar2Write (offset : Nat) (bytes : List Nat) (poisoned : Bool) (s : State) : Host.Outcome State Fault Refusal :=
  .next (s.bar2Write offset bytes poisoned)
/-- BAR2_READ (R555). -/
def execBar2Read (offset len : Nat) (s : State) : Host.Outcome State Fault Refusal := .next (s.bar2Read offset len)
/-- CONFIGURATION_REQUEST (R80). -/
def execConfigurationRequest (c : ConfigReq) (s : State) : Host.Outcome State Fault Refusal := .next (s.configReq c)

end Sys2Proof.Machine
end

