-- ==== Sys2Proof/Machine/Lighter.lean ====
section
/-! DEFINITION. Lighter programs (14_lighters.md: R496 to R520): channels, the instruction format and its checks, LOOP,
WAIT, halts and stops. MOVE bursts and SIGNAL, which may reach registers, are in Bursts.lean. -/

namespace Sys2Proof.Machine

def State.lt (s : State) (u : Nat) : LtSt := SMap.get (fun _ => LtSt.reset) s.lts u
def State.setLt (u : Nat) (x : LtSt) (s : State) : State := { s with lts := SMap.set (fun _ => LtSt.reset) s.lts u x }
def State.modLt (u : Nat) (f : LtSt → LtSt) (s : State) : State := s.setLt u (f (s.lt u))
def LtSt.loop (x : LtSt) (k : Nat) : Nat := SMap.get (fun _ => 0) x.lc k

def isSkiff (u : Nat) : Bool := unitKind u == some .skiff
def isChannel (u : Nat) : Bool := unitKind u == some .skiff || unitKind u == some .barge

/-- The channel runs a program. -/
def State.ltJob (s : State) (u : Nat) : Option Job :=
  match (s.unit u).job with
  | some j => if isChannel u && j.op = 0x0501 then some j else none
  | none => none

/-! ### Instructions (R500 to R512) -/

/-- The two words of the instruction at the program counter. -/
def State.ltWords (s : State) (u : Nat) : Nat × Nat :=
  let a := (s.lt u).prog + 16 * (s.lt u).pc
  (s.rdM a 8, s.rdM (a + 8) 8)

/-- Fields of MOVE (R502). -/
def mvSwap (w0 : Nat) : Nat := bits w0 59 58
def mvSrcSp (w0 : Nat) : Bool := w0.testBit 57
def mvDstSp (w0 : Nat) : Bool := w0.testBit 56
def mvSw (w0 : Nat) : Nat := 2 ^ bits w0 55 54
def mvDw (w0 : Nat) : Nat := 2 ^ bits w0 53 52
def mvLen (w1 : Nat) : Nat := bits w1 63 40
/-- Unit of SWAP, bytes (R507). -/
def swapUnit (n : Nat) : Nat := if n = 0 then 1 else if n = 1 then 2 else 4

/-- An effective address or scratchpad operand: offset added (R503). For a scratchpad the sum is not reduced, since one
beyond 4 MiB is an error. -/
def effAddr (sp : Bool) (a off : Nat) : Nat := if sp then bits a 21 0 + off else (a + off) % two40

/-- The instruction breaks R512 when reached. -/
def State.ltIllegal (s : State) (u : Nat) : Bool :=
  let w := s.ltWords u
  let w0 := w.1
  let w1 := w.2
  let x := s.lt u
  decide (4096 ≤ x.pc) ||
    match bits w0 63 60 with
    | 1 =>
      let n := mvLen w1
      let src := effAddr (mvSrcSp w0) (bits w0 39 0) x.os
      let dst := effAddr (mvDstSp w0) (bits w1 39 0) x.od
      bits w0 47 40 != 0 || n = 0 || n % swapUnit (mvSwap w0) != 0
        || (mvSrcSp w0 && bits w0 39 34 != 0) || (mvDstSp w0 && bits w1 39 34 != 0)
        || (if isSkiff u then src % mvSw w0 != 0 || dst % mvDw w0 != 0 || n % mvSw w0 != 0 || n % mvDw w0 != 0
            else bits w0 55 52 != 0 || bits w0 49 48 != 0)
    | 2 => bits w0 59 58 != 0 || bits w0 55 48 != 0 || bits w0 31 12 != 0 || decide (x.pc ≤ bits w0 11 0)
    | 3 => decide (3 < bits w0 59 56) || bits w0 55 54 != 0 || bits w0 47 32 != 0 || bits w1 63 32 != 0
    | 4 => bits w0 55 53 != 0 || bits w0 47 32 != 0 || bits w1 63 40 != 0
    | _ => true

/-! ### The end of a program (R499, R513 to R517) -/

/-- STATUS of a CAUSE (R516). -/
def causeStatus (c : Nat) : Nat :=
  match c with
  | 0 => 0x00 | 1 => 0x21 | 2 => 0x21 | 3 => 0x20 | 4 => 0x30 | 5 => 0x10 | _ => 0x11

/-- The program ends: its job completes with the record of R499. -/
def State.ltEnd (u : Nat) (s : State) : State :=
  let x := s.lt u
  let s := s.setLt u { x with moving := false, waiting := none, fetched := [] }
  match s.ltJob u with
  | none => s
  | some j =>
    let fl := b2n x.half + 2 * b2n x.full + 4 * b2n (x.errWrite && x.cause != 0)
    let s := s.setJob u { j with b1 := x.cause, b2 := x.pc % 256, b3 := x.pc / 256 % 16 + x.retries % 8 * 16 + b2n x.lastBeat * 128
                                 b8 := x.moved % two40 + fl * two40 }
    s.endJob u (causeStatus x.cause)

/-- A halt with a cause, the side it was on and the address recorded (R515, R516). -/
def State.ltHalt (u cause : Nat) (write : Bool) (addr : Nat) (s : State) : State :=
  let x := s.lt u
  let last := x.moving && decide (s.rd (ucb u Reg.LT_REMAIN) = 0)
  let s := (s.setLt u { x with cause, errWrite := write, lastBeat := last }).setBit (ucb u Reg.LT_EVENT) 4
  let s := s.whenB (cause ≤ 4) (State.bump Reg.LT_HALTS_LAST 1)
  let s := if s.bit (ucb u Reg.LT_ERR_INFO) 31 then s
    else (s.wr40 (ucb u Reg.LT_ERR_ADDR_LO) (addr % two40)).wr (ucb u Reg.LT_ERR_INFO)
      (cause + x.retries % 8 * 16 + b2n last * 128 + b2n write * 256 + x.pc % 4096 * 512 + 2 ^ 31)
  s.ltEnd u

/-- A halt for which the manual names no address: the captured address is a free value (assumption 3). -/
def State.ltHaltAt (u cause : Nat) (s : State) : State :=
  let d := s.draw
  d.2.ltHalt u cause false d.1

/-- A burst of the channel is reissued until its retries are exhausted, and every attempt fails (R514). -/
def State.ltRetry (u : Nat) (attempt : State → State) (s : State) : State :=
  let n := s.fld (ucb u Reg.LT_CFG) 2 0
  ((s.each (List.range n) (fun _ s => attempt s)).sndCount u 0x502 n).modLt u (fun x => { x with retries := n })

/-- The channel reaches the instruction at its program counter: it is fetched and checked (R512, R516), and a quiescing
channel ends at a WAIT for the tide (R517). -/
def State.ltReach (u : Nat) (s : State) : State :=
  let x := s.lt u
  let a := x.prog + 16 * x.pc
  let r := s.readAs u 3 a 16
  if 4096 ≤ x.pc then s.ltHaltAt u 3
  else
  match r.1 with
  | .busError => (r.2.2.ltRetry u (fun s => (s.readAs u 3 a 16).2.2)).ltHalt u 1 false a
  | .refused => r.2.2.ltHalt u 2 false a
  | .ok =>
    let s := r.2.2
    if s.ltIllegal u then s.ltHaltAt u 3
    else if s.eng u == .quiescing && bits (s.ltWords u).1 63 60 = 3 && bits (s.ltWords u).1 59 56 = 0 then s.ltHaltAt u 6
    else s

/-- On to an instruction. -/
def State.ltJump (u pc : Nat) (s : State) : State :=
  (s.modLt u (fun x => { x with pc, moving := false, waiting := none, fetched := [], put := 0, issued := 0, again := false })).ltReach u
/-- On to the next instruction. -/
def State.ltNext (u : Nat) (s : State) : State := s.ltJump u ((s.lt u).pc + 1)

/-- A channel that runs a program acts, unless a stop marked on its job ends it first (R409, R517). -/
def State.ltStep (u : Nat) (f : State → State) (s : State) : State :=
  match s.ltJob u with
  | none => s
  | some j => if j.stopWith.isSome then s.ltHaltAt u 5 else f s

/-- The instruction at the program counter has an OP and is not yet in progress. -/
def State.ltAt (s : State) (u op : Nat) : Bool :=
  bits (s.ltWords u).1 63 60 = op && !(s.lt u).moving && (s.lt u).waiting.isNone && s.bit (ucb u Reg.LT_STATUS) 16

/-! ### RUN_PROGRAM (R497, R501) -/

/-- What stops a RUN_PROGRAM job at once (R497, R498). -/
def State.ltRefused (s : State) (j : Job) : Option Nat :=
  if j.ctx ≠ 0 ∨ j.flags ≠ 0 then some 0x20
  else if j.s4 ≠ 0 ∨ j.badSlots ∨ j.s0 % 16 ≠ 0 ∨ !s.isMem j.s0 then some 0x21
  else none

/-- The program starts. LT_STATUS bit 16 shows that the channel runs it. -/
def State.runProgram (u : Nat) (s : State) : State :=
  match s.ltJob u with
  | none => s
  | some j =>
    if s.bit (ucb u Reg.LT_STATUS) 16 then s
    else
      let s := s.setLt u { LtSt.reset with prog := j.s0, os := j.s1 % two40, od := j.s2 % two40, errWrite := (s.lt u).errWrite }
      match j.stopWith, s.ltRefused j with
      | some st, _ => s.endJob u st
      | none, some st =>
        (s.whenB (st = 0x21 && (s.target j.s0 == .unmapped || s.target j.s0 == .check)) (State.usageAddr u 1 j.s0)).endJob u st
      | none, none => (s.setBit (ucb u Reg.LT_STATUS) 16).ltReach u

/-- When a channel’s job has ended, LT_STATUS shows RUNNING 0. -/
def State.ltIdle (s : State) : State :=
  s.each ((unitsOf .barge) ++ unitsOf .skiff) (fun u s =>
    if s.bit (ucb u Reg.LT_STATUS) 16 && (s.ltJob u).isNone then s.clrBit (ucb u Reg.LT_STATUS) 16 else s)

/-! ### LOOP (R508) -/

def State.ltLoop (u : Nat) (s : State) : State :=
  if !s.ltAt u 2 then s
  else
    let w := s.ltWords u
    let k := bits w.1 57 56
    let count := bits w.1 47 32
    let ss := signed 32 (bits w.2 31 0)
    let ds := signed 32 (bits w.2 63 32)
    let x := s.lt u
    let n := (x.loop k + 1) % 65536
    if count = 0 ∨ n < count then
      (s.setLt u { x with lc := SMap.set (fun _ => 0) x.lc k n, os := unsigned 40 (x.os + ss), od := unsigned 40 (x.od + ds) }).ltJump u
        (bits w.1 11 0)
    else
      (s.setLt u { x with lc := SMap.set (fun _ => 0) x.lc k 0, os := unsigned 40 (x.os - ss * (count - 1))
                          od := unsigned 40 (x.od - ds * (count - 1)) }).ltJump u (x.pc + 1)

/-! ### WAIT (R509, R510) -/

/-- The condition of the WAIT at the program counter holds; `t` is the tide in which it was reached. -/
def State.ltHolds (s : State) (u t : Nat) : Bool :=
  let w := s.ltWords u
  match bits w.1 59 56 with
  | 0 => decide (t < s.tideNum)
  | 1 => s.bit Reg.LT_FLAGS (bits w.1 52 48)
  | 2 => decide (s.startOf t + bits w.2 31 0 ≤ s.now)
  | _ => true

/-- The WAIT ends: a flag waited on with CLEAR is consumed. -/
def State.ltGo (u : Nat) (s : State) : State :=
  let w0 := (s.ltWords u).1
  let s := if bits w0 59 56 = 1 && w0.testBit 53 then s.clrBit Reg.LT_FLAGS (bits w0 52 48) else s
  s.ltNext u

/-- A WAIT is reached. -/
def State.ltWait (u : Nat) (s : State) : State :=
  if !s.ltAt u 3 then s
  else if s.ltHolds u s.tideNum then s.ltGo u
  else s.modLt u (fun x => { x with waiting := some (bits (s.ltWords u).1 59 56), tideAt := s.tideNum })

/-- A WAIT’s condition holds. -/
def State.ltSatisfied (u : Nat) (s : State) : State :=
  if (s.lt u).waiting.isSome && s.ltHolds u (s.lt u).tideAt then s.ltGo u else s

/-- A WAIT’s TIMEOUT expires first. -/
def State.ltTimeout (u : Nat) (s : State) : State :=
  if (s.lt u).waiting.isSome && bits (s.ltWords u).1 31 0 != 0 && !s.ltHolds u (s.lt u).tideAt then s.ltHaltAt u 4 else s

/-- Channels that wait on a flag, the lowest number first (R510). -/
def State.ltFlagWake (s : State) : State :=
  s.each ((unitsOf .barge) ++ unitsOf .skiff) (fun u s =>
    if (s.lt u).waiting = some 1 then s.ltStep u (State.ltSatisfied u) else s)

/-- Flags are set, by a register write or a SIGNAL (R510). -/
def State.ltFlags (v : Nat) (s : State) : State :=
  ((s.wr Reg.LT_FLAGS (Nat.lor (s.rd Reg.LT_FLAGS) (v % two32))).ltFlagWake).ltIdle

/-- A write of LT_FLAGS_SET. -/
def State.ltFlagsSet (agent v : Nat) (s : State) : State :=
  if s.armBlocks agent Reg.LT_FLAGS_SET then s.usageReg agent Reg.LT_FLAGS_SET else s.ltFlags v

/-- At a tide start channels that wait for it go on (R509). -/
def State.ltTide (s : State) : State :=
  (s.each ((unitsOf .barge) ++ unitsOf .skiff) (fun u s =>
    if (s.lt u).waiting = some 0 then s.ltStep u (State.ltSatisfied u) else s)).ltIdle

/-! ### Bus errors and stops (R514, R515, R517) -/

/-- An attempt of a burst fails with a bus error: reissued, or the halt when the retries are exhausted (R514, R515). -/
def State.ltBusError (u : Nat) (write : Bool) (addr : Nat) (s : State) : State :=
  let x := s.lt u
  let n := if x.again then x.retries else 0
  if n < s.fld (ucb u Reg.LT_CFG) 2 0 then (s.setLt u { x with retries := n + 1, again := true }).sndCount u 0x502 1
  else (s.setLt u { x with retries := n }).ltHalt u 1 write addr

/-- HALT of a channel: no burst is between issue and completion here, so it ends at once (R517). -/
def State.ltAbort (u : Nat) (s : State) : State :=
  (if (s.ltJob u).isSome then s.ltHaltAt u 5 else s).ltIdle

/-- QUIESCE of a channel that already waits for the tide (R517). -/
def State.ltQuiesce (u : Nat) (s : State) : State :=
  (if (s.ltJob u).isSome && (s.lt u).waiting = some 0 then s.ltHaltAt u 6 else s).ltIdle

/-- OUTBOUND_TIMEOUT: an outbound read fails; the channel that made it counts a failed attempt, and a job of any other unit gets a
bus error (R35, R452, R514, R557). -/
def State.outTimeout (agent : Nat) (s : State) : State :=
  let s := (s.bump Reg.HOST_OUT_ERR_LAST 1).setBit Reg.HOST_EVENT 6
  if isChannel agent && (s.lt agent).moving then
    let w0 := (s.ltWords agent).1
    let x := s.lt agent
    (s.ltBusError agent false ((effAddr (mvSrcSp w0) (bits w0 39 0) x.os + x.issued) % two40)).ltIdle
  else
    match unitKind agent, (s.unit agent).job with
    | some _, some j => if isChannel agent then s else s.setJob agent { j with stopWith := some 0x21 }
    | _, _ => s

/-! ### Views (R519, R520) -/

def State.viewLtStatus (s : State) (u : Nat) : Nat :=
  let y := s.lt u
  -- bits 22:15 clear when a job is dispatched
  let x := if (s.ltJob u).isSome && !s.bit (ucb u Reg.LT_STATUS) 16
    then { y with lastBeat := false, waiting := none, isDone := false, cause := 0 } else y
  x.pc % 4096 + x.retries % 8 * 4096 + b2n x.lastBeat * 2 ^ 15 + b2n (s.bit (ucb u Reg.LT_STATUS) 16) * 2 ^ 16
    + b2n x.waiting.isSome * 2 ^ 17 + b2n x.isDone * 2 ^ 18 + x.cause * 2 ^ 19 + b2n x.errWrite * 2 ^ 23

def State.viewLtRunning (s : State) (w : Nat) : Nat :=
  (List.range 32).foldl (fun n i =>
    let k := 32 * w + i
    n + b2n (s.bit (ucb (0x90 + k) Reg.LT_STATUS) 16) * 2 ^ i) 0

/-- Bytes in a skiff’s holding register: those read and not yet written. -/
def State.ltHold (s : State) (u : Nat) : List Nat :=
  if isSkiff u then (s.lt u).fetched.drop ((s.lt u).put % swapUnit (mvSwap (s.ltWords u).1)) else []

/-! ### Meanings -/

/-- RUN_PROGRAM (R497). -/
def execRunProgram (unit : Nat) (s : State) : Host.Outcome State Fault Refusal := .next (s.runProgram unit).ltIdle
/-- LOOP (R508). -/
def execLoop (unit : Nat) (s : State) : Host.Outcome State Fault Refusal := .next (s.ltStep unit (State.ltLoop unit)).ltIdle
/-- LT_WAIT (R509). -/
def execLtWait (unit : Nat) (s : State) : Host.Outcome State Fault Refusal := .next (s.ltStep unit (State.ltWait unit)).ltIdle
/-- LT_WAIT_SATISFIED (R509). -/
def execLtWaitSatisfied (unit : Nat) (s : State) : Host.Outcome State Fault Refusal := .next (s.ltStep unit (State.ltSatisfied unit)).ltIdle
/-- WAIT_TIMEOUT (R509). -/
def execWaitTimeout (unit : Nat) (s : State) : Host.Outcome State Fault Refusal := .next (s.ltStep unit (State.ltTimeout unit)).ltIdle
/-- LT_FLAGS_SET (R510). -/
def execLtFlagsSet (agent value : Nat) (s : State) : Host.Outcome State Fault Refusal := .next (s.ltFlagsSet agent value)
/-- OUTBOUND_TIMEOUT (R557). -/
def execOutboundTimeout (agent : Nat) (s : State) : Host.Outcome State Fault Refusal := .next (s.outTimeout agent)

end Sys2Proof.Machine
end

