-- ==== Sys2Proof/Machine/Watch.lean ====
section
/-! DEFINITION. The Watch (17_faults_and_availability.md: R586 to R606): fences, spares and takeovers, acknowledgements,
fence clears, control-core pairs, the safe state, FAULT_N and the LEDs. -/

namespace Sys2Proof.Machine

/-! ### Codes of a unit (R583) -/

/-- A code that fences a unit: "Fence and spare", or the code of a lighter channel or an egress engine. -/
def fenceCode (u code : Nat) : Bool :=
  match unitKind u with
  | some .barge | some .skiff => code = 0x5710
  | some .egress => code = 0x4C10
  | some .group => false
  | some k => [0x10, 0x12, 0x13, 0x14, 0x15].any (fun n => code = 0x4000 + k.nibble * 256 + n) || (k == .gantry && code = 0x4811)
  | none => false

/-- The code HANG has for a unit. -/
def hangCode (u : Nat) : Nat :=
  match unitKind u with
  | some .barge | some .skiff => 0x5710
  | some .egress => 0x4C10
  | some k => 0x4014 + k.nibble * 256
  | none => 0

/-! ### The berths of a fenced unit (R590, R592, R595) -/

/-- No spare is available (R592): NO_SPARE is reported, the streams of the berth stop as under HALT, and what its fenced unit
had in flight ends ABORTED. -/
def State.noSpare (u : Nat) (s : State) : State :=
  let k := match unitKind u with
    | some k => k.nibble
    | none => 0
  let s := s.report (0x5020 + 256 * k) noAgent 0 0
  let b := s.topOf 4096 u
  let x := s.unit b
  let s := s.abandonJob b 0x10
  s.each ((x.ctxs ++ x.joining).filter (fun c => decide (c < 4096))) (fun c s => s.stopStream c true)

/-- A spare is chosen for a fenced unit, the lowest-numbered of its type, and its aliases is entered; with none, or with the
aliases table full, R592 (R589). -/
def State.chooseSpare (u : Nat) (s : State) : State :=
  let mine := fun (v : Nat) => s.watch.takeovers.any (fun (t : Nat × Nat) => t.2 = v)
  let free := match unitKind u with
    | some k => (s.spares k).filter (fun v => !mine v)
    | none => []
  let others := s.watch.aliases.filter (fun p => p.1 != u)
  match free with
  | v :: _ =>
    if others.length < 64 then
      let moved := List.map (fun (p : Nat × Nat) => if p.2 = u then (p.1, v) else p) others
      let s := { s with watch := { s.watch with aliases := moved ++ [(u, v)], takeovers := s.watch.takeovers ++ [(u, v)] } }
      s.setUnitF v (fun x => { x with pow := .on })
    else s.noSpare u
  | [] => s.noSpare u

/-- Egress bookings and flows stand on the engines R595 gives; overload is judged (R348, R595). -/
def State.egressConds (s : State) : State :=
  s.each (unitsOf .egress) (fun e s =>
    let more := decide (50000000000 < s.engineRate e)
    let s := s.whenB (more && !s.held 0x5C11 e) (State.setBit Reg.HM_EVENT 5)
    s.cond more 0x5C11 e)

/-- The bookings of every flow move to the engine that now serves it (R595). -/
def State.egressMove (s : State) : State :=
  let s := s.each (s.books.filter (fun p => p.2.rate != 0)) (fun p s =>
    let e := s.flowEngine (s.outFlow p.1)
    let o := p.2.engine
    if e = o then s
    else
      let x := s.unit o
      let y := s.unit e
      let wasIn := x.ctxs.contains p.1
      let s := s.setBook p.1 { p.2 with engine := e }
      let cs := x.ctxs.filter (fun c => c != p.1)
      let js := x.joining.filter (fun c => c != p.1)
      let s := s.setUnit o { x with ctxs := cs, joining := js, berth := if cs = [] ∧ js = [] then .free else x.berth }
      s.setUnit e { y with
        ctxs := if wasIn then y.ctxs ++ [p.1] else y.ctxs
        joining := if wasIn then y.joining else y.joining ++ [p.1]
        berth := if wasIn then .bound else if y.berth == .free then .reserved else y.berth })
  s.egressConds

/-- The engine that adopts the work of a fenced engine (R595). -/
def State.adopter (s : State) (u : Nat) : Option Nat :=
  ((List.range 8).map (fun i => 0xE0 + (u - 0xE0 + i) % 8)).find? (fun e => s.eng e != .fenced)

/-- An egress engine is fenced: its flows, bookings and interrupted job move (R595). -/
def State.egressFence (u : Nat) (s : State) : State :=
  let s := s.egressMove
  match s.adopter u with
  | none => s
  | some e =>
    let ts := List.map (fun (t : Nat × Nat) => if t.2 = u then (t.1, e) else t) s.watch.takeovers
    { s with watch := { s.watch with takeovers := if (s.unit u).job.isSome then ts ++ [(u, e)] else ts } }

/-! ### Fencing (R588) -/

/-- A fence of a unit not yet FENCED (R588, R589, R595, R517). -/
def State.fenceUnit (code u : Nat) (s : State) : State :=
  let old := s
  let was := s.eng u
  let n := SMap.get (fun _ => 0) s.watch.fencedTimes u
  let s := { s with watch := { s.watch with
    fences := (s.watch.fences + 1) % two32
    fencedTimes := SMap.set (fun _ => 0) s.watch.fencedTimes u (n + 1) } }
  let o := ucb u Reg.UCB_FAULT
  let s := (s.wr o (code + 65536 * min 65535 (s.fld o 31 16 + 1))).setEng u .fenced
  let s := s.unitIrq u 1
  let s := match unitKind u with
    | some .barge | some .skiff => s.ltAbort u
    | some .egress => s.egressFence u
    | some .group => s
    | none => s
    | _ =>
      match s.watch.takeovers.find? (fun (t : Nat × Nat) => t.2 = u) with
      | some t =>
        let s := { s with watch := { s.watch with
          takeovers := s.watch.takeovers.filter (fun x => x.2 != u)
          aliases := s.watch.aliases.filter (fun (p : Nat × Nat) => !(p.1 = t.1 && p.2 = u)) } }
        s.chooseSpare t.1
      | none => if was == Eng.spare then s else s.chooseSpare u
  (s.afterSpares old).dispatch

/-- A report that fences (R583, R588): logged and entered; a unit already FENCED is not fenced again. -/
def State.fence (code access addr u : Nat) (s : State) : State :=
  if !fenceCode u code then s
  else
    let w := s.eng u == .fenced
    if w then
      -- logged, with no other effect (R588)
      if s.watch.selfLost then s
      else { s with watch := s.watch.logReport code u access s.reportTide s.nsInTide }
    else (s.report code u access addr).fenceUnit code u

/-! ### Takeover (R590, R591) -/

/-- Counters of takeovers (R214, R215, R263). -/
def State.countReplay (u op : Nat) (s : State) : State :=
  if op = 0x0101 then s.inc (ucb u Reg.TL_REPLAYS)
  else if op = 0x0102 then s.inc (ucb u Reg.GT_REPLAYS)
  else if op = 0x0201 then s.inc (ucb u Reg.GT_ENC_REPLAYS)
  else s

/-- A RECONSTRUCT that runs again reads its entries from the last commit on (R73, R201). -/
def State.replayQuay (j : Job) (s : State) : State :=
  if j.op = 0x0102 then
    match s.quayFind (s.tlBerth j.ctx) j.ctx j.seq with
    | some x => s.quayPut (s.tlBerth j.ctx) x.replay
    | none => s
  else s

/-- Move the entry of a table from one key to another. -/
def moveKey {α : Type} (m : SMap α) (a b : Nat) : SMap α :=
  match m.find? (fun p => p.1 = a) with
  | some p => SMap.ins b p.2 (SMap.del a m)
  | none => m

/-- What names the fenced unit's berth on the die names the spare: bookings, quays, window invocations, a pilot's state base,
and its place in a group (R61, R285, R590). -/
def State.moveBerth (f u : Nat) (s : State) : State :=
  let s := { s with
    books := List.map (fun (p : Nat × Booking) => (p.1, { p.2 with
      charges := List.map (fun (c : Nat × Nat × Nat) => if c.1 = f then (u, c.2) else c) p.2.charges })) s.books
    quays := moveKey s.quays f u
    windows := moveKey s.windows f u }
  let s := s.whenB (unitKind f == some .pilot) (fun s =>
    -- the window program goes with it, since an interrupted invocation runs again on the spare (R291)
    let prog := (s.cs.filter (fun (p : Nat × Nat) => p.1 / 8192 = f * 8 + 3)).map (fun p => p.2)
    ((s.wr40 (ucb u Reg.PL_STATE_BASE_LO) (s.rd40 (ucb f Reg.PL_STATE_BASE_LO))).wr (ucb u Reg.PL_UCW_STATUS)
      (s.rd (ucb f Reg.PL_UCW_STATUS))).ucwWrite u prog)
  match (s.unit u).parent with
  | some g => s.each (List.range (s.grpCount g)) (fun i s =>
      let o := ucb g (Reg.UCB_GRP_MEMBER + 4 * i)
      if s.fld o 11 0 = f then s.wrFld o 11 0 u else s)
  | none => s

/-- SPARE_TAKEOVER: the spare is IDLE with the fenced unit's berth or place, and the interrupted job runs again (R590). -/
def State.takeover (u : Nat) (s : State) : State :=
  match s.watch.takeovers.find? (fun t => t.2 = u && unitKind t.1 != some .egress) with
  | none => s
  | some t =>
    let f := t.1
    let old := s
    let x := s.unit f
    let s := { s with watch := { s.watch with takeovers := s.watch.takeovers.filter (fun y => y != t) } }
    let s := s.setUnitF u (fun y => { y with
      eng := .idle, berth := x.berth, ctxs := x.ctxs, joining := x.joining, parent := x.parent, pow := .on, job := none
      vtime := x.vtime, vfin := x.vfin, standsFor := some (x.standsFor.getD f) })
    let s := s.setUnitF f (fun y => { y with berth := .free, ctxs := [], joining := [], parent := none, job := none, standsFor := none })
    let s := (s.setBit (ucb u Reg.UCB_CTRL) 0).clrBit (ucb u Reg.UCB_CTRL) 2
    let s := (s.moveBerth f u).unitIrq u 3
    let s := s.quayShow u
    let s := match x.parent with
      | none =>
        match x.job with
        | some j => ((s.startJob u { j with rerun := true }).countReplay u j.op).replayQuay j
        | none => s
      | some _ =>
        let g := s.topOf 4096 u
        match (s.unit g).job with
        | some j =>
          let s := (s.setJob g { j with rerun := true }).startJob u j
          ((s.setUnitF u (fun y => { y with job := none })).countReplay u j.op).replayQuay j
        | none => s
    (s.afterSpares old).dispatch

/-- HANG (R593): a unit given a stop, a deadline or a trap, or RUNNING, whose limit has passed; LIMIT 0 disables it. -/
def State.hang (u : Nat) (s : State) : State :=
  let e := s.eng u
  if s.fld Reg.WATCH_HANG_CFG 15 0 ≠ 0 ∧ (e = .running ∨ e = .quiescing ∨ e = .halting) then s.fence (hangCode u) 0 0 u else s

/-! ### Acknowledgement and fence clear (R586, R594) -/

/-- A write of WATCH_ACK: a FENCED entry leaves; an entry of another class does not (R586). -/
def State.watchAck (agent v : Nat) (s : State) : State :=
  if s.armBlocks agent Reg.WATCH_ACK then s.usageReg agent Reg.WATCH_ACK
  else if bits v 15 0 / 4096 = 4 then
    { s with watch := s.watch.leave (fun e => e.code = bits v 15 0 && e.agent = bits v 27 16) }
  else s

/-- Every owner record that names a unit is rewritten to name another (R594). -/
def State.rewriteOwners (u v : Nat) (s : State) : State :=
  s.each s.pools (fun p s => s.each (List.range (s.poolCount p.1)) (fun i s =>
    let g := s.globalIndex p.1 (s.poolBase p.1 + i * s.poolSize p.1)
    if s.allocated g && s.ownerOf g = u then s.setOwner g v else s))

/-- A write of WATCH_FENCE_CLEAR (R594). A write while a self-test runs is discarded with a usage event. -/
def State.fenceClear (agent v : Nat) (s : State) : State :=
  let o := Reg.WATCH_FENCE_CLEAR
  if s.armBlocks agent o || s.watch.clearing.isSome then s.usageReg agent o
  else
    let u := v % 4096
    let refuse := fun (n : Nat) => { s with watch := { s.watch with clearResult := n, clearUnit := u } }
    if (s.unit u).eng ≠ .fenced then refuse 1
    else if 3 ≤ SMap.get (fun _ => 0) s.watch.fencedTimes u then refuse 2
    else if s.watch.safe then refuse 3
    else
      let s := match s.watch.aliases.find? (fun p => p.1 = u) with
        | some p => s.rewriteOwners u p.2
        | none => s
      { s with watch := { s.watch with
          aliases := s.watch.aliases.filter (fun (p : Nat × Nat) => p.1 != u), clearing := some u, clearUnit := u, clearResult := 0 } }

/-- FENCE_SELF_TEST_DONE: a unit that passes becomes STOPPED and its entries leave the table (R594). -/
def State.selfTestDone (pass : Bool) (s : State) : State :=
  match s.watch.clearing with
  | none => s
  | some u =>
    if pass then
      let s := { s with watch := { (s.watch.leave (fun e => e.agent = u && (e.code / 4096 = 4 || e.code = 0x5710))) with
        clearing := none, clearResult := 0 } }
      let s := ((s.setEng u .stopped).clrBit (ucb u Reg.UCB_CTRL) 0).clrBit (ucb u Reg.UCB_CTRL) 2
      if unitKind u == some .egress then s.egressMove else s
    else { s with watch := { s.watch with clearing := none, clearResult := 4 } }

/-! ### The safe state (R598, R601 to R604) -/

/-- The servo is stopped by the safe state: the cause is TIDE_LOST or CC_LOST (R602). -/
def State.servoOff (s : State) : Bool := s.watch.safe && (s.watch.cause == some 0x6210 || s.watch.cause == some 0x6E11)

/-- A write of WATCH_SAFE_FORCE (R601). -/
def State.safeForce (agent v : Nat) (s : State) : State :=
  let o := Reg.WATCH_SAFE_FORCE
  if s.armBlocks agent o then s.usageReg agent o
  else if v.testBit 0 then s.report 0x6002 agent 7 (regAddr o) else s

/-- SAFE_STATE_ENTRY: dispatch and sending stop, jobs in flight are to end ABORTED, engines without a job are power-gated, and
display outputs show the slate (R602). -/
def State.enterSafe (s : State) : State :=
  if !s.watch.safeAsked || s.watch.safe then s
  else
    let s := { s with watch := { s.watch with safe := true } }
    let s := s.markJobs (fun _ => true) 0x10
    -- what waited for a takeover ends with its fenced unit
    let s := s.each s.watch.takeovers (fun t s => s.abandonJob t.1 0x10)
    let s := s.each ((unitsOf .barge) ++ unitsOf .skiff) (fun u s => s.ltAbort u)
    let s := s.each (s.units.filter (fun p => !neverGated p.1 && p.2.job.isNone && p.2.pow != .powerGated)) (fun p s =>
      (s.spadGate p.1).setUnitF p.1 (fun x => { x with pow := .powerGated, micro := Micro.reset }))
    s.each (List.range 8) (fun n s => s.setDisp n { s.disp n with slate := true })

/-! ### Reports of other blocks (R583, R596, R601, R604) -/

/-- A restart of CC2/CC3 stops the servo for at most 2 tides (R144); how many is a free value (log 3). -/
def State.servoPause (s : State) : State :=
  let d := s.draw
  { d.2 with tide := { d.2.tide with pause := d.1 % 3 } }

/-- LOCKSTEP: a mismatch in pair 0 (CC0/CC1) or 1 (CC2/CC3); the third within 60 s fences the pair, the second pair lost is
CC_LOST (R596). -/
def State.lockstep (p : Nat) (s : State) : State :=
  if s.watch.pairsFenced.contains p ∨ 1 < p then s
  else
    let agent := 0x80 + 2 * p
    let t := countNs s.tide.count
    let l := s.watch.lockstep.filter (fun (e : Nat × Nat) => decide (t < e.2 + 60000000000)) ++ [(p, t)]
    let s := ({ s with watch := { s.watch with lockstep := l } }).report 0x3E02 agent 0 0
    let s := if p = 1 then s.servoPause else s
    if (l.filter (fun e => e.1 = p)).length < 3 then s
    else
      let s := { s with watch := { s.watch with pairsFenced := s.watch.pairsFenced ++ [p] } }
      let s := s.report 0x5E10 agent 0 0
      if s.watch.pairsFenced.length = 2 then s.report 0x6E11 agent 0 0 else s

/-- WATCH_SELF: the supervision circuitry enters the safe state, and the Watch records nothing more (R604). -/
def State.watchSelf (s : State) : State :=
  let w := s.watch
  { s with watch := { w with
      selfLost := true, safeAsked := true, cause := if w.safeAsked then w.cause else some 0x6004 } }

/-! ### FAULT_N and the LEDs (R605, R606) -/

/-- FAULT_N is asserted (R605). -/
def State.faultN (s : State) : Bool :=
  s.boot.phase != .unpowered
    && (!s.watch.active.isEmpty || s.watch.safe || s.watch.selfLost || s.boot.phase == .recovery || s.boot.phase == .railRetry)

/-- What an LED shows (R606). -/
inductive Lamp where
  | off | lit | flash1 | blink1 | blink4
  deriving DecidableEq, Repr

/-- The four LEDs are lit for 500 ms from step 1 (R606). -/
def State.lampTest (s : State) : Bool := decide (1 ≤ s.bootStep) && decide (s.tide.count < s.tide.step1 + msCounts 500)

/-- PWR, TIDE, ARM and FAULT (R606). -/
def State.leds (s : State) : List Lamp :=
  match s.boot.phase with
  | .unpowered => [.off, .off, .off, .off]
  | .railRetry => [.lit, .off, .off, .lit]
  | _ =>
    if s.lampTest then [.lit, .lit, .lit, .lit]
    else
      let m := s.fld Reg.TIDE_STATUS 2 0
      [if s.power.inA.single || s.power.inB.single then .blink1 else .lit,
       if !s.running || s.held 0x6210 noAgent then .off else if m = 3 then .flash1 else if m = 1 || m = 2 then .blink4 else .blink1,
       if s.present then .blink4 else if s.boot.broken then .blink1 else if s.boot.arm then .lit else .off,
       if s.watch.safe then .blink4 else if s.faultN then .lit else .off]

/-! ### Views (R608) -/

/-- WATCH_STATUS. -/
def State.viewWatchStatus (s : State) : Nat :=
  let w := s.watch
  let top := (w.active.map (fun e => e.code / 4096)).foldl max 0
  let mode := if w.safe then 2 else if w.active.any (fun e => e.code / 4096 = 5) then 1 else 0
  mode + b2n s.faultN * 4 + b2n w.full * 8 + min 64 w.active.length * 16 + top * 65536

/-- WATCH_FE_INFO. -/
def State.viewFeInfo (s : State) : Nat :=
  match s.watch.fe with
  | some c => c.code % 65536 + c.agent % 4096 * 65536 + c.access % 8 * 2 ^ 28 + 2 ^ 31
  | none => 0

/-- WATCH_SAFE_CAUSE. -/
def State.viewSafeCause (s : State) : Nat :=
  match s.watch.cause with
  | some c => c % 65536 + 2 ^ 31
  | none => 0

/-- WATCH_FENCE_STATUS. -/
def State.viewFenceStatus (s : State) : Nat :=
  b2n s.watch.clearing.isSome + s.watch.clearResult % 8 * 2 + s.watch.clearUnit % 4096 * 65536

/-- The 16 bytes of the log record WATCH_LOG_SEL selects; an empty place reads 0 (R609). -/
def State.viewLogBytes (s : State) : List Nat :=
  match s.watch.log[s.fld Reg.WATCH_LOG_SEL 7 0]? with
  | some r => leBytes 2 r.code ++ leBytes 2 (r.agent % 4096 + r.access % 8 * 4096) ++ leBytes 6 r.tide ++ leBytes 4 r.ns
      ++ leBytes 2 r.count
  | none => List.replicate 16 0

/-- WATCH_ACTIVE_DATA. -/
def State.viewActive (s : State) : Nat :=
  match s.watch.active[s.fld Reg.WATCH_ACTIVE_SEL 5 0]? with
  | some e => e.code % 65536 + e.agent % 4096 * 65536 + 2 ^ 31
  | none => 0

/-! ### Meanings -/

/-- UNIT_FENCE (R588): a block reports a code that fences a unit, with its access type and address. -/
def execUnitFence (unit code access addr : Nat) (s : State) : Host.Outcome State Fault Refusal :=
  .next (s.fence code access addr unit)
/-- SPARE_TAKEOVER (R590). -/
def execSpareTakeover (spare : Nat) (s : State) : Host.Outcome State Fault Refusal := .next (s.takeover spare)
/-- HANG (R593). -/
def execHang (unit : Nat) (s : State) : Host.Outcome State Fault Refusal := .next (s.hang unit)
/-- WATCH_ACK (R586). -/
def execWatchAck (agent value : Nat) (s : State) : Host.Outcome State Fault Refusal := .next (s.watchAck agent value)
/-- WATCH_FENCE_CLEAR (R594). -/
def execWatchFenceClear (agent value : Nat) (s : State) : Host.Outcome State Fault Refusal := .next (s.fenceClear agent value)
/-- FENCE_SELF_TEST_DONE (R594). -/
def execFenceSelfTestDone (pass : Bool) (s : State) : Host.Outcome State Fault Refusal := .next (s.selfTestDone pass)
/-- WATCH_SAFE_FORCE (R601). -/
def execWatchSafeForce (agent value : Nat) (s : State) : Host.Outcome State Fault Refusal := .next (s.safeForce agent value)
/-- SAFE_STATE_ENTRY (R602). -/
def execSafeStateEntry (s : State) : Host.Outcome State Fault Refusal := .next s.enterSafe
/-- LOCKSTEP (R596). -/
def execLockstep (pair : Nat) (s : State) : Host.Outcome State Fault Refusal := .next (s.lockstep pair)
/-- TIDE_LOST (R601). -/
def execTideLost (s : State) : Host.Outcome State Fault Refusal := .next (s.report 0x6210 noAgent 0 0)
/-- WATCH_SELF (R604). -/
def execWatchSelf (s : State) : Host.Outcome State Fault Refusal := .next s.watchSelf
/-- CUSTOMS_LOST (R583). -/
def execCustomsLost (s : State) : Host.Outcome State Fault Refusal := .next (s.report customsLostCode agentCus 0 0)
/-- HM_LOST (R583). -/
def execHmLost (s : State) : Host.Outcome State Fault Refusal := .next (s.report 0x6410 agentHm 0 0)

end Sys2Proof.Machine
end

