-- ==== Sys2Proof/Machine/Soundings.lean ====
section
/-! DEFINITION. The sounding station (18_soundings.md: R610 to R622): event selection, the latch at a tide start, the log, and
sampling. Events whose number depends on timing or on coded content raise their counters by free values (assumption 3). -/

namespace Sys2Proof.Machine

/-! ### Events (R613) -/

/-- An event a unit's counters may count. -/
def Kind.event (k : Kind) (e : Nat) : Bool :=
  let cs := k.csKiw != 0
  if e ≤ 4 then k != .group
  else if e = 5 then k == .gantry || k == .tally
  else if e = 6 ∨ e = 7 then cs
  else
    match k with
    | .gantry => (0x100 ≤ e && e ≤ 0x109) || e = 0x202
    | .tally => 0x200 ≤ e && e ≤ 0x205
    | .pilot => 0x300 ≤ e && e ≤ 0x303
    | .lane => 0x400 ≤ e && e ≤ 0x402
    | .barge | .skiff => 0x500 ≤ e && e ≤ 0x503
    | .egress => 0x600 ≤ e && e ≤ 0x602
    | .group => false

/-- An event block set k may count. -/
def setEvent (k e : Nat) : Bool :=
  decide (e ≤ 1) ||
    match k with
    | 0 => 0x800 ≤ e && e ≤ 0x803
    | 1 => 0x900 ≤ e && e ≤ 0x905
    | 2 => 0xA00 ≤ e && e ≤ 0xA02
    | 3 => 0xB00 ≤ e && e ≤ 0xB02
    | 4 => 0xC00 ≤ e && e ≤ 0xC03
    | 5 => 0xD00 ≤ e && e ≤ 0xD03
    | _ => false

/-- An event a source may count. -/
def sndOk (src e : Nat) : Bool :=
  if 0xF00 ≤ src then decide (src < 0xF06) && setEvent (src - 0xF00) e
  else
    match unitKind src with
    | some k => k.event e
    | none => false

/-- Events whose every occurrence is an effect of some command here; the count of any other event is a free value. -/
def sndExact (e : Nat) : Bool :=
  [0, 3, 6, 7, 0x105, 0x106, 0x200, 0x201, 0x203, 0x302, 0x303, 0x500, 0x501, 0x502, 0x600, 0x601, 0x800, 0x801, 0x802, 0x803, 0xB00, 0xB01, 0xB02, 0xD00, 0xD01, 0xD03].contains e

/-- A source with counters: a unit with a UCB that is no group, or a block set. -/
def sndSource (src : Nat) : Bool :=
  if 0xF00 ≤ src then decide (src < 0xF06)
  else
    match unitKind src with
    | some .group => false
    | some _ => true
    | none => false

/-- A staged write of SND_SELi of a source: refused, it changes nothing. Answers whether it was accepted (R613). -/
def State.sndSelect (agent src i v : Nat) (s : State) : Bool × State :=
  let o := sndBase src i
  if !sndSource src ∨ 7 < i then (false, s.usageReg agent o)
  else if sndOk src (bits v 11 0) then (true, s.stage o (Nat.land v 0x1FFF))
  else (false, s.usageReg agent o)

/-- A write of SND_SELi: by the host only while ARM is 1. -/
def State.sndSelWrite (agent src i v : Nat) (s : State) : State :=
  if s.armBlocks agent (sndBase src i) then s.usageReg agent (sndBase src i)
  else if unitKind src == some .group && decide (src < 0xF00) then s
  else (s.sndSelect agent src i v).2

/-- RMP SND_CTRL (R622): entries in order; the first refused ends the command. -/
def sndEntries (agent : Nat) : List Nat → Nat → State → Bool × State
  | _, 0, s => (true, s)
  | b, n + 1, s =>
    let r := s.sndSelect agent (bodyN b 0 2) (byteAt b 2) (bodyN b 4 4)
    if r.1 then sndEntries agent (b.drop 8) n r.2 else r

/-- The command’s body: 1 to 64 entries of 8 bytes. -/
def sndCtrl (body : List Nat) (s : State) : Nat × List Nat × State :=
  if body.length % 8 ≠ 0 ∨ body.length = 0 ∨ 512 < body.length then (stBadRequest, [], s)
  else
    let r := sndEntries agentCc0 body (body.length / 8) s
    if r.1 then (stOk, [], r.2.runtimeChanged false) else (stRefused, [], r.2)

/-! ### The log (R614 to R616) -/

/-- The ring lies within the capacity and outside the protected region (R615). -/
def State.sndRingOk (s : State) (base : Nat) : Bool :=
  let n := 64 * s.sndRecords
  decide (base + n ≤ s.capacity)
    && !(s.protOn && decide (base < s.protBase + s.protSize) && decide (s.protBase < base + n))

/-- The context a unit's berth binds, or 0xFFFF. -/
def State.sndCtx (s : State) (src : Nat) : Nat :=
  if 0xF00 ≤ src then 0xFFFF
  else
    match (s.unit src).ctxs with
    | [c] => c
    | _ => 0xFFFF

/-- The COUNTERS record of a source (R616). -/
def State.sndCounters (src tide : Nat) (s : State) : State :=
  let fl := (List.range 8).foldl (fun n i => n + b2n (s.bit (sndBase src i + 4) 1) * 2 ^ i) 0
  let body := (List.range 8).flatMap (fun i => leBytes 6 (s.rd64 (sndBase src i + 0x10)))
  (s.sndRecord (sndHeader src 0 fl tide (s.sndCtx src) ++ body)).2

/-! ### The latch of a tide start (R612, R614, R621) -/

/-- The counter whose window holds a register offset, as the offset of its SND_SELi. -/
def sndOf (o : Nat) : Option Nat :=
  match blockOf o with
  | .ucb => if 0x100 ≤ ucbOff o ∧ ucbOff o < 0x200 then some (o - (o % 0x20)) else none
  | .snd => if Reg.SNDSET_SEL ≤ o ∧ o < Reg.SNDSET_SEL + 0x600 then some (o - (o % 0x20)) else none
  | _ => none

/-- Counters with a register away from its reset value, or a staged selection. -/
def State.sndLive (s : State) : List Nat :=
  ((s.regs.map (fun p => p.1) ++ s.staged.map (fun p => p.1)).filterMap sndOf).eraseDups

/-- A timing-driven counter has run on by a free number; with FREE 0 it cannot wrap within a tide (R612). -/
def State.sndRun (o : Nat) (s : State) : State :=
  if sndExact (s.fld o 11 0) then s
  else
    let d := s.draw
    d.2.sndAdd o (if s.bit o 12 then d.1 % 2 ^ 48 else d.1 % (2 ^ 48 - s.rd64 (o + 8) % 2 ^ 48))

/-- One counter at a tide start; `restaged` says that its selection changes in this cycle (R612). -/
def State.sndLatch (o : Nat) (restaged : Bool) (s : State) : State :=
  let s := s.sndRun o
  let s := (s.wr64 (o + 0x10) (s.rd64 (o + 8))).putBit (o + 4) 1 (s.bit (o + 4) 0)
  if s.bit o 12 && !restaged then s
  else
    let s := s.wr64 (o + 8) 0
    if s.bit o 12 then s else s.clrBit (o + 4) 0

/-- A tide start at the station: counters latch, the sample configuration comes into force, records are written. Called before
staged values are applied, with whether they are (R22). -/
def State.sndTide (applies : Bool) (ended : Nat) (s : State) : State :=
  let s := ({ s with sndEnded := ended }).each s.sndLive (fun o s => s.sndLatch o (applies && s.staged.any (fun p => p.1 = o)))
  let s := if s.rd Reg.SND_SAMPLE_CFG = s.sndCfg then s
    else { s with sndCfg := s.rd Reg.SND_SAMPLE_CFG, sndLfsr := s.rd Reg.SND_TAG_SEED }
  if !s.bit Reg.SND_CTRL 0 then s
  else
    let us := (List.range 256).filter (fun u => sndSource u && s.bit (Reg.SND_LOG_UNITS + 4 * (u / 32)) (u % 32))
    let ks := ((List.range 6).filter (fun k => s.bit Reg.SND_LOG_SETS k)).map (fun k => 0xF00 + k)
    s.each (us ++ ks) (fun src s => s.sndCounters src ended)

/-! ### Sampling (R618, R621) -/

/-- The sample configuration a write would leave is refused (R621). -/
def State.sampleRefused (s : State) (v : Nat) : Bool :=
  let u := bits v 15 4
  let k := unitKind u
  match v % 4 with
  | 0 => false
  | 1 => !(k == some .gantry || k == some .tally) || s.fld (sndBase u (bits v 18 16)) 11 0 = 0
  | 2 => !(k == some .tally) || bits v 27 24 = 0
  | _ => true

/-- A write of SND_SAMPLE_CFG. -/
def State.sampleCfgWrite (agent v : Nat) (s : State) : State :=
  let o := Reg.SND_SAMPLE_CFG
  if s.armBlocks agent o || s.sampleRefused v then s.usageReg agent o else s.wr o (Nat.land v 0x0F07FFF3)

/-- SKID_SAMPLE: a crossing of the sampled counter; one before the previous record is written is only counted (R618). The block
is given: it is the one of the crossing or one of the 64 that follow. -/
def State.skidSample (column row value : Nat) (busy : Bool) (s : State) : State :=
  if s.sndCfg % 4 ≠ 1 then s
  else if busy then s.bump Reg.SND_MISSED_LAST 1
  else
    let u := bits s.sndCfg 15 4
    let i := bits s.sndCfg 18 16
    let o := sndBase u i
    let live := if sndExact (s.fld o 11 0) then s.rd64 (o + 8) else value % 2 ^ 48
    let j := (s.unit (s.topOf 4096 u)).job
    let ctx := match j with
      | some j => j.ctx
      | none => 0xFFFF
    let src := match j with
      | some j => s.srcTide j
      | none => 0
    let body := leBytes 2 column ++ leBytes 2 row ++ leBytes 6 src ++ [i, 0] ++ leBytes 6 live ++ List.replicate 30 0
    let r := s.sndRecord (sndHeader u 1 0 s.tideNum ctx ++ body)
    let s := r.2.setBit Reg.SND_EVENT 1
    s.whenB r.1 (State.bump Reg.SND_SAMPLES_LAST 1)

/-! ### The mirror (R617) -/

/-- Word of the user mirror at an offset from the SND block: the counter’s SND_SELi offset and the word, or none where no
counter lies. -/
def sndMirror (x : Nat) : Option (Nat × Nat) :=
  if x < 0x8000 ∨ 0xC180 ≤ x then none
  else
    let src := if x < 0xC000 then (x - 0x8000) / 0x40 else 0xF00 + (x - 0xC000) / 0x40
    if sndSource src then some (sndBase src (x % 0x40 / 8), x % 8 / 4) else none

/-- A read of the mirror. -/
def State.viewMirror (s : State) (x : Nat) : Nat :=
  match sndMirror x with
  | none => 0
  | some (o, w) =>
    if !s.bit Reg.SND_CTRL 1 then 0
    else if w = 0 then s.rd (o + 0x10)
    else s.rd (o + 0x14) % 65536 + s.sndEnded % 256 * 2 ^ 24

/-! ### Meanings -/

/-- SND_SEL_WRITE (R613). -/
def execSndSelWrite (agent source counter value : Nat) (s : State) : Host.Outcome State Fault Refusal :=
  .next (s.setting (sndBase source (counter % 8)) (State.sndSelWrite agent source (counter % 8) value))
/-- SND_SAMPLE_CFG_WRITE (R621). -/
def execSndSampleCfgWrite (agent value : Nat) (s : State) : Host.Outcome State Fault Refusal := 
  .next (s.setting Reg.SND_SAMPLE_CFG (State.sampleCfgWrite agent value))
/-- SKID_SAMPLE (R618). -/
def execSkidSample (column row value : Nat) (busy : Bool) (s : State) : Host.Outcome State Fault Refusal :=
  .next (s.skidSample column row value busy)
/-- SND_CTRL (R622): of the operational class. -/
def execSndCtrl (req : Req) (body : List Nat) (s : State) : Host.Outcome State Fault Refusal :=
  .next (s.rmpRun req 0x14 .operational (sndCtrl body))

end Sys2Proof.Machine
end

