-- ==== Sys2Proof/Machine/Hardware.lean ====
section
/-! DEFINITION. The module at its connectors (19_module_hardware.md: R626 to R653): the carrier's I2C target, hot insertion, and
the start heater. -/

namespace Sys2Proof.Machine

/-- The rails are good (R77, R642). -/
def State.railsGood (s : State) : Bool := s.boot.phase != .unpowered && s.boot.phase != .railRetry

/-- P3V3_OUT is on: while the rails are good, but in RECOVERY not with a load above 1 A (R636). -/
def State.p3v3On (s : State) : Bool := s.railsGood && !(s.boot.phase == .recovery && decide (1000 < s.power.p3v3))

/-- The current P3V3_OUT supplies, mA: its load; an overload is limited to 1 A, with a foldback the manual does not size (R636). -/
def State.p3v3Current (s : State) : Nat :=
  if !s.p3v3On then 0 else if s.power.p3v3 ≤ 1000 then s.power.p3v3 else min 1000 (Config.p3v3Foldback s.power.p3v3)

/-- The start heater warms the memory: on a grade X module, in the first 1.0 s, while the baseplate is below −20 °C (R653). -/
def State.heaterOn (s : State) : Bool := s.boot.heater && decide (s.power.tb < -20)

/-- An input voltage in 100 mV units, 0 below 0 V. -/
def decivolts (mv : Int) : Nat := (mv / 100).toNat

/-- The byte at an offset of the I2C target (R642). -/
def State.i2cByte (s : State) (o : Nat) : Nat :=
  let word := fun (v : Nat) => if o % 2 = 0 then v % 256 else v / 256 % 256
  if o = 0 then 0x72
  else if o = 1 then 0x16
  else if o = 2 then s.ident.variant % 8
  else if o = 3 then
    b2n s.railsGood + b2n (s.bit Reg.CUS_BOOT_STATUS 7) * 2 + b2n s.watch.safe * 4 + b2n s.faultN * 8 + b2n (s.power.inA.st == .ok) * 16
      + b2n (s.power.inB.st == .ok) * 32 + b2n (s.boot.phase == .recovery) * 64
  else if o < 6 then word (decivolts s.power.inA.mv)
  else if o < 8 then word (decivolts s.power.inB.mv)
  else if o < 10 then word (s.rd Reg.PWR_IN_MW / 1000)
  else if o = 10 then unsigned 8 s.power.tb
  else if o = 11 then unsigned 8 s.power.tj
  else if o < 14 then word (s.rd Reg.NET_NODE % 65536)
  else if o < 0x1E then s.ident.serial.getD (o - 14) 0 % 256
  else 0xFF

/-- I2C_WRITE: the first byte sets the offset; further bytes are not acknowledged (R642). -/
def State.i2cWrite (bytes : List Nat) (s : State) : State :=
  if !s.railsGood then s
  else
    match bytes with
    | b :: _ => { s with i2cOfs := b % 256, i2cWait := false }
    | [] => { s with i2cWait := false }

/-- I2C_READ: `n` bytes from the offset upward, taken together (R642). -/
def State.i2cRead (n : Nat) (s : State) : State :=
  if !s.railsGood then s
  else ({ s with i2cWait := false }).emit (.i2c ((List.range n).map (fun i => s.i2cByte (s.i2cOfs + i))))

/-- I2C_BUS_RELEASE: a bus held low for 35 ms is released; the target waits for a STOP (R642). -/
def State.i2cRelease (s : State) : State := if s.railsGood then { s with i2cWait := true } else s

/-- HOT_INSERTION: each live input charges the bus under a limit of 3 A until the bus is within 2 V of it (R629). -/
def State.hotInsert (mvA mvB : Int) (s : State) : State :=
  let limit := fun (b : Bool) (mv : Int) (s : State) =>
    if inputAt .absent mv == .ok && (s.input b).st != .ok then s.emit (.supply (b2n b) 3000) else s
  ((((limit false mvA s).inputChange false mvA)) |> limit true mvB).inputChange true mvB

/-- HEATER_OFF (R653). -/
def State.heaterOff (s : State) : State := { s with boot := { s.boot with heater := false } }

/-! ### Meanings -/

/-- I2C_WRITE (R642). -/
def execI2cWrite (bytes : List Nat) (s : State) : Host.Outcome State Fault Refusal := .next (s.i2cWrite bytes)
/-- I2C_READ (R642). -/
def execI2cRead (len : Nat) (s : State) : Host.Outcome State Fault Refusal := .next (s.i2cRead len)
/-- I2C_BUS_RELEASE (R642). -/
def execI2cBusRelease (s : State) : Host.Outcome State Fault Refusal := .next s.i2cRelease
/-- HEATER_OFF (R653). -/
def execHeaterOff (s : State) : Host.Outcome State Fault Refusal := .next s.heaterOff

end Sys2Proof.Machine
end

