-- ==== Sys2Proof/Machine/UnitCtrl.lean ====
section
/-! DEFINITION. Writes of UCB_CTRL and UCB_GRP_CTRL (01_harbour_layout.md: R44 to R50, R54, R59) and of watermark words (R75). -/

namespace Sys2Proof.Machine

/-- Who writes UCB_CTRL: an agent, whose clear of SPARE needs presence; the Etvor image, exempt from R50 (R589); or a command
already authorised. -/
inductive CtrlBy where
  | agent | image | authorised
  deriving DecidableEq, Repr

/-- A running unit is told to stop (R47, R517): with HALT the job ends at its next commit. -/
def State.stopRunning (u : Nat) (halt : Bool) (s : State) : State :=
  let s := s.setEng u (if halt then .halting else .quiescing)
  if isChannel u then (if halt then s.ltAbort u else s.ltQuiesce u)
  else if halt then
    match (s.unit (s.workOf u)).job with
    | some j => s.setJob (s.workOf u) { j with stopWith := some 0x10 }
    | none => s
  else s

/-- An accepted write of UCB_CTRL changes the engine state as R47 lists; any other change is ignored. -/
def State.ctrlEffect (u v : Nat) (s : State) : State :=
  let en := v.testBit 0
  let spare := v.testBit 2
  match s.eng u with
  | .stopped =>
    if spare then (s.setUnitF u (fun x => { x with standsFor := none })).setEng u .spare
    else if en then (s.whenB (unitKind u == some .group) (State.adopt u)).setEng u .idle
    else s
  | .idle =>
    if spare then (s.setUnitF u (fun x => { x with standsFor := none })).setEng u .spare
    else if en then s
    else s.stopDone u
  | .running => if en then s else s.stopRunning u (v.testBit 1)
  | .quiescing =>
    let s := s.setUnitF u (fun x => { x with reEnable := en })
    if v.testBit 1 then s.stopRunning u true else s
  | .halting => s.setUnitF u (fun x => { x with reEnable := en })
  | .spare => if spare then s else s.setEng u .stopped
  | .fenced => s

/-- A write of UCB_CTRL (R44 to R50, R54); an accepted one not of the image sets RUNTIME_CHANGED (R109). -/
def State.ctrlWrite (by_ : CtrlBy) (u v : Nat) (s : State) : State :=
  let old := s
  let st := s.eng u
  let x := s.rd (ucb u Reg.UCB_CTRL)
  let kindOk := match unitKind u with
    | some k => k.spareOk
    | none => false
  let v := v % 8
  -- SPARE = 1 where the unit cannot become a spare is ignored (R44, R47)
  let v := if v.testBit 2 && !(kindOk && (st == .stopped || st == .idle || st == .spare)) then putBits v 2 2 (bits x 2 2) else v
  let clears := st == .spare && !v.testBit 2
  if v.testBit 0 && st == .fenced then s.cfgRefuse u 7
  else if clears && by_ == .agent && !(s.boot.arm && s.present) then s.cfgRefuse u 8
  else
    let g := if unitKind u == some .group && st == .stopped && v.testBit 0 && !v.testBit 2 then s.groupCheck u else 0
    if g ≠ 0 then s.cfgRefuse u g
    else
      let s := ((s.cfgAccept u).wr (ucb u Reg.UCB_CTRL) v).runtimeChanged (by_ == .image)
      let s := s.whenB (clears && by_ == .agent) (State.measEvent 5)
      ((s.ctrlEffect u v).afterSpares old).dispatch

/-- A write of UCB_CTRL by an agent: the host only while ARM is 1 (R100). -/
def State.unitCtrl (agent u v : Nat) (s : State) : State :=
  let o := ucb u Reg.UCB_CTRL
  if s.armBlocks agent o then s.usageReg agent o
  else if (unitKind u).isNone then s.usageReg agent o
  else s.ctrlWrite .agent u v

/-- A write of UCB_CTRL that changes one field and leaves the others as they read. -/
def State.ctrlField (agent u hi lo x : Nat) (s : State) : State :=
  s.unitCtrl agent u (putBits (s.rd (ucb u Reg.UCB_CTRL)) hi lo x)

/-- A write of UCB_GRP_CTRL by an agent (R55, R58, R59). -/
def State.grpWrite (agent u v : Nat) (s : State) : State :=
  let o := ucb u Reg.UCB_GRP_CTRL
  if s.armBlocks agent o || (unitKind u).isNone then s.usageReg agent o else s.grpCtrlWrite u v

/-- DEPTH of the FIFO whose watermark word lies at an offset (R71, R214, R362). -/
def wmDepth (o : Nat) : Option Nat :=
  if o = Reg.FEED_FIFO_WM ∨ o = Reg.FEED_FIFO_WM + 0x100 then some 256
  else if blockOf o == .ucb && unitKind (ucbUnit o) == some .tally && ucbOff o = Reg.TL_QUAY_WM then some 16384
  else none

/-- A write of the watermark word at an offset (R75, R76); an offset that holds none changes nothing. -/
def State.watermark (agent o v : Nat) (s : State) : State :=
  match wmDepth o with
  | none => s
  | some d => if s.armBlocks agent o then s.usageReg agent o else s.wmWrite agent o d (v % two32)

/-! ### Meanings -/

/-- UNIT_ENABLE (R47, R49, R50, R54): ENABLE is written 1. -/
def execUnitEnable (agent unit : Nat) (s : State) : Host.Outcome State Fault Refusal := .next (s.ctrlField agent unit 0 0 1)
/-- UNIT_DISABLE (R47): ENABLE is written 0 with a STOP_MODE. -/
def execUnitDisable (agent unit : Nat) (halt : Bool) (s : State) : Host.Outcome State Fault Refusal :=
  .next (s.ctrlField agent unit 1 0 (2 * b2n halt))
/-- STOP_MODE_HALT (R47). -/
def execStopModeHalt (agent unit : Nat) (s : State) : Host.Outcome State Fault Refusal := .next (s.ctrlField agent unit 1 1 1)
/-- SPARE_SET (R47). -/
def execSpareSet (agent unit : Nat) (s : State) : Host.Outcome State Fault Refusal := .next (s.ctrlField agent unit 2 2 1)
/-- SPARE_CLEAR (R50). -/
def execSpareClear (agent unit : Nat) (s : State) : Host.Outcome State Fault Refusal := .next (s.ctrlField agent unit 2 2 0)
/-- GROUP_CTRL_WRITE (R55). -/
def execGroupCtrlWrite (agent unit value : Nat) (s : State) : Host.Outcome State Fault Refusal :=
  .next (if unitKind unit = some .group then s.setting (ucb unit Reg.UCB_GRP_CTRL) (State.grpWrite agent unit value)
    else s.grpWrite agent unit value)
/-- QUAY_WATERMARK_WRITE (R75). -/
def execQuayWatermarkWrite (agent offset value : Nat) (s : State) : Host.Outcome State Fault Refusal :=
  .next (if (wmDepth offset).isSome then s.setting offset (State.watermark agent offset value) else s)

end Sys2Proof.Machine
end

