-- ==== Sys2Proof/Machine/Tide.lean ====
section
/-! DEFINITION. The tide clock, PTP and the servo (03_tide.md: R115 to R119, R133 to R149, R151): rebases, rates, steps,
servo modes, and the events of the PTP and PPS inputs. -/

namespace Sys2Proof.Machine

/-! ### The clock (R115 to R118) -/

/-- The limit of the rate fraction, 200 ppm (R116). -/
abbrev rateLimit : Int := 137438953

/-- n ppm of 0.625 ns, in units of 2⁻⁴⁰ ns (R116, R138). -/
def ppm (n : Nat) : Int := (n * 687194767360 / 1000000 : Nat)

/-- Rebase: the offset takes device time as it stands, and the base the count (R116, R117). -/
def State.rebase (s : State) : State :=
  let t := s.tide.readTime
  { s with tide := { s.tide with offNs := t.1, offSub := t.2, base := s.tide.count } }

/-- The servo mode: 0 FREERUN, 1 ACQUIRING, 2 LOCKING, 3 HOLDING, 4 HOLDOVER. -/
def State.servo (s : State) : Nat := s.fld Reg.TIDE_STATUS 2 0

/-- The newest entries of a list of counts and rates that together last no more than a number of counts. -/
def lastRates : Nat → List (Nat × Int) → List (Nat × Int)
  | _, [] => []
  | n, x :: xs => if n = 0 then [] else (min n x.1, x.2) :: lastRates (n - x.1) xs

/-- The rate in force up to now joins those of the last 64 s spent in HOLDING or LOCKING (R138). -/
def State.noteRate (s : State) : State :=
  let t := s.tide
  let seg : List (Nat × Int) := if s.servo = 2 ∨ s.servo = 3 then [(t.count - t.histAt, t.rate)] else []
  { s with tide := { t with hist := lastRates 102400000000 (seg ++ t.hist), histAt := t.count } }

/-- The mean rate of those 64 s; the rate in force where they hold no time yet. -/
def TideSt.meanRate (t : TideSt) : Int :=
  let n : Nat := (t.hist.map (fun x => x.1)).foldl (· + ·) 0
  let sum : Int := (t.hist.map (fun x => (x.1 : Int) * x.2)).foldl (fun a b => a + b) 0
  if n = 0 then t.rate else sum / (n : Int)

/-- A rate fraction comes into force, held within the limit, in a cycle that rebases (R116). -/
def State.setRate (r : Int) (s : State) : State :=
  let r := clamp (-rateLimit) rateLimit r
  let s := s.noteRate.rebase
  ({ s with tide := { s.tide with rate := r } }).wr40 Reg.TIDE_RATE_FRAC_LO (unsigned 40 r)

/-- The first count at which device time is at least a number of ns (R122). -/
def TideSt.countAt (t : TideSt) (ns : Nat) : Nat :=
  if ns ≤ t.offNs then t.base
  else t.base + cdiv ((ns - t.offNs) * two40 - t.offSub) (687194767360 + t.rate).toNat

/-- Time passes until device time reaches a number of ns. -/
def State.passToNs (ns : Nat) (s : State) : State := s.passTo (s.tide.countAt ns)

/-- A step is applied: device time moves by n ns (R117, R148). -/
def State.stepBy (n : Int) (s : State) : State :=
  let s := s.rebase
  ({ s with tide := { s.tide with offNs := (((s.tide.offNs : Int) + n) % (2 ^ 64 : Nat)).toNat } }).setBit Reg.TIDE_EVENT 4

/-- A step is accepted: at once before the first tide, else at the next tide start, added to one already pending (R148). One applied
between step 9 and the first tide leaves the tide number set at step 9 (DESIGN CHOICE, assumption 59). -/
def State.acceptStep (n : Int) (s : State) : State :=
  if s.running then
    ({ s with tide := { s.tide with pendStep := s.tide.pendStep + n } }).setBit Reg.TIDE_STATUS 9
  else s.stepBy n

/-- A capture of count, device time and tide number (R118). -/
def State.capture (s : State) : State :=
  let t := s.tide.readTime
  (((s.wr64 Reg.TIDE_CAP_COUNT_W0 s.tide.count).wr64 Reg.TIDE_CAP_TIME_W0 t.1).wr Reg.TIDE_CAP_SUB (t.2 / 256)).wr64
    Reg.TIDE_CAP_NUM_W0 s.tideNum

/-- A write of TIDE_CAPTURE. -/
def State.captureWrite (agent v : Nat) (s : State) : State :=
  if s.armBlocks agent Reg.TIDE_CAPTURE then s.usageReg agent Reg.TIDE_CAPTURE else if v.testBit 0 then s.capture else s

/-! ### Servo modes (R138 to R144) -/

/-- The host tests by hand: SERVO_MAN. -/
def State.servoMan (s : State) : Bool := s.bit Reg.TIDE_CTRL 4
/-- SOURCE: 0 PTP, 1 PPS_IN, 2 none. -/
def State.tideSource (s : State) : Nat := s.fld Reg.TIDE_CTRL 1 0

/-- The servo changes mode; leaving HOLDOVER clears JUMP_REFUSED and HOLDOVER_EXPIRED, and HOLDING clears FREE_START (R138,
R140, R143, R151). -/
def State.setServo (m : Nat) (s : State) : State :=
  let old := s.servo
  if old = m then s
  else
    let s := { s.noteRate with tide := { s.noteRate.tide with run := 0, acq := 0 } }
    let s := (s.wrFld Reg.TIDE_STATUS 2 0 m).setBit Reg.TIDE_EVENT 1
    let s := if old = 4 then (s.clrBit Reg.TIDE_STATUS 4).clrBit Reg.TIDE_STATUS 5 else s
    if m = 3 then s.clrBit Reg.TIDE_STATUS 8 else s

/-- The estimate of 16 samples, whose method the manual leaves open: a free value within the limit (R138; assumption 3). -/
def State.estimated (s : State) : State :=
  let d := s.draw
  let e : Int := (d.1 % 274877907 : Nat) - rateLimit
  { d.2 with tide := { d.2.tide with estimate := e } }

/-- The servo steers: a free rate at most TIDE_SLEW_MAX ppm from the estimate, on the side that moves device time against the offset
(R138; assumption 3). That the limit also holds in HOLDING, where R138 says only "Steered", is the model's (DESIGN CHOICE,
assumption 59). -/
def State.steer (off : Int) (s : State) : State :=
  let w := ppm (s.fld Reg.TIDE_SLEW_MAX 7 0)
  let d := s.draw
  let x := (d.1 : Int) % (w + 1)
  d.2.setRate (if 0 < off then d.2.tide.estimate - x else if off < 0 then d.2.tide.estimate + x else d.2.tide.estimate)

/-- HOLDOVER: the rate is frozen at the mean over the last 64 s spent in HOLDING or LOCKING (R138, R143). -/
def State.holdover (s : State) : State :=
  if s.servo = 4 then s
  else
    let s := s.noteRate
    let s := { s with tide := { s.tide with estimate := s.tide.meanRate } }
    let s := { s with tide := { s.tide with holdover := s.tide.count, slewing := false, slewJump := false } }
    (s.setRate s.tide.estimate).setServo 4

/-- FREERUN: the rate fraction is 0 and samples are discarded (R138); PPS_OUT is held inactive (R133). -/
def State.freerun (s : State) : State :=
  if s.servo = 0 then s
  else
    let s := { s with tide := { s.tide with jump := [], slewing := false, slewJump := false, ppsOut := false } }
    let s := (s.setRate 0).setServo 0
    { s with tide := { s.tide with hist := [] } }

/-- The module is in service: step 9 has ended (R77). -/
def State.inService (s : State) : Bool := s.bit Reg.CUS_BOOT_STATUS 7

/-- Count outliers (R140). -/
def State.outliers (n : Nat) (s : State) : State := s.wr Reg.TIDE_OUTLIERS (s.rd Reg.TIDE_OUTLIERS + n)

/-- A jump is confirmed: the servo is in HOLDOVER, device time unchanged (R140). -/
def State.jumpConfirmed (l : List Int) (s : State) : State :=
  let mean := l.foldl (· + ·) 0 / 4
  let s := { s with tide := { s.tide with jump := [], corr := mean } }
  (((s.holdover.wr64 Reg.TIDE_JUMP_W0 (unsigned 64 mean)).setBit Reg.TIDE_STATUS 4).setBit Reg.TIDE_EVENT 2)

/-- One more sample of the run towards a mode change; the change when it is the sixteenth (R138). -/
def State.runTowards (counts : Bool) (f : State → State) (s : State) : State :=
  let n := if counts then s.tide.run + 1 else 0
  let s := { s with tide := { s.tide with run := n } }
  if 16 ≤ n then f s else s

/-- One of the 16 samples of ACQUIRING; with the last the rate is the estimate (R138). -/
def State.acquired (s : State) : State :=
  let n := s.tide.acq + 1
  let s := { s with tide := { s.tide with acq := n } }
  if 16 ≤ n then
    let s := s.estimated
    (s.setRate s.tide.estimate).setServo 2
  else s

/-- A sample that is neither an outlier nor kept for R147 moves the servo on (R138, R147). -/
def State.goodSample (off : Int) (s : State) : State :=
  let locked := decide (off.natAbs ≤ s.rd Reg.TIDE_LOCK_THRESH)
  let s := if locked then { s with tide := { s.tide with slewing := false } } else s
  match s.servo with
  | 1 => s.acquired
  | 2 =>
    let s := if s.tide.slewing then s else s.steer off
    s.runTowards locked (State.setServo 3)
  | 3 => (s.steer off).runTowards (!locked) (State.setServo 2)
  | 4 => s.runTowards true (State.setServo 2)
  | _ => s

/-- A sample beyond the threshold: it joins the run that may confirm a jump; earlier samples too far from it are outliers
(R140). That it also breaks a run of 16 consecutive samples of R138 is the model's (DESIGN CHOICE, assumption 59). -/
def State.farSample (off : Int) (s : State) : State :=
  let s := { s with tide := { s.tide with run := 0 } }
  let th : Int := s.rd Reg.TIDE_JUMP_THRESH
  let near := s.tide.jump.takeWhile (fun x => decide ((x - off).natAbs ≤ th.toNat))
  let s := s.outliers (s.tide.jump.length - near.length)
  let l := off :: near
  if 4 ≤ l.length then s.jumpConfirmed l else { s with tide := { s.tide with jump := l } }

/-- One offset sample of the source in use (R138 to R141, R146, R147). The servo takes none while it is stopped by hand, by
the safe state or by a restart of CC2/CC3 (R144). -/
def State.sample (off : Int) (s : State) : State :=
  if s.servoMan || s.servoOff || decide (0 < s.tide.pause) then s
  else
    let m : Int := 2147483647
    let s := s.wr Reg.TIDE_OFFSET_MEAS (unsigned 32 (clamp (-m) m off))
    let s := if s.servo = 0 then s.setServo 1 else s
    if s.servo = 1 && s.tide.acq = 0 && s.tide.jump.isEmpty
        && (!s.inService || (s.bit Reg.TIDE_STATUS 8 && s.bit Reg.TIDE_CTRL 3)) then
      (s.acceptStep (-off)).acquired
    else
      let far := decide (s.rd Reg.TIDE_JUMP_THRESH < off.natAbs)
      let s := if far then s else { s with tide := { s.tide with slewJump := false } }
      if s.tide.slewJump then s
      else if s.bit Reg.TIDE_STATUS 4 then
        let s := { s with tide := { s.tide with corr := off } }
        if far then { s with tide := { s.tide with run := 0 } } else s.goodSample off
      else if far then s.farSample off
      else
        let s := (s.outliers s.tide.jump.length)
        ({ s with tide := { s.tide with jump := [] } }).goodSample off

/-- The master or the PPS input of the source in use is lost (R138). -/
def State.masterGone (s : State) : State :=
  if s.servoMan || s.servoOff then s
  else
    match s.servo with
    | 1 => s.freerun
    | 2 => s.holdover
    | 3 => s.holdover
    | _ => s

/-- The module may become PTP master (R135). -/
def State.mayMaster (s : State) : Bool := !s.bit Reg.TIDE_PTP_CFG 10 && s.bit Reg.TIDE_CTRL 5 && s.tideSource = 1

/-- GM follows what R135 allows. -/
def State.gmCheck (s : State) : State := if s.mayMaster then s else s.clrBit Reg.TIDE_STATUS 10

/-- PTP is enabled on a port and runs: lanes 0 to 7, management port 8 (R134, R602). -/
def State.ptpOn (s : State) (port : Nat) : Bool :=
  decide (port ≤ 8) && s.bit Reg.TIDE_PTP_CFG (12 + port) && !s.servoOff && decide (7 ≤ s.bootStep)

/-- PTP_SYNC_RX: a Sync of the selected master; `raw` is the device time at which it reached the J2 pins minus the master's time
in it. The sample is the ingress timestamp, taken back by the port's INGRESS, minus the master's time and the path delay (R136,
R138). Ignored unless SOURCE is PTP and a master is selected. -/
def State.ptpSync (port : Nat) (raw : Int) (s : State) : State :=
  if s.ptpOn port && s.tideSource = 0 && s.tide.masterUp then
    s.sample (raw - (s.fld (Reg.TIDE_PORT_DELAY + 4 * port) 15 0 : Nat) - (s.rd Reg.TIDE_PATH_DELAY : Nat))
  else s

/-- PTP_ANNOUNCE_RX: what the best master clock algorithm answers: 0 no change, 1 this master is selected, 2 the module itself is
best (R135, R138, R141). -/
def State.ptpAnnounce (port id portNumber steps result : Nat) (s : State) : State :=
  if !s.ptpOn port then s
  else
    match result with
    | 1 =>
      let new := s.tide.master != some id
      let s := if new && s.tide.master.isSome then s.setBit Reg.TIDE_EVENT 3 else s
      let s := ({ s with tide := { s.tide with master := some id, masterUp := true } }).clrBit Reg.TIDE_STATUS 10
      let s := (s.wr64 Reg.TIDE_MASTER_ID_W0 id).wr Reg.TIDE_MASTER_PORT
        (portNumber % 65536 + min 255 steps * 65536 + port * 2 ^ 24)
      if s.servo = 0 && s.tideSource = 0 && !s.servoMan then s.setServo 1 else s
    | 2 => if s.mayMaster then s.setBit Reg.TIDE_STATUS 10 else s
    | _ => s

/-- No master is heard; a module that may become master does (R135). -/
def State.noMaster (s : State) : State :=
  ({ s with tide := { s.tide with masterUp := false } }).whenB s.mayMaster (State.setBit Reg.TIDE_STATUS 10)

/-- MASTER_LOST: no Announce within 3 intervals (R138). -/
def State.masterLost (s : State) : State :=
  let s := s.noMaster
  if s.tideSource = 0 then s.masterGone else s

/-- PPS_IN_EDGE: timestamped; with SOURCE 1 the offset from the nearest whole second is a sample (R146). An edge exactly half a
second from two of them takes the later (DESIGN CHOICE, assumption 59). -/
def State.ppsEdge (s : State) : State :=
  let t := s.now
  let s := s.wr64 Reg.TIDE_PPS_IN_TS_W0 t
  if s.tideSource ≠ 1 then s
  else (s.clrBit Reg.TIDE_STATUS 7).sample ((t : Int) - ((t + 500000000) / 1000000000 * 1000000000 : Nat))

/-- PPS_IN_LOST: no edge for 2 s with SOURCE 1 (R138, R151). -/
def State.ppsLost (s : State) : State :=
  if s.tideSource ≠ 1 then s
  else ((s.setBit Reg.TIDE_STATUS 7).setBit Reg.TIDE_EVENT 6).masterGone

/-- HOLDOVER_EXPIRED: TIDE_HOLDOVER_LIMIT seconds of HOLDOVER have passed (R143). -/
def State.holdoverExpired (s : State) : State :=
  if s.servo ≠ 4 || s.bit Reg.TIDE_STATUS 5 then s
  else
    let s := s.passTo (s.tide.holdover + s.rd Reg.TIDE_HOLDOVER_LIMIT * 1600000000)
    ((s.setBit Reg.TIDE_STATUS 5).setBit Reg.TIDE_EVENT 5).report 0x3203 0x082 0 0

/-! ### Steps, slews, adjustments (R147 to R149) -/

/-- A SLEW is refused (R147). -/
def State.slewRefused (s : State) (c : Int) : Bool :=
  let e := s.tide.estimate
  decide (100000000 < c.natAbs)
    || (decide (c < 0) && decide (rateLimit - ppm 1 ≤ e)) || (decide (0 < c) && decide (e ≤ ppm 1 - rateLimit))

/-- A write of TIDE_STEP_ACCEPT (R147). -/
def State.stepAccept (agent v : Nat) (s : State) : State :=
  let o := Reg.TIDE_STEP_ACCEPT
  let c := s.tide.corr
  if s.armBlocks agent o then s.usageReg agent o
  else if !s.bit Reg.TIDE_STATUS 4 then s
  else
    match v % 4 with
    | 0 => s
    | 1 => if (16 * s.pb : Nat) < c then s.usageReg agent o else (s.acceptStep (-c)).setServo 2
    | 2 =>
      if s.slewRefused c then s.usageReg agent o
      else
        let w := ppm (s.fld Reg.TIDE_SLEW_MAX 7 0)
        let s := s.setRate (if c < 0 then s.tide.estimate + w else if 0 < c then s.tide.estimate - w else s.tide.estimate)
        let s := { s with tide := { s.tide with slewing := true, slewJump := true } }
        s.setServo 2
    | _ => s.usageReg agent o

/-- A commit of TIDE_ADJ (R149). -/
def State.adjCommit (agent v : Nat) (s : State) : State :=
  let o := Reg.TIDE_ADJ_W1
  if s.armBlocks agent o || !(s.servoMan || s.tideSource = 1) then s.usageReg agent o
  else
    let s := s.acceptStep (signed 64 v)
    if s.servoMan || s.servo = 0 then s else s.setServo 2

/-- A commit of TIDE_RATE_FRAC: saturated; only under SERVO_MAN (R116, R150). -/
def State.rateCommit (agent v : Nat) (s : State) : State :=
  let o := Reg.TIDE_RATE_FRAC_HI
  if s.armBlocks agent o || !s.servoMan then s.usageReg agent o
  else ((s.setRate (signed 40 v)).committed Reg.TIDE_RATE_FRAC_LO).runtimeChanged false

/-- A write of TIDE_CTRL: SOURCE 3 is refused; SOURCE 2 or SERVO_MAN puts the servo in FREERUN (R138, R145, R151). A clear of
SERVO_MAN leaves the rate fraction as written, and REF_SEL 0 leaves REF10M_LOST as it stands (DESIGN CHOICES, assumption 59). -/
def State.tideCtrlWrite (agent v : Nat) (s : State) : State :=
  let o := Reg.TIDE_CTRL
  if s.armBlocks agent o || v % 4 = 3 then s.usageReg agent o
  else
    let s := s.wr o v
    let s := if v.testBit 4 || v % 4 = 2 then s.freerun else s
    let s := if v % 4 = 1 then s else s.clrBit Reg.TIDE_STATUS 7
    let s := { s with tide := { s.tide with onRef := v.testBit 2 && !s.bit Reg.TIDE_STATUS 6 } }
    s.gmCheck

/-! ### The reference input (R145) -/

/-- REF10M_LOSS: the PLLs change to the TCXO (R145). -/
def State.refLoss (s : State) : State :=
  if !s.bit Reg.TIDE_CTRL 2 || s.bit Reg.TIDE_STATUS 6 then s
  else
    let s := { s with tide := { s.tide with onRef := false } }
    ((s.setBit Reg.TIDE_STATUS 6).setBit Reg.TIDE_EVENT 6).report 0x3204 0x082 0 0

/-- REF10M_RETURN: after 10 s of a good input the PLLs return to it (R145). -/
def State.refReturn (s : State) : State :=
  if !s.bit Reg.TIDE_CTRL 2 || !s.bit Reg.TIDE_STATUS 6 then s
  else
    let s := { s with tide := { s.tide with onRef := true } }
    (s.clrBit Reg.TIDE_STATUS 6).setBit Reg.TIDE_EVENT 6

/-! ### Outputs and PTP messages (R133, R135 to R137) -/

/-- TIDE_OUT_FALL: WIDTH × 10 ns after the tide start. -/
def State.tideOutFall (s : State) : State :=
  if !s.tide.tideOut then s
  else
    let s := s.passToNs (s.tide.startNs + s.fld Reg.TIDE_OUT_CFG 15 0 * 10)
    { s with tide := { s.tide with tideOut := false } }

/-- PPS_OUT_RISE: device time reaches the next whole second; held inactive while disabled or in FREERUN (R133). -/
def State.ppsRise (s : State) : State :=
  let s := s.passToNs (cdiv s.now 1000000000 * 1000000000)
  if s.bit Reg.TIDE_OUT_CFG 17 && s.servo ≠ 0 then { s with tide := { s.tide with ppsOut := true } } else s

/-- PPS_OUT_FALL: 100 ms after the rise. -/
def State.ppsFall (s : State) : State :=
  if !s.tide.ppsOut then s
  else
    let s := s.passToNs (s.now / 1000000000 * 1000000000 + 100000000)
    { s with tide := { s.tide with ppsOut := false } }

/-- The egress timestamp at a port (R136). -/
def State.egressStamp (s : State) (port : Nat) : Nat := s.now + s.fld (Reg.TIDE_PORT_DELAY + 4 * port) 31 16
/-- The ingress timestamp at a port (R136). -/
def State.ingressStamp (s : State) (port : Nat) : Nat := s.now - s.fld (Reg.TIDE_PORT_DELAY + 4 * port) 15 0

/-- The mean path delay from the two one-way times at the J2 pins: t2 and t4 are ingress stamps of either side, t1 and t3 egress
stamps, the module’s own corrected by the port’s delays (R136). -/
def State.pathDelay (s : State) (port both : Nat) : Nat :=
  (both - s.fld (Reg.TIDE_PORT_DELAY + 4 * port) 15 0 - s.fld (Reg.TIDE_PORT_DELAY + 4 * port) 31 16) / 2

/-- The level TIDE_OUT drives: active while the tide's pulse lasts, with the polarity of INVERT (R133). -/
def State.tideOutPin (s : State) : Bool := s.tide.tideOut != s.bit Reg.TIDE_OUT_CFG 16
/-- The level PPS_OUT drives (R133). -/
def State.ppsOutPin (s : State) : Bool := s.tide.ppsOut

/-- clockClass of an Announce (R135). -/
def State.clockClass (s : State) : Nat := if s.servo = 3 then 6 else if s.servo = 4 then 7 else 248

/-- PTP_MESSAGE_TX: kind 0 Sync, 1 Announce, as master; 2 Delay_Req, 3 Pdelay_Req by the profile (R134, R135, R137). -/
def State.ptpTx (kind port : Nat) (s : State) : State :=
  let gm := s.bit Reg.TIDE_STATUS 10
  let p2p := s.fld Reg.TIDE_PTP_CFG 9 8 = 1
  if !s.ptpOn port then s
  else
    match kind with
    | 0 => if gm then s.emit (.ptp 0 port (s.egressStamp port) 0) else s
    | 1 => if gm then s.emit (.ptp 1 port 0 (s.clockClass + s.rd Reg.TIDE_PTP_PRIO * 256)) else s
    | 2 => if !gm && !p2p && s.tide.masterUp then s.emit (.ptp 2 port (s.egressStamp port) 0) else s
    | 3 => if p2p then s.emit (.ptp 3 port 0 0) else s
    | _ => s

/-- PTP_DELAY_MESSAGE_RX: kind 0 Delay_Req, 1 Pdelay_Req, answered (4 Delay_Resp, 5 Pdelay_Resp with its correction, a free
residence time and the port’s delays); 2 and 3 a response, from which the path delay follows: `delay` is the sum of the two
one-way times as seen at the J2 pins, of which the port’s delays are taken and the half is the mean (R134, R136, R137). -/
def State.ptpDelayRx (kind port delay : Nat) (s : State) : State :=
  let p2p := s.fld Reg.TIDE_PTP_CFG 9 8 = 1
  if !s.ptpOn port then s
  else
    match kind with
    | 0 => if s.bit Reg.TIDE_STATUS 10 && !p2p then s.emit (.ptp 4 port (s.ingressStamp port) 0) else s
    | 1 =>
      if p2p then
        let d := s.draw
        let r := Reg.TIDE_PORT_DELAY + 4 * port
        d.2.emit (.ptp 5 port (d.1 + s.fld r 31 16 + s.fld r 15 0) 0)
      else s
    | 2 => if !p2p then s.wr Reg.TIDE_PATH_DELAY (s.pathDelay port delay) else s
    | 3 => if p2p then s.wr Reg.TIDE_PATH_DELAY (s.pathDelay port delay) else s
    | _ => s

/-! ### Meanings -/

def execTideOutFall (s : State) : Host.Outcome State Fault Refusal := .next s.tideOutFall

def execPpsOutRise (s : State) : Host.Outcome State Fault Refusal := .next s.ppsRise

def execPpsOutFall (s : State) : Host.Outcome State Fault Refusal := .next s.ppsFall

def execTideCapture (agent value : Nat) (s : State) : Host.Outcome State Fault Refusal := .next (s.captureWrite agent value)

def execTideRateFracCommit (agent value : Nat) (s : State) : Host.Outcome State Fault Refusal := .next (s.rateCommit agent value)

def execTideRebase (s : State) : Host.Outcome State Fault Refusal := .next s.rebase

def execPtpAnnounceRx (port id portNumber steps result : Nat) (s : State) : Host.Outcome State Fault Refusal :=
  .next (s.ptpAnnounce port id portNumber steps result)

def execMasterLost (s : State) : Host.Outcome State Fault Refusal := .next s.masterLost

def execPpsInLost (s : State) : Host.Outcome State Fault Refusal := .next s.ppsLost

def execStepAccept (agent : Nat) (s : State) : Host.Outcome State Fault Refusal := .next (s.stepAccept agent 1)

def execSlewAccept (agent : Nat) (s : State) : Host.Outcome State Fault Refusal := .next (s.stepAccept agent 2)

def execTideAdjCommit (agent value : Nat) (s : State) : Host.Outcome State Fault Refusal := .next (s.adjCommit agent value)

def execHoldoverExpired (s : State) : Host.Outcome State Fault Refusal := .next s.holdoverExpired

def execRef10mLoss (s : State) : Host.Outcome State Fault Refusal := .next s.refLoss

def execRef10mReturn (s : State) : Host.Outcome State Fault Refusal := .next s.refReturn

def execPtpMessageTx (kind port : Nat) (s : State) : Host.Outcome State Fault Refusal := .next (s.ptpTx kind port)

def execPtpDelayMessageRx (kind port delay : Nat) (s : State) : Host.Outcome State Fault Refusal :=
  .next (s.ptpDelayRx kind port delay)

end Sys2Proof.Machine
end

