-- ==== Sys2Proof/Machine/TideStart.lean ====
section
/-! DEFINITION. The start of a tide (03_tide.md: R121, R122, R125, R130 to R132, R148): the actions that every block takes in the
first cycle of a tide. -/

namespace Sys2Proof.Machine

/-! ### Statistics (R131) -/

/-- Every latched statistic shows its live count, which restarts at 0. A count of 0 leaves its entry. -/
def State.latchCounts (s : State) : State :=
  let c := s.counts
  let s := s.each c (fun p s => s.wr p.1 p.2)
  { s with counts := List.map (fun (p : Nat × Nat) => (p.1, 0)) (List.filter (fun (p : Nat × Nat) => p.2 != 0) c) }

/-- POOL_LOW_LAST of every pool (R495). -/
def State.latchPools (s : State) : State :=
  s.each s.pools (fun p s => (s.wr (poolReg Reg.POOL_LOW_LAST p.1) p.2.low).setPool p.1 { s.pool p.1 with low := (s.pool p.1).free })

/-- MEM_PORT_BYTES_LAST of the ports in use: a free value, since the manual leaves open which accesses reach the ports (R473;
assumption 3). -/
def State.latchPorts (s : State) : State :=
  s.each (s.portsIn .active ++ s.portsIn .migSrc ++ s.portsIn .migDst) (fun p s =>
    let d := s.draw
    d.2.wr (mreg Reg.MEM_PORT_BYTES_LAST p) d.1)

/-! ### Staged values (R22 to R24) -/

/-- A staged value comes into force at the start of tide t, whose start instant is t0; what the image staged for a display output
holds from the first tide (R107, R297). -/
def State.applyStaged (first : Bool) (t t0 : Nat) (o v : Nat) (s : State) : State :=
  if o = Reg.TIDE_PRESENT then
    let k := v % 32 - s.presentL
    ({ s with tide := { s.tide with repeats := s.tide.repeats + k } }).wr o v
  else if Reg.HM_GATE_SWAP ≤ o ∧ o < Reg.HM_GATE_SWAP + 0x400 ∧ (o - Reg.HM_GATE_SWAP) % 0x40 = 0 then
    if v.testBit 0 then s.gatePend ((o - Reg.HM_GATE_SWAP) / 0x40) t0 else s
  else if Reg.DISP_OUT_LAYOUT ≤ o ∧ o < Reg.DISP_OUT_LAYOUT + 0x800 ∧ (o - Reg.DISP_OUT_LAYOUT) % 0x100 = 0 then
    let n := (o - Reg.DISP_OUT_LAYOUT) / 0x100
    let x := s.disp n
    (s.setDisp n { x with lays := ((if first then t else t + 2 + s.presentL, v) :: x.lays).take 64 }).wr o v
  else s.wr o v

/-- All staged values come into force together, unless HOLD is 1 (R23, R24). TIDE_PRESENT is among the first, by its offset. -/
def State.applyAll (first : Bool) (t t0 : Nat) (s : State) : State :=
  if s.bit Reg.GLOBAL_STAGE_CTRL 0 then s
  else
    let l := s.staged
    ({ s with staged := [] }).each l (fun p s => s.applyStaged first t t0 p.1 p.2.toNat)

/-! ### Jobs of the tide that ended (R132, R388) -/

/-- What still runs at the start of tide t: a job of a best-effort queue is stopped at its next stop point where its berth has booked
work in the tide; another picture job ends DEADLINE_MISSED, a RECONSTRUCT with the picture concealed as given (R132, R203, R395).
START, STOP and the other jobs of a stream never end so (R212), and a lighter program may run over any number of tides (R509). -/
def State.lateJob (late : List (Nat × PicOut)) (t u : Nat) (s : State) : State :=
  match (s.unit u).job with
  | none => s
  | some j =>
    if j.queue < 0x100000 && s.qFlag j.queue 4 then
      if s.bookedWork u t && j.stopWith.isNone then s.setJob u { j with stopWith := some 0x30 } else s
    else
      match j.op with
      | 0x0101 => s.lateTally u
      | 0x0102 =>
        s.lateRec ((late.find? (fun p => p.1 = u)).map (fun p => p.2)) u
      | 0x0201 => s.lateEnc u
      | 0x0202 => s.lateEnc u
      | 0x0301 => s.lateCompose u
      | 0x0401 => s.txDeadline []
      | _ => s

/-! ### Bookings (R62, R408) -/

/-- Bookings that leave, and berths that bind. -/
def State.bookingsTide (s : State) : State :=
  let s := s.each (s.books.filter (fun p => p.2.leaving)) (fun p s => s.unbook p.1)
  s.each (s.units.filter (fun p => !p.2.joining.isEmpty)) (fun p s => s.bind p.1)

/-! ### Lighters (R518) -/

/-- A program that starts with the first tide: a RUN_PROGRAM job of no queue and no completion record. -/
def autoJob (a : Nat) : Job :=
  { queue := 0x100000, index := 0, addr := 0, op := 0x0501, flags := 0, ctx := 0, seq := 0, tide := 0, deadline := 0
    s0 := a, s1 := 0, s2 := 0, s3 := 0, s4 := 0, completion := 0, work := 0, cls := 8, cost := 0, estimate := 0, effort := 0
    status := none, b1 := 0, b2 := 0, b3 := 0, b8 := 0, b15 := 0, rerun := false, stopWith := none, bufs := [], started := 0, startNs := 0 }

def State.autostartAll (s : State) : State :=
  let l := s.autostart
  ({ s with autostart := [] }).each l (fun p s => if s.eng p.1 == Eng.idle then s.startJob p.1 (autoJob p.2) else s)

/-! ### The start of a tide (R122, R131, R148) -/

/-- The first T with start(T) at or after a device time (R121, R125). -/
def State.firstTide (s : State) (ns : Nat) : Nat :=
  let e := s.rd64 Reg.TIDE_EPOCH_W0
  let n := (ns - e) * s.rateNum / (s.rateDen * 1000000000)
  if s.startOf n < ns then n + 1 else n

/-- An accepted step is applied: no tide starts, and the current tide is extended (R148). Pending steps that sum to 0 extend it as a
forward step does (DESIGN CHOICE, assumption 59). -/
def State.applyStep (s : State) : State :=
  let n := s.tide.pendStep
  let s := ({ s with tide := { s.tide with pendStep := 0 } }).clrBit Reg.TIDE_STATUS 9
  let s := s.stepBy n
  let t := s.now
  if 0 ≤ n then
    { s with tide := { s.tide with nextTide := max (s.firstTide (t + s.pb)) (s.tideNum + 1), notBefore := 0 } }
  else { s with tide := { s.tide with nextTide := s.tideNum + 1, notBefore := t + s.pb } }

/-- The actions of the cycle in which tide t starts. -/
def State.tideActions (late : List (Nat × PicOut)) (t : Nat) (s : State) : State :=
  let first := !s.running
  let ended := s.tideNum
  let t0 := s.now
  let s := { s with tide := { s.tide with starting := true, startNs := t0, pause := s.tide.pause - 1 } }
  -- statistics of the tide that ended
  let s := s.each (List.range 2) State.feedTide
  let s := if first then s else s.sampleQueues ended
  let s := s.sndTide (!s.bit Reg.GLOBAL_STAGE_CTRL 0) ended
  let s := s.latchCounts.latchPools.latchPorts
  -- the number, the output, staged values
  let s := (s.wr64 Reg.TIDE_NUM_W0 (t % 2 ^ 48)).setBit Reg.TIDE_STATUS 3
  let s := { s with tide := { s.tide with tideOut := s.bit Reg.TIDE_OUT_CFG 18, nextTide := t + 1, notBefore := 0 } }
  let s := (s.setBit Reg.TIDE_EVENT 0).applyAll first t t0
  let s := if first then (s.loadSlate.wrFld Reg.CUS_BOOT_STATUS 3 0 9).setBit Reg.CUS_BOOT_STATUS 7 else s
  -- jobs of the tide that ended, buffers given back
  let s := s.each (s.units.filter (fun p => p.2.job.isSome)) (fun p s => s.lateJob late t p.1)
  let s := s.each (s.decs.map (fun p => p.1)) State.freePics
  let s := s.each (List.range 8) State.freeShown
  -- bookings, layouts and storms of the new tide
  let s := ((s.flipsDone t).stormsDone t).followLayouts
  let s := s.bookingsTide.egressConds
  let s := s.each (s.decs.map (fun p => p.1)) (fun c s => s.countLost c t)
  let s := s.each (s.queues.map (fun p => p.1)) (fun q s => if s.qf q 60 4 = 0 then s else s.setQf q 60 4 0)
  let s := { s with picSent := [], picDone := [] }
  -- memory, power and effort
  let s := s.memTide.setCeiling.refillAtTide.governor.deepGate
  -- work of the new tide
  let s := s.ucwTide
  let s := s.each ((s.books.map (fun p => p.1)).filter (fun c => decide (c < 4096))) (fun c s =>
    if s.ctxKind c = 2 && s.ctxState c = 2 then s.windowAsk c 0 0 else s)
  let s := s.postComposes t
  let s := { s with tide := { s.tide with repeats := s.tide.repeats - 1 } }
  let s := (if first then s.autostartAll else s).ltTide
  ({ s with tide := { s.tide with starting := false } }).dispatch

/-- TIDE_START: the next tide start under the time in force; before step 9 there is none (R122, R125). -/
def State.tideStart (late : List (Nat × PicOut)) (s : State) : State :=
  if s.boot.phase != .service then s
  else
    let t := s.tide.nextTide
    let s := s.passToNs (max (s.startOf t) s.tide.notBefore)
    if s.bit Reg.TIDE_STATUS 9 then s.applyStep else s.tideActions late t

/-! ### Meanings -/

def execTideStart (late : List (Nat × PicOut)) (s : State) : Host.Outcome State Fault Refusal := .next (s.tideStart late)

end Sys2Proof.Machine
end

