-- ==== Sys2Proof/Machine/RegView.lean ====
section
/-! DEFINITION. Reads of the register space (00_scope.md: R10 to R21; 01_harbour_layout.md: R38 to R53; 03_tide.md: R119; the
register tables of every block): what each register reads as, pairs and their snapshots, and the effects of a read. -/

namespace Sys2Proof.Machine

/-- The index i of an offset base + stride × i, for i below n. -/
def idxOf (base stride n o : Nat) : Option Nat :=
  if base ≤ o ∧ (o - base) % stride = 0 ∧ (o - base) / stride < n then some ((o - base) / stride) else none

/-- Word w of a number. -/
def wordOf (v w : Nat) : Nat := v / 2 ^ (32 * w) % two32

/-! ### Views by block -/

/-- Registers of a UCB that are worked out from the unit (R43, R45, R51, R57; R214, R267, R326, R370, R520). -/
def State.viewUcb (s : State) (u r o : Nat) : Nat :=
  let x := s.unit u
  let lt := s.lt u
  if r = Reg.UCB_ID then s.viewUnitId u
  else if r = Reg.UCB_CAPS then s.viewCaps u
  else if r = Reg.UCB_STATUS then s.viewUnitStatus u
  else if r = Reg.UCB_BERTH then s.viewBerth u
  else if r = Reg.UCB_PARENT then s.viewParent u
  else if r = Reg.UCB_ROUTINE_STATUS then
    s.rd o % 65536 + x.micro.routine % 256 * 65536 + b2n x.micro.trapped * 2 ^ 30 + b2n x.micro.inRoutine * 2 ^ 31
  else if r = Reg.UCB_POWER then x.pow.code
  else if r = Reg.UCB_GRP_STATUS then s.viewGrpStatus u
  else
    match unitKind u with
    | some .tally => if r = Reg.TL_STATUS then s.viewTlStatus u else s.rd o
    | some .pilot =>
      if r = Reg.PL_STATUS then s.viewPlStatus u
      else if r = Reg.PL_STREAMS then s.attached u
      else if r = Reg.PL_BOOKED then s.viewPlBooked u
      else s.rd o
    | some .lane => if r = Reg.CL_STATUS then s.viewClStatus u else if r = Reg.CL_BOOKED then s.viewClBooked u else s.rd o
    | some .egress => if r = Reg.EG_STATUS then s.viewEgStatus u else if r = Reg.EG_BOOKED then s.viewEgBooked u else s.rd o
    | some .barge | some .skiff =>
      if r = Reg.LT_STATUS then s.viewLtStatus u
      else if r = Reg.LT_PROG_LO then wordOf lt.prog 0
      else if r = Reg.LT_PROG_HI then wordOf lt.prog 1
      else if r = Reg.LT_OS_LO then wordOf lt.os 0
      else if r = Reg.LT_OS_HI then wordOf lt.os 1
      else if r = Reg.LT_OD_LO then wordOf lt.od 0
      else if r = Reg.LT_OD_HI then wordOf lt.od 1
      else if r = Reg.LT_HOLD_W0 then wordOf (leNat (s.ltHold u)) 0
      else if r = Reg.LT_HOLD_W1 then wordOf (leNat (s.ltHold u)) 1
      else if r = Reg.LT_HOLD_FILL then (s.ltHold u).length
      else
        match idxOf Reg.LT_LOOP 4 4 r with
        | some k => lt.loop k
        | none => s.rd o
    | _ => s.rd o

/-- CUS registers (R113). -/
def State.viewCus (s : State) (o : Nat) : Nat :=
  if o = Reg.CUS_FUSES then s.viewFuses
  else if o = Reg.CUS_PRESENCE then s.viewPresence
  else if o = Reg.CUS_SEAL then s.viewSeal
  else if o = Reg.CUS_LOG_COUNT then s.viewLogCount
  else if o = Reg.CUS_LOG_INFO then s.logEntry.1 % 8 + s.logEntry.2.1 % 256 * 256
  else
    match idxOf Reg.CUS_MEAS 4 64 o, idxOf Reg.CUS_LOG_DIGEST 4 8 o with
    | some i, _ => digestWord (s.measReg (i / 8)) (i % 8)
    | _, some i => digestWord s.logEntry.2.2 i
    | none, none => s.rd o

/-- WATCH registers (R608). -/
def State.viewWatch (s : State) (o : Nat) : Nat :=
  let fe := s.watch.fe
  let feN := fun (f : Capture → Nat) => match fe with
    | some c => f c
    | none => 0
  if o = Reg.WATCH_STATUS then s.viewWatchStatus
  else if o = Reg.WATCH_FE_INFO then s.viewFeInfo
  else if o = Reg.WATCH_FE_ADDR_LO then wordOf (feN Capture.addr) 0
  else if o = Reg.WATCH_FE_ADDR_HI then wordOf (feN Capture.addr) 1 % 256
  else if o = Reg.WATCH_FE_TIDE_W0 then wordOf (feN Capture.tide) 0
  else if o = Reg.WATCH_FE_TIDE_W1 then wordOf (feN Capture.tide) 1 % 65536
  else if o = Reg.WATCH_FE_NS then feN Capture.ns
  else if o = Reg.WATCH_SAFE_CAUSE then s.viewSafeCause
  else if o = Reg.WATCH_FENCE_STATUS then s.viewFenceStatus
  else if o = Reg.WATCH_SPARES then s.viewSpares
  else if o = Reg.WATCH_FENCES then s.watch.fences
  else if o = Reg.WATCH_LOG_WR then s.watch.logWr
  else if o = Reg.WATCH_ACTIVE_DATA then s.viewActive
  else
    match idxOf Reg.WATCH_LOG_DATA 4 4 o with
    | some i => bodyN s.viewLogBytes (4 * i) 4
    | none => s.rd o

/-- BELL registers (R577, R578). -/
def State.viewBell (s : State) (o : Nat) : Nat :=
  match idxOf Reg.BELL_T_STATUS 16 36 o, idxOf Reg.BELL_SRC_CFG 8 1024 o, idxOf Reg.BELL_SRC_STATE 8 1024 o with
  | some t, _, _ => s.viewTarget t
  | _, some n, _ => s.viewSrcCfg n
  | _, _, some n => s.viewSrcState n
  | none, none, none =>
    match idxOf Reg.BELL_PEND 4 32 o, idxOf Reg.BELL_ACTIVE 4 32 o with
    | some w, _ => s.viewFlags w BellSrc.pending
    | _, some w => s.viewFlags w BellSrc.active
    | none, none => s.rd o

/-- HM registers (R413, R414). -/
def State.viewHm (s : State) (o : Nat) : Nat :=
  let sel := s.fld Reg.HM_BERTH_SEL 11 0
  if o = Reg.HM_BOOK_FRAC then s.bookFrac
  else if o = Reg.HM_USABLE_NS then s.usable
  else if o = Reg.HM_BW_BOOKED then s.viewBwBooked
  else if o = Reg.HM_BW_LIMIT then s.viewBwLimit
  else if o = Reg.HM_ENERGY_BOOKED then s.energyBooked
  else if o = Reg.HM_CACHED then s.viewCached
  else if o = Reg.HM_BERTH_LOAD then s.viewBerthLoad sel
  else if o = Reg.HM_BERTH_STREAMS then s.viewBerthStreams sel
  else
    match idxOf Reg.HM_GATE_STATUS 0x40 16 o, idxOf Reg.HM_GATE_CYCLE 0x40 16 o with
    | some k, _ => s.viewGate k
    | _, some k => gateCycle (s.gate k).entries
    | none, none =>
      if Reg.HM_GATE_OPER_MASK ≤ o then
        let e := ((s.gate ((o - Reg.HM_GATE_OPER_MASK) / 0x800)).entries).getD ((o - Reg.HM_GATE_OPER_MASK) % 0x800 / 8) (0, 0)
        if o % 8 = 0 then e.1 else e.2
      else s.rd o

/-- PWR registers (R440). -/
def State.viewPwr (s : State) (o : Nat) : Nat :=
  if o = Reg.PWR_BUCKET_LO then wordOf (unsigned 40 s.power.bucket) 0
  else if o = Reg.PWR_BUCKET_HI then wordOf (unsigned 40 s.power.bucket) 1
  else
    match idxOf Reg.PWR_UNIT_CTRL 4 256 o, idxOf Reg.PWR_SPAD_STATE 4 192 o with
    | some u, _ => s.viewUnitPwr u
    | _, some i => s.viewSpad (i / 4) (i % 4)
    | none, none =>
      match idxOf Reg.PWR_COEF 8 8 o, idxOf Reg.PWR_COEF_FACTORY 8 8 o with
      | some i, _ => s.coef i
      | _, some i => coefFactory i
      | none, none => s.rd o

/-- MEM registers (R472, R473). -/
def State.viewMem (s : State) (o : Nat) : Nat :=
  if o = Reg.MEM_STATUS then s.viewMemStatus
  else if o = Reg.MEM_MIG_STATUS then s.viewMigStatus
  else if o = Reg.MEM_MIG_DONE_MIB then s.viewMigMib
  else if o = Reg.MEM_POISONED then s.viewPoisoned
  else
    match idxOf Reg.MEM_PORT_STATUS 0x100 17 o, idxOf Reg.MEM_PORT_TEMP 0x100 17 o with
    | some p, _ => s.viewPortStatus p
    | _, some p => s.viewPortTemp p
    | none, none =>
      match idxOf Reg.MEM_PORT_SETS 0x100 17 o, idxOf Reg.MEM_PORT_SET_INFO 0x100 17 o with
      | some p, _ => s.viewSets p
      | _, some p => s.viewSetInfo p
      | none, none => s.rd o

/-- CMP registers (R325). -/
def State.viewCmp (s : State) (o : Nat) : Nat :=
  let p := (s.layoutSt (s.fld Reg.CMP_LAYOUT_QUERY 9 0)).pEff
  if o = Reg.CMP_LAYOUT_PEND then s.flipsPending
  else if o = Reg.CMP_LAYOUT_INFO then s.viewLayoutInfo
  else if o = Reg.CMP_LAYOUT_P_W0 then wordOf p 0
  else if o = Reg.CMP_LAYOUT_P_W1 then wordOf p 1 % 65536
  else if o = Reg.CMP_STORM_STATUS then s.viewStorm
  else if o = Reg.CMP_STORM_E_W0 then wordOf s.viewStormE 0
  else if o = Reg.CMP_STORM_E_W1 then wordOf s.viewStormE 1 % 65536
  else s.rd o

/-- What a register holds, in force, for a read (R12). -/
def State.view (s : State) (o : Nat) : Nat :=
  match blockOf o with
  | .global =>
    if o = Reg.GLOBAL_VARIANT then s.ident.variant
    else if o = Reg.GLOBAL_STAGE_CTRL then s.rd o + b2n (!s.staged.isEmpty) * 2
    else if o = Reg.GLOBAL_UNITS_GT_LO then s.viewPresent 0 32
    else if o = Reg.GLOBAL_UNITS_GT_HI then s.viewPresent 32 16
    else if o = Reg.GLOBAL_UNITS_TL then s.viewPresent 0x40 24
    else s.rd o
  | .ucb => s.viewUcb (ucbUnit o) (ucbOff o) o
  | .cus => s.viewCus o
  | .watch => s.viewWatch o
  | .bell => s.viewBell o
  | .hm => s.viewHm o
  | .pwr => s.viewPwr o
  | .mem => s.viewMem o
  | .cmp => s.viewCmp o
  | .pool =>
    match idxOf Reg.POOL_STATUS 0x40 256 o, idxOf Reg.POOL_FREE 0x40 256 o with
    | some p, _ => s.viewPoolStatus p
    | _, some p => (s.pool p).free
    | none, none => s.rd o
  | .lt =>
    if o = Reg.LT_FLAGS_SET then s.rd Reg.LT_FLAGS
    else if o = Reg.LT_RUNNING0 then s.viewLtRunning 0 else if o = Reg.LT_RUNNING1 then s.viewLtRunning 1 else s.rd o
  | .disp =>
    match idxOf Reg.DISP_OUT_STATUS 0x100 8 o, idxOf Reg.DISP_OUT_PCLK 0x100 8 o with
    | some n, _ => s.viewDisp n
    | _, some n => s.pclk n
    | none, none => s.rd o
  | .host =>
    if o = Reg.HOST_STATUS then s.viewHostStatus else if o = Reg.HOST_BAR2_SIZE then s.host.bar2Size else s.rd o
  | .net =>
    -- the registers of a port that does not exist read 0 (R369)
    if 0x501000 ≤ o && !s.portExists ((o - 0x501000) / 0x100) then 0 else s.rd o
  | _ => s.rd o

/-! ### Access (R10, R11, R80) -/

/-- An agent’s access to an offset is refused under R11: misaligned, no register there, or BAR0 before the end of step 6
(R80). -/
def State.noRegister (s : State) (agent o : Nat) : Bool :=
  decide (o % 4 ≠ 0) || (rowOf o).isNone || s.tooEarly agent o

/-- The sounding window of a group’s UCB: reads 0, writes are discarded, no usage event (R611). -/
def groupSnd (o : Nat) : Bool :=
  decide (o % 4 = 0) && blockOf o == .ucb && unitKind (ucbUnit o) == some .group && decide (0x100 ≤ ucbOff o)
    && decide (ucbOff o < 0x200)

/-- A word of the mirror of the counters (R613). -/
def inMirror (o : Nat) : Bool := decide (0x78000 ≤ o) && decide (o < 0x7C180) && decide (o % 4 = 0)

/-! ### Pairs (R17 to R20, R119) -/

/-- The key of an agent’s snapshot of a pair. -/
def snapKey (o agent : Nat) : Nat := o * 4096 + agent % 4096

/-- The snapshot of a pair’s upper half that an agent holds (R20). -/
def State.snap (s : State) (o agent : Nat) : Option Word :=
  (s.snaps.find? (fun p => p.1 = snapKey o agent)).map (fun p => p.2)

/-! ### Effects of reads -/

/-- What reading a register changes: RC bits (R12, R14), LATE flags (R315, R414), the packet word of a feeder port (R365), a live
count (R612), a claim (R569). -/
def State.afterRead (o v : Nat) (acc : Acc) (s : State) : State :=
  let s := if acc = .rc then s.wr o (Nat.xor (s.rd o) (Nat.land (s.rd o) v)) else s
  if o = Reg.CMP_STORM_E_W0 then { s with stormLate := false }
  else
    match idxOf Reg.HM_GATE_CHANGE_W0 0x40 16 o with
    | some k => s.setGate k { s.gate k with late := false }
    | none => s

/-- A live counter that no rule lets the model count is free at each read (R612). -/
def State.beforeRead (o : Nat) (s : State) : State :=
  match sndOf o with
  | some c => if o = c + 8 then s.sndRun c else s
  | none => s

/-- A read of the mirror: the first word of a counter records its second in the agent’s snapshot (R20, R617). -/
def State.readMirror (agent o : Nat) (s : State) : Nat × State :=
  let v := s.viewMirror (o - 0x70000)
  if !s.bit Reg.SND_CTRL 1 then (0, s)
  else if o % 8 = 0 then
    (v, { s with snaps := SMap.ins (snapKey o agent) (BitVec.ofNat 32 (s.viewMirror (o + 4 - 0x70000))) s.snaps })
  else
    match s.snap (o - 4) agent with
    | some w => (w.toNat, s)
    | none => (v, s)

/-- A 32-bit read of a register by an agent: its value (R10 to R14, R20). BELL_Tt_CLAIM is read by bellClaim. -/
def State.regRead (agent o : Nat) (s : State) : Nat × State :=
  if groupSnd o then (0, s)
  else if inMirror o && !(agent = hostAgent && decide (s.bootStep < 6)) then s.readMirror agent o
  else if s.noRegister agent o then (0, s.usageReg agent o)
  else
    match rowOf o with
    | none => (0, s)
    | some (r, _, _) =>
      let s := s.beforeRead o
      match idxOf Reg.FEED_DATA 0x100 2 o with
      | some n => s.feedData n
      | none =>
        let v := if r.acc = .wo then 0 else s.view o
        match r.half with
        | .lo40 | .w0 =>
          let hi := s.view (o + 4)
          (v, ({ s with snaps := SMap.ins (snapKey o agent) (BitVec.ofNat 32 hi) s.snaps }).afterRead o v r.acc)
        | .hi40 | .w1 =>
          match s.snap (o - 4) agent with
          | some w => (w.toNat, s.afterRead o w.toNat r.acc)
          | none => (v, s.afterRead o v r.acc)
        | .none => (v, s.afterRead o v r.acc)

/-- What a read of BELL_Tt_CLAIM returns (R569). -/
def State.claimValue (s : State) (agent t : Nat) : Nat :=
  if agent = hostAgent ∧ t < 4 then 0
  else
    match s.presented t with
    | some n => n + 2 ^ 31
    | none => if (s.bellHeld t).isSome then 2 ^ 30 else 0

/-- A read whose value goes into a message: any register, a claim register among them. -/
def State.readAny (agent o : Nat) (s : State) : Nat × State :=
  match idxOf Reg.BELL_T_CLAIM 16 36 o with
  | some t => (s.claimValue agent t, { bellClaim agent t s with out := s.out })
  | none => s.regRead agent o

/-- A read as a command: the value goes to the agent; a read of a claim register claims (R569). -/
def State.readCmd (agent o : Nat) (s : State) : State :=
  match idxOf Reg.BELL_T_CLAIM 16 36 o with
  | some t =>
    if s.noRegister agent o then (s.usageReg agent o).emit (.readData agent o 0) else bellClaim agent t s
  | none =>
    let r := s.regRead agent o
    r.2.emit (.readData agent o r.1)

end Sys2Proof.Machine
end

