-- ==== Sys2Proof/Machine/RegWrite.lean ====
section
/-! DEFINITION. Writes of the register space (00_scope.md: R10 to R24, R655, R656; 01_harbour_layout.md: R37; the register
tables of every block): which writes are refused, what a write stores, and the operations that writes start. -/

namespace Sys2Proof.Machine

/-! ### Values a register refuses (R655) -/

/-- A value outside bounds. -/
def outside (lo hi v : Nat) : Bool := decide (v < lo) || decide (hi < v)

/-- TIDE registers (R123, R130, R132, R147, R150). -/
def State.badTide (s : State) (o v : Nat) : Bool :=
  if o = Reg.TIDE_RATE then
    bits v 15 0 = 0 || bits v 31 16 = 0 || outside (24 * bits v 31 16) (240 * bits v 31 16) (bits v 15 0)
  else if o = Reg.TIDE_PRESENT then outside 2 16 (bits v 4 0)
  else if o = Reg.TIDE_GUARD then outside 20000 1000000 (bits v 19 0)
  else if o = Reg.TIDE_OUT_CFG then bits v 15 0 = 0
  else if o = Reg.TIDE_PTP_CFG then decide (1 < bits v 9 8)
  else if o = Reg.TIDE_JUMP_THRESH then outside 100 1000000000 v
  else if o = Reg.TIDE_LOCK_THRESH then outside 10 (s.rd Reg.TIDE_JUMP_THRESH) v
  else if o = Reg.TIDE_SLEW_MAX then outside 1 200 (bits v 7 0)
  else if o = Reg.TIDE_HOLDOVER_LIMIT then outside 1 86400 v
  else false

/-- HM registers (R398, R401, R412 to R414). -/
def State.badHm (s : State) (o v : Nat) : Bool :=
  if o = Reg.HM_SAMPLE_CFG then decide (8 < bits v 3 0)
  else if o = Reg.HM_TL_DEC_BINS ∨ o = Reg.HM_TL_ENC_BINS then v = 0
  else if o = Reg.HM_COST_MISC then outside 1 1000000 v
  else if Reg.HM_GATE_ADMIN_MASK ≤ o then
    if o % 8 = 0 then decide (255 < v) else !gateIntervalOk v
  else
    match idxOf Reg.HM_GATE_COUNT 0x40 16 o, idxOf Reg.HM_GATE_SWAP 0x40 16 o with
    | some _, _ => outside 1 256 (bits v 8 0)
    | _, some k => v.testBit 0 && s.swapRefused k
    | none, none => false

/-- A protected region of a base and size: aligned to its size, within the capacity, overlapping no enabled pool (R455). -/
def State.protFits (s : State) (b z : Nat) : Bool :=
  b % z = 0 && decide (b + z ≤ s.capacity) && !s.poolsOn.any (fun p => overlap (s.poolBase p) (s.poolEnd p) b (b + z))

/-- MEM registers (R445, R447, R455, R458, R465, R472). -/
def State.badMem (s : State) (o v : Nat) : Bool :=
  if o = Reg.MEM_DRIFT then outside 2 31 (bits v 4 0)
  else if o = Reg.MEM_MIG_RATE then
    outside 1 32 (bits v 5 0) || decide (s.fld Reg.HM_BW_RESERVE 7 0 < 2 * bits v 5 0)
  else if o = Reg.MEM_REF_CFG then outside 500 7800 (bits v 15 0) || outside 60 105 (bits v 23 16)
  else if o = Reg.MEM_SR_IDLE then decide (1000 < bits v 9 0)
  else if o = Reg.MEM_SCHED_CFG then bits v 3 0 = 0 || bits v 15 8 = 0
  else if o = Reg.MEM_SCRUB_CFG then decide (168 < bits v 7 0)
  else if o = Reg.MEM_PROT_SIZE then
    decide (5 < bits v 2 0) || (v.testBit 8 && !s.protFits s.protBase (2 ^ (28 + bits v 2 0)))
  else
    match idxOf Reg.MEM_HASH 4 9 o with
    | some i => !hashOk s.portBits i (v % 2 ^ 31)
    | none => false

/-- POOL registers: place and size only while the pool is disabled, and thresholds that keep check 6 while it is enabled (R477,
R480, R495). -/
def State.badPool (s : State) (o v : Nat) : Bool :=
  let p := (o - Reg.POOL_BASE_LO) / 0x40
  let r := Reg.POOL_BASE_LO + (o - Reg.POOL_BASE_LO) % 0x40
  if o < Reg.POOL_BASE_LO || !s.poolOn p then false
  else if r = Reg.POOL_COUNT ∨ r = Reg.POOL_FIRST_INDEX then true
  else
    let get := fun (x : Nat) => if r = x then v else s.rd (poolReg x p)
    if r = Reg.POOL_NOTICE ∨ r = Reg.POOL_PRESSURE ∨ r = Reg.POOL_CRITICAL ∨ r = Reg.POOL_HYST then
      !(decide (get Reg.POOL_CRITICAL ≤ get Reg.POOL_PRESSURE) && decide (get Reg.POOL_PRESSURE ≤ get Reg.POOL_NOTICE)
        && decide (get Reg.POOL_NOTICE + get Reg.POOL_HYST < s.poolCount p))
    else false

/-- A write of one register is refused for its value (R655). -/
def State.badWrite (s : State) (o v : Nat) : Bool :=
  match blockOf o with
  | .tide => s.badTide o v
  | .hm => s.badHm o v
  | .mem => s.badMem o v
  | .pool => s.badPool o v
  | .cfg => o = Reg.CFG_PTP_WAIT && outside 1 6000 (bits v 15 0)
  | .watch => o = Reg.WATCH_HANG_CFG && bits v 15 0 != 0 && decide (bits v 15 0 < 100)
  | .pwr =>
    if o = Reg.PWR_CEILING then outside 90 300 (bits v 8 0)
    else if o = Reg.PWR_GOV_CTRL then outside 1 8 (bits v 19 16)
    else if o = Reg.PWR_GATE_CFG then decide (bits v 15 0 < 16)
    else if o = Reg.PWR_SPAD_IDLE then decide (bits v 15 0 < 64)
    else false
  | .net =>
    if o = Reg.NET_CFG then decide (bits v 1 0 = 3) || decide (bits v 3 2 = 3) || decide (bits v 5 4 = 3)
    else if o = Reg.NET_ELEMENT_ID then outside 1 14 (bits v 3 0)
    else false
  | .disp =>
    match idxOf Reg.DISP_OUT_CTRL 0x100 8 o, idxOf Reg.DISP_OUT_PHASE 0x100 8 o with
    | some _, _ => decide (bits v 8 7 = 3)
    | _, some _ => decide (500000 < (signed 32 v).natAbs)
    | none, none => false
  | .snd =>
    if o = Reg.SND_CTRL then v.testBit 0 && !s.sndBased
    else if o = Reg.SND_LOG_CFG then decide (10 < bits v 3 0)
    else if o = Reg.SND_SKID_PERIOD then v = 0
    else if o = Reg.SND_TAG_SEED then v % 65536 = 0
    else false
  | .bell =>
    match idxOf Reg.BELL_MAP 4 208 o with
    | some _ =>
      let u := bits v 11 0
      !(u = hostAgent || unitKind u == some .group || unitKind u == some .egress)
    | none => false
  | .ucb =>
    unitKind (ucbUnit o) == some .gantry && (ucbOff o = Reg.GT_DEC_CFG || ucbOff o = Reg.GT_ENC_CFG) && outside 1 16 (bits v 4 0)
  | _ => false

/-- A pair’s value is refused at the commit (R655): alignment, place, overlap, or the mode of the block. -/
def State.badCommit (s : State) (o v : Nat) : Bool :=
  match blockOf o with
  | .hm =>
    if o = Reg.HM_QCTX_BASE_LO then v % 0x4000000 != 0
    else if o = Reg.HM_SCTX_BASE_LO then v % 0x100000 != 0
    else if o = Reg.HM_SAMPLE_BASE_LO then v % 0x1000 != 0
    else false
  | .net => v % 0x1000 != 0
  | .cmp =>
    if o = Reg.CMP_LAYOUT_BASE_LO then v % 0x1000 != 0
    else if o = Reg.CMP_STORM_TEXT_BASE_LO then v % 0x10000 != 0
    else false
  | .snd => v % 0x1000 != 0 || !s.sndRingOk v
  | .mem =>
    v % 0x10000000 != 0 || (s.protOn && !s.protFits v s.protSize)
  | .pool =>
    if o = Reg.POOL_META_BASE_LO then v % 0x200000 != 0
    else o != Reg.POOL_ADDR_LO && s.poolOn ((o - Reg.POOL_BASE_LO) / 0x40)
  | .host =>
    if o = Reg.HOST_BAR2_BASE_LO then v % s.bar2Bytes != 0
    else if o = Reg.HOST_OUT_BASE_W0 then v / two32 % 128 != 0
    else false
  | .ucb =>
    s.attached (ucbUnit o) != 0 || v % 0x1000 != 0 || decide (s.capacity < v + 0x80000)
      || (s.protOn && overlap v (v + 0x80000) s.protBase (s.protBase + s.protSize))
  | _ => false

/-! ### Storing (R12, R22, R37, R109) -/

/-- Bits of SND_LOG_UNITSw that name a unit with counters (R622). -/
def sndUnitMask (w : Nat) : Nat :=
  (List.range 32).foldl (fun n b => if decide (32 * w + b < 0x100) && sndSource (32 * w + b) then n + 2 ^ b else n) 0

/-- An accepted write of an RW register: the value stored, and what the block does with it at once. -/
def State.storeRw (o v : Nat) (s : State) : State :=
  match blockOf o with
  | .global => s.wr o (if o = Reg.GLOBAL_BASIN_DIRECT then min 16 v else v)
  | .tide =>
    let s := s.wr o v
    if o = Reg.TIDE_OUT_CFG then
      { s with tide := { s.tide with tideOut := s.tide.tideOut && v.testBit 18, ppsOut := s.tide.ppsOut && v.testBit 17 } }
    else if o = Reg.TIDE_PTP_CFG then s.gmCheck
    else s
  | .feed => (s.wr o v).feedShow ((o - 0x600000) / 0x100 % 2)
  | .hm => (s.wr o v).dispatch
  | .snd =>
    match idxOf Reg.SND_LOG_UNITS 4 8 o with
    | some w => s.wr o (Nat.land v (sndUnitMask w))
    | none => s.wr o v
  | .bell =>
    match idxOf Reg.BELL_T_CTRL 16 36 o with
    | some _ => (s.wr o v).settle s
    | none => s.wr o v
  | .host =>
    let s' := s.wr o v
    if o = Reg.HOST_CTRL ∧ !v.testBit 0 then s'.linkDown
    else if 0x808000 ≤ o ∧ o % 16 = 12 ∧ !v.testBit 0 then s'.msixUnmask ((o - 0x808000) / 16) else s'
  | _ => s.wr o v

/-! ### Writes that start an operation -/

/-- A write of a write-only register, or of a register whose own row or rule says what the write does; none for any other. -/
def State.opWrite (agent o v : Nat) (s : State) : Option State :=
  match blockOf o with
  | .tide =>
    if o = Reg.TIDE_CTRL then some (s.tideCtrlWrite agent v)
    else if o = Reg.TIDE_CAPTURE then some (s.captureWrite agent v)
    else if o = Reg.TIDE_STEP_ACCEPT then some (s.stepAccept agent v)
    else none
  | .watch =>
    if o = Reg.WATCH_FE_CLEAR then some (if v.testBit 0 then { s with watch := { s.watch with fe := none } } else s)
    else if o = Reg.WATCH_SAFE_FORCE then some (s.safeForce agent v)
    else if o = Reg.WATCH_ACK then some (s.watchAck agent v)
    else if o = Reg.WATCH_FENCE_CLEAR then some (s.fenceClear agent v)
    else none
  | .pwr =>
    if o = Reg.PWR_COEF_RESET then some (s.coefReset agent v)
    else
      match idxOf Reg.PWR_UNIT_CTRL 4 256 o, idxOf Reg.PWR_SPAD_CTRL 4 48 o with
      | some u, _ => some (s.unitPwrWrite u v)
      | _, some g => some (let r := s.spadCtrlWrite g v; if r.1 then r.2 else s.usageReg agent o)
      | none, none => none
  | .mem =>
    if o = Reg.MEM_MIG_FORCE then some (s.migForce agent v)
    else if o = Reg.MEM_ERR_CLEAR then some (if v.testBit 0 then s.clrBit Reg.MEM_ERR_INFO 31 else s)
    else none
  | .pool =>
    if o = Reg.POOL_CMD then some (s.poolCmd agent v)
    else if o = Reg.POOL_REFUSE_CLEAR then some (if v.testBit 0 then s.clrBit Reg.POOL_REFUSE_INFO 31 else s)
    else
      match idxOf Reg.POOL_CFG 0x40 256 o with
      | some p => some (s.poolCfgWrite agent p v)
      | none => none
  | .lt => if o = Reg.LT_FLAGS_SET then some (s.ltFlagsSet agent v) else none
  | .cmp => if o = Reg.CMP_LAYOUT_FLIP then some (s.layoutFlip agent (v % 1024)).2 else none
  | .hm =>
    if o = Reg.HM_BOOK_CMD then some (s.bookCmd agent (bits v 15 12) (bits v 11 0))
    else if o = Reg.HM_QC_CMD then
      some (match v with
        | 1 => s.qcCmd agent State.qcRead
        | 2 => s.qcCmd agent State.qcWrite
        | 3 => s.qcCmd agent State.qcEnable
        | 4 => s.qcCmd agent State.qcDisable
        | _ => s.usageReg agent o)
    else none
  | .snd => if o = Reg.SND_SAMPLE_CFG then some (s.sampleCfgWrite agent v) else none
  | .bell =>
    if o = Reg.BELL_ERR_CLEAR then some (if v.testBit 0 then s.clrBit Reg.BELL_ERR_INFO 31 else s)
    else
      match idxOf Reg.BELL_T_COMPLETE 16 36 o, idxOf Reg.BELL_SRC_CFG 8 1024 o, idxOf Reg.BELL_SRC_STATE 8 1024 o with
      | some t, _, _ => some (bellComplete agent t v s)
      | _, some n, _ => some (bellSrcCfgWrite agent n v s)
      | _, _, some n => some (if v.testBit 0 then s.bellDiscard n else s)
      | none, none, none =>
        match idxOf Reg.BELL_SWSET 4 8 o with
        | some w => some (bellSwset agent w v s)
        | none => none
  | .host =>
    if o = Reg.HOST_MBX_CTRL then
      some (if !v.testBit 0 then s
        else if s.bit Reg.HOST_MBX_STATUS 0 then s.usageReg agent o
        else s.wr Reg.HOST_MBX_STATUS 1)
    else none
  | .feed =>
    match idxOf Reg.FEED_FIFO_WM 0x100 2 o with
    | some n => some ((s.watermark agent o v).feedShow n)
    | none => none
  | .ucb =>
    let u := ucbUnit o
    let r := ucbOff o
    let group := unitKind u == some .group
    if r = Reg.UCB_CTRL then some (s.unitCtrl agent u v)
    else if r = Reg.UCB_GRP_CTRL then some (if group then s.grpWrite agent u v else s)
    else
      match idxOf Reg.UCB_GRP_MEMBER 4 256 r, idxOf Reg.SND_SEL 0x20 8 r with
      | some i, _ => some (if group then s.grpMemberWrite u i v else s)
      | _, some i => some (s.sndSelWrite agent u i v)
      | none, none =>
        if unitKind u == some .tally && r = Reg.TL_QUAY_WM then some (s.watermark agent o v)
        else if unitKind u == some .pilot && r = Reg.PL_UCW_REARM then some (s.ucwRearm agent u v)
        else if isChannel u && r = Reg.LT_ERR_CLEAR then
          some (if v.testBit 0 then s.clrBit (ucb u Reg.LT_ERR_INFO) 31 else s)
        else none
  | _ => none

/-- Block set k and counter i of an SND_SELi of a block set (R622). -/
def sndSetSel (o : Nat) : Option (Nat × Nat) :=
  if Reg.SNDSET_SEL ≤ o ∧ o < Reg.SNDSET_SEL + 0x600 ∧ (o - Reg.SNDSET_SEL) % 0x20 = 0 then
    some ((o - Reg.SNDSET_SEL) / 0x100, (o - Reg.SNDSET_SEL) % 0x100 / 0x20)
  else none

/-! ### Pairs (R17 to R21, R119) -/

/-- The low half that a commit of the pair at `o` takes: the last one written since the last commit, or the one in force (R18,
R19). -/
def State.heldLow (s : State) (o : Nat) : Nat := (SMap.get (fun k => BitVec.ofNat 32 (s.rd k)) s.hold o).toNat

/-- A write of the low half goes into the holding register (R18). -/
def State.holdLow (o v : Nat) (s : State) : State := { s with hold := SMap.ins o (BitVec.ofNat 32 v) s.hold }

/-- A commit of the pair at `o`, by its upper half (R18, R21, R655). -/
def State.commit (img : Bool) (agent o hi : Nat) (s : State) : State :=
  let v := s.heldLow o + hi * two32
  if o = Reg.TIDE_ADJ_W0 then (s.adjCommit agent v).dropSnaps o
  else if o = Reg.TIDE_RATE_FRAC_LO then
    if s.servoMan && !img then s.rateCommit agent v
    else if s.servoMan then (s.setRate (signed 40 v)).committed o
    else s.usageReg agent (o + 4)
  else if s.badCommit o v then s.usageReg agent (o + 4)
  else
    let s := (((s.wr o v).wr (o + 4) hi).committed o).runtimeChanged img
    if o = Reg.POOL_META_BASE_LO then { s with metaSet := true }
    else if o = Reg.SND_LOG_BASE_LO then { s with sndBased := true }
    else s

/-! ### A write (R10 to R13, R37, R100, R655, R656) -/

/-- A register that only the image writes: HOST_CTRL in its bit 0 alone (R37, R561). -/
def State.imageOnly (s : State) (r : RegRow) (o v : Nat) : Bool :=
  if o = Reg.HOST_CTRL then v.testBit 0 != s.bit o 0 else r.img

/-- A register of a network port that does not exist (R369). -/
def State.absentPort (s : State) (o : Nat) : Bool :=
  blockOf o == .net && decide (0x501000 ≤ o) && !s.portExists ((o - 0x501000) / 0x100)

/-- A UCB_GRP register of a unit that is no group: it reads 0 and a write is discarded (R42). -/
def noGroupReg (o : Nat) : Bool :=
  blockOf o == .ucb && unitKind (ucbUnit o) != some .group
    && (ucbOff o = Reg.UCB_GRP_CTRL || (decide (Reg.UCB_GRP_MEMBER ≤ ucbOff o) && decide (ucbOff o < Reg.UCB_GRP_MEMBER + 0x400)))

/-- A 32-bit write to a register by an agent; `img` says that the Etvor image writes, during step 6. -/
def State.writeReg (img : Bool) (agent o v : Nat) (s : State) : State :=
  let v := v % two32
  if groupSnd o then s
  else if s.noRegister agent o then s.usageReg agent o
  else
    match rowOf o with
    | none => s.usageReg agent o
    | some (r, _, _) =>
      if s.armBlocks agent o then s.usageReg agent o
      else if !img && s.imageOnly r o v then s.usageReg agent o
      else if s.absentPort o || noGroupReg o then s
      else
        match r.acc with
        | .ro | .rc => s
        | .w1c =>
          let v := Nat.land v r.mask
          match s.opWrite agent o v with
          | some s => s
          | none => s.wr o (s.rd o - Nat.land (s.rd o) v)
        | .w1s | .wo =>
          match r.half with
          | .w0 | .lo40 => s.holdLow o v
          | .w1 | .hi40 => s.commit img agent (o - 4) (Nat.land v r.mask)
          | .none => (s.opWrite agent o (Nat.land v r.mask)).getD s
        | .rws =>
          let v := Nat.land v r.mask
          match sndSetSel o with
          | some (k, i) => s.sndSelWrite agent (0xF00 + k) i v
          | none =>
            match s.opWrite agent o v with
            | some s => s
            | none => if s.badWrite o v then s.usageReg agent o else (s.stage o v).runtimeChanged img
        | .rw =>
          match r.half with
          | .w0 | .lo40 => s.holdLow o v
          | .w1 | .hi40 => s.commit img agent (o - 4) (Nat.land v r.mask)
          | .none =>
            let v := Nat.land v r.mask
            match s.opWrite agent o v with
            | some s' => if s.refusedBy s' o then s' else s'.runtimeChanged img
            | none =>
              if s.badWrite o v then s.usageReg agent o else (s.storeRw o v).runtimeChanged img

/-- A write by any agent but the image. -/
def State.regWrite (agent o v : Nat) (s : State) : State := s.writeReg false agent o v

/-- An access that R11 refuses: a read answers 0, a write is discarded, and the Watch records it. -/
def State.refuseAccess (agent o : Nat) (isWrite : Bool) (s : State) : State :=
  let s := s.usageReg agent o
  if isWrite then s else s.emit (.readData agent o 0)

end Sys2Proof.Machine
end

