-- ==== Sys2Proof/Machine/Bursts.lean ====
section
/-! DEFINITION. Lighter MOVE and SIGNAL (14_lighters.md: R502 to R507, R511, R513 to R515): range checks, bursts, their completion
and reissue. -/

namespace Sys2Proof.Machine

/-! ### The sides of a MOVE (R502, R503) -/

/-- One side: a scratchpad operand or not, the gantry it names, its effective address or offset, whether it stays, and the bytes
of a beat. -/
structure Side where
  sp : Bool
  gantry : Nat
  base : Nat
  fix : Bool
  width : Nat
  deriving DecidableEq, Repr

/-- The source side of the MOVE at the program counter. -/
def State.mvSource (s : State) (u : Nat) : Side :=
  let w := s.ltWords u
  let sp := mvSrcSp w.1
  { sp, gantry := bits w.1 33 22, base := effAddr sp (bits w.1 39 0) (s.lt u).os, fix := w.1.testBit 49
    width := if isSkiff u then mvSw w.1 else if sp then 32 else 64 }

/-- The destination side of the MOVE at the program counter. -/
def State.mvDest (s : State) (u : Nat) : Side :=
  let w := s.ltWords u
  let sp := mvDstSp w.1
  { sp, gantry := bits w.2 33 22, base := effAddr sp (bits w.2 39 0) (s.lt u).od, fix := w.1.testBit 48
    width := if isSkiff u then mvDw w.1 else if sp then 32 else 64 }

/-- Bytes of the address range of a side for a MOVE of `len` bytes. -/
def Side.span (x : Side) (len : Nat) : Nat := if x.fix then x.width else len

/-- Address or offset of byte `p` of the stream on a side. -/
def Side.at (x : Side) (p : Nat) : Nat := x.base + (if x.fix then p % x.width else p)

/-- A range in register blocks that a channel writes no register of (R504). -/
def noLtWrite (o n : Nat) : Bool :=
  overlap o (o + n) 0 0x40000 || overlap o (o + n) 0x60000 0x70000 || overlap o (o + n) 0x80000 0x100000
    || overlap o (o + n) 0x200000 0x300000

/-- Every byte of a range lies within one permitted target, as R503 and R504 check it; a destination lies outside the protected
region’s data and check areas. -/
def State.sideOk (s : State) (u : Nat) (write : Bool) (x : Side) (n : Nat) : Bool :=
  if x.sp then
    decide (x.gantry < 0x30) && s.eng x.gantry != .fenced && decide (x.base + n ≤ 0x400000)
  else
    let a := x.base
    let e := a + n - 1
    if e < s.capacity then
      !(write && s.protOn && overlap a (a + n) s.protBase (s.protBase + s.protSize))
    else if 0x2000000000 ≤ a ∧ e < 0x2004000000 then
      s.isMem a && decide ((a - 0x2000000000) / 0x400000 = (e - 0x2000000000) / 0x400000)
    else if 0x4000000000 ≤ a ∧ e < 0x4010000000 then
      isSkiff u && x.width = 4 && !(write && noLtWrite (a - 0x4000000000) n)
    else decide (0x8000000000 ≤ a) && decide (e < two40)

/-- A MOVE is reached: its ranges are checked, and nothing is issued by one that fails (R503). -/
def State.ltMove (u : Nat) (s : State) : State :=
  if !s.ltAt u 1 then s
  else
    let n := mvLen (s.ltWords u).2
    let a := s.mvSource u
    let b := s.mvDest u
    if !s.sideOk u false a (a.span n) then s.ltHalt u 2 false a.base
    else if !s.sideOk u true b (b.span n) then s.ltHalt u 2 true b.base
    else
      (s.modLt u (fun x => { x with
        moving := true, issued := 0, put := 0, run := 0, fetched := [], half := false, full := false, again := false })).wr (ucb u Reg.LT_REMAIN) n

/-! ### One burst (R505, R506) -/

/-- Bytes of the next burst on a side, from stream byte `p`, of at most `left` bytes: up to 4 beats within an aligned 256-byte
block, or a skiff’s up to 8 beats within a 64-byte line; a register beat is a burst of its own. -/
def Side.burst (x : Side) (skiff : Bool) (p left : Nat) : Nat :=
  let a := x.at p
  if skiff then
    if !x.sp && decide (0x4000000000 ≤ a) && decide (a < 0x4010000000) then min x.width left
    else if x.fix then min (8 * x.width) left
    else min (min (8 * x.width) left) (64 - a % 64)
  else min left (min (256 - a % 256) ((a / x.width + 4) * x.width - a))

/-- Bytes of a scratchpad; one that nothing has written is a free value (assumption 3). -/
def State.spadRead (g a : Nat) : Nat → State → List Nat × State
  | 0, s => ([], s)
  | n + 1, s =>
    match s.spad.find? (fun p => p.1 = g * 4194304 + a) with
    | some p =>
      let r := State.spadRead g (a + 1) n s
      (p.2 % 256 :: r.1, r.2)
    | none =>
      let d := s.draw
      let r := State.spadRead g (a + 1) n d.2
      (d.1 % 256 :: r.1, r.2)

/-- Write bytes of a scratchpad. -/
def State.spadWrite (g a : Nat) (bs : List Nat) (s : State) : State :=
  { s with spad := bs.zipIdx.foldl (fun m p => SMap.ins (g * 4194304 + a + p.2) (p.1 % 256) m) s.spad }

/-- Result of an attempt on one side: done with its bytes, refused at an address, or a bus error at an address. -/
inductive Beat where
  | done (bytes : List Nat)
  | refused (addr : Nat)
  | error (addr : Nat)
  deriving DecidableEq, Repr

/-- The first byte in range whose line fails. -/
def State.failAt (s : State) (a n : Nat) : Nat :=
  match (linesOf a n).find? (fun l => s.poisoned l || s.portGone l) with
  | some l => max a l
  | none => a

/-- A source burst of `n` bytes from stream byte `p`. `data` is what host memory returns. -/
def State.readBeats (u : Nat) (x : Side) (p n : Nat) (data : List Nat) (s : State) : Beat × State :=
  let a := x.at p
  let m := if x.fix then x.width else n
  let again := fun (bs : List Nat) => (List.range n).map (fun i => bs.getD (i % m) 0)
  if x.sp then
    let r := (s.bankAccess x.gantry a).spadRead x.gantry a m
    (.done (again r.1), r.2)
  else
    match s.target a with
    | .regs =>
      let r := s.regRead u (a - 0x4000000000)
      (.done (leBytes 4 r.1), r.2)
    | .outbound =>
      let s := s.sndCount 0xF05 0xD02 1
      if s.outboundOk then (.done ((List.range n).map (fun i => byteAt data i)), s) else (.error a, s.outboundErr)
    | _ =>
      match s.readMem u a m with
      | (.ok, bs, s) => (.done (again bs), s)
      | (.refused, _, s) => (.refused a, s)
      | (.busError, _, s) => (.error (s.failAt a m), s)

/-- A destination burst: the bytes of the stream from byte `p`. -/
def State.writeBeats (u : Nat) (x : Side) (p : Nat) (bs : List Nat) (s : State) : Beat × State :=
  let a := x.at p
  let bs' := if x.fix then bs.drop (bs.length - x.width) else bs
  if x.sp then (.done [], (s.bankAccess x.gantry a).spadWrite x.gantry a bs')
  else
    match s.target a with
    | .regs => (.done [], s.regWrite u (a - 0x4000000000) (leNat bs'))
    | .outbound =>
      if s.outboundOk then
        (.done [], if x.fix then s.each (List.range (bs.length / x.width)) (fun i s => s.hostWrite a ((bs.drop (i * x.width)).take x.width))
          else s.hostWrite a bs')
      else (.error a, s.outboundErr)
    | _ =>
      match s.writeMem u a bs' with
      | (.ok, s) => (.done [], s)
      | (.refused, s) => (.refused a, s)
      | (.busError, s) =>
        -- the beats that do not fail complete (R514)
        (.error (s.failAt a bs'.length), s.each (linesOf a bs'.length) (fun l s =>
          let lo := max a l
          let hi := min (a + bs'.length) (l + 64)
          (s.writeMem u lo ((bs'.drop (lo - a)).take (hi - lo))).2))

/-! ### The stream (R505 to R507) -/

/-- Position of the byte that SWAP puts at position `p` (R507). -/
def swapAt (swap p : Nat) : Nat := Nat.xor p ([0, 1, 3, 2].getD swap 0)

/-- Bytes that may be written: whole SWAP units of what has been read, from the byte after the last written. -/
def State.ltReady (s : State) (u : Nat) : Nat :=
  let x := s.lt u
  let k := swapUnit (mvSwap (s.ltWords u).1)
  x.issued / k * k - x.put

/-- Byte `p` of the stream as it goes to the destination. -/
def State.ltByte (s : State) (u p : Nat) : Nat :=
  let x := s.lt u
  let swap := mvSwap (s.ltWords u).1
  x.fetched.getD (swapAt swap p - x.put / swapUnit swap * swapUnit swap) 0

/-- The two ranges overlap with the destination above the source, and byte `p` is undefined: its destination lies in the overlap,
or its source does and may be overwritten before it is read (R505). -/
def overlapped (a b : Side) (len p : Nat) : Bool :=
  !a.fix && !b.fix && a.sp == b.sp && (!a.sp || a.gantry = b.gantry) && decide (a.base < b.base) && decide (b.base < a.base + len)
    && (decide (b.at p < a.base + len) || decide (b.base ≤ a.at p))

/-- Bytes of a stream with the undefined ones free (assumption 3). -/
def State.freeBytes (a b : Side) (len : Nat) : List Nat → Nat → State → List Nat × State
  | [], _, s => ([], s)
  | v :: vs, p, s =>
    if overlapped a b len p then
      let d := s.draw
      let r := State.freeBytes a b len vs (p + 1) d.2
      (d.1 % 256 :: r.1, r.2)
    else
      let r := State.freeBytes a b len vs (p + 1) s
      (v :: r.1, r.2)

/-- Bytes moved are counted (R499, R519). -/
def State.ltMoved (u n : Nat) (s : State) : State :=
  let t := s.ltRem + n
  let s := { s with ltRem := t % 1000000 }
  (((s.modLt u (fun x => { x with moved := x.moved + n })).bump (ucb u Reg.LT_CH_BYTES_LAST) n).bump Reg.LT_BYTES_LAST (t / 1000000)).sndCount
    u 0x501 n

/-- Source bytes of an attempt are in hand. -/
def State.ltFetched (u : Nat) (bs : List Nat) (s : State) : State :=
  s.modLt u (fun x => { x with fetched := x.fetched ++ bs, issued := x.issued + bs.length, again := false })

/-- Destination bytes up to stream byte `p` have completed, as a run from the first: they are counted, and HALF is raised (R513). -/
def State.ltRun (u p : Nat) (s : State) : State :=
  let x := s.lt u
  let w := s.ltWords u
  let len := mvLen w.2
  if p ≤ x.run then s
  else
    let half := w.1.testBit 51 && decide (2 * x.run < len) && decide (len ≤ 2 * p)
    ((s.setLt u { x with run := p, half := x.half || half }).ltMoved u (p - x.run)).whenB half (State.setBit (ucb u Reg.LT_EVENT) 0)

/-- A destination burst has completed: FULL, and after the last the next instruction (R513). -/
def State.ltPut (u n : Nat) (s : State) : State :=
  let s := s.ltRun u ((s.lt u).put + n)
  let x := s.lt u
  let w := s.ltWords u
  let len := mvLen w.2
  let k := swapUnit (mvSwap w.1)
  let p := x.put + n
  let full := w.1.testBit 50 && decide (len ≤ p)
  let s := s.setLt u { x with put := p, fetched := x.fetched.drop (p / k * k - x.put / k * k), full := full, again := false }
  let s := s.whenB full (State.setBit (ucb u Reg.LT_EVENT) 1)
  if len ≤ p then s.ltNext u else s

/-- The attempts of a burst begin: LT_REMAIN falls by the bytes in range of a source burst, once (R513, R514). -/
def State.ltIssue (u n : Nat) (source : Bool) (s : State) : State :=
  let x := s.lt u
  if x.again then s
  else
    let s := s.setLt u { x with retries := 0 }
    if source then (s.wr (ucb u Reg.LT_REMAIN) (mvLen (s.ltWords u).2 - (x.issued + n))).sndCount u 0x500 n else s

/-- BURST_COMPLETE: every beat of one attempt of the channel’s next burst has responded. `err` says that a beat met a bus error no
rule here foresees, at `beat` bytes into the burst; `data` is what host memory returned (R505, R506, R513 to R515). -/
def State.ltBurst (u : Nat) (err : Bool) (beat : Nat) (data : List Nat) (s : State) : State :=
  let x := s.lt u
  if !x.moving then s
  else
    let a := s.mvSource u
    let b := s.mvDest u
    let len := mvLen (s.ltWords u).2
    let ready := s.ltReady u
    let skiff := isSkiff u
    let isWrite := decide (0 < ready) && (!skiff || decide (b.width ≤ ready))
    let n := if isWrite then b.burst skiff x.put (if skiff then ready / b.width * b.width else ready)
      else a.burst skiff x.issued (if skiff then min (len - x.issued) (8 - (s.ltHold u).length) else len - x.issued)
    let s := s.ltIssue u n (!isWrite)
    let side := if isWrite then b else a
    let pos := if isWrite then x.put else x.issued
    let bs := if isWrite then State.freeBytes a b len ((List.range n).map (fun i => s.ltByte u (x.put + i))) x.put s else ([], s)
    let s := bs.2
    if err then
      let k := beat % max 1 n
      let e := side.at (pos + k)
      -- the other beats of a write burst complete (R514)
      let lo := k - (e % side.width)
      let hi := k + (side.width - e % side.width)
      let s := if !isWrite || b.fix then s
        else
          let s := if lo = 0 then s else (s.writeBeats u b x.put (bs.1.take lo)).2
          if n ≤ hi then s else (s.writeBeats u b (x.put + hi) (bs.1.drop hi)).2
      (s.whenB (isWrite && !b.fix) (State.ltRun u (x.put + lo))).ltBusError u isWrite (side.at (pos + lo) % two40)
    else
      let r := if isWrite then s.writeBeats u b x.put bs.1 else s.readBeats u a x.issued n data
      if (r.2.ltJob u).isNone then r.2
      else
        match r.1 with
        | .done bs => if isWrite then r.2.ltPut u n else r.2.ltFetched u bs
        | .refused x => r.2.ltHalt u 2 isWrite x
        | .error e =>
          (r.2.whenB (isWrite && !b.fix) (State.ltRun u (x.put + (e - b.at x.put)))).ltBusError u isWrite e

/-! ### SIGNAL (R511) -/

/-- The rest of a SIGNAL after its WRITE: FLAG, IRQ, END, in that order. -/
def State.ltSignalRest (u : Nat) (s : State) : State :=
  let w0 := (s.ltWords u).1
  let s := if w0.testBit 56 then s.ltFlags (2 ^ bits w0 52 48) else s
  let s := s.whenB (w0.testBit 57) (State.setBit (ucb u Reg.LT_EVENT) 2)
  if w0.testBit 59 then
    ((s.modLt u (fun x => { x with isDone := true, cause := 0 })).setBit (ucb u Reg.LT_EVENT) 3).ltEnd u
  else s.ltNext u

/-- SIGNAL: its WRITE is one 32-bit write, checked as a MOVE’s destination and reissued as a burst; an address that is not a multiple
of 4 fails the check. -/
def State.ltSignal (u : Nat) (s : State) : State :=
  if !s.ltAt u 4 then s
  else
    let w := s.ltWords u
    let a := bits w.2 39 0
    let x : Side := { sp := false, gantry := 0, base := a, fix := false, width := 4 }
    if !w.1.testBit 58 then s.ltSignalRest u
    else if a % 4 ≠ 0 || !s.sideOk u true x 4 then s.ltHalt u 2 true a
    else
      let s := s.modLt u (fun x => { x with retries := 0, again := false })
      let r := s.writeBeats u x 0 (leBytes 4 (bits w.1 31 0))
      if (r.2.ltJob u).isNone then r.2
      else
        match r.1 with
        | .done _ => r.2.ltSignalRest u
        | .refused e => r.2.ltHalt u 2 true e
        | .error e => (r.2.ltRetry u (fun s => (s.writeBeats u x 0 (leBytes 4 (bits w.1 31 0))).2)).ltHalt u 1 true e

end Sys2Proof.Machine
end

