-- ==== Sys2Proof/Machine/Flags.lean ====
section
/-! DEFINITION. The flags of the control-store engine: what each result sets, and what a condition tests (15_microcode.md: R524 to
R526). -/

namespace Sys2Proof.Machine

/-- Flags as bits: Z, N, C, V. -/
def Micro.flags (m : Micro) : Nat := b2n m.z + 2 * b2n m.n + 4 * b2n m.c + 8 * b2n m.v
def Micro.setFlags (m : Micro) (f : Nat) : Micro :=
  { m with z := f.testBit 0, n := f.testBit 1, c := f.testBit 2, v := f.testBit 3 }

/-- Z and N of a result. -/
def zn (r : Nat) : Nat := b2n (r % two40 = 0) + 2 * b2n (r.testBit 39)

/-- A signed value outside 40 bits. -/
def overS40 (i : Int) : Bool := decide (i < -549755813888) || decide (549755813887 < i)

/-- Flags of a sum. -/
def addFlags (a b : Nat) : Nat :=
  zn ((a + b) % two40) + 4 * b2n (two40 ≤ a + b) + 8 * b2n (overS40 (signed 40 a + signed 40 b))

/-- Flags of a difference: C is 1 when no borrow occurred. -/
def subFlags (a b : Nat) : Nat :=
  zn ((a + two40 - b) % two40) + 4 * b2n (b ≤ a) + 8 * b2n (overS40 (signed 40 a - signed 40 b))

/-- A logic result: C and V cleared. -/
def logic (r : Nat) : Nat × Nat := (r % two40, zn r)

/-- The signed 80-bit product. -/
def product (a b : Nat) : Int := signed 40 a * signed 40 b

/-- A condition of BR or CALL (R525). -/
def Micro.holds (m : Micro) (c : Nat) : Bool :=
  match c with
  | 0 => true
  | 1 => m.z
  | 2 => !m.z
  | 3 => m.n != m.v
  | 4 => m.n == m.v
  | 5 => !m.c
  | 6 => m.c
  | _ => m.v

end Sys2Proof.Machine
end

