-- ==== Sys2Proof/Machine/Operands.lean ====
section
/-! DEFINITION. The fields of a microword (15_microcode.md: R525). -/

namespace Sys2Proof.Machine

def rdOf (w : Nat) : Nat := bits w 17 14
def raOf (w : Nat) : Nat := bits w 13 10
def rbOf (w : Nat) : Nat := bits w 9 6
def immOf (w : Nat) : Int := signed 14 (bits w 13 0)

/-- A field that must be zero is not, or SPACE is reserved (R525, R526, R532). -/
def badFields (op w : Nat) : Bool :=
  if op = 0x00 ∨ op = 0x18 ∨ op = 0x1B ∨ op = 0x1E ∨ op = 0x1F then bits w 17 0 != 0
  else if op = 0x1A then bits w 17 16 != 0
  else if op = 0x1D then bits w 17 8 != 0
  else if op = 0x0B ∨ op = 0x0C ∨ op = 0x0D then bits w 9 6 != 0
  else if op = 0x12 then bits w 5 0 != 0 || rdOf w != 0
  else if op = 0x01 ∨ (0x04 ≤ op ∧ op ≤ 0x0A) ∨ (0x0E ≤ op ∧ op ≤ 0x10) then bits w 5 0 != 0
  else if op = 0x14 ∨ op = 0x15 then bits w 9 8 = 3
  else if op = 0x19 then decide (8 < bits w 17 14)
  else false

end Sys2Proof.Machine
end

