-- ==== Sys2Proof/Machine/Micro.lean ====
section
/-! DEFINITION. Micro-routines (15_microcode.md: R521 to R538, R546 to R548): the micro-state, the micro-ops, waits, commits, the
end of a routine, micro-traps and the customer window’s violations. -/

namespace Sys2Proof.Machine

/-! ### Micro-state (R522, R524, R536) -/

def State.mi (s : State) (u : Nat) : Micro := (s.unit u).micro
def State.setMi (u : Nat) (m : Micro) (s : State) : State := s.setUnitF u (fun x => { x with micro := m })

/-- A control-store word; at reset every word holds 0x800000 (R522). -/
def State.csWord (s : State) (u a : Nat) : Nat := SMap.get (fun _ => 0x800000) s.cs (u * 65536 + a)

/-- A data register; in the trap handler 12 to 15 name the trap bank (R536). Before a routine writes it its contents are
undefined (R524; assumption 3). -/
def Micro.reg (m : Micro) (i : Nat) : Nat :=
  if m.trapped ∧ 12 ≤ i then SMap.get (fun _ => 0) m.t (i - 12)
  else SMap.get (fun k => match m.undef with | some f => Config.free (f + k) % two40 | none => 0) m.d i

/-- A word of LOCAL. -/
def Micro.local (m : Micro) (i : Nat) : Nat :=
  SMap.get (fun k => match m.undef with | some f => Config.free (f + 16 + k) % two40 | none => 0) m.locals i

/-- In a customer window invocation, and not in the trap handler. -/
def Micro.inWindow (m : Micro) : Bool := m.window.isSome && !m.trapped

/-- An ILLEGAL micro-op: a fault of the unit, which is fenced (R532). -/
def State.illegal (u : Nat) (s : State) : State := s.fence (0x4012 + s.unitNibble u * 256) 0 0 u

/-- A MEM access refused or in error: a fault of the unit, which is fenced (R527). -/
def State.memAccess (u access a : Nat) (s : State) : State := s.fence (0x4013 + s.unitNibble u * 256) access a u

/-- A micro-op has run in `cost` micro-cycles; a window invocation that reaches 2,000 is stopped (R528, R546 to R548). -/
def State.ran (u cost : Nat) (s : State) : State :=
  let m := s.mi u
  if !m.inWindow then s
  else if m.cycles + cost < 2000 then s.setMi u { m with cycles := m.cycles + cost }
  else s.ucwOverrun u

/-- A violation: in the window the invocation is stopped, never ILLEGAL; elsewhere the micro-op is ILLEGAL (R532, R547). -/
def State.violation (u : Nat) (s : State) : State := if (s.mi u).inWindow then s.ucwOverrun u else s.illegal u

/-- On to the next micro-op. -/
def State.microNext (u cost : Nat) (s : State) : State :=
  let m := s.mi u
  (s.setMi u { m with pc := (m.pc + 1) % 32768 }).ran u cost

/-! ### Running a micro-op -/

/-- The unit runs the micro-op at its micro-PC, which is to be `op`. `err` says how the word’s check bits read: 0 clean, 1 a
single-bit error, corrected, 2 uncorrectable (R522). A unit in no routine, in a WAIT, or at another micro-op does nothing; an idle pilot
first begins a window invocation that waits for it (R288; DESIGN CHOICE, assumption 84). -/
def State.microOp (u op err : Nat) (f : Nat → State → State) (s : State) : State :=
  let s := if (s.mi u).inRoutine || s.winq u == [] then s else s.windowNext u
  let m := s.mi u
  if !m.inRoutine || m.waiting.isSome || s.eng u == .fenced then s
  else
    let w := s.csWord u m.pc
    if bits w 23 18 ≠ op ∧ bits w 23 18 < 0x20 then s
    else if err = 2 then s.fence (0x4010 + s.unitNibble u * 256) 3 0 u
    else
      let s := s.whenB (err = 1) (fun s => s.report (0x2002 + s.unitNibble u * 256) u 3 0)
      if 0x20 ≤ bits w 23 18 || badFields op w then s.violation u else f w s

/-! ### Results (R526) -/

/-- Write a register; in the trap handler d0 to d11 are read-only (R536). -/
def State.wrReg (u i v : Nat) (f : State → State) (s : State) : State :=
  let m := s.mi u
  if m.trapped then
    if i < 12 then s.illegal u else f (s.setMi u { m with t := SMap.ins (i - 12) (v % two40) m.t })
  else f (s.setMi u { m with d := SMap.ins i (v % two40) m.d })

/-- A micro-op that writes a result, and flags where it names them. -/
def State.result (u rd v : Nat) (fl : Option Nat) (cost : Nat) (s : State) : State :=
  s.wrReg u rd v (fun s =>
    (match fl with
      | some k => s.setMi u ((s.mi u).setFlags k)
      | none => s).microNext u cost)

/-- A two-operand micro-op: the result and the flags of its operands. -/
def State.alu (u : Nat) (cost : Nat) (g : Nat → Nat → Nat × Nat) (w : Nat) (s : State) : State :=
  let m := s.mi u
  let r := g (m.reg (raOf w)) (m.reg (rbOf w))
  s.result u (rdOf w) r.1 (some r.2) cost

/-- A shift by SH. -/
def State.shift (u : Nat) (g : Nat → Nat → Nat) (w : Nat) (s : State) : State :=
  let r := g ((s.mi u).reg (raOf w)) (bits w 5 0)
  s.result u (rdOf w) r (some (zn r)) 1

/-! ### Memory spaces (R527) -/

/-- A VIEW slot the window may write at its entry point (R289). -/
def viewRw (routine k : Nat) : Bool := decide (24 ≤ k) || (routine = 0xF3 && decide (16 ≤ k) && decide (k ≤ 18))

/-- LD. `data` is the word host memory returns, for an address in the outbound window. -/
def State.ld (u data w : Nat) (s : State) : State :=
  let m := s.mi u
  let x := m.reg (raOf w)
  let off := bits w 7 0
  match bits w 9 8 with
  | 0 => s.result u (rdOf w) (m.local ((x + off) % 1024)) none 2
  | 1 =>
    let k := (x + off) % two40
    if m.inWindow then
      if 31 < k then s.ucwOverrun u else s.result u (rdOf w) (SMap.get (fun _ => 0) m.locals (viewKey k)) none 2
    else
      match m.locals.find? (fun p => p.1 = viewKey k) with
      | some p => s.result u (rdOf w) p.2 none 2
      | none =>
        let d := s.draw
        d.2.result u (rdOf w) d.1 none 2
  | _ =>
    let a := (x + off * 8) % two40
    if a % 8 ≠ 0 then s.memAccess u 1 a
    else if s.target a = .outbound then
      if s.outboundOk then s.result u (rdOf w) data none 1 else (s.outboundErr).memAccess u 1 a
    else
      match s.readMem u a 8 with
      | (.ok, bs, s) => s.result u (rdOf w) (leNat bs % two40) none 1
      | (_, _, s) => s.memAccess u 1 a

/-- ST. -/
def State.st (u w : Nat) (s : State) : State :=
  let m := s.mi u
  let x := m.reg (raOf w)
  let off := bits w 7 0
  let v := m.reg (rdOf w)
  match bits w 9 8 with
  | 0 => (s.setMi u { m with locals := SMap.ins ((x + off) % 1024) v m.locals }).microNext u 1
  | 1 =>
    let k := (x + off) % two40
    if m.inWindow && (decide (31 < k) || !viewRw m.routine k) then s.ucwOverrun u
    else if 31 < k then s.microNext u 1
    else (s.setMi u { m with locals := SMap.ins (viewKey k) v m.locals }).microNext u 1
  | _ =>
    let a := (x + off * 8) % two40
    if a % 8 ≠ 0 then s.memAccess u 2 a
    else if s.target a = .outbound then
      if s.outboundOk then (s.hostWrite a (leBytes 8 v)).microNext u 1 else (s.outboundErr).memAccess u 2 a
    else
      match s.writeMem u a (leBytes 8 v) with
      | (.ok, s) => s.microNext u 1
      | (_, s) => s.memAccess u 2 a

/-! ### Branches (R526) -/

/-- Depth of the call stack in use: 8, or 4 in the trap handler (R524, R536). -/
def Micro.depth (m : Micro) : Nat := if m.trapped then 4 else 8

def State.br (u w : Nat) (s : State) : State :=
  let m := s.mi u
  if m.holds (bits w 17 15) then (s.setMi u { m with pc := bits w 14 0 }).ran u 2 else s.microNext u 1

def State.callOp (u w : Nat) (s : State) : State :=
  let m := s.mi u
  if !m.holds (bits w 17 15) then s.microNext u 1
  else if m.depth ≤ m.stack.length then s.violation u
  else (s.setMi u { m with pc := bits w 14 0, stack := (m.pc + 1) % 32768 :: m.stack }).ran u 2

def State.retOp (u : Nat) (s : State) : State :=
  let m := s.mi u
  match m.stack with
  | [] => s.violation u
  | a :: l => (s.setMi u { m with pc := a, stack := l }).ran u 2

/-! ### WAIT, STEP, COMMIT, DONE (R529 to R533) -/

/-- The tally berth of the quay buffers a unit reads or writes for the job it works on. -/
def State.quayBerth (s : State) (u : Nat) : Option Nat :=
  match (s.unit (s.workOf u)).job with
  | some j => if [0x0101, 0x0102, 0x0201, 0x0202].contains j.op then some (s.tlBerth j.ctx) else none
  | none => none

/-- Leaves of a tally berth whose quay buffer is a unit’s own: a tally’s one, a gantry’s all. -/
def State.quayLeaves (s : State) (t u : Nat) : List Nat :=
  ((s.leafList t).zipIdx.filter (fun p => unitKind u != some .tally || p.1 = u)).map (fun p => p.2)

/-- A WAIT’s condition, where the model can tell: the entries and the room of the unit’s quay buffer; MEM and BASIN always hold, since
every access here is complete when made; TIDE holds once another tide has started. `ready` answers for the others, which depend on the
datapath and its timing (R529). -/
def State.waitHolds (s : State) (u w tide : Nat) (ready : Bool) : Bool :=
  let arg := bits w 13 0
  match bits w 17 14, s.quayBerth u with
  | 1, some t =>
    decide (arg ≤ ((s.quayLeaves t u).map (s.quayUnread t)).foldl (· + ·) 0) || (s.quay t).any (fun p => p.eop = 1)
  | 2, some t => (s.quayLeaves t u).all (fun i => decide (arg + s.quayOcc t i ≤ quayDepth))
  | 3, _ => true
  | 4, _ => true
  | 7, _ => decide (tide < s.tideNum)
  | _, _ => ready

/-- WAIT: its condition holds at once, or the micro-PC is held. -/
def State.waitOp (u : Nat) (ready : Bool) (w : Nat) (s : State) : State :=
  if s.waitHolds u w s.tideNum ready then s.microNext u 1
  else s.setMi u { s.mi u with waiting := some (bits w 17 0), waitTide := s.tideNum }

/-- A WAIT’s condition comes to hold and the routine goes on. -/
def State.waitDone (u : Nat) (s : State) : State :=
  let m := s.mi u
  match m.waiting with
  | none => s
  | some w => if s.waitHolds u w m.waitTide true then (s.setMi u { m with waiting := none }).microNext u 1 else s

/-- STEP; in the trap handler it is ILLEGAL. -/
def State.stepOp (u w : Nat) (s : State) : State :=
  if (s.mi u).trapped then s.illegal u else (s.wrFld (ucb u Reg.UCB_ROUTINE_STEP) 15 0 (bits w 15 0)).microNext u 1

/-- The status a stop has marked on the job a unit works on. -/
def State.stopMark (s : State) (u : Nat) : Option Nat := ((s.unit (s.workOf u)).job).bind (fun j => j.stopWith)

/-- A gantry’s commit in a RECONSTRUCT frees the quay entries its picture has been read of, and records the region in progress (R69,
R200). -/
def State.commitQuay (u : Nat) (j : Job) (s : State) : State :=
  let t := s.tlBerth j.ctx
  match s.quayFind t j.ctx j.seq with
  | none => s
  | some p =>
    let s := match (p.runs.filter (fun r => r.read != 0)).getLast? with
      | some r => s.wr (ucb u Reg.GT_COMMIT_POS) (r.row % 65536 + r.stop % 65536 * 65536)
      | none => s
    s.quayPut t p.commitRead

/-- COMMIT: STEP is copied, COMMITS rises, the unit records the position (in an encode routine a free value, since which region the
routine has reached belongs to the vendor microcode; assumption 3), and a stop asked for takes effect (R530, R531). -/
def State.commitOp (u : Nat) (s : State) : State :=
  if (s.mi u).trapped then s.illegal u
  else
    let o := ucb u Reg.UCB_ROUTINE_STEP
    let r := ucb u Reg.UCB_ROUTINE_STATUS
    let s := s.wrFld o 31 16 (s.fld o 15 0)
    let s := (s.wrFld r 15 0 (min 65535 (s.fld r 15 0 + 1))).sndCount u 7 1
    let s :=
      match s.jobAt (s.workOf u) 0x0102 with
      | some j => if unitKind u = some Kind.gantry then s.commitQuay u j else s
      | none =>
        if unitKind u = some Kind.gantry ∧ 64 ≤ (s.mi u).routine then
          let d := s.draw
          d.2.wr (ucb u Reg.GT_ENC_COMMIT_POS) d.1
        else s
    let s := s.microNext u 1
    match s.stopMark u with
    | some st => s.abandonJob (s.workOf u) st
    | none => s

/-- DONE: the routine ends with a status; the job of the berth completes when no leaf of the berth is still in its routine (R533).
A stop asked for takes effect here too (R531). -/
def State.doneOp (u w : Nat) (s : State) : State :=
  if (s.mi u).trapped then s.illegal u
  else
    let b := s.workOf u
    let s := s.setMi u { s.mi u with inRoutine := false }
    if (s.unit b).job.isNone || (s.leafList b).any (fun m => (s.mi m).inRoutine) then s
    else
      match s.stopMark u with
      | some st => s.abandonJob b st
      | none => s.endJob b (bits w 7 0)

/-! ### Micro-traps (R534 to R537) -/

/-- The lowest pending cause is taken at this boundary. -/
def State.takeTrap (u : Nat) (s : State) : State :=
  let m := s.mi u
  match [1, 2, 3, 4].find? (fun k => m.causes.testBit k) with
  | none => s
  | some k =>
    ((s.setMi u { m with
      trapped := true, shadowPc := m.pc, shadowFlags := m.flags, shadowStack := m.stack, shadowWait := m.waiting
      waiting := none, stack := [], pc := 0xFE, t := SMap.ins 0 k m.t, causes := m.causes - 2 ^ k }).sndCount u 6 1).whenB (k = 3) (State.sndCount u 0x303 1)

/-- MICRO_TRAP: a cause arises; it is taken now, or stays pending while a trap is handled (R534, R535). -/
def State.microTrap (u cause : Nat) (s : State) : State :=
  let m := s.mi u
  if !m.inRoutine || s.eng u == .fenced || outside 1 4 cause || (cause = 3 && unitKind u != some .pilot) then s
  else
    let s := s.setMi u { m with causes := Nat.lor m.causes (2 ^ cause) }
    if m.trapped then s else s.takeTrap u

/-- TRAPRET: every saved item is restored, a WAIT begins again, and a pending cause is taken (R534, R537). -/
def State.trapret (u : Nat) (s : State) : State :=
  let m := s.mi u
  if !m.trapped then s.illegal u
  else
    (s.setMi u { m.setFlags m.shadowFlags with
      trapped := false, pc := m.shadowPc, stack := m.shadowStack, shadowWait := none, waiting := none }).takeTrap u

/-- EXIT: the invocation ends and its outputs are applied; outside the window it is ILLEGAL (R532, R546). -/
def State.exitOp (u : Nat) (s : State) : State :=
  let m := s.mi u
  if !m.inWindow then s.illegal u
  else if 2000 < m.cycles + 1 then s.ucwOverrun u
  else s.windowExit u

/-! ### Meanings -/

/-- NOP. -/
def execNop (unit err : Nat) (s : State) : Host.Outcome State Fault Refusal :=
  .next (s.microOp unit 0x00 err (fun _ s => s.microNext unit 1))
/-- MOV. -/
def execMov (unit err : Nat) (s : State) : Host.Outcome State Fault Refusal :=
  .next (s.microOp unit 0x01 err (fun w s => s.result unit (rdOf w) ((s.mi unit).reg (raOf w)) none 1))
/-- LDI. -/
def execLdi (unit err : Nat) (s : State) : Host.Outcome State Fault Refusal :=
  .next (s.microOp unit 0x02 err (fun w s => s.result unit (rdOf w) (unsigned 40 (immOf w)) none 1))
/-- SHI. -/
def execShi (unit err : Nat) (s : State) : Host.Outcome State Fault Refusal :=
  .next (s.microOp unit 0x03 err (fun w s =>
    s.result unit (rdOf w) (((s.mi unit).reg (rdOf w) * 16384 + bits w 13 0) % two40) none 1))
/-- ADD. -/
def execAdd (unit err : Nat) (s : State) : Host.Outcome State Fault Refusal :=
  .next (s.microOp unit 0x04 err (State.alu unit 1 (fun a b => ((a + b) % two40, addFlags a b))))
/-- SUB. -/
def execSub (unit err : Nat) (s : State) : Host.Outcome State Fault Refusal :=
  .next (s.microOp unit 0x05 err (State.alu unit 1 (fun a b => ((a + two40 - b) % two40, subFlags a b))))
/-- AND. -/
def execAnd (unit err : Nat) (s : State) : Host.Outcome State Fault Refusal :=
  .next (s.microOp unit 0x06 err (State.alu unit 1 (fun a b => logic (Nat.land a b))))
/-- OR. -/
def execOr (unit err : Nat) (s : State) : Host.Outcome State Fault Refusal :=
  .next (s.microOp unit 0x07 err (State.alu unit 1 (fun a b => logic (Nat.lor a b))))
/-- XOR. -/
def execXor (unit err : Nat) (s : State) : Host.Outcome State Fault Refusal :=
  .next (s.microOp unit 0x08 err (State.alu unit 1 (fun a b => logic (Nat.xor a b))))
/-- MIN. -/
def execMin (unit err : Nat) (s : State) : Host.Outcome State Fault Refusal :=
  .next (s.microOp unit 0x09 err (State.alu unit 1 (fun a b => logic (if signed 40 a ≤ signed 40 b then a else b))))
/-- MAX. -/
def execMax (unit err : Nat) (s : State) : Host.Outcome State Fault Refusal :=
  .next (s.microOp unit 0x0A err (State.alu unit 1 (fun a b => logic (if signed 40 a ≤ signed 40 b then b else a))))
/-- SHL. -/
def execShl (unit err : Nat) (s : State) : Host.Outcome State Fault Refusal :=
  .next (s.microOp unit 0x0B err (State.shift unit (fun a n => a * 2 ^ n % two40)))
/-- SHR. -/
def execShr (unit err : Nat) (s : State) : Host.Outcome State Fault Refusal :=
  .next (s.microOp unit 0x0C err (State.shift unit (fun a n => a / 2 ^ n)))
/-- SAR. -/
def execSar (unit err : Nat) (s : State) : Host.Outcome State Fault Refusal :=
  .next (s.microOp unit 0x0D err (State.shift unit (fun a n => unsigned 40 (signed 40 a / ((2 ^ n : Nat) : Int)))))
/-- MUL. -/
def execMul (unit err : Nat) (s : State) : Host.Outcome State Fault Refusal :=
  .next (s.microOp unit 0x0E err (State.alu unit 4 (fun a b =>
    let r := unsigned 40 (product a b)
    (r, zn r + 8 * b2n (overS40 (product a b))))))
/-- MULH. -/
def execMulh (unit err : Nat) (s : State) : Host.Outcome State Fault Refusal :=
  .next (s.microOp unit 0x0F err (State.alu unit 4 (fun a b => logic (unsigned 40 (product a b / ((two40 : Nat) : Int))))))
/-- DIV: V is set by a division by 0 and is not among the flags another division changes. -/
def execDiv (unit err : Nat) (s : State) : Host.Outcome State Fault Refusal :=
  .next (s.microOp unit 0x10 err (fun w s =>
    let v := 8 * b2n (s.mi unit).v
    s.alu unit 42 (fun a b => if b = 0 then (two40 - 1, zn (two40 - 1) + 8) else (a / b, zn (a / b) + v)) w))
/-- ADDI. -/
def execAddi (unit err : Nat) (s : State) : Host.Outcome State Fault Refusal :=
  .next (s.microOp unit 0x11 err (fun w s =>
    let a := (s.mi unit).reg (rdOf w)
    let b := unsigned 40 (immOf w)
    s.result unit (rdOf w) ((a + b) % two40) (some (addFlags a b)) 1))
/-- CMP. -/
def execCmp (unit err : Nat) (s : State) : Host.Outcome State Fault Refusal :=
  .next (s.microOp unit 0x12 err (fun w s =>
    let m := s.mi unit
    (s.setMi unit (m.setFlags (subFlags (m.reg (raOf w)) (m.reg (rbOf w))))).microNext unit 1))
/-- CMPI. -/
def execCmpi (unit err : Nat) (s : State) : Host.Outcome State Fault Refusal :=
  .next (s.microOp unit 0x13 err (fun w s =>
    let m := s.mi unit
    (s.setMi unit (m.setFlags (subFlags (m.reg (rdOf w)) (unsigned 40 (immOf w))))).microNext unit 1))
/-- LD. -/
def execLd (unit err data : Nat) (s : State) : Host.Outcome State Fault Refusal := .next (s.microOp unit 0x14 err (State.ld unit data))
/-- ST. -/
def execSt (unit err : Nat) (s : State) : Host.Outcome State Fault Refusal := .next (s.microOp unit 0x15 err (State.st unit))
/-- BR. -/
def execBr (unit err : Nat) (s : State) : Host.Outcome State Fault Refusal := .next (s.microOp unit 0x16 err (State.br unit))
/-- CALL. -/
def execCall (unit err : Nat) (s : State) : Host.Outcome State Fault Refusal := .next (s.microOp unit 0x17 err (State.callOp unit))
/-- RET. -/
def execRet (unit err : Nat) (s : State) : Host.Outcome State Fault Refusal := .next (s.microOp unit 0x18 err (fun _ s => s.retOp unit))
/-- WAIT. -/
def execWait (unit err : Nat) (ready : Bool) (s : State) : Host.Outcome State Fault Refusal :=
  .next (s.microOp unit 0x19 err (State.waitOp unit ready))
/-- WAIT_SATISFIED. -/
def execWaitSatisfied (unit : Nat) (s : State) : Host.Outcome State Fault Refusal := .next (s.waitDone unit)
/-- STEP. -/
def execStep (unit err : Nat) (s : State) : Host.Outcome State Fault Refusal := .next (s.microOp unit 0x1A err (State.stepOp unit))
/-- COMMIT. -/
def execCommit (unit err : Nat) (s : State) : Host.Outcome State Fault Refusal :=
  .next (s.microOp unit 0x1B err (fun _ s => s.commitOp unit))
/-- ISSUE: what the datapath does with a command belongs to the vendor microcode (R526); the job rows give its results. -/
def execIssue (unit err : Nat) (s : State) : Host.Outcome State Fault Refusal :=
  .next (s.microOp unit 0x1C err (fun _ s => s.microNext unit 1))
/-- DONE. -/
def execDone (unit err : Nat) (s : State) : Host.Outcome State Fault Refusal := .next (s.microOp unit 0x1D err (State.doneOp unit))
/-- TRAPRET. -/
def execTrapret (unit err : Nat) (s : State) : Host.Outcome State Fault Refusal :=
  .next (s.microOp unit 0x1E err (fun _ s => s.trapret unit))
/-- EXIT. -/
def execExit (unit err : Nat) (s : State) : Host.Outcome State Fault Refusal := .next (s.microOp unit 0x1F err (fun _ s => s.exitOp unit))
/-- MICRO_TRAP. -/
def execMicroTrap (unit cause : Nat) (s : State) : Host.Outcome State Fault Refusal := .next (s.microTrap unit cause)

end Sys2Proof.Machine
end

