-- ==== Sys2Proof/Machine/Rmp.lean ====
section
/-! DEFINITION. RMP commands on registers, memory, streams, units and the customer window (09_network_and_feeders.md: R356, R358;
10_harbourmaster.md: R408; 07_rate_control.md: R287; 15_microcode.md: R543 to R545, R549). Register writes made to carry out a command
are those of CC0 (R656). -/

namespace Sys2Proof.Machine

/-! ### GET, SET, MEM_READ, MEM_WRITE (R356) -/

/-- Registers read one after another, from an offset on. -/
def getRegs (o : Nat) : Nat → State → List Nat × State
  | 0, s => ([], s)
  | n + 1, s =>
    let r := s.readAny agentCc0 o
    let t := getRegs (o + 4) n r.2
    (leBytes 4 r.1 ++ t.1, t.2)

def getCmd (b : List Nat) (s : State) : Nat × List Nat × State :=
  let n := bodyN b 4 4
  if b.length ≠ 8 ∨ n = 0 ∨ 256 < n then (stBadRequest, [], s)
  else
    let r := getRegs (bodyN b 0 4) n s
    (stOk, r.1, r.2)

/-- Pairs written in order; the first refused ends the command. -/
def setRegs : Nat → List Nat → State → Bool × State
  | 0, _, s => (true, s)
  | n + 1, b, s =>
    let o := bodyN b 0 4
    let s' := s.regWrite agentCc0 o (bodyN b 4 4)
    if s.refusedBy s' o then (false, s') else setRegs n (b.drop 8) s'

def setCmd (b : List Nat) (s : State) : Nat × List Nat × State :=
  if b.length % 8 ≠ 0 ∨ b.length = 0 ∨ 1024 < b.length then (stBadRequest, [], s)
  else
    let r := setRegs (b.length / 8) b s
    (if r.1 then stOk else stRefused, [], r.2)

/-- MEM_READ; `data` is what host memory returns, for an address in the outbound window. -/
def memReadCmd (data b : List Nat) (s : State) : Nat × List Nat × State :=
  let a := bodyN b 0 8
  let n := bodyN b 8 2
  if b.length ≠ 10 ∨ two40 ≤ a ∨ n = 0 ∨ 1024 < n then (stBadRequest, [], s)
  else
    match s.target a with
    | .regs =>
      if a % 4 ≠ 0 ∨ n % 4 ≠ 0 then (stOk, List.replicate n 0, s.usageReg agentCc0 (a - 0x4000000000))
      else
        let r := getRegs (a - 0x4000000000) (n / 4) s
        (stOk, r.1, r.2)
    | .outbound =>
      if s.outboundOk then (stOk, (List.range n).map (byteAt data), s) else (stRefused, [], s.outboundErr)
    | _ =>
      match s.readMem agentCc0 a n with
      | (.ok, bs, s) => (stOk, bs, s)
      | (_, _, s) => (stRefused, [], s)

/-- MEM_WRITE: GDDR6 outside the protected region only. -/
def memWriteCmd (b : List Nat) (s : State) : Nat × List Nat × State :=
  let a := bodyN b 0 8
  let d := b.drop 8
  if b.length < 9 ∨ 1032 < b.length ∨ two40 ≤ a then (stBadRequest, [], s)
  else if s.capacity < a + d.length ∨ (s.protOn && overlap a (a + d.length) s.protBase (s.protBase + s.protSize)) then
    (stRefused, [], s.usageAddr agentCc0 2 a)
  else
    match s.writeMem agentCc0 a (d.map (fun x => x % 256)) with
    | (.ok, t) => (stOk, [], State.classWatch s agentCc0 t)
    | (_, t) => (stRefused, [], t)

/-! ### Streams (R408) -/

/-- Post a START or STOP for a context on its queue. -/
def State.postStream (c op flags : Nat) (s : State) : Bool × State :=
  let r := s.post c (descBytes (op + (s.ctxKind c - 1) * 0x100) flags c 0 0 0 0 0 0 0) []
  (r.1, r.2.2.dispatch)

/-- BOOK, unless booked, then START. -/
def State.startStream (c : Nat) (s : State) : Bool × State :=
  let booked := s.books.any (fun k => k.1 = c)
  let r := if booked then (0, s) else s.bookCtx c
  let s := if booked then s else bookStatus c r
  if r.1 ≠ 0 then (false, s) else s.postStream c 0x0103 0

def streamStartCmd (b : List Nat) (s : State) : Nat × List Nat × State :=
  let c := bodyN b 0 2
  if b.length ≠ 2 ∨ 4095 < c then (stBadRequest, [], s)
  else if !(s.ctxKind c = 1 || s.ctxKind c = 2) then (stRefused, [], s)
  else
    let r := s.startStream c
    (if r.1 then stOk else stRefused, [], r.2)

/-- STREAM_STOP posts STOP; a HALT that overtakes a QUIESCE in progress, whose queue takes no more posts, acts at once (R213). -/
def streamStopCmd (b : List Nat) (s : State) : Nat × List Nat × State :=
  let c := bodyN b 0 2
  let m := byteAt b 2
  if b.length ≠ 3 ∨ 4095 < c ∨ 1 < m then (stBadRequest, [], s)
  else if !(s.ctxKind c = 1 || s.ctxKind c = 2) then (stRefused, [], s)
  else if s.ctxState c = 3 ∧ m = 1 then (stOk, [], (s.stopStream c true).dispatch)
  else
    let r := s.postStream c 0x0104 m
    (if r.1 then stOk else stRefused, [], r.2)

/-! ### The customer window (R287, R544, R545) -/

/-- Opcodes a window program may hold. -/
def windowOp (op : Nat) : Bool := decide (op ≤ 0x18) || op = 0x1F

/-- A word passes R544 in a program of `n` words. -/
def windowWord (n w : Nat) : Bool :=
  let op := bits w 23 18
  decide (w < 2 ^ 24) && windowOp op && !badFields op w
    && (if op = 0x14 ∨ op = 0x15 then decide (bits w 9 8 = 1) else true)
    && (if op = 0x16 ∨ op = 0x17 then decide (0x6000 ≤ bits w 14 0) && decide (bits w 14 0 < 0x6000 + n) else true)

/-- The words of a program in memory; none when it cannot be read from GDDR6. -/
def State.windowProg (s : State) (n a : Nat) : Option (List Nat) :=
  if n = 0 then some []
  else if s.capacity < a + 4 * n || s.canRead a (4 * n) != .ok then none
  else some ((List.range n).map (fun i => s.rdM (a + 4 * i) 4))

/-- A pilot, or a group of pilots. -/
def State.isPilots (s : State) (u : Nat) : Bool := s.leafOf u == some .pilot

/-- A load of a window program for a pilot or a group: checked whole, measured into MEAS4, in force at the next tide start (R543 to
R545, R549). Answers whether it passed. -/
def State.ucwLoad (u n a : Nat) (s : State) : Bool × State :=
  match s.windowProg n a with
  | none => (false, s)
  | some ws =>
    if !s.isPilots u || outside 4 8192 (if n = 0 then 4 else n) || !ws.all (windowWord n) then (false, s)
    else
      let d := Config.sha256 (leBytes 2 u ++ leBytes 2 n ++ ws.flatMap (leBytes 4))
      let ps := if unitKind u = some .pilot then [u] else s.leafList u
      let s := s.measExtend 4 d
      (true, { s with ucwNext := (s.ucwNext.filter (fun (q : Nat × Bool × List Nat) => !(ps.contains q.1 && !q.2.1)))
                                    ++ ps.map (fun p => (p, false, ws)) })

def ucwEnableCmd (b : List Nat) (s : State) : Nat × List Nat × State :=
  let u := bodyN b 0 2
  let n := bodyN b 2 2
  let a := bodyN b 8 8
  if b.length ≠ 16 ∨ bodyN b 4 4 ≠ 0 ∨ two40 ≤ a ∨ 8192 < n ∨ !s.isPilots u then (stBadRequest, [], s)
  else
    let r := s.ucwLoad u n a
    (if r.1 then stOk else stRefused, [], r.2)

/-! ### SPARE_DISABLE (R358) -/

def spareDisableCmd (b : List Nat) (s : State) : Nat × List Nat × State :=
  let u := bodyN b 0 2
  let ok := match unitKind u with
    | some k => k.spareOk
    | none => false
  if b.length ≠ 4 ∨ bodyN b 2 2 ≠ 0 then (stBadRequest, [], s)
  else if !ok || s.eng u != .spare then (stRefused, [], s)
  else (stOk, [], s.ctrlWrite .authorised u (putBits (s.rd (ucb u Reg.UCB_CTRL)) 2 2 0))

end Sys2Proof.Machine
end

