-- ==== Sys2Proof/Machine/Image.lean ====
section
/-! DEFINITION. The Etvor image applied over the factory defaults (02_startup_trust_config.md: R102 to R109): the records, the
objects they carry (R60, R182, R266, R293, R331, R374, R398, R476, R518), and the skips. -/

namespace Sys2Proof.Machine

/-! ### Registers (R103, R108) -/

/-- Access of the register at an offset that the image may write; none where it holds no writable register or lies in CUS. -/
def imgTarget (o : Nat) : Option RegRow :=
  if blockOf o = .cus ∨ o % 4 ≠ 0 then none
  else
    match rowOf o with
    | some (r, _, _) => if r.acc = .ro ∨ r.acc = .rc then none else some r
    | none => none

/-- The image writes a register: UCB_CTRL without the presence rule of R50 (R589). -/
def State.imgStore (o v : Nat) (s : State) : State :=
  if blockOf o = .ucb ∧ ucbOff o = Reg.UCB_CTRL ∧ (unitKind (ucbUnit o)).isSome then s.ctrlWrite .image (ucbUnit o) v
  else s.writeReg true agentCc0 o v

/-- What a field write starts from: the staged value, the held low half, or the value in force. -/
def State.imgOld (s : State) (r : RegRow) (o : Nat) : Nat :=
  match r.half with
  | .w0 | .lo40 => s.heldLow o
  | _ => if r.acc = .rws then (SMap.get (fun k => BitVec.ofNat 32 (s.rd k)) s.staged o).toNat else s.rd o

/-- One write of a record: its skip cause, 0 for none. -/
def State.imgWrite (o : Nat) (value : State → RegRow → Nat) (s : State) : Nat × State :=
  match imgTarget o with
  | none => (2, s)
  | some r =>
    let s' := s.imgStore o (value s r)
    (if s.refusedBy s' o then 3 else 0, s')

/-- The entries of a record one after another, up to the first that cannot be applied: its cause and bytes, and the state after it. -/
def imgEach (f : List Nat → State → Nat × State) (size : Nat) : Nat → List Nat → State → Nat × List Nat × State
  | 0, _, s => (0, [], s)
  | n + 1, v, s =>
    match f v s with
    | (0, s) => imgEach f size n (v.drop size) s
    | r => (r.1, v, r.2)

/-- A record is skipped for a write that its register refused in `t`: nothing of the record acts, and the refusal is reported as
for any write, by the CFG_ERROR of a unit or a usage event (R46, R108, R655). -/
def State.skipWrite (o : Nat) (t s : State) : State :=
  if blockOf o = .ucb ∧ (t.unit (ucbUnit o)).cfgErr ≠ 0 ∧ (ucbOff o = Reg.UCB_CTRL ∨ Reg.UCB_GRP_CTRL ≤ ucbOff o ∧ ucbOff o < 0x600) then
    s.cfgRefuse (ucbUnit o) (t.unit (ucbUnit o)).cfgErr
  else s.usageReg agentCc0 o

/-- The entries of a value of entries of one size, applied together or skipped (R108); `k` leads from an entry’s offset to the
register that refuses. A value of another length is refused. -/
def imgEntries (f : List Nat → State → Nat × State) (size k : Nat) (v : List Nat) (s : State) : Nat × State :=
  if v.length = 0 ∨ v.length % size ≠ 0 then (3, s)
  else
    match imgEach f size (v.length / size) v s with
    | (0, _, t) => (0, t)
    | (c, e, t) => (c, if c = 3 then s.skipWrite (bodyN e 0 4 + k) t else s)

def imgRegWrite (v : List Nat) (s : State) : Nat × State := s.imgWrite (bodyN v 0 4) (fun _ _ => bodyN v 4 4)

def imgRegField (v : List Nat) (s : State) : Nat × State :=
  let m := bodyN v 4 4
  s.imgWrite (bodyN v 0 4) (fun s r =>
    let x := s.imgOld r (bodyN v 0 4)
    x - Nat.land x m + Nat.land (bodyN v 8 4) m)

def imgPair40 (v : List Nat) (s : State) : Nat × State :=
  let o := bodyN v 0 4
  let x := bodyN v 4 8
  match imgTarget o with
  | none => (2, s)
  | some r =>
    if r.half != .lo40 then (2, s)
    else if two40 ≤ x then (3, s)
    else
      let s' := (s.imgStore o (x % two32)).imgStore (o + 4) (x / two32)
      (if s.refusedBy s' o then 3 else 0, s')

/-! ### Objects (R104) -/

/-- Bytes of an object from the device address `a`; refused where the memory cannot be written. -/
def State.objBytes (agent a : Nat) (d : List Nat) (s : State) : Bool × State :=
  match s.writeMem agent a (d.map (fun x => x % 256)) with
  | (.ok, s) => (true, s)
  | (_, s) => (false, s)

/-- The bytes of a stream context that an image gives: up to byte 63 or 127, STATE 0. -/
def objStreamBytes (d : List Nat) : List Nat :=
  (List.range 256).map (fun i => if i < (if byteAt d 2 = 2 then 128 else 64) && i != 3 then byteAt d i else 0)

/-- ENC_PROFILE of a context agrees with its format (R154). -/
def State.encProfileOk (s : State) (c : Nat) : Bool := profileOk (s.codec c) (s.sf c 26 1) (s.chroma c) (s.depth10 c)

/-- The object stands if its bytes were written and hold no reserved code; otherwise the context is as it was. -/
def objStreamCheck (c : Nat) (s : State) (r : Bool × State) : Bool × State :=
  if r.1 && r.2.formatOk c && (r.2.ctxKind c != 2 || r.2.encProfileOk c) then r
  else (false, if r.1 then s else r.2)

/-- The bytes of a queue context that an image gives. -/
def objQueueBytes (d : List Nat) : List Nat :=
  (List.range 64).map (fun i =>
    if i = 10 then Nat.land (bodyN d 10 1) 0x3E
    else if i = 15 || (19 ≤ i && i < 32) || (40 ≤ i && i < 56) || 60 ≤ i then 0 else byteAt d i)

/-- Stream context c: the bytes the host or image writes, the rest 0 (R182, R183, R216); a reserved format code or profile is
refused (R153, R154). -/
def objStream (c : Nat) (d : List Nat) (s : State) : Bool × State :=
  if 4095 < c ∨ d.length < 8 ∨ 256 < d.length ∨ 2 < byteAt d 2 then (false, s)
  else objStreamCheck c s (s.objBytes agentCc0 (s.sctx c) (objStreamBytes d))

/-- A queue whose context bytes are in place: pinned queues are cached, and ENABLE starts a general queue. -/
def objQueueEnd (q flags : Nat) (r : Bool × State) : Bool × State :=
  if r.1 then
    (true, (r.2.setQueue q { QueueSt.reset with cached := flags.testBit 2 }).whenB (flags.testBit 0 && decide (4128 ≤ q))
      (State.queueStart q))
  else r

/-- Queue context q: the fields the host or image writes; ENABLE starts a general queue (R374, R382). -/
def objQueue (q : Nat) (d : List Nat) (s : State) : Bool × State :=
  if 0xFFFFF < q ∨ (4104 ≤ q ∧ q < 4128) ∨ d.length ≠ 64 ∨ qcBad (bodyN d) then (false, s)
  else if (bodyN d 10 1).testBit 2 && !s.qFlag q 2 && decide (12288 ≤ s.pinned) then (false, s)
  else objQueueEnd q (bodyN d 10 1) (s.objBytes agentHm (s.qAddr q) (objQueueBytes d))

/-- Gate list k: the administrative copy, and SWAP (R398). -/
def objGate (k : Nat) (d : List Nat) (s : State) : Bool × State :=
  let n := bodyN d 8 2
  let es := (List.range n).map (fun e => (bodyN d (16 + 8 * e) 4, bodyN d (20 + 8 * e) 4))
  if 15 < k ∨ outside 1 256 n ∨ d.length < 16 + 8 * n ∨ es.any (fun e => decide (255 < e.1) || !gateIntervalOk e.2)
      ∨ 1000000000 < gateCycle es then (false, s)
  else
    let s := (s.wr64 (Reg.HM_GATE_CHANGE_W0 + 0x40 * k) (bodyN d 0 8)).wr (Reg.HM_GATE_COUNT + 0x40 * k) n
    let s := s.each es.zipIdx (fun e s =>
      (s.wr (Reg.HM_GATE_ADMIN_MASK + 0x800 * k + 8 * e.2) e.1.1).wr (Reg.HM_GATE_ADMIN_INTERVAL + 0x800 * k + 8 * e.2) e.1.2)
    (true, s.stage (Reg.HM_GATE_SWAP + 0x40 * k) 1)

/-- Pool p: its registers, then ENABLE (R476 to R478). -/
def objPool (p : Nat) (d : List Nat) (s : State) : Bool × State :=
  let f := bodyN d
  if 255 < p ∨ d.length < 36 ∨ two40 ≤ f 0 8 ∨ 31 < f 8 1 ∨ 0x1FFFFF < f 12 4 ∨ 0x3FFFFF < f 16 4 ∨ s.poolOn p then (false, s)
  else
    let old := s
    let s := s.wr40 (poolReg Reg.POOL_BASE_LO p) (f 0 8)
    let s := (s.wr (poolReg Reg.POOL_COUNT p) (f 12 4)).wr (poolReg Reg.POOL_FIRST_INDEX p) (f 16 4)
    let t := fun (i : Nat) => f i 4 % 0x200000
    let s := (s.wr (poolReg Reg.POOL_NOTICE p) (t 20)).wr (poolReg Reg.POOL_PRESSURE p) (t 24)
    let s := (s.wr (poolReg Reg.POOL_CRITICAL p) (t 28)).wr (poolReg Reg.POOL_HYST p) (t 32)
    let on := (f 9 1).testBit 0
    let s := s.poolCfgWrite agentCc0 p (f 8 1 + b2n on * 256 + b2n ((f 9 1).testBit 1) * 512)
    -- refused: nothing acts but POOLp_STATUS.ERR and the usage event (R108, R477)
    if s.poolOn p = on then (true, s)
    else (false, (old.setPool p { old.pool p with err := (s.pool p).err }).usageReg agentCc0 (poolReg Reg.POOL_CFG p))

/-- Layout n: copy 0, checked whole (R293, R296). Layer records after the LAYERS given may be left out; they are 0. -/
def objLayout (n : Nat) (d : List Nat) (s : State) : Bool × State :=
  if 1023 < n ∨ d.length < 64 + 64 * min 16 (byteAt d 6) ∨ 1088 < d.length then (false, s)
  else
    let r := s.objBytes agentCc0 (s.layoutAddr n 0) ((List.range 1088).map (byteAt d))
    if !r.1 then r
    else if r.2.layoutCheck (s.layoutAddr n 0) ≠ 0 then (false, s.usage 11 agentCc0 2 (s.layoutAddr n 0)) else r

/-- Classifier i (R331, R332); a merge partner may follow later in the image. -/
def objClass (i : Nat) (d : List Nat) (s : State) : Bool × State :=
  if 65535 < i ∨ d.length ≠ 64 then (false, s)
  else
    let r := s.objBytes agentCc0 (s.classAddr i) d
    if !r.1 then r
    else if r.2.cValid i && r.2.classBad i then (false, s.usage 12 agentCc0 2 (s.classAddr i))
    else (true, { r.2 with police := SMap.del i r.2.police })

/-- A group: its members, UCB_GRP_CTRL, then UCB_CTRL (R60). -/
def objGroup (g : Nat) (d : List Nat) (s : State) : Bool × State :=
  let v := bodyN d 0 4
  let c := bodyN d 4 4
  let n := bits v 8 0
  if unitKind g != some .group || c.testBit 2 || d.length != (8 + 2 * n + 3) / 4 * 4
      || (List.range n).any (fun i => decide (4095 < bodyN d (8 + 2 * i) 2)) then (false, s)
  else
    let t := s.each (List.range n) (fun i s => s.grpMemberWrite g i (bodyN d (8 + 2 * i) 2))
    let t := (t.grpCtrlWrite g v).ctrlWrite .image g c
    -- refused: nothing acts, and CFG_ERROR gives the cause (R60, R108)
    if (t.unit g).cfgErr = 0 then (true, t) else (false, s.cfgRefuse g (t.unit g).cfgErr)

/-- A lighter program: its instructions, and AUTOSTART at the first tide in service (R518). -/
def objLighter (n : Nat) (d : List Nat) (s : State) : Bool × State :=
  let a := bodyN d 0 8
  let k := bodyN d 8 2
  if 63 < n ∨ outside 1 4096 k ∨ d.length < 16 + 16 * k ∨ two40 ≤ a ∨ a % 16 ≠ 0 then (false, s)
  else
    let r := s.objBytes agentCc0 a ((d.drop 16).take (16 * k))
    if !r.1 then r
    else
      let u := 0x90 + n
      let l := r.2.autostart.filter (fun (p : Nat × Nat) => p.1 != u)
      (true, { r.2 with autostart := if byteAt d 10 % 2 = 1 then l ++ [(u, a)] else l })

/-- A pilot configuration: STATE_BASE of every pilot named, and a customer window program (R266, R544). -/
def objPilot (u : Nat) (d : List Nat) (s : State) : Bool × State :=
  let base := bodyN d 0 8
  let prog := bodyN d 8 8
  let n := bodyN d 16 2
  if d.length < 18 ∨ !s.isPilots u ∨ two40 ≤ base ∨ two40 ≤ prog then (false, s)
  else
    let ps := if unitKind u = some .pilot then [u] else s.leafList u
    let r := ps.foldl (fun (acc : Bool × State) p =>
      let o := ucb p Reg.PL_STATE_BASE_LO
      let t := (acc.2.writeReg true agentCc0 o (base % two32)).writeReg true agentCc0 (o + 4) (base / two32)
      (acc.1 && !acc.2.refusedBy t o, t)) (true, s)
    if !r.1 then (false, s.usageReg agentCc0 (ucb u Reg.PL_STATE_BASE_HI))
    else if n = 0 ∨ prog = 0 then r
    else
      let w := r.2.ucwLoad u n prog
      if w.1 then w else (false, s)

/-- An OBJECT record, by its class (R104). -/
def imgObject (v : List Nat) (s : State) : Nat × State :=
  let i := bodyN v 4 4
  let d := v.drop 8
  let r : Bool × State :=
    if v.length < 8 then (false, s)
    else
      match bodyN v 0 2 with
      | 1 => objStream i d s
      | 2 => objQueue i d s
      | 3 => objGate i d s
      | 4 => objPool i d s
      | 5 => objLayout i d s
      | 6 => objClass i d s
      | 7 => objGroup i d s
      | 8 => objLighter i d s
      | 9 => objPilot i d s
      | _ => (false, s)
  (if r.1 then 0 else 4, r.2)

/-! ### Records (R103, R107, R108) -/

/-- A BLOB: data bytes for GDDR6 or the basin direct window. -/
def imgBlob (v : List Nat) (s : State) : Nat × State :=
  let a := bodyN v 0 8
  let d := v.drop 8
  if v.length < 8 ∨ two40 ≤ a then (5, s)
  else if d.length = 0 then (0, s)
  else if !(s.isMem a && s.isMem (a + d.length - 1)) then (5, s)
  else
    let r := s.objBytes agentCc0 a d
    (if r.1 then 0 else 5, r.2)

def imgNode (v : List Nat) (s : State) : Nat × State :=
  if v.length ≠ 4 then (3, s) else s.imgWrite Reg.NET_NODE (fun _ _ => bodyN v 0 2)

/-- One record: its skip cause, 0 when it is applied. -/
def imgRecord (r : EtvorRec) (s : State) : Nat × State :=
  match r.kind with
  | 1 => imgEntries imgRegWrite 8 0 r.value s
  | 2 => imgEntries imgRegField 12 0 r.value s
  | 3 => imgEntries imgPair40 12 4 r.value s
  | 0x10 => imgObject r.value s
  | 0x20 => imgBlob r.value s
  | 0x30 => imgNode r.value s
  | _ => (1, s)

/-- The records in image order, with CFG_RECORDS and CFG_FIRST_SKIP (R107, R108, R114). -/
def imgRecords : Nat → List EtvorRec → State → State
  | _, [], s => s
  | i, r :: rs, s =>
    match imgRecord r s with
    | (0, s) => imgRecords (i + 1) rs (s.wrFld Reg.CFG_RECORDS 15 0 (s.fld Reg.CFG_RECORDS 15 0 + 1))
    | (c, s) =>
      let s := if s.fld Reg.CFG_RECORDS 31 16 = 0 then s.wr Reg.CFG_FIRST_SKIP (i % 65536 + c * 65536) else s
      imgRecords (i + 1) rs (s.wrFld Reg.CFG_RECORDS 31 16 (s.fld Reg.CFG_RECORDS 31 16 + 1))

/-- Units whose UCB_CTRL a record writes (R589). -/
def ctrlUnits (r : EtvorRec) : List Nat :=
  let size := if r.kind = 1 then 8 else if r.kind = 2 then 12 else 0
  if size = 0 then []
  else
    ((List.range (r.value.length / size)).map (fun i => bodyN r.value (size * i) 4)).filterMap (fun o =>
      if blockOf o = .ucb ∧ ucbOff o = Reg.UCB_CTRL then some (ucbUnit o) else none)

/-- The factory defaults of SPARE hold where the image writes no UCB_CTRL (R589). -/
def State.defaultSpares (written : List Nat) (s : State) : State :=
  s.each ([0x2C, 0x2D, 0x2E, 0x2F, 0x57, 0x67, 0x77].filter (fun u => !written.contains u)) (fun u s => s.ctrlWrite .image u 4)

end Sys2Proof.Machine
end

