-- ==== Sys2Proof/Machine/Boot.lean ====
section
/-! DEFINITION. Start-up, restart and loss of power (02_startup_trust_config.md: R77 to R91, R105 to R112; 10_harbourmaster.md: R408;
15_microcode.md: R539 to R542; 17_faults_and_availability.md: R589, R596, R603). -/

namespace Sys2Proof.Machine

/-! ### What a restart leaves (R16, R79, R90, R101, R584, R602) -/

/-- The status words of an input show its state again. -/
def State.showInput (b : Bool) (s : State) : State :=
  (s.wrFld (inReg b) 2 0 (s.input b).st.code).wr (inReg b + 4) (unsigned 32 (s.input b).mv)

/-- Registers with a value of each module: the burned-in MAC addresses (R369). -/
def State.ownMacs (s : State) : State :=
  s.each s.ident.macs.zipIdx (fun m s => s.wr64 (Reg.NET_PORT_MAC_LO + 0x100 * m.2) (m.1 % 2 ^ 48))

/-- The module with every register and unit at its reset value. Flash, fuses and straps, the always-on records, the pins and the
inputs, device time and BROKEN stay; `meas` says that the measurement registers and their log stay too. -/
def State.cleared (meas : Bool) (s : State) : State :=
  let b := s.boot
  let w := s.watch
  let t := s.tide.readTime
  let s := { State.reset with
    ident := s.ident
    boot := { BootSt.reset with
      failedA := b.failedA, failedB := b.failedB, boots := b.boots, etvors := b.etvors
      meas := if meas then b.meas else [], log := if meas then b.log else [], overflow := meas && b.overflow
      arm := b.arm, btnHeld := b.btnHeld, btnStuck := b.btnStuck, btnFree := b.btnFree, loopOpen := b.loopOpen
      broken := b.broken, heater := b.heater, cold := false }
    tide := { TideSt.reset with count := s.tide.count, base := s.tide.count, offNs := t.1, offSub := t.2 }
    watch := { WatchSt.reset with log := w.log, logWr := w.logWr, cause := w.cause, fences := w.fences }
    power := { PowerSt.reset with inA := s.power.inA, inB := s.power.inB, riding := s.power.riding, tb := s.power.tb, tj := s.power.tj, p3v3 := s.power.p3v3 }
    ports := s.ports.map (fun (p : Nat × PortSt) => (p.1, { PortSt.reset with temp := p.2.temp }))
    host := { HostSt.reset with perst := s.host.perst }
    i2cOfs := s.i2cOfs, i2cWait := s.i2cWait
    out := s.out, freeCtr := s.freeCtr, pending := s.pending }
  ((s.showInput false).showInput true).ownMacs

/-! ### Steps 1 to 4 (R77, R82 to R90, R539 to R542) -/

/-- RECOVERY: only customs ROM runs, and no boot image (R81). CUS_BOOT_STATUS and CUS_FW_VERSION keep what the last slot tried left
there (assumption 57). -/
def State.recovery (s : State) : State := { s with boot := { s.boot with phase := .recovery, runImg := none } }

/-- BOOTSRC1:0, with 0b11 as 0b00 (R87). -/
def State.bootSrc (s : State) : Nat := if s.ident.straps = 3 then 0 else s.ident.straps

/-- Step 1: straps, the seal loop, MEAS0; a restart is reported (R583). -/
def State.step1 (st : StartUp) (power : Bool) (s : State) : State :=
  let src := s.bootSrc
  let s := { s with
    boot := { s.boot with bootCarrier := decide (src = 2) || !s.onModule, etvorCarrier := decide (src ≠ 0), noCarrier := !st.carrierOk }
    tide := { s.tide with step1 := s.tide.count } }
  let s := if power then s else s.report 0x3003 agentCus 0 0
  let s := s.wr Reg.CFG_BOOTSRC s.ident.straps
  let s := { s with boot := { s.boot with loopOpen := st.loopOpen, broken := s.boot.broken || st.loopOpen } }
  let s := s.whenB st.loopOpen (fun s => (s.measEvent 6).setBit Reg.CUS_EVENT 2)
  if !st.selfTest then s.recovery
  else (s.measExtend 0 (Config.romDigest s.fuseBytes)).wrFld Reg.CUS_BOOT_STATUS 3 0 1

/-- A boot slot's image; none where erased or the flash is absent. -/
def State.bootSlot (s : State) (x : Nat) : Option BootImg :=
  if s.bootFlash then SMap.get (fun _ => none) s.boot.boots (s.bootKey x) else none

/-- A slot is marked failed in the boot attempt record; marking it, and whether both are (R79, R88). -/
def State.failed (s : State) (x : Nat) : Bool := if x = 0 then s.boot.failedA else s.boot.failedB
def State.markFailed (x : Nat) (s : State) : State :=
  { s with boot := if x = 0 then { s.boot with failedA := true } else { s.boot with failedB := true } }

/-- Slots in the order of R88. -/
def State.bootOrder (s : State) : List Nat :=
  let v := fun x => ((s.bootSlot x).map (fun i => i.version + 1)).getD 0
  if v 0 < v 1 then [1, 0] else [0, 1]

/-- Words of the control store that patches may write, by TYPE (R521, R541). -/
def patchStore (type : Nat) : Nat := [0x4000, 0x2000, 0x6000, 0x4000].getD type 0
def patchKind (type : Nat) : Kind := [Kind.gantry, .tally, .pilot, .lane].getD type .gantry

/-- COUNT of a decrypted patch. -/
def patchCount (p : Patch) : Nat := bodyN p.plain 8 2
/-- Its words: address and microword (R540). -/
def patchWords (p : Patch) : List (Nat × Nat) :=
  (List.range (patchCount p)).map (fun i => (bodyN p.plain 6 2 + i, bodyN p.plain (16 + 4 * i) 4))

/-- A container that loads (R539 to R541). -/
def patchOk (p : Patch) : Bool :=
  let h := bodyN p.header
  let f := bodyN p.plain
  p.tagOk && h 0 4 = 0x4550434D && h 4 2 = 1 && h 6 2 = 0 && h 8 4 = 16 + 4 * patchCount p && h 8 4 = p.plain.length
    && f 0 4 = 0x5450434D && decide (f 4 1 < 4) && decide (f 5 1 < 2) && f 10 6 = 0 && !outside 1 32768 (patchCount p)
    && decide (f 6 2 + patchCount p ≤ patchStore (f 4 1)) && (patchWords p).all (fun w => decide (w.2 < 2 ^ 24))

/-- Each TYPE has a final patch (R541). -/
def lastPatches (i : BootImg) : Bool :=
  (List.range 4).all (fun t => i.patches.any (fun p => byteAt p.plain 4 = t && byteAt p.plain 5 % 2 = 1))

/-- The containers in image order, up to the first that does not load; each that loads is written and measured (R89, R541). Answers
whether all did. -/
def State.loadPatches (load : Patch → State → State) : List Patch → State → Bool × State
  | [], s => (true, s)
  | p :: ps, s => if patchOk p then State.loadPatches load ps (load p s) else (false, s)

/-- A patch is written to every unit of its TYPE, and measured into MEAS2 (R89, R541). -/
def State.loadPatch (p : Patch) (s : State) : State :=
  let us := unitsOf (patchKind (byteAt p.plain 4))
  let cs := us.foldl (fun m u => (patchWords p).foldl (fun m w => SMap.ins (u * 65536 + w.1) w.2 m) m) s.cs
  { s with cs := cs }.measExtend 2 (Config.sha256 p.plain)

/-- A unit whose readback fails is fenced (R542). -/
def State.readbackFails (u : Nat) (s : State) : State :=
  match unitKind u with
  | some k => if k.spareOk then s.fence (0x4010 + s.unitNibble u * 256) 3 0 u else s
  | none => s

/-- Each unit with a control store whose readback succeeds runs routine 0xFF, which ends with DONE (R51, R542). -/
def State.initRoutines (s : State) : State :=
  s.each (unitsOf .gantry ++ unitsOf .tally ++ unitsOf .pilot ++ unitsOf .lane) (fun u s =>
    if s.eng u == .fenced then s else s.setUnitF u (fun x => { x with micro := { x.micro with routine := 0xFF } }))

/-- No image runs. -/
def State.dropImg (s : State) : State := { s with boot := { s.boot with runImg := none } }

/-- Steps 2 to 4 over the slots left to try; each attempt at step 3 has its own outcome. A slot that fails step 2 or 4 is marked
failed; one whose two control-core pairs both fail gives way once to the other slot (R77, R88). -/
def State.bootSlots (st : StartUp) : Nat → List Nat → State → State
  | _, [], s => s.recovery
  | k, x :: xs, s =>
    if s.failed x then s.bootSlots st k xs
    else
      match s.bootSlot x with
      | none => (s.markFailed x).bootSlots st k xs
      | some i =>
        if s.bootCheck (some i) false ≠ 0 then (s.markFailed x).bootSlots st k xs
        else
          let other := 1 - x
          let s := { s with boot := { s.boot with runSlot := x, runImg := some i } }
          let s := s.measExtend 1 i.digest
          let good := !s.failed other && (s.bootSlot other).isSome && s.bootCheck (s.bootSlot other) false = 0
          let s := (s.wr Reg.CUS_BOOT_STATUS
            (2 + x * 16 + b2n s.boot.bootCarrier * 32 + b2n good * 64 + i.svn % 64 * 256)).wr Reg.CUS_FW_VERSION i.version
          let lost := (st.pairsFail.getD k []).filter (fun p => decide (p < 2))
          if lost.contains 0 && lost.contains 1 then
            s.dropImg.bootSlots st (k + 1) xs
          else
            let s := s.each lost.eraseDups (fun p s =>
              ({ s with watch := { s.watch with pairsFenced := [p] } }).report 0x5E10 (0x80 + 2 * p) 0 0)
            let s := { s with host := { s.host with retry := false } }.wrFld Reg.CUS_BOOT_STATUS 3 0 3
            let r := s.loadPatches State.loadPatch i.patches
            if !(r.1 && lastPatches i) then
              ((r.2.markFailed x).dropImg).bootSlots st (k + 1) xs
            else ((r.2.each st.readback State.readbackFails).initRoutines).wrFld Reg.CUS_BOOT_STATUS 3 0 4

/-! ### Steps 5 to 7 (R77, R105 to R108, R443, R589) -/

/-- Step 5: with no port trained the start fails (R443, R600). What follows such a start the manual leaves open: the model enters
RECOVERY and marks no slot failed (DESIGN CHOICE, assumption 55). -/
def State.step5 (st : StartUp) (s : State) : State :=
  let s := s.trainPorts st.portsFail st.vals
  if s.memsys.ports = 0 then s.recovery else s.wrFld Reg.CUS_BOOT_STATUS 3 0 5

/-- An Etvor slot's bytes up to its CRC. -/
def etvorBytes (img : List Nat) : List Nat := (List.range (etvorLen img)).map (flashByte img)

/-- Step 6: the slots are checked, one is chosen, measured and applied (R105, R106). -/
def State.step6 (s : State) : State :=
  let slot := fun x => s.etvorSlotOf x
  let code := fun x => etvorCheck s.fwVersion (slot x)
  let img := fun x => (slot x).getD []
  let ok := fun x => code x = 0
  let s := (s.wr Reg.CFG_SLOT_A (code 0)).wr Reg.CFG_SLOT_B (code 1)
  let src := b2n s.boot.etvorCarrier * 4
  let s :=
    if !ok 0 && !ok 1 then
      let s := (s.measExtend 3 (2 ^ 256 - 1)).wr Reg.CFG_STATUS (src + 16)
      ((s.setBit Reg.CUS_EVENT 6).cond true 0x5110 agentCc0).defaultSpares []
    else
      let x := if ok 0 && ok 1 then (if etvorGen (img 0) < etvorGen (img 1) then 1 else 0) else if ok 0 then 0 else 1
      let h := Config.sha256 (etvorBytes (img x))
      let s := { s with boot := { s.boot with etvorHash := h, factoryOnly := false, etvorSlot := x } }
      let s := (s.measExtend 3 h).wr Reg.CFG_GENERATION (etvorGen (img x))
      let rs := (etvorRecords (img x)).1
      let s := (imgRecords 0 rs s).defaultSpares (rs.flatMap ctrlUnits)
      let both := ok 0 && ok 1
      let warn := !both || s.fld Reg.CFG_RECORDS 31 16 != 0
      let s := s.wr Reg.CFG_STATUS (x + 1 + src + b2n both * 8 + b2n warn * 32)
      s.whenB warn (State.report 0x3111 agentCc0 0 0)
  s.wrFld Reg.CUS_BOOT_STATUS 3 0 6

/-! ### Steps 8 and 9 (R77, R88, R114, R125, R408) -/

/-- Contexts the image wrote with KIND 1 or 2, in order. Until step 9 the image alone writes the table. -/
def State.imageCtxs (s : State) : List Nat :=
  (((s.mem.map (fun c => c.1)).filter (fun a =>
    decide (s.sctx 0 ≤ a) && decide (a < s.sctx 4096) && (a - s.sctx 0) % 256 = 2)).map (fun a => (a - s.sctx 0) / 256)).filter
    (fun c => s.ctxKind c = 1 || s.ctxKind c = 2)

/-- Step 9: the contexts of the image are booked and started, the enabled outputs booked, and the first tide is set (R125, R408).
IN_SERVICE follows with its start. -/
def State.step9 (s : State) : State :=
  let s := s.wrFld Reg.CUS_BOOT_STATUS 3 0 8
  if s.boot.stallAt = 9 then { s with boot := { s.boot with phase := .stalled } }
  else
    let s := { s with boot := { s.boot with phase := .service } }
    let s := s.each s.imageCtxs (fun c s => (s.startStream c).2)
    let s := s.each ((List.range 8).filter (fun n => s.bit (dreg Reg.DISP_OUT_CTRL n) 0)) (fun n s =>
      bookStatus (0xF000 + n) (s.bookOutput n))
    let f := s.firstTide (s.now + s.pb)
    { s with tide := { s.tide with nextTide := f, first := f } }

/-- Step 8 ends when the servo holds (R77). -/
def State.afterServo (s : State) : State := if s.boot.phase = .waitPtp ∧ s.servo = 3 then s.step9 else s

/-- Step 7: the enabled network ports and display outputs are brought up; one that fails to come up is reported, and the start goes on
(R77, R330, R583). -/
def State.bringUp (st : StartUp) (s : State) : State :=
  let s := s.each ((List.range 9).filter (fun k => s.portExists k && s.bit (nreg Reg.NET_PORT_CTRL k) 0)) (fun k s =>
    match st.links.find? (fun l => l.1 = k) with
    | some l => s.linkChange k true l.2.1 false false l.2.2
    | none => s.report 0x3C03 noAgent 0 0)
  s.each ((List.range 8).filter (fun n => s.bit (dreg Reg.DISP_OUT_CTRL n) 0 && st.outsFail.contains n)) (fun n s =>
    s.report 0x3B40 noAgent 0 (regAddr (dreg Reg.DISP_OUT_STATUS n)))

/-- Steps 5 to 8 (R77, R88, R114). -/
def State.steps5 (st : StartUp) (s : State) : State :=
  let s := s.step5 st
  if s.boot.phase = .recovery then s
  else
    let s := s.step6
    let stall := if s.boot.runSlot = 0 then st.stallA else st.stallB
    let s := { s with boot := { s.boot with stallAt := stall } }
    if stall = 7 then { s with boot := { s.boot with phase := .stalled } }
    else
      let w := s.fld Reg.CFG_PTP_WAIT 15 0
      let s := { s with boot := { s.boot with phase := .waitPtp, waitEnd := s.tide.count + msCounts (100 * w) } }
      ((s.bringUp st).wrFld Reg.CUS_BOOT_STATUS 3 0 7).afterServo

/-- The start-up sequence from step 1 (R77). With both slots marked failed customs enters RECOVERY (R88). -/
def State.startUp (st : StartUp) (power : Bool) (s : State) : State :=
  let s := s.step1 st power
  if s.boot.phase = .recovery then s
  else
    let s := s.bootSlots st 0 s.bootOrder
    if s.boot.phase = .recovery then s else s.steps5 st

/-! ### Power, resets and restarts -/

/-- A restart at step 1; without an outcome of the sequence, RESET_RELEASE is to follow. -/
def State.restart (meas : Bool) (st : Option StartUp) (s : State) : State :=
  let s := s.cleared meas
  match st with
  | some st => s.startUp st false
  | none => s

/-- An internal MOD_RESET_N (R112, R596). -/
def State.modReset (st : Option StartUp) (s : State) : State := (s.emit .modReset).restart false st

/-- The module is held in reset or runs; it is not unpowered. -/
def State.hasPower (s : State) : Bool := s.boot.phase != .unpowered

/-- An input has become OK on an unpowered module: step 0 holds reset (R77, R415, R653). -/
def State.wakeUp (s : State) : State :=
  if s.hasPower || !s.powered then s
  else { s with boot := { s.boot with phase := .resetHeld, cold := true, heater := s.ident.variant.testBit 0 } }.ownMacs

/-- POWER_APPLIED: the first input rises through 35 V; step 0 holds reset (R77, R415, R653). -/
def State.powerApplied (b : Bool) (mv : Int) (s : State) : State :=
  if s.hasPower then s.inputChange b mv
  else
    let s := { s with boot := { s.boot with
      phase := .resetHeld, cold := true, heater := s.ident.variant.testBit 0 } }
    (s.inputTo b mv .ok).ownMacs

/-- RAIL_RETRY: reset is held for another second (R77). -/
def State.railRetry (s : State) : State :=
  if s.boot.phase = .resetHeld ∨ s.boot.phase = .railRetry then { s with boot := { s.boot with phase := .railRetry } } else s

/-- RESET_RELEASE: steps 1 to 8 (R77). After a restart whose sequence has not run, it is no power-up. -/
def State.resetRelease (st : StartUp) (s : State) : State :=
  if s.boot.phase = .resetHeld ∨ s.boot.phase = .railRetry then
    { s with boot := { s.boot with cold := false } }.startUp st s.boot.cold
  else s

/-- POWER_REMOVED: the always-on records and the contents of the module go; flash and fuses stay (R79, R90, R584, R602). -/
def State.powerRemoved (s : State) : State :=
  let s := s.abandonFlash
  { State.reset with
    ident := s.ident
    boot := { BootSt.reset with phase := .unpowered, cold := true, boots := s.boot.boots, etvors := s.boot.etvors, broken := s.boot.broken }
    power := { PowerSt.reset with tb := s.power.tb, tj := s.power.tj }
    out := s.out, freeCtr := s.freeCtr, pending := s.pending }

/-- HOLDUP_EXHAUSTED: with no input OK the supervisor asserts reset, and the next start begins at step 0 (R419). -/
def State.holdupExhausted (s : State) : State :=
  if s.powered || !s.hasPower then s
  else
    let s := s.abandonFlash.cleared true
    { s with boot := { s.boot with phase := .unpowered }, power := { s.power with riding := false } }

/-- BOOT_WATCHDOG_EXPIRY: the stalled slot is marked failed, and the sequence restarts on the other; with both marked it ends in
RECOVERY (R88). -/
def State.bootWatchdog (st : StartUp) (s : State) : State :=
  if s.boot.phase = .stalled then (s.markFailed s.boot.runSlot).restart true (some st) else s

/-- PTP_WAIT_EXPIRY: the tide clock starts free-running, with a warning (R77, R114). -/
def State.ptpWaitExpiry (s : State) : State :=
  if s.boot.phase = .waitPtp then
    (((s.passTo s.boot.waitEnd).setBit Reg.TIDE_STATUS 8).report 0x3202 0x82 0 0).step9
  else s

/-- CC_LOST_RESET: 1 s after both pairs are lost (R596). -/
def State.ccLostReset (st : StartUp) (s : State) : State :=
  if s.watch.safe && s.watch.pairsFenced.length = 2 then s.modReset (some st) else s

/-- FACTORY_RESET: both Etvor slots of the selected flash are erased (R112). -/
def factoryReset (b : List Nat) (s : State) : Nat × List Nat × State :=
  if b ≠ [] then (stBadRequest, [], s) else (stOk, [], (s.putEtvor 0 []).putEtvor 1 [])

/-- SAFE_CLEAR; outside the safe state it has no effect (R603). -/
def safeClear (b : List Nat) (s : State) : Nat × List Nat × State := if b ≠ [] then (stBadRequest, [], s) else (stOk, [], s)

/-- What follows a presence-class command that ran with status OK: the reset of R112, the restart of R603, and the restart after a
good boot image is written in RECOVERY (R81). `slot` is the boot slot an open write named before the command. -/
def State.afterCommand (cmd : Nat) (st : Option StartUp) (slot : Option Nat) (ok : Bool) (s : State) : State :=
  if !ok then s
  else if cmd = 0x24 then s.modReset st
  else if cmd = 0x26 then (if s.watch.safe then s.restart true st else s)
  else if cmd = 0x22 && s.boot.phase == .recovery then
    match slot with
    | some k => if k < 2 && (s.bootSlot k).isSome then s.restart true st else s
    | none => s
  else s

/-- A presence-class command and what follows it. -/
def State.restartCmd (q : Req) (cmd : Nat) (st : Option StartUp) (f : State → Nat × List Nat × State) (s : State) : State :=
  let slot := s.boot.flash.map (fun w => w.slot)
  let r := s.rmp q cmd .presence f
  r.2.afterCommand cmd st slot r.1

/-! ### Meanings -/

/-- INPUT_STATE_CHANGE (R415). -/
def execInputStateChange (isB : Bool) (mv : Int) (s : State) : Host.Outcome State Fault Refusal := .next (s.inputChange isB mv).wakeUp
/-- EFUSE_RETRY (R416). -/
def execEfuseRetry (isB fault : Bool) (mv : Int) (s : State) : Host.Outcome State Fault Refusal :=
  .next (s.efuseRetry isB fault mv).wakeUp
/-- HOT_INSERTION (R629). -/
def execHotInsertion (mvA mvB : Int) (s : State) : Host.Outcome State Fault Refusal := .next (s.hotInsert mvA mvB).wakeUp
/-- POWER_APPLIED (R77). -/
def execPowerApplied (isB : Bool) (mv : Int) (s : State) : Host.Outcome State Fault Refusal := .next (s.powerApplied isB mv)
/-- RAIL_RETRY (R77). -/
def execRailRetry (s : State) : Host.Outcome State Fault Refusal := .next s.railRetry
/-- RESET_RELEASE (R77). -/
def execResetRelease (start : StartUp) (s : State) : Host.Outcome State Fault Refusal := .next (s.resetRelease start)
/-- MOD_RESET (R79). -/
def execModReset (start : StartUp) (s : State) : Host.Outcome State Fault Refusal :=
  .next (if s.hasPower then s.restart false (some start) else s)
/-- POWER_REMOVED (R79). -/
def execPowerRemoved (s : State) : Host.Outcome State Fault Refusal := .next s.powerRemoved
/-- BOOT_WATCHDOG_EXPIRY (R88). -/
def execBootWatchdogExpiry (start : StartUp) (s : State) : Host.Outcome State Fault Refusal := .next (s.bootWatchdog start)
/-- PTP_WAIT_EXPIRY (R77). -/
def execPtpWaitExpiry (s : State) : Host.Outcome State Fault Refusal := .next s.ptpWaitExpiry
/-- HOLDUP_EXHAUSTED (R419). -/
def execHoldupExhausted (s : State) : Host.Outcome State Fault Refusal := .next s.holdupExhausted
/-- CC_LOST_RESET (R596). -/
def execCcLostReset (start : StartUp) (s : State) : Host.Outcome State Fault Refusal := .next (s.ccLostReset start)
/-- PTP_SYNC_RX (R138 to R140); the servo reaching HOLDING ends step 8. -/
def execPtpSyncRx (port : Nat) (offset : Int) (s : State) : Host.Outcome State Fault Refusal :=
  .next (s.ptpSync port offset).afterServo
/-- PPS_IN_EDGE (R138, R645). -/
def execPpsInEdge (s : State) : Host.Outcome State Fault Refusal := .next s.ppsEdge.afterServo
/-- FLASH_CLOSE (R110); in RECOVERY a boot image that passes restarts the module (R81). -/
def execFlashClose (req : Req) (body : List Nat) (start : StartUp) (s : State) : Host.Outcome State Fault Refusal :=
  .next (s.restartCmd req 0x22 (some start) (flashClose body))
/-- FACTORY_RESET (R112). -/
def execFactoryReset (req : Req) (body : List Nat) (start : StartUp) (s : State) : Host.Outcome State Fault Refusal :=
  .next (s.restartCmd req 0x24 (some start) (factoryReset body))
/-- SAFE_CLEAR (R603). -/
def execSafeClear (req : Req) (body : List Nat) (start : StartUp) (s : State) : Host.Outcome State Fault Refusal :=
  .next (s.restartCmd req 0x26 (some start) (safeClear body))

end Sys2Proof.Machine
end

