-- ==== Sys2Proof/Machine/Mailbox.lean ====
section
/-! DEFINITION. The PCIe mailbox (16_host_and_bell.md: R562) and the commands that act through registers or carry an RMP body: register
reads and writes (R10 to R24), lighter bursts (R513, R514), and the rest of R356 and R358. -/

namespace Sys2Proof.Machine

/-! ### Commands by code (R356, R358) -/

/-- UNKNOWN_COMMAND (R357). -/
abbrev stUnknown : Nat := 2

/-- The class and effect of a command code; a reserved one is answered UNKNOWN_COMMAND. `data` is what host memory returns to a
MEM_READ of the outbound window. -/
def rmpCommand (data : List Nat) (via : Via) (cmd : Nat) (b : List Nat) : RmpClass × (State → Nat × List Nat × State) :=
  match cmd with
  | 1 => (.monitor, getCmd b)
  | 2 => (.operational, setCmd b)
  | 3 => (.monitor, certRead b)
  | 4 => (.monitor, quoteCmd b)
  | 5 => (.monitor, logRead b)
  | 6 => (.monitor, memReadCmd data b)
  | 0x10 => (.operational, streamStartCmd b)
  | 0x11 => (.operational, streamStopCmd b)
  | 0x12 => (.operational, flipCmd b)
  | 0x13 => (.operational, stormCmd via b)
  | 0x14 => (.operational, sndCtrl b)
  | 0x15 => (.operational, memWriteCmd b)
  | 0x20 => (.presence, flashOpen b)
  | 0x21 => (.presence, flashWrite b)
  | 0x22 => (.presence, flashClose b)
  | 0x23 => (.presence, fwCommit b)
  | 0x24 => (.presence, factoryReset b)
  | 0x25 => (.presence, ucwEnableCmd b)
  | 0x26 => (.presence, safeClear b)
  | 0x27 => (.presence, spareDisableCmd b)
  | 0x28 => (.presence, sealClear b)
  | _ => (.monitor, fun s => (stUnknown, [], s))

/-! ### The mailbox (R562) -/

/-- Byte i of HOST_MBX_REQ. -/
def State.mbxByte (s : State) (i : Nat) : Nat := s.rd (Reg.HOST_MBX_REQ + i / 4 * 4) / 256 ^ (i % 4) % 256
def State.mbxN (s : State) (i n : Nat) : Nat := leNat ((List.range n).map (fun k => s.mbxByte (i + k)))

/-- The request is done: a response, or length 0. -/
def State.mbxDone (resp : List Nat) (s : State) : State :=
  let words := (List.range ((resp.length + 3) / 4)).map (fun w => bodyN resp (4 * w) 4)
  let s := s.each words.zipIdx (fun w s => s.wr (Reg.HOST_MBX_RSP + 4 * w.2) w.1)
  (s.wr Reg.HOST_MBX_STATUS (2 + resp.length * 65536)).setBit Reg.HOST_EVENT 4

/-- The bytes of a kept response (R353). -/
def rmpBytes (r : RmpResp) : List Nat :=
  [0x52, 0x4D, 1, 1] ++ leBytes 4 r.seq ++ leBytes 2 r.command ++ leBytes 2 r.status ++ leBytes 2 r.body.length ++ [0, 0] ++ r.body

/-- What host memory returns where no command gives it: free values. -/
def State.hostData (data : Option (List Nat)) (s : State) : List Nat × State :=
  match data with
  | some d => (d, s)
  | none =>
    let k := s.drawMany 1024
    ((List.range 1024).map (fun i => Config.free (k.1 + i) % 256), k.2)

/-- A request that waits in the mailbox is carried out (R562): the mailbox is one source of R355. -/
def State.mbxServe (st : Option StartUp) (data : Option (List Nat)) (s : State) : State :=
  if !s.bit Reg.HOST_MBX_STATUS 0 then s
  else
    let n := s.mbxN 12 2
    if s.mbxN 0 2 ≠ 0x4D52 ∨ s.mbxByte 2 ≠ 1 ∨ 1400 < n then s.mbxDone []
    else
      let q : Req := { via := .mailbox, addr := 0, seq := s.mbxN 4 4, noReply := (s.mbxByte 3).testBit 1 }
      let cmd := s.mbxN 8 2
      let b := (List.range n).map (fun i => s.mbxByte (16 + i))
      let d := s.hostData data
      let c := rmpCommand d.1 .mailbox cmd b
      let slot := s.boot.flash.map (fun w => w.slot)
      let r := d.2.rmp q cmd c.1 c.2
      let kept := (SMap.get (fun _ => []) r.2.rmpKept (reqKey q)).find? (fun x => x.seq = q.seq && x.command = cmd)
      let resp := if q.noReply then [] else ((kept.map rmpBytes).getD [])
      (r.2.mbxDone resp).afterCommand cmd st slot r.1

/-- MAILBOX_GO: a write of HOST_MBX_CTRL. -/
def State.mailboxGo (agent value : Nat) (st : StartUp) (data : List Nat) (s : State) : State :=
  let s' := s.regWrite agent Reg.HOST_MBX_CTRL value
  if s.bit Reg.HOST_MBX_STATUS 0 then s' else s'.mbxServe (some st) (some data)

/-- A register write by another command; one that starts a mailbox request has it carried out. -/
def State.served (s : State) : State := s.mbxServe none none

/-! ### Meanings -/

/-- REGISTER_WRITE (R12, R655, R656). -/
def execRegisterWrite (agent offset value : Nat) (s : State) : Host.Outcome State Fault Refusal :=
  .next (s.regWrite agent offset value).served
/-- REFUSED_REGISTER_ACCESS (R11). -/
def execRefusedRegisterAccess (agent offset : Nat) (isWrite : Bool) (s : State) : Host.Outcome State Fault Refusal :=
  .next (s.refuseAccess agent offset isWrite)
/-- RC_READ (R12, R14): any single register read. -/
def execRcRead (agent offset : Nat) (s : State) : Host.Outcome State Fault Refusal := .next (s.readCmd agent offset)
/-- PAIR_LO_WRITE (R18). -/
def execPairLoWrite (agent offset value : Nat) (s : State) : Host.Outcome State Fault Refusal :=
  .next (s.regWrite agent offset value).served
/-- PAIR_HI_WRITE (R18, R19, R21). -/
def execPairHiWrite (agent offset value : Nat) (s : State) : Host.Outcome State Fault Refusal :=
  .next (s.regWrite agent offset value).served
/-- PAIR_LO_READ (R20). -/
def execPairLoRead (agent offset : Nat) (s : State) : Host.Outcome State Fault Refusal := .next (s.readCmd agent offset)
/-- STAGE_HOLD_WRITE (R24). -/
def execStageHoldWrite (agent value : Nat) (s : State) : Host.Outcome State Fault Refusal :=
  .next (s.regWrite agent Reg.GLOBAL_STAGE_CTRL value)
/-- MAILBOX_GO (R562). -/
def execMailboxGo (agent value : Nat) (start : StartUp) (data : List Nat) (s : State) : Host.Outcome State Fault Refusal :=
  .next (s.mailboxGo agent value start data)
/-- MOVE (R502 to R507). -/
def execMove (unit : Nat) (s : State) : Host.Outcome State Fault Refusal := .next (s.ltStep unit (State.ltMove unit)).ltIdle
/-- SIGNAL (R511). -/
def execSignal (unit : Nat) (s : State) : Host.Outcome State Fault Refusal :=
  .next (State.classWatch s unit (s.ltStep unit (State.ltSignal unit)).ltIdle).served
/-- BURST_COMPLETE (R513, R514). -/
def execBurstComplete (unit : Nat) (err : Bool) (beat : Nat) (data : List Nat) (s : State) : Host.Outcome State Fault Refusal :=
  .next (State.classWatch s unit (s.ltStep unit (State.ltBurst unit err beat data)).ltIdle).served
/-- GET (R356). -/
def execGet (req : Req) (body : List Nat) (s : State) : Host.Outcome State Fault Refusal := .next (s.rmpRun req 1 .monitor (getCmd body))
/-- SET (R356). -/
def execSet (req : Req) (body : List Nat) (s : State) : Host.Outcome State Fault Refusal :=
  .next (s.rmpRun req 2 .operational (setCmd body)).served
/-- MEM_READ (R356). -/
def execMemRead (req : Req) (body data : List Nat) (s : State) : Host.Outcome State Fault Refusal :=
  .next (s.rmpRun req 6 .monitor (memReadCmd data body))
/-- MEM_WRITE (R356). -/
def execMemWrite (req : Req) (body : List Nat) (s : State) : Host.Outcome State Fault Refusal :=
  .next (s.rmpRun req 0x15 .operational (memWriteCmd body))
/-- STREAM_START (R408). -/
def execStreamStart (req : Req) (body : List Nat) (s : State) : Host.Outcome State Fault Refusal :=
  .next (s.rmpRun req 0x10 .operational (streamStartCmd body))
/-- STREAM_STOP (R408). -/
def execStreamStop (req : Req) (body : List Nat) (s : State) : Host.Outcome State Fault Refusal :=
  .next (s.rmpRun req 0x11 .operational (streamStopCmd body))
/-- UCW_ENABLE (R287, R544). -/
def execUcwEnable (req : Req) (body : List Nat) (s : State) : Host.Outcome State Fault Refusal :=
  .next (s.rmpRun req 0x25 .presence (ucwEnableCmd body))
/-- SPARE_DISABLE (R358). -/
def execSpareDisable (req : Req) (body : List Nat) (s : State) : Host.Outcome State Fault Refusal :=
  .next (s.rmpRun req 0x27 .presence (spareDisableCmd body))

end Sys2Proof.Machine
end

