-- ==== Sys2Proof/Machine/Dispatch.lean ====
section
/-! DEFINITION. One arm per command: each calls the command’s meaning, or refuses it by name. -/

namespace Sys2Proof.Machine

/-- The effect of a command on everything but the queue. -/
def exec (i : Instr) (s : State) : Host.Outcome State Fault Refusal :=
  match i with
  | .registerWrite agent offset value => Sys2Proof.Machine.execRegisterWrite agent offset value s
  | .refusedRegisterAccess agent offset isWrite => Sys2Proof.Machine.execRefusedRegisterAccess agent offset isWrite s
  | .rcRead agent offset => Sys2Proof.Machine.execRcRead agent offset s
  | .pairLoWrite agent offset value => Sys2Proof.Machine.execPairLoWrite agent offset value s
  | .pairHiWrite agent offset value => Sys2Proof.Machine.execPairHiWrite agent offset value s
  | .pairLoRead agent offset => Sys2Proof.Machine.execPairLoRead agent offset s
  | .stageHoldWrite agent value => Sys2Proof.Machine.execStageHoldWrite agent value s
  | .powerApplied isB mv => Sys2Proof.Machine.execPowerApplied isB mv s
  | .railRetry => Sys2Proof.Machine.execRailRetry s
  | .resetRelease start => Sys2Proof.Machine.execResetRelease start s
  | .modReset start => Sys2Proof.Machine.execModReset start s
  | .powerRemoved => Sys2Proof.Machine.execPowerRemoved s
  | .bootWatchdogExpiry start => Sys2Proof.Machine.execBootWatchdogExpiry start s
  | .ptpWaitExpiry => Sys2Proof.Machine.execPtpWaitExpiry s
  | .heaterOff => Sys2Proof.Machine.execHeaterOff s
  | .armChange armed => Sys2Proof.Machine.execArmChange armed s
  | .presentPress => Sys2Proof.Machine.execPresentPress s
  | .presenceWindowExpiry => Sys2Proof.Machine.execPresenceWindowExpiry s
  | .btnStuck => Sys2Proof.Machine.execBtnStuck s
  | .sealBreak => Sys2Proof.Machine.execSealBreak s
  | .get req body => Sys2Proof.Machine.execGet req body s
  | .set req body => Sys2Proof.Machine.execSet req body s
  | .certRead req body => Sys2Proof.Machine.execCertRead req body s
  | .quote req body => Sys2Proof.Machine.execQuote req body s
  | .logRead req body => Sys2Proof.Machine.execLogRead req body s
  | .memRead req body data => Sys2Proof.Machine.execMemRead req body data s
  | .memWrite req body => Sys2Proof.Machine.execMemWrite req body s
  | .streamStart req body => Sys2Proof.Machine.execStreamStart req body s
  | .streamStop req body => Sys2Proof.Machine.execStreamStop req body s
  | .layoutFlip req body => Sys2Proof.Machine.execLayoutFlip req body s
  | .storm req body => Sys2Proof.Machine.execStorm req body s
  | .stormFragmentExpiry id => Sys2Proof.Machine.execStormFragmentExpiry id s
  | .sndCtrl req body => Sys2Proof.Machine.execSndCtrl req body s
  | .flashOpen req body => Sys2Proof.Machine.execFlashOpen req body s
  | .flashWrite req body => Sys2Proof.Machine.execFlashWrite req body s
  | .flashClose req body start => Sys2Proof.Machine.execFlashClose req body start s
  | .flashWriteTimeout => Sys2Proof.Machine.execFlashWriteTimeout s
  | .fwCommit req body => Sys2Proof.Machine.execFwCommit req body s
  | .factoryReset req body start => Sys2Proof.Machine.execFactoryReset req body start s
  | .ucwEnable req body => Sys2Proof.Machine.execUcwEnable req body s
  | .safeClear req body start => Sys2Proof.Machine.execSafeClear req body start s
  | .spareDisable req body => Sys2Proof.Machine.execSpareDisable req body s
  | .sealClear req body => Sys2Proof.Machine.execSealClear req body s
  | .tideStart late => Sys2Proof.Machine.execTideStart late s
  | .tideOutFall => Sys2Proof.Machine.execTideOutFall s
  | .ppsOutRise => Sys2Proof.Machine.execPpsOutRise s
  | .ppsOutFall => Sys2Proof.Machine.execPpsOutFall s
  | .tideCapture agent value => Sys2Proof.Machine.execTideCapture agent value s
  | .tideRateFracCommit agent value => Sys2Proof.Machine.execTideRateFracCommit agent value s
  | .tideRebase => Sys2Proof.Machine.execTideRebase s
  | .ptpSyncRx port offset => Sys2Proof.Machine.execPtpSyncRx port offset s
  | .ptpAnnounceRx port id portNumber steps result => Sys2Proof.Machine.execPtpAnnounceRx port id portNumber steps result s
  | .masterLost => Sys2Proof.Machine.execMasterLost s
  | .ppsInEdge => Sys2Proof.Machine.execPpsInEdge s
  | .ppsInLost => Sys2Proof.Machine.execPpsInLost s
  | .stepAccept agent => Sys2Proof.Machine.execStepAccept agent s
  | .slewAccept agent => Sys2Proof.Machine.execSlewAccept agent s
  | .tideAdjCommit agent value => Sys2Proof.Machine.execTideAdjCommit agent value s
  | .holdoverExpired => Sys2Proof.Machine.execHoldoverExpired s
  | .ref10mLoss => Sys2Proof.Machine.execRef10mLoss s
  | .ref10mReturn => Sys2Proof.Machine.execRef10mReturn s
  | .entropyDecode unit out => Sys2Proof.Machine.execEntropyDecode unit out s
  | .reconstruct unit out => Sys2Proof.Machine.execReconstruct unit out s
  | .decodeStart unit => Sys2Proof.Machine.execDecodeStart unit s
  | .decodeStop unit => Sys2Proof.Machine.execDecodeStop unit s
  | .decodeReadStatus unit => Sys2Proof.Machine.execDecodeReadStatus unit s
  | .flush unit => Sys2Proof.Machine.execFlush unit s
  | .refreshRequestRepeat ctx => Sys2Proof.Machine.execRefreshRequestRepeat ctx s
  | .encode unit out => Sys2Proof.Machine.execEncode unit out s
  | .entropyEncode unit data => Sys2Proof.Machine.execEntropyEncode unit data s
  | .encodeStart unit => Sys2Proof.Machine.execEncodeStart unit s
  | .encodeStop unit => Sys2Proof.Machine.execEncodeStop unit s
  | .encodeReadStatus unit => Sys2Proof.Machine.execEncodeReadStatus unit s
  | .forceSweep unit => Sys2Proof.Machine.execForceSweep unit s
  | .restart unit => Sys2Proof.Machine.execRestart unit s
  | .modelRead unit => Sys2Proof.Machine.execModelRead unit s
  | .modelSeed unit => Sys2Proof.Machine.execModelSeed unit s
  | .ucwOverrun pilot => Sys2Proof.Machine.execUcwOverrun pilot s
  | .plUcwRearm agent pilot value => Sys2Proof.Machine.execPlUcwRearm agent pilot value s
  | .compose unit host => Sys2Proof.Machine.execCompose unit host s
  | .cmpLayoutFlip agent value => Sys2Proof.Machine.execCmpLayoutFlip agent value s
  | .displayVsync output => Sys2Proof.Machine.execDisplayVsync output s
  | .hpdLow output => Sys2Proof.Machine.execHpdLow output s
  | .irqHpd output linkLost trains => Sys2Proof.Machine.execIrqHpd output linkLost trains s
  | .hpdAssert output lanes rate diag trains => Sys2Proof.Machine.execHpdAssert output lanes rate diag trains s
  | .linkTrainingRetry output trains => Sys2Proof.Machine.execLinkTrainingRetry output trains s
  | .auxTimeout output => Sys2Proof.Machine.execAuxTimeout output s
  | .laneFault output lane kind trains => Sys2Proof.Machine.execLaneFault output lane kind trains s
  | .netLinkChange port up fec localFault remoteFault speed => Sys2Proof.Machine.execNetLinkChange port up fec localFault remoteFault speed s
  | .ingressDatagram d => Sys2Proof.Machine.execIngressDatagram d s
  | .mergeWindowExpiry classifier => Sys2Proof.Machine.execMergeWindowExpiry classifier s
  | .neighbourRequestRx port kind => Sys2Proof.Machine.execNeighbourRequestRx port kind s
  | .feedbackRx payload => Sys2Proof.Machine.execFeedbackRx payload s
  | .transmit unit out => Sys2Proof.Machine.execTransmit unit out s
  | .feederPacket port bytes sync nextSync => Sys2Proof.Machine.execFeederPacket port bytes sync nextSync s
  | .demuxRead port => Sys2Proof.Machine.execDemuxRead port s
  | .feednDataRead agent port => Sys2Proof.Machine.execFeednDataRead agent port s
  | .feederSilent port => Sys2Proof.Machine.execFeederSilent port s
  | .holdShort port => Sys2Proof.Machine.execHoldShort port s
  | .feederPinTest port pins => Sys2Proof.Machine.execFeederPinTest port pins s
  | .hmDoorbell agent queue index => Sys2Proof.Machine.execHmDoorbell agent queue index s
  | .qcRead agent => Sys2Proof.Machine.execQcRead agent s
  | .qcWrite agent => Sys2Proof.Machine.execQcWrite agent s
  | .qcEnable agent => Sys2Proof.Machine.execQcEnable agent s
  | .qcDisable agent => Sys2Proof.Machine.execQcDisable agent s
  | .qctxLoad queue => Sys2Proof.Machine.execQctxLoad queue s
  | .dispatchDeadlineExpiry queue index => Sys2Proof.Machine.execDispatchDeadlineExpiry queue index s
  | .book agent ctx => Sys2Proof.Machine.execBook agent ctx s
  | .withdraw agent ctx => Sys2Proof.Machine.execWithdraw agent ctx s
  | .bookOutput agent output => Sys2Proof.Machine.execBookOutput agent output s
  | .hmGateSwap agent list value => Sys2Proof.Machine.execHmGateSwap agent list value s
  | .gateListTakeover list => Sys2Proof.Machine.execGateListTakeover list s
  | .gateEntryChange list => Sys2Proof.Machine.execGateEntryChange list s
  | .unitEnable agent unit => Sys2Proof.Machine.execUnitEnable agent unit s
  | .unitDisable agent unit halt => Sys2Proof.Machine.execUnitDisable agent unit halt s
  | .stopModeHalt agent unit => Sys2Proof.Machine.execStopModeHalt agent unit s
  | .spareSet agent unit => Sys2Proof.Machine.execSpareSet agent unit s
  | .spareClear agent unit => Sys2Proof.Machine.execSpareClear agent unit s
  | .groupCtrlWrite agent unit value => Sys2Proof.Machine.execGroupCtrlWrite agent unit value s
  | .quayWatermarkWrite agent offset value => Sys2Proof.Machine.execQuayWatermarkWrite agent offset value s
  | .inputStateChange isB mv => Sys2Proof.Machine.execInputStateChange isB mv s
  | .efuseTrip isB => Sys2Proof.Machine.execEfuseTrip isB s
  | .efuseRetry isB fault mv => Sys2Proof.Machine.execEfuseRetry isB fault mv s
  | .singleFeed isB => Sys2Proof.Machine.execSingleFeed isB s
  | .holdupExhausted => Sys2Proof.Machine.execHoldupExhausted s
  | .powerSample r => Sys2Proof.Machine.execPowerSample r s
  | .efficiencyUpdate eff fixed => Sys2Proof.Machine.execEfficiencyUpdate eff fixed s
  | .temperatureSample bases dies ports => Sys2Proof.Machine.execTemperatureSample bases dies ports s
  | .governorRecheck => Sys2Proof.Machine.execGovernorRecheck s
  | .powerWindow mw => Sys2Proof.Machine.execPowerWindow mw s
  | .pwrCoefReset agent value => Sys2Proof.Machine.execPwrCoefReset agent value s
  | .clockGate unit => Sys2Proof.Machine.execClockGate unit s
  | .unitWake unit => Sys2Proof.Machine.execUnitWake unit s
  | .deepGateWake unit => Sys2Proof.Machine.execDeepGateWake unit s
  | .spadBankRetention gantry bank => Sys2Proof.Machine.execSpadBankRetention gantry bank s
  | .refreshDue port channel bank queued => Sys2Proof.Machine.execRefreshDue port channel bank queued s
  | .selfRefreshEntry port => Sys2Proof.Machine.execSelfRefreshEntry port s
  | .edcFail agent addr isWrite fails toDest => Sys2Proof.Machine.execEdcFail agent addr isWrite fails toDest s
  | .predictWindow port reissues => Sys2Proof.Machine.execPredictWindow port reissues s
  | .scrubRead errs => Sys2Proof.Machine.execScrubRead errs s
  | .calibrationSession port vals => Sys2Proof.Machine.execCalibrationSession port vals s
  | .migrationCopyDone => Sys2Proof.Machine.execMigrationCopyDone s
  | .migrationDrainDone => Sys2Proof.Machine.execMigrationDrainDone s
  | .memMigForce agent value => Sys2Proof.Machine.execMemMigForce agent value s
  | .portLost port => Sys2Proof.Machine.execPortLost port s
  | .inplaceCalStep port last vals => Sys2Proof.Machine.execInplaceCalStep port last vals s
  | .alloc agent owner pool cls => Sys2Proof.Machine.execAlloc agent owner pool cls s
  | .free agent addr => Sys2Proof.Machine.execFree agent addr s
  | .release agent addr => Sys2Proof.Machine.execRelease agent addr s
  | .share agent addr => Sys2Proof.Machine.execShare agent addr s
  | .transfer agent addr owner => Sys2Proof.Machine.execTransfer agent addr owner s
  | .poolEnable agent pool value => Sys2Proof.Machine.execPoolEnable agent pool value s
  | .poolDisable agent pool value => Sys2Proof.Machine.execPoolDisable agent pool value s
  | .threaded pool => Sys2Proof.Machine.execThreaded pool s
  | .runProgram unit => Sys2Proof.Machine.execRunProgram unit s
  | .move unit => Sys2Proof.Machine.execMove unit s
  | .loop unit => Sys2Proof.Machine.execLoop unit s
  | .ltWait unit => Sys2Proof.Machine.execLtWait unit s
  | .ltWaitSatisfied unit => Sys2Proof.Machine.execLtWaitSatisfied unit s
  | .waitTimeout unit => Sys2Proof.Machine.execWaitTimeout unit s
  | .signal unit => Sys2Proof.Machine.execSignal unit s
  | .burstComplete unit err beat data => Sys2Proof.Machine.execBurstComplete unit err beat data s
  | .ltFlagsSet agent value => Sys2Proof.Machine.execLtFlagsSet agent value s
  | .nop unit err => Sys2Proof.Machine.execNop unit err s
  | .mov unit err => Sys2Proof.Machine.execMov unit err s
  | .ldi unit err => Sys2Proof.Machine.execLdi unit err s
  | .shi unit err => Sys2Proof.Machine.execShi unit err s
  | .add unit err => Sys2Proof.Machine.execAdd unit err s
  | .sub unit err => Sys2Proof.Machine.execSub unit err s
  | .and unit err => Sys2Proof.Machine.execAnd unit err s
  | .or unit err => Sys2Proof.Machine.execOr unit err s
  | .xor unit err => Sys2Proof.Machine.execXor unit err s
  | .min unit err => Sys2Proof.Machine.execMin unit err s
  | .max unit err => Sys2Proof.Machine.execMax unit err s
  | .shl unit err => Sys2Proof.Machine.execShl unit err s
  | .shr unit err => Sys2Proof.Machine.execShr unit err s
  | .sar unit err => Sys2Proof.Machine.execSar unit err s
  | .mul unit err => Sys2Proof.Machine.execMul unit err s
  | .mulh unit err => Sys2Proof.Machine.execMulh unit err s
  | .div unit err => Sys2Proof.Machine.execDiv unit err s
  | .addi unit err => Sys2Proof.Machine.execAddi unit err s
  | .cmp unit err => Sys2Proof.Machine.execCmp unit err s
  | .cmpi unit err => Sys2Proof.Machine.execCmpi unit err s
  | .ld unit err data => Sys2Proof.Machine.execLd unit err data s
  | .st unit err => Sys2Proof.Machine.execSt unit err s
  | .br unit err => Sys2Proof.Machine.execBr unit err s
  | .call unit err => Sys2Proof.Machine.execCall unit err s
  | .ret unit err => Sys2Proof.Machine.execRet unit err s
  | .wait unit err ready => Sys2Proof.Machine.execWait unit err ready s
  | .waitSatisfied unit => Sys2Proof.Machine.execWaitSatisfied unit s
  | .step unit err => Sys2Proof.Machine.execStep unit err s
  | .commit unit err => Sys2Proof.Machine.execCommit unit err s
  | .issue unit err => Sys2Proof.Machine.execIssue unit err s
  | .done unit err => Sys2Proof.Machine.execDone unit err s
  | .trapret unit err => Sys2Proof.Machine.execTrapret unit err s
  | .exit unit err => Sys2Proof.Machine.execExit unit err s
  | .microTrap unit cause => Sys2Proof.Machine.execMicroTrap unit cause s
  | .perstAssert asserted => Sys2Proof.Machine.execPerstAssert asserted s
  | .pcieLinkChange up rate width => Sys2Proof.Machine.execPcieLinkChange up rate width s
  | .flr => Sys2Proof.Machine.execFlr s
  | .dStateChange d3 => Sys2Proof.Machine.execDStateChange d3 s
  | .bar2Resize size => Sys2Proof.Machine.execBar2Resize size s
  | .bar2Write offset bytes poisoned => Sys2Proof.Machine.execBar2Write offset bytes poisoned s
  | .bar2Read offset len => Sys2Proof.Machine.execBar2Read offset len s
  | .outboundTimeout agent => Sys2Proof.Machine.execOutboundTimeout agent s
  | .msixUnmask vector => Sys2Proof.Machine.execMsixUnmask vector s
  | .mailboxGo agent value start data => Sys2Proof.Machine.execMailboxGo agent value start data s
  | .sourceEdge src => Sys2Proof.Machine.execSourceEdge src s
  | .bellClaim agent target => Sys2Proof.Machine.execBellClaim agent target s
  | .bellComplete agent target value => Sys2Proof.Machine.execBellComplete agent target value s
  | .bellSwset agent word value => Sys2Proof.Machine.execBellSwset agent word value s
  | .bellSrcCfgWrite agent src value => Sys2Proof.Machine.execBellSrcCfgWrite agent src value s
  | .holdTimerExpiry src => Sys2Proof.Machine.execHoldTimerExpiry src s
  | .unitFence unit code access addr => Sys2Proof.Machine.execUnitFence unit code access addr s
  | .spareTakeover spare => Sys2Proof.Machine.execSpareTakeover spare s
  | .hang unit => Sys2Proof.Machine.execHang unit s
  | .watchAck agent value => Sys2Proof.Machine.execWatchAck agent value s
  | .watchFenceClear agent value => Sys2Proof.Machine.execWatchFenceClear agent value s
  | .fenceSelfTestDone pass => Sys2Proof.Machine.execFenceSelfTestDone pass s
  | .watchSafeForce agent value => Sys2Proof.Machine.execWatchSafeForce agent value s
  | .safeStateEntry => Sys2Proof.Machine.execSafeStateEntry s
  | .lockstep pair => Sys2Proof.Machine.execLockstep pair s
  | .ccLostReset start => Sys2Proof.Machine.execCcLostReset start s
  | .tideLost => Sys2Proof.Machine.execTideLost s
  | .watchSelf => Sys2Proof.Machine.execWatchSelf s
  | .pathLost port => Sys2Proof.Machine.execPathLost port s
  | .sndSelWrite agent source counter value => Sys2Proof.Machine.execSndSelWrite agent source counter value s
  | .sndSampleCfgWrite agent value => Sys2Proof.Machine.execSndSampleCfgWrite agent value s
  | .skidSample column row value busy => Sys2Proof.Machine.execSkidSample column row value busy s
  | .i2cWrite bytes => Sys2Proof.Machine.execI2cWrite bytes s
  | .i2cRead len => Sys2Proof.Machine.execI2cRead len s
  | .i2cBusRelease => Sys2Proof.Machine.execI2cBusRelease s
  | .hotInsertion mvA mvB => Sys2Proof.Machine.execHotInsertion mvA mvB s
  | .completionDeadline outs => Sys2Proof.Machine.execCompletionDeadline outs s
  | .sealLoopClose => Sys2Proof.Machine.execSealLoopClose s
  | .buttonRelease => Sys2Proof.Machine.execButtonRelease s
  | .customsLost => Sys2Proof.Machine.execCustomsLost s
  | .hmLost => Sys2Proof.Machine.execHmLost s
  | .configurationRequest c => Sys2Proof.Machine.execConfigurationRequest c s
  | .singleFeedClears isB => Sys2Proof.Machine.execSingleFeedClears isB s
  | .pathLostEnds port => Sys2Proof.Machine.execPathLostEnds port s
  | .ptpMessageTx kind port => Sys2Proof.Machine.execPtpMessageTx kind port s
  | .ptpDelayMessageRx kind port delay => Sys2Proof.Machine.execPtpDelayMessageRx kind port delay s

end Sys2Proof.Machine
end

