-- ==== Sys2Proof/Machine/Step.lean ====
section
/-! DEFINITION. One step: the command at the front of the queue, or, with none waiting, one cycle of the 1.6 GHz clock. -/

namespace Sys2Proof.Machine

/-- One cycle of the 1.6 GHz clock passes (R115; log entry 14). -/
def State.tick (s : State) : State := { s with tide := { s.tide with count := s.tide.count + 1 } }

/-- The command at the front of the queue acts; on an empty queue a cycle passes. -/
def step (s : State) : Host.Outcome State Fault Refusal :=
  match s.pending with
  | [] => .next s.tick
  | c :: rest => exec c { s with pending := rest }

/-- The command a word spells is put at the front of the queue. -/
def State.withFetchWord (s : State) (nbits w : Nat) : State :=
  match Sys2Proof.decodeTableWord nbits w with
  | some c => { s with pending := c :: s.pending }
  | none => s

end Sys2Proof.Machine
end

