-- ==== Sys2Proof/Safety.lean ====
section
/-! DEFINITION. What a well-behaved state of the module is, in the terms the statements use: canonical memory and
registers, the bounded tables of the Watch, one claim at a time for each bell target. -/

namespace Sys2Proof.Machine

/-- No two sources are claimed by one target (R567). -/
def State.OneClaim (s : State) : Prop :=
  ∀ j k, (s.src j).active = true → (s.src k).active = true → (s.src j).claimer = (s.src k).claimer → j = k

/-- Memory and registers in canonical form. -/
def State.Canonical (s : State) : Prop := Memory.wf s.mem = true ∧ SMap.wf resetWord s.regs = true

/-- The Watch's log and active table within their sizes (R584, R586). -/
def State.WatchBounded (s : State) : Prop := s.watch.log.length ≤ 256 ∧ s.watch.active.length ≤ 64

/-- A request that reaches the block, repeats none of the sixteen kept of its sender, and has the authority of its class
(R99, R354, R355). -/
def State.Admits (s : State) (q : Req) (cmd : Nat) (c : RmpClass) : Prop :=
  s.rmpReach q = true ∧ (SMap.get (fun _ => []) s.rmpKept (reqKey q)).find? (fun r => r.seq = q.seq && r.command = cmd) = none
    ∧ s.unauthorised c cmd = none

/-- A job of an opcode runs at a berth that no fence has taken, nothing has stopped it, and its own checks pass (R212, R224). -/
def State.JobReady (s : State) (u op : Nat) (needsStart : Bool) (j : Job) : Prop :=
  s.jobAt u op = some j ∧ j.stopWith = none ∧ s.jobRefused j needsStart = none

/-! ### Micro-routines -/

/-- The micro-state after a write of register i: a trap register in the trap handler, else a data register (R524, R536). -/
def Micro.put (i v : Nat) (m : Micro) : Micro :=
  if m.trapped then { m with t := SMap.ins (i - 12) (v % two40) m.t } else { m with d := SMap.ins i (v % two40) m.d }

/-- Micro-cycles are counted in a window invocation (R546). -/
def Micro.spend (cost : Nat) (m : Micro) : Micro := if m.inWindow then { m with cycles := m.cycles + cost } else m

/-- On to the next micro-op, with its cost. -/
def Micro.next (cost : Nat) (m : Micro) : Micro := Micro.spend cost { m with pc := (m.pc + 1) % 32768 }

/-- A unit is at a micro-op of opcode `op`, the word `w`, with the fields that must be zero at zero, in no WAIT and not fenced; a
window invocation has the `cost` left (R525, R528, R532, R547). -/
def State.MicroReady (s : State) (u op cost w : Nat) : Prop :=
  (s.mi u).inRoutine = true ∧ (s.mi u).waiting = none ∧ s.eng u ≠ .fenced ∧ s.csWord u (s.mi u).pc = w ∧ bits w 23 18 = op
    ∧ badFields op w = false ∧ ((s.mi u).inWindow = true → (s.mi u).cycles + cost < 2000)

/-- In the trap handler only t0 to t3 are written (R536). -/
def State.MayWrite (s : State) (u i : Nat) : Prop := (s.mi u).trapped = true → 12 ≤ i

/-- The micro-state of one unit becomes `m`, and nothing else changes. -/
def State.MicroGoes (s t : State) (u : Nat) (m : Micro) : Prop :=
  t.mi u = m ∧ (∀ v, v ≠ u → t.unit v = s.unit v) ∧ (∀ x, { t.unit u with micro := x } = { s.unit u with micro := x })
    ∧ t = { s with units := t.units }

/-! ### Lighter channels -/

/-- A channel whose job no stop has marked is at an instruction of opcode `op` (R501). -/
def State.ChannelAt (s : State) (u op : Nat) : Prop :=
  (∃ j, s.ltJob u = some j ∧ j.stopWith = none) ∧ s.ltAt u op = true

end Sys2Proof.Machine
end

