-- ==== Sys2Proof/Certificates/Slice0/Obligations.lean ====
section
/-! DEFINITION. The statements about the block, one definition each, for the provers. -/

open Sys2Proof Sys2Proof.Machine

/-! ### The step, the queue, the canonical forms -/

/-- A step is exec of the command at the front of the queue on the state with the queue's rest.
On an empty queue one cycle of the 1.6 GHz clock passes and nothing else changes (model's choice, log entry 14). -/
def Obligations.StepRunsTheFrontCommand : Prop :=
  (∀ (c : Instr) (rest : List Instr) (s : State),
    step { s with pending := c :: rest } = exec c { s with pending := rest }) ∧
  (∀ s : State, s.pending = [] → step s = .next { s with tide := { s.tide with count := s.tide.count + 1 } })

/-- Reset satisfies every invariant stated here. -/
def Obligations.ResetMeetsInvariants : Prop :=
  State.reset.Canonical ∧ State.reset.WatchBounded ∧ State.reset.OneClaim ∧ State.reset.pending = []

/-- Memory and registers keep their canonical form over every step. -/
def Obligations.StepKeepsCanonicalForm : Prop :=
  ∀ s t : State, s.Canonical → step s = .next t → t.Canonical

/-- The log never holds more than 256 records, the active table never more than 64 entries (R584, R586). -/
def Obligations.StepKeepsWatchTablesBounded : Prop :=
  ∀ s t : State, s.WatchBounded → step s = .next t → t.WatchBounded

/-- No target ever holds two claims (R567). -/
def Obligations.StepKeepsOneClaimPerTarget : Prop :=
  ∀ s t : State, s.OneClaim → step s = .next t → t.OneClaim

/-- A command changes nothing in the queue; a step takes one command from its front. -/
def Obligations.CommandsLeaveTheQueue : Prop :=
  ∀ (c : Instr) (s t : State), exec c s = .next t → t.pending = s.pending

/-- BROKEN stays 1 whatever command runs, but SEAL_CLEAR and the commands that can carry an RMP request through the mailbox
(R101). -/
def Obligations.OnlySealClearMendsTheSeal : Prop :=
  ∀ (c : Instr) (s t : State), exec c s = .next t → s.boot.broken = true → t.boot.broken = false →
    match c with
    | .sealClear _ _ | .fwCommit _ _ | .mailboxGo _ _ _ _ | .registerWrite _ _ _ | .pairLoWrite _ _ _ | .pairHiWrite _ _ _
    | .signal _ | .burstComplete _ _ _ _ | .set _ _ => True
    | _ => False

/-- BOOT_ARC never falls, and of the identity nothing else ever changes (R84, R85). -/
def Obligations.FusesOnlyRise : Prop :=
  ∀ (c : Instr) (s t : State), exec c s = .next t →
    s.ident.bootArc ≤ t.ident.bootArc ∧ { t.ident with bootArc := s.ident.bootArc } = s.ident

/-! ### Registers (R10 to R24) -/

/-- A plain RW register takes the written bits at once, its reserved bits excepted; no other register changes but
CFG_STATUS (RUNTIME_CHANGED), and no byte of memory; in the blocks whose writes act at once, what the block does with the value follows.
A value the register refuses is a usage event and changes nothing else (R12, R13, R109, R655). -/
def Obligations.PlainRegisterWriteStoresAtOnce : Prop :=
  ∀ (s : State) (agent o v : Nat) (r : RegRow) (k i : Nat),
    rowOf o = some (r, k, i) → r.acc = .rw → r.half = .none →
    groupSnd o = false → s.noRegister agent o = false → s.armBlocks agent o = false →
    s.imageOnly r o (v % two32) = false → s.absentPort o = false → noGroupReg o = false →
    s.opWrite agent o (Nat.land (v % two32) r.mask) = none →
    (s.badWrite o (Nat.land (v % two32) r.mask) = true → s.bit Reg.HOST_MBX_STATUS 0 = false →
      exec (.registerWrite agent o v) s = .next (s.usageReg agent o)) ∧
    (s.badWrite o (Nat.land (v % two32) r.mask) = false →
      exec (.registerWrite agent o v) s = .next ((s.storeRw o (Nat.land (v % two32) r.mask)).runtimeChanged false).served ∧
      (([.global, .tide, .feed, .hm, .snd, .bell, .host] : List Block).contains (blockOf o) = false →
        s.bit Reg.HOST_MBX_STATUS 0 = false →
        ∃ t : State, exec (.registerWrite agent o v) s = .next t ∧ t.rd o = Nat.land (v % two32) r.mask
          ∧ (∀ p, p ≠ o → p ≠ Reg.CFG_STATUS → t.rd p = s.rd p) ∧ (∀ a, Memory.read t.mem a = Memory.read s.mem a)))

/-- A staged register keeps its value in force when written; the written bits wait for the next tide start (R22). -/
def Obligations.StagedRegisterWriteWaits : Prop :=
  ∀ (s : State) (agent o v : Nat) (r : RegRow) (k i : Nat),
    rowOf o = some (r, k, i) → r.acc = .rws →
    groupSnd o = false → s.noRegister agent o = false → s.armBlocks agent o = false →
    s.imageOnly r o (v % two32) = false → s.absentPort o = false → noGroupReg o = false → sndSetSel o = none →
    s.opWrite agent o (Nat.land (v % two32) r.mask) = none → s.badWrite o (Nat.land (v % two32) r.mask) = false →
    s.bit Reg.HOST_MBX_STATUS 0 = false →
    ∃ t : State, exec (.registerWrite agent o v) s = .next t
      ∧ t.staged = SMap.ins o (BitVec.ofNat 32 (Nat.land (v % two32) r.mask)) s.staged
      ∧ (∀ p, p ≠ Reg.CFG_STATUS → t.rd p = s.rd p) ∧ (∀ a, Memory.read t.mem a = Memory.read s.mem a)

/-- A write of one bits to a W1C register clears those bits and leaves the others (R12).
A write to a read-only register changes nothing (R12); nor does one to a UCB_GRP register of a unit that is no group (R42), or to a
register of a network port that does not exist (R369). -/
def Obligations.WriteOneClearsAndReadOnlyIgnores : Prop :=
  (∀ (s : State) (agent o v : Nat) (r : RegRow) (k i : Nat),
    rowOf o = some (r, k, i) → r.acc = .w1c →
    groupSnd o = false → s.noRegister agent o = false → s.armBlocks agent o = false →
    s.imageOnly r o (v % two32) = false → s.absentPort o = false → noGroupReg o = false →
    s.opWrite agent o (Nat.land (v % two32) r.mask) = none → s.bit Reg.HOST_MBX_STATUS 0 = false →
    ∃ t : State, exec (.registerWrite agent o v) s = .next t
      ∧ (∀ b, t.bit o b = (s.bit o b && !((v % two32).testBit b && r.mask.testBit b)))
      ∧ (∀ p, p ≠ o → t.rd p = s.rd p) ∧ (∀ a, Memory.read t.mem a = Memory.read s.mem a)) ∧
  (∀ (s : State) (agent o v : Nat) (r : RegRow) (k i : Nat),
    rowOf o = some (r, k, i) → r.acc = .ro →
    groupSnd o = false → s.noRegister agent o = false → s.armBlocks agent o = false →
    s.imageOnly r o (v % two32) = false → s.absentPort o = false → s.bit Reg.HOST_MBX_STATUS 0 = false →
    exec (.registerWrite agent o v) s = .next s) ∧
  (∀ (s : State) (agent o v : Nat) (r : RegRow) (k i : Nat),
    rowOf o = some (r, k, i) → groupSnd o = false → s.noRegister agent o = false → s.armBlocks agent o = false →
    s.imageOnly r o (v % two32) = false → s.absentPort o = true ∨ noGroupReg o = true → s.bit Reg.HOST_MBX_STATUS 0 = false →
    exec (.registerWrite agent o v) s = .next s)

/-- The low half of a pair goes into the holding register and changes nothing in force; a write of the high half commits
both, from the last low half written, and ends every agent's snapshot of the pair (R18 to R20); a value the pair refuses is a usage
event. Registers that the pair does not name keep their values, but for CFG_STATUS (RUNTIME_CHANGED). -/
def Obligations.PairCommitTakesTheHeldLowHalf : Prop :=
  (∀ (s : State) (agent o v : Nat) (r : RegRow) (k i : Nat),
    rowOf o = some (r, k, i) → r.acc = .rw → r.half = .lo40 →
    s.noRegister agent o = false → s.armBlocks agent o = false → s.imageOnly r o (v % two32) = false →
    s.absentPort o = false → noGroupReg o = false → groupSnd o = false → s.bit Reg.HOST_MBX_STATUS 0 = false →
    ∃ t : State, exec (.pairLoWrite agent o v) s = .next t ∧ t.heldLow o = v % two32 ∧ (∀ p, t.rd p = s.rd p)
      ∧ (∀ a, Memory.read t.mem a = Memory.read s.mem a)) ∧
  (∀ (s : State) (agent o v : Nat) (r : RegRow) (k i : Nat),
    rowOf (o + 4) = some (r, k, i) → r.acc = .rw → r.half = .hi40 →
    s.noRegister agent (o + 4) = false → s.armBlocks agent (o + 4) = false →
    s.imageOnly r (o + 4) (v % two32) = false → s.absentPort (o + 4) = false → noGroupReg (o + 4) = false → groupSnd (o + 4) = false →
    o ≠ Reg.TIDE_ADJ_W0 → o ≠ Reg.TIDE_RATE_FRAC_LO → s.bit Reg.HOST_MBX_STATUS 0 = false →
    (s.badCommit o (s.heldLow o + Nat.land (v % two32) r.mask * two32) = true →
      exec (.pairHiWrite agent (o + 4) v) s = .next (s.usageReg agent (o + 4))) ∧
    (s.badCommit o (s.heldLow o + Nat.land (v % two32) r.mask * two32) = false →
    ∃ t : State, exec (.pairHiWrite agent (o + 4) v) s = .next t ∧ t.rd o = s.heldLow o
      ∧ t.rd (o + 4) = Nat.land (v % two32) r.mask ∧ t.heldLow o = s.heldLow o ∧ (∀ g, t.snap o g = none)
      ∧ (∀ p, p ≠ o → p ≠ o + 4 → p ≠ Reg.CFG_STATUS → t.rd p = s.rd p)
      ∧ (∀ a, Memory.read t.mem a = Memory.read s.mem a)))

/-- A read of a register answers its value; of a low half, it also takes the snapshot of the upper half that the same
agent's next read of the upper half returns (R12, R20). -/
def Obligations.ReadsAnswerTheValueInForce : Prop :=
  (∀ (s : State) (agent o : Nat) (r : RegRow) (k i : Nat),
    rowOf o = some (r, k, i) → r.half = .none → r.acc ≠ .rc → r.acc ≠ .wo →
    groupSnd o = false → (inMirror o = false ∨ agent = hostAgent ∧ s.bootStep < 6) → s.noRegister agent o = false →
    idxOf Reg.BELL_T_CLAIM 16 36 o = none → idxOf Reg.FEED_DATA 0x100 2 o = none → sndOf o = none →
    idxOf Reg.HM_GATE_CHANGE_W0 0x40 16 o = none → o ≠ Reg.CMP_STORM_E_W0 →
    exec (.rcRead agent o) s = .next (s.emit (.readData agent o (s.view o)))) ∧
  (∀ (s : State) (agent o : Nat) (r : RegRow) (k i : Nat),
    rowOf o = some (r, k, i) → r.half = .lo40 → r.acc ≠ .rc → r.acc ≠ .wo →
    groupSnd o = false → (inMirror o = false ∨ agent = hostAgent ∧ s.bootStep < 6) → s.noRegister agent o = false →
    idxOf Reg.BELL_T_CLAIM 16 36 o = none → idxOf Reg.FEED_DATA 0x100 2 o = none → sndOf o = none →
    idxOf Reg.HM_GATE_CHANGE_W0 0x40 16 o = none → o ≠ Reg.CMP_STORM_E_W0 →
    ∃ t : State, exec (.pairLoRead agent o) s = .next (t.emit (.readData agent o (s.view o)))
      ∧ t.snap o agent = some (BitVec.ofNat 32 (s.view (o + 4)))
      ∧ t = { s with snaps := t.snaps })

/-- An access that R11 refuses: a read answers 0, a write is discarded, and the Watch records a usage event with the address and the
agent. -/
def Obligations.RefusedAccessIsRecorded : Prop :=
  ∀ (s : State) (agent o : Nat),
    exec (.refusedRegisterAccess agent o true) s = .next (s.usage (s.regNibble o) agent 7 (0x4000000000 + o)).refusal ∧
    exec (.refusedRegisterAccess agent o false) s
      = .next ((s.usage (s.regNibble o) agent 7 (0x4000000000 + o)).refusal.emit (.readData agent o 0)) ∧
    (s.noRegister agent o = true → groupSnd o = false → s.bit Reg.HOST_MBX_STATUS 0 = false → ∀ v,
      exec (.registerWrite agent o v) s = .next (s.usage (s.regNibble o) agent 7 (0x4000000000 + o)).refusal)

/-- HOLD follows the written bit at once, and nothing staged changes (R24). -/
def Obligations.StageHoldWriteSetsHold : Prop :=
  ∀ (s : State) (agent v : Nat), s.noRegister agent Reg.GLOBAL_STAGE_CTRL = false →
    s.armBlocks agent Reg.GLOBAL_STAGE_CTRL = false →
    ∃ t : State, exec (.stageHoldWrite agent v) s = .next t ∧ t.bit Reg.GLOBAL_STAGE_CTRL 0 = v.testBit 0
      ∧ t.staged = s.staged ∧ (∀ p, p ≠ Reg.GLOBAL_STAGE_CTRL → p ≠ Reg.CFG_STATUS → t.rd p = s.rd p)
      ∧ (∀ a, Memory.read t.mem a = Memory.read s.mem a)

/-! ### Power, start-up and restarts (R77 to R90, R112, R596, R603, R629, R642, R653) -/

/-- The first input that rises through 35 V puts the module into step 0: reset is held, the input is OK, and a grade X module's heater
is on; with the module powered already it is a crossing like any other.
An inserted input above 35 V charges the bus under 3 A and becomes OK; both inputs are judged; an unpowered module with an input OK
enters step 0, another stays in its phase (R77, R415, R629, R653). -/
def Obligations.PowerInputsAreJudged : Prop :=
  (∀ (s : State) (isB : Bool) (mv : Int), s.boot.phase = .unpowered →
    ∃ t : State, exec (.powerApplied isB mv) s = .next t ∧ t.boot.phase = .resetHeld ∧ t.boot.cold = true
      ∧ t.boot.heater = s.ident.variant.testBit 0
      ∧ t.input isB = { s.input isB with mv, st := .ok } ∧ t.input (!isB) = s.input (!isB)
      ∧ (∀ a, Memory.read t.mem a = Memory.read s.mem a)) ∧
  (∀ (s : State) (isB : Bool) (mv : Int), s.boot.phase ≠ .unpowered →
    exec (.powerApplied isB mv) s = .next (s.inputChange isB mv)) ∧
  (∀ (s : State) (mvA mvB : Int), (s.input false).st ≠ .tripped → (s.input true).st ≠ .tripped →
    ∃ t : State, exec (.hotInsertion mvA mvB) s = .next t ∧ (t.input false).mv = mvA ∧ (t.input true).mv = mvB
      ∧ (t.input false).st = inputAt (s.input false).st mvA ∧ (t.input true).st = inputAt (s.input true).st mvB
      ∧ t.boot.phase = (if s.boot.phase = .unpowered ∧ t.powered = true then .resetHeld else s.boot.phase)
      ∧ (∀ a, Memory.read t.mem a = Memory.read s.mem a))

/-- A rail that is not good holds reset; the release of reset starts the sequence at step 1, as a power-up only once. -/
def Obligations.ResetReleaseStartsAtStepOne : Prop :=
  ∀ (s : State) (st : StartUp), s.boot.phase = .resetHeld ∨ s.boot.phase = .railRetry →
    exec .railRetry s = .next { s with boot := { s.boot with phase := .railRetry } } ∧
    exec (.resetRelease st) s = .next ({ s with boot := { s.boot with cold := false } }.startUp st s.boot.cold)

/-- MOD_RESET_N restarts at step 1; the boot attempt record, the two flashes' slots, the Watch's log and the time of day
go on, and every other register is at its reset value before the sequence runs. -/
def Obligations.ModResetRestartsAtStepOne : Prop :=
  ∀ (s : State) (st : StartUp), s.boot.phase ≠ .unpowered →
    ∃ u : State, exec (.modReset st) s = .next (u.startUp st false) ∧ u = s.cleared false
      ∧ u.boot.failedA = s.boot.failedA ∧ u.boot.failedB = s.boot.failedB ∧ u.boot.boots = s.boot.boots
      ∧ u.boot.etvors = s.boot.etvors ∧ u.boot.broken = s.boot.broken ∧ u.boot.meas = [] ∧ u.boot.log = []
      ∧ u.watch.log = s.watch.log ∧ u.watch.safe = false ∧ u.ident = s.ident ∧ u.now = s.now
      ∧ (∀ a, Memory.read u.mem a = 0) ∧ u.units = [] ∧ u.books = [] ∧ u.queues = []

/-- Removal of both inputs clears the always-on records too; flash contents, fuses and a broken seal stay.
An exhausted hold-up with no input OK is a reset at step 0; what a restart clears is cleared. -/
def Obligations.PowerLossClearsAndResets : Prop :=
  (∀ s : State, ∃ t : State, exec .powerRemoved s = .next t ∧ t.boot.phase = .unpowered
    ∧ t.boot.failedA = false ∧ t.boot.failedB = false ∧ t.watch.log = [] ∧ t.boot.meas = []
    ∧ t.boot.boots = s.abandonFlash.boot.boots ∧ t.boot.etvors = s.abandonFlash.boot.etvors ∧ t.ident = s.ident
    ∧ t.boot.broken = s.boot.broken ∧ (∀ o, t.rd o = State.reset.rd o) ∧ (∀ a, Memory.read t.mem a = 0)) ∧
  (∀ s : State, s.powered = false → s.boot.phase ≠ .unpowered →
    ∃ t : State, exec .holdupExhausted s = .next t ∧ t.boot.phase = .unpowered ∧ t.power.riding = false
      ∧ t.boot.failedA = s.boot.failedA ∧ t.boot.failedB = s.boot.failedB ∧ t.watch.log = s.watch.log
      ∧ t.ident = s.ident ∧ (∀ a, Memory.read t.mem a = 0))

/-- The boot watchdog marks the stalled slot failed and restarts at step 1 on the other, or, with both failed, enters
RECOVERY.
When CFG_PTP_WAIT expires the tide clock starts free-running, with the warning 0x3202, and step 9 follows.
With both pairs fenced in the safe state the Watch asserts MOD_RESET_N (R596). -/
def Obligations.StartUpFailuresRestart : Prop :=
  (∀ (s : State) (st : StartUp), s.boot.phase = .stalled →
    exec (.bootWatchdogExpiry st) s = .next ((s.markFailed s.boot.runSlot).restart true (some st)) ∧
    ((s.markFailed s.boot.runSlot).boot.failedA = true → (s.markFailed s.boot.runSlot).boot.failedB = true →
      ∃ t : State, exec (.bootWatchdogExpiry st) s = .next t ∧ t.boot.phase = .recovery ∧ t.boot.failedA = true
        ∧ t.boot.failedB = true ∧ t.boot.runImg = none)) ∧
  (∀ s : State, s.boot.phase = .waitPtp →
    exec .ptpWaitExpiry s
      = .next ((((s.passTo s.boot.waitEnd).setBit Reg.TIDE_STATUS 8).report 0x3202 0x82 0 0).step9)) ∧
  (∀ (s : State) (st : StartUp), s.watch.safe = true → s.watch.pairsFenced.length = 2 →
    exec (.ccLostReset st) s = .next (((s.emit .modReset).cleared false).startUp st false))

/-- The management target and the heater (R642, R653): the first byte written sets the offset, a read answers the bytes from it
on and leaves it, a bus held low is released, the heater goes off. Registers and memory stay. -/
def Obligations.ManagementTargetAndHeater : Prop :=
  (∀ (s : State) (b : Nat) (bs : List Nat), s.railsGood = true →
    exec (.i2cWrite (b :: bs)) s = .next { s with i2cOfs := b % 256, i2cWait := false }) ∧
  (∀ (s : State) (n : Nat), s.railsGood = true →
    exec (.i2cRead n) s
      = .next { s with i2cWait := false, out := .i2c ((List.range n).map (fun i => s.i2cByte (s.i2cOfs + i))) :: s.out }) ∧
  (∀ s : State, s.railsGood = true → exec .i2cBusRelease s = .next { s with i2cWait := true }) ∧
  (∀ s : State, exec .heaterOff s = .next { s with boot := { s.boot with heater := false } })

/-! ### Customs: presence, the seal (R96 to R101) -/

/-- The ARM jumper, the button and the seal loop as they change: the ARM level and its event, a press that opens the window
only when armed and not barred, a button held too long, its release, the window's end, the loop opening and closing; a loop that opens
while the module is unpowered is not sensed then (R96, R97, R98, R101). -/
def Obligations.PresenceAndSealFollowTheirPins : Prop :=
  (∀ (s : State) (b : Bool), s.boot.arm ≠ b →
    exec (.armChange b) s
      = .next ({ s with boot := { s.boot with arm := b, window := if b then s.boot.window else none } }.setBit Reg.CUS_EVENT 0)) ∧
  (∀ s : State, ∃ t : State, exec .presentPress s = .next t ∧ t.boot.btnHeld = true ∧ t.bit Reg.CUS_EVENT 1 = true
    ∧ t.boot.window = (if s.boot.arm && s.mayOpen then some s.tide.count else s.boot.window)
    ∧ (∀ o, o ≠ Reg.CUS_EVENT → t.rd o = s.rd o) ∧ (∀ a, Memory.read t.mem a = Memory.read s.mem a)) ∧
  (∀ s : State, s.boot.btnHeld = true →
    exec .btnStuck s = .next { s with boot := { s.boot with btnStuck := true, window := none } }) ∧
  (∀ s : State, exec .buttonRelease s = .next { s with boot := { s.boot with
    btnHeld := false, btnStuck := false
    btnFree := if s.boot.btnStuck || s.boot.btnFree.isSome then some s.tide.count else none } }) ∧
  (∀ s : State, s.boot.btnStuck = false → (∀ c, s.boot.btnFree = some c → c + msCounts 1000 ≤ s.tide.count) → s.mayOpen = true) ∧
  (∀ (s : State) (c : Nat), s.boot.window = some c →
    exec .presenceWindowExpiry s
      = .next { s.passTo (c + msCounts 30000 + 1) with boot := { s.boot with window := none } }) ∧
  (∀ s : State, s.boot.phase = .unpowered →
    exec .sealBreak s = .next { s with boot := { s.boot with loopOpen := true } }) ∧
  (∀ s : State, s.boot.loopOpen = false → s.boot.phase ≠ .unpowered → ∃ t : State, exec .sealBreak s = .next t ∧ t.boot.broken = true
    ∧ t.boot.loopOpen = true ∧ t.bit Reg.CUS_EVENT 2 = true ∧ (∀ a, Memory.read t.mem a = Memory.read s.mem a)
    ∧ (∀ o, o ≠ Reg.CUS_EVENT → t.rd o = s.rd o)) ∧
  (∀ s : State, exec .sealLoopClose s = .next { s with boot := { s.boot with loopOpen := false } })

/-! ### RMP (R92 to R95, R99, R101, R84, R110 to R112, R353 to R358, R408, R603) -/

/-- Monitoring commands: an admitted GET, CERT_READ, QUOTE, LOG_READ or MEM_READ is answered OK with what it reads. A quote counts the
one just made and is stamped in the 1,000 ms window. A GET reads register after register, each as a plain read gives it; a MEM_READ reads
device memory, registers or the outbound window, and is refused at an unmapped address (R34, R92 to R95, R356). -/
def Obligations.MonitorCommandsAnswer : Prop :=
  (∀ (s : State) (q : Req) (b : List Nat), s.Admits q 1 .monitor → b.length = 8 → 0 < bodyN b 4 4 → bodyN b 4 4 ≤ 256 →
    exec (.get q b) s = .next ((getRegs (bodyN b 0 4) (bodyN b 4 4) s).2.rmpReply q 1 stOk (getRegs (bodyN b 0 4) (bodyN b 4 4) s).1)) ∧
  (∀ (s : State) (o : Nat) (r : RegRow) (k i : Nat), rowOf o = some (r, k, i) → r.half = .none → r.acc ≠ .rc → r.acc ≠ .wo →
    groupSnd o = false → inMirror o = false → s.noRegister agentCc0 o = false → idxOf Reg.BELL_T_CLAIM 16 36 o = none →
    idxOf Reg.FEED_DATA 0x100 2 o = none → sndOf o = none → idxOf Reg.HM_GATE_CHANGE_W0 0x40 16 o = none → o ≠ Reg.CMP_STORM_E_W0 →
    getRegs o 1 s = (leBytes 4 (s.view o), s)) ∧
  (∀ (s : State) (q : Req) (x0 x1 x2 x3 x4 : Nat), s.Admits q 3 .monitor → x0 < 2 →
    exec (.certRead q [x0, x1, x2, x3, x4]) s
      = .next (s.rmpReply q 3 stOk ((((if x0 = 0 then s.ident.certs.headD [] else Config.attestCert (s.measReg 1)).drop
          (bodyN [x0, x1, x2, x3, x4] 1 4)).take 1400)))) ∧
  (∀ (s : State) (q : Req) (n : List Nat), s.Admits q 4 .monitor → n.length ≤ 32 →
    (s.boot.quotes.filter (fun c => decide (s.tide.count < c + msCounts 1000))).length < 16 →
    ∃ t : State, t.boot.qseq = (s.boot.qseq + 1) % two32
      ∧ t = { s with boot := { s.boot with
          quotes := s.tide.count :: s.boot.quotes.filter (fun c => decide (s.tide.count < c + msCounts 1000))
          qseq := (s.boot.qseq + 1) % two32 } }
      ∧ exec (.quote q n) s = .next (t.rmpReply q 4 stOk (t.quote n))) ∧
  (∀ (s : State) (q : Req) (i : Nat) (e : Nat × Nat × Nat), s.Admits q 5 .monitor → i < 256 → s.boot.log[i]? = some e →
    exec (.logRead q [i]) s = .next (s.rmpReply q 5 stOk (e.1 :: e.2.1 :: leBytes 32 e.2.2))) ∧
  (∀ (s : State) (q : Req) (b d : List Nat), s.Admits q 6 .monitor → b.length = 10 → bodyN b 0 8 < two40 → 0 < bodyN b 8 2 →
    bodyN b 8 2 ≤ 1024 →
    (s.isMem (bodyN b 0 8) = true → s.isMem (bodyN b 0 8 + bodyN b 8 2 - 1) = true → s.canRead (bodyN b 0 8) (bodyN b 8 2) = .ok →
      s.ports.any (fun p => p.2.selfRefresh && p.2.role == .active) = false → s.memsys.flips = [] →
      exec (.memRead q b d) s = .next (s.rmpReply q 6 stOk (Memory.bytes s.mem (bodyN b 0 8) (bodyN b 8 2)))) ∧
    (s.target (bodyN b 0 8) = .regs → bodyN b 0 8 % 4 = 0 → bodyN b 8 2 % 4 = 0 →
      exec (.memRead q b d) s = .next ((getRegs (bodyN b 0 8 - 0x4000000000) (bodyN b 8 2 / 4) s).2.rmpReply q 6 stOk
        (getRegs (bodyN b 0 8 - 0x4000000000) (bodyN b 8 2 / 4) s).1)) ∧
    (s.target (bodyN b 0 8) = .outbound → s.outboundOk = true →
      exec (.memRead q b d) s = .next (s.rmpReply q 6 stOk ((List.range (bodyN b 8 2)).map (byteAt d)))) ∧
    (s.target (bodyN b 0 8) = .unmapped →
      exec (.memRead q b d) s = .next ((s.usageAddr agentCc0 1 (bodyN b 0 8)).rmpReply q 6 stRefused [])))

/-- Operational commands: admitted with ARM fitted and outside the safe state, each whose body and whose own conditions are met has its
effect and is answered OK: SET writes its register, MEM_WRITE its bytes, STREAM_START and STREAM_STOP post the stream's job,
LAYOUT_FLIP leaves the flip pending from T + 2 + L, STORM holds the signal, SND_CTRL stages the selection (R297, R315, R356, R359, R408,
R613, R622). SET goes on to the next pair, and ends REFUSED at the first that is refused (R356). -/
def Obligations.OperationalCommandsAct : Prop :=
  ∀ (s : State) (q : Req) (b : List Nat),
    (s.Admits q 2 .operational → b.length % 8 = 0 → b ≠ [] → b.length ≤ 1024 →
      exec (.set q b) s = .next ((setRegs (b.length / 8) b s).2.rmpReply q 2
        (if (setRegs (b.length / 8) b s).1 then stOk else stRefused) []).served) ∧
    (s.Admits q 2 .operational → b.length = 8 → s.bit Reg.HOST_MBX_STATUS 0 = false → ∀ (r : RegRow) (k i : Nat),
      rowOf (bodyN b 0 4) = some (r, k, i) → r.acc = .rw → r.half = .none → r.img = false → bodyN b 0 4 % 4 = 0 →
      ([.mem, .watch, .net, .lt] : List Block).contains (blockOf (bodyN b 0 4)) = true → s.absentPort (bodyN b 0 4) = false →
      s.opWrite agentCc0 (bodyN b 0 4) (Nat.land (bodyN b 4 4) r.mask) = none →
      s.badWrite (bodyN b 0 4) (Nat.land (bodyN b 4 4) r.mask) = false →
      ∃ t : State, exec (.set q b) s = .next (t.rmpReply q 2 stOk []) ∧ t.rd (bodyN b 0 4) = Nat.land (bodyN b 4 4) r.mask
        ∧ (∀ p, p ≠ bodyN b 0 4 → p ≠ Reg.CFG_STATUS → t.rd p = s.rd p) ∧ t.mem = s.mem) ∧
    (s.Admits q 0x15 .operational → 9 ≤ b.length → b.length ≤ 1032 → bodyN b 0 8 < two40 →
      bodyN b 0 8 + (b.length - 8) ≤ s.capacity → s.protOn = false → s.isMem (bodyN b 0 8) = true →
      s.isMem (bodyN b 0 8 + (b.length - 8) - 1) = true → s.canWrite agentCc0 (bodyN b 0 8) (b.length - 8) = .ok →
      ∃ t : State, exec (.memWrite q b) s = .next ((State.classWatch s agentCc0 t).rmpReply q 0x15 stOk [])
        ∧ (s.memsys.flips = [] → t.regs = s.regs)
        ∧ (∀ a, Memory.read t.mem a = if bodyN b 0 8 ≤ a ∧ a < bodyN b 0 8 + (b.length - 8) then
            (b.drop 8).getD (a - bodyN b 0 8) 0 % 256 else Memory.read s.mem a)) ∧
    (s.Admits q 0x10 .operational → b.length = 2 → bodyN b 0 2 < 4096 →
      s.ctxKind (bodyN b 0 2) = 1 ∨ s.ctxKind (bodyN b 0 2) = 2 → s.books.any (fun k => k.1 = bodyN b 0 2) = true →
      s.qState (bodyN b 0 2) = 1 → sub32 (s.qProd (bodyN b 0 2)) (s.qDone (bodyN b 0 2)) ≠ s.qSize (bodyN b 0 2) →
      ∃ t : State, t.qProd (bodyN b 0 2) = (s.qProd (bodyN b 0 2) + 1) % two32
        ∧ t = (s.post (bodyN b 0 2) (descBytes (0x0103 + (s.ctxKind (bodyN b 0 2) - 1) * 0x100) 0 (bodyN b 0 2) 0 0 0 0 0 0 0) []).2.2
        ∧ exec (.streamStart q b) s = .next (t.dispatch.rmpReply q 0x10 stOk [])) ∧
    (s.Admits q 0x11 .operational → b.length = 3 → bodyN b 0 2 < 4096 → byteAt b 2 ≤ 1 →
      s.ctxKind (bodyN b 0 2) = 1 ∨ s.ctxKind (bodyN b 0 2) = 2 →
      (s.ctxState (bodyN b 0 2) = 3 → byteAt b 2 = 1 →
        exec (.streamStop q b) s = .next ((s.stopStream (bodyN b 0 2) true).dispatch.rmpReply q 0x11 stOk [])) ∧
      (s.ctxState (bodyN b 0 2) ≠ 3 → s.qState (bodyN b 0 2) = 1 →
        sub32 (s.qProd (bodyN b 0 2)) (s.qDone (bodyN b 0 2)) ≠ s.qSize (bodyN b 0 2) →
        ∃ t : State, t.qProd (bodyN b 0 2) = (s.qProd (bodyN b 0 2) + 1) % two32
          ∧ t = (s.post (bodyN b 0 2) (descBytes (0x0104 + (s.ctxKind (bodyN b 0 2) - 1) * 0x100) (byteAt b 2) (bodyN b 0 2)
              0 0 0 0 0 0 0) []).2.2
          ∧ exec (.streamStop q b) s = .next (t.dispatch.rmpReply q 0x11 stOk []))) ∧
    (s.Admits q 0x12 .operational → b.length = 2 → bodyN b 0 2 < 1024 → (s.layoutSt (bodyN b 0 2)).pend = none → s.flipsFresh < 64 →
      s.layoutCheck (s.layoutAddr (bodyN b 0 2) (1 - (s.layoutSt (bodyN b 0 2)).copy)) = 0 →
      ∃ t : State, exec (.layoutFlip q b) s = .next (t.rmpReply q 0x12 stOk []) ∧ (t.layoutSt (bodyN b 0 2)).pend = some s.effFrom
        ∧ (t.layoutSt (bodyN b 0 2)).copy = (s.layoutSt (bodyN b 0 2)).copy
        ∧ (∀ n, n ≠ bodyN b 0 2 → t.layoutSt n = s.layoutSt n) ∧ t.regs = s.regs ∧ t.mem = s.mem) ∧
    (s.Admits q 0x13 .operational → stormBad b = false → (stormFields b).2.2.2.2 = 0 → s.storms.length < 8 →
      s.storms.any (fun x => x.id = (stormFields b).1) = false → s.tideNum + 3 + s.presentL ≤ (stormFields b).2.2.2.1 →
      ∃ t : State, exec (.storm q b) s = .next (t.rmpReply q 0x13 stOk [])
        ∧ t.storms = s.storms ++ [{ id := (stormFields b).1, act := none, slot := s.stormSlot
                                    pend := some { level := (stormFields b).2.1, slate := (stormFields b).2.2.1, at_ := (stormFields b).2.2.2.1 } }]
        ∧ t.mem = s.mem) ∧
    (s.Admits q 0x14 .operational → b.length = 8 → byteAt b 2 < 8 → sndSource (bodyN b 0 2) = true →
      sndOk (bodyN b 0 2) (bits (bodyN b 4 4) 11 0) = true →
      exec (.sndCtrl q b) s = .next (((s.stage (sndBase (bodyN b 0 2) (byteAt b 2)) (Nat.land (bodyN b 4 4) 0x1FFF)).runtimeChanged
        false).rmpReply q 0x14 stOk []))

/-- A kept text fragment not completed within 64 tides is dropped, and only that (R359).
A flash write left open without a command for 60 s is abandoned and its slot erased (R110). -/
def Obligations.AbandonedWorkIsDropped : Prop :=
  (∀ (s : State) (id : Nat), exec (.stormFragmentExpiry id) s
    = .next { s with stormText := s.stormText.filter (fun x => !(x.id = id && decide (x.since + 64 ≤ s.tideNum))) }) ∧
  (∀ (s : State) (w : FlashWr), s.boot.flash = some w →
    ∃ t : State, exec .flashWriteTimeout s = .next t ∧ t.boot.flash = none
      ∧ (w.slot < 2 → SMap.get (fun _ => none) t.boot.boots (s.bootKey w.slot) = none)
      ∧ (2 ≤ w.slot → SMap.get (fun _ => []) t.boot.etvors (s.etvorKey (w.slot - 2)) = [])
      ∧ (∀ o, t.rd o = s.rd o) ∧ (∀ a, Memory.read t.mem a = Memory.read s.mem a))

/-- Presence commands: with ARM fitted and the window open. Each whose body and whose own conditions are met has its effect, is measured
into MEAS5, and is answered OK: FLASH_OPEN erases its slot and opens the write, FLASH_WRITE adds bytes, FLASH_CLOSE keeps a boot
image that passes its checks and an Etvor image that passes R105, and erases another, UCW_ENABLE puts the window program (or, with no words, none) in line for the next tide start,
SPARE_DISABLE takes a unit out of SPARE (R84, R101, R110, R112, R358, R543, R544, R603). -/
def Obligations.PresenceCommandsAct : Prop :=
  (∀ (s : State) (q : Req), s.Admits q 0x28 .presence → s.boot.loopOpen = false → s.boot.broken = true →
    exec (.sealClear q []) s
      = .next (((({ s with boot := { s.boot with broken := false } } : State).measEvent 6).measEvent 5).rmpReply q 0x28 stOk [])) ∧
  (∀ (s : State) (q : Req) (i : BootImg), s.Admits q 0x23 .presence → s.boot.runImg = some i →
    exec (.fwCommit q []) s
      = .next ((({ s with ident := { s.ident with bootArc := max s.ident.bootArc i.svn } } : State).measEvent 5).rmpReply q 0x23 stOk
          [max s.ident.bootArc i.svn, 0, 0, 0])) ∧
  (∀ (s : State) (q : Req) (b : List Nat) (w : FlashWr), s.Admits q 0x21 .presence → s.boot.flash = some w →
    9 ≤ b.length → b.length ≤ 1032 → bodyN b 4 4 = 0 → bodyN b 0 4 = w.data.length →
    w.data.length + (b.length - 8) ≤ w.length → (b.length % 4 = 0 ∨ w.data.length + (b.length - 8) = w.length) →
    exec (.flashWrite q b) s
      = .next ((({ s with boot := { s.boot with flash := some { w with data := w.data ++ b.drop 8 } } } : State).measEvent 5).rmpReply q
          0x21 stOk [])) ∧
  (∀ (s : State) (q : Req) (b : List Nat), s.Admits q 0x20 .presence → b.length = 8 → byteAt b 0 ≤ 1 → byteAt b 1 ≤ 1 →
    bodyN b 2 2 = 0 → bodyN b 4 4 % 4 = 0 → (if byteAt b 0 = 1 then 36 else 4) ≤ bodyN b 4 4 → bodyN b 4 4 ≤ 16777216 →
    (s.boot.phase ≠ .recovery ∨ byteAt b 0 = 0) →
    (s.boot.flash = none → s.slotInUse (byteAt b 0) (byteAt b 1) = false →
      exec (.flashOpen q b) s = .next ((({ s.eraseSlot (2 * byteAt b 0 + byteAt b 1) with
        boot := { (s.eraseSlot (2 * byteAt b 0 + byteAt b 1)).boot with
          flash := some { slot := 2 * byteAt b 0 + byteAt b 1, length := bodyN b 4 4, data := [] } } } : State).measEvent 5).rmpReply q
            0x20 stOk [])) ∧
    (s.boot.flash ≠ none → exec (.flashOpen q b) s = .next (s.rmpReply q 0x20 stBusy [])) ∧
    (s.boot.flash = none → s.slotInUse (byteAt b 0) (byteAt b 1) = true →
      exec (.flashOpen q b) s = .next (s.rmpReply q 0x20 stSlotInUse []))) ∧
  (∀ (s : State) (q : Req) (w : FlashWr) (st : StartUp), s.Admits q 0x22 .presence → s.boot.phase ≠ .recovery →
    s.boot.flash = some w → w.data.length = w.length → w.slot < 2 → s.bootFlash = true → ∀ r : Nat,
    r = s.bootCheck (Config.bootImage w.data) false → ∃ t : State, t.boot.flash = none
      ∧ SMap.get (fun _ => none) t.boot.boots (s.bootKey w.slot) = (if r = 0 then Config.bootImage w.data else none)
      ∧ t.bit Reg.CUS_EVENT 5 = true ∧ (∀ o, o ≠ Reg.CUS_EVENT → t.rd o = s.rd o) ∧ t.mem = s.mem
      ∧ exec (.flashClose q [] st) s = .next ((t.measEvent 5).rmpReply q 0x22 stOk [r, 0, 0, 0])) ∧
  (∀ s : State, s.bootCheck none false = 1 ∧ ∀ i : BootImg, s.bootCheck (some i) false = (if i.sigOk = false then 1
    else if s.ident.rootRevoked.testBit i.root = true then 2 else if i.svn < s.ident.bootArc then 3 else 0)) ∧
  (∀ (s : State) (q : Req) (w : FlashWr) (st : StartUp), s.Admits q 0x22 .presence → s.boot.phase ≠ .recovery →
    s.boot.flash = some w → w.data.length = w.length → 2 ≤ w.slot → s.etvorFlash = true →
    (etvorCheck s.fwVersion (some w.data) = 0 → ∃ t : State, t.boot.flash = none
      ∧ SMap.get (fun _ => []) t.boot.etvors (s.etvorKey (w.slot - 2)) = w.data ∧ t.bit Reg.CUS_EVENT 5 = true
      ∧ (∀ o, o ≠ Reg.CUS_EVENT → t.rd o = s.rd o) ∧ t.mem = s.mem
      ∧ exec (.flashClose q [] st) s = .next ((t.measEvent 5).rmpReply q 0x22 stOk [0, 0, 0, 0])) ∧
    (etvorCheck s.fwVersion (some w.data) ≠ 0 → ∃ t : State, t.boot.flash = none
      ∧ SMap.get (fun _ => []) t.boot.etvors (s.etvorKey (w.slot - 2)) = []
      ∧ exec (.flashClose q [] st) s
          = .next ((t.measEvent 5).rmpReply q 0x22 stOk [etvorCheck s.fwVersion (some w.data), 0, 0, 0]))) ∧
  (∀ (s : State) (q : Req) (b : List Nat), s.Admits q 0x25 .presence → b.length = 16 → bodyN b 2 2 = 0 → bodyN b 4 4 = 0 →
    bodyN b 8 8 < two40 → unitKind (bodyN b 0 2) = some .pilot →
    ∃ t : State, t.ucwNext = s.ucwNext.filter (fun p => !([bodyN b 0 2].contains p.1 && !p.2.1)) ++ [(bodyN b 0 2, false, [])]
      ∧ t.regs = s.regs ∧ t.mem = s.mem ∧ exec (.ucwEnable q b) s = .next ((t.measEvent 5).rmpReply q 0x25 stOk [])) ∧
  (∀ (s : State) (q : Req) (b ws : List Nat), s.Admits q 0x25 .presence → b.length = 16 → 0 < bodyN b 2 2 → bodyN b 2 2 ≤ 8192 →
    4 ≤ bodyN b 2 2 → bodyN b 4 4 = 0 → bodyN b 8 8 < two40 → unitKind (bodyN b 0 2) = some .pilot →
    s.windowProg (bodyN b 2 2) (bodyN b 8 8) = some ws → ws.all (windowWord (bodyN b 2 2)) = true →
    ∃ t : State, t.ucwNext = s.ucwNext.filter (fun p => !([bodyN b 0 2].contains p.1 && !p.2.1)) ++ [(bodyN b 0 2, false, ws)]
      ∧ t.regs = s.regs ∧ t.mem = s.mem ∧ exec (.ucwEnable q b) s = .next ((t.measEvent 5).rmpReply q 0x25 stOk [])) ∧
  (∀ (s : State) (q : Req) (b : List Nat) (k : Kind), s.Admits q 0x27 .presence → b.length = 4 → bodyN b 2 2 = 0 →
    unitKind (bodyN b 0 2) = some k → k.spareOk = true →
    (s.eng (bodyN b 0 2) = .spare → ∃ v : State, v.eng (bodyN b 0 2) = .stopped ∧ v.mem = s.mem
      ∧ v.bit (ucb (bodyN b 0 2) Reg.UCB_CTRL) 2 = false
      ∧ exec (.spareDisable q b) s = .next ((((v.afterSpares s).dispatch).measEvent 5).rmpReply q 0x27 stOk [])) ∧
    (s.eng (bodyN b 0 2) ≠ .spare → exec (.spareDisable q b) s = .next (s.rmpReply q 0x27 stRefused []))) ∧
  (∀ (s : State) (q : Req) (st : StartUp), s.Admits q 0x24 .presence →
    exec (.factoryReset q [] st) s
      = .next ((((((s.putEtvor 0 []).putEtvor 1 []).measEvent 5).rmpReply q 0x24 stOk []).emit .modReset).restart false (some st))) ∧
  (∀ (s : State) (q : Req) (st : StartUp), s.Admits q 0x26 .presence → s.watch.safe = true →
    exec (.safeClear q [] st) s = .next (((s.measEvent 5).rmpReply q 0x26 stOk []).restart true (some st)))

/-- A command whose authority is missing does nothing but set its event and answer its status: OPERATIONAL without ARM answers
ARM_REQUIRED, with ARM in the safe state REFUSED; PRESENCE without ARM answers ARM_REQUIRED, with it and outside the
window PRESENCE_REQUIRED (R99, R357, R602; the order of the checks is log entry 10). -/
def Obligations.MissingAuthorityIsRefused : Prop :=
  ∀ (s : State) (q : Req) (b : List Nat), s.rmpReach q = true → (q.via = .service ∨ q.via = .mailbox) → s.boot.phase ≠ .recovery →
    SMap.get (fun _ => []) s.rmpKept (reqKey q) = [] →
    (s.boot.arm = false →
      exec (.memWrite q b) s = .next ((s.setBit Reg.CUS_EVENT 4).rmpReply q 0x15 4 []) ∧
      exec (.streamStart q b) s = .next ((s.setBit Reg.CUS_EVENT 4).rmpReply q 0x10 4 [])) ∧
    (s.boot.arm = true → s.watch.safe = true →
      exec (.memWrite q b) s = .next ((s.setBit Reg.CUS_EVENT 4).rmpReply q 0x15 11 [])) ∧
    (s.watch.safe = false → s.boot.arm = false →
      exec (.flashOpen q b) s = .next ((s.setBit Reg.CUS_EVENT 4).rmpReply q 0x20 4 [])) ∧
    (s.watch.safe = false → s.boot.arm = true → s.present = false →
      exec (.flashOpen q b) s = .next ((s.setBit Reg.CUS_EVENT 4).rmpReply q 0x20 5 []))

/-! ### The tide clock and its servo (R116 to R149) -/

/-- A commit of the rate under SERVO_MAN: the value saturates at ±200 ppm, and device time is the same before and after (R116).
A rebase of the hardware's own never changes device time (R117). -/
def Obligations.RateChangesAndRebasesKeepTime : Prop :=
  (∀ (s : State) (agent v : Nat), s.armBlocks agent Reg.TIDE_RATE_FRAC_HI = false → s.bit Reg.TIDE_CTRL 4 = true →
    ∃ t : State, exec (.tideRateFracCommit agent v) s = .next t
      ∧ t.tide.rate = clamp (-137438953) 137438953 (signed 40 v) ∧ t.tide.readTime = s.tide.readTime
      ∧ t.tide.count = s.tide.count
      ∧ (∀ o, o ≠ Reg.TIDE_RATE_FRAC_LO → o ≠ Reg.TIDE_RATE_FRAC_HI → o ≠ Reg.CFG_STATUS → t.rd o = s.rd o)
      ∧ (∀ a, Memory.read t.mem a = Memory.read s.mem a)) ∧
  (∀ s : State, ∃ t : State, exec .tideRebase s = .next t ∧ t.tide.readTime = s.tide.readTime ∧ t.tide.base = s.tide.count
    ∧ t = { s with tide := { s.tide with offNs := t.tide.offNs, offSub := t.tide.offSub, base := t.tide.base } })

/-- A write of 1 to CAPTURE records count, device time and tide number, all in one cycle; nothing else changes (R118). -/
def Obligations.CaptureRecordsOneInstant : Prop :=
  ∀ (s : State) (agent v : Nat), s.armBlocks agent Reg.TIDE_CAPTURE = false → v.testBit 0 = true →
    ∃ t : State, exec (.tideCapture agent v) s = .next t
      ∧ t.rd64 Reg.TIDE_CAP_COUNT_W0 = s.tide.count % 2 ^ 64 ∧ t.rd64 Reg.TIDE_CAP_TIME_W0 = s.now
      ∧ t.rd64 Reg.TIDE_CAP_NUM_W0 = s.tideNum ∧ t.rd Reg.TIDE_CAP_SUB = s.tide.readTime.2 / 256
      ∧ (∀ o, o < Reg.TIDE_CAP_COUNT_W0 ∨ Reg.TIDE_CAP_COUNT_W0 + 28 ≤ o → t.rd o = s.rd o)
      ∧ (∀ a, Memory.read t.mem a = Memory.read s.mem a)

/-- A tide start in service: time reaches the start of the next tide. With a step pending it is applied and no tide starts;
otherwise the actions of the first cycle of that tide follow (R122, R131, R148).
Applying an accepted step moves device time by it and leaves the tide number; the next tide is a later one (R148).
While HOLD is 1 no staged value comes into force (R24). -/
def Obligations.TideStartActsAtItsInstant : Prop :=
  (∀ (s : State) (late : List (Nat × PicOut)), s.boot.phase ≠ .service → exec (.tideStart late) s = .next s) ∧
  (∀ (s : State) (late : List (Nat × PicOut)), s.boot.phase = .service →
    (s.bit Reg.TIDE_STATUS 9 = false →
      exec (.tideStart late) s
        = .next ((s.passToNs (max (s.startOf s.tide.nextTide) s.tide.notBefore)).tideActions late s.tide.nextTide)) ∧
    (s.bit Reg.TIDE_STATUS 9 = true →
      exec (.tideStart late) s = .next (s.passToNs (max (s.startOf s.tide.nextTide) s.tide.notBefore)).applyStep)) ∧
  (∀ s : State, ∃ t : State, t = s.applyStep ∧ (t.now : Int) = ((s.now : Int) + s.tide.pendStep) % 2 ^ 64
    ∧ t.tide.pendStep = 0 ∧ t.bit Reg.TIDE_STATUS 9 = false ∧ t.bit Reg.TIDE_EVENT 4 = true ∧ t.tideNum = s.tideNum
    ∧ s.tideNum < t.tide.nextTide) ∧
  (∀ (s : State) (first : Bool) (t t0 : Nat), s.bit Reg.GLOBAL_STAGE_CTRL 0 = true → s.applyAll first t t0 = s)

/-- The outputs of the tide clock: TIDE_OUT falls WIDTH × 10 ns after the start, PPS_OUT rises on the whole second when enabled and
not free-running, and falls 100 ms later (R133). -/
def Obligations.TimingOutputsFollowTheClock : Prop :=
  (∀ s : State, s.tide.tideOut = true → ∃ t : State, exec .tideOutFall s = .next t ∧ t.tide.tideOut = false
    ∧ t = { s.passToNs (s.tide.startNs + s.fld Reg.TIDE_OUT_CFG 15 0 * 10) with tide := t.tide }) ∧
  (∀ s : State, s.bit Reg.TIDE_OUT_CFG 17 = true → s.servo ≠ 0 → ∃ t : State, exec .ppsOutRise s = .next t
    ∧ t.tide.ppsOut = true ∧ t = { s.passToNs (cdiv s.now 1000000000 * 1000000000) with tide := t.tide }) ∧
  (∀ s : State, s.bit Reg.TIDE_OUT_CFG 17 = false ∨ s.servo = 0 →
    exec .ppsOutRise s = .next (s.passToNs (cdiv s.now 1000000000 * 1000000000))) ∧
  (∀ s : State, s.tide.ppsOut = true → ∃ t : State, exec .ppsOutFall s = .next t ∧ t.tide.ppsOut = false
    ∧ t = { s.passToNs (s.now / 1000000000 * 1000000000 + 100000000) with tide := t.tide })

/-- Samples and masters: a Sync from the selected master is one offset sample; the algorithm's choice of a master is shown with
its identity and, when it replaces another, MASTER_CHANGE; a lost master or PPS input leaves ACQUIRING for FREERUN, LOCKING and
HOLDING for HOLDOVER; a PPS edge is timestamped and, with SOURCE 1, sampled (R138, R141, R146).
A module that may become master does when no master is heard (R135).
PTP messages: the master sends Sync with the egress timestamp; under the peer-to-peer profile a Pdelay_Req is sent; under the end-to-end
profile a Delay_Resp's path delay is shown, taken back by the port's delays, and a Delay_Req is answered by the master with the ingress
timestamp (R134 to R137). A Sync's sample is taken back by the port's INGRESS and the path delay (R136, R138). -/
def Obligations.PtpAndServoFollowTheSource : Prop :=
  ((∀ (s : State) (port : Nat) (off : Int), s.ptpOn port = true → s.tideSource = 0 → s.tide.masterUp = true →
    exec (.ptpSyncRx port off) s
      = .next (s.sample (off - s.fld (Reg.TIDE_PORT_DELAY + 4 * port) 15 0 - s.rd Reg.TIDE_PATH_DELAY)).afterServo) ∧
  (∀ (s : State) (port id pn steps old : Nat), s.ptpOn port = true → s.tide.master = some old → old ≠ id →
    ∃ t : State, exec (.ptpAnnounceRx port id pn steps 1) s = .next t ∧ t.tide.master = some id
      ∧ t.bit Reg.TIDE_EVENT 3 = true ∧ t.rd64 Reg.TIDE_MASTER_ID_W0 = id % 2 ^ 64
      ∧ (∀ a, Memory.read t.mem a = Memory.read s.mem a)) ∧
  (∀ s u : State, u = { s with tide := { s.tide with masterUp := false } } →
    (s.mayMaster = false → s.tideSource = 0 → s.servoMan = false → s.servoOff = false →
      exec .masterLost s = .next (if s.servo = 1 then u.freerun else if s.servo = 2 ∨ s.servo = 3 then u.holdover else u)) ∧
    (s.mayMaster = true → exec .masterLost s = .next (u.setBit Reg.TIDE_STATUS 10))) ∧
  (∀ s : State, s.tideSource = 1 → s.servoMan = false → s.servoOff = false →
    ∃ u : State, u = (s.setBit Reg.TIDE_STATUS 7).setBit Reg.TIDE_EVENT 6 ∧
      exec .ppsInLost s = .next (if u.servo = 1 then u.freerun else if u.servo = 2 ∨ u.servo = 3 then u.holdover else u)) ∧
  (∀ s : State, s.tideSource ≠ 1 → s.boot.phase ≠ .waitPtp → exec .ppsInEdge s = .next (s.wr64 Reg.TIDE_PPS_IN_TS_W0 s.now)) ∧
  (∀ s : State, s.tideSource = 1 → exec .ppsInEdge s
    = .next (((s.wr64 Reg.TIDE_PPS_IN_TS_W0 s.now).clrBit Reg.TIDE_STATUS 7).sample
        ((s.now : Int) - ((s.now + 500000000) / 1000000000 * 1000000000 : Nat))).afterServo)) ∧
  (∀ (s : State) (port delay : Nat), s.ptpOn port = true →
    (s.bit Reg.TIDE_STATUS 10 = true → exec (.ptpMessageTx 0 port) s
      = .next (s.emit (.ptp 0 port (s.now + s.fld (Reg.TIDE_PORT_DELAY + 4 * port) 31 16) 0))) ∧
    (s.fld Reg.TIDE_PTP_CFG 9 8 = 1 → exec (.ptpMessageTx 3 port) s = .next (s.emit (.ptp 3 port 0 0))) ∧
    (s.fld Reg.TIDE_PTP_CFG 9 8 ≠ 1 → exec (.ptpDelayMessageRx 2 port delay) s = .next (s.wr Reg.TIDE_PATH_DELAY
      ((delay - s.fld (Reg.TIDE_PORT_DELAY + 4 * port) 15 0 - s.fld (Reg.TIDE_PORT_DELAY + 4 * port) 31 16) / 2))) ∧
    (s.fld Reg.TIDE_PTP_CFG 9 8 ≠ 1 → s.bit Reg.TIDE_STATUS 10 = true → exec (.ptpDelayMessageRx 0 port delay) s
      = .next (s.emit (.ptp 4 port (s.now - s.fld (Reg.TIDE_PORT_DELAY + 4 * port) 15 0) 0))))

/-- Accepted corrections after a confirmed jump: STEP accepts a step of −c, SLEW a steered one; TIDE_ADJ adds a step; a
write while no jump is refused has no effect; a backward STEP beyond 16 periods is refused (R147 to R149). -/
def Obligations.CorrectionsAreAccepted : Prop :=
  (∀ (s : State) (agent : Nat), s.armBlocks agent Reg.TIDE_STEP_ACCEPT = false → s.bit Reg.TIDE_STATUS 4 = true →
    s.tide.corr ≤ (16 * s.pb : Nat) →
    exec (.stepAccept agent) s = .next ((s.acceptStep (-s.tide.corr)).setServo 2)) ∧
  (∀ (s : State) (agent : Nat), s.armBlocks agent Reg.TIDE_STEP_ACCEPT = false → s.bit Reg.TIDE_STATUS 4 = true →
    ((16 * s.pb : Nat) : Int) < s.tide.corr →
    exec (.stepAccept agent) s = .next (s.usageReg agent Reg.TIDE_STEP_ACCEPT)) ∧
  (∀ (s : State) (agent : Nat), s.armBlocks agent Reg.TIDE_STEP_ACCEPT = false → s.bit Reg.TIDE_STATUS 4 = false →
    exec (.stepAccept agent) s = .next s ∧ exec (.slewAccept agent) s = .next s) ∧
  (∀ (s : State) (agent : Nat), s.armBlocks agent Reg.TIDE_STEP_ACCEPT = false → s.bit Reg.TIDE_STATUS 4 = true →
    s.slewRefused s.tide.corr = false → s.servo = 4 →
    ∃ t : State, exec (.slewAccept agent) s = .next t ∧ t.servo = 2 ∧ t.tide.slewing = true
      ∧ t.bit Reg.TIDE_STATUS 4 = false ∧ t.tide.readTime = s.tide.readTime
      ∧ (s.tide.corr < 0 → t.tide.rate = clamp (-137438953) 137438953 (s.tide.estimate + ppm (s.fld Reg.TIDE_SLEW_MAX 7 0)))
      ∧ (0 < s.tide.corr → t.tide.rate = clamp (-137438953) 137438953 (s.tide.estimate - ppm (s.fld Reg.TIDE_SLEW_MAX 7 0)))) ∧
  (∀ (s : State) (agent v : Nat), s.armBlocks agent Reg.TIDE_ADJ_W1 = false → s.servoMan = true →
    exec (.tideAdjCommit agent v) s = .next (s.acceptStep (signed 64 v))) ∧
  (∀ (s : State) (agent v : Nat), s.armBlocks agent Reg.TIDE_ADJ_W1 = false → s.servoMan = false → s.tideSource = 1 → s.servo ≠ 0 →
    exec (.tideAdjCommit agent v) s = .next ((s.acceptStep (signed 64 v)).setServo 2)) ∧
  (∀ (s : State) (agent v : Nat), s.armBlocks agent Reg.TIDE_ADJ_W1 = false → s.servoMan = false → s.tideSource ≠ 1 →
    exec (.tideAdjCommit agent v) s = .next (s.usageReg agent Reg.TIDE_ADJ_W1))

/-- TIDE_HOLDOVER_LIMIT seconds of HOLDOVER: the status, the event and the warning 0x3203; nothing else changes (R143).
The reference input: lost, the PLLs change to the TCXO with status, event and warning; back, they return to it (R145). -/
def Obligations.HoldoverExpiryAndReferenceLoss : Prop :=
  (∀ s : State, s.servo = 4 → s.bit Reg.TIDE_STATUS 5 = false →
    exec .holdoverExpired s
      = .next ((((s.passTo (s.tide.holdover + s.rd Reg.TIDE_HOLDOVER_LIMIT * 1600000000)).setBit Reg.TIDE_STATUS 5).setBit
          Reg.TIDE_EVENT 5).report 0x3203 0x082 0 0)) ∧
  (∀ s : State, s.bit Reg.TIDE_CTRL 2 = true →
    (s.bit Reg.TIDE_STATUS 6 = false → exec .ref10mLoss s
      = .next (((({ s with tide := { s.tide with onRef := false } } : State).setBit Reg.TIDE_STATUS 6).setBit Reg.TIDE_EVENT 6).report
          0x3204 0x082 0 0)) ∧
    (s.bit Reg.TIDE_STATUS 6 = true → exec .ref10mReturn s
      = .next ((({ s with tide := { s.tide with onRef := true } } : State).clrBit Reg.TIDE_STATUS 6).setBit Reg.TIDE_EVENT 6)))

/-! ### Stream jobs (R185 to R275, R300, R344) -/

/-- A decode job whose checks pass runs to its own effect. ENTROPY_DECODE begins no picture while its quay is ABOVE_HIGH, begins one
otherwise, and completes when the quay holds its end-of-picture entry, the bitstream buffer freed (R71, R192, R193). RECONSTRUCT of a
picture whose regions are all committed reads the end-of-picture entry and finishes the picture; one whose quay holds nothing of it waits,
with UNDERRUN (R70, R200); a picture before the join point is discarded (R205). START awaits recovery with empty references (R187, R204),
STOP stops the stream (R213), READ_STATUS writes 64 bytes of the context (R185), FLUSH retires the references and awaits recovery (R204). -/
def Obligations.DecodeJobsRun : Prop :=
  ∀ (s : State) (u : Nat) (j : Job),
    (s.JobReady u 0x0101 true j →
      (s.quayFind u j.ctx j.seq = none → s.quayHigh u = true → ∀ o : CodedPic, exec (.entropyDecode u o) s = .next s) ∧
      (s.quayFind u j.ctx j.seq = none → s.quayHigh u = false → ∀ o : CodedPic,
        exec (.entropyDecode u o) s = .next ((s.tallyBegin o u j).tallyWrite u j.ctx j.seq)) ∧
      (∀ (o : CodedPic) (x : QuayPic), s.quayFind u j.ctx j.seq = some x → (s.quayFill u x).eop = 1 →
        (s.dec j.ctx).orphans.contains j.seq = false →
        exec (.entropyDecode u o) s = .next ((((s.quayPut u (s.quayFill u x)).giveBack u (j.s0 % two40)).setJob u
          { j with b1 := x.found.reason }).endJob u (if x.found.reason ≠ 0 then 3 else 0)))) ∧
    (s.JobReady u 0x0102 true j → ∀ o : PicOut,
      (s.quayFind (s.tlBerth j.ctx) j.ctx j.seq = none → exec (.reconstruct u o) s = .next (s.quayRead (s.tlBerth j.ctx))) ∧
      (∀ (x : QuayPic) (p : CodedPic), s.quayFind (s.tlBerth j.ctx) j.ctx j.seq = some x → x.runs = [] → x.eop = 1 → x.pic = some p →
        s.jobAt (s.tlBerth j.ctx) 0x0101 = none →
        ∃ v : State, v = (s.quayPut (s.tlBerth j.ctx) x).quayPut (s.tlBerth j.ctx) x ∧ v.mem = s.mem ∧ v.units = s.units
          ∧ exec (.reconstruct u o) s = .next (v.finishPic p o x false u j)
          ∧ ((s.dec j.ctx).joined = false → joinPoint (s.codec j.ctx) p = false →
              exec (.reconstruct u o) s = .next (v.discardPic u j 0)))) ∧
    (s.JobReady u 0x0103 false j → s.decStartCode j.ctx = 0 →
      ∃ t : State, exec (.decodeStart u) s = .next ((t.each (s.leafList u) State.spadNeed).endJob u 0)
        ∧ t.ctxState j.ctx = 1 ∧ (∀ i, i < 16 → t.refEntry j.ctx 128 i = 0) ∧ (t.dec j.ctx).since = s.tideNum) ∧
    (s.JobReady u 0x0104 false j → exec (.decodeStop u) s = .next (s.streamStopJob u j)) ∧
    (s.JobReady u 0x0105 false j → s.isMem (j.s0 % two40) = true → s.isMem (j.s0 % two40 + 63) = true →
      s.canWrite u (j.s0 % two40) 64 = .ok →
      ∃ v t : State, v = (s.writeMem u (j.s0 % two40) ((List.range 64).map (fun i => s.ctxByte j.ctx (64 + i)))).2
        ∧ exec (.decodeReadStatus u) s = .next (t.endJob u 0) ∧ t = v.setSf j.ctx 77 1 0
        ∧ (∀ i, i < 64 → Memory.read v.mem (j.s0 % two40 + i) = s.ctxByte j.ctx (64 + i) % 256)) ∧
    (s.JobReady u 0x0106 true j →
      ∃ t : State, exec (.flush u) s = .next (t.endJob u 0) ∧ (t.dec j.ctx).joined = false
        ∧ (s.ctxState j.ctx ≠ 3 → s.ctxState j.ctx ≠ 4 → t.ctxState j.ctx = 1))

/-- An encode or pilot job whose checks pass runs to its own effect. ENCODE drops a job without a picture (R224), begins no picture while
the one before is not entropy coded or the quay is ABOVE_HIGH, and waits then (R220, R259); ENTROPY_ENCODE of a picture whose regions are
all committed sends it (R222, R224, R258), of a dropped one ends with its status; START begins with an intra picture; STOP stops the
stream (R262); RESTART makes the next picture intra and abandons the sweep in progress (R252); FORCE_SWEEP is a refresh request naming the
current tide (R255); MODEL_READ copies the state record, MODEL_SEED keeps the classes for the next START (R275). -/
def Obligations.EncodeAndPilotJobsRun : Prop :=
  ∀ (s : State) (u : Nat) (j : Job),
    (s.JobReady u 0x0201 true j → ∀ o : EncOut,
      exec (.encode u o) s = .next (s.encodePic o u j) ∧
      (j.s0 ≠ 0 → (s.enc j.ctx).orphans.contains j.seq = false → (s.enc j.ctx).cur = none → s.quayHigh (s.tlBerth j.ctx) = true →
        exec (.encode u o) s = .next s) ∧
      (∀ (v : State) (bs rc hs : Nat) (held : List Nat), j.s0 ≠ 0 → (s.enc j.ctx).orphans.contains j.seq = false →
        (s.enc j.ctx).cur = none → s.quayHigh (s.tlBerth j.ctx) = false → s.encBuffers u j = (some (bs, rc, hs, held), v) →
        exec (.encode u o) s = .next (((v.tagPicture true o.tags j).encBegin o u j bs rc hs).encWrite j.ctx j.seq))) ∧
    (s.JobReady u 0x0202 true j → ∀ d : List Nat,
      (∀ q st, (s.enc j.ctx).cur = none → (s.enc j.ctx).dropped = some (q, st) → q = j.seq →
        exec (.entropyEncode u d) s = .next (s.endJob u st)) ∧
      (∀ (p : EncPic) (x : QuayPic), (s.enc j.ctx).cur = some p → p.seq = j.seq → p.done = true → s.tlBerth j.ctx = u →
        s.quayFind u j.ctx j.seq = some x → x.runs = [] → x.eop = 2 →
        ∃ v : State, v = (s.quayPut u x).quayPut u x ∧ v.mem = s.mem ∧ v.units = s.units
          ∧ exec (.entropyEncode u d) s = .next (v.encSent d u j p))) ∧
    (s.JobReady u 0x0203 false j → s.encStartCode j.ctx = 0 →
      ∃ t : State, exec (.encodeStart u) s = .next ((t.each (s.leafList u) State.spadNeed).endJob u 0)
        ∧ (t.enc j.ctx).intraNext = true ∧ (t.enc j.ctx).sweeping = false ∧ (t.enc j.ctx).request = none) ∧
    (s.JobReady u 0x0204 false j → exec (.encodeStop u) s = .next (s.streamStopJob u j)) ∧
    (s.JobReady u 0x0205 false j → s.isMem (j.s0 % two40) = true → s.isMem (j.s0 % two40 + 63) = true →
      s.canWrite u (j.s0 % two40) 64 = .ok →
      ∃ t : State, exec (.encodeReadStatus u) s = .next (t.endJob u 0)
        ∧ (∀ i, i < 64 → Memory.read t.mem (j.s0 % two40 + i) = s.ctxByte j.ctx (128 + i) % 256)) ∧
    (s.JobReady u 0x0206 true j → exec (.forceSweep u) s = .next ((s.refreshAsked j.ctx s.tideNum).endJob u 0)) ∧
    (s.JobReady u 0x0207 true j →
      exec (.restart u) s = .next ((s.setEnc j.ctx { s.enc j.ctx with intraNext := true, sweeping := false }).endJob u 0)) ∧
    (s.JobReady u 0x0601 false j → s.pilotCtx u j = true → j.s0 ≠ 0 → s.isMem (j.s0 % two40) = true →
      s.isMem (j.s0 % two40 + 127) = true → s.canWrite u (j.s0 % two40) 128 = .ok →
      ∃ t : State, exec (.modelRead u) s = .next (t.endJob u 0)
        ∧ (∀ i, i < 128 → Memory.read t.mem (j.s0 % two40 + i) = Memory.read s.mem (s.plRec j.ctx + i))) ∧
    (s.JobReady u 0x0602 false j → s.pilotCtx u j = true → s.ctxState j.ctx = 0 → j.s0 ≠ 0 → s.isMem (j.s0 % two40) = true →
      s.isMem (j.s0 % two40 + 23) = true → s.canRead (j.s0 % two40) 24 = .ok → s.memsys.flips = [] →
      ∃ t : State, exec (.modelSeed u) s = .next (t.endJob u 0) ∧ t.mem = s.mem
        ∧ (t.enc j.ctx).seed = some (Memory.readN s.mem (j.s0 % two40) 5, Memory.readN s.mem (j.s0 % two40 + 8) 5,
            Memory.readN s.mem (j.s0 % two40 + 16) 5))

/-- A job that a stop has marked, or whose checks fail, ends with that status and none of its effect: its buffers go back (R212);
where an address in its slots is unmapped, that is a usage event first (R34).
The repeat of a refresh request, the overrun of a customer window, its re-arming (R211, R291). -/
def Obligations.StoppedJobsEndAndWindowsAreControlled : Prop :=
  (∀ (s : State) (u : Nat) (j : Job) (st : Nat),
    (s.jobAt u 0x0102 = some j → j.stopWith = some st → ∀ o : PicOut, exec (.reconstruct u o) s = .next (s.abandonJob u st)) ∧
    (s.jobAt u 0x0102 = some j → j.stopWith = none → s.jobRefused j true = some st → ∀ o : PicOut,
      exec (.reconstruct u o) s
        = .next ((s.whenB (st = 0x21 && !j.badUnnamed && !j.badSlots) (State.ptrUsage u j)).abandonJob u st)) ∧
    (s.jobAt u 0x0201 = some j → j.stopWith = some st → ∀ o : EncOut, exec (.encode u o) s = .next (s.haltEnc u st)) ∧
    (s.jobAt u 0x0401 = some j → j.stopWith = some st → ∀ times : List Nat, exec (.transmit u times) s = .next (s.abandonJob u st))) ∧
  ((∀ (s : State) (c : Nat), s.ctxKind c = 1 → s.ctxState c = 1 → (s.dec c).points = [] → (s.dec c).sweepBegun = none →
    (s.dec c).asked + max 1 (s.sf c 26 1) ≤ s.tideNum → exec (.refreshRequestRepeat c) s = .next (s.askRefresh c)) ∧
  (∀ (s : State) (p c e x : Nat) (l : List (Nat × Nat × Nat)), s.winq p = (c, e, x) :: l → (s.unit p).micro.window.isSome = true →
    exec (.ucwOverrun p) s
      = .next (((((s.setPf c 49 1 (putBits (s.pf c 49 1) 0 0 1)).wr (ucb p Reg.PL_UCW_LAST) (c % 4096 + e * 4096)).inc
          (ucb p Reg.PL_UCW_OVERRUNS)).report 0x1A30 p 0 0).windowDone p)) ∧
  (∀ (s : State) (agent p v : Nat), s.armBlocks agent (ucb p Reg.PL_UCW_REARM) = false → v.testBit 31 = true →
    exec (.plUcwRearm agent p v) s
      = .next (s.each ((s.books.filter (fun k => decide (k.1 < 4096) && s.ctxState k.1 != 0
          && k.2.charges.any (fun x => x.1 = p && x.2.2 = 0))).map (fun k => k.1))
        (fun c s => s.setPf c 49 1 (putBits (s.pf c 49 1) 0 0 0)))))

/-! ### Composition and display (R297, R300, R322 to R324) -/

/-- COMPOSE of an output that has a layout composes it into a picture buffer and completes, and the output takes the picture (R300, R316);
one of an output with none is refused. A flip that passes its checks is pending for the tide it answers, the copy in force unchanged until
then (R297, R298). -/
def Obligations.ComposeAndFlip : Prop :=
  (∀ (s : State) (u : Nat) (host : List (Nat × List Nat)) (j : Job), s.JobReady u 0x0301 false j →
      (4096 ≤ j.ctx ∨ s.ctxState j.ctx ≠ 0) →
    exec (.compose u host) s = .next (s.composeJob u host j) ∧
    (1023 < s.composeLayout j.ctx → exec (.compose u host) s = .next (s.endJob u 0x20)) ∧
    (s.composeLayout j.ctx ≤ 1023 → j.s0 ≠ 0 →
      ∃ v : State, exec (.compose u host) s
        = .next ((v.composed j.ctx (s.laneP j.ctx) (j.s0 % two40) (if j.rerun then 0x31 else 0)).endJob u (if j.rerun then 0x31 else 0)))) ∧
  (∀ (s : State) (agent v : Nat), s.armBlocks agent Reg.CMP_LAYOUT_FLIP = false →
    (s.layoutSt (bits v 9 0)).pend = none → s.flipsFresh < 64 →
    s.layoutCheck (s.layoutAddr (bits v 9 0) (1 - (s.layoutSt (bits v 9 0)).copy)) = 0 →
    ∃ t : State, exec (.cmpLayoutFlip agent v) s = .next t ∧ (t.layoutSt (bits v 9 0)).pend = some s.effFrom
      ∧ (t.layoutSt (bits v 9 0)).copy = (s.layoutSt (bits v 9 0)).copy
      ∧ (∀ n, n ≠ bits v 9 0 → t.layoutSt n = s.layoutSt n) ∧ (∀ o, t.rd o = s.rd o)
      ∧ (∀ a, Memory.read t.mem a = Memory.read s.mem a)) ∧
  (∀ (s : State) (agent v : Nat), s.armBlocks agent Reg.CMP_LAYOUT_FLIP = false → (s.layoutSt (bits v 9 0)).pend.isSome = true →
    exec (.cmpLayoutFlip agent v) s = .next (s.usageReg agent Reg.CMP_LAYOUT_FLIP))

/-- The link of a display output follows hot-plug: low for 2 ms the sink is absent and the link is down; asserted, the sink's
lanes and rate are read and the link is trained; a lost link is trained again; training is tried again while the link is not up; a
third AUX timeout has been retried before the fault (R323, R324).
A frame begins: the composition for the current tide is shown when there is one; otherwise the picture shown is repeated and
counted; in the safe state the slate is shown (R319, R322). -/
def Obligations.DisplayFollowsTheSinkAndTheTide : Prop :=
  ((∀ (s : State) (n : Nat), n < 8 → ∃ t : State, exec (.hpdLow n) s = .next t ∧ (t.disp n).hpd = false ∧ (t.disp n).up = false
    ∧ (t.disp n).lanes = 0 ∧ (∀ m, m ≠ n → t.disp m = s.disp m)) ∧
  (∀ (s : State) (n lanes rate diag : Nat) (b : Bool), n < 8 → (s.disp n).hpd = false →
    exec (.hpdAssert n lanes rate diag b) s
      = .next (((((s.setBit (dreg Reg.DISP_OUT_EVENT n) 0).wrFld (dreg Reg.DISP_OUT_LANE_DIAG n) 7 0 diag).setDisp n
          { s.disp n with hpd := true, sinkLanes := lanes, sinkRate := rate, aux := 0 }).train n b))) ∧
  (∀ (s : State) (n : Nat) (b : Bool), n < 8 → (s.disp n).hpd = true →
    exec (.irqHpd n true b) s = .next (s.train n b) ∧ exec (.irqHpd n false b) s = .next s) ∧
  (∀ (s : State) (n : Nat) (b : Bool), n < 8 → (s.disp n).hpd = true → (s.disp n).up = false →
    exec (.linkTrainingRetry n b) s = .next (s.train n b)) ∧
  (∀ (s : State) (n : Nat), n < 8 → (s.disp n).aux < 3 →
    exec (.auxTimeout n) s = .next (s.setDisp n { s.disp n with aux := (s.disp n).aux + 1 })) ∧
  (∀ (s : State) (n : Nat), n < 8 → 3 ≤ (s.disp n).aux →
    exec (.auxTimeout n) s = .next (((s.setDisp n { s.disp n with aux := 0 }).setBit (dreg Reg.DISP_OUT_LANE_DIAG n) 8).report
      0x3B40 0xFFF 0 (regAddr (dreg Reg.DISP_OUT_LANE_DIAG n)))) ∧
  (∀ (s : State) (n lane : Nat) (b : Bool), n < 8 → lane < 4 →
    exec (.laneFault n lane 2 b) s
      = .next ((((s.wrFld (dreg Reg.DISP_OUT_LANE_DIAG n) (2 * lane + 1) (2 * lane) 2).setBit (dreg Reg.DISP_OUT_EVENT n) 2).report
          0x3B40 0xFFF 0 (regAddr (dreg Reg.DISP_OUT_LANE_DIAG n))).train n b))) ∧
  (∀ (s : State) (n : Nat), n < 8 → s.bit (dreg Reg.DISP_OUT_CTRL n) 0 = true →
    ((s.disp n).slate = true → exec (.displayVsync n) s = .next (s.emit (.frame n 0 3))) ∧
    ((s.disp n).slate = false → s.tideNum % s.dispDiv n = 0 → s.dispLayout n s.tideNum ≤ 1023 →
      (∀ p a, (s.disp n).ready.find? (fun p => p.1 = s.tideNum) = some (p, a) →
        ∃ t : State, exec (.displayVsync n) s = .next t ∧ (t.disp n).shown = a ∧ (t.disp n).locked = (s.disp n).up
          ∧ (∀ o, t.rd o = s.rd o) ∧ (∀ b, Memory.read t.mem b = Memory.read s.mem b)) ∧
      ((s.disp n).ready.find? (fun p => p.1 = s.tideNum) = none →
        ∃ t : State, exec (.displayVsync n) s = .next t ∧ (t.disp n).shown = (s.disp n).shown
          ∧ t.bit (dreg Reg.DISP_OUT_EVENT n) 3 = true ∧ (∀ b, Memory.read t.mem b = Memory.read s.mem b))))

/-! ### The network and the feeder ports (R330 to R367, R597) -/

/-- Links and received frames: a link that comes up or goes down shows it, sets its event and warns; a datagram that arrives on a
port that is up, with a good frame check, is classified and taken as its class says; a bad frame is counted and dropped; a
neighbour request is answered; a refresh request to this node reaches its running encode context (R330, R333, R352). -/
def Obligations.NetworkReceives : Prop :=
  (∀ (s : State) (k sp : Nat) (lf rf : Bool), s.portExists k = true → s.bit (nreg Reg.NET_PORT_STATUS k) 0 = true →
    exec (.netLinkChange k false false lf rf sp) s
      = .next (((s.wr (nreg Reg.NET_PORT_STATUS k) (4 * b2n lf + 8 * b2n rf)).setBit Reg.NET_EVENT k).report 0x3C03 0xFFF 0 0)) ∧
  (∀ (s : State) (k sp : Nat), s.portExists k = true → s.outputsOn = true → s.bit (nreg Reg.NET_PORT_CTRL k) 0 = true →
    s.bit (nreg Reg.NET_PORT_STATUS k) 0 = false →
    ∃ t : State, exec (.netLinkChange k true true false false sp) s = .next t ∧ t.bit (nreg Reg.NET_PORT_STATUS k) 0 = true
      ∧ t.bit Reg.NET_EVENT k = true ∧ (∀ a, Memory.read t.mem a = Memory.read s.mem a)) ∧
  (∀ (s : State) (d : Datagram), s.portUp d.port = true → d.fcsOk = false →
    exec (.ingressDatagram d) s
      = .next (((s.bump (nreg Reg.NET_PORT_FEC_CORR_LAST d.port) d.fecCorr).bump (nreg Reg.NET_PORT_FEC_UNCORR_LAST d.port) d.fecBad).bump
          (nreg Reg.NET_PORT_FCS_ERR_LAST d.port) 1)) ∧
  (∀ (s : State) (d : Datagram), s.portUp d.port = true → d.fcsOk = true → d.frame ≤ 9022 → d.proto = 0 → d.fragment = false →
    ∃ u : State, u = ((s.bump (nreg Reg.NET_PORT_FEC_CORR_LAST d.port) d.fecCorr).bump (nreg Reg.NET_PORT_FEC_UNCORR_LAST d.port)
        d.fecBad).bump (nreg Reg.NET_PORT_RX_BYTES_LAST d.port) d.frame ∧
      (u.classify d = none → exec (.ingressDatagram d) s = .next (u.bump Reg.NET_RX_UNMATCHED_LAST 1)) ∧
      (∀ i v, u.classify d = some i → u.policeAt i d.len = (false, v) → exec (.ingressDatagram d) s = .next v) ∧
      (∀ i v, u.classify d = some i → u.policeAt i d.len = (true, v) →
        (v.cf i 1 1 = 1 ∨ v.cf i 1 1 = 2 → exec (.ingressDatagram d) s = .next ((v.notePath i d).rxPacket i d)) ∧
        (v.cf i 1 1 = 3 → exec (.ingressDatagram d) s = .next ((v.notePath i d).tsNet ((v.notePath i d).rxKey i) i
          (v.notePath i d).tideNum ((v.notePath i d).elemOf ((v.notePath i d).cf i 10 2) d) d.data)) ∧
        (v.cf i 1 1 = 4 → exec (.ingressDatagram d) s = .next (v.feedback d.data)) ∧
        (v.cf i 1 1 = 5 → exec (.ingressDatagram d) s = .next (v.stormFlow d)) ∧
        (v.cf i 1 1 = 7 → exec (.ingressDatagram d) s = .next (v.toHost i d)))) ∧
  (∀ (s : State) (k : Nat), s.portUp k = true → 7 ≤ s.bootStep → s.watch.pairsFenced.length < 2 →
    s.rd (nreg Reg.NET_PORT_IP4 k) ≠ 0 → exec (.neighbourRequestRx k 0) s = .next (s.emit (.neighbour k 0))) ∧
  (∀ (s : State) (i : Nat), i < 65536 → s.classOn i = true → (s.cf i 1 1 = 1 ∨ s.cf i 1 1 = 2) →
    exec (.mergeWindowExpiry i) s = .next (s.rxRelease (s.rxKey i) i ((s.rxAt (s.rxKey i)).pics.length + 1) true)) ∧
  (∀ (s : State) (p : List Nat), p.length = 28 → beN p 0 1 = 0x81 → beN p 1 1 = 204 → beN p 2 2 = 6 → beN p 8 4 = 0x544E4642 →
    beN p 12 2 = s.fld Reg.NET_NODE 15 0 → beN p 14 2 < 4096 → s.ctxKind (beN p 14 2) = 2 → s.ctxState (beN p 14 2) = 2 →
    s.ctrlBit (beN p 14 2) 0 = true →
    exec (.feedbackRx p) s = .next ((s.refreshAsked (beN p 14 2) (beN p 16 6)).setBit Reg.NET_EVENT 12))

/-- TRANSMIT packetises and sends the picture, gives its buffer back and completes, unless a closed gate holds a packet; what still runs
at the completion deadline completes DEADLINE_MISSED, its unsent packets discarded (R344, R345, R348, R400).
A path of a protected pair or flow that is lost is reported once, and the report ends when no port is lost (R597). -/
def Obligations.TransmitAndPathLoss : Prop :=
  ((∀ (s : State) (u : Nat) (j : Job) (times : List Nat), s.JobReady u 0x0401 false j → j.s0 ≠ 0 →
    ((s.txPlan j times).any (fun p => p.2.isNone) = false → exec (.transmit u times) s
      = .next (((s.sendPic u j ((s.txPlan j times).map (fun p => p.1)) 0).giveBack u (j.s0 % two40)).endJob u 0)) ∧
    ((s.txPlan j times).any (fun p => p.2.isNone) = true → exec (.transmit u times) s = .next s)) ∧
  (∀ (s : State) (u : Nat) (j : Job) (times : List Nat) (l go : List (List Nat × Option Nat)), unitKind u = some .egress →
    s.jobAt u 0x0401 = some j → (∀ v, v ≠ u → s.jobAt v 0x0401 = none) → l = s.txPlan j times →
    go = (l.take times.length).filter (fun p => p.2.any (fun t => decide (t ≤ s.now))) →
    exec (.completionDeadline [(u, times)]) s = .next (((s.sendPic u j (go.map (fun p => p.1)) (l.length - go.length)).giveBack u
      (j.s0 % two40)).endJob u 0x30)) ∧
  (∀ (s : State) (outs : List (Nat × List Nat)), (∀ u, s.jobAt u 0x0401 = none) → exec (.completionDeadline outs) s = .next s)) ∧
  ((∀ (s : State) (k : Nat), s.portExists k = true → s.bit (nreg Reg.NET_PORT_STATUS k) 0 = false → s.portProtected k = true →
    s.pathLost.contains k = false →
    exec (.pathLost k) s = .next (({ s with pathLost := s.pathLost ++ [k] } : State).report 0x5C04 0xFFF 0 0)) ∧
  (∀ (s : State) (k : Nat), s.bit (nreg Reg.NET_PORT_STATUS k) 0 = true → s.pathLost = [k] →
    exec (.pathLostEnds k) s = .next (({ s with pathLost := [] } : State).endCond 0x5C04 0xFFF)))

/-- The feeder ports: a good packet of a locked port joins the FIFO while fewer than 256 wait; the host reads word by word in host
mode; the demultiplexer reads in the other; silence, a shorted HOLD and the pin test are recorded (R361, R365 to R367). -/
def Obligations.FeederPortsReceive : Prop :=
  (∀ (s : State) (n : Nat) (bs : List Nat), n < 2 → s.bit (freg Reg.FEED_CTRL n) 0 = true → s.bit (freg Reg.FEED_CTRL n) 3 = false →
    s.bit (freg Reg.FEED_STATUS n) 0 = true → (s.feed n).fifo.length < 256 → bs.length = 188 → bs.head? = some 0x47 →
    ∃ t : State, exec (.feederPacket n bs [0] true) s = .next t ∧ (t.feed n).fifo = (s.feed n).fifo ++ [(s.tideNum, bs)]
      ∧ (∀ a, Memory.read t.mem a = Memory.read s.mem a)) ∧
  (∀ (s : State) (agent n d : Nat) (p : List Nat) (ps : List (Nat × List Nat)), n < 2 → s.bit (freg Reg.FEED_CTRL n) 1 = true →
    (s.feed n).fifo = (d, p) :: ps →
    ∃ t : State, exec (.feednDataRead agent n) s
        = .next (t.emit (.readData agent (freg Reg.FEED_DATA n) (leNat ((p.drop (4 * (s.feed n).word)).take 4))))
      ∧ (t.feed n).fifo = (if 46 ≤ (s.feed n).word then ps else (d, p) :: ps)
      ∧ (t.feed n).word = (if 46 ≤ (s.feed n).word then 0 else (s.feed n).word + 1)
      ∧ (∀ a, Memory.read t.mem a = Memory.read s.mem a)) ∧
  (∀ (s : State) (n d : Nat) (p : List Nat) (ps : List (Nat × List Nat)), n < 2 → s.bit (freg Reg.FEED_CTRL n) 1 = false →
    (s.feed n).fifo = (d, p) :: ps → needsBuffer p = false → s.feedFilters n p = [] →
    exec (.demuxRead n) s = .next ((s.setFeed n { s.feed n with fifo := ps, word := 0 }).feedShow n)) ∧
  (∀ (s : State) (n : Nat), n < 2 → s.bit (freg Reg.FEED_CTRL n) 0 = true → s.bit (freg Reg.FEED_STATUS n) 2 = false →
    exec (.feederSilent n) s = .next ((s.setBit (freg Reg.FEED_STATUS n) 2).setBit (freg Reg.FEED_EVENT n) 3)) ∧
  (∀ (s : State) (n : Nat), n < 2 → (s.feed n).driverOff = none →
    ∃ t : State, exec (.holdShort n) s = .next t ∧ (t.feed n).driverOff = some (s.now + 10000000)
      ∧ t.bit (freg Reg.FEED_PIN_DIAG n) 16 = true ∧ t.bit (freg Reg.FEED_EVENT n) 4 = true) ∧
  (∀ (s : State) (n pins : Nat), n < 2 → pins < 2048 →
    ∃ t : State, exec (.feederPinTest n pins) s = .next t ∧ t.fld (freg Reg.FEED_PIN_DIAG n) 10 0 = pins
      ∧ t.bit (freg Reg.FEED_STATUS n) 1 = false ∧ (∀ a, Memory.read t.mem a = Memory.read s.mem a))

/-! ### The harbourmaster's queues, bookings and gates (R374 to R414) -/

/-- Queue commands: an accepted post moves PROD and has heads looked at; a post to a queue that is not running is counted, shown in the
context and reported; READ answers with error 0 and writes only HM_QC_DATA and the status; WRITE refuses a context with a field out of
range and a display compose queue, ENABLE one with a field out of range; ENABLE starts an idle queue and DISABLE stops a running one; a
context not cached is loaded; a job whose deadline passes undispatched completes with status 0x30. -/
def Obligations.QueueCommandsAct : Prop :=
  (∀ (s : State) (agent q i : Nat), q < 1048576 → i < two32 → s.armBlocks agent 0x100100 = false → s.qState q = 1 →
    ¬(4104 ≤ q ∧ q < 4128) → s.qFlag q 1 = false → s.qClass q ≠ 3 → sub32 i (s.qProd q) ≤ 2 ^ 31 →
    sub32 i (s.qDone q) ≤ s.qSize q →
    ∃ t : State, exec (.hmDoorbell agent q i) s = .next t.dispatch ∧ t.qProd q = i ∧ t.qDone q = s.qDone q
      ∧ (t.queue q).posts.getLast? = some (i, s.now)) ∧
  (∀ (s : State) (agent q i : Nat), q < 1048576 → i < two32 → s.armBlocks agent 0x100100 = false → s.qState q ≠ 1 →
    ¬(4104 ≤ q ∧ q < 4128) → exec (.hmDoorbell agent q i) s
      = .next (((((s.setQErr q 1).bump Reg.HM_DOORBELL_BAD_LAST 1).setBit Reg.HM_EVENT 0).report 0x1402 agent 6 q).dispatch)) ∧
  (∀ (s : State) (agent q : Nat), s.armBlocks agent Reg.HM_QC_CMD = false → s.fld Reg.HM_QC_SEL 19 0 = q →
    ∃ t : State, exec (.qcRead agent) s = .next (t.dispatch) ∧ t.rd Reg.HM_QC_STATUS = 0 ∧ t.mem = s.mem
      ∧ (∀ o, o ≠ Reg.HM_QC_STATUS → (o < Reg.HM_QC_DATA ∨ Reg.HM_QC_DATA + 64 ≤ o) → t.rd o = s.rd o)) ∧
  (∀ (s : State) (agent q : Nat), s.armBlocks agent Reg.HM_QC_CMD = false → s.fld Reg.HM_QC_SEL 19 0 = q →
    (qcBad s.qcN = true → exec (.qcWrite agent) s = .next ((s.wr Reg.HM_QC_STATUS 16).dispatch)) ∧
    (qcBad s.qcN = false → 4104 ≤ q → q < 4128 → exec (.qcWrite agent) s = .next ((s.wr Reg.HM_QC_STATUS 32).dispatch)) ∧
    (qcBad s.qcN = false → 4128 ≤ q → (s.qcMoves q = true → s.qIdle q = true) →
      ((s.qcByte 10).testBit 2 = true → s.qFlag q 2 = true ∨ s.pinned < 12288) →
      ∃ t : State, exec (.qcWrite agent) s = .next (t.dispatch) ∧ t.rd Reg.HM_QC_STATUS = 0 ∧
        (∀ o, o ≠ Reg.HM_QC_STATUS → (s.qcByte 10).testBit 3 = false → t.rd o = s.rd o))) ∧
  (∀ (s : State) (agent q : Nat), s.armBlocks agent Reg.HM_QC_CMD = false → s.fld Reg.HM_QC_SEL 19 0 = q → 4128 ≤ q →
    (qcBad (s.qf q) = true → exec (.qcEnable agent) s = .next ((s.wr Reg.HM_QC_STATUS 16).dispatch)) ∧
    (qcBad (s.qf q) = false → s.qRate q = 0 → s.qIdle q = true →
      exec (.qcEnable agent) s = .next (((s.queueStart q).wr Reg.HM_QC_STATUS 0).dispatch)) ∧
    (s.qState q = 1 →
      exec (.qcDisable agent) s = .next (((s.queueStop q (s.qFlag q 3)).wr Reg.HM_QC_STATUS 0).dispatch))) ∧
  (∀ (s : State) (q : Nat), (s.queue q).cached = true → exec (.qctxLoad q) s = .next s.dispatch) ∧
  (∀ (s : State) (q : Nat), (s.queue q).cached = false → ∃ t : State, exec (.qctxLoad q) s = .next t.dispatch
    ∧ (t.queue q).cached = true ∧ t.mem = s.mem) ∧
  (∀ (s : State) (q i : Nat) (j : Job), j = s.readJob q i (s.qSlot q i) → s.qState q = 1 →
    sub32 i (s.qDisp q) < sub32 (s.qProd q) (s.qDisp q) → j.deadline ≠ 0 → s.pastDeadline j = true → (s.queue q).completed.contains i = false →
    s.canRead (s.qSlot q i) 64 ≠ .busError → s.badCompletion j.completion = false →
    exec (.dispatchDeadlineExpiry q i) s = .next ((s.completeUndispatched q j 0x30).dispatch))

/-- A booking command leaves its result, its context and an event; a context that is not stopped, or is booked already, and an output
above 7 are refused with code 1; a withdrawn context is booked no more.
Gates: a swap is staged unless it is to be refused; a pending list becomes operational with its entries and change instant;
an entry change moves one entry on, round the list (R398, R399, R414). -/
def Obligations.BookingCommandsAndGates : Prop :=
  (∀ (s : State) (agent c : Nat), c < 4096 → s.armBlocks agent Reg.HM_BOOK_CMD = false →
    exec (.book agent c) s = .next ((bookStatus c (s.bookCtx c)).dispatch)
    ∧ exec (.withdraw agent c) s = .next (bookStatus c (s.withdraw c))
    ∧ exec (.bookOutput agent c) s = .next ((bookStatus c (s.bookOutput c)).dispatch)
    ∧ (∀ r : Nat × State, (bookStatus c r).rd Reg.HM_BOOK_STATUS = (r.1 * 16 + c * 65536) % two32
        ∧ (bookStatus c r).bit Reg.HM_EVENT 4 = true ∧ (bookStatus c r).mem = r.2.mem)
    ∧ (s.books.any (fun k => k.1 = c) = true → s.bookCtx c = (1, s))
    ∧ (s.ctxState c ≠ 0 → s.bookCtx c = (1, s) ∧ s.withdraw c = (1, s))
    ∧ (7 < c → s.bookOutput c = (1, s))
    ∧ (s.books.any (fun k => k.1 = c) = true → s.ctxState c = 0 →
        (s.withdraw c).1 = 0 ∧ (SMap.wf (fun _ => Booking.reset) s.books = true →
          ((s.withdraw c).2.books.any (fun k => k.1 = c)) = false))) ∧
  (∀ (s : State) (k : Nat), k < 16 →
    (∀ agent v, s.armBlocks agent (Reg.HM_GATE_SWAP + 0x40 * k) = false → s.swapRefused k = false →
      exec (.hmGateSwap agent k v) s = .next ((s.stage (Reg.HM_GATE_SWAP + 0x40 * k) (v % 2)).runtimeChanged false)) ∧
    (∀ agent v, s.armBlocks agent (Reg.HM_GATE_SWAP + 0x40 * k) = false → s.swapRefused k = true →
      exec (.hmGateSwap agent k v) s = .next (s.usageReg agent (Reg.HM_GATE_SWAP + 0x40 * k))) ∧
    ((s.gate k).pend = true → ∃ t : State, exec (.gateListTakeover k) s = .next t.dispatch ∧ (t.gate k).oper = true
      ∧ (t.gate k).pend = false ∧ (t.gate k).entries = (s.gate k).nextEntries ∧ (t.gate k).change = (s.gate k).nextChange
      ∧ (∀ n, n ≠ k → t.gate n = s.gate n) ∧ t.mem = s.mem) ∧
    ((s.gate k).oper = true → ∃ t : State, exec (.gateEntryChange k) s = .next t.dispatch
      ∧ t.gate k = { s.gate k with entry := if (s.gate k).entry + 1 < (s.gate k).entries.length then (s.gate k).entry + 1 else 0 }
      ∧ (∀ n, n ≠ k → t.gate n = s.gate n) ∧ t.regs = s.regs ∧ t.mem = s.mem))

/-- UCB_CTRL moves the engine as R47 lists: a stopped unit is enabled, an idle one stops, a running one quiesces or halts, a stopped
or idle unit of a kind that may be a spare becomes one, and a spare leaves SPARE only with presence; a fenced unit is not enabled
(R47, R50). A group's registers are written only while it is not enabled (R58); a watermark word is stored (R75); each accepted write sets
RUNTIME_CHANGED (R109). -/
def Obligations.UnitControlMovesTheEngine : Prop :=
  (∀ (s : State) (agent u : Nat) (k : Kind), s.armBlocks agent (ucb u Reg.UCB_CTRL) = false → unitKind u = some k →
    s.bit (ucb u Reg.UCB_CTRL) 2 = false →
    (s.eng u = .stopped → (k = .group → s.groupCheck u = 0) →
      ∃ v : State, exec (.unitEnable agent u) s = .next ((v.afterSpares s).dispatch) ∧ v.eng u = .idle
        ∧ (v.unit u).cfgErr = 0 ∧ v.bit (ucb u Reg.UCB_CTRL) 0 = true ∧ v.mem = s.mem) ∧
    (s.eng u = .fenced → exec (.unitEnable agent u) s = .next (s.cfgRefuse u 7)) ∧
    (s.eng u = .idle → (s.unit u).reEnable = false → ∀ h : Bool,
      ∃ v : State, exec (.unitDisable agent u h) s = .next ((v.afterSpares s).dispatch) ∧ v.eng u = .stopped
        ∧ v.bit (ucb u Reg.UCB_CTRL) 0 = false ∧ v.mem = s.mem) ∧
    (s.eng u = .running → ∀ h : Bool, exec (.unitDisable agent u h) s
      = .next (((((((s.cfgAccept u).wr (ucb u Reg.UCB_CTRL) (putBits (s.rd (ucb u Reg.UCB_CTRL)) 1 0 (2 * b2n h) % 8)).runtimeChanged
          false).stopRunning u h).afterSpares s).dispatch))) ∧
    (s.eng u = .running → s.bit (ucb u Reg.UCB_CTRL) 0 = true →
      exec (.stopModeHalt agent u) s
        = .next ((((((s.cfgAccept u).wr (ucb u Reg.UCB_CTRL) 3).runtimeChanged false).afterSpares s).dispatch))) ∧
    (s.eng u = .quiescing → s.bit (ucb u Reg.UCB_CTRL) 0 = false →
      exec (.stopModeHalt agent u) s
        = .next ((((((((s.cfgAccept u).wr (ucb u Reg.UCB_CTRL) 2).runtimeChanged false).setUnitF u (fun x => { x with
          reEnable := false })).stopRunning u true).afterSpares s).dispatch))) ∧
    (k.spareOk = true → s.eng u = .stopped ∨ s.eng u = .idle →
      ∃ v : State, exec (.spareSet agent u) s = .next ((v.afterSpares s).dispatch) ∧ v.eng u = .spare
        ∧ (v.unit u).standsFor = none ∧ v.mem = s.mem)) ∧
  (∀ (s : State) (agent u : Nat) (k : Kind), s.armBlocks agent (ucb u Reg.UCB_CTRL) = false → unitKind u = some k →
    s.eng u = .spare →
    (s.boot.arm = true → s.present = true →
      ∃ v : State, exec (.spareClear agent u) s = .next ((v.afterSpares s).dispatch) ∧ v.eng u = .stopped ∧ v.mem = s.mem) ∧
    ((s.boot.arm && s.present) = false → exec (.spareClear agent u) s = .next (s.cfgRefuse u 8))) ∧
  (∀ (s : State) (agent u v : Nat), s.armBlocks agent (ucb u Reg.UCB_GRP_CTRL) = false → unitKind u = some .group →
    (s.groupOn u = true → exec (.groupCtrlWrite agent u v) s = .next (s.cfgRefuse u 3)) ∧
    (s.groupOn u = false → bits v 8 0 ≠ 0 →
      exec (.groupCtrlWrite agent u v) s
        = .next (((s.wr (ucb u Reg.UCB_GRP_CTRL) (Nat.land v 0x31FF)).cfgAccept u).runtimeChanged false)) ∧
    (s.groupOn u = false → bits v 8 0 = 0 → exec (.groupCtrlWrite agent u v) s
      = .next ((((s.dissolve u).wr (ucb u Reg.UCB_GRP_CTRL) (Nat.land v 0x31FF)).cfgAccept u).runtimeChanged false))) ∧
  (∀ (s : State) (agent o v d : Nat), wmDepth o = some d → s.armBlocks agent o = false →
    (wmRefused (v % two32) d = false →
      exec (.quayWatermarkWrite agent o v) s = .next ((s.wr o (v % two32)).runtimeChanged false)) ∧
    (wmRefused (v % two32) d = true → exec (.quayWatermarkWrite agent o v) s = .next (s.usageReg agent o)))

/-! ### Power and memory (R415 to R473) -/

/-- An input's voltage crosses a threshold: its state is judged with the hysteresis of R415; a tripped input stays tripped. An input
that holds its limit trips; a retry without fault at a good voltage restores it, one that finds the fault is counted. A single feed is
reported once, until the input is good again (R415 to R418).
The thresholds of an input: absent below 18 V, under below 35 V and, once good, until 33 V; high from 80 V and until 78 V; reversed
below −1 V (R415). -/
def Obligations.PowerInputsFollowTheirVoltage : Prop :=
  (∀ (s : State) (b : Bool) (mv : Int),
    ((s.input b).st ≠ .tripped → ∃ t : State, exec (.inputStateChange b mv) s = .next t
      ∧ (t.input b).st = inputAt (s.input b).st mv ∧ t.input (!b) = s.input (!b)
      ∧ (s.boot.phase = .unpowered → inputAt (s.input b).st mv = .ok → t.boot.phase = .resetHeld)
      ∧ (s.boot.phase ≠ .unpowered → t.boot.phase = s.boot.phase)) ∧
    ((s.input b).st = .tripped → ∃ t : State, exec (.inputStateChange b mv) s = .next t ∧ (t.input b).st = .tripped) ∧
    ((s.input b).st = .ok → ∃ t : State, exec (.efuseTrip b) s = .next t ∧ (t.input b).st = .tripped
      ∧ t.input (!b) = s.input (!b)) ∧
    ((s.input b).st = .tripped → s.boot.phase ≠ .unpowered →
      exec (.efuseRetry b true mv) s = .next (s.countTrip b)) ∧
    ((s.input b).st = .tripped → 35000 ≤ mv → mv < 80000 →
      ∃ t : State, exec (.efuseRetry b false mv) s = .next t ∧ (t.input b).st = .ok ∧ t.input (!b) = s.input (!b)) ∧
    (s.expected b = true → (s.input b).st ≠ .ok → (s.input b).single = false →
      exec (.singleFeed b) s = .next ((s.setInput b { s.input b with single := true }).report 0x3302 noAgent 0 0)) ∧
    ((s.input b).st = .ok → exec (.singleFeedClears b) s = .next (s.setInput b { s.input b with single := false }))) ∧
  (∀ (old : InState) (mv : Int),
    (mv < -1000 → inputAt old mv = .reversed) ∧ (-1000 ≤ mv → mv < 18000 → inputAt old mv = .absent) ∧
    (18000 ≤ mv → mv < 33000 → inputAt old mv = .under) ∧ (35000 ≤ mv → mv < 78000 → inputAt old mv = .ok) ∧
    (33000 ≤ mv → mv < 35000 → inputAt old mv = (if old = .ok ∨ old = .high then .ok else .under)) ∧
    (78000 ≤ mv → mv < 80000 → inputAt old mv = (if old = .high then .high else .ok)) ∧ (80000 ≤ mv → inputAt old mv = .high))

/-- Samples: a power sample shows the input power, the hold-up voltage and the inputs' voltages, and keeps the load on P3V3_OUT; the efficiency is held within 800 to
980; a junction temperature below 115 °C with the baseplate within its limit is only shown; the governor lowers effort when the bucket
covers less; a window above 105 % of the ceiling marks the next tide, one at or below the ceiling ends that; a coefficient reset forgets
every measured coefficient. Gates: a unit with nothing to do is clock-gated and wakes when asked or before booked work; an ON bank not
held ON goes to retention. -/
def Obligations.PowerSamplesAndGates : Prop :=
  (∀ (s : State) (r : PowerReading), ∃ t : State, exec (.powerSample r) s = .next t ∧ t.rd Reg.PWR_IN_MW = r.mw % two32
    ∧ t.rd Reg.PWR_HOLDUP_MV = r.holdup % two32 ∧ (t.input false).mv = r.mvA ∧ (t.input true).mv = r.mvB
    ∧ t.power.p3v3 = r.p3v3 ∧ t.mem = s.mem) ∧
  (∀ (s : State) (eff fixed : Nat), exec (.efficiencyUpdate eff fixed) s
    = .next ((s.wr Reg.PWR_EFF (max 800 (min 980 eff))).wr Reg.PWR_FIXED_MW fixed)) ∧
  (∀ (s : State) (tj : Int), tj < 115 → s.power.tb ≤ s.gradeLimit →
    ∃ t : State, exec (.temperatureSample [] [tj] []) s = .next t ∧ t.power = { s.power with tj := tj }
      ∧ (∀ o, o ≠ Reg.PWR_TEMP → t.rd o = s.rd o) ∧ t.mem = s.mem) ∧
  (∀ s : State, (s.running = false ∨ s.bit Reg.PWR_GOV_CTRL 0 = false ∨ s.power.above = true) →
    exec .governorRecheck s = .next s) ∧
  (∀ s : State, s.running = true → s.bit Reg.PWR_GOV_CTRL 0 = true → s.power.above = false →
    (s.gCalc s.toDispatch).getD 0 < s.gov →
    exec .governorRecheck s = .next (s.setGov ((s.gCalc s.toDispatch).getD 0) (s.gCalc s.toDispatch).isNone)) ∧
  (∀ (s : State) (mw : Nat), 105 * (s.ceilEff * 1000) < 100 * mw → ∃ t : State, exec (.powerWindow mw) s = .next t
    ∧ t.power.overNext = true ∧ t.power.overRun = s.power.overRun + 1 ∧ t.bit Reg.PWR_EVENT 6 = true ∧ t.mem = s.mem) ∧
  (∀ (s : State) (mw : Nat), mw ≤ s.ceilEff * 1000 → ∃ t : State, exec (.powerWindow mw) s = .next t
    ∧ t.power.overNext = false ∧ t.power.overRun = 0 ∧ t.power.above = false ∧ t.bit Reg.PWR_GOV_STATUS 4 = false) ∧
  (∀ (s : State) (agent v : Nat), s.armBlocks agent Reg.PWR_COEF_RESET = false → v.testBit 0 = true →
    exec (.pwrCoefReset agent v) s = .next { s with power := { s.power with coefs := [] } }) ∧
  (∀ (s : State) (u : Nat), isLeaf u = true → (s.unit u).eng = .idle → (s.unit u).job = none →
    (s.unit (s.berthRoot u)).job = none → (s.unit u).pow = .on → s.forceOn u = false →
    exec (.clockGate u) s = .next (s.setUnit u { s.unit u with pow := .clockGated })) ∧
  (∀ (s : State) (u : Nat), isLeaf u = true → s.watch.safe = false → s.mustGate u = false → (s.unit u).eng ≠ .fenced →
    exec (.unitWake u) s = .next ((s.setUnit u { s.unit u with pow := .on }).dispatch)
    ∧ (deepKind u = true → (s.unit u).pow = .powerGated → s.bookedWork (s.berthRoot u) (s.tideNum + 1) = true →
      exec (.deepGateWake u) s = .next ((s.setUnit u { s.unit u with pow := .on }).dispatch))) ∧
  (∀ (s : State) (g i : Nat), g < 48 → i < s.fld (spadCtrl g) 22 16 → s.bankSt g i = 2 → s.bit (spadCtrl g) 8 = false →
    exec (.spadBankRetention g i) s = .next (s.setBankSt g i 1))

/-- Refresh, link checks and the patrol: a bank's debt rises while it has requests queued and is paid otherwise; an idle port may enter
self-refresh; a burst that passes within the retries is only counted; reissues above the limit retire the port; the patrol reads one
word after another (R450 to R454, R458).
Rotation: a session adds a set to the port and ends; a finished copy goes on to the drain; after the drain the destination serves
the logical port; a forced migration is recorded; a lost active port is fenced and its place remembered; an in-place step is one per
port and tide (R460 to R468). -/
def Obligations.MemoryKeepsItsDataAndRotates : Prop :=
  ((∀ (s : State) (p c b : Nat), p < 17 → c < 2 → b < 16 → (s.port p).role = .active → (s.port p).selfRefresh = false →
    (∀ i, i < 16 → s.debt p (c * 16 + i) < 5) →
      exec (.refreshDue p c b false) s = .next (s.setDebt p (c * 16 + b) 0) ∧
      exec (.refreshDue p c b true) s = .next (s.setDebt p (c * 16 + b) (s.debt p (c * 16 + b) + 1))) ∧
  (∀ (s : State) (p : Nat), s.rd Reg.MEM_SR_IDLE ≠ 0 → (s.port p).role = .active →
    exec (.selfRefreshEntry p) s = .next (s.setPort p { s.port p with selfRefresh := true, debts := [] })) ∧
  (∀ (s : State) (agent a n : Nat) (w d : Bool), s.target a = .gddr → s.memsys.phase = 0 → 0 < n → n ≤ s.fld Reg.MEM_EDC_CFG 2 0 →
    exec (.edcFail agent a w n d) s
      = .next ((s.bump (mreg Reg.MEM_PORT_EDC_RETRY_LAST (s.physPort (s.logicalPort a))) n).setBit Reg.MEM_EVENT 12)) ∧
  (∀ (s : State) (p n : Nat), s.fld Reg.MEM_EDC_CFG 31 16 ≠ 0 → s.fld Reg.MEM_EDC_CFG 31 16 < n → (s.port p).role = .active →
    (s.port p).fenceAfter = false → exec (.predictWindow p n) s = .next ((s.setBit Reg.MEM_EVENT 15).retirePort p)) ∧
  (∀ (s : State) (p n : Nat), n ≤ s.fld Reg.MEM_EDC_CFG 31 16 → exec (.predictWindow p n) s = .next s) ∧
  (∀ (s r : State) (l : List (Nat × Nat)), s = r.upset l → s.rd Reg.MEM_SCRUB_CFG ≠ 0 → s.protOn = true →
    exec (.scrubRead l) r = .next ({ s with memsys := { s.memsys with
      patrol := (s.memsys.patrol + 1) % max 1 (7 * s.protSize / 64) } }.eccRead noAgent
        (s.protBase + 8 * (s.memsys.patrol % max 1 (7 * s.protSize / 64))) 8).2)) ∧
  ((∀ (s : State) (p : Nat) (l : List (Nat × Nat)), (s.port p).calibrating = false → exec (.calibrationSession p l) s = .next s) ∧
  (∀ (s : State) (p : Nat) (l : List (Nat × Nat)), (s.port p).calibrating = true → s.memsys.phase ≠ 5 →
    ∃ t : State, exec (.calibrationSession p l) s = .next t ∧ (t.port p).calibrating = false
      ∧ (t.port p).sets = putSet (mkSet (s.port p).calTemp l) (s.port p).sets ∧ (∀ q, q ≠ p → t.port q = s.port q) ∧ t.mem = s.mem) ∧
  (∀ s : State, s.memsys.phase = 2 → s.memsys.abort = false →
    exec .migrationCopyDone s = .next { s with memsys := { s.memsys with phase := 3 } }) ∧
  (∀ s : State, s.memsys.phase = 4 → s.memsys.src ≠ s.memsys.dst → ∃ t : State, exec .migrationDrainDone s = .next t
    ∧ ((s.port s.memsys.src).fenceAfter = false → (t.port s.memsys.dst).role = .active
      ∧ (t.port s.memsys.dst).logical = s.memsys.logical ∧ (t.port s.memsys.src).role = .drydock
      ∧ (t.port s.memsys.src).calibrating = true ∧ t.memsys.phase = 5 ∧ t.regs = s.regs ∧ t.mem = s.mem)) ∧
  (∀ (s : State) (agent v : Nat), s.armBlocks agent Reg.MEM_MIG_FORCE = false → v.testBit 31 = true →
    ((s.dock.isSome = true ∨ s.memsys.phase ≠ 0) → v % 16 < s.memsys.ports →
      exec (.memMigForce agent v) s = .next { s with memsys := { s.memsys with forced := some (v % 16) } }) ∧
    (s.dock = none ∧ s.memsys.phase = 0 ∨ s.memsys.ports ≤ v % 16 →
      exec (.memMigForce agent v) s = .next (s.usageReg agent Reg.MEM_MIG_FORCE))) ∧
  (∀ (s : State) (p : Nat), (s.port p).role = .active → ∃ t : State, exec (.portLost p) s = .next t
    ∧ t.memsys.lost = s.memsys.lost ++ [((s.port p).logical, s.dock)] ∧ (t.port p).role = .fenced
    ∧ (∀ q, q ≠ p → t.port q = s.port q) ∧ t.bit Reg.MEM_EVENT 0 = true ∧ t.mem = s.mem) ∧
  (∀ (s : State) (p : Nat) (l : List (Nat × Nat)), s.spareHeld = false → (s.port p).role = .active → (s.port p).covered = false →
    (s.port p).stepTide ≠ some s.tideNum → (s.port p).inplace + 1 < 64 → ∃ t : State, exec (.inplaceCalStep p false l) s = .next t
      ∧ (t.port p).inplace = (s.port p).inplace + 1 ∧ (t.port p).stepTide = some s.tideNum ∧ t.mem = s.mem) ∧
  (∀ (s : State) (p : Nat) (b : Bool) (l : List (Nat × Nat)), (s.port p).stepTide = some s.tideNum →
    exec (.inplaceCalStep p b l) s = .next s))

/-! ### The warehouse, the lighters, micro-routines (R474 to R548) -/

/-- Pool operations: a sound list hands out its head, whose bitmap byte and list entry are read first; an empty pool refuses and counts, a disabled one refuses with
code 10; an accepted free pushes the buffer, release and
share move the count, transfer the owner; a FREE that fails its check is only refused; a pool that passes its checks is enabled and begins
threading, is disabled, or keeps the code of the check that failed; threading puts every free buffer on the list. -/
def Obligations.WarehouseOperations : Prop :=
  (∀ (s u v w : State) (agent owner p a : Nat) (l : List Nat), (s.bump Reg.POOL_OPS_LAST 1).poolOn p = true →
    u = (s.bump Reg.POOL_OPS_LAST 1).threadReach p → (u.pool p).threaded ≠ 0 → (u.pool p).head ≠ 0 →
    a = u.bitAddr (u.globalIndex p (u.pool p).head) → v = u.metaRead a → v.metaBad a = false →
    v.readMem agentPool (v.pool p).head 8 = (.ok, l, w) → w.headSound p (v.pool p).head = true →
    exec (.alloc agent owner p 0) s = .next ((((w.handOut p owner (w.pool p).head).setPool p
      { (w.handOut p owner (w.pool p).head).pool p with
        head := w.rdM (w.pool p).head 8 % two40, threaded := (w.pool p).threaded - 1 }).setFree p ((w.pool p).free - 1)).sndCount
          0xF03 0xB00 1)) ∧
  (∀ (s u : State) (agent owner p : Nat), (s.bump Reg.POOL_OPS_LAST 1).poolOn p = true →
    u = (s.bump Reg.POOL_OPS_LAST 1).threadReach p → (u.pool p).threaded = 0 ∨ (u.pool p).head = 0 →
    exec (.alloc agent owner p 0) s = .next (u.bump (poolReg Reg.POOL_FAIL_LAST p) 1)) ∧
  (∀ (s : State) (agent owner p c : Nat), (s.bump Reg.POOL_OPS_LAST 1).poolOn p = false →
    exec (.alloc agent owner p c) s = .next ((s.bump Reg.POOL_OPS_LAST 1).poolRefuse 1 agent 0 10)) ∧
  (∀ (s u v : State) (agent a p g owner : Nat), u = (s.bump Reg.POOL_OPS_LAST 1).metaTouch a → u.poolOf a = some p →
    g = u.globalIndex p a → v = u.realias g →
    (u.poolCheck 2 agent a = 0 → exec (.free agent a) s = .next ((v.pushFree p a).sndCount 0xF03 0xB01 1)) ∧
    (u.poolCheck 3 agent a = 0 → exec (.release agent a) s = .next (v.setRefCount g (v.refCount g - 1))) ∧
    (u.poolCheck 4 agent a = 0 → exec (.share agent a) s = .next (v.setRefCount g (v.refCount g + 1))) ∧
    (u.poolCheck 5 agent a = 0 → exec (.transfer agent a owner) s = .next (v.setOwner g owner))) ∧
  (∀ (s u : State) (agent a owner : Nat), u = (s.bump Reg.POOL_OPS_LAST 1).metaTouch a →
    (u.poolCheck 2 agent a ≠ 0 → exec (.free agent a) s = .next (u.poolRefuse 2 agent a (u.poolCheck 2 agent a))) ∧
    (u.poolCheck 3 agent a ≠ 0 → exec (.release agent a) s = .next (u.poolRefuse 3 agent a (u.poolCheck 3 agent a))) ∧
    (u.poolCheck 4 agent a ≠ 0 → exec (.share agent a) s = .next (u.poolRefuse 4 agent a (u.poolCheck 4 agent a))) ∧
    (u.poolCheck 5 agent a ≠ 0 → exec (.transfer agent a owner) s = .next (u.poolRefuse 5 agent a (u.poolCheck 5 agent a)))) ∧
  (∀ (s : State) (agent p v : Nat), s.armBlocks agent (poolReg Reg.POOL_CFG p) = false → s.poolOn p = false →
    s.enableCheck p (v ||| 0x100) = 0 → ∃ t : State, exec (.poolEnable agent p v) s = .next t ∧ (t.pool p).threading = true
      ∧ (t.pool p).err = 0 ∧ (∀ q, q ≠ p → t.pool q = s.pool q) ∧ t.mem = s.mem) ∧
  (∀ (s : State) (agent p v : Nat), s.armBlocks agent (poolReg Reg.POOL_CFG p) = false → s.poolOn p = true →
    (s.disableCheck p = 0 → exec (.poolDisable agent p v) s
      = .next (((s.setPool p PoolSt.reset).wr (poolReg Reg.POOL_CFG p) (Nat.land (putBits v 8 8 0) 0x21F)).runtimeChanged false)) ∧
    (s.disableCheck p ≠ 0 → exec (.poolDisable agent p v) s
      = .next ((s.setPool p { s.pool p with err := s.disableCheck p }).usageReg agent (poolReg Reg.POOL_CFG p)))) ∧
  (∀ (s : State) (p : Nat), (s.pool p).threading = true ∨ (s.pool p).rebuilding = true → ∃ t : State, exec (.threaded p) s = .next t
    ∧ (t.pool p).threading = false ∧ (t.pool p).rebuilding = false ∧ (t.pool p).todo = []
    ∧ (t.pool p).threaded = (s.pool p).threaded + (s.pool p).todo.length ∧ (t.pool p).head = (s.pool p).head
    ∧ t.bit Reg.POOL_EVENT 7 = true)

/-- A channel program: it starts at its first instruction; MOVE's ranges pass and it waits for its bursts; a source burst
fetches; LOOP jumps back or goes on; WAIT holds or passes; a SIGNAL without WRITE does the rest; flags are set and
wake waiters; an outbound read of no channel that times out is counted, and ends the job that made it with 0x21. -/
def Obligations.ChannelProgramsRun : Prop :=
  (∀ (s : State) (u : Nat) (j : Job), s.ltJob u = some j → s.bit (ucb u Reg.LT_STATUS) 16 = false → j.stopWith = none →
    s.ltRefused j = none → exec (.runProgram u) s
      = .next (((s.setLt u { LtSt.reset with
          prog := j.s0, os := j.s1 % two40, od := j.s2 % two40, errWrite := (s.lt u).errWrite }).setBit (ucb u Reg.LT_STATUS) 16).ltReach u).ltIdle) ∧
  (∀ (s : State) (u n : Nat) (a b : Side), s.ChannelAt u 1 → n = mvLen (s.ltWords u).2 → a = s.mvSource u → b = s.mvDest u →
    s.sideOk u false a (a.span n) = true → s.sideOk u true b (b.span n) = true →
    exec (.move u) s = .next (((s.modLt u (fun x => { x with
      moving := true, issued := 0, put := 0, run := 0, fetched := [], half := false, full := false, again := false })).wr (ucb u Reg.LT_REMAIN)
        n).ltIdle)) ∧
  (∀ (s : State) (u k count n : Nat) (w : Nat × Nat) (ss ds : Int), s.ChannelAt u 2 → w = s.ltWords u → k = bits w.1 57 56 →
    count = bits w.1 47 32 → ss = signed 32 (bits w.2 31 0) → ds = signed 32 (bits w.2 63 32) →
    n = ((s.lt u).loop k + 1) % 65536 →
    (count = 0 ∨ n < count → exec (.loop u) s = .next (((s.setLt u { s.lt u with
      lc := SMap.set (fun _ => 0) (s.lt u).lc k n, os := unsigned 40 ((s.lt u).os + ss)
      od := unsigned 40 ((s.lt u).od + ds) }).ltJump u (bits w.1 11 0)).ltIdle)) ∧
    (count ≠ 0 → count ≤ n → exec (.loop u) s = .next (((s.setLt u { s.lt u with
      lc := SMap.set (fun _ => 0) (s.lt u).lc k 0, os := unsigned 40 ((s.lt u).os - ss * (count - 1))
      od := unsigned 40 ((s.lt u).od - ds * (count - 1)) }).ltJump u ((s.lt u).pc + 1)).ltIdle))) ∧
  (∀ (s : State) (u : Nat), s.ChannelAt u 3 →
    (s.ltHolds u s.tideNum = true → exec (.ltWait u) s = .next ((s.ltGo u).ltIdle)) ∧
    (s.ltHolds u s.tideNum = false → exec (.ltWait u) s = .next ((s.modLt u (fun x => { x with
      waiting := some (bits (s.ltWords u).1 59 56), tideAt := s.tideNum })).ltIdle))) ∧
  (∀ (s : State) (u : Nat) (j : Job), s.ltJob u = some j → j.stopWith = none → (s.lt u).waiting.isSome = true →
    (s.ltHolds u (s.lt u).tideAt = true → exec (.ltWaitSatisfied u) s = .next ((s.ltGo u).ltIdle)) ∧
    (s.ltHolds u (s.lt u).tideAt = false → bits (s.ltWords u).1 31 0 ≠ 0 →
      exec (.waitTimeout u) s = .next ((s.ltHaltAt u 4).ltIdle))) ∧
  (∀ (s : State) (u : Nat), s.ChannelAt u 4 → (s.ltWords u).1.testBit 58 = false →
    exec (.signal u) s = .next (State.classWatch s u (s.ltSignalRest u).ltIdle).served) ∧
  (∀ (s v : State) (u n : Nat) (j : Job) (bs data : List Nat), s.ltJob u = some j → j.stopWith = none → (s.lt u).moving = true →
    s.ltReady u = 0 → isSkiff u = false →
    n = (s.mvSource u).burst false (s.lt u).issued (mvLen (s.ltWords u).2 - (s.lt u).issued) →
    (s.ltIssue u n true).readBeats u (s.mvSource u) (s.lt u).issued n data = (.done bs, v) → (v.ltJob u).isSome = true →
    exec (.burstComplete u false 0 data) s = .next (State.classWatch s u (v.ltFetched u bs).ltIdle).served) ∧
  (∀ (s : State) (agent v : Nat), s.armBlocks agent Reg.LT_FLAGS_SET = false →
    exec (.ltFlagsSet agent v) s
      = .next (((s.wr Reg.LT_FLAGS (Nat.lor (s.rd Reg.LT_FLAGS) (v % two32))).ltFlagWake).ltIdle)) ∧
  (∀ (s t : State) (agent : Nat), isChannel agent = false → t = (s.bump Reg.HOST_OUT_ERR_LAST 1).setBit Reg.HOST_EVENT 6 →
    (unitKind agent = none ∨ (s.unit agent).job = none → exec (.outboundTimeout agent) s = .next t) ∧
    (∀ k j, unitKind agent = some k → (s.unit agent).job = some j →
      exec (.outboundTimeout agent) s = .next (t.setJob agent { j with stopWith := some 0x21 })))

/-- A micro-op that computes a register: the register, the flags where the op names them, the next micro-PC, and nothing else
(R525, R526, R528). -/
def Obligations.MicroOpsCompute : Prop :=
  ∀ (s : State) (u w a b d sh : Nat) (i : Int) (m : Micro), m = s.mi u → a = m.reg (raOf w) → b = m.reg (rbOf w) →
    d = m.reg (rdOf w) → i = signed 14 (bits w 13 0) → sh = bits w 5 0 → s.MayWrite u (rdOf w) →
    (s.MicroReady u 0x01 1 w → ∃ t, exec (.mov u 0) s = .next t ∧ s.MicroGoes t u (Micro.next 1 (Micro.put (rdOf w) a m))) ∧
    (s.MicroReady u 0x02 1 w → ∃ t, exec (.ldi u 0) s = .next t
      ∧ s.MicroGoes t u (Micro.next 1 (Micro.put (rdOf w) (unsigned 40 i) m))) ∧
    (s.MicroReady u 0x03 1 w → ∃ t, exec (.shi u 0) s = .next t
      ∧ s.MicroGoes t u (Micro.next 1 (Micro.put (rdOf w) ((d * 16384 + bits w 13 0) % two40) m))) ∧
    (s.MicroReady u 0x04 1 w → ∃ t, exec (.add u 0) s = .next t
      ∧ s.MicroGoes t u (Micro.next 1 ((Micro.put (rdOf w) ((a + b) % two40) m).setFlags (addFlags a b)))) ∧
    (s.MicroReady u 0x05 1 w → ∃ t, exec (.sub u 0) s = .next t
      ∧ s.MicroGoes t u (Micro.next 1 ((Micro.put (rdOf w) ((a + two40 - b) % two40) m).setFlags (subFlags a b)))) ∧
    (s.MicroReady u 0x06 1 w → ∃ t, exec (.and u 0) s = .next t
      ∧ s.MicroGoes t u (Micro.next 1 ((Micro.put (rdOf w) (Nat.land a b) m).setFlags (zn (Nat.land a b))))) ∧
    (s.MicroReady u 0x07 1 w → ∃ t, exec (.or u 0) s = .next t
      ∧ s.MicroGoes t u (Micro.next 1 ((Micro.put (rdOf w) (Nat.lor a b) m).setFlags (zn (Nat.lor a b))))) ∧
    (s.MicroReady u 0x08 1 w → ∃ t, exec (.xor u 0) s = .next t
      ∧ s.MicroGoes t u (Micro.next 1 ((Micro.put (rdOf w) (Nat.xor a b) m).setFlags (zn (Nat.xor a b))))) ∧
    (s.MicroReady u 0x09 1 w → ∃ t, exec (.min u 0) s = .next t ∧ s.MicroGoes t u (Micro.next 1
      ((Micro.put (rdOf w) (if signed 40 a ≤ signed 40 b then a else b) m).setFlags (zn (if signed 40 a ≤ signed 40 b then a else b))))) ∧
    (s.MicroReady u 0x0A 1 w → ∃ t, exec (.max u 0) s = .next t ∧ s.MicroGoes t u (Micro.next 1
      ((Micro.put (rdOf w) (if signed 40 a ≤ signed 40 b then b else a) m).setFlags (zn (if signed 40 a ≤ signed 40 b then b else a))))) ∧
    (s.MicroReady u 0x0B 1 w → ∃ t, exec (.shl u 0) s = .next t
      ∧ s.MicroGoes t u (Micro.next 1 ((Micro.put (rdOf w) (a * 2 ^ sh % two40) m).setFlags (zn (a * 2 ^ sh % two40))))) ∧
    (s.MicroReady u 0x0C 1 w → ∃ t, exec (.shr u 0) s = .next t
      ∧ s.MicroGoes t u (Micro.next 1 ((Micro.put (rdOf w) (a / 2 ^ sh) m).setFlags (zn (a / 2 ^ sh))))) ∧
    (s.MicroReady u 0x0D 1 w → ∃ t, exec (.sar u 0) s = .next t ∧ s.MicroGoes t u (Micro.next 1
      ((Micro.put (rdOf w) (unsigned 40 (signed 40 a / ((2 ^ sh : Nat) : Int))) m).setFlags
        (zn (unsigned 40 (signed 40 a / ((2 ^ sh : Nat) : Int))))))) ∧
    (s.MicroReady u 0x0E 4 w → ∃ t, exec (.mul u 0) s = .next t ∧ s.MicroGoes t u (Micro.next 4
      ((Micro.put (rdOf w) (unsigned 40 (product a b)) m).setFlags (zn (unsigned 40 (product a b)) + 8 * b2n (overS40 (product a b)))))) ∧
    (s.MicroReady u 0x0F 4 w → ∃ t, exec (.mulh u 0) s = .next t ∧ s.MicroGoes t u (Micro.next 4
      ((Micro.put (rdOf w) (unsigned 40 (product a b / ((two40 : Nat) : Int))) m).setFlags
        (zn (unsigned 40 (product a b / ((two40 : Nat) : Int))))))) ∧
    (s.MicroReady u 0x10 42 w → b ≠ 0 → ∃ t, exec (.div u 0) s = .next t
      ∧ s.MicroGoes t u (Micro.next 42 ((Micro.put (rdOf w) (a / b) m).setFlags (zn (a / b) + 8 * b2n m.v)))) ∧
    (s.MicroReady u 0x10 42 w → b = 0 → ∃ t, exec (.div u 0) s = .next t
      ∧ s.MicroGoes t u (Micro.next 42 ((Micro.put (rdOf w) (two40 - 1) m).setFlags (zn (two40 - 1) + 8)))) ∧
    (s.MicroReady u 0x11 1 w → ∃ t, exec (.addi u 0) s = .next t ∧ s.MicroGoes t u (Micro.next 1
      ((Micro.put (rdOf w) ((d + unsigned 40 i) % two40) m).setFlags (addFlags d (unsigned 40 i)))))

/-- The other micro-ops: comparisons set flags alone; LD and ST of LOCAL, of VIEW and of memory; branches, calls and returns; WAIT holds the routine or passes;
STEP shows a step; COMMIT copies it and counts; ISSUE goes on; DONE ends the routine; EXIT ends the window; a trap saves the place and
TRAPRET restores it; an uncorrectable word or a reserved opcode fences the unit. -/
def Obligations.MicroOpsControl : Prop :=
  ∀ (s : State) (u w : Nat) (m : Micro), m = s.mi u →
    (s.MicroReady u 0x00 1 w → ∃ t, exec (.nop u 0) s = .next t ∧ s.MicroGoes t u (Micro.next 1 m)) ∧
    (s.MicroReady u 0x12 1 w → ∃ t, exec (.cmp u 0) s = .next t
      ∧ s.MicroGoes t u (Micro.next 1 (m.setFlags (subFlags (m.reg (raOf w)) (m.reg (rbOf w)))))) ∧
    (s.MicroReady u 0x13 1 w → ∃ t, exec (.cmpi u 0) s = .next t
      ∧ s.MicroGoes t u (Micro.next 1 (m.setFlags (subFlags (m.reg (rdOf w)) (unsigned 40 (immOf w)))))) ∧
    (s.MicroReady u 0x14 2 w → bits w 9 8 = 0 → s.MayWrite u (rdOf w) → ∀ x, ∃ t, exec (.ld u 0 x) s = .next t
      ∧ s.MicroGoes t u (Micro.next 2 (Micro.put (rdOf w) (m.local ((m.reg (raOf w) + bits w 7 0) % 1024)) m))) ∧
    (s.MicroReady u 0x14 2 w → bits w 9 8 = 1 → s.MayWrite u (rdOf w) → ∀ k x, k = (m.reg (raOf w) + bits w 7 0) % two40 →
      (m.inWindow = true → k ≤ 31 → ∃ t, exec (.ld u 0 x) s = .next t
        ∧ s.MicroGoes t u (Micro.next 2 (Micro.put (rdOf w) (SMap.get (fun _ => 0) m.locals (viewKey k)) m))) ∧
      (m.inWindow = false → ∀ p, m.locals.find? (fun p => p.1 = viewKey k) = some p → ∃ t, exec (.ld u 0 x) s = .next t
        ∧ s.MicroGoes t u (Micro.next 2 (Micro.put (rdOf w) p.2 m)))) ∧
    (s.MicroReady u 0x14 1 w → 2 ≤ bits w 9 8 → ∀ a x, a = (m.reg (raOf w) + bits w 7 0 * 8) % two40 →
      (a % 8 ≠ 0 → exec (.ld u 0 x) s = .next (s.memAccess u 1 a)) ∧
      (a % 8 = 0 → s.target a ≠ .outbound → ∀ l v, s.readMem u a 8 = (.ok, l, v) →
        exec (.ld u 0 x) s = .next (v.result u (rdOf w) (leNat l % two40) none 1)) ∧
      (a % 8 = 0 → s.target a = .outbound → s.outboundOk = true → exec (.ld u 0 x) s = .next (s.result u (rdOf w) x none 1))) ∧
    (s.MicroReady u 0x15 1 w → bits w 9 8 = 0 → ∃ t, exec (.st u 0) s = .next t ∧ s.MicroGoes t u (Micro.next 1
      { m with locals := SMap.ins ((m.reg (raOf w) + bits w 7 0) % 1024) (m.reg (rdOf w)) m.locals })) ∧
    (s.MicroReady u 0x15 1 w → bits w 9 8 = 1 → ∀ k, k = (m.reg (raOf w) + bits w 7 0) % two40 → k ≤ 31 →
      (m.inWindow = true → viewRw m.routine k = true) → ∃ t, exec (.st u 0) s = .next t
        ∧ s.MicroGoes t u (Micro.next 1 { m with locals := SMap.ins (viewKey k) (m.reg (rdOf w)) m.locals })) ∧
    (s.MicroReady u 0x15 1 w → 2 ≤ bits w 9 8 → ∀ a, a = (m.reg (raOf w) + bits w 7 0 * 8) % two40 →
      (a % 8 ≠ 0 → exec (.st u 0) s = .next (s.memAccess u 2 a)) ∧
      (a % 8 = 0 → s.target a ≠ .outbound → ∀ v, s.writeMem u a (leBytes 8 (m.reg (rdOf w))) = (.ok, v) →
        exec (.st u 0) s = .next (v.microNext u 1)) ∧
      (a % 8 = 0 → s.target a = .outbound → s.outboundOk = true →
        exec (.st u 0) s = .next ((s.hostWrite a (leBytes 8 (m.reg (rdOf w)))).microNext u 1))) ∧
    (s.MicroReady u 0x16 2 w → m.holds (bits w 17 15) = true → ∃ t, exec (.br u 0) s = .next t
      ∧ s.MicroGoes t u (Micro.spend 2 { m with pc := bits w 14 0 })) ∧
    (s.MicroReady u 0x16 1 w → m.holds (bits w 17 15) = false → ∃ t, exec (.br u 0) s = .next t
      ∧ s.MicroGoes t u (Micro.next 1 m)) ∧
    (s.MicroReady u 0x17 2 w → m.holds (bits w 17 15) = true → m.stack.length < m.depth → ∃ t, exec (.call u 0) s = .next t
      ∧ s.MicroGoes t u (Micro.spend 2 { m with pc := bits w 14 0, stack := (m.pc + 1) % 32768 :: m.stack })) ∧
    (s.MicroReady u 0x18 2 w → ∀ a l, m.stack = a :: l → ∃ t, exec (.ret u 0) s = .next t
      ∧ s.MicroGoes t u (Micro.spend 2 { m with pc := a, stack := l })) ∧
    (s.MicroReady u 0x19 1 w → s.waitHolds u w s.tideNum true = true → ∃ t, exec (.wait u 0 true) s = .next t
      ∧ s.MicroGoes t u (Micro.next 1 m)) ∧
    (s.MicroReady u 0x19 1 w → s.waitHolds u w s.tideNum false = false → ∃ t, exec (.wait u 0 false) s = .next t
      ∧ s.MicroGoes t u { m with waiting := some (bits w 17 0), waitTide := s.tideNum }) ∧
    (∀ x, m.waiting = some x → m.inWindow = false → s.waitHolds u x m.waitTide true = true →
      ∃ t, exec (.waitSatisfied u) s = .next t ∧ s.MicroGoes t u (Micro.next 1 { m with waiting := none })) ∧
    (s.MicroReady u 0x1A 1 w → m.trapped = false →
      exec (.step u 0) s = .next ((s.wrFld (ucb u Reg.UCB_ROUTINE_STEP) 15 0 (bits w 15 0)).microNext u 1)) ∧
    (s.MicroReady u 0x1B 1 w → m.trapped = false → m.inWindow = false → s.stopMark u = none → ∃ t, exec (.commit u 0) s = .next t
      ∧ t.mi u = Micro.next 1 m ∧ t.fld (ucb u Reg.UCB_ROUTINE_STEP) 31 16 = s.fld (ucb u Reg.UCB_ROUTINE_STEP) 15 0
      ∧ t.fld (ucb u Reg.UCB_ROUTINE_STATUS) 15 0 = min 65535 (s.fld (ucb u Reg.UCB_ROUTINE_STATUS) 15 0 + 1) ∧ t.mem = s.mem) ∧
    (s.MicroReady u 0x1C 1 w → ∃ t, exec (.issue u 0) s = .next t ∧ s.MicroGoes t u (Micro.next 1 m)) ∧
    (s.MicroReady u 0x1D 1 w → m.trapped = false → (s.unit (s.workOf u)).job = none →
      exec (.done u 0) s = .next (s.setMi u { m with inRoutine := false })) ∧
    (s.MicroReady u 0x1E 1 w → m.trapped = true → m.causes = 0 → ∃ t, exec (.trapret u 0) s = .next t
      ∧ s.MicroGoes t u { m.setFlags m.shadowFlags with
          trapped := false, pc := m.shadowPc, stack := m.shadowStack, shadowWait := none, waiting := none }) ∧
    (s.MicroReady u 0x1F 1 w → m.inWindow = true → exec (.exit u 0) s = .next (s.windowExit u)) ∧
    (∀ k, 1 ≤ k → k ≤ 4 → (k = 3 → unitKind u = some .pilot) → m.inRoutine = true → s.eng u ≠ .fenced → m.trapped = false →
      m.causes = 0 → ∃ t, exec (.microTrap u k) s = .next t ∧ (t.mi u).trapped = true ∧ (t.mi u).shadowPc = m.pc
        ∧ (t.mi u).shadowStack = m.stack ∧ (t.mi u).shadowFlags = m.flags ∧ (t.mi u).pc = 0xFE ∧ (t.mi u).stack = []
        ∧ t.mem = s.mem) ∧
    (m.inRoutine = true → m.waiting = none → s.eng u ≠ .fenced → bits w 23 18 = 0 → s.csWord u m.pc = w →
      exec (.nop u 2) s = .next (s.fence (0x4010 + s.unitNibble u * 256) 3 0 u)) ∧
    (m.inRoutine = true → m.waiting = none → s.eng u ≠ .fenced → m.inWindow = false → s.csWord u m.pc = w → 0x20 ≤ bits w 23 18 →
      exec (.nop u 0) s = .next (s.fence (0x4012 + s.unitNibble u * 256) 0 0 u))

/-! ### The host function, the bell, the Watch, soundings (R550 to R622) -/

/-- The PCIe function: PERST_N and a function level reset return the configuration space to reset; the link comes and goes; the power
state, BAR2's size and configuration writes are as asked; BAR2 is answered only while the function is awake and in range; an unmasked
vector sends what is pending; a mailbox write while a request waits only writes the register, otherwise the request is served. -/
def Obligations.HostFunctionFollowsItsLink : Prop :=
  (∀ s : State, s.host.perst = false → ∃ t : State, exec (.perstAssert true) s = .next t ∧ t.host.perst = true
    ∧ t.host.linkUp = false ∧ t.host.bme = false ∧ t.host.msixEn = false ∧ t.host.bar2Size = 3 ∧ t.bit Reg.HOST_EVENT 1 = true
    ∧ t.mem = s.mem) ∧
  (∀ s : State, exec (.perstAssert false) s = .next { s with host := { s.host with perst := false } }) ∧
  (∀ s : State, ∃ t : State, exec .flr s = .next t ∧ t.host.bme = false ∧ t.host.msixEn = false ∧ t.host.d3hot = false
    ∧ t.host.linkUp = s.host.linkUp ∧ t.bit Reg.HOST_EVENT 2 = true ∧ t.mem = s.mem) ∧
  (∀ (s : State) (rate width : Nat), s.host.linkUp = true → exec (.pcieLinkChange false rate width) s
    = .next (({ s with host := { s.host with linkUp := false, rate := 0, width := 0 } }).setBit Reg.HOST_EVENT 0)) ∧
  (∀ (s : State) (rate width : Nat), s.hostEnabled = true → s.host.perst = false → s.outputsOn = true →
    ∃ t : State, exec (.pcieLinkChange true rate width) s = .next t ∧ t.host.linkUp = true ∧ t.host.rate = max 1 (min 5 rate)
      ∧ t.mem = s.mem) ∧
  (∀ s : State, s.host.linkUp = true → s.host.d3hot = false → exec (.dStateChange true) s
    = .next ((({ s with host := { s.host with d3hot := true } }).setBit Reg.HOST_EVENT 3).wakeHost)) ∧
  (∀ s : State, s.host.linkUp = true → s.host.d3hot = true → exec (.dStateChange false) s
    = .next ((({ s with host := { s.host with d3hot := false } }).setBit Reg.HOST_EVENT 3).signalHosts)) ∧
  (∀ (s : State) (k : Nat), k ≤ 7 → k ≠ s.host.bar2Size →
    exec (.bar2Resize k) s = .next ((({ s with host := { s.host with bar2Size := k } }).wr40 Reg.HOST_BAR2_BASE_LO 0).committed
      Reg.HOST_BAR2_BASE_LO)) ∧
  (∀ (s : State) (off : Nat) (bs : List Nat) (p : Bool), s.hostAwake = false ∨ s.bar2Bytes < off + bs.length →
    exec (.bar2Write off bs p) s = .next s ∧ exec (.bar2Read off bs.length) s = .next s) ∧
  (∀ (s u : State) (off a : Nat) (bs : List Nat), s.hostAwake = true → off + bs.length ≤ s.bar2Bytes →
    u = s.sndCount 0xF05 0xD00 1 → a = u.rd40 Reg.HOST_BAR2_BASE_LO + off →
    exec (.bar2Write off bs true) s = .next u.inRefused ∧
    (0x2000000000 < a + bs.length → exec (.bar2Write off bs false) s = .next ((u.usageAddr hostAgent 2 a).inRefused)) ∧
    (a + bs.length ≤ 0x2000000000 → ∀ t, u.writeMem hostAgent a bs = (.ok, t) →
      exec (.bar2Write off bs false) s = .next (State.classWatch u hostAgent t))) ∧
  (∀ (s u : State) (off n a : Nat), s.hostAwake = true → off + n ≤ s.bar2Bytes → u = s.sndCount 0xF05 0xD01 1 →
    a = u.rd40 Reg.HOST_BAR2_BASE_LO + off →
    (0x2000000000 < a + n →
      exec (.bar2Read off n) s = .next ((u.usageAddr hostAgent 1 a).emit (.bar2Data (List.replicate n 0) false))) ∧
    (a + n ≤ 0x2000000000 → ∀ l t, u.readMem hostAgent a n = (.ok, l, t) →
      exec (.bar2Read off n) s = .next (t.emit (.bar2Data l false)))) ∧
  (∀ (s : State) (c : ConfigReq), s.host.retry = true → exec (.configurationRequest c) s = .next (s.emit (.config false 0))) ∧
  (∀ (s t : State) (c : ConfigReq), s.host.retry = false → c.isWrite = true →
    t = { (s.emit (.config true 0)) with host := { s.host with
      bme := c.bme, msixEn := c.msixEn, msixMaskAll := c.msixMaskAll, pmeEn := c.pmeEn, relaxed := c.relaxed } } →
    exec (.configurationRequest c) s = .next (((t.whenB (s.host.msixMaskAll && !c.msixMaskAll) State.unmaskAll).whenB
      (!(s.host.bme && s.host.msixEn) && c.bme && c.msixEn) State.signalHosts).whenB (!s.host.pmeEn && c.pmeEn) State.wakeHost)) ∧
  (∀ (s : State) (c : ConfigReq), s.host.retry = false → c.isWrite = false →
    ∃ t : State, exec (.configurationRequest c) s = .next (t.emit (.config true (s.configWord c.reg)))
      ∧ t = { s with freeCtr := t.freeCtr }) ∧
  (∀ (s : State) (v : Nat), v < 32 → s.armBlocks hostAgent (Reg.HOST_MSIX_TABLE + 16 * v + 12) = false →
    s.bit Reg.HOST_MSIX_PBA v = false → exec (.msixUnmask v) s = .next (s.clrBit (Reg.HOST_MSIX_TABLE + 16 * v + 12) 0)) ∧
  (∀ (s : State) (v : Nat), v < 32 → s.armBlocks hostAgent (Reg.HOST_MSIX_TABLE + 16 * v + 12) = true →
    exec (.msixUnmask v) s = .next (s.usageReg hostAgent (Reg.HOST_MSIX_TABLE + 16 * v + 12))) ∧
  (∀ (s : State) (agent v : Nat) (st : StartUp) (l : List Nat), s.bit Reg.HOST_MBX_STATUS 0 = true →
    exec (.mailboxGo agent v st l) s = .next (s.regWrite agent Reg.HOST_MBX_CTRL v)) ∧
  (∀ (s t : State) (agent v : Nat) (st : StartUp) (l : List Nat), s.bit Reg.HOST_MBX_STATUS 0 = false →
    t = s.regWrite agent Reg.HOST_MBX_CTRL v →
    exec (.mailboxGo agent v st l) s = .next (t.mbxServe (some st) (some l)) ∧
    (t.bit Reg.HOST_MBX_STATUS 0 = true → t.mbxN 0 2 ≠ 0x4D52 → exec (.mailboxGo agent v st l) s = .next (t.mbxDone []))) ∧
  (∀ (s u : State) (v : Nat), v < 32 → s.armBlocks hostAgent (Reg.HOST_MSIX_TABLE + 16 * v + 12) = false →
    u = s.clrBit (Reg.HOST_MSIX_TABLE + 16 * v + 12) 0 → u.bit Reg.HOST_MSIX_PBA v = true →
    u.vectorMasked v = false → ((u.clrBit Reg.HOST_MSIX_PBA v).presented (v + 4)).isSome = true →
    exec (.msixUnmask v) s = .next ((u.clrBit Reg.HOST_MSIX_PBA v).msix v))

/-- The bell: an edge is latched once; a claim makes the presented source active and answers its number with bit 31; a complete from the
claimer ends it; a completion by another, or of a source not active, is a usage error; the configuration of a source is as written, and
a write that names no target is refused; an unclaimed source falls back when its timer expires (R563 to R574). -/
def Obligations.BellClaimsAndCompletes : Prop :=
  (∀ (s : State) (n : Nat), noDriver n = false → n < 768 → s.bellLine n = true → (s.src n).line = false → (s.src n).pending = false →
    ∃ v : State, exec (.sourceEdge n) s = .next (v.settle s) ∧ (v.src n).pending = true ∧ (v.src n).line = true
      ∧ (∀ k, k ≠ n → v.src k = s.src k)) ∧
  (∀ (s : State) (agent t : Nat), ¬(agent = hostAgent ∧ t < 4) → s.tooEarly agent (Reg.BELL_T_CLAIM + 16 * t) = false →
    (∀ n, s.presented t = some n → exec (.bellClaim agent t) s
      = .next ((s.setSrc n { s.src n with pending := false, active := true, claimer := t, timer := false }).emit
          (.readData agent (Reg.BELL_T_CLAIM + 16 * t) (n + 2 ^ 31)))) ∧
    (s.presented t = none → exec (.bellClaim agent t) s
      = .next (s.emit (.readData agent (Reg.BELL_T_CLAIM + 16 * t) (if (s.bellHeld t).isSome then 2 ^ 30 else 0))))) ∧
  (∀ (s : State) (agent t v n : Nat), ¬(agent = hostAgent ∧ t < 4) →
    s.tooEarly agent (Reg.BELL_T_COMPLETE + 16 * t) = false → n = bits v 9 0 →
    ((s.src n).active = true → (s.src n).claimer = t → ∃ r : State, exec (.bellComplete agent t v) s = .next r
      ∧ (r.src n).active = false ∧ (r.src n).claimer = 63 ∧ (r.src n).fell = false ∧ (∀ k, k ≠ n → r.src k = s.src k)
      ∧ r.mem = s.mem) ∧
    ((s.src n).active = true → (s.src n).claimer ≠ t → exec (.bellComplete agent t v) s
      = .next (s.bellError 1 n t agent (regAddr (Reg.BELL_T_COMPLETE + 16 * t)))) ∧
    ((s.src n).active = false → exec (.bellComplete agent t v) s
      = .next (s.bellError 2 n t agent (regAddr (Reg.BELL_T_COMPLETE + 16 * t))))) ∧
  (∀ (s : State) (agent w v : Nat), s.armBlocks agent (Reg.BELL_SWSET + 4 * w) = false →
    exec (.bellSwset agent w v) s = .next ((s.each ((List.range 32).filter (fun b => v.testBit b))
      (fun b s => s.edge (768 + 32 * w + b))).settle s)) ∧
  (∀ (s : State) (agent n v : Nat), s.armBlocks agent (Reg.BELL_SRC_CFG + 8 * n) = false → noDriver n = false →
    badTarget (bits v 5 0) = false → badTarget (bits v 13 8) = false →
    ∃ x : State, exec (.bellSrcCfgWrite agent n v) s = .next ((x.settle s).runtimeChanged false) ∧ (x.src n).target = bits v 5 0
      ∧ (x.src n).fallback = bits v 13 8 ∧ (x.src n).hold = bits v 31 16 ∧ (x.src n).enable = v.testBit 15
      ∧ (x.src n).pending = (s.src n).pending ∧ (x.src n).active = (s.src n).active ∧ (∀ k, k ≠ n → x.src k = s.src k)) ∧
  (∀ (s : State) (agent n v : Nat), s.armBlocks agent (Reg.BELL_SRC_CFG + 8 * n) = false → noDriver n = false →
    badTarget (bits v 5 0) = true → exec (.bellSrcCfgWrite agent n v) s
      = .next (s.bellError 4 n (bits v 5 0) agent (regAddr (Reg.BELL_SRC_CFG + 8 * n))).refusal) ∧
  (∀ (s : State) (n : Nat), (s.src n).timer = true → (s.src n).pending = true → (s.src n).active = false →
    (s.src n).current ≠ 63 → (s.src n).fallback ≠ 63 → (s.src n).fallback ≠ (s.src n).current →
    exec (.holdTimerExpiry n) s
      = .next (((s.setSrc n { s.src n with fell := true, timer := false }).bump Reg.BELL_FALLBACK_LAST 1).settle s))

/-- The Watch: a report that fences takes its unit out, or is only logged when it is out already; a spare takes over the berth; a hang is a fault of the unit's; an acknowledgement removes a FENCED
entry; a fence is cleared after a self-test, and not while the unit is not fenced, was fenced three times, or in the safe state; the safe
state is asked for and entered; a lost block is reported with its own code (R583 to R604). -/
def Obligations.WatchFencesAndClears : Prop :=
  (∀ (s : State) (u c a x : Nat), fenceCode u c = true → s.eng u ≠ .fenced →
    exec (.unitFence u c a x) s = .next ((s.report c u a x).fenceUnit c u)) ∧
  (∀ (s : State) (u c a x : Nat), fenceCode u c = true → s.eng u = .fenced → s.watch.selfLost = false →
    exec (.unitFence u c a x) s = .next { s with watch := s.watch.logReport c u a s.reportTide s.nsInTide }) ∧
  (∀ (s : State) (u f : Nat), s.watch.takeovers = [(f, u)] → unitKind f ≠ some .egress → f ≠ u →
    (s.unit f).job = none → (s.unit f).parent = none →
    ∃ v : State, exec (.spareTakeover u) s = .next ((v.afterSpares s).dispatch) ∧ v.eng u = .idle
      ∧ (v.unit u).ctxs = (s.unit f).ctxs ∧ (v.unit u).berth = (s.unit f).berth ∧ (v.unit f).ctxs = []
      ∧ (v.unit f).berth = .free ∧ v.watch.takeovers = []) ∧
  (∀ (s : State) (u : Nat), s.fld Reg.WATCH_HANG_CFG 15 0 ≠ 0 → s.eng u = .running →
    exec (.hang u) s = .next (s.fence (hangCode u) 0 0 u)) ∧
  (∀ (s : State) (agent v : Nat), s.armBlocks agent Reg.WATCH_ACK = false → bits v 15 0 / 4096 = 4 →
    exec (.watchAck agent v) s
      = .next { s with watch := s.watch.leave (fun e => e.code = bits v 15 0 && e.agent = bits v 27 16) }) ∧
  (∀ (s : State) (agent v : Nat), s.armBlocks agent Reg.WATCH_FENCE_CLEAR = false → s.watch.clearing = none →
    ((s.unit (v % 4096)).eng ≠ .fenced → exec (.watchFenceClear agent v) s
      = .next { s with watch := { s.watch with clearResult := 1, clearUnit := v % 4096 } }) ∧
    ((s.unit (v % 4096)).eng = .fenced → SMap.get (fun _ => 0) s.watch.fencedTimes (v % 4096) < 3 → s.watch.safe = false →
      ∃ t : State, exec (.watchFenceClear agent v) s = .next t ∧ t.watch.clearing = some (v % 4096) ∧ t.watch.clearResult = 0
        ∧ t.regs = s.regs ∧ t.units = s.units) ∧
    ((s.unit (v % 4096)).eng = .fenced → 3 ≤ SMap.get (fun _ => 0) s.watch.fencedTimes (v % 4096) → exec (.watchFenceClear agent v) s
      = .next { s with watch := { s.watch with clearResult := 2, clearUnit := v % 4096 } }) ∧
    ((s.unit (v % 4096)).eng = .fenced → SMap.get (fun _ => 0) s.watch.fencedTimes (v % 4096) < 3 → s.watch.safe = true →
      exec (.watchFenceClear agent v) s = .next { s with watch := { s.watch with clearResult := 3, clearUnit := v % 4096 } })) ∧
  (∀ (s : State) (u : Nat), s.watch.clearing = some u →
    (exec (.fenceSelfTestDone false) s = .next { s with watch := { s.watch with clearing := none, clearResult := 4 } }) ∧
    (unitKind u ≠ some .egress → ∃ t : State, exec (.fenceSelfTestDone true) s = .next t ∧ t.eng u = .stopped
      ∧ t.watch.clearing = none ∧ t.watch.clearResult = 0 ∧ t.bit (ucb u Reg.UCB_CTRL) 0 = false ∧ t.mem = s.mem)) ∧
  (∀ (s : State) (agent v : Nat), s.armBlocks agent Reg.WATCH_SAFE_FORCE = false → v.testBit 0 = true →
    exec (.watchSafeForce agent v) s = .next (s.report 0x6002 agent 7 (regAddr Reg.WATCH_SAFE_FORCE))) ∧
  (∀ s : State, s.watch.safeAsked = true → s.watch.safe = false → ∃ t : State, exec .safeStateEntry s = .next t ∧ t.watch.safe = true
    ∧ (∀ n, n < 8 → (t.disp n).slate = true)) ∧
  (∀ (s : State) (p : Nat), s.watch.pairsFenced.contains p = false → p ≤ 1 → s.watch.selfLost = false →
    s.watch.lockstep = [] → ∃ t : State, exec (.lockstep p) s = .next t ∧ t.watch.lockstep = [(p, countNs s.tide.count)]
      ∧ t.watch.pairsFenced = s.watch.pairsFenced ∧ t.mem = s.mem) ∧
  (∀ s : State, exec .tideLost s = .next (s.report 0x6210 noAgent 0 0)
    ∧ exec .customsLost s = .next (s.report customsLostCode agentCus 0 0) ∧ exec .hmLost s = .next (s.report 0x6410 agentHm 0 0)
    ∧ exec .watchSelf s = .next { s with watch := { s.watch with
        selfLost := true, safeAsked := true, cause := if s.watch.safeAsked then s.watch.cause else some 0x6004 } })

/-- A SAFE report asks for the safe state, and its code is the cause; the first report is captured; a report below class 4 leaves the
active table as it is. -/
def Obligations.ReportsEnterTheWatch : Prop :=
  ∀ (s t : State) (code agent access addr : Nat), s.watch.selfLost = false → s.watch.safe = false → t = s.report code agent access addr →
    (code / 4096 = 6 → t.watch.safeAsked = true ∧ (s.watch.safeAsked = false → t.watch.cause = some code)) ∧
    (code / 4096 ≠ 6 → t.watch.safeAsked = s.watch.safeAsked ∧ t.watch.cause = s.watch.cause) ∧
    (∀ c, s.watch.fe = some c → t.watch.fe = some c) ∧
    (s.watch.fe = none → t.watch.fe = some { code, agent, access, addr, tide := s.reportTide, ns := s.nsInTide }) ∧
    (code / 4096 < 4 → t.watch.active = s.watch.active) ∧ t.mem = s.mem ∧ t.units = s.units

/-- A selection that R613 and R622 refuse is a usage error, another is staged. A sample configuration R621 refuses is a usage error, another is stored for the next tide; a crossing of the sampled counter is
recorded, or counted as missed while the previous record is being written (R613, R618, R621). -/
def Obligations.SoundingsCommandsAct : Prop :=
  (∀ (s : State) (agent src i v : Nat), s.armBlocks agent (sndBase src (i % 8)) = false →
    (unitKind src == some .group && decide (src < 0xF00)) = false →
    ((s.sndSelect agent src (i % 8) v).1 = true →
      exec (.sndSelWrite agent src i v) s = .next ((s.sndSelect agent src (i % 8) v).2.runtimeChanged false)) ∧
    ((s.sndSelect agent src (i % 8) v).1 = false →
      exec (.sndSelWrite agent src i v) s = .next (s.usageReg agent (sndBase src (i % 8))))) ∧
  (∀ (s : State) (agent v : Nat), s.armBlocks agent Reg.SND_SAMPLE_CFG = false →
    (s.sampleRefused v = false → exec (.sndSampleCfgWrite agent v) s
      = .next ((s.wr Reg.SND_SAMPLE_CFG (Nat.land v 0x0F07FFF3)).runtimeChanged false)) ∧
    (s.sampleRefused v = true → exec (.sndSampleCfgWrite agent v) s = .next (s.usageReg agent Reg.SND_SAMPLE_CFG))) ∧
  (∀ (s : State) (c r v : Nat), s.sndCfg % 4 ≠ 1 → ∀ b, exec (.skidSample c r v b) s = .next s) ∧
  (∀ (s : State) (c r v : Nat), s.sndCfg % 4 = 1 → exec (.skidSample c r v true) s = .next (s.bump Reg.SND_MISSED_LAST 1)) ∧
  (∀ (s : State) (c r v : Nat), s.sndCfg % 4 = 1 → ∃ t : State, exec (.skidSample c r v false) s = .next t ∧ t.bit Reg.SND_EVENT 1 = true
    ∧ t.units = s.units ∧ t.host = s.host)

/-! ### Rules stated whole -/

/-- R422. PWR_CEILING takes 90 to 300: a value outside that range is refused, keeps the old value and is recorded as a usage event; one
within it is staged, and the staged value is in force from the next tide start at which HOLD is 0. -/
def Obligations.CeilingStaysInRange : Prop :=
  (∀ (s : State) (agent v : Nat), s.noRegister agent Reg.PWR_CEILING = false → s.armBlocks agent Reg.PWR_CEILING = false →
    s.bit Reg.HOST_MBX_STATUS 0 = false →
    (bits v 8 0 < 90 ∨ 300 < bits v 8 0 → ∃ t : State, exec (.registerWrite agent Reg.PWR_CEILING v) s = .next t
      ∧ t = s.usageReg agent Reg.PWR_CEILING ∧ t.rd Reg.PWR_CEILING = s.rd Reg.PWR_CEILING ∧ t.staged = s.staged) ∧
    (90 ≤ bits v 8 0 → bits v 8 0 ≤ 300 → ∃ t : State, exec (.registerWrite agent Reg.PWR_CEILING v) s = .next t
      ∧ t.rd Reg.PWR_CEILING = s.rd Reg.PWR_CEILING
      ∧ t.staged = SMap.ins Reg.PWR_CEILING (BitVec.ofNat 32 (bits v 8 0)) s.staged)) ∧
  (∀ (s : State) (first : Bool) (n t0 v : Nat), SMap.rising s.staged = true → s.bit Reg.GLOBAL_STAGE_CTRL 0 = false →
    s.staged.find? (fun p => p.1 = Reg.PWR_CEILING) = some (Reg.PWR_CEILING, BitVec.ofNat 32 v) → v < two32 →
    (s.applyAll first n t0).rd Reg.PWR_CEILING = v)

/-- R475. The buffers of a pool are numbered by a global index from FIRST_INDEX to FIRST_INDEX + COUNT − 1, and that index locates the
buffer's bit in the allocation bitmap and its owner record, each buffer its own. -/
def Obligations.BuffersHaveGlobalIndices : Prop :=
  (∀ (s : State) (p i : Nat), i < s.poolCount p →
    s.globalIndex p (s.poolAddr p i) = s.poolFirst p + i ∧ s.poolFirst p ≤ s.globalIndex p (s.poolAddr p i)
      ∧ s.globalIndex p (s.poolAddr p i) ≤ s.poolFirst p + s.poolCount p - 1) ∧
  (∀ (s : State) (g : Nat), s.allocated g = (Memory.read s.mem (s.metaBase + g / 8)).testBit (g % 8)
    ∧ s.ownerOf g = s.rdM (s.metaBase + 0x100000 + 8 * g) 8 % 4096) ∧
  (∀ (s : State) (g h : Nat), g ≠ h → (s.bitAddr g ≠ s.bitAddr h ∨ g % 8 ≠ h % 8)
    ∧ (s.ownerAddr g + 8 ≤ s.ownerAddr h ∨ s.ownerAddr h + 8 ≤ s.ownerAddr g))

/-- R355. The module keeps the last 16 responses for each source; a request that repeats a kept SEQ and COMMAND is answered with the
kept response, and nothing else of the module changes. -/
def Obligations.RepeatedRequestIsAnsweredOnce : Prop :=
  (∀ (s : State) (q : Req) (cmd st : Nat) (b : List Nat),
    SMap.get (fun _ => []) (s.rmpReply q cmd st b).rmpKept (reqKey q)
        = (({ seq := q.seq, command := cmd, status := st, body := b } : RmpResp)
            :: SMap.get (fun _ => []) s.rmpKept (reqKey q)).take 16 ∧
    (∀ k, k ≠ reqKey q → SMap.get (fun _ => []) (s.rmpReply q cmd st b).rmpKept k = SMap.get (fun _ => []) s.rmpKept k)) ∧
  (∀ (s t : State) (q : Req) (cmd : Nat) (r : RmpResp) (b d : List Nat) (st : StartUp), s.rmpReach q = true →
    s.bit Reg.HOST_MBX_STATUS 0 = false →
    (SMap.get (fun _ => []) s.rmpKept (reqKey q)).find? (fun x => x.seq = q.seq && x.command = cmd) = some r →
    t = (if q.noReply then s else s.emit (.rmp (reqKey q) q.seq cmd r.status r.body)) →
    (cmd = 1 → exec (.get q b) s = .next t) ∧ (cmd = 2 → exec (.set q b) s = .next t) ∧
    (cmd = 3 → exec (.certRead q b) s = .next t) ∧ (cmd = 4 → exec (.quote q b) s = .next t) ∧
    (cmd = 5 → exec (.logRead q b) s = .next t) ∧ (cmd = 6 → exec (.memRead q b d) s = .next t) ∧
    (cmd = 0x10 → exec (.streamStart q b) s = .next t) ∧ (cmd = 0x11 → exec (.streamStop q b) s = .next t) ∧
    (cmd = 0x12 → exec (.layoutFlip q b) s = .next t) ∧ (cmd = 0x13 → exec (.storm q b) s = .next t) ∧
    (cmd = 0x14 → exec (.sndCtrl q b) s = .next t) ∧ (cmd = 0x15 → exec (.memWrite q b) s = .next t) ∧
    (cmd = 0x20 → exec (.flashOpen q b) s = .next t) ∧ (cmd = 0x21 → exec (.flashWrite q b) s = .next t) ∧
    (cmd = 0x22 → exec (.flashClose q b st) s = .next t) ∧ (cmd = 0x23 → exec (.fwCommit q b) s = .next t) ∧
    (cmd = 0x24 → exec (.factoryReset q b st) s = .next t) ∧ (cmd = 0x25 → exec (.ucwEnable q b) s = .next t) ∧
    (cmd = 0x26 → exec (.safeClear q b st) s = .next t) ∧ (cmd = 0x27 → exec (.spareDisable q b) s = .next t) ∧
    (cmd = 0x28 → exec (.sealClear q b) s = .next t))
end

