-- ==== Sys2Proof/Laws/Map.lean ====
section
/-! SUPPORT. Laws of sparse tables: a read after a set, and the canonical form kept. -/

namespace Sys2Proof.Machine

variable {α : Type}

@[simp] theorem SMap.get_nil (d : Nat → α) (k : Nat) : SMap.get d [] k = d k := rfl

theorem SMap.get_ins_same (d : Nat → α) (k : Nat) (v : α) (m : SMap α) : SMap.get d (SMap.ins k v m) k = v := by
  induction m with
  | nil => simp [SMap.ins, SMap.get]
  | cons p m ih =>
    obtain ⟨a, w⟩ := p
    simp only [SMap.ins]
    split
    · simp [SMap.get]
    · split
      · simp [SMap.get]
      · simp only [SMap.get]; rw [if_neg ‹_›]; exact ih

theorem SMap.get_ins_other (d : Nat → α) {j k : Nat} (v : α) (m : SMap α) (h : j ≠ k) :
    SMap.get d (SMap.ins k v m) j = SMap.get d m j := by
  induction m with
  | nil => simp [SMap.ins, SMap.get, Ne.symm h]
  | cons p m ih =>
    obtain ⟨a, w⟩ := p
    simp only [SMap.ins]
    split
    · subst a; simp [SMap.get, Ne.symm h]
    · split
      · simp [SMap.get, Ne.symm h]
      · simp only [SMap.get, ih]

theorem SMap.get_del_same (d : Nat → α) (k : Nat) (m : SMap α) : SMap.get d (SMap.del k m) k = d k := by
  induction m with
  | nil => rfl
  | cons p m ih =>
    obtain ⟨a, w⟩ := p
    simp only [SMap.del]
    split
    · exact ih
    · simp only [SMap.get]; rw [if_neg ‹_›]; exact ih

theorem SMap.get_del_other (d : Nat → α) {j k : Nat} (m : SMap α) (h : j ≠ k) :
    SMap.get d (SMap.del k m) j = SMap.get d m j := by
  induction m with
  | nil => rfl
  | cons p m ih =>
    obtain ⟨a, w⟩ := p
    simp only [SMap.del]
    split
    · subst a; simp [SMap.get, Ne.symm h, ih]
    · simp only [SMap.get, ih]

@[simp] theorem SMap.get_set_same [DecidableEq α] (d : Nat → α) (m : SMap α) (k : Nat) (v : α) :
    SMap.get d (SMap.set d m k v) k = v := by
  unfold SMap.set
  split
  · rw [SMap.get_del_same]; exact Eq.symm ‹_›
  · exact SMap.get_ins_same ..

theorem SMap.get_set_other [DecidableEq α] (d : Nat → α) (m : SMap α) {j k : Nat} (v : α) (h : j ≠ k) :
    SMap.get d (SMap.set d m k v) j = SMap.get d m j := by
  unfold SMap.set
  split
  · exact SMap.get_del_other d m h
  · exact SMap.get_ins_other d v m h

/-- One rule for both cases. -/
theorem SMap.get_set [DecidableEq α] (d : Nat → α) (m : SMap α) (j k : Nat) (v : α) :
    SMap.get d (SMap.set d m k v) j = if j = k then v else SMap.get d m j := by
  split
  · subst j; exact SMap.get_set_same ..
  · exact SMap.get_set_other _ _ _ ‹_›

/-! ### The canonical form -/

theorem SMap.mem_ins {k : Nat} {v : α} {m : SMap α} {p : Nat × α} (h : p ∈ SMap.ins k v m) : p = (k, v) ∨ p ∈ m := by
  induction m with
  | nil => simpa [SMap.ins] using h
  | cons q m ih =>
    obtain ⟨a, w⟩ := q
    simp only [SMap.ins] at h
    split at h
    · simp only [List.mem_cons] at h ⊢; tauto
    · split at h
      · simp only [List.mem_cons] at h ⊢; tauto
      · simp only [List.mem_cons] at h ⊢
        rcases h with h | h
        · exact .inr (.inl h)
        · rcases ih h with h | h
          · exact .inl h
          · exact .inr (.inr h)

theorem SMap.mem_del {k : Nat} {m : SMap α} {p : Nat × α} (h : p ∈ SMap.del k m) : p ∈ m := by
  induction m with
  | nil => simp [SMap.del] at h
  | cons q m ih =>
    obtain ⟨a, w⟩ := q
    simp only [SMap.del] at h
    split at h
    · exact List.mem_cons_of_mem _ (ih h)
    · simp only [List.mem_cons] at h ⊢
      exact h.imp id ih

theorem SMap.rising_cons {a : Nat} {w : α} {m : SMap α} :
    SMap.rising ((a, w) :: m) = true ↔ (∀ p ∈ m, a < p.1) ∧ SMap.rising m = true := by
  simp [SMap.rising]

theorem SMap.rising_ins {k : Nat} {v : α} {m : SMap α} (h : SMap.rising m = true) : SMap.rising (SMap.ins k v m) = true := by
  induction m with
  | nil => rfl
  | cons q m ih =>
    obtain ⟨a, w⟩ := q
    rw [SMap.rising_cons] at h
    simp only [SMap.ins]
    split
    · subst a; exact SMap.rising_cons.2 h
    · split
      · refine SMap.rising_cons.2 ⟨fun p hp => ?_, SMap.rising_cons.2 h⟩
        rcases List.mem_cons.1 hp with rfl | hp
        · assumption
        · exact lt_trans ‹k < a› (h.1 p hp)
      · refine SMap.rising_cons.2 ⟨fun p hp => ?_, ih h.2⟩
        rcases SMap.mem_ins hp with rfl | hp
        · simp only; omega
        · exact h.1 p hp

theorem SMap.rising_del {k : Nat} {m : SMap α} (h : SMap.rising m = true) : SMap.rising (SMap.del k m) = true := by
  induction m with
  | nil => rfl
  | cons q m ih =>
    obtain ⟨a, w⟩ := q
    rw [SMap.rising_cons] at h
    simp only [SMap.del]
    split
    · exact ih h.2
    · exact SMap.rising_cons.2 ⟨fun p hp => h.1 p (SMap.mem_del hp), ih h.2⟩

theorem SMap.wf_iff [DecidableEq α] {d : Nat → α} {m : SMap α} :
    SMap.wf d m = true ↔ SMap.rising m = true ∧ ∀ p ∈ m, p.2 ≠ d p.1 := by
  simp [SMap.wf]

@[simp] theorem SMap.wf_nil [DecidableEq α] (d : Nat → α) : SMap.wf d [] = true := rfl

/-- Setting a value keeps the canonical form. -/
theorem SMap.wf_set [DecidableEq α] {d : Nat → α} {m : SMap α} (k : Nat) (v : α) (h : SMap.wf d m = true) :
    SMap.wf d (SMap.set d m k v) = true := by
  rw [SMap.wf_iff] at h ⊢
  unfold SMap.set
  split
  · exact ⟨SMap.rising_del h.1, fun p hp => h.2 p (SMap.mem_del hp)⟩
  · refine ⟨SMap.rising_ins h.1, fun p hp => ?_⟩
    rcases SMap.mem_ins hp with rfl | hp
    · assumption
    · exact h.2 p hp

end Sys2Proof.Machine
end

