-- ==== Sys2Proof/Laws/State.lean ====
section
/-! SUPPORT. One lemma per field per update: what each update of the state leaves as it was, and reads after writes. -/

namespace Sys2Proof.Machine

/-! `State.wr` changes `regs` alone. -/

@[simp] theorem State.wr_staged (o v : Nat) (s : State) : (s.wr o v).staged = s.staged := rfl
@[simp] theorem State.wr_hold (o v : Nat) (s : State) : (s.wr o v).hold = s.hold := rfl
@[simp] theorem State.wr_snaps (o v : Nat) (s : State) : (s.wr o v).snaps = s.snaps := rfl
@[simp] theorem State.wr_counts (o v : Nat) (s : State) : (s.wr o v).counts = s.counts := rfl
@[simp] theorem State.wr_mem (o v : Nat) (s : State) : (s.wr o v).mem = s.mem := rfl
@[simp] theorem State.wr_spad (o v : Nat) (s : State) : (s.wr o v).spad = s.spad := rfl
@[simp] theorem State.wr_cs (o v : Nat) (s : State) : (s.wr o v).cs = s.cs := rfl
@[simp] theorem State.wr_ident (o v : Nat) (s : State) : (s.wr o v).ident = s.ident := rfl
@[simp] theorem State.wr_boot (o v : Nat) (s : State) : (s.wr o v).boot = s.boot := rfl
@[simp] theorem State.wr_tide (o v : Nat) (s : State) : (s.wr o v).tide = s.tide := rfl
@[simp] theorem State.wr_units (o v : Nat) (s : State) : (s.wr o v).units = s.units := rfl
@[simp] theorem State.wr_queues (o v : Nat) (s : State) : (s.wr o v).queues = s.queues := rfl
@[simp] theorem State.wr_books (o v : Nat) (s : State) : (s.wr o v).books = s.books := rfl
@[simp] theorem State.wr_gates (o v : Nat) (s : State) : (s.wr o v).gates = s.gates := rfl
@[simp] theorem State.wr_memsys (o v : Nat) (s : State) : (s.wr o v).memsys = s.memsys := rfl
@[simp] theorem State.wr_ports (o v : Nat) (s : State) : (s.wr o v).ports = s.ports := rfl
@[simp] theorem State.wr_power (o v : Nat) (s : State) : (s.wr o v).power = s.power := rfl
@[simp] theorem State.wr_pools (o v : Nat) (s : State) : (s.wr o v).pools = s.pools := rfl
@[simp] theorem State.wr_host (o v : Nat) (s : State) : (s.wr o v).host = s.host := rfl
@[simp] theorem State.wr_bell (o v : Nat) (s : State) : (s.wr o v).bell = s.bell := rfl
@[simp] theorem State.wr_watch (o v : Nat) (s : State) : (s.wr o v).watch = s.watch := rfl
@[simp] theorem State.wr_storms (o v : Nat) (s : State) : (s.wr o v).storms = s.storms := rfl
@[simp] theorem State.wr_stormLate (o v : Nat) (s : State) : (s.wr o v).stormLate = s.stormLate := rfl
@[simp] theorem State.wr_stormText (o v : Nat) (s : State) : (s.wr o v).stormText = s.stormText := rfl
@[simp] theorem State.wr_disps (o v : Nat) (s : State) : (s.wr o v).disps = s.disps := rfl
@[simp] theorem State.wr_slate (o v : Nat) (s : State) : (s.wr o v).slate = s.slate := rfl
@[simp] theorem State.wr_picSent (o v : Nat) (s : State) : (s.wr o v).picSent = s.picSent := rfl
@[simp] theorem State.wr_picDone (o v : Nat) (s : State) : (s.wr o v).picDone = s.picDone := rfl
@[simp] theorem State.wr_layouts (o v : Nat) (s : State) : (s.wr o v).layouts = s.layouts := rfl
@[simp] theorem State.wr_i2cOfs (o v : Nat) (s : State) : (s.wr o v).i2cOfs = s.i2cOfs := rfl
@[simp] theorem State.wr_i2cWait (o v : Nat) (s : State) : (s.wr o v).i2cWait = s.i2cWait := rfl
@[simp] theorem State.wr_lts (o v : Nat) (s : State) : (s.wr o v).lts = s.lts := rfl
@[simp] theorem State.wr_ltRem (o v : Nat) (s : State) : (s.wr o v).ltRem = s.ltRem := rfl
@[simp] theorem State.wr_autostart (o v : Nat) (s : State) : (s.wr o v).autostart = s.autostart := rfl
@[simp] theorem State.wr_metaSet (o v : Nat) (s : State) : (s.wr o v).metaSet = s.metaSet := rfl
@[simp] theorem State.wr_police (o v : Nat) (s : State) : (s.wr o v).police = s.police := rfl
@[simp] theorem State.wr_rx (o v : Nat) (s : State) : (s.wr o v).rx = s.rx := rfl
@[simp] theorem State.wr_pes (o v : Nat) (s : State) : (s.wr o v).pes = s.pes := rfl
@[simp] theorem State.wr_flowSeq (o v : Nat) (s : State) : (s.wr o v).flowSeq = s.flowSeq := rfl
@[simp] theorem State.wr_feeds (o v : Nat) (s : State) : (s.wr o v).feeds = s.feeds := rfl
@[simp] theorem State.wr_pathLost (o v : Nat) (s : State) : (s.wr o v).pathLost = s.pathLost := rfl
@[simp] theorem State.wr_rmpKept (o v : Nat) (s : State) : (s.wr o v).rmpKept = s.rmpKept := rfl
@[simp] theorem State.wr_sndCfg (o v : Nat) (s : State) : (s.wr o v).sndCfg = s.sndCfg := rfl
@[simp] theorem State.wr_sndLfsr (o v : Nat) (s : State) : (s.wr o v).sndLfsr = s.sndLfsr := rfl
@[simp] theorem State.wr_sndBased (o v : Nat) (s : State) : (s.wr o v).sndBased = s.sndBased := rfl
@[simp] theorem State.wr_decs (o v : Nat) (s : State) : (s.wr o v).decs = s.decs := rfl
@[simp] theorem State.wr_quays (o v : Nat) (s : State) : (s.wr o v).quays = s.quays := rfl
@[simp] theorem State.wr_encs (o v : Nat) (s : State) : (s.wr o v).encs = s.encs := rfl
@[simp] theorem State.wr_windows (o v : Nat) (s : State) : (s.wr o v).windows = s.windows := rfl
@[simp] theorem State.wr_ctxDie (o v : Nat) (s : State) : (s.wr o v).ctxDie = s.ctxDie := rfl
@[simp] theorem State.wr_ucwNext (o v : Nat) (s : State) : (s.wr o v).ucwNext = s.ucwNext := rfl
@[simp] theorem State.wr_comps (o v : Nat) (s : State) : (s.wr o v).comps = s.comps := rfl
@[simp] theorem State.wr_flowTs (o v : Nat) (s : State) : (s.wr o v).flowTs = s.flowTs := rfl
@[simp] theorem State.wr_sndEnded (o v : Nat) (s : State) : (s.wr o v).sndEnded = s.sndEnded := rfl
@[simp] theorem State.wr_out (o v : Nat) (s : State) : (s.wr o v).out = s.out := rfl
@[simp] theorem State.wr_freeCtr (o v : Nat) (s : State) : (s.wr o v).freeCtr = s.freeCtr := rfl
@[simp] theorem State.wr_pending (o v : Nat) (s : State) : (s.wr o v).pending = s.pending := rfl

/-! `State.wrFld` changes `regs` alone. -/

@[simp] theorem State.wrFld_staged (o hi lo v : Nat) (s : State) : (s.wrFld o hi lo v).staged = s.staged := rfl
@[simp] theorem State.wrFld_hold (o hi lo v : Nat) (s : State) : (s.wrFld o hi lo v).hold = s.hold := rfl
@[simp] theorem State.wrFld_snaps (o hi lo v : Nat) (s : State) : (s.wrFld o hi lo v).snaps = s.snaps := rfl
@[simp] theorem State.wrFld_counts (o hi lo v : Nat) (s : State) : (s.wrFld o hi lo v).counts = s.counts := rfl
@[simp] theorem State.wrFld_mem (o hi lo v : Nat) (s : State) : (s.wrFld o hi lo v).mem = s.mem := rfl
@[simp] theorem State.wrFld_spad (o hi lo v : Nat) (s : State) : (s.wrFld o hi lo v).spad = s.spad := rfl
@[simp] theorem State.wrFld_cs (o hi lo v : Nat) (s : State) : (s.wrFld o hi lo v).cs = s.cs := rfl
@[simp] theorem State.wrFld_ident (o hi lo v : Nat) (s : State) : (s.wrFld o hi lo v).ident = s.ident := rfl
@[simp] theorem State.wrFld_boot (o hi lo v : Nat) (s : State) : (s.wrFld o hi lo v).boot = s.boot := rfl
@[simp] theorem State.wrFld_tide (o hi lo v : Nat) (s : State) : (s.wrFld o hi lo v).tide = s.tide := rfl
@[simp] theorem State.wrFld_units (o hi lo v : Nat) (s : State) : (s.wrFld o hi lo v).units = s.units := rfl
@[simp] theorem State.wrFld_queues (o hi lo v : Nat) (s : State) : (s.wrFld o hi lo v).queues = s.queues := rfl
@[simp] theorem State.wrFld_books (o hi lo v : Nat) (s : State) : (s.wrFld o hi lo v).books = s.books := rfl
@[simp] theorem State.wrFld_gates (o hi lo v : Nat) (s : State) : (s.wrFld o hi lo v).gates = s.gates := rfl
@[simp] theorem State.wrFld_memsys (o hi lo v : Nat) (s : State) : (s.wrFld o hi lo v).memsys = s.memsys := rfl
@[simp] theorem State.wrFld_ports (o hi lo v : Nat) (s : State) : (s.wrFld o hi lo v).ports = s.ports := rfl
@[simp] theorem State.wrFld_power (o hi lo v : Nat) (s : State) : (s.wrFld o hi lo v).power = s.power := rfl
@[simp] theorem State.wrFld_pools (o hi lo v : Nat) (s : State) : (s.wrFld o hi lo v).pools = s.pools := rfl
@[simp] theorem State.wrFld_host (o hi lo v : Nat) (s : State) : (s.wrFld o hi lo v).host = s.host := rfl
@[simp] theorem State.wrFld_bell (o hi lo v : Nat) (s : State) : (s.wrFld o hi lo v).bell = s.bell := rfl
@[simp] theorem State.wrFld_watch (o hi lo v : Nat) (s : State) : (s.wrFld o hi lo v).watch = s.watch := rfl
@[simp] theorem State.wrFld_storms (o hi lo v : Nat) (s : State) : (s.wrFld o hi lo v).storms = s.storms := rfl
@[simp] theorem State.wrFld_stormLate (o hi lo v : Nat) (s : State) : (s.wrFld o hi lo v).stormLate = s.stormLate := rfl
@[simp] theorem State.wrFld_stormText (o hi lo v : Nat) (s : State) : (s.wrFld o hi lo v).stormText = s.stormText := rfl
@[simp] theorem State.wrFld_disps (o hi lo v : Nat) (s : State) : (s.wrFld o hi lo v).disps = s.disps := rfl
@[simp] theorem State.wrFld_slate (o hi lo v : Nat) (s : State) : (s.wrFld o hi lo v).slate = s.slate := rfl
@[simp] theorem State.wrFld_picSent (o hi lo v : Nat) (s : State) : (s.wrFld o hi lo v).picSent = s.picSent := rfl
@[simp] theorem State.wrFld_picDone (o hi lo v : Nat) (s : State) : (s.wrFld o hi lo v).picDone = s.picDone := rfl
@[simp] theorem State.wrFld_layouts (o hi lo v : Nat) (s : State) : (s.wrFld o hi lo v).layouts = s.layouts := rfl
@[simp] theorem State.wrFld_i2cOfs (o hi lo v : Nat) (s : State) : (s.wrFld o hi lo v).i2cOfs = s.i2cOfs := rfl
@[simp] theorem State.wrFld_i2cWait (o hi lo v : Nat) (s : State) : (s.wrFld o hi lo v).i2cWait = s.i2cWait := rfl
@[simp] theorem State.wrFld_lts (o hi lo v : Nat) (s : State) : (s.wrFld o hi lo v).lts = s.lts := rfl
@[simp] theorem State.wrFld_ltRem (o hi lo v : Nat) (s : State) : (s.wrFld o hi lo v).ltRem = s.ltRem := rfl
@[simp] theorem State.wrFld_autostart (o hi lo v : Nat) (s : State) : (s.wrFld o hi lo v).autostart = s.autostart := rfl
@[simp] theorem State.wrFld_metaSet (o hi lo v : Nat) (s : State) : (s.wrFld o hi lo v).metaSet = s.metaSet := rfl
@[simp] theorem State.wrFld_police (o hi lo v : Nat) (s : State) : (s.wrFld o hi lo v).police = s.police := rfl
@[simp] theorem State.wrFld_rx (o hi lo v : Nat) (s : State) : (s.wrFld o hi lo v).rx = s.rx := rfl
@[simp] theorem State.wrFld_pes (o hi lo v : Nat) (s : State) : (s.wrFld o hi lo v).pes = s.pes := rfl
@[simp] theorem State.wrFld_flowSeq (o hi lo v : Nat) (s : State) : (s.wrFld o hi lo v).flowSeq = s.flowSeq := rfl
@[simp] theorem State.wrFld_feeds (o hi lo v : Nat) (s : State) : (s.wrFld o hi lo v).feeds = s.feeds := rfl
@[simp] theorem State.wrFld_pathLost (o hi lo v : Nat) (s : State) : (s.wrFld o hi lo v).pathLost = s.pathLost := rfl
@[simp] theorem State.wrFld_rmpKept (o hi lo v : Nat) (s : State) : (s.wrFld o hi lo v).rmpKept = s.rmpKept := rfl
@[simp] theorem State.wrFld_sndCfg (o hi lo v : Nat) (s : State) : (s.wrFld o hi lo v).sndCfg = s.sndCfg := rfl
@[simp] theorem State.wrFld_sndLfsr (o hi lo v : Nat) (s : State) : (s.wrFld o hi lo v).sndLfsr = s.sndLfsr := rfl
@[simp] theorem State.wrFld_sndBased (o hi lo v : Nat) (s : State) : (s.wrFld o hi lo v).sndBased = s.sndBased := rfl
@[simp] theorem State.wrFld_decs (o hi lo v : Nat) (s : State) : (s.wrFld o hi lo v).decs = s.decs := rfl
@[simp] theorem State.wrFld_quays (o hi lo v : Nat) (s : State) : (s.wrFld o hi lo v).quays = s.quays := rfl
@[simp] theorem State.wrFld_encs (o hi lo v : Nat) (s : State) : (s.wrFld o hi lo v).encs = s.encs := rfl
@[simp] theorem State.wrFld_windows (o hi lo v : Nat) (s : State) : (s.wrFld o hi lo v).windows = s.windows := rfl
@[simp] theorem State.wrFld_ctxDie (o hi lo v : Nat) (s : State) : (s.wrFld o hi lo v).ctxDie = s.ctxDie := rfl
@[simp] theorem State.wrFld_ucwNext (o hi lo v : Nat) (s : State) : (s.wrFld o hi lo v).ucwNext = s.ucwNext := rfl
@[simp] theorem State.wrFld_comps (o hi lo v : Nat) (s : State) : (s.wrFld o hi lo v).comps = s.comps := rfl
@[simp] theorem State.wrFld_flowTs (o hi lo v : Nat) (s : State) : (s.wrFld o hi lo v).flowTs = s.flowTs := rfl
@[simp] theorem State.wrFld_sndEnded (o hi lo v : Nat) (s : State) : (s.wrFld o hi lo v).sndEnded = s.sndEnded := rfl
@[simp] theorem State.wrFld_out (o hi lo v : Nat) (s : State) : (s.wrFld o hi lo v).out = s.out := rfl
@[simp] theorem State.wrFld_freeCtr (o hi lo v : Nat) (s : State) : (s.wrFld o hi lo v).freeCtr = s.freeCtr := rfl
@[simp] theorem State.wrFld_pending (o hi lo v : Nat) (s : State) : (s.wrFld o hi lo v).pending = s.pending := rfl

/-! `State.setBit` changes `regs` alone. -/

@[simp] theorem State.setBit_staged (o b : Nat) (s : State) : (s.setBit o b).staged = s.staged := rfl
@[simp] theorem State.setBit_hold (o b : Nat) (s : State) : (s.setBit o b).hold = s.hold := rfl
@[simp] theorem State.setBit_snaps (o b : Nat) (s : State) : (s.setBit o b).snaps = s.snaps := rfl
@[simp] theorem State.setBit_counts (o b : Nat) (s : State) : (s.setBit o b).counts = s.counts := rfl
@[simp] theorem State.setBit_mem (o b : Nat) (s : State) : (s.setBit o b).mem = s.mem := rfl
@[simp] theorem State.setBit_spad (o b : Nat) (s : State) : (s.setBit o b).spad = s.spad := rfl
@[simp] theorem State.setBit_cs (o b : Nat) (s : State) : (s.setBit o b).cs = s.cs := rfl
@[simp] theorem State.setBit_ident (o b : Nat) (s : State) : (s.setBit o b).ident = s.ident := rfl
@[simp] theorem State.setBit_boot (o b : Nat) (s : State) : (s.setBit o b).boot = s.boot := rfl
@[simp] theorem State.setBit_tide (o b : Nat) (s : State) : (s.setBit o b).tide = s.tide := rfl
@[simp] theorem State.setBit_units (o b : Nat) (s : State) : (s.setBit o b).units = s.units := rfl
@[simp] theorem State.setBit_queues (o b : Nat) (s : State) : (s.setBit o b).queues = s.queues := rfl
@[simp] theorem State.setBit_books (o b : Nat) (s : State) : (s.setBit o b).books = s.books := rfl
@[simp] theorem State.setBit_gates (o b : Nat) (s : State) : (s.setBit o b).gates = s.gates := rfl
@[simp] theorem State.setBit_memsys (o b : Nat) (s : State) : (s.setBit o b).memsys = s.memsys := rfl
@[simp] theorem State.setBit_ports (o b : Nat) (s : State) : (s.setBit o b).ports = s.ports := rfl
@[simp] theorem State.setBit_power (o b : Nat) (s : State) : (s.setBit o b).power = s.power := rfl
@[simp] theorem State.setBit_pools (o b : Nat) (s : State) : (s.setBit o b).pools = s.pools := rfl
@[simp] theorem State.setBit_host (o b : Nat) (s : State) : (s.setBit o b).host = s.host := rfl
@[simp] theorem State.setBit_bell (o b : Nat) (s : State) : (s.setBit o b).bell = s.bell := rfl
@[simp] theorem State.setBit_watch (o b : Nat) (s : State) : (s.setBit o b).watch = s.watch := rfl
@[simp] theorem State.setBit_storms (o b : Nat) (s : State) : (s.setBit o b).storms = s.storms := rfl
@[simp] theorem State.setBit_stormLate (o b : Nat) (s : State) : (s.setBit o b).stormLate = s.stormLate := rfl
@[simp] theorem State.setBit_stormText (o b : Nat) (s : State) : (s.setBit o b).stormText = s.stormText := rfl
@[simp] theorem State.setBit_disps (o b : Nat) (s : State) : (s.setBit o b).disps = s.disps := rfl
@[simp] theorem State.setBit_slate (o b : Nat) (s : State) : (s.setBit o b).slate = s.slate := rfl
@[simp] theorem State.setBit_picSent (o b : Nat) (s : State) : (s.setBit o b).picSent = s.picSent := rfl
@[simp] theorem State.setBit_picDone (o b : Nat) (s : State) : (s.setBit o b).picDone = s.picDone := rfl
@[simp] theorem State.setBit_layouts (o b : Nat) (s : State) : (s.setBit o b).layouts = s.layouts := rfl
@[simp] theorem State.setBit_i2cOfs (o b : Nat) (s : State) : (s.setBit o b).i2cOfs = s.i2cOfs := rfl
@[simp] theorem State.setBit_i2cWait (o b : Nat) (s : State) : (s.setBit o b).i2cWait = s.i2cWait := rfl
@[simp] theorem State.setBit_lts (o b : Nat) (s : State) : (s.setBit o b).lts = s.lts := rfl
@[simp] theorem State.setBit_ltRem (o b : Nat) (s : State) : (s.setBit o b).ltRem = s.ltRem := rfl
@[simp] theorem State.setBit_autostart (o b : Nat) (s : State) : (s.setBit o b).autostart = s.autostart := rfl
@[simp] theorem State.setBit_metaSet (o b : Nat) (s : State) : (s.setBit o b).metaSet = s.metaSet := rfl
@[simp] theorem State.setBit_police (o b : Nat) (s : State) : (s.setBit o b).police = s.police := rfl
@[simp] theorem State.setBit_rx (o b : Nat) (s : State) : (s.setBit o b).rx = s.rx := rfl
@[simp] theorem State.setBit_pes (o b : Nat) (s : State) : (s.setBit o b).pes = s.pes := rfl
@[simp] theorem State.setBit_flowSeq (o b : Nat) (s : State) : (s.setBit o b).flowSeq = s.flowSeq := rfl
@[simp] theorem State.setBit_feeds (o b : Nat) (s : State) : (s.setBit o b).feeds = s.feeds := rfl
@[simp] theorem State.setBit_pathLost (o b : Nat) (s : State) : (s.setBit o b).pathLost = s.pathLost := rfl
@[simp] theorem State.setBit_rmpKept (o b : Nat) (s : State) : (s.setBit o b).rmpKept = s.rmpKept := rfl
@[simp] theorem State.setBit_sndCfg (o b : Nat) (s : State) : (s.setBit o b).sndCfg = s.sndCfg := rfl
@[simp] theorem State.setBit_sndLfsr (o b : Nat) (s : State) : (s.setBit o b).sndLfsr = s.sndLfsr := rfl
@[simp] theorem State.setBit_sndBased (o b : Nat) (s : State) : (s.setBit o b).sndBased = s.sndBased := rfl
@[simp] theorem State.setBit_decs (o b : Nat) (s : State) : (s.setBit o b).decs = s.decs := rfl
@[simp] theorem State.setBit_quays (o b : Nat) (s : State) : (s.setBit o b).quays = s.quays := rfl
@[simp] theorem State.setBit_encs (o b : Nat) (s : State) : (s.setBit o b).encs = s.encs := rfl
@[simp] theorem State.setBit_windows (o b : Nat) (s : State) : (s.setBit o b).windows = s.windows := rfl
@[simp] theorem State.setBit_ctxDie (o b : Nat) (s : State) : (s.setBit o b).ctxDie = s.ctxDie := rfl
@[simp] theorem State.setBit_ucwNext (o b : Nat) (s : State) : (s.setBit o b).ucwNext = s.ucwNext := rfl
@[simp] theorem State.setBit_comps (o b : Nat) (s : State) : (s.setBit o b).comps = s.comps := rfl
@[simp] theorem State.setBit_flowTs (o b : Nat) (s : State) : (s.setBit o b).flowTs = s.flowTs := rfl
@[simp] theorem State.setBit_sndEnded (o b : Nat) (s : State) : (s.setBit o b).sndEnded = s.sndEnded := rfl
@[simp] theorem State.setBit_out (o b : Nat) (s : State) : (s.setBit o b).out = s.out := rfl
@[simp] theorem State.setBit_freeCtr (o b : Nat) (s : State) : (s.setBit o b).freeCtr = s.freeCtr := rfl
@[simp] theorem State.setBit_pending (o b : Nat) (s : State) : (s.setBit o b).pending = s.pending := rfl

/-! `State.clrBit` changes `regs` alone. -/

@[simp] theorem State.clrBit_staged (o b : Nat) (s : State) : (s.clrBit o b).staged = s.staged := rfl
@[simp] theorem State.clrBit_hold (o b : Nat) (s : State) : (s.clrBit o b).hold = s.hold := rfl
@[simp] theorem State.clrBit_snaps (o b : Nat) (s : State) : (s.clrBit o b).snaps = s.snaps := rfl
@[simp] theorem State.clrBit_counts (o b : Nat) (s : State) : (s.clrBit o b).counts = s.counts := rfl
@[simp] theorem State.clrBit_mem (o b : Nat) (s : State) : (s.clrBit o b).mem = s.mem := rfl
@[simp] theorem State.clrBit_spad (o b : Nat) (s : State) : (s.clrBit o b).spad = s.spad := rfl
@[simp] theorem State.clrBit_cs (o b : Nat) (s : State) : (s.clrBit o b).cs = s.cs := rfl
@[simp] theorem State.clrBit_ident (o b : Nat) (s : State) : (s.clrBit o b).ident = s.ident := rfl
@[simp] theorem State.clrBit_boot (o b : Nat) (s : State) : (s.clrBit o b).boot = s.boot := rfl
@[simp] theorem State.clrBit_tide (o b : Nat) (s : State) : (s.clrBit o b).tide = s.tide := rfl
@[simp] theorem State.clrBit_units (o b : Nat) (s : State) : (s.clrBit o b).units = s.units := rfl
@[simp] theorem State.clrBit_queues (o b : Nat) (s : State) : (s.clrBit o b).queues = s.queues := rfl
@[simp] theorem State.clrBit_books (o b : Nat) (s : State) : (s.clrBit o b).books = s.books := rfl
@[simp] theorem State.clrBit_gates (o b : Nat) (s : State) : (s.clrBit o b).gates = s.gates := rfl
@[simp] theorem State.clrBit_memsys (o b : Nat) (s : State) : (s.clrBit o b).memsys = s.memsys := rfl
@[simp] theorem State.clrBit_ports (o b : Nat) (s : State) : (s.clrBit o b).ports = s.ports := rfl
@[simp] theorem State.clrBit_power (o b : Nat) (s : State) : (s.clrBit o b).power = s.power := rfl
@[simp] theorem State.clrBit_pools (o b : Nat) (s : State) : (s.clrBit o b).pools = s.pools := rfl
@[simp] theorem State.clrBit_host (o b : Nat) (s : State) : (s.clrBit o b).host = s.host := rfl
@[simp] theorem State.clrBit_bell (o b : Nat) (s : State) : (s.clrBit o b).bell = s.bell := rfl
@[simp] theorem State.clrBit_watch (o b : Nat) (s : State) : (s.clrBit o b).watch = s.watch := rfl
@[simp] theorem State.clrBit_storms (o b : Nat) (s : State) : (s.clrBit o b).storms = s.storms := rfl
@[simp] theorem State.clrBit_stormLate (o b : Nat) (s : State) : (s.clrBit o b).stormLate = s.stormLate := rfl
@[simp] theorem State.clrBit_stormText (o b : Nat) (s : State) : (s.clrBit o b).stormText = s.stormText := rfl
@[simp] theorem State.clrBit_disps (o b : Nat) (s : State) : (s.clrBit o b).disps = s.disps := rfl
@[simp] theorem State.clrBit_slate (o b : Nat) (s : State) : (s.clrBit o b).slate = s.slate := rfl
@[simp] theorem State.clrBit_picSent (o b : Nat) (s : State) : (s.clrBit o b).picSent = s.picSent := rfl
@[simp] theorem State.clrBit_picDone (o b : Nat) (s : State) : (s.clrBit o b).picDone = s.picDone := rfl
@[simp] theorem State.clrBit_layouts (o b : Nat) (s : State) : (s.clrBit o b).layouts = s.layouts := rfl
@[simp] theorem State.clrBit_i2cOfs (o b : Nat) (s : State) : (s.clrBit o b).i2cOfs = s.i2cOfs := rfl
@[simp] theorem State.clrBit_i2cWait (o b : Nat) (s : State) : (s.clrBit o b).i2cWait = s.i2cWait := rfl
@[simp] theorem State.clrBit_lts (o b : Nat) (s : State) : (s.clrBit o b).lts = s.lts := rfl
@[simp] theorem State.clrBit_ltRem (o b : Nat) (s : State) : (s.clrBit o b).ltRem = s.ltRem := rfl
@[simp] theorem State.clrBit_autostart (o b : Nat) (s : State) : (s.clrBit o b).autostart = s.autostart := rfl
@[simp] theorem State.clrBit_metaSet (o b : Nat) (s : State) : (s.clrBit o b).metaSet = s.metaSet := rfl
@[simp] theorem State.clrBit_police (o b : Nat) (s : State) : (s.clrBit o b).police = s.police := rfl
@[simp] theorem State.clrBit_rx (o b : Nat) (s : State) : (s.clrBit o b).rx = s.rx := rfl
@[simp] theorem State.clrBit_pes (o b : Nat) (s : State) : (s.clrBit o b).pes = s.pes := rfl
@[simp] theorem State.clrBit_flowSeq (o b : Nat) (s : State) : (s.clrBit o b).flowSeq = s.flowSeq := rfl
@[simp] theorem State.clrBit_feeds (o b : Nat) (s : State) : (s.clrBit o b).feeds = s.feeds := rfl
@[simp] theorem State.clrBit_pathLost (o b : Nat) (s : State) : (s.clrBit o b).pathLost = s.pathLost := rfl
@[simp] theorem State.clrBit_rmpKept (o b : Nat) (s : State) : (s.clrBit o b).rmpKept = s.rmpKept := rfl
@[simp] theorem State.clrBit_sndCfg (o b : Nat) (s : State) : (s.clrBit o b).sndCfg = s.sndCfg := rfl
@[simp] theorem State.clrBit_sndLfsr (o b : Nat) (s : State) : (s.clrBit o b).sndLfsr = s.sndLfsr := rfl
@[simp] theorem State.clrBit_sndBased (o b : Nat) (s : State) : (s.clrBit o b).sndBased = s.sndBased := rfl
@[simp] theorem State.clrBit_decs (o b : Nat) (s : State) : (s.clrBit o b).decs = s.decs := rfl
@[simp] theorem State.clrBit_quays (o b : Nat) (s : State) : (s.clrBit o b).quays = s.quays := rfl
@[simp] theorem State.clrBit_encs (o b : Nat) (s : State) : (s.clrBit o b).encs = s.encs := rfl
@[simp] theorem State.clrBit_windows (o b : Nat) (s : State) : (s.clrBit o b).windows = s.windows := rfl
@[simp] theorem State.clrBit_ctxDie (o b : Nat) (s : State) : (s.clrBit o b).ctxDie = s.ctxDie := rfl
@[simp] theorem State.clrBit_ucwNext (o b : Nat) (s : State) : (s.clrBit o b).ucwNext = s.ucwNext := rfl
@[simp] theorem State.clrBit_comps (o b : Nat) (s : State) : (s.clrBit o b).comps = s.comps := rfl
@[simp] theorem State.clrBit_flowTs (o b : Nat) (s : State) : (s.clrBit o b).flowTs = s.flowTs := rfl
@[simp] theorem State.clrBit_sndEnded (o b : Nat) (s : State) : (s.clrBit o b).sndEnded = s.sndEnded := rfl
@[simp] theorem State.clrBit_out (o b : Nat) (s : State) : (s.clrBit o b).out = s.out := rfl
@[simp] theorem State.clrBit_freeCtr (o b : Nat) (s : State) : (s.clrBit o b).freeCtr = s.freeCtr := rfl
@[simp] theorem State.clrBit_pending (o b : Nat) (s : State) : (s.clrBit o b).pending = s.pending := rfl

/-! `State.putBit` changes `regs` alone. -/

@[simp] theorem State.putBit_staged (o b : Nat) (v : Bool) (s : State) : (s.putBit o b v).staged = s.staged := rfl
@[simp] theorem State.putBit_hold (o b : Nat) (v : Bool) (s : State) : (s.putBit o b v).hold = s.hold := rfl
@[simp] theorem State.putBit_snaps (o b : Nat) (v : Bool) (s : State) : (s.putBit o b v).snaps = s.snaps := rfl
@[simp] theorem State.putBit_counts (o b : Nat) (v : Bool) (s : State) : (s.putBit o b v).counts = s.counts := rfl
@[simp] theorem State.putBit_mem (o b : Nat) (v : Bool) (s : State) : (s.putBit o b v).mem = s.mem := rfl
@[simp] theorem State.putBit_spad (o b : Nat) (v : Bool) (s : State) : (s.putBit o b v).spad = s.spad := rfl
@[simp] theorem State.putBit_cs (o b : Nat) (v : Bool) (s : State) : (s.putBit o b v).cs = s.cs := rfl
@[simp] theorem State.putBit_ident (o b : Nat) (v : Bool) (s : State) : (s.putBit o b v).ident = s.ident := rfl
@[simp] theorem State.putBit_boot (o b : Nat) (v : Bool) (s : State) : (s.putBit o b v).boot = s.boot := rfl
@[simp] theorem State.putBit_tide (o b : Nat) (v : Bool) (s : State) : (s.putBit o b v).tide = s.tide := rfl
@[simp] theorem State.putBit_units (o b : Nat) (v : Bool) (s : State) : (s.putBit o b v).units = s.units := rfl
@[simp] theorem State.putBit_queues (o b : Nat) (v : Bool) (s : State) : (s.putBit o b v).queues = s.queues := rfl
@[simp] theorem State.putBit_books (o b : Nat) (v : Bool) (s : State) : (s.putBit o b v).books = s.books := rfl
@[simp] theorem State.putBit_gates (o b : Nat) (v : Bool) (s : State) : (s.putBit o b v).gates = s.gates := rfl
@[simp] theorem State.putBit_memsys (o b : Nat) (v : Bool) (s : State) : (s.putBit o b v).memsys = s.memsys := rfl
@[simp] theorem State.putBit_ports (o b : Nat) (v : Bool) (s : State) : (s.putBit o b v).ports = s.ports := rfl
@[simp] theorem State.putBit_power (o b : Nat) (v : Bool) (s : State) : (s.putBit o b v).power = s.power := rfl
@[simp] theorem State.putBit_pools (o b : Nat) (v : Bool) (s : State) : (s.putBit o b v).pools = s.pools := rfl
@[simp] theorem State.putBit_host (o b : Nat) (v : Bool) (s : State) : (s.putBit o b v).host = s.host := rfl
@[simp] theorem State.putBit_bell (o b : Nat) (v : Bool) (s : State) : (s.putBit o b v).bell = s.bell := rfl
@[simp] theorem State.putBit_watch (o b : Nat) (v : Bool) (s : State) : (s.putBit o b v).watch = s.watch := rfl
@[simp] theorem State.putBit_storms (o b : Nat) (v : Bool) (s : State) : (s.putBit o b v).storms = s.storms := rfl
@[simp] theorem State.putBit_stormLate (o b : Nat) (v : Bool) (s : State) : (s.putBit o b v).stormLate = s.stormLate := rfl
@[simp] theorem State.putBit_stormText (o b : Nat) (v : Bool) (s : State) : (s.putBit o b v).stormText = s.stormText := rfl
@[simp] theorem State.putBit_disps (o b : Nat) (v : Bool) (s : State) : (s.putBit o b v).disps = s.disps := rfl
@[simp] theorem State.putBit_slate (o b : Nat) (v : Bool) (s : State) : (s.putBit o b v).slate = s.slate := rfl
@[simp] theorem State.putBit_picSent (o b : Nat) (v : Bool) (s : State) : (s.putBit o b v).picSent = s.picSent := rfl
@[simp] theorem State.putBit_picDone (o b : Nat) (v : Bool) (s : State) : (s.putBit o b v).picDone = s.picDone := rfl
@[simp] theorem State.putBit_layouts (o b : Nat) (v : Bool) (s : State) : (s.putBit o b v).layouts = s.layouts := rfl
@[simp] theorem State.putBit_i2cOfs (o b : Nat) (v : Bool) (s : State) : (s.putBit o b v).i2cOfs = s.i2cOfs := rfl
@[simp] theorem State.putBit_i2cWait (o b : Nat) (v : Bool) (s : State) : (s.putBit o b v).i2cWait = s.i2cWait := rfl
@[simp] theorem State.putBit_lts (o b : Nat) (v : Bool) (s : State) : (s.putBit o b v).lts = s.lts := rfl
@[simp] theorem State.putBit_ltRem (o b : Nat) (v : Bool) (s : State) : (s.putBit o b v).ltRem = s.ltRem := rfl
@[simp] theorem State.putBit_autostart (o b : Nat) (v : Bool) (s : State) : (s.putBit o b v).autostart = s.autostart := rfl
@[simp] theorem State.putBit_metaSet (o b : Nat) (v : Bool) (s : State) : (s.putBit o b v).metaSet = s.metaSet := rfl
@[simp] theorem State.putBit_police (o b : Nat) (v : Bool) (s : State) : (s.putBit o b v).police = s.police := rfl
@[simp] theorem State.putBit_rx (o b : Nat) (v : Bool) (s : State) : (s.putBit o b v).rx = s.rx := rfl
@[simp] theorem State.putBit_pes (o b : Nat) (v : Bool) (s : State) : (s.putBit o b v).pes = s.pes := rfl
@[simp] theorem State.putBit_flowSeq (o b : Nat) (v : Bool) (s : State) : (s.putBit o b v).flowSeq = s.flowSeq := rfl
@[simp] theorem State.putBit_feeds (o b : Nat) (v : Bool) (s : State) : (s.putBit o b v).feeds = s.feeds := rfl
@[simp] theorem State.putBit_pathLost (o b : Nat) (v : Bool) (s : State) : (s.putBit o b v).pathLost = s.pathLost := rfl
@[simp] theorem State.putBit_rmpKept (o b : Nat) (v : Bool) (s : State) : (s.putBit o b v).rmpKept = s.rmpKept := rfl
@[simp] theorem State.putBit_sndCfg (o b : Nat) (v : Bool) (s : State) : (s.putBit o b v).sndCfg = s.sndCfg := rfl
@[simp] theorem State.putBit_sndLfsr (o b : Nat) (v : Bool) (s : State) : (s.putBit o b v).sndLfsr = s.sndLfsr := rfl
@[simp] theorem State.putBit_sndBased (o b : Nat) (v : Bool) (s : State) : (s.putBit o b v).sndBased = s.sndBased := rfl
@[simp] theorem State.putBit_decs (o b : Nat) (v : Bool) (s : State) : (s.putBit o b v).decs = s.decs := rfl
@[simp] theorem State.putBit_quays (o b : Nat) (v : Bool) (s : State) : (s.putBit o b v).quays = s.quays := rfl
@[simp] theorem State.putBit_encs (o b : Nat) (v : Bool) (s : State) : (s.putBit o b v).encs = s.encs := rfl
@[simp] theorem State.putBit_windows (o b : Nat) (v : Bool) (s : State) : (s.putBit o b v).windows = s.windows := rfl
@[simp] theorem State.putBit_ctxDie (o b : Nat) (v : Bool) (s : State) : (s.putBit o b v).ctxDie = s.ctxDie := rfl
@[simp] theorem State.putBit_ucwNext (o b : Nat) (v : Bool) (s : State) : (s.putBit o b v).ucwNext = s.ucwNext := rfl
@[simp] theorem State.putBit_comps (o b : Nat) (v : Bool) (s : State) : (s.putBit o b v).comps = s.comps := rfl
@[simp] theorem State.putBit_flowTs (o b : Nat) (v : Bool) (s : State) : (s.putBit o b v).flowTs = s.flowTs := rfl
@[simp] theorem State.putBit_sndEnded (o b : Nat) (v : Bool) (s : State) : (s.putBit o b v).sndEnded = s.sndEnded := rfl
@[simp] theorem State.putBit_out (o b : Nat) (v : Bool) (s : State) : (s.putBit o b v).out = s.out := rfl
@[simp] theorem State.putBit_freeCtr (o b : Nat) (v : Bool) (s : State) : (s.putBit o b v).freeCtr = s.freeCtr := rfl
@[simp] theorem State.putBit_pending (o b : Nat) (v : Bool) (s : State) : (s.putBit o b v).pending = s.pending := rfl

/-! `State.wr40` changes `regs` alone. -/

@[simp] theorem State.wr40_staged (o v : Nat) (s : State) : (s.wr40 o v).staged = s.staged := rfl
@[simp] theorem State.wr40_hold (o v : Nat) (s : State) : (s.wr40 o v).hold = s.hold := rfl
@[simp] theorem State.wr40_snaps (o v : Nat) (s : State) : (s.wr40 o v).snaps = s.snaps := rfl
@[simp] theorem State.wr40_counts (o v : Nat) (s : State) : (s.wr40 o v).counts = s.counts := rfl
@[simp] theorem State.wr40_mem (o v : Nat) (s : State) : (s.wr40 o v).mem = s.mem := rfl
@[simp] theorem State.wr40_spad (o v : Nat) (s : State) : (s.wr40 o v).spad = s.spad := rfl
@[simp] theorem State.wr40_cs (o v : Nat) (s : State) : (s.wr40 o v).cs = s.cs := rfl
@[simp] theorem State.wr40_ident (o v : Nat) (s : State) : (s.wr40 o v).ident = s.ident := rfl
@[simp] theorem State.wr40_boot (o v : Nat) (s : State) : (s.wr40 o v).boot = s.boot := rfl
@[simp] theorem State.wr40_tide (o v : Nat) (s : State) : (s.wr40 o v).tide = s.tide := rfl
@[simp] theorem State.wr40_units (o v : Nat) (s : State) : (s.wr40 o v).units = s.units := rfl
@[simp] theorem State.wr40_queues (o v : Nat) (s : State) : (s.wr40 o v).queues = s.queues := rfl
@[simp] theorem State.wr40_books (o v : Nat) (s : State) : (s.wr40 o v).books = s.books := rfl
@[simp] theorem State.wr40_gates (o v : Nat) (s : State) : (s.wr40 o v).gates = s.gates := rfl
@[simp] theorem State.wr40_memsys (o v : Nat) (s : State) : (s.wr40 o v).memsys = s.memsys := rfl
@[simp] theorem State.wr40_ports (o v : Nat) (s : State) : (s.wr40 o v).ports = s.ports := rfl
@[simp] theorem State.wr40_power (o v : Nat) (s : State) : (s.wr40 o v).power = s.power := rfl
@[simp] theorem State.wr40_pools (o v : Nat) (s : State) : (s.wr40 o v).pools = s.pools := rfl
@[simp] theorem State.wr40_host (o v : Nat) (s : State) : (s.wr40 o v).host = s.host := rfl
@[simp] theorem State.wr40_bell (o v : Nat) (s : State) : (s.wr40 o v).bell = s.bell := rfl
@[simp] theorem State.wr40_watch (o v : Nat) (s : State) : (s.wr40 o v).watch = s.watch := rfl
@[simp] theorem State.wr40_storms (o v : Nat) (s : State) : (s.wr40 o v).storms = s.storms := rfl
@[simp] theorem State.wr40_stormLate (o v : Nat) (s : State) : (s.wr40 o v).stormLate = s.stormLate := rfl
@[simp] theorem State.wr40_stormText (o v : Nat) (s : State) : (s.wr40 o v).stormText = s.stormText := rfl
@[simp] theorem State.wr40_disps (o v : Nat) (s : State) : (s.wr40 o v).disps = s.disps := rfl
@[simp] theorem State.wr40_slate (o v : Nat) (s : State) : (s.wr40 o v).slate = s.slate := rfl
@[simp] theorem State.wr40_picSent (o v : Nat) (s : State) : (s.wr40 o v).picSent = s.picSent := rfl
@[simp] theorem State.wr40_picDone (o v : Nat) (s : State) : (s.wr40 o v).picDone = s.picDone := rfl
@[simp] theorem State.wr40_layouts (o v : Nat) (s : State) : (s.wr40 o v).layouts = s.layouts := rfl
@[simp] theorem State.wr40_i2cOfs (o v : Nat) (s : State) : (s.wr40 o v).i2cOfs = s.i2cOfs := rfl
@[simp] theorem State.wr40_i2cWait (o v : Nat) (s : State) : (s.wr40 o v).i2cWait = s.i2cWait := rfl
@[simp] theorem State.wr40_lts (o v : Nat) (s : State) : (s.wr40 o v).lts = s.lts := rfl
@[simp] theorem State.wr40_ltRem (o v : Nat) (s : State) : (s.wr40 o v).ltRem = s.ltRem := rfl
@[simp] theorem State.wr40_autostart (o v : Nat) (s : State) : (s.wr40 o v).autostart = s.autostart := rfl
@[simp] theorem State.wr40_metaSet (o v : Nat) (s : State) : (s.wr40 o v).metaSet = s.metaSet := rfl
@[simp] theorem State.wr40_police (o v : Nat) (s : State) : (s.wr40 o v).police = s.police := rfl
@[simp] theorem State.wr40_rx (o v : Nat) (s : State) : (s.wr40 o v).rx = s.rx := rfl
@[simp] theorem State.wr40_pes (o v : Nat) (s : State) : (s.wr40 o v).pes = s.pes := rfl
@[simp] theorem State.wr40_flowSeq (o v : Nat) (s : State) : (s.wr40 o v).flowSeq = s.flowSeq := rfl
@[simp] theorem State.wr40_feeds (o v : Nat) (s : State) : (s.wr40 o v).feeds = s.feeds := rfl
@[simp] theorem State.wr40_pathLost (o v : Nat) (s : State) : (s.wr40 o v).pathLost = s.pathLost := rfl
@[simp] theorem State.wr40_rmpKept (o v : Nat) (s : State) : (s.wr40 o v).rmpKept = s.rmpKept := rfl
@[simp] theorem State.wr40_sndCfg (o v : Nat) (s : State) : (s.wr40 o v).sndCfg = s.sndCfg := rfl
@[simp] theorem State.wr40_sndLfsr (o v : Nat) (s : State) : (s.wr40 o v).sndLfsr = s.sndLfsr := rfl
@[simp] theorem State.wr40_sndBased (o v : Nat) (s : State) : (s.wr40 o v).sndBased = s.sndBased := rfl
@[simp] theorem State.wr40_decs (o v : Nat) (s : State) : (s.wr40 o v).decs = s.decs := rfl
@[simp] theorem State.wr40_quays (o v : Nat) (s : State) : (s.wr40 o v).quays = s.quays := rfl
@[simp] theorem State.wr40_encs (o v : Nat) (s : State) : (s.wr40 o v).encs = s.encs := rfl
@[simp] theorem State.wr40_windows (o v : Nat) (s : State) : (s.wr40 o v).windows = s.windows := rfl
@[simp] theorem State.wr40_ctxDie (o v : Nat) (s : State) : (s.wr40 o v).ctxDie = s.ctxDie := rfl
@[simp] theorem State.wr40_ucwNext (o v : Nat) (s : State) : (s.wr40 o v).ucwNext = s.ucwNext := rfl
@[simp] theorem State.wr40_comps (o v : Nat) (s : State) : (s.wr40 o v).comps = s.comps := rfl
@[simp] theorem State.wr40_flowTs (o v : Nat) (s : State) : (s.wr40 o v).flowTs = s.flowTs := rfl
@[simp] theorem State.wr40_sndEnded (o v : Nat) (s : State) : (s.wr40 o v).sndEnded = s.sndEnded := rfl
@[simp] theorem State.wr40_out (o v : Nat) (s : State) : (s.wr40 o v).out = s.out := rfl
@[simp] theorem State.wr40_freeCtr (o v : Nat) (s : State) : (s.wr40 o v).freeCtr = s.freeCtr := rfl
@[simp] theorem State.wr40_pending (o v : Nat) (s : State) : (s.wr40 o v).pending = s.pending := rfl

/-! `State.wr64` changes `regs` alone. -/

@[simp] theorem State.wr64_staged (o v : Nat) (s : State) : (s.wr64 o v).staged = s.staged := rfl
@[simp] theorem State.wr64_hold (o v : Nat) (s : State) : (s.wr64 o v).hold = s.hold := rfl
@[simp] theorem State.wr64_snaps (o v : Nat) (s : State) : (s.wr64 o v).snaps = s.snaps := rfl
@[simp] theorem State.wr64_counts (o v : Nat) (s : State) : (s.wr64 o v).counts = s.counts := rfl
@[simp] theorem State.wr64_mem (o v : Nat) (s : State) : (s.wr64 o v).mem = s.mem := rfl
@[simp] theorem State.wr64_spad (o v : Nat) (s : State) : (s.wr64 o v).spad = s.spad := rfl
@[simp] theorem State.wr64_cs (o v : Nat) (s : State) : (s.wr64 o v).cs = s.cs := rfl
@[simp] theorem State.wr64_ident (o v : Nat) (s : State) : (s.wr64 o v).ident = s.ident := rfl
@[simp] theorem State.wr64_boot (o v : Nat) (s : State) : (s.wr64 o v).boot = s.boot := rfl
@[simp] theorem State.wr64_tide (o v : Nat) (s : State) : (s.wr64 o v).tide = s.tide := rfl
@[simp] theorem State.wr64_units (o v : Nat) (s : State) : (s.wr64 o v).units = s.units := rfl
@[simp] theorem State.wr64_queues (o v : Nat) (s : State) : (s.wr64 o v).queues = s.queues := rfl
@[simp] theorem State.wr64_books (o v : Nat) (s : State) : (s.wr64 o v).books = s.books := rfl
@[simp] theorem State.wr64_gates (o v : Nat) (s : State) : (s.wr64 o v).gates = s.gates := rfl
@[simp] theorem State.wr64_memsys (o v : Nat) (s : State) : (s.wr64 o v).memsys = s.memsys := rfl
@[simp] theorem State.wr64_ports (o v : Nat) (s : State) : (s.wr64 o v).ports = s.ports := rfl
@[simp] theorem State.wr64_power (o v : Nat) (s : State) : (s.wr64 o v).power = s.power := rfl
@[simp] theorem State.wr64_pools (o v : Nat) (s : State) : (s.wr64 o v).pools = s.pools := rfl
@[simp] theorem State.wr64_host (o v : Nat) (s : State) : (s.wr64 o v).host = s.host := rfl
@[simp] theorem State.wr64_bell (o v : Nat) (s : State) : (s.wr64 o v).bell = s.bell := rfl
@[simp] theorem State.wr64_watch (o v : Nat) (s : State) : (s.wr64 o v).watch = s.watch := rfl
@[simp] theorem State.wr64_storms (o v : Nat) (s : State) : (s.wr64 o v).storms = s.storms := rfl
@[simp] theorem State.wr64_stormLate (o v : Nat) (s : State) : (s.wr64 o v).stormLate = s.stormLate := rfl
@[simp] theorem State.wr64_stormText (o v : Nat) (s : State) : (s.wr64 o v).stormText = s.stormText := rfl
@[simp] theorem State.wr64_disps (o v : Nat) (s : State) : (s.wr64 o v).disps = s.disps := rfl
@[simp] theorem State.wr64_slate (o v : Nat) (s : State) : (s.wr64 o v).slate = s.slate := rfl
@[simp] theorem State.wr64_picSent (o v : Nat) (s : State) : (s.wr64 o v).picSent = s.picSent := rfl
@[simp] theorem State.wr64_picDone (o v : Nat) (s : State) : (s.wr64 o v).picDone = s.picDone := rfl
@[simp] theorem State.wr64_layouts (o v : Nat) (s : State) : (s.wr64 o v).layouts = s.layouts := rfl
@[simp] theorem State.wr64_i2cOfs (o v : Nat) (s : State) : (s.wr64 o v).i2cOfs = s.i2cOfs := rfl
@[simp] theorem State.wr64_i2cWait (o v : Nat) (s : State) : (s.wr64 o v).i2cWait = s.i2cWait := rfl
@[simp] theorem State.wr64_lts (o v : Nat) (s : State) : (s.wr64 o v).lts = s.lts := rfl
@[simp] theorem State.wr64_ltRem (o v : Nat) (s : State) : (s.wr64 o v).ltRem = s.ltRem := rfl
@[simp] theorem State.wr64_autostart (o v : Nat) (s : State) : (s.wr64 o v).autostart = s.autostart := rfl
@[simp] theorem State.wr64_metaSet (o v : Nat) (s : State) : (s.wr64 o v).metaSet = s.metaSet := rfl
@[simp] theorem State.wr64_police (o v : Nat) (s : State) : (s.wr64 o v).police = s.police := rfl
@[simp] theorem State.wr64_rx (o v : Nat) (s : State) : (s.wr64 o v).rx = s.rx := rfl
@[simp] theorem State.wr64_pes (o v : Nat) (s : State) : (s.wr64 o v).pes = s.pes := rfl
@[simp] theorem State.wr64_flowSeq (o v : Nat) (s : State) : (s.wr64 o v).flowSeq = s.flowSeq := rfl
@[simp] theorem State.wr64_feeds (o v : Nat) (s : State) : (s.wr64 o v).feeds = s.feeds := rfl
@[simp] theorem State.wr64_pathLost (o v : Nat) (s : State) : (s.wr64 o v).pathLost = s.pathLost := rfl
@[simp] theorem State.wr64_rmpKept (o v : Nat) (s : State) : (s.wr64 o v).rmpKept = s.rmpKept := rfl
@[simp] theorem State.wr64_sndCfg (o v : Nat) (s : State) : (s.wr64 o v).sndCfg = s.sndCfg := rfl
@[simp] theorem State.wr64_sndLfsr (o v : Nat) (s : State) : (s.wr64 o v).sndLfsr = s.sndLfsr := rfl
@[simp] theorem State.wr64_sndBased (o v : Nat) (s : State) : (s.wr64 o v).sndBased = s.sndBased := rfl
@[simp] theorem State.wr64_decs (o v : Nat) (s : State) : (s.wr64 o v).decs = s.decs := rfl
@[simp] theorem State.wr64_quays (o v : Nat) (s : State) : (s.wr64 o v).quays = s.quays := rfl
@[simp] theorem State.wr64_encs (o v : Nat) (s : State) : (s.wr64 o v).encs = s.encs := rfl
@[simp] theorem State.wr64_windows (o v : Nat) (s : State) : (s.wr64 o v).windows = s.windows := rfl
@[simp] theorem State.wr64_ctxDie (o v : Nat) (s : State) : (s.wr64 o v).ctxDie = s.ctxDie := rfl
@[simp] theorem State.wr64_ucwNext (o v : Nat) (s : State) : (s.wr64 o v).ucwNext = s.ucwNext := rfl
@[simp] theorem State.wr64_comps (o v : Nat) (s : State) : (s.wr64 o v).comps = s.comps := rfl
@[simp] theorem State.wr64_flowTs (o v : Nat) (s : State) : (s.wr64 o v).flowTs = s.flowTs := rfl
@[simp] theorem State.wr64_sndEnded (o v : Nat) (s : State) : (s.wr64 o v).sndEnded = s.sndEnded := rfl
@[simp] theorem State.wr64_out (o v : Nat) (s : State) : (s.wr64 o v).out = s.out := rfl
@[simp] theorem State.wr64_freeCtr (o v : Nat) (s : State) : (s.wr64 o v).freeCtr = s.freeCtr := rfl
@[simp] theorem State.wr64_pending (o v : Nat) (s : State) : (s.wr64 o v).pending = s.pending := rfl

/-! `State.inc` changes `regs` alone. -/

@[simp] theorem State.inc_staged (o : Nat) (s : State) : (s.inc o).staged = s.staged := rfl
@[simp] theorem State.inc_hold (o : Nat) (s : State) : (s.inc o).hold = s.hold := rfl
@[simp] theorem State.inc_snaps (o : Nat) (s : State) : (s.inc o).snaps = s.snaps := rfl
@[simp] theorem State.inc_counts (o : Nat) (s : State) : (s.inc o).counts = s.counts := rfl
@[simp] theorem State.inc_mem (o : Nat) (s : State) : (s.inc o).mem = s.mem := rfl
@[simp] theorem State.inc_spad (o : Nat) (s : State) : (s.inc o).spad = s.spad := rfl
@[simp] theorem State.inc_cs (o : Nat) (s : State) : (s.inc o).cs = s.cs := rfl
@[simp] theorem State.inc_ident (o : Nat) (s : State) : (s.inc o).ident = s.ident := rfl
@[simp] theorem State.inc_boot (o : Nat) (s : State) : (s.inc o).boot = s.boot := rfl
@[simp] theorem State.inc_tide (o : Nat) (s : State) : (s.inc o).tide = s.tide := rfl
@[simp] theorem State.inc_units (o : Nat) (s : State) : (s.inc o).units = s.units := rfl
@[simp] theorem State.inc_queues (o : Nat) (s : State) : (s.inc o).queues = s.queues := rfl
@[simp] theorem State.inc_books (o : Nat) (s : State) : (s.inc o).books = s.books := rfl
@[simp] theorem State.inc_gates (o : Nat) (s : State) : (s.inc o).gates = s.gates := rfl
@[simp] theorem State.inc_memsys (o : Nat) (s : State) : (s.inc o).memsys = s.memsys := rfl
@[simp] theorem State.inc_ports (o : Nat) (s : State) : (s.inc o).ports = s.ports := rfl
@[simp] theorem State.inc_power (o : Nat) (s : State) : (s.inc o).power = s.power := rfl
@[simp] theorem State.inc_pools (o : Nat) (s : State) : (s.inc o).pools = s.pools := rfl
@[simp] theorem State.inc_host (o : Nat) (s : State) : (s.inc o).host = s.host := rfl
@[simp] theorem State.inc_bell (o : Nat) (s : State) : (s.inc o).bell = s.bell := rfl
@[simp] theorem State.inc_watch (o : Nat) (s : State) : (s.inc o).watch = s.watch := rfl
@[simp] theorem State.inc_storms (o : Nat) (s : State) : (s.inc o).storms = s.storms := rfl
@[simp] theorem State.inc_stormLate (o : Nat) (s : State) : (s.inc o).stormLate = s.stormLate := rfl
@[simp] theorem State.inc_stormText (o : Nat) (s : State) : (s.inc o).stormText = s.stormText := rfl
@[simp] theorem State.inc_disps (o : Nat) (s : State) : (s.inc o).disps = s.disps := rfl
@[simp] theorem State.inc_slate (o : Nat) (s : State) : (s.inc o).slate = s.slate := rfl
@[simp] theorem State.inc_picSent (o : Nat) (s : State) : (s.inc o).picSent = s.picSent := rfl
@[simp] theorem State.inc_picDone (o : Nat) (s : State) : (s.inc o).picDone = s.picDone := rfl
@[simp] theorem State.inc_layouts (o : Nat) (s : State) : (s.inc o).layouts = s.layouts := rfl
@[simp] theorem State.inc_i2cOfs (o : Nat) (s : State) : (s.inc o).i2cOfs = s.i2cOfs := rfl
@[simp] theorem State.inc_i2cWait (o : Nat) (s : State) : (s.inc o).i2cWait = s.i2cWait := rfl
@[simp] theorem State.inc_lts (o : Nat) (s : State) : (s.inc o).lts = s.lts := rfl
@[simp] theorem State.inc_ltRem (o : Nat) (s : State) : (s.inc o).ltRem = s.ltRem := rfl
@[simp] theorem State.inc_autostart (o : Nat) (s : State) : (s.inc o).autostart = s.autostart := rfl
@[simp] theorem State.inc_metaSet (o : Nat) (s : State) : (s.inc o).metaSet = s.metaSet := rfl
@[simp] theorem State.inc_police (o : Nat) (s : State) : (s.inc o).police = s.police := rfl
@[simp] theorem State.inc_rx (o : Nat) (s : State) : (s.inc o).rx = s.rx := rfl
@[simp] theorem State.inc_pes (o : Nat) (s : State) : (s.inc o).pes = s.pes := rfl
@[simp] theorem State.inc_flowSeq (o : Nat) (s : State) : (s.inc o).flowSeq = s.flowSeq := rfl
@[simp] theorem State.inc_feeds (o : Nat) (s : State) : (s.inc o).feeds = s.feeds := rfl
@[simp] theorem State.inc_pathLost (o : Nat) (s : State) : (s.inc o).pathLost = s.pathLost := rfl
@[simp] theorem State.inc_rmpKept (o : Nat) (s : State) : (s.inc o).rmpKept = s.rmpKept := rfl
@[simp] theorem State.inc_sndCfg (o : Nat) (s : State) : (s.inc o).sndCfg = s.sndCfg := rfl
@[simp] theorem State.inc_sndLfsr (o : Nat) (s : State) : (s.inc o).sndLfsr = s.sndLfsr := rfl
@[simp] theorem State.inc_sndBased (o : Nat) (s : State) : (s.inc o).sndBased = s.sndBased := rfl
@[simp] theorem State.inc_decs (o : Nat) (s : State) : (s.inc o).decs = s.decs := rfl
@[simp] theorem State.inc_quays (o : Nat) (s : State) : (s.inc o).quays = s.quays := rfl
@[simp] theorem State.inc_encs (o : Nat) (s : State) : (s.inc o).encs = s.encs := rfl
@[simp] theorem State.inc_windows (o : Nat) (s : State) : (s.inc o).windows = s.windows := rfl
@[simp] theorem State.inc_ctxDie (o : Nat) (s : State) : (s.inc o).ctxDie = s.ctxDie := rfl
@[simp] theorem State.inc_ucwNext (o : Nat) (s : State) : (s.inc o).ucwNext = s.ucwNext := rfl
@[simp] theorem State.inc_comps (o : Nat) (s : State) : (s.inc o).comps = s.comps := rfl
@[simp] theorem State.inc_flowTs (o : Nat) (s : State) : (s.inc o).flowTs = s.flowTs := rfl
@[simp] theorem State.inc_sndEnded (o : Nat) (s : State) : (s.inc o).sndEnded = s.sndEnded := rfl
@[simp] theorem State.inc_out (o : Nat) (s : State) : (s.inc o).out = s.out := rfl
@[simp] theorem State.inc_freeCtr (o : Nat) (s : State) : (s.inc o).freeCtr = s.freeCtr := rfl
@[simp] theorem State.inc_pending (o : Nat) (s : State) : (s.inc o).pending = s.pending := rfl

/-! `State.stage` changes `staged` alone. -/

@[simp] theorem State.stage_regs (o v : Nat) (s : State) : (s.stage o v).regs = s.regs := rfl
@[simp] theorem State.stage_hold (o v : Nat) (s : State) : (s.stage o v).hold = s.hold := rfl
@[simp] theorem State.stage_snaps (o v : Nat) (s : State) : (s.stage o v).snaps = s.snaps := rfl
@[simp] theorem State.stage_counts (o v : Nat) (s : State) : (s.stage o v).counts = s.counts := rfl
@[simp] theorem State.stage_mem (o v : Nat) (s : State) : (s.stage o v).mem = s.mem := rfl
@[simp] theorem State.stage_spad (o v : Nat) (s : State) : (s.stage o v).spad = s.spad := rfl
@[simp] theorem State.stage_cs (o v : Nat) (s : State) : (s.stage o v).cs = s.cs := rfl
@[simp] theorem State.stage_ident (o v : Nat) (s : State) : (s.stage o v).ident = s.ident := rfl
@[simp] theorem State.stage_boot (o v : Nat) (s : State) : (s.stage o v).boot = s.boot := rfl
@[simp] theorem State.stage_tide (o v : Nat) (s : State) : (s.stage o v).tide = s.tide := rfl
@[simp] theorem State.stage_units (o v : Nat) (s : State) : (s.stage o v).units = s.units := rfl
@[simp] theorem State.stage_queues (o v : Nat) (s : State) : (s.stage o v).queues = s.queues := rfl
@[simp] theorem State.stage_books (o v : Nat) (s : State) : (s.stage o v).books = s.books := rfl
@[simp] theorem State.stage_gates (o v : Nat) (s : State) : (s.stage o v).gates = s.gates := rfl
@[simp] theorem State.stage_memsys (o v : Nat) (s : State) : (s.stage o v).memsys = s.memsys := rfl
@[simp] theorem State.stage_ports (o v : Nat) (s : State) : (s.stage o v).ports = s.ports := rfl
@[simp] theorem State.stage_power (o v : Nat) (s : State) : (s.stage o v).power = s.power := rfl
@[simp] theorem State.stage_pools (o v : Nat) (s : State) : (s.stage o v).pools = s.pools := rfl
@[simp] theorem State.stage_host (o v : Nat) (s : State) : (s.stage o v).host = s.host := rfl
@[simp] theorem State.stage_bell (o v : Nat) (s : State) : (s.stage o v).bell = s.bell := rfl
@[simp] theorem State.stage_watch (o v : Nat) (s : State) : (s.stage o v).watch = s.watch := rfl
@[simp] theorem State.stage_storms (o v : Nat) (s : State) : (s.stage o v).storms = s.storms := rfl
@[simp] theorem State.stage_stormLate (o v : Nat) (s : State) : (s.stage o v).stormLate = s.stormLate := rfl
@[simp] theorem State.stage_stormText (o v : Nat) (s : State) : (s.stage o v).stormText = s.stormText := rfl
@[simp] theorem State.stage_disps (o v : Nat) (s : State) : (s.stage o v).disps = s.disps := rfl
@[simp] theorem State.stage_slate (o v : Nat) (s : State) : (s.stage o v).slate = s.slate := rfl
@[simp] theorem State.stage_picSent (o v : Nat) (s : State) : (s.stage o v).picSent = s.picSent := rfl
@[simp] theorem State.stage_picDone (o v : Nat) (s : State) : (s.stage o v).picDone = s.picDone := rfl
@[simp] theorem State.stage_layouts (o v : Nat) (s : State) : (s.stage o v).layouts = s.layouts := rfl
@[simp] theorem State.stage_i2cOfs (o v : Nat) (s : State) : (s.stage o v).i2cOfs = s.i2cOfs := rfl
@[simp] theorem State.stage_i2cWait (o v : Nat) (s : State) : (s.stage o v).i2cWait = s.i2cWait := rfl
@[simp] theorem State.stage_lts (o v : Nat) (s : State) : (s.stage o v).lts = s.lts := rfl
@[simp] theorem State.stage_ltRem (o v : Nat) (s : State) : (s.stage o v).ltRem = s.ltRem := rfl
@[simp] theorem State.stage_autostart (o v : Nat) (s : State) : (s.stage o v).autostart = s.autostart := rfl
@[simp] theorem State.stage_metaSet (o v : Nat) (s : State) : (s.stage o v).metaSet = s.metaSet := rfl
@[simp] theorem State.stage_police (o v : Nat) (s : State) : (s.stage o v).police = s.police := rfl
@[simp] theorem State.stage_rx (o v : Nat) (s : State) : (s.stage o v).rx = s.rx := rfl
@[simp] theorem State.stage_pes (o v : Nat) (s : State) : (s.stage o v).pes = s.pes := rfl
@[simp] theorem State.stage_flowSeq (o v : Nat) (s : State) : (s.stage o v).flowSeq = s.flowSeq := rfl
@[simp] theorem State.stage_feeds (o v : Nat) (s : State) : (s.stage o v).feeds = s.feeds := rfl
@[simp] theorem State.stage_pathLost (o v : Nat) (s : State) : (s.stage o v).pathLost = s.pathLost := rfl
@[simp] theorem State.stage_rmpKept (o v : Nat) (s : State) : (s.stage o v).rmpKept = s.rmpKept := rfl
@[simp] theorem State.stage_sndCfg (o v : Nat) (s : State) : (s.stage o v).sndCfg = s.sndCfg := rfl
@[simp] theorem State.stage_sndLfsr (o v : Nat) (s : State) : (s.stage o v).sndLfsr = s.sndLfsr := rfl
@[simp] theorem State.stage_sndBased (o v : Nat) (s : State) : (s.stage o v).sndBased = s.sndBased := rfl
@[simp] theorem State.stage_decs (o v : Nat) (s : State) : (s.stage o v).decs = s.decs := rfl
@[simp] theorem State.stage_quays (o v : Nat) (s : State) : (s.stage o v).quays = s.quays := rfl
@[simp] theorem State.stage_encs (o v : Nat) (s : State) : (s.stage o v).encs = s.encs := rfl
@[simp] theorem State.stage_windows (o v : Nat) (s : State) : (s.stage o v).windows = s.windows := rfl
@[simp] theorem State.stage_ctxDie (o v : Nat) (s : State) : (s.stage o v).ctxDie = s.ctxDie := rfl
@[simp] theorem State.stage_ucwNext (o v : Nat) (s : State) : (s.stage o v).ucwNext = s.ucwNext := rfl
@[simp] theorem State.stage_comps (o v : Nat) (s : State) : (s.stage o v).comps = s.comps := rfl
@[simp] theorem State.stage_flowTs (o v : Nat) (s : State) : (s.stage o v).flowTs = s.flowTs := rfl
@[simp] theorem State.stage_sndEnded (o v : Nat) (s : State) : (s.stage o v).sndEnded = s.sndEnded := rfl
@[simp] theorem State.stage_out (o v : Nat) (s : State) : (s.stage o v).out = s.out := rfl
@[simp] theorem State.stage_freeCtr (o v : Nat) (s : State) : (s.stage o v).freeCtr = s.freeCtr := rfl
@[simp] theorem State.stage_pending (o v : Nat) (s : State) : (s.stage o v).pending = s.pending := rfl

/-! `State.bump` changes `counts` alone. -/

@[simp] theorem State.bump_regs (o n : Nat) (s : State) : (s.bump o n).regs = s.regs := rfl
@[simp] theorem State.bump_staged (o n : Nat) (s : State) : (s.bump o n).staged = s.staged := rfl
@[simp] theorem State.bump_hold (o n : Nat) (s : State) : (s.bump o n).hold = s.hold := rfl
@[simp] theorem State.bump_snaps (o n : Nat) (s : State) : (s.bump o n).snaps = s.snaps := rfl
@[simp] theorem State.bump_mem (o n : Nat) (s : State) : (s.bump o n).mem = s.mem := rfl
@[simp] theorem State.bump_spad (o n : Nat) (s : State) : (s.bump o n).spad = s.spad := rfl
@[simp] theorem State.bump_cs (o n : Nat) (s : State) : (s.bump o n).cs = s.cs := rfl
@[simp] theorem State.bump_ident (o n : Nat) (s : State) : (s.bump o n).ident = s.ident := rfl
@[simp] theorem State.bump_boot (o n : Nat) (s : State) : (s.bump o n).boot = s.boot := rfl
@[simp] theorem State.bump_tide (o n : Nat) (s : State) : (s.bump o n).tide = s.tide := rfl
@[simp] theorem State.bump_units (o n : Nat) (s : State) : (s.bump o n).units = s.units := rfl
@[simp] theorem State.bump_queues (o n : Nat) (s : State) : (s.bump o n).queues = s.queues := rfl
@[simp] theorem State.bump_books (o n : Nat) (s : State) : (s.bump o n).books = s.books := rfl
@[simp] theorem State.bump_gates (o n : Nat) (s : State) : (s.bump o n).gates = s.gates := rfl
@[simp] theorem State.bump_memsys (o n : Nat) (s : State) : (s.bump o n).memsys = s.memsys := rfl
@[simp] theorem State.bump_ports (o n : Nat) (s : State) : (s.bump o n).ports = s.ports := rfl
@[simp] theorem State.bump_power (o n : Nat) (s : State) : (s.bump o n).power = s.power := rfl
@[simp] theorem State.bump_pools (o n : Nat) (s : State) : (s.bump o n).pools = s.pools := rfl
@[simp] theorem State.bump_host (o n : Nat) (s : State) : (s.bump o n).host = s.host := rfl
@[simp] theorem State.bump_bell (o n : Nat) (s : State) : (s.bump o n).bell = s.bell := rfl
@[simp] theorem State.bump_watch (o n : Nat) (s : State) : (s.bump o n).watch = s.watch := rfl
@[simp] theorem State.bump_storms (o n : Nat) (s : State) : (s.bump o n).storms = s.storms := rfl
@[simp] theorem State.bump_stormLate (o n : Nat) (s : State) : (s.bump o n).stormLate = s.stormLate := rfl
@[simp] theorem State.bump_stormText (o n : Nat) (s : State) : (s.bump o n).stormText = s.stormText := rfl
@[simp] theorem State.bump_disps (o n : Nat) (s : State) : (s.bump o n).disps = s.disps := rfl
@[simp] theorem State.bump_slate (o n : Nat) (s : State) : (s.bump o n).slate = s.slate := rfl
@[simp] theorem State.bump_picSent (o n : Nat) (s : State) : (s.bump o n).picSent = s.picSent := rfl
@[simp] theorem State.bump_picDone (o n : Nat) (s : State) : (s.bump o n).picDone = s.picDone := rfl
@[simp] theorem State.bump_layouts (o n : Nat) (s : State) : (s.bump o n).layouts = s.layouts := rfl
@[simp] theorem State.bump_i2cOfs (o n : Nat) (s : State) : (s.bump o n).i2cOfs = s.i2cOfs := rfl
@[simp] theorem State.bump_i2cWait (o n : Nat) (s : State) : (s.bump o n).i2cWait = s.i2cWait := rfl
@[simp] theorem State.bump_lts (o n : Nat) (s : State) : (s.bump o n).lts = s.lts := rfl
@[simp] theorem State.bump_ltRem (o n : Nat) (s : State) : (s.bump o n).ltRem = s.ltRem := rfl
@[simp] theorem State.bump_autostart (o n : Nat) (s : State) : (s.bump o n).autostart = s.autostart := rfl
@[simp] theorem State.bump_metaSet (o n : Nat) (s : State) : (s.bump o n).metaSet = s.metaSet := rfl
@[simp] theorem State.bump_police (o n : Nat) (s : State) : (s.bump o n).police = s.police := rfl
@[simp] theorem State.bump_rx (o n : Nat) (s : State) : (s.bump o n).rx = s.rx := rfl
@[simp] theorem State.bump_pes (o n : Nat) (s : State) : (s.bump o n).pes = s.pes := rfl
@[simp] theorem State.bump_flowSeq (o n : Nat) (s : State) : (s.bump o n).flowSeq = s.flowSeq := rfl
@[simp] theorem State.bump_feeds (o n : Nat) (s : State) : (s.bump o n).feeds = s.feeds := rfl
@[simp] theorem State.bump_pathLost (o n : Nat) (s : State) : (s.bump o n).pathLost = s.pathLost := rfl
@[simp] theorem State.bump_rmpKept (o n : Nat) (s : State) : (s.bump o n).rmpKept = s.rmpKept := rfl
@[simp] theorem State.bump_sndCfg (o n : Nat) (s : State) : (s.bump o n).sndCfg = s.sndCfg := rfl
@[simp] theorem State.bump_sndLfsr (o n : Nat) (s : State) : (s.bump o n).sndLfsr = s.sndLfsr := rfl
@[simp] theorem State.bump_sndBased (o n : Nat) (s : State) : (s.bump o n).sndBased = s.sndBased := rfl
@[simp] theorem State.bump_decs (o n : Nat) (s : State) : (s.bump o n).decs = s.decs := rfl
@[simp] theorem State.bump_quays (o n : Nat) (s : State) : (s.bump o n).quays = s.quays := rfl
@[simp] theorem State.bump_encs (o n : Nat) (s : State) : (s.bump o n).encs = s.encs := rfl
@[simp] theorem State.bump_windows (o n : Nat) (s : State) : (s.bump o n).windows = s.windows := rfl
@[simp] theorem State.bump_ctxDie (o n : Nat) (s : State) : (s.bump o n).ctxDie = s.ctxDie := rfl
@[simp] theorem State.bump_ucwNext (o n : Nat) (s : State) : (s.bump o n).ucwNext = s.ucwNext := rfl
@[simp] theorem State.bump_comps (o n : Nat) (s : State) : (s.bump o n).comps = s.comps := rfl
@[simp] theorem State.bump_flowTs (o n : Nat) (s : State) : (s.bump o n).flowTs = s.flowTs := rfl
@[simp] theorem State.bump_sndEnded (o n : Nat) (s : State) : (s.bump o n).sndEnded = s.sndEnded := rfl
@[simp] theorem State.bump_out (o n : Nat) (s : State) : (s.bump o n).out = s.out := rfl
@[simp] theorem State.bump_freeCtr (o n : Nat) (s : State) : (s.bump o n).freeCtr = s.freeCtr := rfl
@[simp] theorem State.bump_pending (o n : Nat) (s : State) : (s.bump o n).pending = s.pending := rfl

/-! `State.bumpMax` changes `counts` alone. -/

@[simp] theorem State.bumpMax_regs (o n : Nat) (s : State) : (s.bumpMax o n).regs = s.regs := rfl
@[simp] theorem State.bumpMax_staged (o n : Nat) (s : State) : (s.bumpMax o n).staged = s.staged := rfl
@[simp] theorem State.bumpMax_hold (o n : Nat) (s : State) : (s.bumpMax o n).hold = s.hold := rfl
@[simp] theorem State.bumpMax_snaps (o n : Nat) (s : State) : (s.bumpMax o n).snaps = s.snaps := rfl
@[simp] theorem State.bumpMax_mem (o n : Nat) (s : State) : (s.bumpMax o n).mem = s.mem := rfl
@[simp] theorem State.bumpMax_spad (o n : Nat) (s : State) : (s.bumpMax o n).spad = s.spad := rfl
@[simp] theorem State.bumpMax_cs (o n : Nat) (s : State) : (s.bumpMax o n).cs = s.cs := rfl
@[simp] theorem State.bumpMax_ident (o n : Nat) (s : State) : (s.bumpMax o n).ident = s.ident := rfl
@[simp] theorem State.bumpMax_boot (o n : Nat) (s : State) : (s.bumpMax o n).boot = s.boot := rfl
@[simp] theorem State.bumpMax_tide (o n : Nat) (s : State) : (s.bumpMax o n).tide = s.tide := rfl
@[simp] theorem State.bumpMax_units (o n : Nat) (s : State) : (s.bumpMax o n).units = s.units := rfl
@[simp] theorem State.bumpMax_queues (o n : Nat) (s : State) : (s.bumpMax o n).queues = s.queues := rfl
@[simp] theorem State.bumpMax_books (o n : Nat) (s : State) : (s.bumpMax o n).books = s.books := rfl
@[simp] theorem State.bumpMax_gates (o n : Nat) (s : State) : (s.bumpMax o n).gates = s.gates := rfl
@[simp] theorem State.bumpMax_memsys (o n : Nat) (s : State) : (s.bumpMax o n).memsys = s.memsys := rfl
@[simp] theorem State.bumpMax_ports (o n : Nat) (s : State) : (s.bumpMax o n).ports = s.ports := rfl
@[simp] theorem State.bumpMax_power (o n : Nat) (s : State) : (s.bumpMax o n).power = s.power := rfl
@[simp] theorem State.bumpMax_pools (o n : Nat) (s : State) : (s.bumpMax o n).pools = s.pools := rfl
@[simp] theorem State.bumpMax_host (o n : Nat) (s : State) : (s.bumpMax o n).host = s.host := rfl
@[simp] theorem State.bumpMax_bell (o n : Nat) (s : State) : (s.bumpMax o n).bell = s.bell := rfl
@[simp] theorem State.bumpMax_watch (o n : Nat) (s : State) : (s.bumpMax o n).watch = s.watch := rfl
@[simp] theorem State.bumpMax_storms (o n : Nat) (s : State) : (s.bumpMax o n).storms = s.storms := rfl
@[simp] theorem State.bumpMax_stormLate (o n : Nat) (s : State) : (s.bumpMax o n).stormLate = s.stormLate := rfl
@[simp] theorem State.bumpMax_stormText (o n : Nat) (s : State) : (s.bumpMax o n).stormText = s.stormText := rfl
@[simp] theorem State.bumpMax_disps (o n : Nat) (s : State) : (s.bumpMax o n).disps = s.disps := rfl
@[simp] theorem State.bumpMax_slate (o n : Nat) (s : State) : (s.bumpMax o n).slate = s.slate := rfl
@[simp] theorem State.bumpMax_picSent (o n : Nat) (s : State) : (s.bumpMax o n).picSent = s.picSent := rfl
@[simp] theorem State.bumpMax_picDone (o n : Nat) (s : State) : (s.bumpMax o n).picDone = s.picDone := rfl
@[simp] theorem State.bumpMax_layouts (o n : Nat) (s : State) : (s.bumpMax o n).layouts = s.layouts := rfl
@[simp] theorem State.bumpMax_i2cOfs (o n : Nat) (s : State) : (s.bumpMax o n).i2cOfs = s.i2cOfs := rfl
@[simp] theorem State.bumpMax_i2cWait (o n : Nat) (s : State) : (s.bumpMax o n).i2cWait = s.i2cWait := rfl
@[simp] theorem State.bumpMax_lts (o n : Nat) (s : State) : (s.bumpMax o n).lts = s.lts := rfl
@[simp] theorem State.bumpMax_ltRem (o n : Nat) (s : State) : (s.bumpMax o n).ltRem = s.ltRem := rfl
@[simp] theorem State.bumpMax_autostart (o n : Nat) (s : State) : (s.bumpMax o n).autostart = s.autostart := rfl
@[simp] theorem State.bumpMax_metaSet (o n : Nat) (s : State) : (s.bumpMax o n).metaSet = s.metaSet := rfl
@[simp] theorem State.bumpMax_police (o n : Nat) (s : State) : (s.bumpMax o n).police = s.police := rfl
@[simp] theorem State.bumpMax_rx (o n : Nat) (s : State) : (s.bumpMax o n).rx = s.rx := rfl
@[simp] theorem State.bumpMax_pes (o n : Nat) (s : State) : (s.bumpMax o n).pes = s.pes := rfl
@[simp] theorem State.bumpMax_flowSeq (o n : Nat) (s : State) : (s.bumpMax o n).flowSeq = s.flowSeq := rfl
@[simp] theorem State.bumpMax_feeds (o n : Nat) (s : State) : (s.bumpMax o n).feeds = s.feeds := rfl
@[simp] theorem State.bumpMax_pathLost (o n : Nat) (s : State) : (s.bumpMax o n).pathLost = s.pathLost := rfl
@[simp] theorem State.bumpMax_rmpKept (o n : Nat) (s : State) : (s.bumpMax o n).rmpKept = s.rmpKept := rfl
@[simp] theorem State.bumpMax_sndCfg (o n : Nat) (s : State) : (s.bumpMax o n).sndCfg = s.sndCfg := rfl
@[simp] theorem State.bumpMax_sndLfsr (o n : Nat) (s : State) : (s.bumpMax o n).sndLfsr = s.sndLfsr := rfl
@[simp] theorem State.bumpMax_sndBased (o n : Nat) (s : State) : (s.bumpMax o n).sndBased = s.sndBased := rfl
@[simp] theorem State.bumpMax_decs (o n : Nat) (s : State) : (s.bumpMax o n).decs = s.decs := rfl
@[simp] theorem State.bumpMax_quays (o n : Nat) (s : State) : (s.bumpMax o n).quays = s.quays := rfl
@[simp] theorem State.bumpMax_encs (o n : Nat) (s : State) : (s.bumpMax o n).encs = s.encs := rfl
@[simp] theorem State.bumpMax_windows (o n : Nat) (s : State) : (s.bumpMax o n).windows = s.windows := rfl
@[simp] theorem State.bumpMax_ctxDie (o n : Nat) (s : State) : (s.bumpMax o n).ctxDie = s.ctxDie := rfl
@[simp] theorem State.bumpMax_ucwNext (o n : Nat) (s : State) : (s.bumpMax o n).ucwNext = s.ucwNext := rfl
@[simp] theorem State.bumpMax_comps (o n : Nat) (s : State) : (s.bumpMax o n).comps = s.comps := rfl
@[simp] theorem State.bumpMax_flowTs (o n : Nat) (s : State) : (s.bumpMax o n).flowTs = s.flowTs := rfl
@[simp] theorem State.bumpMax_sndEnded (o n : Nat) (s : State) : (s.bumpMax o n).sndEnded = s.sndEnded := rfl
@[simp] theorem State.bumpMax_out (o n : Nat) (s : State) : (s.bumpMax o n).out = s.out := rfl
@[simp] theorem State.bumpMax_freeCtr (o n : Nat) (s : State) : (s.bumpMax o n).freeCtr = s.freeCtr := rfl
@[simp] theorem State.bumpMax_pending (o n : Nat) (s : State) : (s.bumpMax o n).pending = s.pending := rfl

/-! `State.emit` changes `out` alone. -/

@[simp] theorem State.emit_regs (x : Out) (s : State) : (s.emit x).regs = s.regs := rfl
@[simp] theorem State.emit_staged (x : Out) (s : State) : (s.emit x).staged = s.staged := rfl
@[simp] theorem State.emit_hold (x : Out) (s : State) : (s.emit x).hold = s.hold := rfl
@[simp] theorem State.emit_snaps (x : Out) (s : State) : (s.emit x).snaps = s.snaps := rfl
@[simp] theorem State.emit_counts (x : Out) (s : State) : (s.emit x).counts = s.counts := rfl
@[simp] theorem State.emit_mem (x : Out) (s : State) : (s.emit x).mem = s.mem := rfl
@[simp] theorem State.emit_spad (x : Out) (s : State) : (s.emit x).spad = s.spad := rfl
@[simp] theorem State.emit_cs (x : Out) (s : State) : (s.emit x).cs = s.cs := rfl
@[simp] theorem State.emit_ident (x : Out) (s : State) : (s.emit x).ident = s.ident := rfl
@[simp] theorem State.emit_boot (x : Out) (s : State) : (s.emit x).boot = s.boot := rfl
@[simp] theorem State.emit_tide (x : Out) (s : State) : (s.emit x).tide = s.tide := rfl
@[simp] theorem State.emit_units (x : Out) (s : State) : (s.emit x).units = s.units := rfl
@[simp] theorem State.emit_queues (x : Out) (s : State) : (s.emit x).queues = s.queues := rfl
@[simp] theorem State.emit_books (x : Out) (s : State) : (s.emit x).books = s.books := rfl
@[simp] theorem State.emit_gates (x : Out) (s : State) : (s.emit x).gates = s.gates := rfl
@[simp] theorem State.emit_memsys (x : Out) (s : State) : (s.emit x).memsys = s.memsys := rfl
@[simp] theorem State.emit_ports (x : Out) (s : State) : (s.emit x).ports = s.ports := rfl
@[simp] theorem State.emit_power (x : Out) (s : State) : (s.emit x).power = s.power := rfl
@[simp] theorem State.emit_pools (x : Out) (s : State) : (s.emit x).pools = s.pools := rfl
@[simp] theorem State.emit_host (x : Out) (s : State) : (s.emit x).host = s.host := rfl
@[simp] theorem State.emit_bell (x : Out) (s : State) : (s.emit x).bell = s.bell := rfl
@[simp] theorem State.emit_watch (x : Out) (s : State) : (s.emit x).watch = s.watch := rfl
@[simp] theorem State.emit_storms (x : Out) (s : State) : (s.emit x).storms = s.storms := rfl
@[simp] theorem State.emit_stormLate (x : Out) (s : State) : (s.emit x).stormLate = s.stormLate := rfl
@[simp] theorem State.emit_stormText (x : Out) (s : State) : (s.emit x).stormText = s.stormText := rfl
@[simp] theorem State.emit_disps (x : Out) (s : State) : (s.emit x).disps = s.disps := rfl
@[simp] theorem State.emit_slate (x : Out) (s : State) : (s.emit x).slate = s.slate := rfl
@[simp] theorem State.emit_picSent (x : Out) (s : State) : (s.emit x).picSent = s.picSent := rfl
@[simp] theorem State.emit_picDone (x : Out) (s : State) : (s.emit x).picDone = s.picDone := rfl
@[simp] theorem State.emit_layouts (x : Out) (s : State) : (s.emit x).layouts = s.layouts := rfl
@[simp] theorem State.emit_i2cOfs (x : Out) (s : State) : (s.emit x).i2cOfs = s.i2cOfs := rfl
@[simp] theorem State.emit_i2cWait (x : Out) (s : State) : (s.emit x).i2cWait = s.i2cWait := rfl
@[simp] theorem State.emit_lts (x : Out) (s : State) : (s.emit x).lts = s.lts := rfl
@[simp] theorem State.emit_ltRem (x : Out) (s : State) : (s.emit x).ltRem = s.ltRem := rfl
@[simp] theorem State.emit_autostart (x : Out) (s : State) : (s.emit x).autostart = s.autostart := rfl
@[simp] theorem State.emit_metaSet (x : Out) (s : State) : (s.emit x).metaSet = s.metaSet := rfl
@[simp] theorem State.emit_police (x : Out) (s : State) : (s.emit x).police = s.police := rfl
@[simp] theorem State.emit_rx (x : Out) (s : State) : (s.emit x).rx = s.rx := rfl
@[simp] theorem State.emit_pes (x : Out) (s : State) : (s.emit x).pes = s.pes := rfl
@[simp] theorem State.emit_flowSeq (x : Out) (s : State) : (s.emit x).flowSeq = s.flowSeq := rfl
@[simp] theorem State.emit_feeds (x : Out) (s : State) : (s.emit x).feeds = s.feeds := rfl
@[simp] theorem State.emit_pathLost (x : Out) (s : State) : (s.emit x).pathLost = s.pathLost := rfl
@[simp] theorem State.emit_rmpKept (x : Out) (s : State) : (s.emit x).rmpKept = s.rmpKept := rfl
@[simp] theorem State.emit_sndCfg (x : Out) (s : State) : (s.emit x).sndCfg = s.sndCfg := rfl
@[simp] theorem State.emit_sndLfsr (x : Out) (s : State) : (s.emit x).sndLfsr = s.sndLfsr := rfl
@[simp] theorem State.emit_sndBased (x : Out) (s : State) : (s.emit x).sndBased = s.sndBased := rfl
@[simp] theorem State.emit_decs (x : Out) (s : State) : (s.emit x).decs = s.decs := rfl
@[simp] theorem State.emit_quays (x : Out) (s : State) : (s.emit x).quays = s.quays := rfl
@[simp] theorem State.emit_encs (x : Out) (s : State) : (s.emit x).encs = s.encs := rfl
@[simp] theorem State.emit_windows (x : Out) (s : State) : (s.emit x).windows = s.windows := rfl
@[simp] theorem State.emit_ctxDie (x : Out) (s : State) : (s.emit x).ctxDie = s.ctxDie := rfl
@[simp] theorem State.emit_ucwNext (x : Out) (s : State) : (s.emit x).ucwNext = s.ucwNext := rfl
@[simp] theorem State.emit_comps (x : Out) (s : State) : (s.emit x).comps = s.comps := rfl
@[simp] theorem State.emit_flowTs (x : Out) (s : State) : (s.emit x).flowTs = s.flowTs := rfl
@[simp] theorem State.emit_sndEnded (x : Out) (s : State) : (s.emit x).sndEnded = s.sndEnded := rfl
@[simp] theorem State.emit_freeCtr (x : Out) (s : State) : (s.emit x).freeCtr = s.freeCtr := rfl
@[simp] theorem State.emit_pending (x : Out) (s : State) : (s.emit x).pending = s.pending := rfl

/-! `State.setUnit` changes `units` alone. -/

@[simp] theorem State.setUnit_regs (u : Nat) (x : UnitSt) (s : State) : (s.setUnit u x).regs = s.regs := rfl
@[simp] theorem State.setUnit_staged (u : Nat) (x : UnitSt) (s : State) : (s.setUnit u x).staged = s.staged := rfl
@[simp] theorem State.setUnit_hold (u : Nat) (x : UnitSt) (s : State) : (s.setUnit u x).hold = s.hold := rfl
@[simp] theorem State.setUnit_snaps (u : Nat) (x : UnitSt) (s : State) : (s.setUnit u x).snaps = s.snaps := rfl
@[simp] theorem State.setUnit_counts (u : Nat) (x : UnitSt) (s : State) : (s.setUnit u x).counts = s.counts := rfl
@[simp] theorem State.setUnit_mem (u : Nat) (x : UnitSt) (s : State) : (s.setUnit u x).mem = s.mem := rfl
@[simp] theorem State.setUnit_spad (u : Nat) (x : UnitSt) (s : State) : (s.setUnit u x).spad = s.spad := rfl
@[simp] theorem State.setUnit_cs (u : Nat) (x : UnitSt) (s : State) : (s.setUnit u x).cs = s.cs := rfl
@[simp] theorem State.setUnit_ident (u : Nat) (x : UnitSt) (s : State) : (s.setUnit u x).ident = s.ident := rfl
@[simp] theorem State.setUnit_boot (u : Nat) (x : UnitSt) (s : State) : (s.setUnit u x).boot = s.boot := rfl
@[simp] theorem State.setUnit_tide (u : Nat) (x : UnitSt) (s : State) : (s.setUnit u x).tide = s.tide := rfl
@[simp] theorem State.setUnit_queues (u : Nat) (x : UnitSt) (s : State) : (s.setUnit u x).queues = s.queues := rfl
@[simp] theorem State.setUnit_books (u : Nat) (x : UnitSt) (s : State) : (s.setUnit u x).books = s.books := rfl
@[simp] theorem State.setUnit_gates (u : Nat) (x : UnitSt) (s : State) : (s.setUnit u x).gates = s.gates := rfl
@[simp] theorem State.setUnit_memsys (u : Nat) (x : UnitSt) (s : State) : (s.setUnit u x).memsys = s.memsys := rfl
@[simp] theorem State.setUnit_ports (u : Nat) (x : UnitSt) (s : State) : (s.setUnit u x).ports = s.ports := rfl
@[simp] theorem State.setUnit_power (u : Nat) (x : UnitSt) (s : State) : (s.setUnit u x).power = s.power := rfl
@[simp] theorem State.setUnit_pools (u : Nat) (x : UnitSt) (s : State) : (s.setUnit u x).pools = s.pools := rfl
@[simp] theorem State.setUnit_host (u : Nat) (x : UnitSt) (s : State) : (s.setUnit u x).host = s.host := rfl
@[simp] theorem State.setUnit_bell (u : Nat) (x : UnitSt) (s : State) : (s.setUnit u x).bell = s.bell := rfl
@[simp] theorem State.setUnit_watch (u : Nat) (x : UnitSt) (s : State) : (s.setUnit u x).watch = s.watch := rfl
@[simp] theorem State.setUnit_storms (u : Nat) (x : UnitSt) (s : State) : (s.setUnit u x).storms = s.storms := rfl
@[simp] theorem State.setUnit_stormLate (u : Nat) (x : UnitSt) (s : State) : (s.setUnit u x).stormLate = s.stormLate := rfl
@[simp] theorem State.setUnit_stormText (u : Nat) (x : UnitSt) (s : State) : (s.setUnit u x).stormText = s.stormText := rfl
@[simp] theorem State.setUnit_disps (u : Nat) (x : UnitSt) (s : State) : (s.setUnit u x).disps = s.disps := rfl
@[simp] theorem State.setUnit_slate (u : Nat) (x : UnitSt) (s : State) : (s.setUnit u x).slate = s.slate := rfl
@[simp] theorem State.setUnit_picSent (u : Nat) (x : UnitSt) (s : State) : (s.setUnit u x).picSent = s.picSent := rfl
@[simp] theorem State.setUnit_picDone (u : Nat) (x : UnitSt) (s : State) : (s.setUnit u x).picDone = s.picDone := rfl
@[simp] theorem State.setUnit_layouts (u : Nat) (x : UnitSt) (s : State) : (s.setUnit u x).layouts = s.layouts := rfl
@[simp] theorem State.setUnit_i2cOfs (u : Nat) (x : UnitSt) (s : State) : (s.setUnit u x).i2cOfs = s.i2cOfs := rfl
@[simp] theorem State.setUnit_i2cWait (u : Nat) (x : UnitSt) (s : State) : (s.setUnit u x).i2cWait = s.i2cWait := rfl
@[simp] theorem State.setUnit_lts (u : Nat) (x : UnitSt) (s : State) : (s.setUnit u x).lts = s.lts := rfl
@[simp] theorem State.setUnit_ltRem (u : Nat) (x : UnitSt) (s : State) : (s.setUnit u x).ltRem = s.ltRem := rfl
@[simp] theorem State.setUnit_autostart (u : Nat) (x : UnitSt) (s : State) : (s.setUnit u x).autostart = s.autostart := rfl
@[simp] theorem State.setUnit_metaSet (u : Nat) (x : UnitSt) (s : State) : (s.setUnit u x).metaSet = s.metaSet := rfl
@[simp] theorem State.setUnit_police (u : Nat) (x : UnitSt) (s : State) : (s.setUnit u x).police = s.police := rfl
@[simp] theorem State.setUnit_rx (u : Nat) (x : UnitSt) (s : State) : (s.setUnit u x).rx = s.rx := rfl
@[simp] theorem State.setUnit_pes (u : Nat) (x : UnitSt) (s : State) : (s.setUnit u x).pes = s.pes := rfl
@[simp] theorem State.setUnit_flowSeq (u : Nat) (x : UnitSt) (s : State) : (s.setUnit u x).flowSeq = s.flowSeq := rfl
@[simp] theorem State.setUnit_feeds (u : Nat) (x : UnitSt) (s : State) : (s.setUnit u x).feeds = s.feeds := rfl
@[simp] theorem State.setUnit_pathLost (u : Nat) (x : UnitSt) (s : State) : (s.setUnit u x).pathLost = s.pathLost := rfl
@[simp] theorem State.setUnit_rmpKept (u : Nat) (x : UnitSt) (s : State) : (s.setUnit u x).rmpKept = s.rmpKept := rfl
@[simp] theorem State.setUnit_sndCfg (u : Nat) (x : UnitSt) (s : State) : (s.setUnit u x).sndCfg = s.sndCfg := rfl
@[simp] theorem State.setUnit_sndLfsr (u : Nat) (x : UnitSt) (s : State) : (s.setUnit u x).sndLfsr = s.sndLfsr := rfl
@[simp] theorem State.setUnit_sndBased (u : Nat) (x : UnitSt) (s : State) : (s.setUnit u x).sndBased = s.sndBased := rfl
@[simp] theorem State.setUnit_decs (u : Nat) (x : UnitSt) (s : State) : (s.setUnit u x).decs = s.decs := rfl
@[simp] theorem State.setUnit_quays (u : Nat) (x : UnitSt) (s : State) : (s.setUnit u x).quays = s.quays := rfl
@[simp] theorem State.setUnit_encs (u : Nat) (x : UnitSt) (s : State) : (s.setUnit u x).encs = s.encs := rfl
@[simp] theorem State.setUnit_windows (u : Nat) (x : UnitSt) (s : State) : (s.setUnit u x).windows = s.windows := rfl
@[simp] theorem State.setUnit_ctxDie (u : Nat) (x : UnitSt) (s : State) : (s.setUnit u x).ctxDie = s.ctxDie := rfl
@[simp] theorem State.setUnit_ucwNext (u : Nat) (x : UnitSt) (s : State) : (s.setUnit u x).ucwNext = s.ucwNext := rfl
@[simp] theorem State.setUnit_comps (u : Nat) (x : UnitSt) (s : State) : (s.setUnit u x).comps = s.comps := rfl
@[simp] theorem State.setUnit_flowTs (u : Nat) (x : UnitSt) (s : State) : (s.setUnit u x).flowTs = s.flowTs := rfl
@[simp] theorem State.setUnit_sndEnded (u : Nat) (x : UnitSt) (s : State) : (s.setUnit u x).sndEnded = s.sndEnded := rfl
@[simp] theorem State.setUnit_out (u : Nat) (x : UnitSt) (s : State) : (s.setUnit u x).out = s.out := rfl
@[simp] theorem State.setUnit_freeCtr (u : Nat) (x : UnitSt) (s : State) : (s.setUnit u x).freeCtr = s.freeCtr := rfl
@[simp] theorem State.setUnit_pending (u : Nat) (x : UnitSt) (s : State) : (s.setUnit u x).pending = s.pending := rfl

/-! `State.setUnitF` changes `units` alone. -/

@[simp] theorem State.setUnitF_regs (u : Nat) (f : UnitSt → UnitSt) (s : State) : (s.setUnitF u f).regs = s.regs := rfl
@[simp] theorem State.setUnitF_staged (u : Nat) (f : UnitSt → UnitSt) (s : State) : (s.setUnitF u f).staged = s.staged := rfl
@[simp] theorem State.setUnitF_hold (u : Nat) (f : UnitSt → UnitSt) (s : State) : (s.setUnitF u f).hold = s.hold := rfl
@[simp] theorem State.setUnitF_snaps (u : Nat) (f : UnitSt → UnitSt) (s : State) : (s.setUnitF u f).snaps = s.snaps := rfl
@[simp] theorem State.setUnitF_counts (u : Nat) (f : UnitSt → UnitSt) (s : State) : (s.setUnitF u f).counts = s.counts := rfl
@[simp] theorem State.setUnitF_mem (u : Nat) (f : UnitSt → UnitSt) (s : State) : (s.setUnitF u f).mem = s.mem := rfl
@[simp] theorem State.setUnitF_spad (u : Nat) (f : UnitSt → UnitSt) (s : State) : (s.setUnitF u f).spad = s.spad := rfl
@[simp] theorem State.setUnitF_cs (u : Nat) (f : UnitSt → UnitSt) (s : State) : (s.setUnitF u f).cs = s.cs := rfl
@[simp] theorem State.setUnitF_ident (u : Nat) (f : UnitSt → UnitSt) (s : State) : (s.setUnitF u f).ident = s.ident := rfl
@[simp] theorem State.setUnitF_boot (u : Nat) (f : UnitSt → UnitSt) (s : State) : (s.setUnitF u f).boot = s.boot := rfl
@[simp] theorem State.setUnitF_tide (u : Nat) (f : UnitSt → UnitSt) (s : State) : (s.setUnitF u f).tide = s.tide := rfl
@[simp] theorem State.setUnitF_queues (u : Nat) (f : UnitSt → UnitSt) (s : State) : (s.setUnitF u f).queues = s.queues := rfl
@[simp] theorem State.setUnitF_books (u : Nat) (f : UnitSt → UnitSt) (s : State) : (s.setUnitF u f).books = s.books := rfl
@[simp] theorem State.setUnitF_gates (u : Nat) (f : UnitSt → UnitSt) (s : State) : (s.setUnitF u f).gates = s.gates := rfl
@[simp] theorem State.setUnitF_memsys (u : Nat) (f : UnitSt → UnitSt) (s : State) : (s.setUnitF u f).memsys = s.memsys := rfl
@[simp] theorem State.setUnitF_ports (u : Nat) (f : UnitSt → UnitSt) (s : State) : (s.setUnitF u f).ports = s.ports := rfl
@[simp] theorem State.setUnitF_power (u : Nat) (f : UnitSt → UnitSt) (s : State) : (s.setUnitF u f).power = s.power := rfl
@[simp] theorem State.setUnitF_pools (u : Nat) (f : UnitSt → UnitSt) (s : State) : (s.setUnitF u f).pools = s.pools := rfl
@[simp] theorem State.setUnitF_host (u : Nat) (f : UnitSt → UnitSt) (s : State) : (s.setUnitF u f).host = s.host := rfl
@[simp] theorem State.setUnitF_bell (u : Nat) (f : UnitSt → UnitSt) (s : State) : (s.setUnitF u f).bell = s.bell := rfl
@[simp] theorem State.setUnitF_watch (u : Nat) (f : UnitSt → UnitSt) (s : State) : (s.setUnitF u f).watch = s.watch := rfl
@[simp] theorem State.setUnitF_storms (u : Nat) (f : UnitSt → UnitSt) (s : State) : (s.setUnitF u f).storms = s.storms := rfl
@[simp] theorem State.setUnitF_stormLate (u : Nat) (f : UnitSt → UnitSt) (s : State) : (s.setUnitF u f).stormLate = s.stormLate := rfl
@[simp] theorem State.setUnitF_stormText (u : Nat) (f : UnitSt → UnitSt) (s : State) : (s.setUnitF u f).stormText = s.stormText := rfl
@[simp] theorem State.setUnitF_disps (u : Nat) (f : UnitSt → UnitSt) (s : State) : (s.setUnitF u f).disps = s.disps := rfl
@[simp] theorem State.setUnitF_slate (u : Nat) (f : UnitSt → UnitSt) (s : State) : (s.setUnitF u f).slate = s.slate := rfl
@[simp] theorem State.setUnitF_picSent (u : Nat) (f : UnitSt → UnitSt) (s : State) : (s.setUnitF u f).picSent = s.picSent := rfl
@[simp] theorem State.setUnitF_picDone (u : Nat) (f : UnitSt → UnitSt) (s : State) : (s.setUnitF u f).picDone = s.picDone := rfl
@[simp] theorem State.setUnitF_layouts (u : Nat) (f : UnitSt → UnitSt) (s : State) : (s.setUnitF u f).layouts = s.layouts := rfl
@[simp] theorem State.setUnitF_i2cOfs (u : Nat) (f : UnitSt → UnitSt) (s : State) : (s.setUnitF u f).i2cOfs = s.i2cOfs := rfl
@[simp] theorem State.setUnitF_i2cWait (u : Nat) (f : UnitSt → UnitSt) (s : State) : (s.setUnitF u f).i2cWait = s.i2cWait := rfl
@[simp] theorem State.setUnitF_lts (u : Nat) (f : UnitSt → UnitSt) (s : State) : (s.setUnitF u f).lts = s.lts := rfl
@[simp] theorem State.setUnitF_ltRem (u : Nat) (f : UnitSt → UnitSt) (s : State) : (s.setUnitF u f).ltRem = s.ltRem := rfl
@[simp] theorem State.setUnitF_autostart (u : Nat) (f : UnitSt → UnitSt) (s : State) : (s.setUnitF u f).autostart = s.autostart := rfl
@[simp] theorem State.setUnitF_metaSet (u : Nat) (f : UnitSt → UnitSt) (s : State) : (s.setUnitF u f).metaSet = s.metaSet := rfl
@[simp] theorem State.setUnitF_police (u : Nat) (f : UnitSt → UnitSt) (s : State) : (s.setUnitF u f).police = s.police := rfl
@[simp] theorem State.setUnitF_rx (u : Nat) (f : UnitSt → UnitSt) (s : State) : (s.setUnitF u f).rx = s.rx := rfl
@[simp] theorem State.setUnitF_pes (u : Nat) (f : UnitSt → UnitSt) (s : State) : (s.setUnitF u f).pes = s.pes := rfl
@[simp] theorem State.setUnitF_flowSeq (u : Nat) (f : UnitSt → UnitSt) (s : State) : (s.setUnitF u f).flowSeq = s.flowSeq := rfl
@[simp] theorem State.setUnitF_feeds (u : Nat) (f : UnitSt → UnitSt) (s : State) : (s.setUnitF u f).feeds = s.feeds := rfl
@[simp] theorem State.setUnitF_pathLost (u : Nat) (f : UnitSt → UnitSt) (s : State) : (s.setUnitF u f).pathLost = s.pathLost := rfl
@[simp] theorem State.setUnitF_rmpKept (u : Nat) (f : UnitSt → UnitSt) (s : State) : (s.setUnitF u f).rmpKept = s.rmpKept := rfl
@[simp] theorem State.setUnitF_sndCfg (u : Nat) (f : UnitSt → UnitSt) (s : State) : (s.setUnitF u f).sndCfg = s.sndCfg := rfl
@[simp] theorem State.setUnitF_sndLfsr (u : Nat) (f : UnitSt → UnitSt) (s : State) : (s.setUnitF u f).sndLfsr = s.sndLfsr := rfl
@[simp] theorem State.setUnitF_sndBased (u : Nat) (f : UnitSt → UnitSt) (s : State) : (s.setUnitF u f).sndBased = s.sndBased := rfl
@[simp] theorem State.setUnitF_decs (u : Nat) (f : UnitSt → UnitSt) (s : State) : (s.setUnitF u f).decs = s.decs := rfl
@[simp] theorem State.setUnitF_quays (u : Nat) (f : UnitSt → UnitSt) (s : State) : (s.setUnitF u f).quays = s.quays := rfl
@[simp] theorem State.setUnitF_encs (u : Nat) (f : UnitSt → UnitSt) (s : State) : (s.setUnitF u f).encs = s.encs := rfl
@[simp] theorem State.setUnitF_windows (u : Nat) (f : UnitSt → UnitSt) (s : State) : (s.setUnitF u f).windows = s.windows := rfl
@[simp] theorem State.setUnitF_ctxDie (u : Nat) (f : UnitSt → UnitSt) (s : State) : (s.setUnitF u f).ctxDie = s.ctxDie := rfl
@[simp] theorem State.setUnitF_ucwNext (u : Nat) (f : UnitSt → UnitSt) (s : State) : (s.setUnitF u f).ucwNext = s.ucwNext := rfl
@[simp] theorem State.setUnitF_comps (u : Nat) (f : UnitSt → UnitSt) (s : State) : (s.setUnitF u f).comps = s.comps := rfl
@[simp] theorem State.setUnitF_flowTs (u : Nat) (f : UnitSt → UnitSt) (s : State) : (s.setUnitF u f).flowTs = s.flowTs := rfl
@[simp] theorem State.setUnitF_sndEnded (u : Nat) (f : UnitSt → UnitSt) (s : State) : (s.setUnitF u f).sndEnded = s.sndEnded := rfl
@[simp] theorem State.setUnitF_out (u : Nat) (f : UnitSt → UnitSt) (s : State) : (s.setUnitF u f).out = s.out := rfl
@[simp] theorem State.setUnitF_freeCtr (u : Nat) (f : UnitSt → UnitSt) (s : State) : (s.setUnitF u f).freeCtr = s.freeCtr := rfl
@[simp] theorem State.setUnitF_pending (u : Nat) (f : UnitSt → UnitSt) (s : State) : (s.setUnitF u f).pending = s.pending := rfl

/-! `State.setPool` changes `pools` alone. -/

@[simp] theorem State.setPool_regs (p : Nat) (x : PoolSt) (s : State) : (s.setPool p x).regs = s.regs := rfl
@[simp] theorem State.setPool_staged (p : Nat) (x : PoolSt) (s : State) : (s.setPool p x).staged = s.staged := rfl
@[simp] theorem State.setPool_hold (p : Nat) (x : PoolSt) (s : State) : (s.setPool p x).hold = s.hold := rfl
@[simp] theorem State.setPool_snaps (p : Nat) (x : PoolSt) (s : State) : (s.setPool p x).snaps = s.snaps := rfl
@[simp] theorem State.setPool_counts (p : Nat) (x : PoolSt) (s : State) : (s.setPool p x).counts = s.counts := rfl
@[simp] theorem State.setPool_mem (p : Nat) (x : PoolSt) (s : State) : (s.setPool p x).mem = s.mem := rfl
@[simp] theorem State.setPool_spad (p : Nat) (x : PoolSt) (s : State) : (s.setPool p x).spad = s.spad := rfl
@[simp] theorem State.setPool_cs (p : Nat) (x : PoolSt) (s : State) : (s.setPool p x).cs = s.cs := rfl
@[simp] theorem State.setPool_ident (p : Nat) (x : PoolSt) (s : State) : (s.setPool p x).ident = s.ident := rfl
@[simp] theorem State.setPool_boot (p : Nat) (x : PoolSt) (s : State) : (s.setPool p x).boot = s.boot := rfl
@[simp] theorem State.setPool_tide (p : Nat) (x : PoolSt) (s : State) : (s.setPool p x).tide = s.tide := rfl
@[simp] theorem State.setPool_units (p : Nat) (x : PoolSt) (s : State) : (s.setPool p x).units = s.units := rfl
@[simp] theorem State.setPool_queues (p : Nat) (x : PoolSt) (s : State) : (s.setPool p x).queues = s.queues := rfl
@[simp] theorem State.setPool_books (p : Nat) (x : PoolSt) (s : State) : (s.setPool p x).books = s.books := rfl
@[simp] theorem State.setPool_gates (p : Nat) (x : PoolSt) (s : State) : (s.setPool p x).gates = s.gates := rfl
@[simp] theorem State.setPool_memsys (p : Nat) (x : PoolSt) (s : State) : (s.setPool p x).memsys = s.memsys := rfl
@[simp] theorem State.setPool_ports (p : Nat) (x : PoolSt) (s : State) : (s.setPool p x).ports = s.ports := rfl
@[simp] theorem State.setPool_power (p : Nat) (x : PoolSt) (s : State) : (s.setPool p x).power = s.power := rfl
@[simp] theorem State.setPool_host (p : Nat) (x : PoolSt) (s : State) : (s.setPool p x).host = s.host := rfl
@[simp] theorem State.setPool_bell (p : Nat) (x : PoolSt) (s : State) : (s.setPool p x).bell = s.bell := rfl
@[simp] theorem State.setPool_watch (p : Nat) (x : PoolSt) (s : State) : (s.setPool p x).watch = s.watch := rfl
@[simp] theorem State.setPool_storms (p : Nat) (x : PoolSt) (s : State) : (s.setPool p x).storms = s.storms := rfl
@[simp] theorem State.setPool_stormLate (p : Nat) (x : PoolSt) (s : State) : (s.setPool p x).stormLate = s.stormLate := rfl
@[simp] theorem State.setPool_stormText (p : Nat) (x : PoolSt) (s : State) : (s.setPool p x).stormText = s.stormText := rfl
@[simp] theorem State.setPool_disps (p : Nat) (x : PoolSt) (s : State) : (s.setPool p x).disps = s.disps := rfl
@[simp] theorem State.setPool_slate (p : Nat) (x : PoolSt) (s : State) : (s.setPool p x).slate = s.slate := rfl
@[simp] theorem State.setPool_picSent (p : Nat) (x : PoolSt) (s : State) : (s.setPool p x).picSent = s.picSent := rfl
@[simp] theorem State.setPool_picDone (p : Nat) (x : PoolSt) (s : State) : (s.setPool p x).picDone = s.picDone := rfl
@[simp] theorem State.setPool_layouts (p : Nat) (x : PoolSt) (s : State) : (s.setPool p x).layouts = s.layouts := rfl
@[simp] theorem State.setPool_i2cOfs (p : Nat) (x : PoolSt) (s : State) : (s.setPool p x).i2cOfs = s.i2cOfs := rfl
@[simp] theorem State.setPool_i2cWait (p : Nat) (x : PoolSt) (s : State) : (s.setPool p x).i2cWait = s.i2cWait := rfl
@[simp] theorem State.setPool_lts (p : Nat) (x : PoolSt) (s : State) : (s.setPool p x).lts = s.lts := rfl
@[simp] theorem State.setPool_ltRem (p : Nat) (x : PoolSt) (s : State) : (s.setPool p x).ltRem = s.ltRem := rfl
@[simp] theorem State.setPool_autostart (p : Nat) (x : PoolSt) (s : State) : (s.setPool p x).autostart = s.autostart := rfl
@[simp] theorem State.setPool_metaSet (p : Nat) (x : PoolSt) (s : State) : (s.setPool p x).metaSet = s.metaSet := rfl
@[simp] theorem State.setPool_police (p : Nat) (x : PoolSt) (s : State) : (s.setPool p x).police = s.police := rfl
@[simp] theorem State.setPool_rx (p : Nat) (x : PoolSt) (s : State) : (s.setPool p x).rx = s.rx := rfl
@[simp] theorem State.setPool_pes (p : Nat) (x : PoolSt) (s : State) : (s.setPool p x).pes = s.pes := rfl
@[simp] theorem State.setPool_flowSeq (p : Nat) (x : PoolSt) (s : State) : (s.setPool p x).flowSeq = s.flowSeq := rfl
@[simp] theorem State.setPool_feeds (p : Nat) (x : PoolSt) (s : State) : (s.setPool p x).feeds = s.feeds := rfl
@[simp] theorem State.setPool_pathLost (p : Nat) (x : PoolSt) (s : State) : (s.setPool p x).pathLost = s.pathLost := rfl
@[simp] theorem State.setPool_rmpKept (p : Nat) (x : PoolSt) (s : State) : (s.setPool p x).rmpKept = s.rmpKept := rfl
@[simp] theorem State.setPool_sndCfg (p : Nat) (x : PoolSt) (s : State) : (s.setPool p x).sndCfg = s.sndCfg := rfl
@[simp] theorem State.setPool_sndLfsr (p : Nat) (x : PoolSt) (s : State) : (s.setPool p x).sndLfsr = s.sndLfsr := rfl
@[simp] theorem State.setPool_sndBased (p : Nat) (x : PoolSt) (s : State) : (s.setPool p x).sndBased = s.sndBased := rfl
@[simp] theorem State.setPool_decs (p : Nat) (x : PoolSt) (s : State) : (s.setPool p x).decs = s.decs := rfl
@[simp] theorem State.setPool_quays (p : Nat) (x : PoolSt) (s : State) : (s.setPool p x).quays = s.quays := rfl
@[simp] theorem State.setPool_encs (p : Nat) (x : PoolSt) (s : State) : (s.setPool p x).encs = s.encs := rfl
@[simp] theorem State.setPool_windows (p : Nat) (x : PoolSt) (s : State) : (s.setPool p x).windows = s.windows := rfl
@[simp] theorem State.setPool_ctxDie (p : Nat) (x : PoolSt) (s : State) : (s.setPool p x).ctxDie = s.ctxDie := rfl
@[simp] theorem State.setPool_ucwNext (p : Nat) (x : PoolSt) (s : State) : (s.setPool p x).ucwNext = s.ucwNext := rfl
@[simp] theorem State.setPool_comps (p : Nat) (x : PoolSt) (s : State) : (s.setPool p x).comps = s.comps := rfl
@[simp] theorem State.setPool_flowTs (p : Nat) (x : PoolSt) (s : State) : (s.setPool p x).flowTs = s.flowTs := rfl
@[simp] theorem State.setPool_sndEnded (p : Nat) (x : PoolSt) (s : State) : (s.setPool p x).sndEnded = s.sndEnded := rfl
@[simp] theorem State.setPool_out (p : Nat) (x : PoolSt) (s : State) : (s.setPool p x).out = s.out := rfl
@[simp] theorem State.setPool_freeCtr (p : Nat) (x : PoolSt) (s : State) : (s.setPool p x).freeCtr = s.freeCtr := rfl
@[simp] theorem State.setPool_pending (p : Nat) (x : PoolSt) (s : State) : (s.setPool p x).pending = s.pending := rfl

/-! `State.setPort` changes `ports` alone. -/

@[simp] theorem State.setPort_regs (p : Nat) (x : PortSt) (s : State) : (s.setPort p x).regs = s.regs := rfl
@[simp] theorem State.setPort_staged (p : Nat) (x : PortSt) (s : State) : (s.setPort p x).staged = s.staged := rfl
@[simp] theorem State.setPort_hold (p : Nat) (x : PortSt) (s : State) : (s.setPort p x).hold = s.hold := rfl
@[simp] theorem State.setPort_snaps (p : Nat) (x : PortSt) (s : State) : (s.setPort p x).snaps = s.snaps := rfl
@[simp] theorem State.setPort_counts (p : Nat) (x : PortSt) (s : State) : (s.setPort p x).counts = s.counts := rfl
@[simp] theorem State.setPort_mem (p : Nat) (x : PortSt) (s : State) : (s.setPort p x).mem = s.mem := rfl
@[simp] theorem State.setPort_spad (p : Nat) (x : PortSt) (s : State) : (s.setPort p x).spad = s.spad := rfl
@[simp] theorem State.setPort_cs (p : Nat) (x : PortSt) (s : State) : (s.setPort p x).cs = s.cs := rfl
@[simp] theorem State.setPort_ident (p : Nat) (x : PortSt) (s : State) : (s.setPort p x).ident = s.ident := rfl
@[simp] theorem State.setPort_boot (p : Nat) (x : PortSt) (s : State) : (s.setPort p x).boot = s.boot := rfl
@[simp] theorem State.setPort_tide (p : Nat) (x : PortSt) (s : State) : (s.setPort p x).tide = s.tide := rfl
@[simp] theorem State.setPort_units (p : Nat) (x : PortSt) (s : State) : (s.setPort p x).units = s.units := rfl
@[simp] theorem State.setPort_queues (p : Nat) (x : PortSt) (s : State) : (s.setPort p x).queues = s.queues := rfl
@[simp] theorem State.setPort_books (p : Nat) (x : PortSt) (s : State) : (s.setPort p x).books = s.books := rfl
@[simp] theorem State.setPort_gates (p : Nat) (x : PortSt) (s : State) : (s.setPort p x).gates = s.gates := rfl
@[simp] theorem State.setPort_memsys (p : Nat) (x : PortSt) (s : State) : (s.setPort p x).memsys = s.memsys := rfl
@[simp] theorem State.setPort_power (p : Nat) (x : PortSt) (s : State) : (s.setPort p x).power = s.power := rfl
@[simp] theorem State.setPort_pools (p : Nat) (x : PortSt) (s : State) : (s.setPort p x).pools = s.pools := rfl
@[simp] theorem State.setPort_host (p : Nat) (x : PortSt) (s : State) : (s.setPort p x).host = s.host := rfl
@[simp] theorem State.setPort_bell (p : Nat) (x : PortSt) (s : State) : (s.setPort p x).bell = s.bell := rfl
@[simp] theorem State.setPort_watch (p : Nat) (x : PortSt) (s : State) : (s.setPort p x).watch = s.watch := rfl
@[simp] theorem State.setPort_storms (p : Nat) (x : PortSt) (s : State) : (s.setPort p x).storms = s.storms := rfl
@[simp] theorem State.setPort_stormLate (p : Nat) (x : PortSt) (s : State) : (s.setPort p x).stormLate = s.stormLate := rfl
@[simp] theorem State.setPort_stormText (p : Nat) (x : PortSt) (s : State) : (s.setPort p x).stormText = s.stormText := rfl
@[simp] theorem State.setPort_disps (p : Nat) (x : PortSt) (s : State) : (s.setPort p x).disps = s.disps := rfl
@[simp] theorem State.setPort_slate (p : Nat) (x : PortSt) (s : State) : (s.setPort p x).slate = s.slate := rfl
@[simp] theorem State.setPort_picSent (p : Nat) (x : PortSt) (s : State) : (s.setPort p x).picSent = s.picSent := rfl
@[simp] theorem State.setPort_picDone (p : Nat) (x : PortSt) (s : State) : (s.setPort p x).picDone = s.picDone := rfl
@[simp] theorem State.setPort_layouts (p : Nat) (x : PortSt) (s : State) : (s.setPort p x).layouts = s.layouts := rfl
@[simp] theorem State.setPort_i2cOfs (p : Nat) (x : PortSt) (s : State) : (s.setPort p x).i2cOfs = s.i2cOfs := rfl
@[simp] theorem State.setPort_i2cWait (p : Nat) (x : PortSt) (s : State) : (s.setPort p x).i2cWait = s.i2cWait := rfl
@[simp] theorem State.setPort_lts (p : Nat) (x : PortSt) (s : State) : (s.setPort p x).lts = s.lts := rfl
@[simp] theorem State.setPort_ltRem (p : Nat) (x : PortSt) (s : State) : (s.setPort p x).ltRem = s.ltRem := rfl
@[simp] theorem State.setPort_autostart (p : Nat) (x : PortSt) (s : State) : (s.setPort p x).autostart = s.autostart := rfl
@[simp] theorem State.setPort_metaSet (p : Nat) (x : PortSt) (s : State) : (s.setPort p x).metaSet = s.metaSet := rfl
@[simp] theorem State.setPort_police (p : Nat) (x : PortSt) (s : State) : (s.setPort p x).police = s.police := rfl
@[simp] theorem State.setPort_rx (p : Nat) (x : PortSt) (s : State) : (s.setPort p x).rx = s.rx := rfl
@[simp] theorem State.setPort_pes (p : Nat) (x : PortSt) (s : State) : (s.setPort p x).pes = s.pes := rfl
@[simp] theorem State.setPort_flowSeq (p : Nat) (x : PortSt) (s : State) : (s.setPort p x).flowSeq = s.flowSeq := rfl
@[simp] theorem State.setPort_feeds (p : Nat) (x : PortSt) (s : State) : (s.setPort p x).feeds = s.feeds := rfl
@[simp] theorem State.setPort_pathLost (p : Nat) (x : PortSt) (s : State) : (s.setPort p x).pathLost = s.pathLost := rfl
@[simp] theorem State.setPort_rmpKept (p : Nat) (x : PortSt) (s : State) : (s.setPort p x).rmpKept = s.rmpKept := rfl
@[simp] theorem State.setPort_sndCfg (p : Nat) (x : PortSt) (s : State) : (s.setPort p x).sndCfg = s.sndCfg := rfl
@[simp] theorem State.setPort_sndLfsr (p : Nat) (x : PortSt) (s : State) : (s.setPort p x).sndLfsr = s.sndLfsr := rfl
@[simp] theorem State.setPort_sndBased (p : Nat) (x : PortSt) (s : State) : (s.setPort p x).sndBased = s.sndBased := rfl
@[simp] theorem State.setPort_decs (p : Nat) (x : PortSt) (s : State) : (s.setPort p x).decs = s.decs := rfl
@[simp] theorem State.setPort_quays (p : Nat) (x : PortSt) (s : State) : (s.setPort p x).quays = s.quays := rfl
@[simp] theorem State.setPort_encs (p : Nat) (x : PortSt) (s : State) : (s.setPort p x).encs = s.encs := rfl
@[simp] theorem State.setPort_windows (p : Nat) (x : PortSt) (s : State) : (s.setPort p x).windows = s.windows := rfl
@[simp] theorem State.setPort_ctxDie (p : Nat) (x : PortSt) (s : State) : (s.setPort p x).ctxDie = s.ctxDie := rfl
@[simp] theorem State.setPort_ucwNext (p : Nat) (x : PortSt) (s : State) : (s.setPort p x).ucwNext = s.ucwNext := rfl
@[simp] theorem State.setPort_comps (p : Nat) (x : PortSt) (s : State) : (s.setPort p x).comps = s.comps := rfl
@[simp] theorem State.setPort_flowTs (p : Nat) (x : PortSt) (s : State) : (s.setPort p x).flowTs = s.flowTs := rfl
@[simp] theorem State.setPort_sndEnded (p : Nat) (x : PortSt) (s : State) : (s.setPort p x).sndEnded = s.sndEnded := rfl
@[simp] theorem State.setPort_out (p : Nat) (x : PortSt) (s : State) : (s.setPort p x).out = s.out := rfl
@[simp] theorem State.setPort_freeCtr (p : Nat) (x : PortSt) (s : State) : (s.setPort p x).freeCtr = s.freeCtr := rfl
@[simp] theorem State.setPort_pending (p : Nat) (x : PortSt) (s : State) : (s.setPort p x).pending = s.pending := rfl

/-! `State.setSrc` changes `bell` alone. -/

@[simp] theorem State.setSrc_regs (n : Nat) (x : BellSrc) (s : State) : (s.setSrc n x).regs = s.regs := rfl
@[simp] theorem State.setSrc_staged (n : Nat) (x : BellSrc) (s : State) : (s.setSrc n x).staged = s.staged := rfl
@[simp] theorem State.setSrc_hold (n : Nat) (x : BellSrc) (s : State) : (s.setSrc n x).hold = s.hold := rfl
@[simp] theorem State.setSrc_snaps (n : Nat) (x : BellSrc) (s : State) : (s.setSrc n x).snaps = s.snaps := rfl
@[simp] theorem State.setSrc_counts (n : Nat) (x : BellSrc) (s : State) : (s.setSrc n x).counts = s.counts := rfl
@[simp] theorem State.setSrc_mem (n : Nat) (x : BellSrc) (s : State) : (s.setSrc n x).mem = s.mem := rfl
@[simp] theorem State.setSrc_spad (n : Nat) (x : BellSrc) (s : State) : (s.setSrc n x).spad = s.spad := rfl
@[simp] theorem State.setSrc_cs (n : Nat) (x : BellSrc) (s : State) : (s.setSrc n x).cs = s.cs := rfl
@[simp] theorem State.setSrc_ident (n : Nat) (x : BellSrc) (s : State) : (s.setSrc n x).ident = s.ident := rfl
@[simp] theorem State.setSrc_boot (n : Nat) (x : BellSrc) (s : State) : (s.setSrc n x).boot = s.boot := rfl
@[simp] theorem State.setSrc_tide (n : Nat) (x : BellSrc) (s : State) : (s.setSrc n x).tide = s.tide := rfl
@[simp] theorem State.setSrc_units (n : Nat) (x : BellSrc) (s : State) : (s.setSrc n x).units = s.units := rfl
@[simp] theorem State.setSrc_queues (n : Nat) (x : BellSrc) (s : State) : (s.setSrc n x).queues = s.queues := rfl
@[simp] theorem State.setSrc_books (n : Nat) (x : BellSrc) (s : State) : (s.setSrc n x).books = s.books := rfl
@[simp] theorem State.setSrc_gates (n : Nat) (x : BellSrc) (s : State) : (s.setSrc n x).gates = s.gates := rfl
@[simp] theorem State.setSrc_memsys (n : Nat) (x : BellSrc) (s : State) : (s.setSrc n x).memsys = s.memsys := rfl
@[simp] theorem State.setSrc_ports (n : Nat) (x : BellSrc) (s : State) : (s.setSrc n x).ports = s.ports := rfl
@[simp] theorem State.setSrc_power (n : Nat) (x : BellSrc) (s : State) : (s.setSrc n x).power = s.power := rfl
@[simp] theorem State.setSrc_pools (n : Nat) (x : BellSrc) (s : State) : (s.setSrc n x).pools = s.pools := rfl
@[simp] theorem State.setSrc_host (n : Nat) (x : BellSrc) (s : State) : (s.setSrc n x).host = s.host := rfl
@[simp] theorem State.setSrc_watch (n : Nat) (x : BellSrc) (s : State) : (s.setSrc n x).watch = s.watch := rfl
@[simp] theorem State.setSrc_storms (n : Nat) (x : BellSrc) (s : State) : (s.setSrc n x).storms = s.storms := rfl
@[simp] theorem State.setSrc_stormLate (n : Nat) (x : BellSrc) (s : State) : (s.setSrc n x).stormLate = s.stormLate := rfl
@[simp] theorem State.setSrc_stormText (n : Nat) (x : BellSrc) (s : State) : (s.setSrc n x).stormText = s.stormText := rfl
@[simp] theorem State.setSrc_disps (n : Nat) (x : BellSrc) (s : State) : (s.setSrc n x).disps = s.disps := rfl
@[simp] theorem State.setSrc_slate (n : Nat) (x : BellSrc) (s : State) : (s.setSrc n x).slate = s.slate := rfl
@[simp] theorem State.setSrc_picSent (n : Nat) (x : BellSrc) (s : State) : (s.setSrc n x).picSent = s.picSent := rfl
@[simp] theorem State.setSrc_picDone (n : Nat) (x : BellSrc) (s : State) : (s.setSrc n x).picDone = s.picDone := rfl
@[simp] theorem State.setSrc_layouts (n : Nat) (x : BellSrc) (s : State) : (s.setSrc n x).layouts = s.layouts := rfl
@[simp] theorem State.setSrc_i2cOfs (n : Nat) (x : BellSrc) (s : State) : (s.setSrc n x).i2cOfs = s.i2cOfs := rfl
@[simp] theorem State.setSrc_i2cWait (n : Nat) (x : BellSrc) (s : State) : (s.setSrc n x).i2cWait = s.i2cWait := rfl
@[simp] theorem State.setSrc_lts (n : Nat) (x : BellSrc) (s : State) : (s.setSrc n x).lts = s.lts := rfl
@[simp] theorem State.setSrc_ltRem (n : Nat) (x : BellSrc) (s : State) : (s.setSrc n x).ltRem = s.ltRem := rfl
@[simp] theorem State.setSrc_autostart (n : Nat) (x : BellSrc) (s : State) : (s.setSrc n x).autostart = s.autostart := rfl
@[simp] theorem State.setSrc_metaSet (n : Nat) (x : BellSrc) (s : State) : (s.setSrc n x).metaSet = s.metaSet := rfl
@[simp] theorem State.setSrc_police (n : Nat) (x : BellSrc) (s : State) : (s.setSrc n x).police = s.police := rfl
@[simp] theorem State.setSrc_rx (n : Nat) (x : BellSrc) (s : State) : (s.setSrc n x).rx = s.rx := rfl
@[simp] theorem State.setSrc_pes (n : Nat) (x : BellSrc) (s : State) : (s.setSrc n x).pes = s.pes := rfl
@[simp] theorem State.setSrc_flowSeq (n : Nat) (x : BellSrc) (s : State) : (s.setSrc n x).flowSeq = s.flowSeq := rfl
@[simp] theorem State.setSrc_feeds (n : Nat) (x : BellSrc) (s : State) : (s.setSrc n x).feeds = s.feeds := rfl
@[simp] theorem State.setSrc_pathLost (n : Nat) (x : BellSrc) (s : State) : (s.setSrc n x).pathLost = s.pathLost := rfl
@[simp] theorem State.setSrc_rmpKept (n : Nat) (x : BellSrc) (s : State) : (s.setSrc n x).rmpKept = s.rmpKept := rfl
@[simp] theorem State.setSrc_sndCfg (n : Nat) (x : BellSrc) (s : State) : (s.setSrc n x).sndCfg = s.sndCfg := rfl
@[simp] theorem State.setSrc_sndLfsr (n : Nat) (x : BellSrc) (s : State) : (s.setSrc n x).sndLfsr = s.sndLfsr := rfl
@[simp] theorem State.setSrc_sndBased (n : Nat) (x : BellSrc) (s : State) : (s.setSrc n x).sndBased = s.sndBased := rfl
@[simp] theorem State.setSrc_decs (n : Nat) (x : BellSrc) (s : State) : (s.setSrc n x).decs = s.decs := rfl
@[simp] theorem State.setSrc_quays (n : Nat) (x : BellSrc) (s : State) : (s.setSrc n x).quays = s.quays := rfl
@[simp] theorem State.setSrc_encs (n : Nat) (x : BellSrc) (s : State) : (s.setSrc n x).encs = s.encs := rfl
@[simp] theorem State.setSrc_windows (n : Nat) (x : BellSrc) (s : State) : (s.setSrc n x).windows = s.windows := rfl
@[simp] theorem State.setSrc_ctxDie (n : Nat) (x : BellSrc) (s : State) : (s.setSrc n x).ctxDie = s.ctxDie := rfl
@[simp] theorem State.setSrc_ucwNext (n : Nat) (x : BellSrc) (s : State) : (s.setSrc n x).ucwNext = s.ucwNext := rfl
@[simp] theorem State.setSrc_comps (n : Nat) (x : BellSrc) (s : State) : (s.setSrc n x).comps = s.comps := rfl
@[simp] theorem State.setSrc_flowTs (n : Nat) (x : BellSrc) (s : State) : (s.setSrc n x).flowTs = s.flowTs := rfl
@[simp] theorem State.setSrc_sndEnded (n : Nat) (x : BellSrc) (s : State) : (s.setSrc n x).sndEnded = s.sndEnded := rfl
@[simp] theorem State.setSrc_out (n : Nat) (x : BellSrc) (s : State) : (s.setSrc n x).out = s.out := rfl
@[simp] theorem State.setSrc_freeCtr (n : Nat) (x : BellSrc) (s : State) : (s.setSrc n x).freeCtr = s.freeCtr := rfl
@[simp] theorem State.setSrc_pending (n : Nat) (x : BellSrc) (s : State) : (s.setSrc n x).pending = s.pending := rfl

/-! `State.setGate` changes `gates` alone. -/

@[simp] theorem State.setGate_regs (k : Nat) (x : GateSt) (s : State) : (s.setGate k x).regs = s.regs := rfl
@[simp] theorem State.setGate_staged (k : Nat) (x : GateSt) (s : State) : (s.setGate k x).staged = s.staged := rfl
@[simp] theorem State.setGate_hold (k : Nat) (x : GateSt) (s : State) : (s.setGate k x).hold = s.hold := rfl
@[simp] theorem State.setGate_snaps (k : Nat) (x : GateSt) (s : State) : (s.setGate k x).snaps = s.snaps := rfl
@[simp] theorem State.setGate_counts (k : Nat) (x : GateSt) (s : State) : (s.setGate k x).counts = s.counts := rfl
@[simp] theorem State.setGate_mem (k : Nat) (x : GateSt) (s : State) : (s.setGate k x).mem = s.mem := rfl
@[simp] theorem State.setGate_spad (k : Nat) (x : GateSt) (s : State) : (s.setGate k x).spad = s.spad := rfl
@[simp] theorem State.setGate_cs (k : Nat) (x : GateSt) (s : State) : (s.setGate k x).cs = s.cs := rfl
@[simp] theorem State.setGate_ident (k : Nat) (x : GateSt) (s : State) : (s.setGate k x).ident = s.ident := rfl
@[simp] theorem State.setGate_boot (k : Nat) (x : GateSt) (s : State) : (s.setGate k x).boot = s.boot := rfl
@[simp] theorem State.setGate_tide (k : Nat) (x : GateSt) (s : State) : (s.setGate k x).tide = s.tide := rfl
@[simp] theorem State.setGate_units (k : Nat) (x : GateSt) (s : State) : (s.setGate k x).units = s.units := rfl
@[simp] theorem State.setGate_queues (k : Nat) (x : GateSt) (s : State) : (s.setGate k x).queues = s.queues := rfl
@[simp] theorem State.setGate_books (k : Nat) (x : GateSt) (s : State) : (s.setGate k x).books = s.books := rfl
@[simp] theorem State.setGate_memsys (k : Nat) (x : GateSt) (s : State) : (s.setGate k x).memsys = s.memsys := rfl
@[simp] theorem State.setGate_ports (k : Nat) (x : GateSt) (s : State) : (s.setGate k x).ports = s.ports := rfl
@[simp] theorem State.setGate_power (k : Nat) (x : GateSt) (s : State) : (s.setGate k x).power = s.power := rfl
@[simp] theorem State.setGate_pools (k : Nat) (x : GateSt) (s : State) : (s.setGate k x).pools = s.pools := rfl
@[simp] theorem State.setGate_host (k : Nat) (x : GateSt) (s : State) : (s.setGate k x).host = s.host := rfl
@[simp] theorem State.setGate_bell (k : Nat) (x : GateSt) (s : State) : (s.setGate k x).bell = s.bell := rfl
@[simp] theorem State.setGate_watch (k : Nat) (x : GateSt) (s : State) : (s.setGate k x).watch = s.watch := rfl
@[simp] theorem State.setGate_storms (k : Nat) (x : GateSt) (s : State) : (s.setGate k x).storms = s.storms := rfl
@[simp] theorem State.setGate_stormLate (k : Nat) (x : GateSt) (s : State) : (s.setGate k x).stormLate = s.stormLate := rfl
@[simp] theorem State.setGate_stormText (k : Nat) (x : GateSt) (s : State) : (s.setGate k x).stormText = s.stormText := rfl
@[simp] theorem State.setGate_disps (k : Nat) (x : GateSt) (s : State) : (s.setGate k x).disps = s.disps := rfl
@[simp] theorem State.setGate_slate (k : Nat) (x : GateSt) (s : State) : (s.setGate k x).slate = s.slate := rfl
@[simp] theorem State.setGate_picSent (k : Nat) (x : GateSt) (s : State) : (s.setGate k x).picSent = s.picSent := rfl
@[simp] theorem State.setGate_picDone (k : Nat) (x : GateSt) (s : State) : (s.setGate k x).picDone = s.picDone := rfl
@[simp] theorem State.setGate_layouts (k : Nat) (x : GateSt) (s : State) : (s.setGate k x).layouts = s.layouts := rfl
@[simp] theorem State.setGate_i2cOfs (k : Nat) (x : GateSt) (s : State) : (s.setGate k x).i2cOfs = s.i2cOfs := rfl
@[simp] theorem State.setGate_i2cWait (k : Nat) (x : GateSt) (s : State) : (s.setGate k x).i2cWait = s.i2cWait := rfl
@[simp] theorem State.setGate_lts (k : Nat) (x : GateSt) (s : State) : (s.setGate k x).lts = s.lts := rfl
@[simp] theorem State.setGate_ltRem (k : Nat) (x : GateSt) (s : State) : (s.setGate k x).ltRem = s.ltRem := rfl
@[simp] theorem State.setGate_autostart (k : Nat) (x : GateSt) (s : State) : (s.setGate k x).autostart = s.autostart := rfl
@[simp] theorem State.setGate_metaSet (k : Nat) (x : GateSt) (s : State) : (s.setGate k x).metaSet = s.metaSet := rfl
@[simp] theorem State.setGate_police (k : Nat) (x : GateSt) (s : State) : (s.setGate k x).police = s.police := rfl
@[simp] theorem State.setGate_rx (k : Nat) (x : GateSt) (s : State) : (s.setGate k x).rx = s.rx := rfl
@[simp] theorem State.setGate_pes (k : Nat) (x : GateSt) (s : State) : (s.setGate k x).pes = s.pes := rfl
@[simp] theorem State.setGate_flowSeq (k : Nat) (x : GateSt) (s : State) : (s.setGate k x).flowSeq = s.flowSeq := rfl
@[simp] theorem State.setGate_feeds (k : Nat) (x : GateSt) (s : State) : (s.setGate k x).feeds = s.feeds := rfl
@[simp] theorem State.setGate_pathLost (k : Nat) (x : GateSt) (s : State) : (s.setGate k x).pathLost = s.pathLost := rfl
@[simp] theorem State.setGate_rmpKept (k : Nat) (x : GateSt) (s : State) : (s.setGate k x).rmpKept = s.rmpKept := rfl
@[simp] theorem State.setGate_sndCfg (k : Nat) (x : GateSt) (s : State) : (s.setGate k x).sndCfg = s.sndCfg := rfl
@[simp] theorem State.setGate_sndLfsr (k : Nat) (x : GateSt) (s : State) : (s.setGate k x).sndLfsr = s.sndLfsr := rfl
@[simp] theorem State.setGate_sndBased (k : Nat) (x : GateSt) (s : State) : (s.setGate k x).sndBased = s.sndBased := rfl
@[simp] theorem State.setGate_decs (k : Nat) (x : GateSt) (s : State) : (s.setGate k x).decs = s.decs := rfl
@[simp] theorem State.setGate_quays (k : Nat) (x : GateSt) (s : State) : (s.setGate k x).quays = s.quays := rfl
@[simp] theorem State.setGate_encs (k : Nat) (x : GateSt) (s : State) : (s.setGate k x).encs = s.encs := rfl
@[simp] theorem State.setGate_windows (k : Nat) (x : GateSt) (s : State) : (s.setGate k x).windows = s.windows := rfl
@[simp] theorem State.setGate_ctxDie (k : Nat) (x : GateSt) (s : State) : (s.setGate k x).ctxDie = s.ctxDie := rfl
@[simp] theorem State.setGate_ucwNext (k : Nat) (x : GateSt) (s : State) : (s.setGate k x).ucwNext = s.ucwNext := rfl
@[simp] theorem State.setGate_comps (k : Nat) (x : GateSt) (s : State) : (s.setGate k x).comps = s.comps := rfl
@[simp] theorem State.setGate_flowTs (k : Nat) (x : GateSt) (s : State) : (s.setGate k x).flowTs = s.flowTs := rfl
@[simp] theorem State.setGate_sndEnded (k : Nat) (x : GateSt) (s : State) : (s.setGate k x).sndEnded = s.sndEnded := rfl
@[simp] theorem State.setGate_out (k : Nat) (x : GateSt) (s : State) : (s.setGate k x).out = s.out := rfl
@[simp] theorem State.setGate_freeCtr (k : Nat) (x : GateSt) (s : State) : (s.setGate k x).freeCtr = s.freeCtr := rfl
@[simp] theorem State.setGate_pending (k : Nat) (x : GateSt) (s : State) : (s.setGate k x).pending = s.pending := rfl

/-! `State.setBook` changes `books` alone. -/

@[simp] theorem State.setBook_regs (c : Nat) (x : Booking) (s : State) : (s.setBook c x).regs = s.regs := rfl
@[simp] theorem State.setBook_staged (c : Nat) (x : Booking) (s : State) : (s.setBook c x).staged = s.staged := rfl
@[simp] theorem State.setBook_hold (c : Nat) (x : Booking) (s : State) : (s.setBook c x).hold = s.hold := rfl
@[simp] theorem State.setBook_snaps (c : Nat) (x : Booking) (s : State) : (s.setBook c x).snaps = s.snaps := rfl
@[simp] theorem State.setBook_counts (c : Nat) (x : Booking) (s : State) : (s.setBook c x).counts = s.counts := rfl
@[simp] theorem State.setBook_mem (c : Nat) (x : Booking) (s : State) : (s.setBook c x).mem = s.mem := rfl
@[simp] theorem State.setBook_spad (c : Nat) (x : Booking) (s : State) : (s.setBook c x).spad = s.spad := rfl
@[simp] theorem State.setBook_cs (c : Nat) (x : Booking) (s : State) : (s.setBook c x).cs = s.cs := rfl
@[simp] theorem State.setBook_ident (c : Nat) (x : Booking) (s : State) : (s.setBook c x).ident = s.ident := rfl
@[simp] theorem State.setBook_boot (c : Nat) (x : Booking) (s : State) : (s.setBook c x).boot = s.boot := rfl
@[simp] theorem State.setBook_tide (c : Nat) (x : Booking) (s : State) : (s.setBook c x).tide = s.tide := rfl
@[simp] theorem State.setBook_units (c : Nat) (x : Booking) (s : State) : (s.setBook c x).units = s.units := rfl
@[simp] theorem State.setBook_queues (c : Nat) (x : Booking) (s : State) : (s.setBook c x).queues = s.queues := rfl
@[simp] theorem State.setBook_gates (c : Nat) (x : Booking) (s : State) : (s.setBook c x).gates = s.gates := rfl
@[simp] theorem State.setBook_memsys (c : Nat) (x : Booking) (s : State) : (s.setBook c x).memsys = s.memsys := rfl
@[simp] theorem State.setBook_ports (c : Nat) (x : Booking) (s : State) : (s.setBook c x).ports = s.ports := rfl
@[simp] theorem State.setBook_power (c : Nat) (x : Booking) (s : State) : (s.setBook c x).power = s.power := rfl
@[simp] theorem State.setBook_pools (c : Nat) (x : Booking) (s : State) : (s.setBook c x).pools = s.pools := rfl
@[simp] theorem State.setBook_host (c : Nat) (x : Booking) (s : State) : (s.setBook c x).host = s.host := rfl
@[simp] theorem State.setBook_bell (c : Nat) (x : Booking) (s : State) : (s.setBook c x).bell = s.bell := rfl
@[simp] theorem State.setBook_watch (c : Nat) (x : Booking) (s : State) : (s.setBook c x).watch = s.watch := rfl
@[simp] theorem State.setBook_storms (c : Nat) (x : Booking) (s : State) : (s.setBook c x).storms = s.storms := rfl
@[simp] theorem State.setBook_stormLate (c : Nat) (x : Booking) (s : State) : (s.setBook c x).stormLate = s.stormLate := rfl
@[simp] theorem State.setBook_stormText (c : Nat) (x : Booking) (s : State) : (s.setBook c x).stormText = s.stormText := rfl
@[simp] theorem State.setBook_disps (c : Nat) (x : Booking) (s : State) : (s.setBook c x).disps = s.disps := rfl
@[simp] theorem State.setBook_slate (c : Nat) (x : Booking) (s : State) : (s.setBook c x).slate = s.slate := rfl
@[simp] theorem State.setBook_picSent (c : Nat) (x : Booking) (s : State) : (s.setBook c x).picSent = s.picSent := rfl
@[simp] theorem State.setBook_picDone (c : Nat) (x : Booking) (s : State) : (s.setBook c x).picDone = s.picDone := rfl
@[simp] theorem State.setBook_layouts (c : Nat) (x : Booking) (s : State) : (s.setBook c x).layouts = s.layouts := rfl
@[simp] theorem State.setBook_i2cOfs (c : Nat) (x : Booking) (s : State) : (s.setBook c x).i2cOfs = s.i2cOfs := rfl
@[simp] theorem State.setBook_i2cWait (c : Nat) (x : Booking) (s : State) : (s.setBook c x).i2cWait = s.i2cWait := rfl
@[simp] theorem State.setBook_lts (c : Nat) (x : Booking) (s : State) : (s.setBook c x).lts = s.lts := rfl
@[simp] theorem State.setBook_ltRem (c : Nat) (x : Booking) (s : State) : (s.setBook c x).ltRem = s.ltRem := rfl
@[simp] theorem State.setBook_autostart (c : Nat) (x : Booking) (s : State) : (s.setBook c x).autostart = s.autostart := rfl
@[simp] theorem State.setBook_metaSet (c : Nat) (x : Booking) (s : State) : (s.setBook c x).metaSet = s.metaSet := rfl
@[simp] theorem State.setBook_police (c : Nat) (x : Booking) (s : State) : (s.setBook c x).police = s.police := rfl
@[simp] theorem State.setBook_rx (c : Nat) (x : Booking) (s : State) : (s.setBook c x).rx = s.rx := rfl
@[simp] theorem State.setBook_pes (c : Nat) (x : Booking) (s : State) : (s.setBook c x).pes = s.pes := rfl
@[simp] theorem State.setBook_flowSeq (c : Nat) (x : Booking) (s : State) : (s.setBook c x).flowSeq = s.flowSeq := rfl
@[simp] theorem State.setBook_feeds (c : Nat) (x : Booking) (s : State) : (s.setBook c x).feeds = s.feeds := rfl
@[simp] theorem State.setBook_pathLost (c : Nat) (x : Booking) (s : State) : (s.setBook c x).pathLost = s.pathLost := rfl
@[simp] theorem State.setBook_rmpKept (c : Nat) (x : Booking) (s : State) : (s.setBook c x).rmpKept = s.rmpKept := rfl
@[simp] theorem State.setBook_sndCfg (c : Nat) (x : Booking) (s : State) : (s.setBook c x).sndCfg = s.sndCfg := rfl
@[simp] theorem State.setBook_sndLfsr (c : Nat) (x : Booking) (s : State) : (s.setBook c x).sndLfsr = s.sndLfsr := rfl
@[simp] theorem State.setBook_sndBased (c : Nat) (x : Booking) (s : State) : (s.setBook c x).sndBased = s.sndBased := rfl
@[simp] theorem State.setBook_decs (c : Nat) (x : Booking) (s : State) : (s.setBook c x).decs = s.decs := rfl
@[simp] theorem State.setBook_quays (c : Nat) (x : Booking) (s : State) : (s.setBook c x).quays = s.quays := rfl
@[simp] theorem State.setBook_encs (c : Nat) (x : Booking) (s : State) : (s.setBook c x).encs = s.encs := rfl
@[simp] theorem State.setBook_windows (c : Nat) (x : Booking) (s : State) : (s.setBook c x).windows = s.windows := rfl
@[simp] theorem State.setBook_ctxDie (c : Nat) (x : Booking) (s : State) : (s.setBook c x).ctxDie = s.ctxDie := rfl
@[simp] theorem State.setBook_ucwNext (c : Nat) (x : Booking) (s : State) : (s.setBook c x).ucwNext = s.ucwNext := rfl
@[simp] theorem State.setBook_comps (c : Nat) (x : Booking) (s : State) : (s.setBook c x).comps = s.comps := rfl
@[simp] theorem State.setBook_flowTs (c : Nat) (x : Booking) (s : State) : (s.setBook c x).flowTs = s.flowTs := rfl
@[simp] theorem State.setBook_sndEnded (c : Nat) (x : Booking) (s : State) : (s.setBook c x).sndEnded = s.sndEnded := rfl
@[simp] theorem State.setBook_out (c : Nat) (x : Booking) (s : State) : (s.setBook c x).out = s.out := rfl
@[simp] theorem State.setBook_freeCtr (c : Nat) (x : Booking) (s : State) : (s.setBook c x).freeCtr = s.freeCtr := rfl
@[simp] theorem State.setBook_pending (c : Nat) (x : Booking) (s : State) : (s.setBook c x).pending = s.pending := rfl

/-! `State.setQueue` changes `queues` alone. -/

@[simp] theorem State.setQueue_regs (q : Nat) (x : QueueSt) (s : State) : (s.setQueue q x).regs = s.regs := rfl
@[simp] theorem State.setQueue_staged (q : Nat) (x : QueueSt) (s : State) : (s.setQueue q x).staged = s.staged := rfl
@[simp] theorem State.setQueue_hold (q : Nat) (x : QueueSt) (s : State) : (s.setQueue q x).hold = s.hold := rfl
@[simp] theorem State.setQueue_snaps (q : Nat) (x : QueueSt) (s : State) : (s.setQueue q x).snaps = s.snaps := rfl
@[simp] theorem State.setQueue_counts (q : Nat) (x : QueueSt) (s : State) : (s.setQueue q x).counts = s.counts := rfl
@[simp] theorem State.setQueue_mem (q : Nat) (x : QueueSt) (s : State) : (s.setQueue q x).mem = s.mem := rfl
@[simp] theorem State.setQueue_spad (q : Nat) (x : QueueSt) (s : State) : (s.setQueue q x).spad = s.spad := rfl
@[simp] theorem State.setQueue_cs (q : Nat) (x : QueueSt) (s : State) : (s.setQueue q x).cs = s.cs := rfl
@[simp] theorem State.setQueue_ident (q : Nat) (x : QueueSt) (s : State) : (s.setQueue q x).ident = s.ident := rfl
@[simp] theorem State.setQueue_boot (q : Nat) (x : QueueSt) (s : State) : (s.setQueue q x).boot = s.boot := rfl
@[simp] theorem State.setQueue_tide (q : Nat) (x : QueueSt) (s : State) : (s.setQueue q x).tide = s.tide := rfl
@[simp] theorem State.setQueue_units (q : Nat) (x : QueueSt) (s : State) : (s.setQueue q x).units = s.units := rfl
@[simp] theorem State.setQueue_books (q : Nat) (x : QueueSt) (s : State) : (s.setQueue q x).books = s.books := rfl
@[simp] theorem State.setQueue_gates (q : Nat) (x : QueueSt) (s : State) : (s.setQueue q x).gates = s.gates := rfl
@[simp] theorem State.setQueue_memsys (q : Nat) (x : QueueSt) (s : State) : (s.setQueue q x).memsys = s.memsys := rfl
@[simp] theorem State.setQueue_ports (q : Nat) (x : QueueSt) (s : State) : (s.setQueue q x).ports = s.ports := rfl
@[simp] theorem State.setQueue_power (q : Nat) (x : QueueSt) (s : State) : (s.setQueue q x).power = s.power := rfl
@[simp] theorem State.setQueue_pools (q : Nat) (x : QueueSt) (s : State) : (s.setQueue q x).pools = s.pools := rfl
@[simp] theorem State.setQueue_host (q : Nat) (x : QueueSt) (s : State) : (s.setQueue q x).host = s.host := rfl
@[simp] theorem State.setQueue_bell (q : Nat) (x : QueueSt) (s : State) : (s.setQueue q x).bell = s.bell := rfl
@[simp] theorem State.setQueue_watch (q : Nat) (x : QueueSt) (s : State) : (s.setQueue q x).watch = s.watch := rfl
@[simp] theorem State.setQueue_storms (q : Nat) (x : QueueSt) (s : State) : (s.setQueue q x).storms = s.storms := rfl
@[simp] theorem State.setQueue_stormLate (q : Nat) (x : QueueSt) (s : State) : (s.setQueue q x).stormLate = s.stormLate := rfl
@[simp] theorem State.setQueue_stormText (q : Nat) (x : QueueSt) (s : State) : (s.setQueue q x).stormText = s.stormText := rfl
@[simp] theorem State.setQueue_disps (q : Nat) (x : QueueSt) (s : State) : (s.setQueue q x).disps = s.disps := rfl
@[simp] theorem State.setQueue_slate (q : Nat) (x : QueueSt) (s : State) : (s.setQueue q x).slate = s.slate := rfl
@[simp] theorem State.setQueue_picSent (q : Nat) (x : QueueSt) (s : State) : (s.setQueue q x).picSent = s.picSent := rfl
@[simp] theorem State.setQueue_picDone (q : Nat) (x : QueueSt) (s : State) : (s.setQueue q x).picDone = s.picDone := rfl
@[simp] theorem State.setQueue_layouts (q : Nat) (x : QueueSt) (s : State) : (s.setQueue q x).layouts = s.layouts := rfl
@[simp] theorem State.setQueue_i2cOfs (q : Nat) (x : QueueSt) (s : State) : (s.setQueue q x).i2cOfs = s.i2cOfs := rfl
@[simp] theorem State.setQueue_i2cWait (q : Nat) (x : QueueSt) (s : State) : (s.setQueue q x).i2cWait = s.i2cWait := rfl
@[simp] theorem State.setQueue_lts (q : Nat) (x : QueueSt) (s : State) : (s.setQueue q x).lts = s.lts := rfl
@[simp] theorem State.setQueue_ltRem (q : Nat) (x : QueueSt) (s : State) : (s.setQueue q x).ltRem = s.ltRem := rfl
@[simp] theorem State.setQueue_autostart (q : Nat) (x : QueueSt) (s : State) : (s.setQueue q x).autostart = s.autostart := rfl
@[simp] theorem State.setQueue_metaSet (q : Nat) (x : QueueSt) (s : State) : (s.setQueue q x).metaSet = s.metaSet := rfl
@[simp] theorem State.setQueue_police (q : Nat) (x : QueueSt) (s : State) : (s.setQueue q x).police = s.police := rfl
@[simp] theorem State.setQueue_rx (q : Nat) (x : QueueSt) (s : State) : (s.setQueue q x).rx = s.rx := rfl
@[simp] theorem State.setQueue_pes (q : Nat) (x : QueueSt) (s : State) : (s.setQueue q x).pes = s.pes := rfl
@[simp] theorem State.setQueue_flowSeq (q : Nat) (x : QueueSt) (s : State) : (s.setQueue q x).flowSeq = s.flowSeq := rfl
@[simp] theorem State.setQueue_feeds (q : Nat) (x : QueueSt) (s : State) : (s.setQueue q x).feeds = s.feeds := rfl
@[simp] theorem State.setQueue_pathLost (q : Nat) (x : QueueSt) (s : State) : (s.setQueue q x).pathLost = s.pathLost := rfl
@[simp] theorem State.setQueue_rmpKept (q : Nat) (x : QueueSt) (s : State) : (s.setQueue q x).rmpKept = s.rmpKept := rfl
@[simp] theorem State.setQueue_sndCfg (q : Nat) (x : QueueSt) (s : State) : (s.setQueue q x).sndCfg = s.sndCfg := rfl
@[simp] theorem State.setQueue_sndLfsr (q : Nat) (x : QueueSt) (s : State) : (s.setQueue q x).sndLfsr = s.sndLfsr := rfl
@[simp] theorem State.setQueue_sndBased (q : Nat) (x : QueueSt) (s : State) : (s.setQueue q x).sndBased = s.sndBased := rfl
@[simp] theorem State.setQueue_decs (q : Nat) (x : QueueSt) (s : State) : (s.setQueue q x).decs = s.decs := rfl
@[simp] theorem State.setQueue_quays (q : Nat) (x : QueueSt) (s : State) : (s.setQueue q x).quays = s.quays := rfl
@[simp] theorem State.setQueue_encs (q : Nat) (x : QueueSt) (s : State) : (s.setQueue q x).encs = s.encs := rfl
@[simp] theorem State.setQueue_windows (q : Nat) (x : QueueSt) (s : State) : (s.setQueue q x).windows = s.windows := rfl
@[simp] theorem State.setQueue_ctxDie (q : Nat) (x : QueueSt) (s : State) : (s.setQueue q x).ctxDie = s.ctxDie := rfl
@[simp] theorem State.setQueue_ucwNext (q : Nat) (x : QueueSt) (s : State) : (s.setQueue q x).ucwNext = s.ucwNext := rfl
@[simp] theorem State.setQueue_comps (q : Nat) (x : QueueSt) (s : State) : (s.setQueue q x).comps = s.comps := rfl
@[simp] theorem State.setQueue_flowTs (q : Nat) (x : QueueSt) (s : State) : (s.setQueue q x).flowTs = s.flowTs := rfl
@[simp] theorem State.setQueue_sndEnded (q : Nat) (x : QueueSt) (s : State) : (s.setQueue q x).sndEnded = s.sndEnded := rfl
@[simp] theorem State.setQueue_out (q : Nat) (x : QueueSt) (s : State) : (s.setQueue q x).out = s.out := rfl
@[simp] theorem State.setQueue_freeCtr (q : Nat) (x : QueueSt) (s : State) : (s.setQueue q x).freeCtr = s.freeCtr := rfl
@[simp] theorem State.setQueue_pending (q : Nat) (x : QueueSt) (s : State) : (s.setQueue q x).pending = s.pending := rfl

/-! `State.setLayout` changes `layouts` alone. -/

@[simp] theorem State.setLayout_regs (n : Nat) (x : LayoutSt) (s : State) : (s.setLayout n x).regs = s.regs := rfl
@[simp] theorem State.setLayout_staged (n : Nat) (x : LayoutSt) (s : State) : (s.setLayout n x).staged = s.staged := rfl
@[simp] theorem State.setLayout_hold (n : Nat) (x : LayoutSt) (s : State) : (s.setLayout n x).hold = s.hold := rfl
@[simp] theorem State.setLayout_snaps (n : Nat) (x : LayoutSt) (s : State) : (s.setLayout n x).snaps = s.snaps := rfl
@[simp] theorem State.setLayout_counts (n : Nat) (x : LayoutSt) (s : State) : (s.setLayout n x).counts = s.counts := rfl
@[simp] theorem State.setLayout_mem (n : Nat) (x : LayoutSt) (s : State) : (s.setLayout n x).mem = s.mem := rfl
@[simp] theorem State.setLayout_spad (n : Nat) (x : LayoutSt) (s : State) : (s.setLayout n x).spad = s.spad := rfl
@[simp] theorem State.setLayout_cs (n : Nat) (x : LayoutSt) (s : State) : (s.setLayout n x).cs = s.cs := rfl
@[simp] theorem State.setLayout_ident (n : Nat) (x : LayoutSt) (s : State) : (s.setLayout n x).ident = s.ident := rfl
@[simp] theorem State.setLayout_boot (n : Nat) (x : LayoutSt) (s : State) : (s.setLayout n x).boot = s.boot := rfl
@[simp] theorem State.setLayout_tide (n : Nat) (x : LayoutSt) (s : State) : (s.setLayout n x).tide = s.tide := rfl
@[simp] theorem State.setLayout_units (n : Nat) (x : LayoutSt) (s : State) : (s.setLayout n x).units = s.units := rfl
@[simp] theorem State.setLayout_queues (n : Nat) (x : LayoutSt) (s : State) : (s.setLayout n x).queues = s.queues := rfl
@[simp] theorem State.setLayout_books (n : Nat) (x : LayoutSt) (s : State) : (s.setLayout n x).books = s.books := rfl
@[simp] theorem State.setLayout_gates (n : Nat) (x : LayoutSt) (s : State) : (s.setLayout n x).gates = s.gates := rfl
@[simp] theorem State.setLayout_memsys (n : Nat) (x : LayoutSt) (s : State) : (s.setLayout n x).memsys = s.memsys := rfl
@[simp] theorem State.setLayout_ports (n : Nat) (x : LayoutSt) (s : State) : (s.setLayout n x).ports = s.ports := rfl
@[simp] theorem State.setLayout_power (n : Nat) (x : LayoutSt) (s : State) : (s.setLayout n x).power = s.power := rfl
@[simp] theorem State.setLayout_pools (n : Nat) (x : LayoutSt) (s : State) : (s.setLayout n x).pools = s.pools := rfl
@[simp] theorem State.setLayout_host (n : Nat) (x : LayoutSt) (s : State) : (s.setLayout n x).host = s.host := rfl
@[simp] theorem State.setLayout_bell (n : Nat) (x : LayoutSt) (s : State) : (s.setLayout n x).bell = s.bell := rfl
@[simp] theorem State.setLayout_watch (n : Nat) (x : LayoutSt) (s : State) : (s.setLayout n x).watch = s.watch := rfl
@[simp] theorem State.setLayout_storms (n : Nat) (x : LayoutSt) (s : State) : (s.setLayout n x).storms = s.storms := rfl
@[simp] theorem State.setLayout_stormLate (n : Nat) (x : LayoutSt) (s : State) : (s.setLayout n x).stormLate = s.stormLate := rfl
@[simp] theorem State.setLayout_stormText (n : Nat) (x : LayoutSt) (s : State) : (s.setLayout n x).stormText = s.stormText := rfl
@[simp] theorem State.setLayout_disps (n : Nat) (x : LayoutSt) (s : State) : (s.setLayout n x).disps = s.disps := rfl
@[simp] theorem State.setLayout_slate (n : Nat) (x : LayoutSt) (s : State) : (s.setLayout n x).slate = s.slate := rfl
@[simp] theorem State.setLayout_picSent (n : Nat) (x : LayoutSt) (s : State) : (s.setLayout n x).picSent = s.picSent := rfl
@[simp] theorem State.setLayout_picDone (n : Nat) (x : LayoutSt) (s : State) : (s.setLayout n x).picDone = s.picDone := rfl
@[simp] theorem State.setLayout_i2cOfs (n : Nat) (x : LayoutSt) (s : State) : (s.setLayout n x).i2cOfs = s.i2cOfs := rfl
@[simp] theorem State.setLayout_i2cWait (n : Nat) (x : LayoutSt) (s : State) : (s.setLayout n x).i2cWait = s.i2cWait := rfl
@[simp] theorem State.setLayout_lts (n : Nat) (x : LayoutSt) (s : State) : (s.setLayout n x).lts = s.lts := rfl
@[simp] theorem State.setLayout_ltRem (n : Nat) (x : LayoutSt) (s : State) : (s.setLayout n x).ltRem = s.ltRem := rfl
@[simp] theorem State.setLayout_autostart (n : Nat) (x : LayoutSt) (s : State) : (s.setLayout n x).autostart = s.autostart := rfl
@[simp] theorem State.setLayout_metaSet (n : Nat) (x : LayoutSt) (s : State) : (s.setLayout n x).metaSet = s.metaSet := rfl
@[simp] theorem State.setLayout_police (n : Nat) (x : LayoutSt) (s : State) : (s.setLayout n x).police = s.police := rfl
@[simp] theorem State.setLayout_rx (n : Nat) (x : LayoutSt) (s : State) : (s.setLayout n x).rx = s.rx := rfl
@[simp] theorem State.setLayout_pes (n : Nat) (x : LayoutSt) (s : State) : (s.setLayout n x).pes = s.pes := rfl
@[simp] theorem State.setLayout_flowSeq (n : Nat) (x : LayoutSt) (s : State) : (s.setLayout n x).flowSeq = s.flowSeq := rfl
@[simp] theorem State.setLayout_feeds (n : Nat) (x : LayoutSt) (s : State) : (s.setLayout n x).feeds = s.feeds := rfl
@[simp] theorem State.setLayout_pathLost (n : Nat) (x : LayoutSt) (s : State) : (s.setLayout n x).pathLost = s.pathLost := rfl
@[simp] theorem State.setLayout_rmpKept (n : Nat) (x : LayoutSt) (s : State) : (s.setLayout n x).rmpKept = s.rmpKept := rfl
@[simp] theorem State.setLayout_sndCfg (n : Nat) (x : LayoutSt) (s : State) : (s.setLayout n x).sndCfg = s.sndCfg := rfl
@[simp] theorem State.setLayout_sndLfsr (n : Nat) (x : LayoutSt) (s : State) : (s.setLayout n x).sndLfsr = s.sndLfsr := rfl
@[simp] theorem State.setLayout_sndBased (n : Nat) (x : LayoutSt) (s : State) : (s.setLayout n x).sndBased = s.sndBased := rfl
@[simp] theorem State.setLayout_decs (n : Nat) (x : LayoutSt) (s : State) : (s.setLayout n x).decs = s.decs := rfl
@[simp] theorem State.setLayout_quays (n : Nat) (x : LayoutSt) (s : State) : (s.setLayout n x).quays = s.quays := rfl
@[simp] theorem State.setLayout_encs (n : Nat) (x : LayoutSt) (s : State) : (s.setLayout n x).encs = s.encs := rfl
@[simp] theorem State.setLayout_windows (n : Nat) (x : LayoutSt) (s : State) : (s.setLayout n x).windows = s.windows := rfl
@[simp] theorem State.setLayout_ctxDie (n : Nat) (x : LayoutSt) (s : State) : (s.setLayout n x).ctxDie = s.ctxDie := rfl
@[simp] theorem State.setLayout_ucwNext (n : Nat) (x : LayoutSt) (s : State) : (s.setLayout n x).ucwNext = s.ucwNext := rfl
@[simp] theorem State.setLayout_comps (n : Nat) (x : LayoutSt) (s : State) : (s.setLayout n x).comps = s.comps := rfl
@[simp] theorem State.setLayout_flowTs (n : Nat) (x : LayoutSt) (s : State) : (s.setLayout n x).flowTs = s.flowTs := rfl
@[simp] theorem State.setLayout_sndEnded (n : Nat) (x : LayoutSt) (s : State) : (s.setLayout n x).sndEnded = s.sndEnded := rfl
@[simp] theorem State.setLayout_out (n : Nat) (x : LayoutSt) (s : State) : (s.setLayout n x).out = s.out := rfl
@[simp] theorem State.setLayout_freeCtr (n : Nat) (x : LayoutSt) (s : State) : (s.setLayout n x).freeCtr = s.freeCtr := rfl
@[simp] theorem State.setLayout_pending (n : Nat) (x : LayoutSt) (s : State) : (s.setLayout n x).pending = s.pending := rfl

/-! `State.setDisp` changes `disps` alone. -/

@[simp] theorem State.setDisp_regs (n : Nat) (x : DispSt) (s : State) : (s.setDisp n x).regs = s.regs := rfl
@[simp] theorem State.setDisp_staged (n : Nat) (x : DispSt) (s : State) : (s.setDisp n x).staged = s.staged := rfl
@[simp] theorem State.setDisp_hold (n : Nat) (x : DispSt) (s : State) : (s.setDisp n x).hold = s.hold := rfl
@[simp] theorem State.setDisp_snaps (n : Nat) (x : DispSt) (s : State) : (s.setDisp n x).snaps = s.snaps := rfl
@[simp] theorem State.setDisp_counts (n : Nat) (x : DispSt) (s : State) : (s.setDisp n x).counts = s.counts := rfl
@[simp] theorem State.setDisp_mem (n : Nat) (x : DispSt) (s : State) : (s.setDisp n x).mem = s.mem := rfl
@[simp] theorem State.setDisp_spad (n : Nat) (x : DispSt) (s : State) : (s.setDisp n x).spad = s.spad := rfl
@[simp] theorem State.setDisp_cs (n : Nat) (x : DispSt) (s : State) : (s.setDisp n x).cs = s.cs := rfl
@[simp] theorem State.setDisp_ident (n : Nat) (x : DispSt) (s : State) : (s.setDisp n x).ident = s.ident := rfl
@[simp] theorem State.setDisp_boot (n : Nat) (x : DispSt) (s : State) : (s.setDisp n x).boot = s.boot := rfl
@[simp] theorem State.setDisp_tide (n : Nat) (x : DispSt) (s : State) : (s.setDisp n x).tide = s.tide := rfl
@[simp] theorem State.setDisp_units (n : Nat) (x : DispSt) (s : State) : (s.setDisp n x).units = s.units := rfl
@[simp] theorem State.setDisp_queues (n : Nat) (x : DispSt) (s : State) : (s.setDisp n x).queues = s.queues := rfl
@[simp] theorem State.setDisp_books (n : Nat) (x : DispSt) (s : State) : (s.setDisp n x).books = s.books := rfl
@[simp] theorem State.setDisp_gates (n : Nat) (x : DispSt) (s : State) : (s.setDisp n x).gates = s.gates := rfl
@[simp] theorem State.setDisp_memsys (n : Nat) (x : DispSt) (s : State) : (s.setDisp n x).memsys = s.memsys := rfl
@[simp] theorem State.setDisp_ports (n : Nat) (x : DispSt) (s : State) : (s.setDisp n x).ports = s.ports := rfl
@[simp] theorem State.setDisp_power (n : Nat) (x : DispSt) (s : State) : (s.setDisp n x).power = s.power := rfl
@[simp] theorem State.setDisp_pools (n : Nat) (x : DispSt) (s : State) : (s.setDisp n x).pools = s.pools := rfl
@[simp] theorem State.setDisp_host (n : Nat) (x : DispSt) (s : State) : (s.setDisp n x).host = s.host := rfl
@[simp] theorem State.setDisp_bell (n : Nat) (x : DispSt) (s : State) : (s.setDisp n x).bell = s.bell := rfl
@[simp] theorem State.setDisp_watch (n : Nat) (x : DispSt) (s : State) : (s.setDisp n x).watch = s.watch := rfl
@[simp] theorem State.setDisp_storms (n : Nat) (x : DispSt) (s : State) : (s.setDisp n x).storms = s.storms := rfl
@[simp] theorem State.setDisp_stormLate (n : Nat) (x : DispSt) (s : State) : (s.setDisp n x).stormLate = s.stormLate := rfl
@[simp] theorem State.setDisp_stormText (n : Nat) (x : DispSt) (s : State) : (s.setDisp n x).stormText = s.stormText := rfl
@[simp] theorem State.setDisp_slate (n : Nat) (x : DispSt) (s : State) : (s.setDisp n x).slate = s.slate := rfl
@[simp] theorem State.setDisp_picSent (n : Nat) (x : DispSt) (s : State) : (s.setDisp n x).picSent = s.picSent := rfl
@[simp] theorem State.setDisp_picDone (n : Nat) (x : DispSt) (s : State) : (s.setDisp n x).picDone = s.picDone := rfl
@[simp] theorem State.setDisp_layouts (n : Nat) (x : DispSt) (s : State) : (s.setDisp n x).layouts = s.layouts := rfl
@[simp] theorem State.setDisp_i2cOfs (n : Nat) (x : DispSt) (s : State) : (s.setDisp n x).i2cOfs = s.i2cOfs := rfl
@[simp] theorem State.setDisp_i2cWait (n : Nat) (x : DispSt) (s : State) : (s.setDisp n x).i2cWait = s.i2cWait := rfl
@[simp] theorem State.setDisp_lts (n : Nat) (x : DispSt) (s : State) : (s.setDisp n x).lts = s.lts := rfl
@[simp] theorem State.setDisp_ltRem (n : Nat) (x : DispSt) (s : State) : (s.setDisp n x).ltRem = s.ltRem := rfl
@[simp] theorem State.setDisp_autostart (n : Nat) (x : DispSt) (s : State) : (s.setDisp n x).autostart = s.autostart := rfl
@[simp] theorem State.setDisp_metaSet (n : Nat) (x : DispSt) (s : State) : (s.setDisp n x).metaSet = s.metaSet := rfl
@[simp] theorem State.setDisp_police (n : Nat) (x : DispSt) (s : State) : (s.setDisp n x).police = s.police := rfl
@[simp] theorem State.setDisp_rx (n : Nat) (x : DispSt) (s : State) : (s.setDisp n x).rx = s.rx := rfl
@[simp] theorem State.setDisp_pes (n : Nat) (x : DispSt) (s : State) : (s.setDisp n x).pes = s.pes := rfl
@[simp] theorem State.setDisp_flowSeq (n : Nat) (x : DispSt) (s : State) : (s.setDisp n x).flowSeq = s.flowSeq := rfl
@[simp] theorem State.setDisp_feeds (n : Nat) (x : DispSt) (s : State) : (s.setDisp n x).feeds = s.feeds := rfl
@[simp] theorem State.setDisp_pathLost (n : Nat) (x : DispSt) (s : State) : (s.setDisp n x).pathLost = s.pathLost := rfl
@[simp] theorem State.setDisp_rmpKept (n : Nat) (x : DispSt) (s : State) : (s.setDisp n x).rmpKept = s.rmpKept := rfl
@[simp] theorem State.setDisp_sndCfg (n : Nat) (x : DispSt) (s : State) : (s.setDisp n x).sndCfg = s.sndCfg := rfl
@[simp] theorem State.setDisp_sndLfsr (n : Nat) (x : DispSt) (s : State) : (s.setDisp n x).sndLfsr = s.sndLfsr := rfl
@[simp] theorem State.setDisp_sndBased (n : Nat) (x : DispSt) (s : State) : (s.setDisp n x).sndBased = s.sndBased := rfl
@[simp] theorem State.setDisp_decs (n : Nat) (x : DispSt) (s : State) : (s.setDisp n x).decs = s.decs := rfl
@[simp] theorem State.setDisp_quays (n : Nat) (x : DispSt) (s : State) : (s.setDisp n x).quays = s.quays := rfl
@[simp] theorem State.setDisp_encs (n : Nat) (x : DispSt) (s : State) : (s.setDisp n x).encs = s.encs := rfl
@[simp] theorem State.setDisp_windows (n : Nat) (x : DispSt) (s : State) : (s.setDisp n x).windows = s.windows := rfl
@[simp] theorem State.setDisp_ctxDie (n : Nat) (x : DispSt) (s : State) : (s.setDisp n x).ctxDie = s.ctxDie := rfl
@[simp] theorem State.setDisp_ucwNext (n : Nat) (x : DispSt) (s : State) : (s.setDisp n x).ucwNext = s.ucwNext := rfl
@[simp] theorem State.setDisp_comps (n : Nat) (x : DispSt) (s : State) : (s.setDisp n x).comps = s.comps := rfl
@[simp] theorem State.setDisp_flowTs (n : Nat) (x : DispSt) (s : State) : (s.setDisp n x).flowTs = s.flowTs := rfl
@[simp] theorem State.setDisp_sndEnded (n : Nat) (x : DispSt) (s : State) : (s.setDisp n x).sndEnded = s.sndEnded := rfl
@[simp] theorem State.setDisp_out (n : Nat) (x : DispSt) (s : State) : (s.setDisp n x).out = s.out := rfl
@[simp] theorem State.setDisp_freeCtr (n : Nat) (x : DispSt) (s : State) : (s.setDisp n x).freeCtr = s.freeCtr := rfl
@[simp] theorem State.setDisp_pending (n : Nat) (x : DispSt) (s : State) : (s.setDisp n x).pending = s.pending := rfl

/-! `State.setDec` changes `decs` alone. -/

@[simp] theorem State.setDec_regs (c : Nat) (x : DecSt) (s : State) : (s.setDec c x).regs = s.regs := rfl
@[simp] theorem State.setDec_staged (c : Nat) (x : DecSt) (s : State) : (s.setDec c x).staged = s.staged := rfl
@[simp] theorem State.setDec_hold (c : Nat) (x : DecSt) (s : State) : (s.setDec c x).hold = s.hold := rfl
@[simp] theorem State.setDec_snaps (c : Nat) (x : DecSt) (s : State) : (s.setDec c x).snaps = s.snaps := rfl
@[simp] theorem State.setDec_counts (c : Nat) (x : DecSt) (s : State) : (s.setDec c x).counts = s.counts := rfl
@[simp] theorem State.setDec_mem (c : Nat) (x : DecSt) (s : State) : (s.setDec c x).mem = s.mem := rfl
@[simp] theorem State.setDec_spad (c : Nat) (x : DecSt) (s : State) : (s.setDec c x).spad = s.spad := rfl
@[simp] theorem State.setDec_cs (c : Nat) (x : DecSt) (s : State) : (s.setDec c x).cs = s.cs := rfl
@[simp] theorem State.setDec_ident (c : Nat) (x : DecSt) (s : State) : (s.setDec c x).ident = s.ident := rfl
@[simp] theorem State.setDec_boot (c : Nat) (x : DecSt) (s : State) : (s.setDec c x).boot = s.boot := rfl
@[simp] theorem State.setDec_tide (c : Nat) (x : DecSt) (s : State) : (s.setDec c x).tide = s.tide := rfl
@[simp] theorem State.setDec_units (c : Nat) (x : DecSt) (s : State) : (s.setDec c x).units = s.units := rfl
@[simp] theorem State.setDec_queues (c : Nat) (x : DecSt) (s : State) : (s.setDec c x).queues = s.queues := rfl
@[simp] theorem State.setDec_books (c : Nat) (x : DecSt) (s : State) : (s.setDec c x).books = s.books := rfl
@[simp] theorem State.setDec_gates (c : Nat) (x : DecSt) (s : State) : (s.setDec c x).gates = s.gates := rfl
@[simp] theorem State.setDec_memsys (c : Nat) (x : DecSt) (s : State) : (s.setDec c x).memsys = s.memsys := rfl
@[simp] theorem State.setDec_ports (c : Nat) (x : DecSt) (s : State) : (s.setDec c x).ports = s.ports := rfl
@[simp] theorem State.setDec_power (c : Nat) (x : DecSt) (s : State) : (s.setDec c x).power = s.power := rfl
@[simp] theorem State.setDec_pools (c : Nat) (x : DecSt) (s : State) : (s.setDec c x).pools = s.pools := rfl
@[simp] theorem State.setDec_host (c : Nat) (x : DecSt) (s : State) : (s.setDec c x).host = s.host := rfl
@[simp] theorem State.setDec_bell (c : Nat) (x : DecSt) (s : State) : (s.setDec c x).bell = s.bell := rfl
@[simp] theorem State.setDec_watch (c : Nat) (x : DecSt) (s : State) : (s.setDec c x).watch = s.watch := rfl
@[simp] theorem State.setDec_storms (c : Nat) (x : DecSt) (s : State) : (s.setDec c x).storms = s.storms := rfl
@[simp] theorem State.setDec_stormLate (c : Nat) (x : DecSt) (s : State) : (s.setDec c x).stormLate = s.stormLate := rfl
@[simp] theorem State.setDec_stormText (c : Nat) (x : DecSt) (s : State) : (s.setDec c x).stormText = s.stormText := rfl
@[simp] theorem State.setDec_disps (c : Nat) (x : DecSt) (s : State) : (s.setDec c x).disps = s.disps := rfl
@[simp] theorem State.setDec_slate (c : Nat) (x : DecSt) (s : State) : (s.setDec c x).slate = s.slate := rfl
@[simp] theorem State.setDec_picSent (c : Nat) (x : DecSt) (s : State) : (s.setDec c x).picSent = s.picSent := rfl
@[simp] theorem State.setDec_picDone (c : Nat) (x : DecSt) (s : State) : (s.setDec c x).picDone = s.picDone := rfl
@[simp] theorem State.setDec_layouts (c : Nat) (x : DecSt) (s : State) : (s.setDec c x).layouts = s.layouts := rfl
@[simp] theorem State.setDec_i2cOfs (c : Nat) (x : DecSt) (s : State) : (s.setDec c x).i2cOfs = s.i2cOfs := rfl
@[simp] theorem State.setDec_i2cWait (c : Nat) (x : DecSt) (s : State) : (s.setDec c x).i2cWait = s.i2cWait := rfl
@[simp] theorem State.setDec_lts (c : Nat) (x : DecSt) (s : State) : (s.setDec c x).lts = s.lts := rfl
@[simp] theorem State.setDec_ltRem (c : Nat) (x : DecSt) (s : State) : (s.setDec c x).ltRem = s.ltRem := rfl
@[simp] theorem State.setDec_autostart (c : Nat) (x : DecSt) (s : State) : (s.setDec c x).autostart = s.autostart := rfl
@[simp] theorem State.setDec_metaSet (c : Nat) (x : DecSt) (s : State) : (s.setDec c x).metaSet = s.metaSet := rfl
@[simp] theorem State.setDec_police (c : Nat) (x : DecSt) (s : State) : (s.setDec c x).police = s.police := rfl
@[simp] theorem State.setDec_rx (c : Nat) (x : DecSt) (s : State) : (s.setDec c x).rx = s.rx := rfl
@[simp] theorem State.setDec_pes (c : Nat) (x : DecSt) (s : State) : (s.setDec c x).pes = s.pes := rfl
@[simp] theorem State.setDec_flowSeq (c : Nat) (x : DecSt) (s : State) : (s.setDec c x).flowSeq = s.flowSeq := rfl
@[simp] theorem State.setDec_feeds (c : Nat) (x : DecSt) (s : State) : (s.setDec c x).feeds = s.feeds := rfl
@[simp] theorem State.setDec_pathLost (c : Nat) (x : DecSt) (s : State) : (s.setDec c x).pathLost = s.pathLost := rfl
@[simp] theorem State.setDec_rmpKept (c : Nat) (x : DecSt) (s : State) : (s.setDec c x).rmpKept = s.rmpKept := rfl
@[simp] theorem State.setDec_sndCfg (c : Nat) (x : DecSt) (s : State) : (s.setDec c x).sndCfg = s.sndCfg := rfl
@[simp] theorem State.setDec_sndLfsr (c : Nat) (x : DecSt) (s : State) : (s.setDec c x).sndLfsr = s.sndLfsr := rfl
@[simp] theorem State.setDec_sndBased (c : Nat) (x : DecSt) (s : State) : (s.setDec c x).sndBased = s.sndBased := rfl
@[simp] theorem State.setDec_quays (c : Nat) (x : DecSt) (s : State) : (s.setDec c x).quays = s.quays := rfl
@[simp] theorem State.setDec_encs (c : Nat) (x : DecSt) (s : State) : (s.setDec c x).encs = s.encs := rfl
@[simp] theorem State.setDec_windows (c : Nat) (x : DecSt) (s : State) : (s.setDec c x).windows = s.windows := rfl
@[simp] theorem State.setDec_ctxDie (c : Nat) (x : DecSt) (s : State) : (s.setDec c x).ctxDie = s.ctxDie := rfl
@[simp] theorem State.setDec_ucwNext (c : Nat) (x : DecSt) (s : State) : (s.setDec c x).ucwNext = s.ucwNext := rfl
@[simp] theorem State.setDec_comps (c : Nat) (x : DecSt) (s : State) : (s.setDec c x).comps = s.comps := rfl
@[simp] theorem State.setDec_flowTs (c : Nat) (x : DecSt) (s : State) : (s.setDec c x).flowTs = s.flowTs := rfl
@[simp] theorem State.setDec_sndEnded (c : Nat) (x : DecSt) (s : State) : (s.setDec c x).sndEnded = s.sndEnded := rfl
@[simp] theorem State.setDec_out (c : Nat) (x : DecSt) (s : State) : (s.setDec c x).out = s.out := rfl
@[simp] theorem State.setDec_freeCtr (c : Nat) (x : DecSt) (s : State) : (s.setDec c x).freeCtr = s.freeCtr := rfl
@[simp] theorem State.setDec_pending (c : Nat) (x : DecSt) (s : State) : (s.setDec c x).pending = s.pending := rfl

/-! `State.setEnc` changes `encs` alone. -/

@[simp] theorem State.setEnc_regs (c : Nat) (x : EncSt) (s : State) : (s.setEnc c x).regs = s.regs := rfl
@[simp] theorem State.setEnc_staged (c : Nat) (x : EncSt) (s : State) : (s.setEnc c x).staged = s.staged := rfl
@[simp] theorem State.setEnc_hold (c : Nat) (x : EncSt) (s : State) : (s.setEnc c x).hold = s.hold := rfl
@[simp] theorem State.setEnc_snaps (c : Nat) (x : EncSt) (s : State) : (s.setEnc c x).snaps = s.snaps := rfl
@[simp] theorem State.setEnc_counts (c : Nat) (x : EncSt) (s : State) : (s.setEnc c x).counts = s.counts := rfl
@[simp] theorem State.setEnc_mem (c : Nat) (x : EncSt) (s : State) : (s.setEnc c x).mem = s.mem := rfl
@[simp] theorem State.setEnc_spad (c : Nat) (x : EncSt) (s : State) : (s.setEnc c x).spad = s.spad := rfl
@[simp] theorem State.setEnc_cs (c : Nat) (x : EncSt) (s : State) : (s.setEnc c x).cs = s.cs := rfl
@[simp] theorem State.setEnc_ident (c : Nat) (x : EncSt) (s : State) : (s.setEnc c x).ident = s.ident := rfl
@[simp] theorem State.setEnc_boot (c : Nat) (x : EncSt) (s : State) : (s.setEnc c x).boot = s.boot := rfl
@[simp] theorem State.setEnc_tide (c : Nat) (x : EncSt) (s : State) : (s.setEnc c x).tide = s.tide := rfl
@[simp] theorem State.setEnc_units (c : Nat) (x : EncSt) (s : State) : (s.setEnc c x).units = s.units := rfl
@[simp] theorem State.setEnc_queues (c : Nat) (x : EncSt) (s : State) : (s.setEnc c x).queues = s.queues := rfl
@[simp] theorem State.setEnc_books (c : Nat) (x : EncSt) (s : State) : (s.setEnc c x).books = s.books := rfl
@[simp] theorem State.setEnc_gates (c : Nat) (x : EncSt) (s : State) : (s.setEnc c x).gates = s.gates := rfl
@[simp] theorem State.setEnc_memsys (c : Nat) (x : EncSt) (s : State) : (s.setEnc c x).memsys = s.memsys := rfl
@[simp] theorem State.setEnc_ports (c : Nat) (x : EncSt) (s : State) : (s.setEnc c x).ports = s.ports := rfl
@[simp] theorem State.setEnc_power (c : Nat) (x : EncSt) (s : State) : (s.setEnc c x).power = s.power := rfl
@[simp] theorem State.setEnc_pools (c : Nat) (x : EncSt) (s : State) : (s.setEnc c x).pools = s.pools := rfl
@[simp] theorem State.setEnc_host (c : Nat) (x : EncSt) (s : State) : (s.setEnc c x).host = s.host := rfl
@[simp] theorem State.setEnc_bell (c : Nat) (x : EncSt) (s : State) : (s.setEnc c x).bell = s.bell := rfl
@[simp] theorem State.setEnc_watch (c : Nat) (x : EncSt) (s : State) : (s.setEnc c x).watch = s.watch := rfl
@[simp] theorem State.setEnc_storms (c : Nat) (x : EncSt) (s : State) : (s.setEnc c x).storms = s.storms := rfl
@[simp] theorem State.setEnc_stormLate (c : Nat) (x : EncSt) (s : State) : (s.setEnc c x).stormLate = s.stormLate := rfl
@[simp] theorem State.setEnc_stormText (c : Nat) (x : EncSt) (s : State) : (s.setEnc c x).stormText = s.stormText := rfl
@[simp] theorem State.setEnc_disps (c : Nat) (x : EncSt) (s : State) : (s.setEnc c x).disps = s.disps := rfl
@[simp] theorem State.setEnc_slate (c : Nat) (x : EncSt) (s : State) : (s.setEnc c x).slate = s.slate := rfl
@[simp] theorem State.setEnc_picSent (c : Nat) (x : EncSt) (s : State) : (s.setEnc c x).picSent = s.picSent := rfl
@[simp] theorem State.setEnc_picDone (c : Nat) (x : EncSt) (s : State) : (s.setEnc c x).picDone = s.picDone := rfl
@[simp] theorem State.setEnc_layouts (c : Nat) (x : EncSt) (s : State) : (s.setEnc c x).layouts = s.layouts := rfl
@[simp] theorem State.setEnc_i2cOfs (c : Nat) (x : EncSt) (s : State) : (s.setEnc c x).i2cOfs = s.i2cOfs := rfl
@[simp] theorem State.setEnc_i2cWait (c : Nat) (x : EncSt) (s : State) : (s.setEnc c x).i2cWait = s.i2cWait := rfl
@[simp] theorem State.setEnc_lts (c : Nat) (x : EncSt) (s : State) : (s.setEnc c x).lts = s.lts := rfl
@[simp] theorem State.setEnc_ltRem (c : Nat) (x : EncSt) (s : State) : (s.setEnc c x).ltRem = s.ltRem := rfl
@[simp] theorem State.setEnc_autostart (c : Nat) (x : EncSt) (s : State) : (s.setEnc c x).autostart = s.autostart := rfl
@[simp] theorem State.setEnc_metaSet (c : Nat) (x : EncSt) (s : State) : (s.setEnc c x).metaSet = s.metaSet := rfl
@[simp] theorem State.setEnc_police (c : Nat) (x : EncSt) (s : State) : (s.setEnc c x).police = s.police := rfl
@[simp] theorem State.setEnc_rx (c : Nat) (x : EncSt) (s : State) : (s.setEnc c x).rx = s.rx := rfl
@[simp] theorem State.setEnc_pes (c : Nat) (x : EncSt) (s : State) : (s.setEnc c x).pes = s.pes := rfl
@[simp] theorem State.setEnc_flowSeq (c : Nat) (x : EncSt) (s : State) : (s.setEnc c x).flowSeq = s.flowSeq := rfl
@[simp] theorem State.setEnc_feeds (c : Nat) (x : EncSt) (s : State) : (s.setEnc c x).feeds = s.feeds := rfl
@[simp] theorem State.setEnc_pathLost (c : Nat) (x : EncSt) (s : State) : (s.setEnc c x).pathLost = s.pathLost := rfl
@[simp] theorem State.setEnc_rmpKept (c : Nat) (x : EncSt) (s : State) : (s.setEnc c x).rmpKept = s.rmpKept := rfl
@[simp] theorem State.setEnc_sndCfg (c : Nat) (x : EncSt) (s : State) : (s.setEnc c x).sndCfg = s.sndCfg := rfl
@[simp] theorem State.setEnc_sndLfsr (c : Nat) (x : EncSt) (s : State) : (s.setEnc c x).sndLfsr = s.sndLfsr := rfl
@[simp] theorem State.setEnc_sndBased (c : Nat) (x : EncSt) (s : State) : (s.setEnc c x).sndBased = s.sndBased := rfl
@[simp] theorem State.setEnc_decs (c : Nat) (x : EncSt) (s : State) : (s.setEnc c x).decs = s.decs := rfl
@[simp] theorem State.setEnc_quays (c : Nat) (x : EncSt) (s : State) : (s.setEnc c x).quays = s.quays := rfl
@[simp] theorem State.setEnc_windows (c : Nat) (x : EncSt) (s : State) : (s.setEnc c x).windows = s.windows := rfl
@[simp] theorem State.setEnc_ctxDie (c : Nat) (x : EncSt) (s : State) : (s.setEnc c x).ctxDie = s.ctxDie := rfl
@[simp] theorem State.setEnc_ucwNext (c : Nat) (x : EncSt) (s : State) : (s.setEnc c x).ucwNext = s.ucwNext := rfl
@[simp] theorem State.setEnc_comps (c : Nat) (x : EncSt) (s : State) : (s.setEnc c x).comps = s.comps := rfl
@[simp] theorem State.setEnc_flowTs (c : Nat) (x : EncSt) (s : State) : (s.setEnc c x).flowTs = s.flowTs := rfl
@[simp] theorem State.setEnc_sndEnded (c : Nat) (x : EncSt) (s : State) : (s.setEnc c x).sndEnded = s.sndEnded := rfl
@[simp] theorem State.setEnc_out (c : Nat) (x : EncSt) (s : State) : (s.setEnc c x).out = s.out := rfl
@[simp] theorem State.setEnc_freeCtr (c : Nat) (x : EncSt) (s : State) : (s.setEnc c x).freeCtr = s.freeCtr := rfl
@[simp] theorem State.setEnc_pending (c : Nat) (x : EncSt) (s : State) : (s.setEnc c x).pending = s.pending := rfl

/-! `State.setLt` changes `lts` alone. -/

@[simp] theorem State.setLt_regs (u : Nat) (x : LtSt) (s : State) : (s.setLt u x).regs = s.regs := rfl
@[simp] theorem State.setLt_staged (u : Nat) (x : LtSt) (s : State) : (s.setLt u x).staged = s.staged := rfl
@[simp] theorem State.setLt_hold (u : Nat) (x : LtSt) (s : State) : (s.setLt u x).hold = s.hold := rfl
@[simp] theorem State.setLt_snaps (u : Nat) (x : LtSt) (s : State) : (s.setLt u x).snaps = s.snaps := rfl
@[simp] theorem State.setLt_counts (u : Nat) (x : LtSt) (s : State) : (s.setLt u x).counts = s.counts := rfl
@[simp] theorem State.setLt_mem (u : Nat) (x : LtSt) (s : State) : (s.setLt u x).mem = s.mem := rfl
@[simp] theorem State.setLt_spad (u : Nat) (x : LtSt) (s : State) : (s.setLt u x).spad = s.spad := rfl
@[simp] theorem State.setLt_cs (u : Nat) (x : LtSt) (s : State) : (s.setLt u x).cs = s.cs := rfl
@[simp] theorem State.setLt_ident (u : Nat) (x : LtSt) (s : State) : (s.setLt u x).ident = s.ident := rfl
@[simp] theorem State.setLt_boot (u : Nat) (x : LtSt) (s : State) : (s.setLt u x).boot = s.boot := rfl
@[simp] theorem State.setLt_tide (u : Nat) (x : LtSt) (s : State) : (s.setLt u x).tide = s.tide := rfl
@[simp] theorem State.setLt_units (u : Nat) (x : LtSt) (s : State) : (s.setLt u x).units = s.units := rfl
@[simp] theorem State.setLt_queues (u : Nat) (x : LtSt) (s : State) : (s.setLt u x).queues = s.queues := rfl
@[simp] theorem State.setLt_books (u : Nat) (x : LtSt) (s : State) : (s.setLt u x).books = s.books := rfl
@[simp] theorem State.setLt_gates (u : Nat) (x : LtSt) (s : State) : (s.setLt u x).gates = s.gates := rfl
@[simp] theorem State.setLt_memsys (u : Nat) (x : LtSt) (s : State) : (s.setLt u x).memsys = s.memsys := rfl
@[simp] theorem State.setLt_ports (u : Nat) (x : LtSt) (s : State) : (s.setLt u x).ports = s.ports := rfl
@[simp] theorem State.setLt_power (u : Nat) (x : LtSt) (s : State) : (s.setLt u x).power = s.power := rfl
@[simp] theorem State.setLt_pools (u : Nat) (x : LtSt) (s : State) : (s.setLt u x).pools = s.pools := rfl
@[simp] theorem State.setLt_host (u : Nat) (x : LtSt) (s : State) : (s.setLt u x).host = s.host := rfl
@[simp] theorem State.setLt_bell (u : Nat) (x : LtSt) (s : State) : (s.setLt u x).bell = s.bell := rfl
@[simp] theorem State.setLt_watch (u : Nat) (x : LtSt) (s : State) : (s.setLt u x).watch = s.watch := rfl
@[simp] theorem State.setLt_storms (u : Nat) (x : LtSt) (s : State) : (s.setLt u x).storms = s.storms := rfl
@[simp] theorem State.setLt_stormLate (u : Nat) (x : LtSt) (s : State) : (s.setLt u x).stormLate = s.stormLate := rfl
@[simp] theorem State.setLt_stormText (u : Nat) (x : LtSt) (s : State) : (s.setLt u x).stormText = s.stormText := rfl
@[simp] theorem State.setLt_disps (u : Nat) (x : LtSt) (s : State) : (s.setLt u x).disps = s.disps := rfl
@[simp] theorem State.setLt_slate (u : Nat) (x : LtSt) (s : State) : (s.setLt u x).slate = s.slate := rfl
@[simp] theorem State.setLt_picSent (u : Nat) (x : LtSt) (s : State) : (s.setLt u x).picSent = s.picSent := rfl
@[simp] theorem State.setLt_picDone (u : Nat) (x : LtSt) (s : State) : (s.setLt u x).picDone = s.picDone := rfl
@[simp] theorem State.setLt_layouts (u : Nat) (x : LtSt) (s : State) : (s.setLt u x).layouts = s.layouts := rfl
@[simp] theorem State.setLt_i2cOfs (u : Nat) (x : LtSt) (s : State) : (s.setLt u x).i2cOfs = s.i2cOfs := rfl
@[simp] theorem State.setLt_i2cWait (u : Nat) (x : LtSt) (s : State) : (s.setLt u x).i2cWait = s.i2cWait := rfl
@[simp] theorem State.setLt_ltRem (u : Nat) (x : LtSt) (s : State) : (s.setLt u x).ltRem = s.ltRem := rfl
@[simp] theorem State.setLt_autostart (u : Nat) (x : LtSt) (s : State) : (s.setLt u x).autostart = s.autostart := rfl
@[simp] theorem State.setLt_metaSet (u : Nat) (x : LtSt) (s : State) : (s.setLt u x).metaSet = s.metaSet := rfl
@[simp] theorem State.setLt_police (u : Nat) (x : LtSt) (s : State) : (s.setLt u x).police = s.police := rfl
@[simp] theorem State.setLt_rx (u : Nat) (x : LtSt) (s : State) : (s.setLt u x).rx = s.rx := rfl
@[simp] theorem State.setLt_pes (u : Nat) (x : LtSt) (s : State) : (s.setLt u x).pes = s.pes := rfl
@[simp] theorem State.setLt_flowSeq (u : Nat) (x : LtSt) (s : State) : (s.setLt u x).flowSeq = s.flowSeq := rfl
@[simp] theorem State.setLt_feeds (u : Nat) (x : LtSt) (s : State) : (s.setLt u x).feeds = s.feeds := rfl
@[simp] theorem State.setLt_pathLost (u : Nat) (x : LtSt) (s : State) : (s.setLt u x).pathLost = s.pathLost := rfl
@[simp] theorem State.setLt_rmpKept (u : Nat) (x : LtSt) (s : State) : (s.setLt u x).rmpKept = s.rmpKept := rfl
@[simp] theorem State.setLt_sndCfg (u : Nat) (x : LtSt) (s : State) : (s.setLt u x).sndCfg = s.sndCfg := rfl
@[simp] theorem State.setLt_sndLfsr (u : Nat) (x : LtSt) (s : State) : (s.setLt u x).sndLfsr = s.sndLfsr := rfl
@[simp] theorem State.setLt_sndBased (u : Nat) (x : LtSt) (s : State) : (s.setLt u x).sndBased = s.sndBased := rfl
@[simp] theorem State.setLt_decs (u : Nat) (x : LtSt) (s : State) : (s.setLt u x).decs = s.decs := rfl
@[simp] theorem State.setLt_quays (u : Nat) (x : LtSt) (s : State) : (s.setLt u x).quays = s.quays := rfl
@[simp] theorem State.setLt_encs (u : Nat) (x : LtSt) (s : State) : (s.setLt u x).encs = s.encs := rfl
@[simp] theorem State.setLt_windows (u : Nat) (x : LtSt) (s : State) : (s.setLt u x).windows = s.windows := rfl
@[simp] theorem State.setLt_ctxDie (u : Nat) (x : LtSt) (s : State) : (s.setLt u x).ctxDie = s.ctxDie := rfl
@[simp] theorem State.setLt_ucwNext (u : Nat) (x : LtSt) (s : State) : (s.setLt u x).ucwNext = s.ucwNext := rfl
@[simp] theorem State.setLt_comps (u : Nat) (x : LtSt) (s : State) : (s.setLt u x).comps = s.comps := rfl
@[simp] theorem State.setLt_flowTs (u : Nat) (x : LtSt) (s : State) : (s.setLt u x).flowTs = s.flowTs := rfl
@[simp] theorem State.setLt_sndEnded (u : Nat) (x : LtSt) (s : State) : (s.setLt u x).sndEnded = s.sndEnded := rfl
@[simp] theorem State.setLt_out (u : Nat) (x : LtSt) (s : State) : (s.setLt u x).out = s.out := rfl
@[simp] theorem State.setLt_freeCtr (u : Nat) (x : LtSt) (s : State) : (s.setLt u x).freeCtr = s.freeCtr := rfl
@[simp] theorem State.setLt_pending (u : Nat) (x : LtSt) (s : State) : (s.setLt u x).pending = s.pending := rfl

/-! `State.setRx` changes `rx` alone. -/

@[simp] theorem State.setRx_regs (k : Nat) (x : RxSt) (s : State) : (s.setRx k x).regs = s.regs := rfl
@[simp] theorem State.setRx_staged (k : Nat) (x : RxSt) (s : State) : (s.setRx k x).staged = s.staged := rfl
@[simp] theorem State.setRx_hold (k : Nat) (x : RxSt) (s : State) : (s.setRx k x).hold = s.hold := rfl
@[simp] theorem State.setRx_snaps (k : Nat) (x : RxSt) (s : State) : (s.setRx k x).snaps = s.snaps := rfl
@[simp] theorem State.setRx_counts (k : Nat) (x : RxSt) (s : State) : (s.setRx k x).counts = s.counts := rfl
@[simp] theorem State.setRx_mem (k : Nat) (x : RxSt) (s : State) : (s.setRx k x).mem = s.mem := rfl
@[simp] theorem State.setRx_spad (k : Nat) (x : RxSt) (s : State) : (s.setRx k x).spad = s.spad := rfl
@[simp] theorem State.setRx_cs (k : Nat) (x : RxSt) (s : State) : (s.setRx k x).cs = s.cs := rfl
@[simp] theorem State.setRx_ident (k : Nat) (x : RxSt) (s : State) : (s.setRx k x).ident = s.ident := rfl
@[simp] theorem State.setRx_boot (k : Nat) (x : RxSt) (s : State) : (s.setRx k x).boot = s.boot := rfl
@[simp] theorem State.setRx_tide (k : Nat) (x : RxSt) (s : State) : (s.setRx k x).tide = s.tide := rfl
@[simp] theorem State.setRx_units (k : Nat) (x : RxSt) (s : State) : (s.setRx k x).units = s.units := rfl
@[simp] theorem State.setRx_queues (k : Nat) (x : RxSt) (s : State) : (s.setRx k x).queues = s.queues := rfl
@[simp] theorem State.setRx_books (k : Nat) (x : RxSt) (s : State) : (s.setRx k x).books = s.books := rfl
@[simp] theorem State.setRx_gates (k : Nat) (x : RxSt) (s : State) : (s.setRx k x).gates = s.gates := rfl
@[simp] theorem State.setRx_memsys (k : Nat) (x : RxSt) (s : State) : (s.setRx k x).memsys = s.memsys := rfl
@[simp] theorem State.setRx_ports (k : Nat) (x : RxSt) (s : State) : (s.setRx k x).ports = s.ports := rfl
@[simp] theorem State.setRx_power (k : Nat) (x : RxSt) (s : State) : (s.setRx k x).power = s.power := rfl
@[simp] theorem State.setRx_pools (k : Nat) (x : RxSt) (s : State) : (s.setRx k x).pools = s.pools := rfl
@[simp] theorem State.setRx_host (k : Nat) (x : RxSt) (s : State) : (s.setRx k x).host = s.host := rfl
@[simp] theorem State.setRx_bell (k : Nat) (x : RxSt) (s : State) : (s.setRx k x).bell = s.bell := rfl
@[simp] theorem State.setRx_watch (k : Nat) (x : RxSt) (s : State) : (s.setRx k x).watch = s.watch := rfl
@[simp] theorem State.setRx_storms (k : Nat) (x : RxSt) (s : State) : (s.setRx k x).storms = s.storms := rfl
@[simp] theorem State.setRx_stormLate (k : Nat) (x : RxSt) (s : State) : (s.setRx k x).stormLate = s.stormLate := rfl
@[simp] theorem State.setRx_stormText (k : Nat) (x : RxSt) (s : State) : (s.setRx k x).stormText = s.stormText := rfl
@[simp] theorem State.setRx_disps (k : Nat) (x : RxSt) (s : State) : (s.setRx k x).disps = s.disps := rfl
@[simp] theorem State.setRx_slate (k : Nat) (x : RxSt) (s : State) : (s.setRx k x).slate = s.slate := rfl
@[simp] theorem State.setRx_picSent (k : Nat) (x : RxSt) (s : State) : (s.setRx k x).picSent = s.picSent := rfl
@[simp] theorem State.setRx_picDone (k : Nat) (x : RxSt) (s : State) : (s.setRx k x).picDone = s.picDone := rfl
@[simp] theorem State.setRx_layouts (k : Nat) (x : RxSt) (s : State) : (s.setRx k x).layouts = s.layouts := rfl
@[simp] theorem State.setRx_i2cOfs (k : Nat) (x : RxSt) (s : State) : (s.setRx k x).i2cOfs = s.i2cOfs := rfl
@[simp] theorem State.setRx_i2cWait (k : Nat) (x : RxSt) (s : State) : (s.setRx k x).i2cWait = s.i2cWait := rfl
@[simp] theorem State.setRx_lts (k : Nat) (x : RxSt) (s : State) : (s.setRx k x).lts = s.lts := rfl
@[simp] theorem State.setRx_ltRem (k : Nat) (x : RxSt) (s : State) : (s.setRx k x).ltRem = s.ltRem := rfl
@[simp] theorem State.setRx_autostart (k : Nat) (x : RxSt) (s : State) : (s.setRx k x).autostart = s.autostart := rfl
@[simp] theorem State.setRx_metaSet (k : Nat) (x : RxSt) (s : State) : (s.setRx k x).metaSet = s.metaSet := rfl
@[simp] theorem State.setRx_police (k : Nat) (x : RxSt) (s : State) : (s.setRx k x).police = s.police := rfl
@[simp] theorem State.setRx_pes (k : Nat) (x : RxSt) (s : State) : (s.setRx k x).pes = s.pes := rfl
@[simp] theorem State.setRx_flowSeq (k : Nat) (x : RxSt) (s : State) : (s.setRx k x).flowSeq = s.flowSeq := rfl
@[simp] theorem State.setRx_feeds (k : Nat) (x : RxSt) (s : State) : (s.setRx k x).feeds = s.feeds := rfl
@[simp] theorem State.setRx_pathLost (k : Nat) (x : RxSt) (s : State) : (s.setRx k x).pathLost = s.pathLost := rfl
@[simp] theorem State.setRx_rmpKept (k : Nat) (x : RxSt) (s : State) : (s.setRx k x).rmpKept = s.rmpKept := rfl
@[simp] theorem State.setRx_sndCfg (k : Nat) (x : RxSt) (s : State) : (s.setRx k x).sndCfg = s.sndCfg := rfl
@[simp] theorem State.setRx_sndLfsr (k : Nat) (x : RxSt) (s : State) : (s.setRx k x).sndLfsr = s.sndLfsr := rfl
@[simp] theorem State.setRx_sndBased (k : Nat) (x : RxSt) (s : State) : (s.setRx k x).sndBased = s.sndBased := rfl
@[simp] theorem State.setRx_decs (k : Nat) (x : RxSt) (s : State) : (s.setRx k x).decs = s.decs := rfl
@[simp] theorem State.setRx_quays (k : Nat) (x : RxSt) (s : State) : (s.setRx k x).quays = s.quays := rfl
@[simp] theorem State.setRx_encs (k : Nat) (x : RxSt) (s : State) : (s.setRx k x).encs = s.encs := rfl
@[simp] theorem State.setRx_windows (k : Nat) (x : RxSt) (s : State) : (s.setRx k x).windows = s.windows := rfl
@[simp] theorem State.setRx_ctxDie (k : Nat) (x : RxSt) (s : State) : (s.setRx k x).ctxDie = s.ctxDie := rfl
@[simp] theorem State.setRx_ucwNext (k : Nat) (x : RxSt) (s : State) : (s.setRx k x).ucwNext = s.ucwNext := rfl
@[simp] theorem State.setRx_comps (k : Nat) (x : RxSt) (s : State) : (s.setRx k x).comps = s.comps := rfl
@[simp] theorem State.setRx_flowTs (k : Nat) (x : RxSt) (s : State) : (s.setRx k x).flowTs = s.flowTs := rfl
@[simp] theorem State.setRx_sndEnded (k : Nat) (x : RxSt) (s : State) : (s.setRx k x).sndEnded = s.sndEnded := rfl
@[simp] theorem State.setRx_out (k : Nat) (x : RxSt) (s : State) : (s.setRx k x).out = s.out := rfl
@[simp] theorem State.setRx_freeCtr (k : Nat) (x : RxSt) (s : State) : (s.setRx k x).freeCtr = s.freeCtr := rfl
@[simp] theorem State.setRx_pending (k : Nat) (x : RxSt) (s : State) : (s.setRx k x).pending = s.pending := rfl

/-! `State.setPes` changes `pes` alone. -/

@[simp] theorem State.setPes_regs (k : Nat) (x : PesSt) (s : State) : (s.setPes k x).regs = s.regs := rfl
@[simp] theorem State.setPes_staged (k : Nat) (x : PesSt) (s : State) : (s.setPes k x).staged = s.staged := rfl
@[simp] theorem State.setPes_hold (k : Nat) (x : PesSt) (s : State) : (s.setPes k x).hold = s.hold := rfl
@[simp] theorem State.setPes_snaps (k : Nat) (x : PesSt) (s : State) : (s.setPes k x).snaps = s.snaps := rfl
@[simp] theorem State.setPes_counts (k : Nat) (x : PesSt) (s : State) : (s.setPes k x).counts = s.counts := rfl
@[simp] theorem State.setPes_mem (k : Nat) (x : PesSt) (s : State) : (s.setPes k x).mem = s.mem := rfl
@[simp] theorem State.setPes_spad (k : Nat) (x : PesSt) (s : State) : (s.setPes k x).spad = s.spad := rfl
@[simp] theorem State.setPes_cs (k : Nat) (x : PesSt) (s : State) : (s.setPes k x).cs = s.cs := rfl
@[simp] theorem State.setPes_ident (k : Nat) (x : PesSt) (s : State) : (s.setPes k x).ident = s.ident := rfl
@[simp] theorem State.setPes_boot (k : Nat) (x : PesSt) (s : State) : (s.setPes k x).boot = s.boot := rfl
@[simp] theorem State.setPes_tide (k : Nat) (x : PesSt) (s : State) : (s.setPes k x).tide = s.tide := rfl
@[simp] theorem State.setPes_units (k : Nat) (x : PesSt) (s : State) : (s.setPes k x).units = s.units := rfl
@[simp] theorem State.setPes_queues (k : Nat) (x : PesSt) (s : State) : (s.setPes k x).queues = s.queues := rfl
@[simp] theorem State.setPes_books (k : Nat) (x : PesSt) (s : State) : (s.setPes k x).books = s.books := rfl
@[simp] theorem State.setPes_gates (k : Nat) (x : PesSt) (s : State) : (s.setPes k x).gates = s.gates := rfl
@[simp] theorem State.setPes_memsys (k : Nat) (x : PesSt) (s : State) : (s.setPes k x).memsys = s.memsys := rfl
@[simp] theorem State.setPes_ports (k : Nat) (x : PesSt) (s : State) : (s.setPes k x).ports = s.ports := rfl
@[simp] theorem State.setPes_power (k : Nat) (x : PesSt) (s : State) : (s.setPes k x).power = s.power := rfl
@[simp] theorem State.setPes_pools (k : Nat) (x : PesSt) (s : State) : (s.setPes k x).pools = s.pools := rfl
@[simp] theorem State.setPes_host (k : Nat) (x : PesSt) (s : State) : (s.setPes k x).host = s.host := rfl
@[simp] theorem State.setPes_bell (k : Nat) (x : PesSt) (s : State) : (s.setPes k x).bell = s.bell := rfl
@[simp] theorem State.setPes_watch (k : Nat) (x : PesSt) (s : State) : (s.setPes k x).watch = s.watch := rfl
@[simp] theorem State.setPes_storms (k : Nat) (x : PesSt) (s : State) : (s.setPes k x).storms = s.storms := rfl
@[simp] theorem State.setPes_stormLate (k : Nat) (x : PesSt) (s : State) : (s.setPes k x).stormLate = s.stormLate := rfl
@[simp] theorem State.setPes_stormText (k : Nat) (x : PesSt) (s : State) : (s.setPes k x).stormText = s.stormText := rfl
@[simp] theorem State.setPes_disps (k : Nat) (x : PesSt) (s : State) : (s.setPes k x).disps = s.disps := rfl
@[simp] theorem State.setPes_slate (k : Nat) (x : PesSt) (s : State) : (s.setPes k x).slate = s.slate := rfl
@[simp] theorem State.setPes_picSent (k : Nat) (x : PesSt) (s : State) : (s.setPes k x).picSent = s.picSent := rfl
@[simp] theorem State.setPes_picDone (k : Nat) (x : PesSt) (s : State) : (s.setPes k x).picDone = s.picDone := rfl
@[simp] theorem State.setPes_layouts (k : Nat) (x : PesSt) (s : State) : (s.setPes k x).layouts = s.layouts := rfl
@[simp] theorem State.setPes_i2cOfs (k : Nat) (x : PesSt) (s : State) : (s.setPes k x).i2cOfs = s.i2cOfs := rfl
@[simp] theorem State.setPes_i2cWait (k : Nat) (x : PesSt) (s : State) : (s.setPes k x).i2cWait = s.i2cWait := rfl
@[simp] theorem State.setPes_lts (k : Nat) (x : PesSt) (s : State) : (s.setPes k x).lts = s.lts := rfl
@[simp] theorem State.setPes_ltRem (k : Nat) (x : PesSt) (s : State) : (s.setPes k x).ltRem = s.ltRem := rfl
@[simp] theorem State.setPes_autostart (k : Nat) (x : PesSt) (s : State) : (s.setPes k x).autostart = s.autostart := rfl
@[simp] theorem State.setPes_metaSet (k : Nat) (x : PesSt) (s : State) : (s.setPes k x).metaSet = s.metaSet := rfl
@[simp] theorem State.setPes_police (k : Nat) (x : PesSt) (s : State) : (s.setPes k x).police = s.police := rfl
@[simp] theorem State.setPes_rx (k : Nat) (x : PesSt) (s : State) : (s.setPes k x).rx = s.rx := rfl
@[simp] theorem State.setPes_flowSeq (k : Nat) (x : PesSt) (s : State) : (s.setPes k x).flowSeq = s.flowSeq := rfl
@[simp] theorem State.setPes_feeds (k : Nat) (x : PesSt) (s : State) : (s.setPes k x).feeds = s.feeds := rfl
@[simp] theorem State.setPes_pathLost (k : Nat) (x : PesSt) (s : State) : (s.setPes k x).pathLost = s.pathLost := rfl
@[simp] theorem State.setPes_rmpKept (k : Nat) (x : PesSt) (s : State) : (s.setPes k x).rmpKept = s.rmpKept := rfl
@[simp] theorem State.setPes_sndCfg (k : Nat) (x : PesSt) (s : State) : (s.setPes k x).sndCfg = s.sndCfg := rfl
@[simp] theorem State.setPes_sndLfsr (k : Nat) (x : PesSt) (s : State) : (s.setPes k x).sndLfsr = s.sndLfsr := rfl
@[simp] theorem State.setPes_sndBased (k : Nat) (x : PesSt) (s : State) : (s.setPes k x).sndBased = s.sndBased := rfl
@[simp] theorem State.setPes_decs (k : Nat) (x : PesSt) (s : State) : (s.setPes k x).decs = s.decs := rfl
@[simp] theorem State.setPes_quays (k : Nat) (x : PesSt) (s : State) : (s.setPes k x).quays = s.quays := rfl
@[simp] theorem State.setPes_encs (k : Nat) (x : PesSt) (s : State) : (s.setPes k x).encs = s.encs := rfl
@[simp] theorem State.setPes_windows (k : Nat) (x : PesSt) (s : State) : (s.setPes k x).windows = s.windows := rfl
@[simp] theorem State.setPes_ctxDie (k : Nat) (x : PesSt) (s : State) : (s.setPes k x).ctxDie = s.ctxDie := rfl
@[simp] theorem State.setPes_ucwNext (k : Nat) (x : PesSt) (s : State) : (s.setPes k x).ucwNext = s.ucwNext := rfl
@[simp] theorem State.setPes_comps (k : Nat) (x : PesSt) (s : State) : (s.setPes k x).comps = s.comps := rfl
@[simp] theorem State.setPes_flowTs (k : Nat) (x : PesSt) (s : State) : (s.setPes k x).flowTs = s.flowTs := rfl
@[simp] theorem State.setPes_sndEnded (k : Nat) (x : PesSt) (s : State) : (s.setPes k x).sndEnded = s.sndEnded := rfl
@[simp] theorem State.setPes_out (k : Nat) (x : PesSt) (s : State) : (s.setPes k x).out = s.out := rfl
@[simp] theorem State.setPes_freeCtr (k : Nat) (x : PesSt) (s : State) : (s.setPes k x).freeCtr = s.freeCtr := rfl
@[simp] theorem State.setPes_pending (k : Nat) (x : PesSt) (s : State) : (s.setPes k x).pending = s.pending := rfl

/-! `State.setFeed` changes `feeds` alone. -/

@[simp] theorem State.setFeed_regs (n : Nat) (x : FeedSt) (s : State) : (s.setFeed n x).regs = s.regs := rfl
@[simp] theorem State.setFeed_staged (n : Nat) (x : FeedSt) (s : State) : (s.setFeed n x).staged = s.staged := rfl
@[simp] theorem State.setFeed_hold (n : Nat) (x : FeedSt) (s : State) : (s.setFeed n x).hold = s.hold := rfl
@[simp] theorem State.setFeed_snaps (n : Nat) (x : FeedSt) (s : State) : (s.setFeed n x).snaps = s.snaps := rfl
@[simp] theorem State.setFeed_counts (n : Nat) (x : FeedSt) (s : State) : (s.setFeed n x).counts = s.counts := rfl
@[simp] theorem State.setFeed_mem (n : Nat) (x : FeedSt) (s : State) : (s.setFeed n x).mem = s.mem := rfl
@[simp] theorem State.setFeed_spad (n : Nat) (x : FeedSt) (s : State) : (s.setFeed n x).spad = s.spad := rfl
@[simp] theorem State.setFeed_cs (n : Nat) (x : FeedSt) (s : State) : (s.setFeed n x).cs = s.cs := rfl
@[simp] theorem State.setFeed_ident (n : Nat) (x : FeedSt) (s : State) : (s.setFeed n x).ident = s.ident := rfl
@[simp] theorem State.setFeed_boot (n : Nat) (x : FeedSt) (s : State) : (s.setFeed n x).boot = s.boot := rfl
@[simp] theorem State.setFeed_tide (n : Nat) (x : FeedSt) (s : State) : (s.setFeed n x).tide = s.tide := rfl
@[simp] theorem State.setFeed_units (n : Nat) (x : FeedSt) (s : State) : (s.setFeed n x).units = s.units := rfl
@[simp] theorem State.setFeed_queues (n : Nat) (x : FeedSt) (s : State) : (s.setFeed n x).queues = s.queues := rfl
@[simp] theorem State.setFeed_books (n : Nat) (x : FeedSt) (s : State) : (s.setFeed n x).books = s.books := rfl
@[simp] theorem State.setFeed_gates (n : Nat) (x : FeedSt) (s : State) : (s.setFeed n x).gates = s.gates := rfl
@[simp] theorem State.setFeed_memsys (n : Nat) (x : FeedSt) (s : State) : (s.setFeed n x).memsys = s.memsys := rfl
@[simp] theorem State.setFeed_ports (n : Nat) (x : FeedSt) (s : State) : (s.setFeed n x).ports = s.ports := rfl
@[simp] theorem State.setFeed_power (n : Nat) (x : FeedSt) (s : State) : (s.setFeed n x).power = s.power := rfl
@[simp] theorem State.setFeed_pools (n : Nat) (x : FeedSt) (s : State) : (s.setFeed n x).pools = s.pools := rfl
@[simp] theorem State.setFeed_host (n : Nat) (x : FeedSt) (s : State) : (s.setFeed n x).host = s.host := rfl
@[simp] theorem State.setFeed_bell (n : Nat) (x : FeedSt) (s : State) : (s.setFeed n x).bell = s.bell := rfl
@[simp] theorem State.setFeed_watch (n : Nat) (x : FeedSt) (s : State) : (s.setFeed n x).watch = s.watch := rfl
@[simp] theorem State.setFeed_storms (n : Nat) (x : FeedSt) (s : State) : (s.setFeed n x).storms = s.storms := rfl
@[simp] theorem State.setFeed_stormLate (n : Nat) (x : FeedSt) (s : State) : (s.setFeed n x).stormLate = s.stormLate := rfl
@[simp] theorem State.setFeed_stormText (n : Nat) (x : FeedSt) (s : State) : (s.setFeed n x).stormText = s.stormText := rfl
@[simp] theorem State.setFeed_disps (n : Nat) (x : FeedSt) (s : State) : (s.setFeed n x).disps = s.disps := rfl
@[simp] theorem State.setFeed_slate (n : Nat) (x : FeedSt) (s : State) : (s.setFeed n x).slate = s.slate := rfl
@[simp] theorem State.setFeed_picSent (n : Nat) (x : FeedSt) (s : State) : (s.setFeed n x).picSent = s.picSent := rfl
@[simp] theorem State.setFeed_picDone (n : Nat) (x : FeedSt) (s : State) : (s.setFeed n x).picDone = s.picDone := rfl
@[simp] theorem State.setFeed_layouts (n : Nat) (x : FeedSt) (s : State) : (s.setFeed n x).layouts = s.layouts := rfl
@[simp] theorem State.setFeed_i2cOfs (n : Nat) (x : FeedSt) (s : State) : (s.setFeed n x).i2cOfs = s.i2cOfs := rfl
@[simp] theorem State.setFeed_i2cWait (n : Nat) (x : FeedSt) (s : State) : (s.setFeed n x).i2cWait = s.i2cWait := rfl
@[simp] theorem State.setFeed_lts (n : Nat) (x : FeedSt) (s : State) : (s.setFeed n x).lts = s.lts := rfl
@[simp] theorem State.setFeed_ltRem (n : Nat) (x : FeedSt) (s : State) : (s.setFeed n x).ltRem = s.ltRem := rfl
@[simp] theorem State.setFeed_autostart (n : Nat) (x : FeedSt) (s : State) : (s.setFeed n x).autostart = s.autostart := rfl
@[simp] theorem State.setFeed_metaSet (n : Nat) (x : FeedSt) (s : State) : (s.setFeed n x).metaSet = s.metaSet := rfl
@[simp] theorem State.setFeed_police (n : Nat) (x : FeedSt) (s : State) : (s.setFeed n x).police = s.police := rfl
@[simp] theorem State.setFeed_rx (n : Nat) (x : FeedSt) (s : State) : (s.setFeed n x).rx = s.rx := rfl
@[simp] theorem State.setFeed_pes (n : Nat) (x : FeedSt) (s : State) : (s.setFeed n x).pes = s.pes := rfl
@[simp] theorem State.setFeed_flowSeq (n : Nat) (x : FeedSt) (s : State) : (s.setFeed n x).flowSeq = s.flowSeq := rfl
@[simp] theorem State.setFeed_pathLost (n : Nat) (x : FeedSt) (s : State) : (s.setFeed n x).pathLost = s.pathLost := rfl
@[simp] theorem State.setFeed_rmpKept (n : Nat) (x : FeedSt) (s : State) : (s.setFeed n x).rmpKept = s.rmpKept := rfl
@[simp] theorem State.setFeed_sndCfg (n : Nat) (x : FeedSt) (s : State) : (s.setFeed n x).sndCfg = s.sndCfg := rfl
@[simp] theorem State.setFeed_sndLfsr (n : Nat) (x : FeedSt) (s : State) : (s.setFeed n x).sndLfsr = s.sndLfsr := rfl
@[simp] theorem State.setFeed_sndBased (n : Nat) (x : FeedSt) (s : State) : (s.setFeed n x).sndBased = s.sndBased := rfl
@[simp] theorem State.setFeed_decs (n : Nat) (x : FeedSt) (s : State) : (s.setFeed n x).decs = s.decs := rfl
@[simp] theorem State.setFeed_quays (n : Nat) (x : FeedSt) (s : State) : (s.setFeed n x).quays = s.quays := rfl
@[simp] theorem State.setFeed_encs (n : Nat) (x : FeedSt) (s : State) : (s.setFeed n x).encs = s.encs := rfl
@[simp] theorem State.setFeed_windows (n : Nat) (x : FeedSt) (s : State) : (s.setFeed n x).windows = s.windows := rfl
@[simp] theorem State.setFeed_ctxDie (n : Nat) (x : FeedSt) (s : State) : (s.setFeed n x).ctxDie = s.ctxDie := rfl
@[simp] theorem State.setFeed_ucwNext (n : Nat) (x : FeedSt) (s : State) : (s.setFeed n x).ucwNext = s.ucwNext := rfl
@[simp] theorem State.setFeed_comps (n : Nat) (x : FeedSt) (s : State) : (s.setFeed n x).comps = s.comps := rfl
@[simp] theorem State.setFeed_flowTs (n : Nat) (x : FeedSt) (s : State) : (s.setFeed n x).flowTs = s.flowTs := rfl
@[simp] theorem State.setFeed_sndEnded (n : Nat) (x : FeedSt) (s : State) : (s.setFeed n x).sndEnded = s.sndEnded := rfl
@[simp] theorem State.setFeed_out (n : Nat) (x : FeedSt) (s : State) : (s.setFeed n x).out = s.out := rfl
@[simp] theorem State.setFeed_freeCtr (n : Nat) (x : FeedSt) (s : State) : (s.setFeed n x).freeCtr = s.freeCtr := rfl
@[simp] theorem State.setFeed_pending (n : Nat) (x : FeedSt) (s : State) : (s.setFeed n x).pending = s.pending := rfl

/-! `State.setMi` changes `units` alone. -/

@[simp] theorem State.setMi_regs (u : Nat) (m : Micro) (s : State) : (s.setMi u m).regs = s.regs := rfl
@[simp] theorem State.setMi_staged (u : Nat) (m : Micro) (s : State) : (s.setMi u m).staged = s.staged := rfl
@[simp] theorem State.setMi_hold (u : Nat) (m : Micro) (s : State) : (s.setMi u m).hold = s.hold := rfl
@[simp] theorem State.setMi_snaps (u : Nat) (m : Micro) (s : State) : (s.setMi u m).snaps = s.snaps := rfl
@[simp] theorem State.setMi_counts (u : Nat) (m : Micro) (s : State) : (s.setMi u m).counts = s.counts := rfl
@[simp] theorem State.setMi_mem (u : Nat) (m : Micro) (s : State) : (s.setMi u m).mem = s.mem := rfl
@[simp] theorem State.setMi_spad (u : Nat) (m : Micro) (s : State) : (s.setMi u m).spad = s.spad := rfl
@[simp] theorem State.setMi_cs (u : Nat) (m : Micro) (s : State) : (s.setMi u m).cs = s.cs := rfl
@[simp] theorem State.setMi_ident (u : Nat) (m : Micro) (s : State) : (s.setMi u m).ident = s.ident := rfl
@[simp] theorem State.setMi_boot (u : Nat) (m : Micro) (s : State) : (s.setMi u m).boot = s.boot := rfl
@[simp] theorem State.setMi_tide (u : Nat) (m : Micro) (s : State) : (s.setMi u m).tide = s.tide := rfl
@[simp] theorem State.setMi_queues (u : Nat) (m : Micro) (s : State) : (s.setMi u m).queues = s.queues := rfl
@[simp] theorem State.setMi_books (u : Nat) (m : Micro) (s : State) : (s.setMi u m).books = s.books := rfl
@[simp] theorem State.setMi_gates (u : Nat) (m : Micro) (s : State) : (s.setMi u m).gates = s.gates := rfl
@[simp] theorem State.setMi_memsys (u : Nat) (m : Micro) (s : State) : (s.setMi u m).memsys = s.memsys := rfl
@[simp] theorem State.setMi_ports (u : Nat) (m : Micro) (s : State) : (s.setMi u m).ports = s.ports := rfl
@[simp] theorem State.setMi_power (u : Nat) (m : Micro) (s : State) : (s.setMi u m).power = s.power := rfl
@[simp] theorem State.setMi_pools (u : Nat) (m : Micro) (s : State) : (s.setMi u m).pools = s.pools := rfl
@[simp] theorem State.setMi_host (u : Nat) (m : Micro) (s : State) : (s.setMi u m).host = s.host := rfl
@[simp] theorem State.setMi_bell (u : Nat) (m : Micro) (s : State) : (s.setMi u m).bell = s.bell := rfl
@[simp] theorem State.setMi_watch (u : Nat) (m : Micro) (s : State) : (s.setMi u m).watch = s.watch := rfl
@[simp] theorem State.setMi_storms (u : Nat) (m : Micro) (s : State) : (s.setMi u m).storms = s.storms := rfl
@[simp] theorem State.setMi_stormLate (u : Nat) (m : Micro) (s : State) : (s.setMi u m).stormLate = s.stormLate := rfl
@[simp] theorem State.setMi_stormText (u : Nat) (m : Micro) (s : State) : (s.setMi u m).stormText = s.stormText := rfl
@[simp] theorem State.setMi_disps (u : Nat) (m : Micro) (s : State) : (s.setMi u m).disps = s.disps := rfl
@[simp] theorem State.setMi_slate (u : Nat) (m : Micro) (s : State) : (s.setMi u m).slate = s.slate := rfl
@[simp] theorem State.setMi_picSent (u : Nat) (m : Micro) (s : State) : (s.setMi u m).picSent = s.picSent := rfl
@[simp] theorem State.setMi_picDone (u : Nat) (m : Micro) (s : State) : (s.setMi u m).picDone = s.picDone := rfl
@[simp] theorem State.setMi_layouts (u : Nat) (m : Micro) (s : State) : (s.setMi u m).layouts = s.layouts := rfl
@[simp] theorem State.setMi_i2cOfs (u : Nat) (m : Micro) (s : State) : (s.setMi u m).i2cOfs = s.i2cOfs := rfl
@[simp] theorem State.setMi_i2cWait (u : Nat) (m : Micro) (s : State) : (s.setMi u m).i2cWait = s.i2cWait := rfl
@[simp] theorem State.setMi_lts (u : Nat) (m : Micro) (s : State) : (s.setMi u m).lts = s.lts := rfl
@[simp] theorem State.setMi_ltRem (u : Nat) (m : Micro) (s : State) : (s.setMi u m).ltRem = s.ltRem := rfl
@[simp] theorem State.setMi_autostart (u : Nat) (m : Micro) (s : State) : (s.setMi u m).autostart = s.autostart := rfl
@[simp] theorem State.setMi_metaSet (u : Nat) (m : Micro) (s : State) : (s.setMi u m).metaSet = s.metaSet := rfl
@[simp] theorem State.setMi_police (u : Nat) (m : Micro) (s : State) : (s.setMi u m).police = s.police := rfl
@[simp] theorem State.setMi_rx (u : Nat) (m : Micro) (s : State) : (s.setMi u m).rx = s.rx := rfl
@[simp] theorem State.setMi_pes (u : Nat) (m : Micro) (s : State) : (s.setMi u m).pes = s.pes := rfl
@[simp] theorem State.setMi_flowSeq (u : Nat) (m : Micro) (s : State) : (s.setMi u m).flowSeq = s.flowSeq := rfl
@[simp] theorem State.setMi_feeds (u : Nat) (m : Micro) (s : State) : (s.setMi u m).feeds = s.feeds := rfl
@[simp] theorem State.setMi_pathLost (u : Nat) (m : Micro) (s : State) : (s.setMi u m).pathLost = s.pathLost := rfl
@[simp] theorem State.setMi_rmpKept (u : Nat) (m : Micro) (s : State) : (s.setMi u m).rmpKept = s.rmpKept := rfl
@[simp] theorem State.setMi_sndCfg (u : Nat) (m : Micro) (s : State) : (s.setMi u m).sndCfg = s.sndCfg := rfl
@[simp] theorem State.setMi_sndLfsr (u : Nat) (m : Micro) (s : State) : (s.setMi u m).sndLfsr = s.sndLfsr := rfl
@[simp] theorem State.setMi_sndBased (u : Nat) (m : Micro) (s : State) : (s.setMi u m).sndBased = s.sndBased := rfl
@[simp] theorem State.setMi_decs (u : Nat) (m : Micro) (s : State) : (s.setMi u m).decs = s.decs := rfl
@[simp] theorem State.setMi_quays (u : Nat) (m : Micro) (s : State) : (s.setMi u m).quays = s.quays := rfl
@[simp] theorem State.setMi_encs (u : Nat) (m : Micro) (s : State) : (s.setMi u m).encs = s.encs := rfl
@[simp] theorem State.setMi_windows (u : Nat) (m : Micro) (s : State) : (s.setMi u m).windows = s.windows := rfl
@[simp] theorem State.setMi_ctxDie (u : Nat) (m : Micro) (s : State) : (s.setMi u m).ctxDie = s.ctxDie := rfl
@[simp] theorem State.setMi_ucwNext (u : Nat) (m : Micro) (s : State) : (s.setMi u m).ucwNext = s.ucwNext := rfl
@[simp] theorem State.setMi_comps (u : Nat) (m : Micro) (s : State) : (s.setMi u m).comps = s.comps := rfl
@[simp] theorem State.setMi_flowTs (u : Nat) (m : Micro) (s : State) : (s.setMi u m).flowTs = s.flowTs := rfl
@[simp] theorem State.setMi_sndEnded (u : Nat) (m : Micro) (s : State) : (s.setMi u m).sndEnded = s.sndEnded := rfl
@[simp] theorem State.setMi_out (u : Nat) (m : Micro) (s : State) : (s.setMi u m).out = s.out := rfl
@[simp] theorem State.setMi_freeCtr (u : Nat) (m : Micro) (s : State) : (s.setMi u m).freeCtr = s.freeCtr := rfl
@[simp] theorem State.setMi_pending (u : Nat) (m : Micro) (s : State) : (s.setMi u m).pending = s.pending := rfl

/-! `State.setQuay` changes `quays` alone. -/

@[simp] theorem State.setQuay_regs (t : Nat) (l : List QuayPic) (s : State) : (s.setQuay t l).regs = s.regs := rfl
@[simp] theorem State.setQuay_staged (t : Nat) (l : List QuayPic) (s : State) : (s.setQuay t l).staged = s.staged := rfl
@[simp] theorem State.setQuay_hold (t : Nat) (l : List QuayPic) (s : State) : (s.setQuay t l).hold = s.hold := rfl
@[simp] theorem State.setQuay_snaps (t : Nat) (l : List QuayPic) (s : State) : (s.setQuay t l).snaps = s.snaps := rfl
@[simp] theorem State.setQuay_counts (t : Nat) (l : List QuayPic) (s : State) : (s.setQuay t l).counts = s.counts := rfl
@[simp] theorem State.setQuay_mem (t : Nat) (l : List QuayPic) (s : State) : (s.setQuay t l).mem = s.mem := rfl
@[simp] theorem State.setQuay_spad (t : Nat) (l : List QuayPic) (s : State) : (s.setQuay t l).spad = s.spad := rfl
@[simp] theorem State.setQuay_cs (t : Nat) (l : List QuayPic) (s : State) : (s.setQuay t l).cs = s.cs := rfl
@[simp] theorem State.setQuay_ident (t : Nat) (l : List QuayPic) (s : State) : (s.setQuay t l).ident = s.ident := rfl
@[simp] theorem State.setQuay_boot (t : Nat) (l : List QuayPic) (s : State) : (s.setQuay t l).boot = s.boot := rfl
@[simp] theorem State.setQuay_tide (t : Nat) (l : List QuayPic) (s : State) : (s.setQuay t l).tide = s.tide := rfl
@[simp] theorem State.setQuay_units (t : Nat) (l : List QuayPic) (s : State) : (s.setQuay t l).units = s.units := rfl
@[simp] theorem State.setQuay_queues (t : Nat) (l : List QuayPic) (s : State) : (s.setQuay t l).queues = s.queues := rfl
@[simp] theorem State.setQuay_books (t : Nat) (l : List QuayPic) (s : State) : (s.setQuay t l).books = s.books := rfl
@[simp] theorem State.setQuay_gates (t : Nat) (l : List QuayPic) (s : State) : (s.setQuay t l).gates = s.gates := rfl
@[simp] theorem State.setQuay_memsys (t : Nat) (l : List QuayPic) (s : State) : (s.setQuay t l).memsys = s.memsys := rfl
@[simp] theorem State.setQuay_ports (t : Nat) (l : List QuayPic) (s : State) : (s.setQuay t l).ports = s.ports := rfl
@[simp] theorem State.setQuay_power (t : Nat) (l : List QuayPic) (s : State) : (s.setQuay t l).power = s.power := rfl
@[simp] theorem State.setQuay_pools (t : Nat) (l : List QuayPic) (s : State) : (s.setQuay t l).pools = s.pools := rfl
@[simp] theorem State.setQuay_host (t : Nat) (l : List QuayPic) (s : State) : (s.setQuay t l).host = s.host := rfl
@[simp] theorem State.setQuay_bell (t : Nat) (l : List QuayPic) (s : State) : (s.setQuay t l).bell = s.bell := rfl
@[simp] theorem State.setQuay_watch (t : Nat) (l : List QuayPic) (s : State) : (s.setQuay t l).watch = s.watch := rfl
@[simp] theorem State.setQuay_storms (t : Nat) (l : List QuayPic) (s : State) : (s.setQuay t l).storms = s.storms := rfl
@[simp] theorem State.setQuay_stormLate (t : Nat) (l : List QuayPic) (s : State) : (s.setQuay t l).stormLate = s.stormLate := rfl
@[simp] theorem State.setQuay_stormText (t : Nat) (l : List QuayPic) (s : State) : (s.setQuay t l).stormText = s.stormText := rfl
@[simp] theorem State.setQuay_disps (t : Nat) (l : List QuayPic) (s : State) : (s.setQuay t l).disps = s.disps := rfl
@[simp] theorem State.setQuay_slate (t : Nat) (l : List QuayPic) (s : State) : (s.setQuay t l).slate = s.slate := rfl
@[simp] theorem State.setQuay_picSent (t : Nat) (l : List QuayPic) (s : State) : (s.setQuay t l).picSent = s.picSent := rfl
@[simp] theorem State.setQuay_picDone (t : Nat) (l : List QuayPic) (s : State) : (s.setQuay t l).picDone = s.picDone := rfl
@[simp] theorem State.setQuay_layouts (t : Nat) (l : List QuayPic) (s : State) : (s.setQuay t l).layouts = s.layouts := rfl
@[simp] theorem State.setQuay_i2cOfs (t : Nat) (l : List QuayPic) (s : State) : (s.setQuay t l).i2cOfs = s.i2cOfs := rfl
@[simp] theorem State.setQuay_i2cWait (t : Nat) (l : List QuayPic) (s : State) : (s.setQuay t l).i2cWait = s.i2cWait := rfl
@[simp] theorem State.setQuay_lts (t : Nat) (l : List QuayPic) (s : State) : (s.setQuay t l).lts = s.lts := rfl
@[simp] theorem State.setQuay_ltRem (t : Nat) (l : List QuayPic) (s : State) : (s.setQuay t l).ltRem = s.ltRem := rfl
@[simp] theorem State.setQuay_autostart (t : Nat) (l : List QuayPic) (s : State) : (s.setQuay t l).autostart = s.autostart := rfl
@[simp] theorem State.setQuay_metaSet (t : Nat) (l : List QuayPic) (s : State) : (s.setQuay t l).metaSet = s.metaSet := rfl
@[simp] theorem State.setQuay_police (t : Nat) (l : List QuayPic) (s : State) : (s.setQuay t l).police = s.police := rfl
@[simp] theorem State.setQuay_rx (t : Nat) (l : List QuayPic) (s : State) : (s.setQuay t l).rx = s.rx := rfl
@[simp] theorem State.setQuay_pes (t : Nat) (l : List QuayPic) (s : State) : (s.setQuay t l).pes = s.pes := rfl
@[simp] theorem State.setQuay_flowSeq (t : Nat) (l : List QuayPic) (s : State) : (s.setQuay t l).flowSeq = s.flowSeq := rfl
@[simp] theorem State.setQuay_feeds (t : Nat) (l : List QuayPic) (s : State) : (s.setQuay t l).feeds = s.feeds := rfl
@[simp] theorem State.setQuay_pathLost (t : Nat) (l : List QuayPic) (s : State) : (s.setQuay t l).pathLost = s.pathLost := rfl
@[simp] theorem State.setQuay_rmpKept (t : Nat) (l : List QuayPic) (s : State) : (s.setQuay t l).rmpKept = s.rmpKept := rfl
@[simp] theorem State.setQuay_sndCfg (t : Nat) (l : List QuayPic) (s : State) : (s.setQuay t l).sndCfg = s.sndCfg := rfl
@[simp] theorem State.setQuay_sndLfsr (t : Nat) (l : List QuayPic) (s : State) : (s.setQuay t l).sndLfsr = s.sndLfsr := rfl
@[simp] theorem State.setQuay_sndBased (t : Nat) (l : List QuayPic) (s : State) : (s.setQuay t l).sndBased = s.sndBased := rfl
@[simp] theorem State.setQuay_decs (t : Nat) (l : List QuayPic) (s : State) : (s.setQuay t l).decs = s.decs := rfl
@[simp] theorem State.setQuay_encs (t : Nat) (l : List QuayPic) (s : State) : (s.setQuay t l).encs = s.encs := rfl
@[simp] theorem State.setQuay_windows (t : Nat) (l : List QuayPic) (s : State) : (s.setQuay t l).windows = s.windows := rfl
@[simp] theorem State.setQuay_ctxDie (t : Nat) (l : List QuayPic) (s : State) : (s.setQuay t l).ctxDie = s.ctxDie := rfl
@[simp] theorem State.setQuay_ucwNext (t : Nat) (l : List QuayPic) (s : State) : (s.setQuay t l).ucwNext = s.ucwNext := rfl
@[simp] theorem State.setQuay_comps (t : Nat) (l : List QuayPic) (s : State) : (s.setQuay t l).comps = s.comps := rfl
@[simp] theorem State.setQuay_flowTs (t : Nat) (l : List QuayPic) (s : State) : (s.setQuay t l).flowTs = s.flowTs := rfl
@[simp] theorem State.setQuay_sndEnded (t : Nat) (l : List QuayPic) (s : State) : (s.setQuay t l).sndEnded = s.sndEnded := rfl
@[simp] theorem State.setQuay_out (t : Nat) (l : List QuayPic) (s : State) : (s.setQuay t l).out = s.out := rfl
@[simp] theorem State.setQuay_freeCtr (t : Nat) (l : List QuayPic) (s : State) : (s.setQuay t l).freeCtr = s.freeCtr := rfl
@[simp] theorem State.setQuay_pending (t : Nat) (l : List QuayPic) (s : State) : (s.setQuay t l).pending = s.pending := rfl

/-! `State.setComps` changes `comps` alone. -/

@[simp] theorem State.setComps_regs (t : Nat) (l : List CompRec) (s : State) : (s.setComps t l).regs = s.regs := rfl
@[simp] theorem State.setComps_staged (t : Nat) (l : List CompRec) (s : State) : (s.setComps t l).staged = s.staged := rfl
@[simp] theorem State.setComps_hold (t : Nat) (l : List CompRec) (s : State) : (s.setComps t l).hold = s.hold := rfl
@[simp] theorem State.setComps_snaps (t : Nat) (l : List CompRec) (s : State) : (s.setComps t l).snaps = s.snaps := rfl
@[simp] theorem State.setComps_counts (t : Nat) (l : List CompRec) (s : State) : (s.setComps t l).counts = s.counts := rfl
@[simp] theorem State.setComps_mem (t : Nat) (l : List CompRec) (s : State) : (s.setComps t l).mem = s.mem := rfl
@[simp] theorem State.setComps_spad (t : Nat) (l : List CompRec) (s : State) : (s.setComps t l).spad = s.spad := rfl
@[simp] theorem State.setComps_cs (t : Nat) (l : List CompRec) (s : State) : (s.setComps t l).cs = s.cs := rfl
@[simp] theorem State.setComps_ident (t : Nat) (l : List CompRec) (s : State) : (s.setComps t l).ident = s.ident := rfl
@[simp] theorem State.setComps_boot (t : Nat) (l : List CompRec) (s : State) : (s.setComps t l).boot = s.boot := rfl
@[simp] theorem State.setComps_tide (t : Nat) (l : List CompRec) (s : State) : (s.setComps t l).tide = s.tide := rfl
@[simp] theorem State.setComps_units (t : Nat) (l : List CompRec) (s : State) : (s.setComps t l).units = s.units := rfl
@[simp] theorem State.setComps_queues (t : Nat) (l : List CompRec) (s : State) : (s.setComps t l).queues = s.queues := rfl
@[simp] theorem State.setComps_books (t : Nat) (l : List CompRec) (s : State) : (s.setComps t l).books = s.books := rfl
@[simp] theorem State.setComps_gates (t : Nat) (l : List CompRec) (s : State) : (s.setComps t l).gates = s.gates := rfl
@[simp] theorem State.setComps_memsys (t : Nat) (l : List CompRec) (s : State) : (s.setComps t l).memsys = s.memsys := rfl
@[simp] theorem State.setComps_ports (t : Nat) (l : List CompRec) (s : State) : (s.setComps t l).ports = s.ports := rfl
@[simp] theorem State.setComps_power (t : Nat) (l : List CompRec) (s : State) : (s.setComps t l).power = s.power := rfl
@[simp] theorem State.setComps_pools (t : Nat) (l : List CompRec) (s : State) : (s.setComps t l).pools = s.pools := rfl
@[simp] theorem State.setComps_host (t : Nat) (l : List CompRec) (s : State) : (s.setComps t l).host = s.host := rfl
@[simp] theorem State.setComps_bell (t : Nat) (l : List CompRec) (s : State) : (s.setComps t l).bell = s.bell := rfl
@[simp] theorem State.setComps_watch (t : Nat) (l : List CompRec) (s : State) : (s.setComps t l).watch = s.watch := rfl
@[simp] theorem State.setComps_storms (t : Nat) (l : List CompRec) (s : State) : (s.setComps t l).storms = s.storms := rfl
@[simp] theorem State.setComps_stormLate (t : Nat) (l : List CompRec) (s : State) : (s.setComps t l).stormLate = s.stormLate := rfl
@[simp] theorem State.setComps_stormText (t : Nat) (l : List CompRec) (s : State) : (s.setComps t l).stormText = s.stormText := rfl
@[simp] theorem State.setComps_disps (t : Nat) (l : List CompRec) (s : State) : (s.setComps t l).disps = s.disps := rfl
@[simp] theorem State.setComps_slate (t : Nat) (l : List CompRec) (s : State) : (s.setComps t l).slate = s.slate := rfl
@[simp] theorem State.setComps_picSent (t : Nat) (l : List CompRec) (s : State) : (s.setComps t l).picSent = s.picSent := rfl
@[simp] theorem State.setComps_picDone (t : Nat) (l : List CompRec) (s : State) : (s.setComps t l).picDone = s.picDone := rfl
@[simp] theorem State.setComps_layouts (t : Nat) (l : List CompRec) (s : State) : (s.setComps t l).layouts = s.layouts := rfl
@[simp] theorem State.setComps_i2cOfs (t : Nat) (l : List CompRec) (s : State) : (s.setComps t l).i2cOfs = s.i2cOfs := rfl
@[simp] theorem State.setComps_i2cWait (t : Nat) (l : List CompRec) (s : State) : (s.setComps t l).i2cWait = s.i2cWait := rfl
@[simp] theorem State.setComps_lts (t : Nat) (l : List CompRec) (s : State) : (s.setComps t l).lts = s.lts := rfl
@[simp] theorem State.setComps_ltRem (t : Nat) (l : List CompRec) (s : State) : (s.setComps t l).ltRem = s.ltRem := rfl
@[simp] theorem State.setComps_autostart (t : Nat) (l : List CompRec) (s : State) : (s.setComps t l).autostart = s.autostart := rfl
@[simp] theorem State.setComps_metaSet (t : Nat) (l : List CompRec) (s : State) : (s.setComps t l).metaSet = s.metaSet := rfl
@[simp] theorem State.setComps_police (t : Nat) (l : List CompRec) (s : State) : (s.setComps t l).police = s.police := rfl
@[simp] theorem State.setComps_rx (t : Nat) (l : List CompRec) (s : State) : (s.setComps t l).rx = s.rx := rfl
@[simp] theorem State.setComps_pes (t : Nat) (l : List CompRec) (s : State) : (s.setComps t l).pes = s.pes := rfl
@[simp] theorem State.setComps_flowSeq (t : Nat) (l : List CompRec) (s : State) : (s.setComps t l).flowSeq = s.flowSeq := rfl
@[simp] theorem State.setComps_feeds (t : Nat) (l : List CompRec) (s : State) : (s.setComps t l).feeds = s.feeds := rfl
@[simp] theorem State.setComps_pathLost (t : Nat) (l : List CompRec) (s : State) : (s.setComps t l).pathLost = s.pathLost := rfl
@[simp] theorem State.setComps_rmpKept (t : Nat) (l : List CompRec) (s : State) : (s.setComps t l).rmpKept = s.rmpKept := rfl
@[simp] theorem State.setComps_sndCfg (t : Nat) (l : List CompRec) (s : State) : (s.setComps t l).sndCfg = s.sndCfg := rfl
@[simp] theorem State.setComps_sndLfsr (t : Nat) (l : List CompRec) (s : State) : (s.setComps t l).sndLfsr = s.sndLfsr := rfl
@[simp] theorem State.setComps_sndBased (t : Nat) (l : List CompRec) (s : State) : (s.setComps t l).sndBased = s.sndBased := rfl
@[simp] theorem State.setComps_decs (t : Nat) (l : List CompRec) (s : State) : (s.setComps t l).decs = s.decs := rfl
@[simp] theorem State.setComps_encs (t : Nat) (l : List CompRec) (s : State) : (s.setComps t l).encs = s.encs := rfl
@[simp] theorem State.setComps_windows (t : Nat) (l : List CompRec) (s : State) : (s.setComps t l).windows = s.windows := rfl
@[simp] theorem State.setComps_ctxDie (t : Nat) (l : List CompRec) (s : State) : (s.setComps t l).ctxDie = s.ctxDie := rfl
@[simp] theorem State.setComps_ucwNext (t : Nat) (l : List CompRec) (s : State) : (s.setComps t l).ucwNext = s.ucwNext := rfl
@[simp] theorem State.setComps_quays (t : Nat) (l : List CompRec) (s : State) : (s.setComps t l).quays = s.quays := rfl
@[simp] theorem State.setComps_flowTs (t : Nat) (l : List CompRec) (s : State) : (s.setComps t l).flowTs = s.flowTs := rfl
@[simp] theorem State.setComps_sndEnded (t : Nat) (l : List CompRec) (s : State) : (s.setComps t l).sndEnded = s.sndEnded := rfl
@[simp] theorem State.setComps_out (t : Nat) (l : List CompRec) (s : State) : (s.setComps t l).out = s.out := rfl
@[simp] theorem State.setComps_freeCtr (t : Nat) (l : List CompRec) (s : State) : (s.setComps t l).freeCtr = s.freeCtr := rfl
@[simp] theorem State.setComps_pending (t : Nat) (l : List CompRec) (s : State) : (s.setComps t l).pending = s.pending := rfl

/-! `State.wrM` changes `mem` alone. -/

@[simp] theorem State.wrM_regs (a n v : Nat) (s : State) : (s.wrM a n v).regs = s.regs := rfl
@[simp] theorem State.wrM_staged (a n v : Nat) (s : State) : (s.wrM a n v).staged = s.staged := rfl
@[simp] theorem State.wrM_hold (a n v : Nat) (s : State) : (s.wrM a n v).hold = s.hold := rfl
@[simp] theorem State.wrM_snaps (a n v : Nat) (s : State) : (s.wrM a n v).snaps = s.snaps := rfl
@[simp] theorem State.wrM_counts (a n v : Nat) (s : State) : (s.wrM a n v).counts = s.counts := rfl
@[simp] theorem State.wrM_spad (a n v : Nat) (s : State) : (s.wrM a n v).spad = s.spad := rfl
@[simp] theorem State.wrM_cs (a n v : Nat) (s : State) : (s.wrM a n v).cs = s.cs := rfl
@[simp] theorem State.wrM_ident (a n v : Nat) (s : State) : (s.wrM a n v).ident = s.ident := rfl
@[simp] theorem State.wrM_boot (a n v : Nat) (s : State) : (s.wrM a n v).boot = s.boot := rfl
@[simp] theorem State.wrM_tide (a n v : Nat) (s : State) : (s.wrM a n v).tide = s.tide := rfl
@[simp] theorem State.wrM_units (a n v : Nat) (s : State) : (s.wrM a n v).units = s.units := rfl
@[simp] theorem State.wrM_queues (a n v : Nat) (s : State) : (s.wrM a n v).queues = s.queues := rfl
@[simp] theorem State.wrM_books (a n v : Nat) (s : State) : (s.wrM a n v).books = s.books := rfl
@[simp] theorem State.wrM_gates (a n v : Nat) (s : State) : (s.wrM a n v).gates = s.gates := rfl
@[simp] theorem State.wrM_memsys (a n v : Nat) (s : State) : (s.wrM a n v).memsys = s.memsys := rfl
@[simp] theorem State.wrM_ports (a n v : Nat) (s : State) : (s.wrM a n v).ports = s.ports := rfl
@[simp] theorem State.wrM_power (a n v : Nat) (s : State) : (s.wrM a n v).power = s.power := rfl
@[simp] theorem State.wrM_pools (a n v : Nat) (s : State) : (s.wrM a n v).pools = s.pools := rfl
@[simp] theorem State.wrM_host (a n v : Nat) (s : State) : (s.wrM a n v).host = s.host := rfl
@[simp] theorem State.wrM_bell (a n v : Nat) (s : State) : (s.wrM a n v).bell = s.bell := rfl
@[simp] theorem State.wrM_watch (a n v : Nat) (s : State) : (s.wrM a n v).watch = s.watch := rfl
@[simp] theorem State.wrM_storms (a n v : Nat) (s : State) : (s.wrM a n v).storms = s.storms := rfl
@[simp] theorem State.wrM_stormLate (a n v : Nat) (s : State) : (s.wrM a n v).stormLate = s.stormLate := rfl
@[simp] theorem State.wrM_stormText (a n v : Nat) (s : State) : (s.wrM a n v).stormText = s.stormText := rfl
@[simp] theorem State.wrM_disps (a n v : Nat) (s : State) : (s.wrM a n v).disps = s.disps := rfl
@[simp] theorem State.wrM_slate (a n v : Nat) (s : State) : (s.wrM a n v).slate = s.slate := rfl
@[simp] theorem State.wrM_picSent (a n v : Nat) (s : State) : (s.wrM a n v).picSent = s.picSent := rfl
@[simp] theorem State.wrM_picDone (a n v : Nat) (s : State) : (s.wrM a n v).picDone = s.picDone := rfl
@[simp] theorem State.wrM_layouts (a n v : Nat) (s : State) : (s.wrM a n v).layouts = s.layouts := rfl
@[simp] theorem State.wrM_i2cOfs (a n v : Nat) (s : State) : (s.wrM a n v).i2cOfs = s.i2cOfs := rfl
@[simp] theorem State.wrM_i2cWait (a n v : Nat) (s : State) : (s.wrM a n v).i2cWait = s.i2cWait := rfl
@[simp] theorem State.wrM_lts (a n v : Nat) (s : State) : (s.wrM a n v).lts = s.lts := rfl
@[simp] theorem State.wrM_ltRem (a n v : Nat) (s : State) : (s.wrM a n v).ltRem = s.ltRem := rfl
@[simp] theorem State.wrM_autostart (a n v : Nat) (s : State) : (s.wrM a n v).autostart = s.autostart := rfl
@[simp] theorem State.wrM_metaSet (a n v : Nat) (s : State) : (s.wrM a n v).metaSet = s.metaSet := rfl
@[simp] theorem State.wrM_police (a n v : Nat) (s : State) : (s.wrM a n v).police = s.police := rfl
@[simp] theorem State.wrM_rx (a n v : Nat) (s : State) : (s.wrM a n v).rx = s.rx := rfl
@[simp] theorem State.wrM_pes (a n v : Nat) (s : State) : (s.wrM a n v).pes = s.pes := rfl
@[simp] theorem State.wrM_flowSeq (a n v : Nat) (s : State) : (s.wrM a n v).flowSeq = s.flowSeq := rfl
@[simp] theorem State.wrM_feeds (a n v : Nat) (s : State) : (s.wrM a n v).feeds = s.feeds := rfl
@[simp] theorem State.wrM_pathLost (a n v : Nat) (s : State) : (s.wrM a n v).pathLost = s.pathLost := rfl
@[simp] theorem State.wrM_rmpKept (a n v : Nat) (s : State) : (s.wrM a n v).rmpKept = s.rmpKept := rfl
@[simp] theorem State.wrM_sndCfg (a n v : Nat) (s : State) : (s.wrM a n v).sndCfg = s.sndCfg := rfl
@[simp] theorem State.wrM_sndLfsr (a n v : Nat) (s : State) : (s.wrM a n v).sndLfsr = s.sndLfsr := rfl
@[simp] theorem State.wrM_sndBased (a n v : Nat) (s : State) : (s.wrM a n v).sndBased = s.sndBased := rfl
@[simp] theorem State.wrM_decs (a n v : Nat) (s : State) : (s.wrM a n v).decs = s.decs := rfl
@[simp] theorem State.wrM_quays (a n v : Nat) (s : State) : (s.wrM a n v).quays = s.quays := rfl
@[simp] theorem State.wrM_encs (a n v : Nat) (s : State) : (s.wrM a n v).encs = s.encs := rfl
@[simp] theorem State.wrM_windows (a n v : Nat) (s : State) : (s.wrM a n v).windows = s.windows := rfl
@[simp] theorem State.wrM_ctxDie (a n v : Nat) (s : State) : (s.wrM a n v).ctxDie = s.ctxDie := rfl
@[simp] theorem State.wrM_ucwNext (a n v : Nat) (s : State) : (s.wrM a n v).ucwNext = s.ucwNext := rfl
@[simp] theorem State.wrM_comps (a n v : Nat) (s : State) : (s.wrM a n v).comps = s.comps := rfl
@[simp] theorem State.wrM_flowTs (a n v : Nat) (s : State) : (s.wrM a n v).flowTs = s.flowTs := rfl
@[simp] theorem State.wrM_sndEnded (a n v : Nat) (s : State) : (s.wrM a n v).sndEnded = s.sndEnded := rfl
@[simp] theorem State.wrM_out (a n v : Nat) (s : State) : (s.wrM a n v).out = s.out := rfl
@[simp] theorem State.wrM_freeCtr (a n v : Nat) (s : State) : (s.wrM a n v).freeCtr = s.freeCtr := rfl
@[simp] theorem State.wrM_pending (a n v : Nat) (s : State) : (s.wrM a n v).pending = s.pending := rfl

/-! `State.putM` changes `mem` alone. -/

@[simp] theorem State.putM_regs (a : Nat) (bs : List Nat) (s : State) : (s.putM a bs).regs = s.regs := rfl
@[simp] theorem State.putM_staged (a : Nat) (bs : List Nat) (s : State) : (s.putM a bs).staged = s.staged := rfl
@[simp] theorem State.putM_hold (a : Nat) (bs : List Nat) (s : State) : (s.putM a bs).hold = s.hold := rfl
@[simp] theorem State.putM_snaps (a : Nat) (bs : List Nat) (s : State) : (s.putM a bs).snaps = s.snaps := rfl
@[simp] theorem State.putM_counts (a : Nat) (bs : List Nat) (s : State) : (s.putM a bs).counts = s.counts := rfl
@[simp] theorem State.putM_spad (a : Nat) (bs : List Nat) (s : State) : (s.putM a bs).spad = s.spad := rfl
@[simp] theorem State.putM_cs (a : Nat) (bs : List Nat) (s : State) : (s.putM a bs).cs = s.cs := rfl
@[simp] theorem State.putM_ident (a : Nat) (bs : List Nat) (s : State) : (s.putM a bs).ident = s.ident := rfl
@[simp] theorem State.putM_boot (a : Nat) (bs : List Nat) (s : State) : (s.putM a bs).boot = s.boot := rfl
@[simp] theorem State.putM_tide (a : Nat) (bs : List Nat) (s : State) : (s.putM a bs).tide = s.tide := rfl
@[simp] theorem State.putM_units (a : Nat) (bs : List Nat) (s : State) : (s.putM a bs).units = s.units := rfl
@[simp] theorem State.putM_queues (a : Nat) (bs : List Nat) (s : State) : (s.putM a bs).queues = s.queues := rfl
@[simp] theorem State.putM_books (a : Nat) (bs : List Nat) (s : State) : (s.putM a bs).books = s.books := rfl
@[simp] theorem State.putM_gates (a : Nat) (bs : List Nat) (s : State) : (s.putM a bs).gates = s.gates := rfl
@[simp] theorem State.putM_memsys (a : Nat) (bs : List Nat) (s : State) : (s.putM a bs).memsys = s.memsys := rfl
@[simp] theorem State.putM_ports (a : Nat) (bs : List Nat) (s : State) : (s.putM a bs).ports = s.ports := rfl
@[simp] theorem State.putM_power (a : Nat) (bs : List Nat) (s : State) : (s.putM a bs).power = s.power := rfl
@[simp] theorem State.putM_pools (a : Nat) (bs : List Nat) (s : State) : (s.putM a bs).pools = s.pools := rfl
@[simp] theorem State.putM_host (a : Nat) (bs : List Nat) (s : State) : (s.putM a bs).host = s.host := rfl
@[simp] theorem State.putM_bell (a : Nat) (bs : List Nat) (s : State) : (s.putM a bs).bell = s.bell := rfl
@[simp] theorem State.putM_watch (a : Nat) (bs : List Nat) (s : State) : (s.putM a bs).watch = s.watch := rfl
@[simp] theorem State.putM_storms (a : Nat) (bs : List Nat) (s : State) : (s.putM a bs).storms = s.storms := rfl
@[simp] theorem State.putM_stormLate (a : Nat) (bs : List Nat) (s : State) : (s.putM a bs).stormLate = s.stormLate := rfl
@[simp] theorem State.putM_stormText (a : Nat) (bs : List Nat) (s : State) : (s.putM a bs).stormText = s.stormText := rfl
@[simp] theorem State.putM_disps (a : Nat) (bs : List Nat) (s : State) : (s.putM a bs).disps = s.disps := rfl
@[simp] theorem State.putM_slate (a : Nat) (bs : List Nat) (s : State) : (s.putM a bs).slate = s.slate := rfl
@[simp] theorem State.putM_picSent (a : Nat) (bs : List Nat) (s : State) : (s.putM a bs).picSent = s.picSent := rfl
@[simp] theorem State.putM_picDone (a : Nat) (bs : List Nat) (s : State) : (s.putM a bs).picDone = s.picDone := rfl
@[simp] theorem State.putM_layouts (a : Nat) (bs : List Nat) (s : State) : (s.putM a bs).layouts = s.layouts := rfl
@[simp] theorem State.putM_i2cOfs (a : Nat) (bs : List Nat) (s : State) : (s.putM a bs).i2cOfs = s.i2cOfs := rfl
@[simp] theorem State.putM_i2cWait (a : Nat) (bs : List Nat) (s : State) : (s.putM a bs).i2cWait = s.i2cWait := rfl
@[simp] theorem State.putM_lts (a : Nat) (bs : List Nat) (s : State) : (s.putM a bs).lts = s.lts := rfl
@[simp] theorem State.putM_ltRem (a : Nat) (bs : List Nat) (s : State) : (s.putM a bs).ltRem = s.ltRem := rfl
@[simp] theorem State.putM_autostart (a : Nat) (bs : List Nat) (s : State) : (s.putM a bs).autostart = s.autostart := rfl
@[simp] theorem State.putM_metaSet (a : Nat) (bs : List Nat) (s : State) : (s.putM a bs).metaSet = s.metaSet := rfl
@[simp] theorem State.putM_police (a : Nat) (bs : List Nat) (s : State) : (s.putM a bs).police = s.police := rfl
@[simp] theorem State.putM_rx (a : Nat) (bs : List Nat) (s : State) : (s.putM a bs).rx = s.rx := rfl
@[simp] theorem State.putM_pes (a : Nat) (bs : List Nat) (s : State) : (s.putM a bs).pes = s.pes := rfl
@[simp] theorem State.putM_flowSeq (a : Nat) (bs : List Nat) (s : State) : (s.putM a bs).flowSeq = s.flowSeq := rfl
@[simp] theorem State.putM_feeds (a : Nat) (bs : List Nat) (s : State) : (s.putM a bs).feeds = s.feeds := rfl
@[simp] theorem State.putM_pathLost (a : Nat) (bs : List Nat) (s : State) : (s.putM a bs).pathLost = s.pathLost := rfl
@[simp] theorem State.putM_rmpKept (a : Nat) (bs : List Nat) (s : State) : (s.putM a bs).rmpKept = s.rmpKept := rfl
@[simp] theorem State.putM_sndCfg (a : Nat) (bs : List Nat) (s : State) : (s.putM a bs).sndCfg = s.sndCfg := rfl
@[simp] theorem State.putM_sndLfsr (a : Nat) (bs : List Nat) (s : State) : (s.putM a bs).sndLfsr = s.sndLfsr := rfl
@[simp] theorem State.putM_sndBased (a : Nat) (bs : List Nat) (s : State) : (s.putM a bs).sndBased = s.sndBased := rfl
@[simp] theorem State.putM_decs (a : Nat) (bs : List Nat) (s : State) : (s.putM a bs).decs = s.decs := rfl
@[simp] theorem State.putM_quays (a : Nat) (bs : List Nat) (s : State) : (s.putM a bs).quays = s.quays := rfl
@[simp] theorem State.putM_encs (a : Nat) (bs : List Nat) (s : State) : (s.putM a bs).encs = s.encs := rfl
@[simp] theorem State.putM_windows (a : Nat) (bs : List Nat) (s : State) : (s.putM a bs).windows = s.windows := rfl
@[simp] theorem State.putM_ctxDie (a : Nat) (bs : List Nat) (s : State) : (s.putM a bs).ctxDie = s.ctxDie := rfl
@[simp] theorem State.putM_ucwNext (a : Nat) (bs : List Nat) (s : State) : (s.putM a bs).ucwNext = s.ucwNext := rfl
@[simp] theorem State.putM_comps (a : Nat) (bs : List Nat) (s : State) : (s.putM a bs).comps = s.comps := rfl
@[simp] theorem State.putM_flowTs (a : Nat) (bs : List Nat) (s : State) : (s.putM a bs).flowTs = s.flowTs := rfl
@[simp] theorem State.putM_sndEnded (a : Nat) (bs : List Nat) (s : State) : (s.putM a bs).sndEnded = s.sndEnded := rfl
@[simp] theorem State.putM_out (a : Nat) (bs : List Nat) (s : State) : (s.putM a bs).out = s.out := rfl
@[simp] theorem State.putM_freeCtr (a : Nat) (bs : List Nat) (s : State) : (s.putM a bs).freeCtr = s.freeCtr := rfl
@[simp] theorem State.putM_pending (a : Nat) (bs : List Nat) (s : State) : (s.putM a bs).pending = s.pending := rfl

@[simp] theorem State.draw_regs (s : State) : s.draw.2.regs = s.regs := rfl
@[simp] theorem State.drawMany_regs (n : Nat) (s : State) : (State.drawMany n s).2.regs = s.regs := rfl
@[simp] theorem State.tick_regs (s : State) : s.tick.regs = s.regs := rfl
@[simp] theorem State.draw_staged (s : State) : s.draw.2.staged = s.staged := rfl
@[simp] theorem State.drawMany_staged (n : Nat) (s : State) : (State.drawMany n s).2.staged = s.staged := rfl
@[simp] theorem State.tick_staged (s : State) : s.tick.staged = s.staged := rfl
@[simp] theorem State.draw_hold (s : State) : s.draw.2.hold = s.hold := rfl
@[simp] theorem State.drawMany_hold (n : Nat) (s : State) : (State.drawMany n s).2.hold = s.hold := rfl
@[simp] theorem State.tick_hold (s : State) : s.tick.hold = s.hold := rfl
@[simp] theorem State.draw_snaps (s : State) : s.draw.2.snaps = s.snaps := rfl
@[simp] theorem State.drawMany_snaps (n : Nat) (s : State) : (State.drawMany n s).2.snaps = s.snaps := rfl
@[simp] theorem State.tick_snaps (s : State) : s.tick.snaps = s.snaps := rfl
@[simp] theorem State.draw_counts (s : State) : s.draw.2.counts = s.counts := rfl
@[simp] theorem State.drawMany_counts (n : Nat) (s : State) : (State.drawMany n s).2.counts = s.counts := rfl
@[simp] theorem State.tick_counts (s : State) : s.tick.counts = s.counts := rfl
@[simp] theorem State.draw_mem (s : State) : s.draw.2.mem = s.mem := rfl
@[simp] theorem State.drawMany_mem (n : Nat) (s : State) : (State.drawMany n s).2.mem = s.mem := rfl
@[simp] theorem State.tick_mem (s : State) : s.tick.mem = s.mem := rfl
@[simp] theorem State.draw_spad (s : State) : s.draw.2.spad = s.spad := rfl
@[simp] theorem State.drawMany_spad (n : Nat) (s : State) : (State.drawMany n s).2.spad = s.spad := rfl
@[simp] theorem State.tick_spad (s : State) : s.tick.spad = s.spad := rfl
@[simp] theorem State.draw_cs (s : State) : s.draw.2.cs = s.cs := rfl
@[simp] theorem State.drawMany_cs (n : Nat) (s : State) : (State.drawMany n s).2.cs = s.cs := rfl
@[simp] theorem State.tick_cs (s : State) : s.tick.cs = s.cs := rfl
@[simp] theorem State.draw_ident (s : State) : s.draw.2.ident = s.ident := rfl
@[simp] theorem State.drawMany_ident (n : Nat) (s : State) : (State.drawMany n s).2.ident = s.ident := rfl
@[simp] theorem State.tick_ident (s : State) : s.tick.ident = s.ident := rfl
@[simp] theorem State.draw_boot (s : State) : s.draw.2.boot = s.boot := rfl
@[simp] theorem State.drawMany_boot (n : Nat) (s : State) : (State.drawMany n s).2.boot = s.boot := rfl
@[simp] theorem State.tick_boot (s : State) : s.tick.boot = s.boot := rfl
@[simp] theorem State.draw_tide (s : State) : s.draw.2.tide = s.tide := rfl
@[simp] theorem State.drawMany_tide (n : Nat) (s : State) : (State.drawMany n s).2.tide = s.tide := rfl
@[simp] theorem State.draw_units (s : State) : s.draw.2.units = s.units := rfl
@[simp] theorem State.drawMany_units (n : Nat) (s : State) : (State.drawMany n s).2.units = s.units := rfl
@[simp] theorem State.tick_units (s : State) : s.tick.units = s.units := rfl
@[simp] theorem State.draw_queues (s : State) : s.draw.2.queues = s.queues := rfl
@[simp] theorem State.drawMany_queues (n : Nat) (s : State) : (State.drawMany n s).2.queues = s.queues := rfl
@[simp] theorem State.tick_queues (s : State) : s.tick.queues = s.queues := rfl
@[simp] theorem State.draw_books (s : State) : s.draw.2.books = s.books := rfl
@[simp] theorem State.drawMany_books (n : Nat) (s : State) : (State.drawMany n s).2.books = s.books := rfl
@[simp] theorem State.tick_books (s : State) : s.tick.books = s.books := rfl
@[simp] theorem State.draw_gates (s : State) : s.draw.2.gates = s.gates := rfl
@[simp] theorem State.drawMany_gates (n : Nat) (s : State) : (State.drawMany n s).2.gates = s.gates := rfl
@[simp] theorem State.tick_gates (s : State) : s.tick.gates = s.gates := rfl
@[simp] theorem State.draw_memsys (s : State) : s.draw.2.memsys = s.memsys := rfl
@[simp] theorem State.drawMany_memsys (n : Nat) (s : State) : (State.drawMany n s).2.memsys = s.memsys := rfl
@[simp] theorem State.tick_memsys (s : State) : s.tick.memsys = s.memsys := rfl
@[simp] theorem State.draw_ports (s : State) : s.draw.2.ports = s.ports := rfl
@[simp] theorem State.drawMany_ports (n : Nat) (s : State) : (State.drawMany n s).2.ports = s.ports := rfl
@[simp] theorem State.tick_ports (s : State) : s.tick.ports = s.ports := rfl
@[simp] theorem State.draw_power (s : State) : s.draw.2.power = s.power := rfl
@[simp] theorem State.drawMany_power (n : Nat) (s : State) : (State.drawMany n s).2.power = s.power := rfl
@[simp] theorem State.tick_power (s : State) : s.tick.power = s.power := rfl
@[simp] theorem State.draw_pools (s : State) : s.draw.2.pools = s.pools := rfl
@[simp] theorem State.drawMany_pools (n : Nat) (s : State) : (State.drawMany n s).2.pools = s.pools := rfl
@[simp] theorem State.tick_pools (s : State) : s.tick.pools = s.pools := rfl
@[simp] theorem State.draw_host (s : State) : s.draw.2.host = s.host := rfl
@[simp] theorem State.drawMany_host (n : Nat) (s : State) : (State.drawMany n s).2.host = s.host := rfl
@[simp] theorem State.tick_host (s : State) : s.tick.host = s.host := rfl
@[simp] theorem State.draw_bell (s : State) : s.draw.2.bell = s.bell := rfl
@[simp] theorem State.drawMany_bell (n : Nat) (s : State) : (State.drawMany n s).2.bell = s.bell := rfl
@[simp] theorem State.tick_bell (s : State) : s.tick.bell = s.bell := rfl
@[simp] theorem State.draw_watch (s : State) : s.draw.2.watch = s.watch := rfl
@[simp] theorem State.drawMany_watch (n : Nat) (s : State) : (State.drawMany n s).2.watch = s.watch := rfl
@[simp] theorem State.tick_watch (s : State) : s.tick.watch = s.watch := rfl
@[simp] theorem State.draw_storms (s : State) : s.draw.2.storms = s.storms := rfl
@[simp] theorem State.drawMany_storms (n : Nat) (s : State) : (State.drawMany n s).2.storms = s.storms := rfl
@[simp] theorem State.tick_storms (s : State) : s.tick.storms = s.storms := rfl
@[simp] theorem State.draw_stormLate (s : State) : s.draw.2.stormLate = s.stormLate := rfl
@[simp] theorem State.drawMany_stormLate (n : Nat) (s : State) : (State.drawMany n s).2.stormLate = s.stormLate := rfl
@[simp] theorem State.tick_stormLate (s : State) : s.tick.stormLate = s.stormLate := rfl
@[simp] theorem State.draw_stormText (s : State) : s.draw.2.stormText = s.stormText := rfl
@[simp] theorem State.drawMany_stormText (n : Nat) (s : State) : (State.drawMany n s).2.stormText = s.stormText := rfl
@[simp] theorem State.tick_stormText (s : State) : s.tick.stormText = s.stormText := rfl
@[simp] theorem State.draw_disps (s : State) : s.draw.2.disps = s.disps := rfl
@[simp] theorem State.drawMany_disps (n : Nat) (s : State) : (State.drawMany n s).2.disps = s.disps := rfl
@[simp] theorem State.tick_disps (s : State) : s.tick.disps = s.disps := rfl
@[simp] theorem State.draw_slate (s : State) : s.draw.2.slate = s.slate := rfl
@[simp] theorem State.drawMany_slate (n : Nat) (s : State) : (State.drawMany n s).2.slate = s.slate := rfl
@[simp] theorem State.tick_slate (s : State) : s.tick.slate = s.slate := rfl
@[simp] theorem State.draw_picSent (s : State) : s.draw.2.picSent = s.picSent := rfl
@[simp] theorem State.drawMany_picSent (n : Nat) (s : State) : (State.drawMany n s).2.picSent = s.picSent := rfl
@[simp] theorem State.tick_picSent (s : State) : s.tick.picSent = s.picSent := rfl
@[simp] theorem State.draw_picDone (s : State) : s.draw.2.picDone = s.picDone := rfl
@[simp] theorem State.drawMany_picDone (n : Nat) (s : State) : (State.drawMany n s).2.picDone = s.picDone := rfl
@[simp] theorem State.tick_picDone (s : State) : s.tick.picDone = s.picDone := rfl
@[simp] theorem State.draw_layouts (s : State) : s.draw.2.layouts = s.layouts := rfl
@[simp] theorem State.drawMany_layouts (n : Nat) (s : State) : (State.drawMany n s).2.layouts = s.layouts := rfl
@[simp] theorem State.tick_layouts (s : State) : s.tick.layouts = s.layouts := rfl
@[simp] theorem State.draw_i2cOfs (s : State) : s.draw.2.i2cOfs = s.i2cOfs := rfl
@[simp] theorem State.drawMany_i2cOfs (n : Nat) (s : State) : (State.drawMany n s).2.i2cOfs = s.i2cOfs := rfl
@[simp] theorem State.tick_i2cOfs (s : State) : s.tick.i2cOfs = s.i2cOfs := rfl
@[simp] theorem State.draw_i2cWait (s : State) : s.draw.2.i2cWait = s.i2cWait := rfl
@[simp] theorem State.drawMany_i2cWait (n : Nat) (s : State) : (State.drawMany n s).2.i2cWait = s.i2cWait := rfl
@[simp] theorem State.tick_i2cWait (s : State) : s.tick.i2cWait = s.i2cWait := rfl
@[simp] theorem State.draw_lts (s : State) : s.draw.2.lts = s.lts := rfl
@[simp] theorem State.drawMany_lts (n : Nat) (s : State) : (State.drawMany n s).2.lts = s.lts := rfl
@[simp] theorem State.tick_lts (s : State) : s.tick.lts = s.lts := rfl
@[simp] theorem State.draw_ltRem (s : State) : s.draw.2.ltRem = s.ltRem := rfl
@[simp] theorem State.drawMany_ltRem (n : Nat) (s : State) : (State.drawMany n s).2.ltRem = s.ltRem := rfl
@[simp] theorem State.tick_ltRem (s : State) : s.tick.ltRem = s.ltRem := rfl
@[simp] theorem State.draw_autostart (s : State) : s.draw.2.autostart = s.autostart := rfl
@[simp] theorem State.drawMany_autostart (n : Nat) (s : State) : (State.drawMany n s).2.autostart = s.autostart := rfl
@[simp] theorem State.tick_autostart (s : State) : s.tick.autostart = s.autostart := rfl
@[simp] theorem State.draw_metaSet (s : State) : s.draw.2.metaSet = s.metaSet := rfl
@[simp] theorem State.drawMany_metaSet (n : Nat) (s : State) : (State.drawMany n s).2.metaSet = s.metaSet := rfl
@[simp] theorem State.tick_metaSet (s : State) : s.tick.metaSet = s.metaSet := rfl
@[simp] theorem State.draw_police (s : State) : s.draw.2.police = s.police := rfl
@[simp] theorem State.drawMany_police (n : Nat) (s : State) : (State.drawMany n s).2.police = s.police := rfl
@[simp] theorem State.tick_police (s : State) : s.tick.police = s.police := rfl
@[simp] theorem State.draw_rx (s : State) : s.draw.2.rx = s.rx := rfl
@[simp] theorem State.drawMany_rx (n : Nat) (s : State) : (State.drawMany n s).2.rx = s.rx := rfl
@[simp] theorem State.tick_rx (s : State) : s.tick.rx = s.rx := rfl
@[simp] theorem State.draw_pes (s : State) : s.draw.2.pes = s.pes := rfl
@[simp] theorem State.drawMany_pes (n : Nat) (s : State) : (State.drawMany n s).2.pes = s.pes := rfl
@[simp] theorem State.tick_pes (s : State) : s.tick.pes = s.pes := rfl
@[simp] theorem State.draw_flowSeq (s : State) : s.draw.2.flowSeq = s.flowSeq := rfl
@[simp] theorem State.drawMany_flowSeq (n : Nat) (s : State) : (State.drawMany n s).2.flowSeq = s.flowSeq := rfl
@[simp] theorem State.tick_flowSeq (s : State) : s.tick.flowSeq = s.flowSeq := rfl
@[simp] theorem State.draw_feeds (s : State) : s.draw.2.feeds = s.feeds := rfl
@[simp] theorem State.drawMany_feeds (n : Nat) (s : State) : (State.drawMany n s).2.feeds = s.feeds := rfl
@[simp] theorem State.tick_feeds (s : State) : s.tick.feeds = s.feeds := rfl
@[simp] theorem State.draw_pathLost (s : State) : s.draw.2.pathLost = s.pathLost := rfl
@[simp] theorem State.drawMany_pathLost (n : Nat) (s : State) : (State.drawMany n s).2.pathLost = s.pathLost := rfl
@[simp] theorem State.tick_pathLost (s : State) : s.tick.pathLost = s.pathLost := rfl
@[simp] theorem State.draw_rmpKept (s : State) : s.draw.2.rmpKept = s.rmpKept := rfl
@[simp] theorem State.drawMany_rmpKept (n : Nat) (s : State) : (State.drawMany n s).2.rmpKept = s.rmpKept := rfl
@[simp] theorem State.tick_rmpKept (s : State) : s.tick.rmpKept = s.rmpKept := rfl
@[simp] theorem State.draw_sndCfg (s : State) : s.draw.2.sndCfg = s.sndCfg := rfl
@[simp] theorem State.drawMany_sndCfg (n : Nat) (s : State) : (State.drawMany n s).2.sndCfg = s.sndCfg := rfl
@[simp] theorem State.tick_sndCfg (s : State) : s.tick.sndCfg = s.sndCfg := rfl
@[simp] theorem State.draw_sndLfsr (s : State) : s.draw.2.sndLfsr = s.sndLfsr := rfl
@[simp] theorem State.drawMany_sndLfsr (n : Nat) (s : State) : (State.drawMany n s).2.sndLfsr = s.sndLfsr := rfl
@[simp] theorem State.tick_sndLfsr (s : State) : s.tick.sndLfsr = s.sndLfsr := rfl
@[simp] theorem State.draw_sndBased (s : State) : s.draw.2.sndBased = s.sndBased := rfl
@[simp] theorem State.drawMany_sndBased (n : Nat) (s : State) : (State.drawMany n s).2.sndBased = s.sndBased := rfl
@[simp] theorem State.tick_sndBased (s : State) : s.tick.sndBased = s.sndBased := rfl
@[simp] theorem State.draw_decs (s : State) : s.draw.2.decs = s.decs := rfl
@[simp] theorem State.drawMany_decs (n : Nat) (s : State) : (State.drawMany n s).2.decs = s.decs := rfl
@[simp] theorem State.tick_decs (s : State) : s.tick.decs = s.decs := rfl
@[simp] theorem State.draw_quays (s : State) : s.draw.2.quays = s.quays := rfl
@[simp] theorem State.drawMany_quays (n : Nat) (s : State) : (State.drawMany n s).2.quays = s.quays := rfl
@[simp] theorem State.tick_quays (s : State) : s.tick.quays = s.quays := rfl
@[simp] theorem State.draw_encs (s : State) : s.draw.2.encs = s.encs := rfl
@[simp] theorem State.drawMany_encs (n : Nat) (s : State) : (State.drawMany n s).2.encs = s.encs := rfl
@[simp] theorem State.tick_encs (s : State) : s.tick.encs = s.encs := rfl
@[simp] theorem State.draw_windows (s : State) : s.draw.2.windows = s.windows := rfl
@[simp] theorem State.drawMany_windows (n : Nat) (s : State) : (State.drawMany n s).2.windows = s.windows := rfl
@[simp] theorem State.tick_windows (s : State) : s.tick.windows = s.windows := rfl
@[simp] theorem State.draw_ctxDie (s : State) : s.draw.2.ctxDie = s.ctxDie := rfl
@[simp] theorem State.drawMany_ctxDie (n : Nat) (s : State) : (State.drawMany n s).2.ctxDie = s.ctxDie := rfl
@[simp] theorem State.tick_ctxDie (s : State) : s.tick.ctxDie = s.ctxDie := rfl
@[simp] theorem State.draw_ucwNext (s : State) : s.draw.2.ucwNext = s.ucwNext := rfl
@[simp] theorem State.draw_comps (s : State) : s.draw.2.comps = s.comps := rfl
@[simp] theorem State.draw_flowTs (s : State) : s.draw.2.flowTs = s.flowTs := rfl
@[simp] theorem State.draw_sndEnded (s : State) : s.draw.2.sndEnded = s.sndEnded := rfl
@[simp] theorem State.drawMany_ucwNext (n : Nat) (s : State) : (State.drawMany n s).2.ucwNext = s.ucwNext := rfl
@[simp] theorem State.drawMany_comps (n : Nat) (s : State) : (State.drawMany n s).2.comps = s.comps := rfl
@[simp] theorem State.drawMany_flowTs (n : Nat) (s : State) : (State.drawMany n s).2.flowTs = s.flowTs := rfl
@[simp] theorem State.drawMany_sndEnded (n : Nat) (s : State) : (State.drawMany n s).2.sndEnded = s.sndEnded := rfl
@[simp] theorem State.tick_ucwNext (s : State) : s.tick.ucwNext = s.ucwNext := rfl
@[simp] theorem State.tick_comps (s : State) : s.tick.comps = s.comps := rfl
@[simp] theorem State.tick_flowTs (s : State) : s.tick.flowTs = s.flowTs := rfl
@[simp] theorem State.tick_sndEnded (s : State) : s.tick.sndEnded = s.sndEnded := rfl
@[simp] theorem State.draw_out (s : State) : s.draw.2.out = s.out := rfl
@[simp] theorem State.drawMany_out (n : Nat) (s : State) : (State.drawMany n s).2.out = s.out := rfl
@[simp] theorem State.tick_out (s : State) : s.tick.out = s.out := rfl
@[simp] theorem State.tick_freeCtr (s : State) : s.tick.freeCtr = s.freeCtr := rfl
@[simp] theorem State.draw_pending (s : State) : s.draw.2.pending = s.pending := rfl
@[simp] theorem State.drawMany_pending (n : Nat) (s : State) : (State.drawMany n s).2.pending = s.pending := rfl
@[simp] theorem State.tick_pending (s : State) : s.tick.pending = s.pending := rfl

/-! ### Reads after writes -/

theorem State.rd_wr (o v p : Nat) (s : State) : (s.wr o v).rd p = if p = o then v % 2 ^ 32 else s.rd p := by
  simp only [State.rd, State.wr, SMap.get_set]
  split <;> simp

@[simp] theorem State.rd_wr_same (o v : Nat) (s : State) : (s.wr o v).rd o = v % 2 ^ 32 := by simp [State.rd_wr]
theorem State.rd_wr_other {o p : Nat} (v : Nat) (s : State) (h : p ≠ o) : (s.wr o v).rd p = s.rd p := by
  simp [State.rd_wr, h]

/-- A register read looks only at the registers. -/
theorem State.rd_congr {s t : State} (h : t.regs = s.regs) (o : Nat) : t.rd o = s.rd o := by simp only [State.rd, h]

theorem State.rd_lt (s : State) (o : Nat) : s.rd o < 2 ^ 32 := (SMap.get resetWord s.regs o).isLt

theorem State.unit_setUnit (k j : Nat) (x : UnitSt) (s : State) : (s.setUnit k x).unit j = if j = k then x else s.unit j := by
  simp only [State.unit, State.setUnit, SMap.get_set]
@[simp] theorem State.unit_setUnit_same (k : Nat) (x : UnitSt) (s : State) : (s.setUnit k x).unit k = x := by simp [State.unit_setUnit]

theorem State.pool_setPool (k j : Nat) (x : PoolSt) (s : State) : (s.setPool k x).pool j = if j = k then x else s.pool j := by
  simp only [State.pool, State.setPool, SMap.get_set]
@[simp] theorem State.pool_setPool_same (k : Nat) (x : PoolSt) (s : State) : (s.setPool k x).pool k = x := by simp [State.pool_setPool]

theorem State.port_setPort (k j : Nat) (x : PortSt) (s : State) : (s.setPort k x).port j = if j = k then x else s.port j := by
  simp only [State.port, State.setPort, SMap.get_set]
@[simp] theorem State.port_setPort_same (k : Nat) (x : PortSt) (s : State) : (s.setPort k x).port k = x := by simp [State.port_setPort]

theorem State.src_setSrc (k j : Nat) (x : BellSrc) (s : State) : (s.setSrc k x).src j = if j = k then x else s.src j := by
  simp only [State.src, State.setSrc, SMap.get_set]
@[simp] theorem State.src_setSrc_same (k : Nat) (x : BellSrc) (s : State) : (s.setSrc k x).src k = x := by simp [State.src_setSrc]

theorem State.gate_setGate (k j : Nat) (x : GateSt) (s : State) : (s.setGate k x).gate j = if j = k then x else s.gate j := by
  simp only [State.gate, State.setGate, SMap.get_set]
@[simp] theorem State.gate_setGate_same (k : Nat) (x : GateSt) (s : State) : (s.setGate k x).gate k = x := by simp [State.gate_setGate]

theorem State.book_setBook (k j : Nat) (x : Booking) (s : State) : (s.setBook k x).book j = if j = k then x else s.book j := by
  simp only [State.book, State.setBook, SMap.get_set]
@[simp] theorem State.book_setBook_same (k : Nat) (x : Booking) (s : State) : (s.setBook k x).book k = x := by simp [State.book_setBook]

theorem State.queue_setQueue (k j : Nat) (x : QueueSt) (s : State) : (s.setQueue k x).queue j = if j = k then x else s.queue j := by
  simp only [State.queue, State.setQueue, SMap.get_set]
@[simp] theorem State.queue_setQueue_same (k : Nat) (x : QueueSt) (s : State) : (s.setQueue k x).queue k = x := by simp [State.queue_setQueue]

theorem State.layoutSt_setLayout (k j : Nat) (x : LayoutSt) (s : State) : (s.setLayout k x).layoutSt j = if j = k then x else s.layoutSt j := by
  simp only [State.layoutSt, State.setLayout, SMap.get_set]
@[simp] theorem State.layoutSt_setLayout_same (k : Nat) (x : LayoutSt) (s : State) : (s.setLayout k x).layoutSt k = x := by simp [State.layoutSt_setLayout]

theorem State.disp_setDisp (k j : Nat) (x : DispSt) (s : State) : (s.setDisp k x).disp j = if j = k then x else s.disp j := by
  simp only [State.disp, State.setDisp, SMap.get_set]
@[simp] theorem State.disp_setDisp_same (k : Nat) (x : DispSt) (s : State) : (s.setDisp k x).disp k = x := by simp [State.disp_setDisp]

theorem State.dec_setDec (k j : Nat) (x : DecSt) (s : State) : (s.setDec k x).dec j = if j = k then x else s.dec j := by
  simp only [State.dec, State.setDec, SMap.get_set]
@[simp] theorem State.dec_setDec_same (k : Nat) (x : DecSt) (s : State) : (s.setDec k x).dec k = x := by simp [State.dec_setDec]

theorem State.enc_setEnc (k j : Nat) (x : EncSt) (s : State) : (s.setEnc k x).enc j = if j = k then x else s.enc j := by
  simp only [State.enc, State.setEnc, SMap.get_set]
@[simp] theorem State.enc_setEnc_same (k : Nat) (x : EncSt) (s : State) : (s.setEnc k x).enc k = x := by simp [State.enc_setEnc]

theorem State.lt_setLt (k j : Nat) (x : LtSt) (s : State) : (s.setLt k x).lt j = if j = k then x else s.lt j := by
  simp only [State.lt, State.setLt, SMap.get_set]
@[simp] theorem State.lt_setLt_same (k : Nat) (x : LtSt) (s : State) : (s.setLt k x).lt k = x := by simp [State.lt_setLt]

theorem State.feed_setFeed (k j : Nat) (x : FeedSt) (s : State) : (s.setFeed k x).feed j = if j = k then x else s.feed j := by
  simp only [State.feed, State.setFeed, SMap.get_set]
@[simp] theorem State.feed_setFeed_same (k : Nat) (x : FeedSt) (s : State) : (s.setFeed k x).feed k = x := by simp [State.feed_setFeed]
@[simp] theorem State.unit_wr (o v k : Nat) (s : State) : (s.wr o v).unit k = s.unit k := rfl
@[simp] theorem State.pool_wr (o v k : Nat) (s : State) : (s.wr o v).pool k = s.pool k := rfl
@[simp] theorem State.port_wr (o v k : Nat) (s : State) : (s.wr o v).port k = s.port k := rfl
@[simp] theorem State.src_wr (o v k : Nat) (s : State) : (s.wr o v).src k = s.src k := rfl
@[simp] theorem State.gate_wr (o v k : Nat) (s : State) : (s.wr o v).gate k = s.gate k := rfl
@[simp] theorem State.book_wr (o v k : Nat) (s : State) : (s.wr o v).book k = s.book k := rfl
@[simp] theorem State.queue_wr (o v k : Nat) (s : State) : (s.wr o v).queue k = s.queue k := rfl
@[simp] theorem State.layoutSt_wr (o v k : Nat) (s : State) : (s.wr o v).layoutSt k = s.layoutSt k := rfl
@[simp] theorem State.disp_wr (o v k : Nat) (s : State) : (s.wr o v).disp k = s.disp k := rfl
@[simp] theorem State.dec_wr (o v k : Nat) (s : State) : (s.wr o v).dec k = s.dec k := rfl
@[simp] theorem State.enc_wr (o v k : Nat) (s : State) : (s.wr o v).enc k = s.enc k := rfl
@[simp] theorem State.lt_wr (o v k : Nat) (s : State) : (s.wr o v).lt k = s.lt k := rfl
@[simp] theorem State.feed_wr (o v k : Nat) (s : State) : (s.wr o v).feed k = s.feed k := rfl

end Sys2Proof.Machine
end

