-- ==== Sys2Proof/Laws/Kept.lean ====
section
/-! SUPPORT. What every operation of the model keeps of the state it starts from: the canonical forms, the queue, the
bounds of the Watch's tables, one claim at a time for each bell target, the fuses and the seal. One relation, closed under
composition, so that each operation needs one lemma. -/

namespace Sys2Proof.Machine

/-- What `t` keeps of `s`. With `x` the two things that only one command each may change, the fuses and the broken
seal, are left out. -/
structure State.Kept (x : Bool) (s t : State) : Prop where
  mem : Memory.wf s.mem = true → Memory.wf t.mem = true
  regs : SMap.wf resetWord s.regs = true → SMap.wf resetWord t.regs = true
  pending : t.pending = s.pending
  free : s.freeCtr ≤ t.freeCtr
  arc : s.ident.bootArc ≤ t.ident.bootArc ∧ { t.ident with bootArc := 0 } = { s.ident with bootArc := 0 }
  fuses : x = false → t.ident.bootArc = s.ident.bootArc
  broken : x = false → s.boot.broken = true → t.boot.broken = true
  log : s.watch.log.length ≤ 256 → t.watch.log.length ≤ 256
  active : s.watch.active.length ≤ 64 → t.watch.active.length ≤ 64
  bell : s.OneClaim → t.OneClaim

namespace State.Kept

theorem refl {x : Bool} (s : State) : s.Kept x s :=
  ⟨id, id, rfl, le_refl _, ⟨le_refl _, rfl⟩, fun _ => rfl, fun _ => id, id, id, id⟩

theorem trans {x : Bool} {s t u : State} (h : s.Kept x t) (k : t.Kept x u) : s.Kept x u :=
  ⟨fun a => k.mem (h.mem a), fun a => k.regs (h.regs a), k.pending.trans h.pending, le_trans h.free k.free,
    ⟨le_trans h.arc.1 k.arc.1, k.arc.2.trans h.arc.2⟩, fun a => (k.fuses a).trans (h.fuses a),
    fun a b => k.broken a (h.broken a b), fun a => k.log (h.log a),
    fun a => k.active (h.active a), fun a => k.bell (h.bell a)⟩

/-- A state that differs only in fields none of this is about. -/
theorem same {x : Bool} {s0 s t : State} (h : s0.Kept x s) (h1 : t.regs = s.regs) (h2 : t.mem = s.mem) (h3 : t.pending = s.pending)
    (h4 : t.freeCtr = s.freeCtr) (h5 : t.ident = s.ident) (h6 : t.boot.broken = s.boot.broken)
    (h7 : t.watch.log = s.watch.log) (h8 : t.watch.active = s.watch.active) (h9 : t.bell = s.bell) : s0.Kept x t :=
  h.trans ⟨by rw [h2]; exact id, by rw [h1]; exact id, h3, by rw [h4], ⟨by rw [h5], by rw [h5]⟩, fun _ => by rw [h5], fun _ => by rw [h6]; exact id,
    by rw [h7]; exact id, by rw [h8]; exact id, by simp only [State.OneClaim, State.src, h9]; exact id⟩

/-- The same with registers written in canonical form. -/
theorem sameR {x : Bool} {s0 s t : State} (h : s0.Kept x s) (h1 : SMap.wf resetWord s.regs = true → SMap.wf resetWord t.regs = true)
    (h2 : t.mem = s.mem) (h3 : t.pending = s.pending)
    (h4 : t.freeCtr = s.freeCtr) (h5 : t.ident = s.ident) (h6 : t.boot.broken = s.boot.broken)
    (h7 : t.watch.log = s.watch.log) (h8 : t.watch.active = s.watch.active) (h9 : t.bell = s.bell) : s0.Kept x t :=
  h.trans ⟨by rw [h2]; exact id, h1, h3, by rw [h4], ⟨by rw [h5], by rw [h5]⟩, fun _ => by rw [h5], fun _ => by rw [h6]; exact id,
    by rw [h7]; exact id, by rw [h8]; exact id, by simp only [State.OneClaim, State.src, h9]; exact id⟩

/-- The same with memory written in canonical form. -/
theorem sameM {x : Bool} {s0 s t : State} (h : s0.Kept x s) (h1 : t.regs = s.regs) (h2 : Memory.wf s.mem = true → Memory.wf t.mem = true)
    (h3 : t.pending = s.pending) (h4 : t.freeCtr = s.freeCtr) (h5 : t.ident = s.ident) (h6 : t.boot.broken = s.boot.broken)
    (h7 : t.watch.log = s.watch.log) (h8 : t.watch.active = s.watch.active) (h9 : t.bell = s.bell) : s0.Kept x t :=
  h.trans ⟨h2, by rw [h1]; exact id, h3, by rw [h4], ⟨by rw [h5], by rw [h5]⟩, fun _ => by rw [h5], fun _ => by rw [h6]; exact id,
    by rw [h7]; exact id, by rw [h8]; exact id, by simp only [State.OneClaim, State.src, h9]; exact id⟩

/-- A claim only ever taken away, or moved to no other target. -/
theorem sameB {x : Bool} {s0 s t : State} (h : s0.Kept x s) (h1 : t.regs = s.regs) (h2 : t.mem = s.mem) (h3 : t.pending = s.pending)
    (h4 : t.freeCtr = s.freeCtr) (h5 : t.ident = s.ident) (h6 : t.boot.broken = s.boot.broken)
    (h7 : t.watch.log = s.watch.log) (h8 : t.watch.active = s.watch.active)
    (h9 : s.OneClaim → t.OneClaim) : s0.Kept x t :=
  h.trans ⟨by rw [h2]; exact id, by rw [h1]; exact id, h3, by rw [h4], ⟨by rw [h5], by rw [h5]⟩, fun _ => by rw [h5], fun _ => by rw [h6]; exact id,
    by rw [h7]; exact id, by rw [h8]; exact id, h9⟩

/-- Only the Watch differs, its tables within bounds. -/
theorem sameW {x : Bool} {s0 s t : State} (h : s0.Kept x s) (h1 : t.regs = s.regs) (h2 : t.mem = s.mem) (h3 : t.pending = s.pending)
    (h4 : t.freeCtr = s.freeCtr) (h5 : t.ident = s.ident) (h6 : t.boot.broken = s.boot.broken)
    (h7 : s.watch.log.length ≤ 256 → t.watch.log.length ≤ 256)
    (h8 : s.watch.active.length ≤ 64 → t.watch.active.length ≤ 64) (h9 : t.bell = s.bell) : s0.Kept x t :=
  h.trans ⟨by rw [h2]; exact id, by rw [h1]; exact id, h3, by rw [h4], ⟨by rw [h5], by rw [h5]⟩, fun _ => by rw [h5], fun _ => by rw [h6]; exact id,
    h7, h8, by simp only [State.OneClaim, State.src, h9]; exact id⟩

/-- Any update that leaves registers, memory, identity, bell, queue and free values as they were, and the seal and the
Watch's tables. -/
theorem lit {x : Bool} {s0 s : State} {boot_ : BootSt} {watch_ : WatchSt}
    {staged_ : SMap Word} {hold_ : SMap Word} {snaps_ : SMap Word} {counts_ : SMap Nat} {spad_ : SMap Nat} {cs_ : SMap Nat} {tide_ : TideSt} {units_ : SMap UnitSt} {queues_ : SMap QueueSt} {books_ : SMap Booking} {gates_ : SMap GateSt} {memsys_ : MemSt} {ports_ : SMap PortSt} {power_ : PowerSt} {pools_ : SMap PoolSt} {host_ : HostSt} {storms_ : List Storm} {stormLate_ : Bool} {stormText_ : List StormFrag} {disps_ : SMap DispSt} {slate_ : List Nat} {picSent_ : List (Nat × Nat)} {picDone_ : List (Nat × Nat)} {layouts_ : SMap LayoutSt} {i2cOfs_ : Nat} {i2cWait_ : Bool} {lts_ : SMap LtSt} {ltRem_ : Nat} {autostart_ : List (Nat × Nat)} {metaSet_ : Bool} {police_ : SMap (Nat × Nat)} {rx_ : SMap RxSt} {pes_ : SMap PesSt} {flowSeq_ : SMap Nat} {feeds_ : SMap FeedSt} {pathLost_ : List Nat} {rmpKept_ : SMap (List RmpResp)} {sndCfg_ : Nat} {sndLfsr_ : Nat} {sndBased_ : Bool} {decs_ : SMap DecSt} {quays_ : SMap (List QuayPic)} {encs_ : SMap EncSt} {windows_ : SMap (List (Nat × Nat × Nat))} {ctxDie_ : SMap Nat} {ucwNext_ : List (Nat × Bool × List Nat)} {comps_ : SMap (List CompRec)} {flowTs_ : SMap FlowTs} {sndEnded_ : Nat} {out_ : List Out}
    (h : s0.Kept x s) (h6 : boot_.broken = s.boot.broken) (h7 : watch_.log = s.watch.log)
    (h8 : watch_.active = s.watch.active) : s0.Kept x { s with boot := boot_, watch := watch_, staged := staged_, hold := hold_, snaps := snaps_, counts := counts_, spad := spad_, cs := cs_, tide := tide_, units := units_, queues := queues_, books := books_, gates := gates_, memsys := memsys_, ports := ports_, power := power_, pools := pools_, host := host_, storms := storms_, stormLate := stormLate_, stormText := stormText_, disps := disps_, slate := slate_, picSent := picSent_, picDone := picDone_, layouts := layouts_, i2cOfs := i2cOfs_, i2cWait := i2cWait_, lts := lts_, ltRem := ltRem_, autostart := autostart_, metaSet := metaSet_, police := police_, rx := rx_, pes := pes_, flowSeq := flowSeq_, feeds := feeds_, pathLost := pathLost_, rmpKept := rmpKept_, sndCfg := sndCfg_, sndLfsr := sndLfsr_, sndBased := sndBased_, decs := decs_, quays := quays_, encs := encs_, windows := windows_, ctxDie := ctxDie_, ucwNext := ucwNext_, comps := comps_, flowTs := flowTs_, sndEnded := sndEnded_, out := out_ } :=
  same h rfl rfl rfl rfl rfl h6 h7 h8 rfl

/-- Only the Watch differs. -/
theorem watch {x : Bool} {s0 s : State} {w : WatchSt} (h : s0.Kept x s)
    (h7 : s.watch.log.length ≤ 256 → w.log.length ≤ 256) (h8 : s.watch.active.length ≤ 64 → w.active.length ≤ 64) :
    s0.Kept x { s with watch := w } :=
  sameW h rfl rfl rfl rfl rfl rfl h7 h8 rfl

/-- Only start-up state differs, and the seal is no less broken. -/
theorem boot {x : Bool} {s0 s : State} {b : BootSt} (h : s0.Kept x s) (hb : s.boot.broken = true → b.broken = true) :
    s0.Kept x { s with boot := b } :=
  h.trans ⟨id, id, rfl, le_refl _, ⟨le_refl _, rfl⟩, fun _ => rfl, fun _ => hb, id, id, id⟩

/-- Name a state reached on the way. -/
theorem cut {x : Bool} {s0 s t : State} {P : Prop} (_ : s0.Kept x s) (h : s0.Kept x t) (k : s0.Kept x t → P) : P := k h

/-- Name a value with the state reached beside it. -/
theorem cut2 {α : Type} {x : Bool} {s0 s : State} {t : α × State} {P : Prop} (_ : s0.Kept x s) (h : s0.Kept x t.2)
    (k : s0.Kept x t.2 → P) : P := k h

theorem cut3 {α β : Type} {x : Bool} {s0 s : State} {t : α × β × State} {P : Prop} (_ : s0.Kept x s)
    (h : s0.Kept x t.2.2) (k : s0.Kept x t.2.2 → P) : P := k h

theorem cut4 {α β γ : Type} {x : Bool} {s0 s : State} {t : α × β × γ × State} {P : Prop} (_ : s0.Kept x s)
    (h : s0.Kept x t.2.2.2) (k : s0.Kept x t.2.2.2 → P) : P := k h

/-- The state of a pair that is known. -/
theorem pair {α : Type} {x : Bool} {s0 t : State} {v : α × State} {a : α} (e : v = (a, t)) (h : s0.Kept x v.2) :
    s0.Kept x t := by rw [e] at h; exact h

theorem triple {α β : Type} {x : Bool} {s0 t : State} {v : α × β × State} {a : α} {b : β} (e : v = (a, b, t))
    (h : s0.Kept x v.2.2) : s0.Kept x t := by rw [e] at h; exact h

theorem foldl {α : Type} {x : Bool} {s0 : State} (f : State → α → State) (l : List α)
    (hf : ∀ s a, s0.Kept x s → s0.Kept x (f s a)) : ∀ s, s0.Kept x s → s0.Kept x (l.foldl f s) := by
  induction l with
  | nil => exact fun s h => h
  | cons a l ih => exact fun s h => ih _ (hf s a h)

theorem foldl2 {α β : Type} {x : Bool} {s0 : State} (f : β × State → α → β × State) (l : List α)
    (hf : ∀ s a, s0.Kept x s.2 → s0.Kept x (f s a).2) : ∀ s, s0.Kept x s.2 → s0.Kept x (l.foldl f s).2 := by
  induction l with
  | nil => exact fun s h => h
  | cons a l ih => exact fun s h => ih _ (hf s a h)

theorem foldl3 {α β γ : Type} {x : Bool} {s0 : State} (f : β × γ × State → α → β × γ × State) (l : List α)
    (hf : ∀ s a, s0.Kept x s.2.2 → s0.Kept x (f s a).2.2) : ∀ s, s0.Kept x s.2.2 → s0.Kept x (l.foldl f s).2.2 := by
  induction l with
  | nil => exact fun s h => h
  | cons a l ih => exact fun s h => ih _ (hf s a h)

theorem mk2 {α : Type} {x : Bool} {s0 t : State} {a : α} (h : s0.Kept x t) : s0.Kept x (a, t).2 := h

theorem cmd {γ : Type} {x : Bool} {s0 s : State} {c : γ} {f : State → Nat × List Nat × State} (h : s0.Kept x (f s).2.2) :
    s0.Kept x ((c, f).2 s).2.2 := h

theorem getD_some {x : Bool} {s0 s t : State} (h : s0.Kept x t) : s0.Kept x ((some t).getD s) := h
theorem getD_none {x : Bool} {s0 s : State} (h : s0.Kept x s) : s0.Kept x ((none : Option State).getD s) := h

end State.Kept

end Sys2Proof.Machine
end

