-- ==== Sys2Proof/Laws/KeptOps.lean ====
section
/-! SUPPORT. What the operations of Machine/Ops.lean keep (Laws/Kept.lean), one lemma each. -/

namespace Sys2Proof.Machine

theorem State.wr_kept {kx : Bool} {k0 : State} (o v : Nat) (s : State) (hs : k0.Kept kx s) :
    k0.Kept kx (State.wr o v s) :=
  State.Kept.sameR hs (SMap.wf_set o _) rfl rfl rfl rfl rfl rfl rfl rfl

theorem State.stage_kept {kx : Bool} {k0 : State} (o v : Nat) (s : State) (hs : k0.Kept kx s) :
    k0.Kept kx (State.stage o v s) := by
  delta State.stage; beta_reduce
  repeat' (first
   | with_reducible assumption
   | fail_if_no_progress (with_reducible refine State.Kept.lit ?_ rfl rfl rfl))

theorem State.wrFld_kept {kx : Bool} {k0 : State} (o hi lo v : Nat) (s : State) (hs : k0.Kept kx s) :
    k0.Kept kx (State.wrFld o hi lo v s) := by
  delta State.wrFld; beta_reduce
  repeat' (first
   | with_reducible assumption
   | with_reducible apply State.wr_kept)

theorem State.setBit_kept {kx : Bool} {k0 : State} (o b : Nat) (s : State) (hs : k0.Kept kx s) :
    k0.Kept kx (State.setBit o b s) := by
  delta State.setBit; beta_reduce
  repeat' (first
   | with_reducible assumption
   | with_reducible apply State.wrFld_kept)

theorem State.clrBit_kept {kx : Bool} {k0 : State} (o b : Nat) (s : State) (hs : k0.Kept kx s) :
    k0.Kept kx (State.clrBit o b s) := by
  delta State.clrBit; beta_reduce
  repeat' (first
   | with_reducible assumption
   | with_reducible apply State.wrFld_kept)

theorem State.putBit_kept {kx : Bool} {k0 : State} (o b : Nat) (v : Bool) (s : State) (hs : k0.Kept kx s) :
    k0.Kept kx (State.putBit o b v s) := by
  delta State.putBit; beta_reduce
  repeat' (first
   | with_reducible assumption
   | with_reducible apply State.wrFld_kept)

theorem State.wr40_kept {kx : Bool} {k0 : State} (o v : Nat) (s : State) (hs : k0.Kept kx s) :
    k0.Kept kx (State.wr40 o v s) := by
  delta State.wr40; beta_reduce
  repeat' (first
   | with_reducible assumption
   | with_reducible apply State.wr_kept)

theorem State.wr64_kept {kx : Bool} {k0 : State} (o v : Nat) (s : State) (hs : k0.Kept kx s) :
    k0.Kept kx (State.wr64 o v s) := by
  delta State.wr64; beta_reduce
  repeat' (first
   | with_reducible assumption
   | with_reducible apply State.wr_kept)

theorem State.inc_kept {kx : Bool} {k0 : State} (o : Nat) (s : State) (hs : k0.Kept kx s) :
    k0.Kept kx (State.inc o s) := by
  delta State.inc; beta_reduce
  repeat' (first
   | with_reducible assumption
   | with_reducible apply State.wr_kept)

theorem State.bump_kept {kx : Bool} {k0 : State} (o n : Nat) (s : State) (hs : k0.Kept kx s) :
    k0.Kept kx (State.bump o n s) := by
  delta State.bump; beta_reduce
  repeat' (first
   | with_reducible assumption
   | fail_if_no_progress (with_reducible refine State.Kept.lit ?_ rfl rfl rfl))

theorem State.bumpMax_kept {kx : Bool} {k0 : State} (o n : Nat) (s : State) (hs : k0.Kept kx s) :
    k0.Kept kx (State.bumpMax o n s) := by
  delta State.bumpMax; beta_reduce
  repeat' (first
   | with_reducible assumption
   | fail_if_no_progress (with_reducible refine State.Kept.lit ?_ rfl rfl rfl))

theorem State.emit_kept {kx : Bool} {k0 : State} (x : Out) (s : State) (hs : k0.Kept kx s) :
    k0.Kept kx (State.emit x s) := by
  delta State.emit; beta_reduce
  repeat' (first
   | with_reducible assumption
   | fail_if_no_progress (with_reducible refine State.Kept.lit ?_ rfl rfl rfl))

theorem State.draw_kept {kx : Bool} {k0 : State} (s : State) (hs : k0.Kept kx s) : k0.Kept kx (State.draw s).2 :=
  hs.trans ⟨id, id, rfl, Nat.le_succ _, ⟨le_refl _, rfl⟩, fun _ => rfl, fun _ => id, id, id, id⟩

theorem State.setUnit_kept {kx : Bool} {k0 : State} (u : Nat) (x : UnitSt) (s : State) (hs : k0.Kept kx s) :
    k0.Kept kx (State.setUnit u x s) := by
  delta State.setUnit; beta_reduce
  repeat' (first
   | with_reducible assumption
   | fail_if_no_progress (with_reducible refine State.Kept.lit ?_ rfl rfl rfl))

theorem State.setPool_kept {kx : Bool} {k0 : State} (p : Nat) (x : PoolSt) (s : State) (hs : k0.Kept kx s) :
    k0.Kept kx (State.setPool p x s) := by
  delta State.setPool; beta_reduce
  repeat' (first
   | with_reducible assumption
   | fail_if_no_progress (with_reducible refine State.Kept.lit ?_ rfl rfl rfl))

theorem State.setPort_kept {kx : Bool} {k0 : State} (p : Nat) (x : PortSt) (s : State) (hs : k0.Kept kx s) :
    k0.Kept kx (State.setPort p x s) := by
  delta State.setPort; beta_reduce
  repeat' (first
   | with_reducible assumption
   | fail_if_no_progress (with_reducible refine State.Kept.lit ?_ rfl rfl rfl))

/-- A source set without a new claim. -/
theorem State.setSrc_kept {kx : Bool} {k0 : State} (n : Nat) (x : BellSrc) (s : State)
    (hx : x.active = true → (s.src n).active = true ∧ x.claimer = (s.src n).claimer) (hs : k0.Kept kx s) :
    k0.Kept kx (State.setSrc n x s) := by
  refine State.Kept.sameB hs rfl rfl rfl rfl rfl rfl rfl rfl (fun h j k => ?_)
  simp only [State.src_setSrc]
  intro hj hk e
  by_cases h1 : j = n <;> by_cases h2 : k = n <;> simp only [h1, h2, if_true, if_false] at hj hk e ⊢
  · exact h n k (hx hj).1 hk ((hx hj).2 ▸ e)
  · exact absurd (h j n hj (hx hk).1 ((hx hk).2 ▸ e)) h1
  · exact h j k hj hk e

theorem State.setGate_kept {kx : Bool} {k0 : State} (k : Nat) (x : GateSt) (s : State) (hs : k0.Kept kx s) :
    k0.Kept kx (State.setGate k x s) := by
  delta State.setGate; beta_reduce
  repeat' (first
   | with_reducible assumption
   | fail_if_no_progress (with_reducible refine State.Kept.lit ?_ rfl rfl rfl))

theorem State.setBook_kept {kx : Bool} {k0 : State} (c : Nat) (x : Booking) (s : State) (hs : k0.Kept kx s) :
    k0.Kept kx (State.setBook c x s) := by
  delta State.setBook; beta_reduce
  repeat' (first
   | with_reducible assumption
   | fail_if_no_progress (with_reducible refine State.Kept.lit ?_ rfl rfl rfl))

theorem State.each_kept {kx : Bool} {k0 : State} {α : Type} (l : List α) (f : α → State → State) (s : State)
    (hf : ∀ a s, k0.Kept kx s → k0.Kept kx (f a s)) (hs : k0.Kept kx s) : k0.Kept kx (State.each l f s) :=
  State.Kept.foldl _ l (fun s a => hf a s) s hs

theorem State.whenB_kept {kx : Bool} {k0 : State} (c : Bool) (f : State → State) (s : State)
    (hf : ∀ s, k0.Kept kx s → k0.Kept kx (f s)) (hs : k0.Kept kx s) : k0.Kept kx (State.whenB c f s) := by
  unfold State.whenB; split
  · exact hf s hs
  · exact hs

theorem State.drawMany_kept {kx : Bool} {k0 : State} (n : Nat) (s : State) (hs : k0.Kept kx s) :
    k0.Kept kx (State.drawMany n s).2 :=
  hs.trans ⟨id, id, rfl, Nat.le_add_right _ _, ⟨le_refl _, rfl⟩, fun _ => rfl, fun _ => id, id, id, id⟩

theorem State.sndAdd_kept {kx : Bool} {k0 : State} (b n : Nat) (s : State) (hs : k0.Kept kx s) :
    k0.Kept kx (State.sndAdd b n s) := by
  delta State.sndAdd; beta_reduce
  repeat' (first
   | with_reducible assumption
   | (extract_lets -merge -underBinder +onlyGivenNames ky; first | (refine State.Kept.cut ‹State.Kept _ _ _› (t := ky) ?_ ?_; subst ky; rotate_left; intro hx; clear_value ky) | clear_value ky)
   | with_reducible apply State.setBit_kept
   | with_reducible apply State.wr64_kept
   | split)

theorem State.sndCount_kept {kx : Bool} {k0 : State} (src ev n : Nat) (s : State) (hs : k0.Kept kx s) :
    k0.Kept kx (State.sndCount src ev n s) := by
  delta State.sndCount; beta_reduce
  repeat' (first
   | with_reducible assumption
   | with_reducible apply State.each_kept
   | with_reducible apply State.sndAdd_kept
   | intro hx
   | split)

theorem WatchSt.logReport_log (w : WatchSt) (a b c d e : Nat) (h : w.log.length ≤ 256) :
    (w.logReport a b c d e).log.length ≤ 256 := by
  unfold WatchSt.logReport
  split
  · split
    · simp_all
    · simp only [List.length_take]; omega
  · simp

@[simp] theorem WatchSt.logReport_active (w : WatchSt) (a b c d e : Nat) : (w.logReport a b c d e).active = w.active := by
  unfold WatchSt.logReport; split
  · split <;> rfl
  · rfl

theorem dropFirst_length {α : Type} (p : α → Bool) (l : List α) (h : l.any p = true) :
    (dropFirst p l).length + 1 = l.length := by
  induction l with
  | nil => simp at h
  | cons a l ih =>
    simp only [dropFirst]
    split
    · rfl
    · simp only [List.any_cons, Bool.or_eq_true] at h
      simp only [List.length_cons, ih (h.resolve_left ‹_›)]

@[simp] theorem WatchSt.enter_log (w : WatchSt) (c a : Nat) : (w.enter c a).log = w.log := by
  unfold WatchSt.enter
  dsimp only
  split
  · rfl
  · split
    · rfl
    · split
      · rfl
      · split <;> rfl

theorem WatchSt.enter_active (w : WatchSt) (c a : Nat) (h : w.active.length ≤ 64) : (w.enter c a).active.length ≤ 64 := by
  unfold WatchSt.enter
  dsimp only
  split
  · exact h
  · split
    · simp only [List.length_append, List.length_cons, List.length_nil]; omega
    · split
      · simp only [List.length_append, List.length_cons, List.length_nil, dropFirst_length _ _ ‹_›]; exact h
      · split
        · simp only [List.length_append, List.length_cons, List.length_nil]
          rw [dropFirst_length _ _ (And.right ‹_›)]; exact h
        · exact h

@[simp] theorem WatchSt.capture_log (w : WatchSt) (c : Capture) : (w.capture c).log = w.log := by
  unfold WatchSt.capture; split <;> rfl

@[simp] theorem WatchSt.capture_active (w : WatchSt) (c : Capture) : (w.capture c).active = w.active := by
  unfold WatchSt.capture; split <;> rfl

theorem State.dropSnaps_kept {kx : Bool} {k0 : State} (o : Nat) (s : State) (hs : k0.Kept kx s) :
    k0.Kept kx (State.dropSnaps o s) := by
  delta State.dropSnaps; beta_reduce
  repeat' (first
   | with_reducible assumption
   | fail_if_no_progress (with_reducible refine State.Kept.lit ?_ rfl rfl rfl))

theorem State.committed_kept {kx : Bool} {k0 : State} (o : Nat) (s : State) (hs : k0.Kept kx s) :
    k0.Kept kx (State.committed o s) := by
  delta State.committed; beta_reduce
  repeat' (first
   | with_reducible assumption
   | with_reducible apply State.dropSnaps_kept
   | fail_if_no_progress (with_reducible refine State.Kept.lit ?_ rfl rfl rfl))

theorem State.runtimeChanged_kept {kx : Bool} {k0 : State} (img : Bool) (s : State) (hs : k0.Kept kx s) :
    k0.Kept kx (State.runtimeChanged img s) := by
  delta State.runtimeChanged; beta_reduce
  repeat' (first
   | with_reducible assumption
   | with_reducible apply State.setBit_kept
   | fail_if_no_progress (with_reducible refine State.Kept.lit ?_ rfl rfl rfl)
   | intro hx
   | (refine State.Kept.pair (by with_reducible assumption) ?_)
   | (refine State.Kept.triple (by with_reducible assumption) ?_)
   | split)

theorem State.report_kept {kx : Bool} {k0 : State} (code agent access addr : Nat) (s : State) (hs : k0.Kept kx s) :
    k0.Kept kx (State.report code agent access addr s) := by
  unfold State.report
  split
  · exact hs
  · dsimp only
    have hw : ∀ c : Bool, s.watch.log.length ≤ 256 →
        (if c = true then s.watch else s.watch.logReport code agent access s.reportTide s.nsInTide).log.length ≤ 256 := by
      intro c h; split
      · exact h
      · exact WatchSt.logReport_log _ _ _ _ _ _ h
    have ha : ∀ c : Bool, s.watch.active.length ≤ 64 →
        (if c = true then s.watch else s.watch.logReport code agent access s.reportTide s.nsInTide).active.length ≤ 64 := by
      intro c h; split <;> simpa using h
    have hw := hw (decide (code / 4096 = 2))
    have ha := ha (decide (code / 4096 = 2))
    simp only [decide_eq_true_eq] at hw ha
    generalize (if code / 4096 = 2 then s.watch else s.watch.logReport code agent access s.reportTide s.nsInTide) = w at hw ha ⊢
    split
    · exact State.Kept.sameW hs rfl rfl rfl rfl rfl rfl hw ha rfl
    · generalize e : (if 4 ≤ code / 4096 then _ else _ : WatchSt) = w1
      have hw1 : s.watch.log.length ≤ 256 → w1.log.length ≤ 256 := by
        intro h; subst e; split <;> simpa using hw h
      have ha1 : s.watch.active.length ≤ 64 → w1.active.length ≤ 64 := by
        intro h; subst e; split
        · exact WatchSt.enter_active _ _ _ (by simpa using ha h)
        · simpa using ha h
      clear e
      generalize e : (if code / 4096 = 6 ∧ (!w1.safeAsked) = true then _ else _ : WatchSt) = w2
      have hw2 : s.watch.log.length ≤ 256 → w2.log.length ≤ 256 := by
        intro h; subst e; split <;> exact hw1 h
      have ha2 : s.watch.active.length ≤ 64 → w2.active.length ≤ 64 := by
        intro h; subst e; split <;> exact ha1 h
      clear e
      have h0 : k0.Kept kx { s with watch := w2 } := State.Kept.sameW hs rfl rfl rfl rfl rfl rfl hw2 ha2 rfl
      have h1 := State.whenB_kept w.fe.isNone (State.setBit Reg.WATCH_EVENT 6) _ (fun s h => State.setBit_kept _ _ s h)
        (State.setBit_kept Reg.WATCH_EVENT (classEvent (code / 4096)) _ h0)
      split
      · exact State.bump_kept _ _ _ h1
      · exact h1

theorem State.usage_kept {kx : Bool} {k0 : State} (nibble agent access addr : Nat) (s : State) (hs : k0.Kept kx s) :
    k0.Kept kx (State.usage nibble agent access addr s) := by
  delta State.usage; beta_reduce
  repeat' (first
   | with_reducible assumption
   | with_reducible apply State.report_kept)

theorem State.usageReg_kept {kx : Bool} {k0 : State} (agent o : Nat) (s : State) (hs : k0.Kept kx s) :
    k0.Kept kx (State.usageReg agent o s) := by
  delta State.usageReg; beta_reduce
  exact (State.usage_kept _ _ _ _ _ hs).watch id id

theorem WatchSt.leave_active (w : WatchSt) (p : ActiveEnt → Bool) : (w.leave p).active.length ≤ w.active.length := by
  unfold WatchSt.leave; exact List.length_filter_le _ _

theorem State.setting_kept {kx : Bool} {k0 : State} (o : Nat) (f : State → State) (s : State) (hf : ∀ a0, k0.Kept kx a0 → k0.Kept kx (f a0)) (hs : k0.Kept kx s) :
    k0.Kept kx (State.setting o f s) := by
  delta State.setting; beta_reduce
  repeat' (first
   | with_reducible assumption
   | with_reducible apply State.runtimeChanged_kept
   | with_reducible apply hf
   | fail_if_no_progress (with_reducible refine State.Kept.lit ?_ rfl rfl rfl)
   | intro hx
   | (refine State.Kept.pair (by with_reducible assumption) ?_)
   | (refine State.Kept.triple (by with_reducible assumption) ?_)
   | split)

theorem State.endCond_kept {kx : Bool} {k0 : State} (code agent : Nat) (s : State) (hs : k0.Kept kx s) :
    k0.Kept kx (State.endCond code agent s) :=
  State.Kept.sameW hs rfl rfl rfl rfl rfl rfl id (fun h => le_trans (WatchSt.leave_active _ _) h) rfl

theorem State.cond_kept {kx : Bool} {k0 : State} (holds : Bool) (code agent : Nat) (s : State) (hs : k0.Kept kx s) :
    k0.Kept kx (State.cond holds code agent s) := by
  delta State.cond; beta_reduce
  repeat' (first
   | with_reducible assumption
   | with_reducible apply State.endCond_kept
   | with_reducible apply State.report_kept
   | split)

theorem Memory.wf_write (m : Memory) (a v : Nat) (h : Memory.wf m = true) : Memory.wf (Memory.write m a v) = true :=
  SMap.wf_set a _ h

theorem Memory.wf_writeN (m : Memory) (a n v : Nat) (h : Memory.wf m = true) : Memory.wf (Memory.writeN m a n v) = true := by
  induction n generalizing m a v with
  | zero => exact h
  | succ n ih => exact ih _ _ _ (Memory.wf_write m a v h)

theorem Memory.wf_put (m : Memory) (a : Nat) (l : List Nat) (h : Memory.wf m = true) : Memory.wf (Memory.put m a l) = true := by
  induction l generalizing m a with
  | nil => exact h
  | cons b l ih => exact ih _ _ (Memory.wf_write m a b h)

theorem State.outboundErr_kept {kx : Bool} {k0 : State} (s : State) (hs : k0.Kept kx s) :
    k0.Kept kx (State.outboundErr s) := by
  delta State.outboundErr; beta_reduce
  repeat' (first
   | with_reducible assumption
   | with_reducible apply State.bump_kept
   | with_reducible apply State.setBit_kept
   | fail_if_no_progress (with_reducible refine State.Kept.lit ?_ rfl rfl rfl)
   | intro hx
   | (refine State.Kept.pair (by with_reducible assumption) ?_)
   | (refine State.Kept.triple (by with_reducible assumption) ?_)
   | split)

theorem State.hostWrite_kept {kx : Bool} {k0 : State} (a : Nat) (bs : List Nat) (s : State) (hs : k0.Kept kx s) :
    k0.Kept kx (State.hostWrite a bs s) := by
  delta State.hostWrite; beta_reduce
  repeat' (first
   | with_reducible assumption
   | with_reducible apply State.emit_kept)

theorem State.hostRead_kept {kx : Bool} {k0 : State} (n : Nat) (s : State) (hs : k0.Kept kx s) :
    k0.Kept kx (State.hostRead n s).2 := by
  delta State.hostRead; beta_reduce
  repeat' (first
   | with_reducible assumption
   | (extract_lets -merge -underBinder +onlyGivenNames ky; refine State.Kept.cut2 ‹State.Kept _ _ _› (t := ky) ?_ ?_; subst ky; rotate_left; intro hx; clear_value ky)
   | with_reducible apply State.drawMany_kept)

theorem State.wrM_kept {kx : Bool} {k0 : State} (a n v : Nat) (s : State) (hs : k0.Kept kx s) :
    k0.Kept kx (State.wrM a n v s) :=
  State.Kept.sameM hs rfl (Memory.wf_writeN _ a n v) rfl rfl rfl rfl rfl rfl rfl

theorem State.putM_kept {kx : Bool} {k0 : State} (a : Nat) (bs : List Nat) (s : State) (hs : k0.Kept kx s) :
    k0.Kept kx (State.putM a bs s) :=
  State.Kept.sameM hs rfl (Memory.wf_put _ a bs) rfl rfl rfl rfl rfl rfl rfl

theorem State.unpoison_kept {kx : Bool} {k0 : State} (line : Nat) (s : State) (hs : k0.Kept kx s) :
    k0.Kept kx (State.unpoison line s) := by
  delta State.unpoison; beta_reduce
  repeat' (first
   | with_reducible assumption
   | with_reducible apply State.each_kept
   | with_reducible apply State.setPort_kept
   | intro hx)

theorem State.memErr_kept {kx : Bool} {k0 : State} (agent kind addr : Nat) (s : State) (hs : k0.Kept kx s) :
    k0.Kept kx (State.memErr agent kind addr s) := by
  delta State.memErr; beta_reduce
  repeat' (first
   | with_reducible assumption
   | with_reducible apply State.wr_kept
   | with_reducible apply State.wr40_kept
   | split)

theorem State.memConds_kept {kx : Bool} {k0 : State} (s : State) (hs : k0.Kept kx s) :
    k0.Kept kx (State.memConds s) := by
  delta State.memConds; beta_reduce
  repeat' (first
   | with_reducible assumption
   | with_reducible apply State.cond_kept
   | fail_if_no_progress (with_reducible refine State.Kept.lit ?_ rfl rfl rfl)
   | intro hx
   | (refine State.Kept.pair (by with_reducible assumption) ?_)
   | (refine State.Kept.triple (by with_reducible assumption) ?_)
   | split)

theorem State.promote_kept {kx : Bool} {k0 : State} (s : State) (hs : k0.Kept kx s) :
    k0.Kept kx (State.promote s) := by
  delta State.promote; beta_reduce
  repeat' (first
   | with_reducible assumption
   | with_reducible apply State.setPort_kept
   | fail_if_no_progress (with_reducible refine State.Kept.lit ?_ rfl rfl rfl)
   | intro hx
   | (refine State.Kept.pair (by with_reducible assumption) ?_)
   | (refine State.Kept.triple (by with_reducible assumption) ?_)
   | split)

theorem State.fencePort_kept {kx : Bool} {k0 : State} (p : Nat) (s : State) (hs : k0.Kept kx s) :
    k0.Kept kx (State.fencePort p s) := by
  delta State.fencePort; beta_reduce
  repeat' (first
   | with_reducible assumption
   | (extract_lets -merge -underBinder +onlyGivenNames ky; first | (refine State.Kept.cut ‹State.Kept _ _ _› (t := ky) ?_ ?_; subst ky; rotate_left; intro hx; clear_value ky) | clear_value ky)
   | with_reducible apply State.whenB_kept
   | with_reducible apply State.memConds_kept
   | with_reducible apply State.report_kept
   | with_reducible apply State.setBit_kept
   | with_reducible apply State.setPort_kept)

theorem State.dstFails_kept {kx : Bool} {k0 : State} (s : State) (hs : k0.Kept kx s) :
    k0.Kept kx (State.dstFails s) := by
  delta State.dstFails; beta_reduce
  repeat' (first
   | with_reducible assumption
   | (extract_lets -merge -underBinder +onlyGivenNames ky; first | (refine State.Kept.cut ‹State.Kept _ _ _› (t := ky) ?_ ?_; subst ky; rotate_left; intro hx; clear_value ky) | clear_value ky)
   | with_reducible apply State.fencePort_kept
   | with_reducible apply State.promote_kept
   | with_reducible apply State.setBit_kept
   | fail_if_no_progress (with_reducible refine State.Kept.lit ?_ rfl rfl rfl)
   | intro hx
   | (refine State.Kept.pair (by with_reducible assumption) ?_)
   | (refine State.Kept.triple (by with_reducible assumption) ?_)
   | split)

theorem State.retirePort_kept {kx : Bool} {k0 : State} (p : Nat) (s : State) (hs : k0.Kept kx s) :
    k0.Kept kx (State.retirePort p s) := by
  delta State.retirePort; beta_reduce
  repeat' (first
   | with_reducible assumption
   | (extract_lets -merge -underBinder +onlyGivenNames ky; clear_value ky)
   | with_reducible apply State.report_kept
   | with_reducible apply State.setPort_kept
   | fail_if_no_progress (with_reducible refine State.Kept.lit ?_ rfl rfl rfl)
   | intro hx
   | (refine State.Kept.pair (by with_reducible assumption) ?_)
   | (refine State.Kept.triple (by with_reducible assumption) ?_)
   | split)

theorem State.poisonAt_kept {kx : Bool} {k0 : State} (p line : Nat) (s : State) (hs : k0.Kept kx s) :
    k0.Kept kx (State.poisonAt p line s) := by
  delta State.poisonAt; beta_reduce
  repeat' (first
   | with_reducible assumption
   | (extract_lets -merge -underBinder +onlyGivenNames ky; first | (refine State.Kept.cut ‹State.Kept _ _ _› (t := ky) ?_ ?_; subst ky; rotate_left; intro hx; clear_value ky) | clear_value ky)
   | with_reducible apply State.dstFails_kept
   | with_reducible apply State.retirePort_kept
   | with_reducible apply State.setBit_kept
   | with_reducible apply State.setPort_kept
   | fail_if_no_progress (with_reducible refine State.Kept.lit ?_ rfl rfl rfl)
   | intro hx
   | (refine State.Kept.pair (by with_reducible assumption) ?_)
   | (refine State.Kept.triple (by with_reducible assumption) ?_)
   | split)

theorem State.usageAddr_kept {kx : Bool} {k0 : State} (agent access a : Nat) (s : State) (hs : k0.Kept kx s) :
    k0.Kept kx (State.usageAddr agent access a s) := by
  delta State.usageAddr; beta_reduce
  repeat' (first
   | with_reducible assumption
   | with_reducible apply State.usage_kept)

theorem State.eccRead_kept {kx : Bool} {k0 : State} (agent a n : Nat) (s : State) (hs : k0.Kept kx s) :
    k0.Kept kx (State.eccRead agent a n s).2 := by
  delta State.eccRead; beta_reduce
  repeat' (first
   | with_reducible assumption
   | (extract_lets -merge -underBinder +onlyGivenNames ky; first | (refine State.Kept.cut ‹State.Kept _ _ _› (t := ky) ?_ ?_; subst ky; rotate_left; intro hx; clear_value ky) | clear_value ky)
   | with_reducible apply State.Kept.foldl
   | with_reducible apply State.Kept.foldl2
   | with_reducible apply State.Kept.foldl3
   | with_reducible apply State.bump_kept
   | with_reducible apply State.inc_kept
   | with_reducible apply State.memErr_kept
   | with_reducible apply State.poisonAt_kept
   | with_reducible apply State.report_kept
   | with_reducible apply State.setBit_kept
   | fail_if_no_progress (with_reducible refine State.Kept.lit ?_ rfl rfl rfl)
   | intro hx
   | (refine State.Kept.pair (by with_reducible assumption) ?_)
   | (refine State.Kept.triple (by with_reducible assumption) ?_)
   | split)

theorem State.wakePorts_kept {kx : Bool} {k0 : State} (a n : Nat) (s : State) (hs : k0.Kept kx s) :
    k0.Kept kx (State.wakePorts a n s) := by
  delta State.wakePorts; beta_reduce
  repeat' (first
   | with_reducible assumption
   | (extract_lets -merge -underBinder +onlyGivenNames ky; clear_value ky)
   | with_reducible apply State.each_kept
   | with_reducible apply State.selfRefresh_kept
   | with_reducible apply State.setPort_kept
   | fail_if_no_progress (with_reducible refine State.Kept.lit ?_ rfl rfl rfl)
   | intro hx
   | (refine State.Kept.pair (by with_reducible assumption) ?_)
   | (refine State.Kept.triple (by with_reducible assumption) ?_)
   | split)

theorem State.badRead_kept {kx : Bool} {k0 : State} (agent access a n : Nat) (s : State) (hs : k0.Kept kx s) :
    k0.Kept kx (State.badRead agent access a n s) := by
  delta State.badRead; beta_reduce
  repeat' (first
   | with_reducible assumption
   | with_reducible apply State.memErr_kept
   | with_reducible apply State.report_kept
   | with_reducible apply State.setBit_kept
   | fail_if_no_progress (with_reducible refine State.Kept.lit ?_ rfl rfl rfl)
   | intro hx
   | (refine State.Kept.pair (by with_reducible assumption) ?_)
   | (refine State.Kept.triple (by with_reducible assumption) ?_)
   | split)

theorem State.eccWrite_kept {kx : Bool} {k0 : State} (agent a n : Nat) (s : State) (hs : k0.Kept kx s) :
    k0.Kept kx (State.eccWrite agent a n s) := by
  delta State.eccWrite; beta_reduce
  repeat' (first
   | with_reducible assumption
   | (extract_lets -merge -underBinder +onlyGivenNames ky; clear_value ky)
   | with_reducible apply State.eccRead_kept
   | fail_if_no_progress (with_reducible refine State.Kept.lit ?_ rfl rfl rfl))

theorem State.readAs_kept {kx : Bool} {k0 : State} (agent access a n : Nat) (s : State) (hs : k0.Kept kx s) :
    k0.Kept kx (State.readAs agent access a n s).2.2 := by
  delta State.readAs; beta_reduce
  repeat' (first
   | with_reducible assumption
   | (extract_lets -merge -underBinder +onlyGivenNames ky; first | (refine State.Kept.cut2 ‹State.Kept _ _ _› (t := ky) ?_ ?_; subst ky; rotate_left; intro hx; clear_value ky) | clear_value ky)
   | with_reducible apply State.badRead_kept
   | with_reducible apply State.eccRead_kept
   | with_reducible apply State.hostRead_kept
   | with_reducible apply State.outboundErr_kept
   | with_reducible apply State.usageAddr_kept
   | with_reducible apply State.wakePorts_kept
   | fail_if_no_progress (with_reducible refine State.Kept.lit ?_ rfl rfl rfl)
   | intro hx
   | (refine State.Kept.pair (by with_reducible assumption) ?_)
   | (refine State.Kept.triple (by with_reducible assumption) ?_)
   | split)

theorem State.readMem_kept {kx : Bool} {k0 : State} (agent a n : Nat) (s : State) (hs : k0.Kept kx s) :
    k0.Kept kx (State.readMem agent a n s).2.2 := by
  delta State.readMem; beta_reduce
  repeat' (first
   | with_reducible assumption
   | with_reducible apply State.readAs_kept)

theorem State.writeMem_kept {kx : Bool} {k0 : State} (agent a : Nat) (bs : List Nat) (s : State) (hs : k0.Kept kx s) :
    k0.Kept kx (State.writeMem agent a bs s).2 := by
  delta State.writeMem; beta_reduce
  repeat' (first
   | with_reducible assumption
   | (extract_lets -merge -underBinder +onlyGivenNames ky; clear_value ky)
   | with_reducible apply State.each_kept
   | with_reducible apply State.eccWrite_kept
   | with_reducible apply State.hostWrite_kept
   | with_reducible apply State.outboundErr_kept
   | with_reducible apply State.putM_kept
   | with_reducible apply State.unpoison_kept
   | with_reducible apply State.usageAddr_kept
   | with_reducible apply State.wakePorts_kept
   | fail_if_no_progress (with_reducible refine State.Kept.lit ?_ rfl rfl rfl)
   | intro hx
   | (refine State.Kept.pair (by with_reducible assumption) ?_)
   | (refine State.Kept.triple (by with_reducible assumption) ?_)
   | split)

end Sys2Proof.Machine
end

