-- ==== Sys2Proof/Laws/KeptBell.lean ====
section
/-! SUPPORT. What the operations of Machine/Bell.lean keep (Laws/Kept.lean), one lemma each. -/

namespace Sys2Proof.Machine

theorem State.msix_kept {kx : Bool} {k0 : State} (v : Nat) (s : State) (hs : k0.Kept kx s) :
    k0.Kept kx (State.msix v s) := by
  delta State.msix; beta_reduce
  repeat' (first
   | with_reducible assumption
   | (extract_lets -merge -underBinder +onlyGivenNames ky; clear_value ky)
   | with_reducible apply State.emit_kept
   | with_reducible apply State.sndCount_kept)

theorem State.signalTarget_kept {kx : Bool} {k0 : State} (t : Nat) (s : State) (hs : k0.Kept kx s) :
    k0.Kept kx (State.signalTarget t s) := by
  delta State.signalTarget; beta_reduce
  repeat' (first
   | with_reducible assumption
   | with_reducible apply State.emit_kept
   | with_reducible apply State.msix_kept
   | with_reducible apply State.setBit_kept
   | split)

theorem State.settle_kept {kx : Bool} {k0 : State} (s old : State) (hs : k0.Kept kx s) :
    k0.Kept kx (State.settle s old) := by
  delta State.settle; beta_reduce
  repeat' (first
   | with_reducible assumption
   | with_reducible apply State.each_kept
   | with_reducible apply State.signalTarget_kept
   | intro hx
   | split)

theorem State.signalHosts_kept {kx : Bool} {k0 : State} (s : State) (hs : k0.Kept kx s) :
    k0.Kept kx (State.signalHosts s) := by
  delta State.signalHosts; beta_reduce
  repeat' (first
   | with_reducible assumption
   | with_reducible apply State.each_kept
   | with_reducible apply State.signalTarget_kept
   | intro hx
   | split)

theorem State.bellError_kept {kx : Bool} {k0 : State} (kind source target agent addr : Nat) (s : State) (hs : k0.Kept kx s) :
    k0.Kept kx (State.bellError kind source target agent addr s) := by
  delta State.bellError; beta_reduce
  repeat' (first
   | with_reducible assumption
   | (extract_lets -merge -underBinder +onlyGivenNames ky; refine State.Kept.cut ‹State.Kept _ _ _› (t := ky) ?_ ?_; subst ky; rotate_left; intro hx; clear_value ky)
   | with_reducible apply State.bump_kept
   | with_reducible apply State.report_kept
   | with_reducible apply State.wr_kept
   | split)

theorem State.edge_kept {kx : Bool} {k0 : State} (n : Nat) (s : State) (hs : k0.Kept kx s) :
    k0.Kept kx (State.edge n s) := by
  delta State.edge; dsimp only
  repeat' (first
   | (intro ha; exact ⟨ha, rfl⟩)
   | with_reducible assumption
   | with_reducible apply State.bump_kept
   | with_reducible apply State.setSrc_kept
   | split)

theorem sourceEdge_kept {kx : Bool} {k0 : State} (n : Nat) (s : State) (hs : k0.Kept kx s) :
    k0.Kept kx (sourceEdge n s) := by
  delta sourceEdge; dsimp only
  repeat' (first
   | (intro ha; exact ⟨ha, rfl⟩)
   | with_reducible assumption
   | with_reducible apply State.edge_kept
   | with_reducible apply State.setSrc_kept
   | with_reducible apply State.settle_kept
   | split)

theorem bellSwset_kept {kx : Bool} {k0 : State} (agent w v : Nat) (s : State) (hs : k0.Kept kx s) :
    k0.Kept kx (bellSwset agent w v s) := by
  delta bellSwset; beta_reduce
  repeat' (first
   | with_reducible assumption
   | with_reducible apply State.each_kept
   | with_reducible apply State.edge_kept
   | with_reducible apply State.settle_kept
   | with_reducible apply State.usageReg_kept
   | intro hx
   | split)

/-- A target that presents a source holds no other (R567). -/
theorem State.presented_free {s : State} {t n : Nat} (h : s.presented t = some n) (k : Nat) (ha : (s.src k).active = true) :
    (s.src k).claimer ≠ t := by
  intro hc
  unfold State.presented at h
  split at h
  · rename_i hh
    simp only [Bool.and_eq_true, Option.isNone_iff_eq_none, State.bellHeld, Option.map_eq_none_iff] at hh
    have hf := List.find?_eq_none.1 hh.2
    have hm : ∀ m : SMap BellSrc, (SMap.get (fun _ => BellSrc.reset) m k).active = true →
        (k, SMap.get (fun _ => BellSrc.reset) m k) ∈ m := by
      intro m
      induction m with
      | nil => intro h; exact absurd h (by simp [SMap.get, BellSrc.reset])
      | cons p m ih =>
        obtain ⟨a, w⟩ := p
        intro h
        simp only [SMap.get] at h ⊢
        split at h
        · subst a; simp
        · rw [if_neg ‹_›]; exact List.mem_cons_of_mem _ (ih h)
    have := hf _ (hm s.bell ha)
    simp only [State.src] at ha hc
    simp [ha, hc] at this
  · cases h

theorem bellClaim_kept {kx : Bool} {k0 : State} (agent t : Nat) (s : State) (hs : k0.Kept kx s) :
    k0.Kept kx (bellClaim agent t s) := by
  unfold bellClaim
  dsimp only
  split
  · exact State.emit_kept _ _ (State.bellError_kept _ _ _ _ _ _ hs)
  · split
    · rename_i n hp
      refine State.emit_kept _ _ (State.Kept.sameB hs rfl rfl rfl rfl rfl rfl rfl rfl (fun h j k => ?_))
      simp only [State.src_setSrc]
      intro hj hk e
      by_cases h1 : j = n <;> by_cases h2 : k = n <;> simp only [h1, h2, if_true, if_false] at hj hk e ⊢
      · exact absurd e.symm (State.presented_free hp k hk)
      · exact absurd e (State.presented_free hp j hj)
      · exact h j k hj hk e
    · exact State.emit_kept _ _ hs

theorem bellComplete_kept {kx : Bool} {k0 : State} (agent t v : Nat) (s : State) (hs : k0.Kept kx s) :
    k0.Kept kx (bellComplete agent t v s) := by
  delta bellComplete; dsimp only
  repeat' (first
   | (intro ha; exact absurd ha (by simp))
   | with_reducible assumption
   | with_reducible apply State.each_kept
   | with_reducible apply State.bellError_kept
   | with_reducible apply State.setSrc_kept
   | with_reducible apply State.signalTarget_kept
   | intro hx
   | split)

theorem bellSrcCfgWrite_kept {kx : Bool} {k0 : State} (agent n v : Nat) (s : State) (hs : k0.Kept kx s) :
    k0.Kept kx (bellSrcCfgWrite agent n v s) := by
  unfold bellSrcCfgWrite
  dsimp only
  split
  · exact State.usageReg_kept _ _ _ hs
  · split
    · exact hs
    · split
      · exact (State.bellError_kept _ _ _ _ _ _ hs).watch id id
      · split
        · exact (State.bellError_kept _ _ _ _ _ _ hs).watch id id
        · exact State.settle_kept _ _ (State.setSrc_kept _ _ _ (fun h => ⟨h, rfl⟩) hs)

theorem State.bellDiscard_kept {kx : Bool} {k0 : State} (n : Nat) (s : State) (hs : k0.Kept kx s) :
    k0.Kept kx (State.bellDiscard n s) := by
  delta State.bellDiscard; dsimp only
  repeat' (first
   | (intro ha; exact ⟨ha, rfl⟩)
   | with_reducible assumption
   | with_reducible apply State.setSrc_kept
   | split)

theorem holdTimerExpiry_kept {kx : Bool} {k0 : State} (n : Nat) (s : State) (hs : k0.Kept kx s) :
    k0.Kept kx (holdTimerExpiry n s) := by
  delta holdTimerExpiry; dsimp only
  repeat' (first
   | (intro ha; exact ⟨ha, rfl⟩)
   | with_reducible assumption
   | with_reducible apply State.bump_kept
   | with_reducible apply State.setSrc_kept
   | with_reducible apply State.settle_kept
   | split)

theorem State.msixUnmask_kept {kx : Bool} {k0 : State} (v : Nat) (s : State) (hs : k0.Kept kx s) :
    k0.Kept kx (State.msixUnmask v s) := by
  delta State.msixUnmask; beta_reduce
  repeat' (first
   | with_reducible assumption
   | (extract_lets -merge -underBinder +onlyGivenNames ky; refine State.Kept.cut ‹State.Kept _ _ _› (t := ky) ?_ ?_; subst ky; rotate_left; intro hx; clear_value ky)
   | with_reducible apply State.clrBit_kept
   | with_reducible apply State.msix_kept
   | split)

theorem State.bellHostReset_kept {kx : Bool} {k0 : State} (s : State) (hs : k0.Kept kx s) :
    k0.Kept kx (State.bellHostReset s) := by
  delta State.bellHostReset; dsimp only
  repeat' (first
   | (intro ha; exact absurd ha (by simp))
   | with_reducible assumption
   | with_reducible apply State.each_kept
   | with_reducible apply State.setSrc_kept
   | intro hx)

end Sys2Proof.Machine
end

