-- ==== Sys2Proof/Laws/KeptWarehouse.lean ====
section
/-! SUPPORT. What the operations of Machine/Warehouse.lean keep (Laws/Kept.lean), one lemma each. -/

namespace Sys2Proof.Machine

theorem State.setAllocated_kept {kx : Bool} {k0 : State} (g : Nat) (v : Bool) (s : State) (hs : k0.Kept kx s) :
    k0.Kept kx (State.setAllocated g v s) := by
  delta State.setAllocated; beta_reduce
  repeat' (first
   | with_reducible assumption
   | with_reducible apply State.wrM_kept)

theorem State.setOwner_kept {kx : Bool} {k0 : State} (g o : Nat) (s : State) (hs : k0.Kept kx s) :
    k0.Kept kx (State.setOwner g o s) := by
  delta State.setOwner; beta_reduce
  repeat' (first
   | with_reducible assumption
   | with_reducible apply State.wrM_kept)

theorem State.setRefCount_kept {kx : Bool} {k0 : State} (g n : Nat) (s : State) (hs : k0.Kept kx s) :
    k0.Kept kx (State.setRefCount g n s) := by
  delta State.setRefCount; beta_reduce
  repeat' (first
   | with_reducible assumption
   | with_reducible apply State.wrM_kept)

theorem State.threadLine_kept {kx : Bool} {k0 : State} (a next p : Nat) (s : State) (hs : k0.Kept kx s) :
    k0.Kept kx (State.threadLine a next p s) := by
  delta State.threadLine; beta_reduce
  repeat' (first
   | with_reducible assumption
   | with_reducible apply State.putM_kept
   | with_reducible apply State.unpoison_kept)

theorem State.threadList_kept {kx : Bool} {k0 : State} (p tail : Nat) (l : List Nat) (s : State) (hs : k0.Kept kx s) :
    k0.Kept kx (State.threadList p tail l s) := by
  induction l generalizing s with
  | nil => exact hs
  | cons a l ih =>
    cases l with
    | nil => exact State.threadLine_kept _ _ _ _ hs
    | cons b l => exact ih _ (State.threadLine_kept _ _ _ _ hs)

theorem State.metaRead_kept {kx : Bool} {k0 : State} (a : Nat) (s : State) (hs : k0.Kept kx s) :
    k0.Kept kx (State.metaRead a s) := by
  delta State.metaRead; beta_reduce
  repeat' (first
   | with_reducible assumption
   | with_reducible apply State.readMem_kept)

theorem State.metaTouch_kept {kx : Bool} {k0 : State} (a : Nat) (s : State) (hs : k0.Kept kx s) :
    k0.Kept kx (State.metaTouch a s) := by
  delta State.metaTouch; beta_reduce
  repeat' (first
   | with_reducible assumption
   | (extract_lets -merge -underBinder +onlyGivenNames ky; first | (refine State.Kept.cut ‹State.Kept _ _ _› (t := ky) ?_ ?_; subst ky; rotate_left; intro hx; clear_value ky) | clear_value ky)
   | with_reducible apply State.metaRead_kept
   | fail_if_no_progress (with_reducible refine State.Kept.lit ?_ rfl rfl rfl)
   | intro hx
   | (refine State.Kept.pair (by with_reducible assumption) ?_)
   | (refine State.Kept.triple (by with_reducible assumption) ?_)
   | split)

theorem State.threadMore_kept {kx : Bool} {k0 : State} (p n : Nat) (s : State) (hs : k0.Kept kx s) :
    k0.Kept kx (State.threadMore p n s) := by
  delta State.threadMore; beta_reduce
  repeat' (first
   | with_reducible assumption
   | (extract_lets -merge -underBinder +onlyGivenNames ky; clear_value ky)
   | with_reducible apply State.setPool_kept
   | with_reducible apply State.threadList_kept)

theorem State.threadReach_kept {kx : Bool} {k0 : State} (p : Nat) (s : State) (hs : k0.Kept kx s) :
    k0.Kept kx (State.threadReach p s) := by
  delta State.threadReach; beta_reduce
  repeat' (first
   | with_reducible assumption
   | (extract_lets -merge -underBinder +onlyGivenNames ky; first | (refine State.Kept.cut2 ‹State.Kept _ _ _› (t := ky) ?_ ?_; subst ky; rotate_left; intro hx; clear_value ky) | clear_value ky)
   | with_reducible apply State.draw_kept
   | with_reducible apply State.threadMore_kept
   | fail_if_no_progress (with_reducible refine State.Kept.lit ?_ rfl rfl rfl)
   | intro hx
   | (refine State.Kept.pair (by with_reducible assumption) ?_)
   | (refine State.Kept.triple (by with_reducible assumption) ?_)
   | split)

theorem State.setFree_kept {kx : Bool} {k0 : State} (p n : Nat) (s : State) (hs : k0.Kept kx s) :
    k0.Kept kx (State.setFree p n s) := by
  delta State.setFree; beta_reduce
  repeat' (first
   | with_reducible assumption
   | (extract_lets -merge -underBinder +onlyGivenNames ky; first | (refine State.Kept.cut ‹State.Kept _ _ _› (t := ky) ?_ ?_; subst ky; rotate_left; intro hx; clear_value ky) | clear_value ky)
   | with_reducible apply State.whenB_kept
   | with_reducible apply State.report_kept
   | with_reducible apply State.setBit_kept
   | with_reducible apply State.setPool_kept
   | intro hx)

theorem State.poolRefuse_kept {kx : Bool} {k0 : State} (op agent a code : Nat) (s : State) (hs : k0.Kept kx s) :
    k0.Kept kx (State.poolRefuse op agent a code s) := by
  delta State.poolRefuse; beta_reduce
  repeat' (first
   | with_reducible assumption
   | (extract_lets -merge -underBinder +onlyGivenNames ky; refine State.Kept.cut ‹State.Kept _ _ _› (t := ky) ?_ ?_; subst ky; rotate_left; intro hx; clear_value ky)
   | with_reducible apply State.bump_kept
   | with_reducible apply State.report_kept
   | with_reducible apply State.setBit_kept
   | with_reducible apply State.sndCount_kept
   | with_reducible apply State.wr_kept
   | with_reducible apply State.wr40_kept
   | split)

theorem State.listRebuild_kept {kx : Bool} {k0 : State} (p bad : Nat) (s : State) (hs : k0.Kept kx s) :
    k0.Kept kx (State.listRebuild p bad s) := by
  delta State.listRebuild; beta_reduce
  repeat' (first
   | with_reducible assumption
   | (extract_lets -merge -underBinder +onlyGivenNames ky; first | (refine State.Kept.cut ‹State.Kept _ _ _› (t := ky) ?_ ?_; subst ky; rotate_left; intro hx; clear_value ky) | clear_value ky)
   | with_reducible apply State.each_kept
   | with_reducible apply State.eccRead_kept
   | with_reducible apply State.inc_kept
   | with_reducible apply State.report_kept
   | with_reducible apply State.setBit_kept
   | with_reducible apply State.setFree_kept
   | with_reducible apply State.setPool_kept)

theorem State.handOut_kept {kx : Bool} {k0 : State} (p owner a : Nat) (s : State) (hs : k0.Kept kx s) :
    k0.Kept kx (State.handOut p owner a s) := by
  delta State.handOut; beta_reduce
  repeat' (first
   | with_reducible assumption
   | (extract_lets -merge -underBinder +onlyGivenNames ky; first | (refine State.Kept.cut ‹State.Kept _ _ _› (t := ky) ?_ ?_; subst ky; rotate_left; intro hx; clear_value ky) | clear_value ky)
   | with_reducible apply State.setAllocated_kept
   | with_reducible apply State.wrM_kept)

theorem State.popHead_kept {kx : Bool} {k0 : State} (p owner : Nat) (s : State) (hs : k0.Kept kx s) :
    k0.Kept kx (State.popHead p owner s) := by
  delta State.popHead; beta_reduce
  repeat' (first
   | with_reducible assumption
   | (extract_lets -merge -underBinder +onlyGivenNames ky; first | (refine State.Kept.cut ‹State.Kept _ _ _› (t := ky) ?_ ?_; subst ky; rotate_left; intro hx; clear_value ky) | clear_value ky)
   | with_reducible apply State.free_kept
   | with_reducible apply State.handOut_kept
   | with_reducible apply State.setFree_kept
   | with_reducible apply State.setPool_kept)

theorem State.takeHead_kept {kx : Bool} {k0 : State} (p owner : Nat) (s : State) (hs : k0.Kept kx s) :
    k0.Kept kx (State.takeHead p owner s).2 := by
  delta State.takeHead; beta_reduce
  repeat' (first
   | with_reducible assumption
   | (extract_lets -merge -underBinder +onlyGivenNames ky; first | (refine State.Kept.cut ‹State.Kept _ _ _› (t := ky) ?_ ?_; subst ky; rotate_left; intro hx; clear_value ky) | (refine State.Kept.cut3 ‹State.Kept _ _ _› (t := ky) ?_ ?_; subst ky; rotate_left; intro hx; clear_value ky) | clear_value ky)
   | with_reducible apply State.listRebuild_kept
   | with_reducible apply State.popHead_kept
   | with_reducible apply State.readMem_kept
   | with_reducible apply State.threadMore_kept
   | fail_if_no_progress (with_reducible refine State.Kept.lit ?_ rfl rfl rfl)
   | intro hx
   | (refine State.Kept.pair (by with_reducible assumption) ?_)
   | (refine State.Kept.triple (by with_reducible assumption) ?_)
   | split)

theorem State.allocFail_kept {kx : Bool} {k0 : State} (c p : Nat) (s : State) (hs : k0.Kept kx s) :
    k0.Kept kx (State.allocFail c p s).2.2 := State.bump_kept _ _ _ hs

theorem State.allocHead_kept {kx : Bool} {k0 : State} (agent owner p : Nat) (s : State) (hs : k0.Kept kx s) :
    k0.Kept kx (State.allocHead agent owner p s).2.2 := by
  unfold State.allocHead
  extract_lets a w t
  have h : k0.Kept kx t := State.metaRead_kept w s hs
  clear_value t
  split
  · exact State.Kept.mk2 (State.poolRefuse_kept _ _ _ _ _ h)
  · split
    · exact State.sndCount_kept _ _ _ _ (State.Kept.pair ‹_› (State.takeHead_kept _ _ _ h))
    · exact State.allocFail_kept _ _ _ (State.Kept.pair ‹_› (State.takeHead_kept _ _ _ h))

theorem State.alloc_kept {kx : Bool} {k0 : State} (agent owner p : Nat) (cls : Cls) (s : State) (hs : k0.Kept kx s) :
    k0.Kept kx (State.alloc agent owner p cls s).2.2 := by
  unfold State.alloc
  extract_lets t t' x
  have h : k0.Kept kx t := State.bump_kept _ _ _ hs
  have h' : k0.Kept kx t' := State.threadReach_kept _ _ h
  clear_value t'
  clear_value t
  split
  · exact State.Kept.mk2 (State.poolRefuse_kept _ _ _ _ _ h)
  · split
    · exact State.allocFail_kept _ _ _ h'
    · split
      · exact State.allocFail_kept _ _ _ h'
      · exact State.allocHead_kept _ _ _ _ h'

theorem State.realias_kept {kx : Bool} {k0 : State} (g : Nat) (s : State) (hs : k0.Kept kx s) :
    k0.Kept kx (State.realias g s) := by
  delta State.realias; beta_reduce
  repeat' (first
   | with_reducible assumption
   | with_reducible apply State.setOwner_kept
   | split)

theorem State.pushFree_kept {kx : Bool} {k0 : State} (p a : Nat) (s : State) (hs : k0.Kept kx s) :
    k0.Kept kx (State.pushFree p a s) := by
  delta State.pushFree; beta_reduce
  repeat' (first
   | with_reducible assumption
   | (extract_lets -merge -underBinder +onlyGivenNames ky; first | (refine State.Kept.cut ‹State.Kept _ _ _› (t := ky) ?_ ?_; subst ky; rotate_left; intro hx; clear_value ky) | clear_value ky)
   | with_reducible apply State.setAllocated_kept
   | with_reducible apply State.setFree_kept
   | with_reducible apply State.setPool_kept
   | with_reducible apply State.wrM_kept)

theorem State.poolOp_kept {kx : Bool} {k0 : State} (op agent a owner : Nat) (s : State) (hs : k0.Kept kx s) :
    k0.Kept kx (State.poolOp op agent a owner s).2 := by
  delta State.poolOp; beta_reduce
  repeat' (first
   | with_reducible assumption
   | (extract_lets -merge -underBinder +onlyGivenNames ky; first | (refine State.Kept.cut ‹State.Kept _ _ _› (t := ky) ?_ ?_; subst ky; rotate_left; intro hx; clear_value ky) | clear_value ky)
   | with_reducible apply State.bump_kept
   | with_reducible apply State.metaTouch_kept
   | with_reducible apply State.poolRefuse_kept
   | with_reducible apply State.pushFree_kept
   | with_reducible apply State.realias_kept
   | with_reducible apply State.setOwner_kept
   | with_reducible apply State.setRefCount_kept
   | with_reducible apply State.sndCount_kept
   | fail_if_no_progress (with_reducible refine State.Kept.lit ?_ rfl rfl rfl)
   | intro hx
   | (refine State.Kept.pair (by with_reducible assumption) ?_)
   | (refine State.Kept.triple (by with_reducible assumption) ?_)
   | split)

theorem State.free_kept {kx : Bool} {k0 : State} (agent a : Nat) (s : State) (hs : k0.Kept kx s) :
    k0.Kept kx (State.free agent a s) := by
  delta State.free; beta_reduce
  repeat' (first
   | with_reducible assumption
   | with_reducible apply State.poolOp_kept)

theorem State.release_kept {kx : Bool} {k0 : State} (agent a : Nat) (s : State) (hs : k0.Kept kx s) :
    k0.Kept kx (State.release agent a s) := by
  delta State.release; beta_reduce
  repeat' (first
   | with_reducible assumption
   | with_reducible apply State.poolOp_kept)

theorem State.share_kept {kx : Bool} {k0 : State} (agent a : Nat) (s : State) (hs : k0.Kept kx s) :
    k0.Kept kx (State.share agent a s) := by
  delta State.share; beta_reduce
  repeat' (first
   | with_reducible assumption
   | with_reducible apply State.poolOp_kept)

theorem State.transfer_kept {kx : Bool} {k0 : State} (agent a owner : Nat) (s : State) (hs : k0.Kept kx s) :
    k0.Kept kx (State.transfer agent a owner s) := by
  delta State.transfer; beta_reduce
  repeat' (first
   | with_reducible assumption
   | with_reducible apply State.poolOp_kept)

theorem State.giveBack_kept {kx : Bool} {k0 : State} (agent a : Nat) (s : State) (hs : k0.Kept kx s) :
    k0.Kept kx (State.giveBack agent a s) := by
  delta State.giveBack; beta_reduce
  repeat' (first
   | with_reducible assumption
   | (extract_lets -merge -underBinder +onlyGivenNames ky; clear_value ky)
   | with_reducible apply State.free_kept
   | with_reducible apply State.release_kept
   | split)

theorem State.holdCtx_kept {kx : Bool} {k0 : State} (c off : Nat) (bs : List Nat) (s : State) (hs : k0.Kept kx s) :
    k0.Kept kx (State.holdCtx c off bs s) := by
  delta State.holdCtx; beta_reduce
  repeat' (first
   | with_reducible assumption
   | with_reducible apply State.each_kept
   | with_reducible apply State.whenB_kept
   | with_reducible apply State.Kept.foldl
   | with_reducible apply State.Kept.foldl2
   | with_reducible apply State.Kept.foldl3
   | fail_if_no_progress (with_reducible refine State.Kept.lit ?_ rfl rfl rfl))

theorem State.setSf_kept {kx : Bool} {k0 : State} (c off n v : Nat) (s : State) (hs : k0.Kept kx s) :
    k0.Kept kx (State.setSf c off n v s) := by
  delta State.setSf; beta_reduce
  repeat' (first
   | with_reducible assumption
   | with_reducible apply State.each_kept
   | with_reducible apply State.whenB_kept
   | with_reducible apply State.Kept.foldl
   | with_reducible apply State.Kept.foldl2
   | with_reducible apply State.Kept.foldl3
   | with_reducible apply State.holdCtx_kept
   | with_reducible apply State.wrM_kept)

theorem State.readCtx_kept {kx : Bool} {k0 : State} (c : Nat) (s : State) (hs : k0.Kept kx s) :
    k0.Kept kx (State.readCtx c s) := by
  delta State.readCtx; beta_reduce
  repeat' (first
   | with_reducible assumption
   | (extract_lets -merge -underBinder +onlyGivenNames ky; first | (refine State.Kept.cut ‹State.Kept _ _ _› (t := ky) ?_ ?_; subst ky; rotate_left; intro hx; clear_value ky) | (refine State.Kept.cut2 ‹State.Kept _ _ _› (t := ky) ?_ ?_; subst ky; rotate_left; intro hx; clear_value ky) | (refine State.Kept.cut3 ‹State.Kept _ _ _› (t := ky) ?_ ?_; subst ky; rotate_left; intro hx; clear_value ky) | (refine State.Kept.cut4 ‹State.Kept _ _ _› (t := ky) ?_ ?_; subst ky; rotate_left; intro hx; clear_value ky) | (have hk : ∀ a, ky a = ky a := (fun _ => rfl); clear hk; subst ky; beta_reduce) | (have hk : ky.broken = ky.broken := rfl; clear hk; subst ky) | (have hk : ky.logWr = ky.logWr := rfl; clear hk; subst ky) | clear_value ky)
   | with_reducible apply State.each_kept
   | with_reducible apply State.whenB_kept
   | with_reducible apply State.Kept.foldl
   | with_reducible apply State.Kept.foldl2
   | with_reducible apply State.Kept.foldl3
   | with_reducible apply State.holdCtx_kept)

theorem State.rereadCtx_kept {kx : Bool} {k0 : State} (op c : Nat) (s : State) (hs : k0.Kept kx s) :
    k0.Kept kx (State.rereadCtx op c s) := by
  delta State.rereadCtx; beta_reduce
  repeat' (first
   | with_reducible assumption
   | (extract_lets -merge -underBinder +onlyGivenNames ky; first | (refine State.Kept.cut ‹State.Kept _ _ _› (t := ky) ?_ ?_; subst ky; rotate_left; intro hx; clear_value ky) | (refine State.Kept.cut2 ‹State.Kept _ _ _› (t := ky) ?_ ?_; subst ky; rotate_left; intro hx; clear_value ky) | (refine State.Kept.cut3 ‹State.Kept _ _ _› (t := ky) ?_ ?_; subst ky; rotate_left; intro hx; clear_value ky) | (refine State.Kept.cut4 ‹State.Kept _ _ _› (t := ky) ?_ ?_; subst ky; rotate_left; intro hx; clear_value ky) | (have hk : ∀ a, ky a = ky a := (fun _ => rfl); clear hk; subst ky; beta_reduce) | (have hk : ky.broken = ky.broken := rfl; clear hk; subst ky) | (have hk : ky.logWr = ky.logWr := rfl; clear hk; subst ky) | clear_value ky)
   | with_reducible apply State.each_kept
   | with_reducible apply State.whenB_kept
   | with_reducible apply State.Kept.foldl
   | with_reducible apply State.Kept.foldl2
   | with_reducible apply State.Kept.foldl3
   | with_reducible apply State.holdCtx_kept
   | fail_if_no_progress (with_reducible refine State.Kept.lit ?_ rfl rfl rfl)
   | intro hx)

theorem State.poolEnable_kept {kx : Bool} {k0 : State} (agent p v : Nat) (s : State) (hs : k0.Kept kx s) :
    k0.Kept kx (State.poolEnable agent p v s) := by
  delta State.poolEnable; beta_reduce
  repeat' (first
   | with_reducible assumption
   | (extract_lets -merge -underBinder +onlyGivenNames ky; first | (refine State.Kept.cut ‹State.Kept _ _ _› (t := ky) ?_ ?_; subst ky; rotate_left; intro hx; clear_value ky) | clear_value ky)
   | with_reducible apply State.whenB_kept
   | with_reducible apply State.eccRead_kept
   | with_reducible apply State.setBit_kept
   | with_reducible apply State.setFree_kept
   | with_reducible apply State.setPool_kept
   | with_reducible apply State.usageReg_kept
   | with_reducible apply State.wr_kept
   | fail_if_no_progress (with_reducible refine State.Kept.lit ?_ rfl rfl rfl)
   | intro hx
   | (refine State.Kept.pair (by with_reducible assumption) ?_)
   | (refine State.Kept.triple (by with_reducible assumption) ?_)
   | split)

theorem State.poolDisable_kept {kx : Bool} {k0 : State} (agent p v : Nat) (s : State) (hs : k0.Kept kx s) :
    k0.Kept kx (State.poolDisable agent p v s) := by
  delta State.poolDisable; beta_reduce
  repeat' (first
   | with_reducible assumption
   | (extract_lets -merge -underBinder +onlyGivenNames ky; clear_value ky)
   | with_reducible apply State.setPool_kept
   | with_reducible apply State.usageReg_kept
   | with_reducible apply State.wr_kept
   | split)

theorem State.poolCfgWrite_kept {kx : Bool} {k0 : State} (agent p v : Nat) (s : State) (hs : k0.Kept kx s) :
    k0.Kept kx (State.poolCfgWrite agent p v s) := by
  delta State.poolCfgWrite; beta_reduce
  repeat' (first
   | with_reducible assumption
   | (extract_lets -merge -underBinder +onlyGivenNames ky; clear_value ky)
   | with_reducible apply State.poolDisable_kept
   | with_reducible apply State.poolEnable_kept
   | with_reducible apply State.usageReg_kept
   | with_reducible apply State.wr_kept
   | split)

theorem threaded_kept {kx : Bool} {k0 : State} (p : Nat) (s : State) (hs : k0.Kept kx s) :
    k0.Kept kx (threaded p s) := by
  delta threaded; beta_reduce
  repeat' (first
   | with_reducible assumption
   | (extract_lets -merge -underBinder +onlyGivenNames ky; first | (refine State.Kept.cut ‹State.Kept _ _ _› (t := ky) ?_ ?_; subst ky; rotate_left; intro hx; clear_value ky) | clear_value ky)
   | with_reducible apply State.setBit_kept
   | with_reducible apply State.setPool_kept
   | with_reducible apply State.threadMore_kept
   | fail_if_no_progress (with_reducible refine State.Kept.lit ?_ rfl rfl rfl)
   | intro hx
   | (refine State.Kept.pair (by with_reducible assumption) ?_)
   | (refine State.Kept.triple (by with_reducible assumption) ?_)
   | split)

theorem State.poolCmd_kept {kx : Bool} {k0 : State} (agent v : Nat) (s : State) (hs : k0.Kept kx s) :
    k0.Kept kx (State.poolCmd agent v s) := by
  delta State.poolCmd; beta_reduce
  repeat' (first
   | with_reducible assumption
   | (extract_lets -merge -underBinder +onlyGivenNames ky; first | (have hk : ∀ a, ky a = ky a := (fun _ => rfl); clear hk; subst ky; beta_reduce) | clear_value ky)
   | with_reducible apply State.alloc_kept
   | with_reducible apply State.poolOp_kept
   | with_reducible apply State.setBit_kept
   | with_reducible apply State.usageReg_kept
   | with_reducible apply State.wr_kept
   | with_reducible apply State.wr40_kept
   | split)

end Sys2Proof.Machine
end

