-- ==== Sys2Proof/Laws/KeptTrust.lean ====
section
/-! SUPPORT. What the operations of Machine/Trust.lean keep (Laws/Kept.lean), one lemma each. -/

namespace Sys2Proof.Machine

theorem State.measExtend_kept {kx : Bool} {k0 : State} (i d : Nat) (s : State) (hs : k0.Kept kx s) :
    k0.Kept kx (State.measExtend i d s) := by
  delta State.measExtend; beta_reduce
  repeat' (first
   | with_reducible assumption
   | (extract_lets -merge -underBinder +onlyGivenNames ky; first | (refine State.Kept.cut ‹State.Kept _ _ _› (t := ky) ?_ ?_; subst ky; rotate_left; intro hx; clear_value ky) | (refine State.Kept.cut2 ‹State.Kept _ _ _› (t := ky) ?_ ?_; subst ky; rotate_left; intro hx; clear_value ky) | (have hk : ky.broken = ky.broken := rfl; clear hk; subst ky) | clear_value ky)
   | with_reducible apply State.draw_kept
   | fail_if_no_progress (with_reducible refine State.Kept.lit ?_ rfl rfl rfl))

theorem State.measEvent_kept {kx : Bool} {k0 : State} (i : Nat) (s : State) (hs : k0.Kept kx s) :
    k0.Kept kx (State.measEvent i s) := by
  delta State.measEvent; beta_reduce
  repeat' (first
   | with_reducible assumption
   | (extract_lets -merge -underBinder +onlyGivenNames ky; refine State.Kept.cut2 ‹State.Kept _ _ _› (t := ky) ?_ ?_; subst ky; rotate_left; intro hx; clear_value ky)
   | with_reducible apply State.draw_kept
   | with_reducible apply State.measExtend_kept)

theorem State.passTo_kept {kx : Bool} {k0 : State} (c : Nat) (s : State) (hs : k0.Kept kx s) :
    k0.Kept kx (State.passTo c s) := by
  delta State.passTo; beta_reduce
  repeat' (first
   | with_reducible assumption
   | (extract_lets -merge -underBinder +onlyGivenNames ky; clear_value ky)
   | fail_if_no_progress (with_reducible refine State.Kept.lit ?_ rfl rfl rfl))

theorem armChange_kept {kx : Bool} {k0 : State} (armed : Bool) (s : State) (hs : k0.Kept kx s) :
    k0.Kept kx (armChange armed s) := by
  delta armChange; beta_reduce
  repeat' (first
   | with_reducible assumption
   | (extract_lets -merge -underBinder +onlyGivenNames ky; (have hk : ky.broken = ky.broken := rfl; clear hk; subst ky))
   | with_reducible apply State.setBit_kept
   | fail_if_no_progress (with_reducible refine State.Kept.lit ?_ rfl rfl rfl)
   | split)

theorem presentPress_kept {kx : Bool} {k0 : State} (s : State) (hs : k0.Kept kx s) :
    k0.Kept kx (presentPress s) := by
  delta presentPress; beta_reduce
  repeat' (first
   | with_reducible assumption
   | with_reducible apply State.setBit_kept
   | fail_if_no_progress (with_reducible refine State.Kept.lit ?_ rfl rfl rfl))

theorem presenceWindowExpiry_kept {kx : Bool} {k0 : State} (s : State) (hs : k0.Kept kx s) :
    k0.Kept kx (presenceWindowExpiry s) := by
  delta presenceWindowExpiry; beta_reduce
  repeat' (first
   | with_reducible assumption
   | with_reducible apply State.passTo_kept
   | fail_if_no_progress (with_reducible refine State.Kept.lit ?_ rfl rfl rfl)
   | split)

theorem btnStuck_kept {kx : Bool} {k0 : State} (s : State) (hs : k0.Kept kx s) :
    k0.Kept kx (btnStuck s) := by
  delta btnStuck; beta_reduce
  repeat' (first
   | with_reducible assumption
   | (extract_lets -merge -underBinder +onlyGivenNames ky; (have hk : ky.broken = ky.broken := rfl; clear hk; subst ky))
   | fail_if_no_progress (with_reducible refine State.Kept.lit ?_ rfl rfl rfl)
   | split)

theorem buttonRelease_kept {kx : Bool} {k0 : State} (s : State) (hs : k0.Kept kx s) :
    k0.Kept kx (buttonRelease s) := by
  delta buttonRelease; beta_reduce
  repeat' (first
   | with_reducible assumption
   | with_reducible apply btnStuck_kept
   | fail_if_no_progress (with_reducible refine State.Kept.lit ?_ rfl rfl rfl))

theorem State.breaks_kept {kx : Bool} {k0 : State} (b : BootSt) (s : State) (hb : b.broken = true) (hs : k0.Kept kx s) :
    k0.Kept kx { s with boot := b } :=
  hs.trans ⟨id, id, rfl, le_refl _, ⟨le_refl _, rfl⟩, fun _ => rfl, fun _ _ => hb, id, id, id⟩

theorem sealBreak_kept {kx : Bool} {k0 : State} (s : State) (hs : k0.Kept kx s) : k0.Kept kx (sealBreak s) := by
  unfold sealBreak
  split
  · exact hs
  · split
    · exact State.Kept.boot hs id
    · exact State.setBit_kept _ _ _ (State.measEvent_kept _ _ (State.breaks_kept _ _ rfl hs))

theorem sealLoopClose_kept {kx : Bool} {k0 : State} (s : State) (hs : k0.Kept kx s) :
    k0.Kept kx (sealLoopClose s) := by
  delta sealLoopClose; beta_reduce
  repeat' (first
   | with_reducible assumption
   | (extract_lets -merge -underBinder +onlyGivenNames ky; (have hk : ky.broken = ky.broken := rfl; clear hk; subst ky))
   | fail_if_no_progress (with_reducible refine State.Kept.lit ?_ rfl rfl rfl))

theorem State.rmpReply_kept {kx : Bool} {k0 : State} (q : Req) (cmd st : Nat) (body : List Nat) (s : State) (hs : k0.Kept kx s) :
    k0.Kept kx (State.rmpReply q cmd st body s) := by
  delta State.rmpReply; beta_reduce
  repeat' (first
   | with_reducible assumption
   | (extract_lets -merge -underBinder +onlyGivenNames ky; first | (refine State.Kept.cut ‹State.Kept _ _ _› (t := ky) ?_ ?_; subst ky; rotate_left; intro hx; clear_value ky) | clear_value ky)
   | with_reducible apply State.whenB_kept
   | with_reducible apply State.emit_kept
   | fail_if_no_progress (with_reducible refine State.Kept.lit ?_ rfl rfl rfl))

theorem State.rmp_kept {kx : Bool} {k0 : State} (q : Req) (cmd : Nat) (c : RmpClass) (f : State → Nat × List Nat × State) (s : State) (hf : ∀ a0, k0.Kept kx a0 → k0.Kept kx (f a0).2.2) (hs : k0.Kept kx s) :
    k0.Kept kx (State.rmp q cmd c f s).2 := by
  delta State.rmp; beta_reduce
  repeat' (first
   | with_reducible assumption
   | (extract_lets -merge -underBinder +onlyGivenNames ky; first | (refine State.Kept.cut ‹State.Kept _ _ _› (t := ky) ?_ ?_; subst ky; rotate_left; intro hx; clear_value ky) | (refine State.Kept.cut3 ‹State.Kept _ _ _› (t := ky) ?_ ?_; subst ky; rotate_left; intro hx; clear_value ky) | clear_value ky)
   | with_reducible apply hf
   | with_reducible apply State.whenB_kept
   | with_reducible apply State.emit_kept
   | with_reducible apply State.measEvent_kept
   | with_reducible apply State.rmpReply_kept
   | with_reducible apply State.setBit_kept
   | split)

theorem State.rmpRun_kept {kx : Bool} {k0 : State} (q : Req) (cmd : Nat) (c : RmpClass) (f : State → Nat × List Nat × State) (s : State) (hf : ∀ a0, k0.Kept kx a0 → k0.Kept kx (f a0).2.2) (hs : k0.Kept kx s) :
    k0.Kept kx (State.rmpRun q cmd c f s) := by
  delta State.rmpRun; beta_reduce
  repeat' (first
   | with_reducible assumption
   | with_reducible apply State.rmp_kept)

theorem quoteCmd_kept {kx : Bool} {k0 : State} (nonce : List Nat) (s : State) (hs : k0.Kept kx s) :
    k0.Kept kx (quoteCmd nonce s).2.2 := by
  delta quoteCmd; beta_reduce
  repeat' (first
   | with_reducible assumption
   | (extract_lets -merge -underBinder +onlyGivenNames ky; first | (refine State.Kept.cut ‹State.Kept _ _ _› (t := ky) ?_ ?_; subst ky; rotate_left; intro hx; clear_value ky) | (have hk : ky.broken = ky.broken := rfl; clear hk; subst ky) | clear_value ky)
   | with_reducible apply State.setBit_kept
   | fail_if_no_progress (with_reducible refine State.Kept.lit ?_ rfl rfl rfl)
   | split)

theorem certRead_kept {kx : Bool} {k0 : State} (body : List Nat) (s : State) (hs : k0.Kept kx s) :
    k0.Kept kx (certRead body s).2.2 := by
  delta certRead; beta_reduce
  repeat' (first
   | with_reducible assumption
   | (extract_lets -merge -underBinder +onlyGivenNames ky; clear_value ky)
   | split)

theorem logRead_kept {kx : Bool} {k0 : State} (body : List Nat) (s : State) (hs : k0.Kept kx s) :
    k0.Kept kx (logRead body s).2.2 := by
  delta logRead; beta_reduce
  repeat' (first
   | with_reducible assumption
   | split)

theorem sealClear_kept {k0 : State} (body : List Nat) (s : State) (hs : k0.Kept true s) :
    k0.Kept true (sealClear body s).2.2 := by
  unfold sealClear
  split
  · exact hs
  · split
    · exact hs
    · split
      · exact State.measEvent_kept _ _
          (hs.trans ⟨id, id, rfl, le_refl _, ⟨le_refl _, rfl⟩, (fun h => nomatch h), (fun h => nomatch h), id, id, id⟩)
      · exact hs

theorem fwCommit_kept {k0 : State} (body : List Nat) (s : State) (hs : k0.Kept true s) :
    k0.Kept true (fwCommit body s).2.2 := by
  unfold fwCommit
  split
  · exact hs
  · exact hs.trans ⟨id, id, rfl, le_refl _, ⟨le_max_left _ _, rfl⟩, (fun h => nomatch h), (fun h => nomatch h), id, id, id⟩

theorem State.putBoot_kept {kx : Bool} {k0 : State} (slot : Nat) (x : Option BootImg) (s : State) (hs : k0.Kept kx s) :
    k0.Kept kx (State.putBoot slot x s) := by
  delta State.putBoot; beta_reduce
  repeat' (first
   | with_reducible assumption
   | (extract_lets -merge -underBinder +onlyGivenNames ky; (have hk : ky.broken = ky.broken := rfl; clear hk; subst ky))
   | fail_if_no_progress (with_reducible refine State.Kept.lit ?_ rfl rfl rfl))

theorem State.putEtvor_kept {kx : Bool} {k0 : State} (slot : Nat) (x : List Nat) (s : State) (hs : k0.Kept kx s) :
    k0.Kept kx (State.putEtvor slot x s) := by
  delta State.putEtvor; beta_reduce
  repeat' (first
   | with_reducible assumption
   | (extract_lets -merge -underBinder +onlyGivenNames ky; (have hk : ky.broken = ky.broken := rfl; clear hk; subst ky))
   | fail_if_no_progress (with_reducible refine State.Kept.lit ?_ rfl rfl rfl))

theorem State.eraseSlot_kept {kx : Bool} {k0 : State} (k : Nat) (s : State) (hs : k0.Kept kx s) :
    k0.Kept kx (State.eraseSlot k s) := by
  delta State.eraseSlot; beta_reduce
  repeat' (first
   | with_reducible assumption
   | with_reducible apply State.putBoot_kept
   | with_reducible apply State.putEtvor_kept
   | split)

theorem flashOpen_kept {kx : Bool} {k0 : State} (b : List Nat) (s : State) (hs : k0.Kept kx s) :
    k0.Kept kx (flashOpen b s).2.2 := by
  delta flashOpen; beta_reduce
  repeat' (first
   | with_reducible assumption
   | (extract_lets -merge -underBinder +onlyGivenNames ky; first | (refine State.Kept.cut ‹State.Kept _ _ _› (t := ky) ?_ ?_; subst ky; rotate_left; intro hx; clear_value ky) | (have hk : ky.broken = ky.broken := rfl; clear hk; subst ky) | clear_value ky)
   | with_reducible apply State.eraseSlot_kept
   | fail_if_no_progress (with_reducible refine State.Kept.lit ?_ rfl rfl rfl)
   | split)

theorem flashWrite_kept {kx : Bool} {k0 : State} (b : List Nat) (s : State) (hs : k0.Kept kx s) :
    k0.Kept kx (flashWrite b s).2.2 := by
  delta flashWrite; beta_reduce
  repeat' (first
   | with_reducible assumption
   | (extract_lets -merge -underBinder +onlyGivenNames ky; first | (have hk : ky.broken = ky.broken := rfl; clear hk; subst ky) | clear_value ky)
   | fail_if_no_progress (with_reducible refine State.Kept.lit ?_ rfl rfl rfl)
   | split)

theorem flashClose_kept {kx : Bool} {k0 : State} (b : List Nat) (s : State) (hs : k0.Kept kx s) :
    k0.Kept kx (flashClose b s).2.2 := by
  delta flashClose; beta_reduce
  repeat' (first
   | with_reducible assumption
   | (extract_lets -merge -underBinder +onlyGivenNames ky; first | (refine State.Kept.cut ‹State.Kept _ _ _› (t := ky) ?_ ?_; subst ky; rotate_left; intro hx; clear_value ky) | (have hk : ky.broken = ky.broken := rfl; clear hk; subst ky) | clear_value ky)
   | with_reducible apply State.eraseSlot_kept
   | with_reducible apply State.putBoot_kept
   | with_reducible apply State.putEtvor_kept
   | with_reducible apply State.setBit_kept
   | fail_if_no_progress (with_reducible refine State.Kept.lit ?_ rfl rfl rfl)
   | split)

theorem flashWriteTimeout_kept {kx : Bool} {k0 : State} (s : State) (hs : k0.Kept kx s) :
    k0.Kept kx (flashWriteTimeout s) := by
  delta flashWriteTimeout; beta_reduce
  repeat' (first
   | with_reducible assumption
   | with_reducible apply State.eraseSlot_kept
   | fail_if_no_progress (with_reducible refine State.Kept.lit ?_ rfl rfl rfl)
   | split)

end Sys2Proof.Machine
end

