-- ==== Sys2Proof/Laws/KeptUnits.lean ====
section
/-! SUPPORT. What the operations of Machine/Units.lean keep (Laws/Kept.lean), one lemma each. -/

namespace Sys2Proof.Machine

theorem State.setUnitF_kept {kx : Bool} {k0 : State} (u : Nat) (f : UnitSt → UnitSt) (s : State) (hs : k0.Kept kx s) :
    k0.Kept kx (State.setUnitF u f s) := by
  delta State.setUnitF; beta_reduce
  repeat' (first
   | with_reducible assumption
   | with_reducible apply State.setUnit_kept)

theorem State.unitIrq_kept {kx : Bool} {k0 : State} (u b : Nat) (s : State) (hs : k0.Kept kx s) :
    k0.Kept kx (State.unitIrq u b s) := by
  delta State.unitIrq; beta_reduce
  repeat' (first
   | with_reducible assumption
   | with_reducible apply State.setBit_kept)

theorem State.setBankSt_kept {kx : Bool} {k0 : State} (g i v : Nat) (s : State) (hs : k0.Kept kx s) :
    k0.Kept kx (State.setBankSt g i v s) := by
  delta State.setBankSt; beta_reduce
  repeat' (first
   | with_reducible assumption
   | (extract_lets -merge -underBinder +onlyGivenNames ky; clear_value ky)
   | fail_if_no_progress (with_reducible refine State.Kept.lit ?_ rfl rfl rfl))

theorem State.spadGate_kept {kx : Bool} {k0 : State} (g : Nat) (s : State) (hs : k0.Kept kx s) :
    k0.Kept kx (State.spadGate g s) := by
  delta State.spadGate; beta_reduce
  repeat' (first
   | with_reducible assumption
   | with_reducible apply State.each_kept
   | with_reducible apply State.setBankSt_kept
   | intro hx
   | split)

theorem State.spadNeed_kept {kx : Bool} {k0 : State} (g : Nat) (s : State) (hs : k0.Kept kx s) :
    k0.Kept kx (State.spadNeed g s) := by
  delta State.spadNeed; beta_reduce
  repeat' (first
   | with_reducible assumption
   | (extract_lets -merge -underBinder +onlyGivenNames ky; first | (refine State.Kept.cut ‹State.Kept _ _ _› (t := ky) ?_ ?_; subst ky; rotate_left; intro hx; clear_value ky) | (refine State.Kept.cut2 ‹State.Kept _ _ _› (t := ky) ?_ ?_; subst ky; rotate_left; intro hx; clear_value ky) | clear_value ky)
   | with_reducible apply State.each_kept
   | with_reducible apply State.draw_kept
   | with_reducible apply State.setBankSt_kept
   | with_reducible apply State.wrFld_kept
   | intro hx
   | split)

theorem State.setEng_kept {kx : Bool} {k0 : State} (u : Nat) (e : Eng) (s : State) (hs : k0.Kept kx s) :
    k0.Kept kx (State.setEng u e s) := by
  delta State.setEng; beta_reduce
  repeat' (first
   | with_reducible assumption
   | (extract_lets -merge -underBinder +onlyGivenNames ky; first | (refine State.Kept.cut ‹State.Kept _ _ _› (t := ky) ?_ ?_; subst ky; rotate_left; intro hx; clear_value ky) | clear_value ky)
   | with_reducible apply State.whenB_kept
   | with_reducible apply State.setUnit_kept
   | with_reducible apply State.spadGate_kept)

theorem State.cfgRefuse_kept {kx : Bool} {k0 : State} (u c : Nat) (s : State) (hs : k0.Kept kx s) :
    k0.Kept kx (State.cfgRefuse u c s) := by
  delta State.cfgRefuse; beta_reduce
  repeat' (first
   | with_reducible assumption
   | with_reducible apply State.setUnitF_kept
   | with_reducible apply State.unitIrq_kept)

theorem State.cfgAccept_kept {kx : Bool} {k0 : State} (u : Nat) (s : State) (hs : k0.Kept kx s) :
    k0.Kept kx (State.cfgAccept u s) := by
  delta State.cfgAccept; beta_reduce
  repeat' (first
   | with_reducible assumption
   | with_reducible apply State.setUnitF_kept)

theorem State.adopt_kept {kx : Bool} {k0 : State} (g : Nat) (s : State) (hs : k0.Kept kx s) :
    k0.Kept kx (State.adopt g s) := by
  delta State.adopt; beta_reduce
  repeat' (first
   | with_reducible assumption
   | with_reducible apply State.each_kept
   | with_reducible apply State.setUnitF_kept
   | intro hx)

theorem State.dissolve_kept {kx : Bool} {k0 : State} (g : Nat) (s : State) (hs : k0.Kept kx s) :
    k0.Kept kx (State.dissolve g s) := by
  delta State.dissolve; beta_reduce
  repeat' (first
   | with_reducible assumption
   | with_reducible apply State.each_kept
   | with_reducible apply State.setUnitF_kept
   | intro hx)

theorem State.grpCtrlWrite_kept {kx : Bool} {k0 : State} (u v : Nat) (s : State) (hs : k0.Kept kx s) :
    k0.Kept kx (State.grpCtrlWrite u v s) := by
  delta State.grpCtrlWrite; beta_reduce
  repeat' (first
   | with_reducible assumption
   | (extract_lets -merge -underBinder +onlyGivenNames ky; refine State.Kept.cut ‹State.Kept _ _ _› (t := ky) ?_ ?_; subst ky; rotate_left; intro hx; clear_value ky)
   | with_reducible apply State.whenB_kept
   | with_reducible apply State.cfgAccept_kept
   | with_reducible apply State.cfgRefuse_kept
   | with_reducible apply State.dissolve_kept
   | with_reducible apply State.wr_kept
   | split)

theorem State.grpMemberWrite_kept {kx : Bool} {k0 : State} (u i v : Nat) (s : State) (hs : k0.Kept kx s) :
    k0.Kept kx (State.grpMemberWrite u i v s) := by
  delta State.grpMemberWrite; beta_reduce
  repeat' (first
   | with_reducible assumption
   | with_reducible apply State.cfgRefuse_kept
   | with_reducible apply State.wr_kept
   | split)

theorem State.spareConds_kept {kx : Bool} {k0 : State} (s : State) (hs : k0.Kept kx s) :
    k0.Kept kx (State.spareConds s) := by
  delta State.spareConds; beta_reduce
  repeat' (first
   | with_reducible assumption
   | with_reducible apply State.each_kept
   | with_reducible apply State.cond_kept
   | intro hx)

theorem State.afterSpares_kept {kx : Bool} {k0 : State} (s old : State) (hs : k0.Kept kx s) :
    k0.Kept kx (State.afterSpares s old) := by
  delta State.afterSpares; beta_reduce
  repeat' (first
   | with_reducible assumption
   | (extract_lets -merge -underBinder +onlyGivenNames ky; refine State.Kept.cut ‹State.Kept _ _ _› (t := ky) ?_ ?_; subst ky; rotate_left; intro hx; clear_value ky)
   | with_reducible apply State.each_kept
   | with_reducible apply State.whenB_kept
   | with_reducible apply State.setBit_kept
   | with_reducible apply State.spareConds_kept
   | intro hx)

theorem State.stopDone_kept {kx : Bool} {k0 : State} (u : Nat) (s : State) (hs : k0.Kept kx s) :
    k0.Kept kx (State.stopDone u s) := by
  delta State.stopDone; beta_reduce
  repeat' (first
   | with_reducible assumption
   | (extract_lets -merge -underBinder +onlyGivenNames ky; first | (refine State.Kept.cut ‹State.Kept _ _ _› (t := ky) ?_ ?_; subst ky; rotate_left; intro hx; clear_value ky) | clear_value ky)
   | with_reducible apply State.clrBit_kept
   | with_reducible apply State.setEng_kept
   | with_reducible apply State.unitIrq_kept
   | split)

theorem State.reserve_kept {kx : Bool} {k0 : State} (u c : Nat) (s : State) (hs : k0.Kept kx s) :
    k0.Kept kx (State.reserve u c s) := by
  delta State.reserve; beta_reduce
  repeat' (first
   | with_reducible assumption
   | with_reducible apply State.setUnitF_kept)

theorem State.bind_kept {kx : Bool} {k0 : State} (u : Nat) (s : State) (hs : k0.Kept kx s) :
    k0.Kept kx (State.bind u s) := by
  delta State.bind; beta_reduce
  repeat' (first
   | with_reducible assumption
   | with_reducible apply State.setUnitF_kept)

theorem State.releaseDone_kept {kx : Bool} {k0 : State} (u : Nat) (s : State) (hs : k0.Kept kx s) :
    k0.Kept kx (State.releaseDone u s) := by
  delta State.releaseDone; beta_reduce
  repeat' (first
   | with_reducible assumption
   | (extract_lets -merge -underBinder +onlyGivenNames ky; first | (refine State.Kept.cut ‹State.Kept _ _ _› (t := ky) ?_ ?_; subst ky; rotate_left; intro hx; clear_value ky) | clear_value ky)
   | with_reducible apply State.setEng_kept
   | with_reducible apply State.setUnitF_kept
   | with_reducible apply State.unitIrq_kept
   | fail_if_no_progress (with_reducible refine State.Kept.lit ?_ rfl rfl rfl)
   | intro hx
   | (refine State.Kept.pair (by with_reducible assumption) ?_)
   | (refine State.Kept.triple (by with_reducible assumption) ?_)
   | split)

theorem State.unbind_kept {kx : Bool} {k0 : State} (u c : Nat) (s : State) (hs : k0.Kept kx s) :
    k0.Kept kx (State.unbind u c s) := by
  delta State.unbind; beta_reduce
  repeat' (first
   | with_reducible assumption
   | (extract_lets -merge -underBinder +onlyGivenNames ky; clear_value ky)
   | with_reducible apply State.free_kept
   | with_reducible apply State.releaseDone_kept
   | with_reducible apply State.setUnit_kept)

theorem State.wmWrite_kept {kx : Bool} {k0 : State} (agent o depth v : Nat) (s : State) (hs : k0.Kept kx s) :
    k0.Kept kx (State.wmWrite agent o depth v s) := by
  delta State.wmWrite; beta_reduce
  repeat' (first
   | with_reducible assumption
   | with_reducible apply State.usageReg_kept
   | with_reducible apply State.wr_kept
   | split)

end Sys2Proof.Machine
end

