-- ==== Sys2Proof/Laws/KeptTables.lean ====
section
/-! SUPPORT. What the operations of Machine/Tables.lean keep (Laws/Kept.lean), one lemma each. -/

namespace Sys2Proof.Machine

theorem State.incSf_kept {kx : Bool} {k0 : State} (c off : Nat) (s : State) (hs : k0.Kept kx s) :
    k0.Kept kx (State.incSf c off s) := by
  delta State.incSf; beta_reduce
  repeat' (first
   | with_reducible assumption
   | with_reducible apply State.setSf_kept)

theorem State.setCtxState_kept {kx : Bool} {k0 : State} (c v : Nat) (s : State) (hs : k0.Kept kx s) :
    k0.Kept kx (State.setCtxState c v s) := by
  delta State.setCtxState; beta_reduce
  repeat' (first
   | with_reducible assumption
   | with_reducible apply State.setSf_kept)

theorem State.setLayout_kept {kx : Bool} {k0 : State} (n : Nat) (x : LayoutSt) (s : State) (hs : k0.Kept kx s) :
    k0.Kept kx (State.setLayout n x s) := by
  delta State.setLayout; beta_reduce
  repeat' (first
   | with_reducible assumption
   | fail_if_no_progress (with_reducible refine State.Kept.lit ?_ rfl rfl rfl))

theorem State.setDisp_kept {kx : Bool} {k0 : State} (n : Nat) (x : DispSt) (s : State) (hs : k0.Kept kx s) :
    k0.Kept kx (State.setDisp n x s) := by
  delta State.setDisp; beta_reduce
  repeat' (first
   | with_reducible assumption
   | fail_if_no_progress (with_reducible refine State.Kept.lit ?_ rfl rfl rfl))

theorem State.setQf_kept {kx : Bool} {k0 : State} (q off n v : Nat) (s : State) (hs : k0.Kept kx s) :
    k0.Kept kx (State.setQf q off n v s) := by
  delta State.setQf; beta_reduce
  repeat' (first
   | with_reducible assumption
   | with_reducible apply State.wrM_kept)

theorem State.setQFlag_kept {kx : Bool} {k0 : State} (q b : Nat) (v : Bool) (s : State) (hs : k0.Kept kx s) :
    k0.Kept kx (State.setQFlag q b v s) := by
  delta State.setQFlag; beta_reduce
  repeat' (first
   | with_reducible assumption
   | with_reducible apply State.setQf_kept)

theorem State.setQState_kept {kx : Bool} {k0 : State} (q v : Nat) (s : State) (hs : k0.Kept kx s) :
    k0.Kept kx (State.setQState q v s) := by
  delta State.setQState; beta_reduce
  repeat' (first
   | with_reducible assumption
   | with_reducible apply State.setQf_kept)

theorem State.setQErr_kept {kx : Bool} {k0 : State} (q v : Nat) (s : State) (hs : k0.Kept kx s) :
    k0.Kept kx (State.setQErr q v s) := by
  delta State.setQErr; beta_reduce
  repeat' (first
   | with_reducible assumption
   | with_reducible apply State.setQf_kept)

theorem State.setQTokens_kept {kx : Bool} {k0 : State} (q : Nat) (v : Int) (s : State) (hs : k0.Kept kx s) :
    k0.Kept kx (State.setQTokens q v s) := by
  delta State.setQTokens; beta_reduce
  repeat' (first
   | with_reducible assumption
   | with_reducible apply State.setQf_kept)

theorem State.setQueue_kept {kx : Bool} {k0 : State} (q : Nat) (x : QueueSt) (s : State) (hs : k0.Kept kx s) :
    k0.Kept kx (State.setQueue q x s) := by
  delta State.setQueue; beta_reduce
  repeat' (first
   | with_reducible assumption
   | fail_if_no_progress (with_reducible refine State.Kept.lit ?_ rfl rfl rfl))

theorem State.setQueueF_kept {kx : Bool} {k0 : State} (q : Nat) (f : QueueSt → QueueSt) (s : State) (hs : k0.Kept kx s) :
    k0.Kept kx (State.setQueueF q f s) := by
  delta State.setQueueF; beta_reduce
  repeat' (first
   | with_reducible assumption
   | with_reducible apply State.setQueue_kept)

theorem State.setCoef_kept {kx : Bool} {k0 : State} (i v : Nat) (s : State) (hs : k0.Kept kx s) :
    k0.Kept kx (State.setCoef i v s) := by
  delta State.setCoef; beta_reduce
  repeat' (first
   | with_reducible assumption
   | (extract_lets -merge -underBinder +onlyGivenNames ky; clear_value ky)
   | fail_if_no_progress (with_reducible refine State.Kept.lit ?_ rfl rfl rfl))

theorem State.bucketAdd_kept {kx : Bool} {k0 : State} (x : Int) (s : State) (hs : k0.Kept kx s) :
    k0.Kept kx (State.bucketAdd x s) := by
  delta State.bucketAdd; beta_reduce
  repeat' (first
   | with_reducible assumption
   | (extract_lets -merge -underBinder +onlyGivenNames ky; clear_value ky)
   | fail_if_no_progress (with_reducible refine State.Kept.lit ?_ rfl rfl rfl))

theorem State.credit_kept {kx : Bool} {k0 : State} (cls work est status : Nat) (rerun : Bool) (s : State) (hs : k0.Kept kx s) :
    k0.Kept kx (State.credit cls work est status rerun s) := by
  delta State.credit; beta_reduce
  repeat' (first
   | with_reducible assumption
   | (extract_lets -merge -underBinder +onlyGivenNames ky; first | (refine State.Kept.cut ‹State.Kept _ _ _› (t := ky) ?_ ?_; subst ky; rotate_left; intro hx; clear_value ky) | (refine State.Kept.cut2 ‹State.Kept _ _ _› (t := ky) ?_ ?_; subst ky; rotate_left; intro hx; clear_value ky) | clear_value ky)
   | with_reducible apply State.bucketAdd_kept
   | with_reducible apply State.bump_kept
   | with_reducible apply State.draw_kept
   | with_reducible apply State.setCoef_kept
   | split)

end Sys2Proof.Machine
end

