-- ==== Sys2Proof/Laws/KeptHarbour.lean ====
section
/-! SUPPORT. What the operations of Machine/Harbour.lean keep (Laws/Kept.lean), one lemma each. -/

namespace Sys2Proof.Machine

theorem State.writeRecord_kept {kx : Bool} {k0 : State} (j : Job) (st unit b8 : Nat) (s : State) (hs : k0.Kept kx s) :
    k0.Kept kx (State.writeRecord j st unit b8 s) := by
  delta State.writeRecord; beta_reduce
  repeat' (first
   | with_reducible assumption
   | with_reducible apply State.writeMem_kept
   | split)

theorem State.retire_kept {kx : Bool} {k0 : State} (q : Nat) (c0 : Nat) (s : State) (hs : k0.Kept kx s) :
    k0.Kept kx (State.retire q c0 s) := by
  induction c0 generalizing  s with
  | zero =>
    unfold State.retire
    repeat' (first
     | with_reducible assumption)
  | succ n ih =>
    unfold State.retire
    repeat' (first
     | with_reducible assumption
     | (extract_lets -merge -underBinder +onlyGivenNames ky; clear_value ky)
     | with_reducible apply ih
     | with_reducible apply State.setQf_kept
     | with_reducible apply State.setQueueF_kept
     | split)

theorem State.passDone_kept {kx : Bool} {k0 : State} (q : Nat) (c0 : Nat) (s : State) (hs : k0.Kept kx s) :
    k0.Kept kx (State.passDone q c0 s) := by
  induction c0 generalizing  s with
  | zero =>
    unfold State.passDone
    repeat' (first
     | with_reducible assumption)
  | succ n ih =>
    unfold State.passDone
    repeat' (first
     | with_reducible assumption
     | (extract_lets -merge -underBinder +onlyGivenNames ky; clear_value ky)
     | with_reducible apply ih
     | with_reducible apply State.setQf_kept
     | with_reducible apply State.setQueueF_kept
     | split)

theorem State.indexDone_kept {kx : Bool} {k0 : State} (q i : Nat) (s : State) (hs : k0.Kept kx s) :
    k0.Kept kx (State.indexDone q i s) := by
  delta State.indexDone; beta_reduce
  repeat' (first
   | with_reducible assumption
   | (extract_lets -merge -underBinder +onlyGivenNames ky; first | (refine State.Kept.cut ‹State.Kept _ _ _› (t := ky) ?_ ?_; subst ky; rotate_left; intro hx; clear_value ky) | clear_value ky)
   | with_reducible apply State.passDone_kept
   | with_reducible apply State.retire_kept
   | with_reducible apply State.setQueueF_kept
   | fail_if_no_progress (with_reducible refine State.Kept.lit ?_ rfl rfl rfl))

theorem State.cpend_kept {kx : Bool} {k0 : State} (q : Nat) (s : State) (hs : k0.Kept kx s) :
    k0.Kept kx (State.cpend q s) := by
  delta State.cpend; beta_reduce
  repeat' (first
   | with_reducible assumption
   | with_reducible apply State.setBit_kept
   | split)

theorem State.countMiss_kept {kx : Bool} {k0 : State} (st : Nat) (s : State) (hs : k0.Kept kx s) :
    k0.Kept kx (State.countMiss st s) := by
  delta State.countMiss; beta_reduce
  repeat' (first
   | with_reducible assumption
   | with_reducible apply State.bump_kept
   | with_reducible apply State.setBit_kept
   | split)

theorem State.setEnc_kept {kx : Bool} {k0 : State} (c : Nat) (x : EncSt) (s : State) (hs : k0.Kept kx s) :
    k0.Kept kx (State.setEnc c x s) := by
  delta State.setEnc; beta_reduce
  repeat' (first
   | with_reducible assumption
   | fail_if_no_progress (with_reducible refine State.Kept.lit ?_ rfl rfl rfl))

theorem State.doneComposed_kept {kx : Bool} {k0 : State} (u : Nat) (j : Job) (s : State) (hs : k0.Kept kx s) :
    k0.Kept kx (State.doneComposed u j s) := by
  delta State.doneComposed; beta_reduce
  repeat' (first
   | with_reducible assumption
   | (extract_lets -merge -underBinder +onlyGivenNames ky; first | (refine State.Kept.cut ‹State.Kept _ _ _› (t := ky) ?_ ?_; subst ky; rotate_left; intro hx; clear_value ky) | clear_value ky)
   | with_reducible apply State.giveBack_kept
   | with_reducible apply State.setEnc_kept
   | split)

theorem State.dropSlot_kept {kx : Bool} {k0 : State} (u : Nat) (j : Job) (st : Nat) (s : State) (hs : k0.Kept kx s) :
    k0.Kept kx (State.dropSlot u j st s) := by
  delta State.dropSlot; beta_reduce
  repeat' (first
   | with_reducible assumption
   | (extract_lets -merge -underBinder +onlyGivenNames ky; first | (refine State.Kept.cut ‹State.Kept _ _ _› (t := ky) ?_ ?_; subst ky; rotate_left; intro hx; clear_value ky) | (refine State.Kept.cut2 ‹State.Kept _ _ _› (t := ky) ?_ ?_; subst ky; rotate_left; intro hx; clear_value ky) | (refine State.Kept.cut3 ‹State.Kept _ _ _› (t := ky) ?_ ?_; subst ky; rotate_left; intro hx; clear_value ky) | (refine State.Kept.cut4 ‹State.Kept _ _ _› (t := ky) ?_ ?_; subst ky; rotate_left; intro hx; clear_value ky) | (have hk : ∀ a, ky a = ky a := (fun _ => rfl); clear hk; subst ky; beta_reduce) | (have hk : ky.broken = ky.broken := rfl; clear hk; subst ky) | (have hk : ky.logWr = ky.logWr := rfl; clear hk; subst ky) | clear_value ky)
   | with_reducible apply State.each_kept
   | with_reducible apply State.whenB_kept
   | with_reducible apply State.Kept.foldl
   | with_reducible apply State.Kept.foldl2
   | with_reducible apply State.Kept.foldl3
   | with_reducible apply State.doneComposed_kept
   | with_reducible apply State.giveBack_kept
   | fail_if_no_progress (with_reducible refine State.Kept.lit ?_ rfl rfl rfl)
   | intro hx
   | (refine State.Kept.pair (by with_reducible assumption) ?_)
   | (refine State.Kept.triple (by with_reducible assumption) ?_)
   | split)

theorem State.lastStatus_kept {kx : Bool} {k0 : State} (j : Job) (st : Nat) (s : State) (hs : k0.Kept kx s) :
    k0.Kept kx (State.lastStatus j st s) := by
  delta State.lastStatus; beta_reduce
  repeat' (first
   | with_reducible assumption
   | with_reducible apply State.setSf_kept
   | fail_if_no_progress (with_reducible refine State.Kept.lit ?_ rfl rfl rfl)
   | intro hx
   | (refine State.Kept.pair (by with_reducible assumption) ?_)
   | (refine State.Kept.triple (by with_reducible assumption) ?_)
   | split)

theorem State.completeUndispatched_kept {kx : Bool} {k0 : State} (q : Nat) (j : Job) (st : Nat) (s : State) (hs : k0.Kept kx s) :
    k0.Kept kx (State.completeUndispatched q j st s) := by
  delta State.completeUndispatched; beta_reduce
  repeat' (first
   | with_reducible assumption
   | (extract_lets -merge -underBinder +onlyGivenNames ky; clear_value ky)
   | with_reducible apply State.countMiss_kept
   | with_reducible apply State.cpend_kept
   | with_reducible apply State.dropSlot_kept
   | with_reducible apply State.indexDone_kept
   | with_reducible apply State.lastStatus_kept
   | with_reducible apply State.writeRecord_kept)

theorem State.retireSilently_kept {kx : Bool} {k0 : State} (q i : Nat) (s : State) (hs : k0.Kept kx s) :
    k0.Kept kx (State.retireSilently q i s) := by
  delta State.retireSilently; beta_reduce
  repeat' (first
   | with_reducible assumption
   | with_reducible apply State.indexDone_kept)

theorem State.queueStart_kept {kx : Bool} {k0 : State} (q : Nat) (s : State) (hs : k0.Kept kx s) :
    k0.Kept kx (State.queueStart q s) := by
  delta State.queueStart; beta_reduce
  repeat' (first
   | with_reducible assumption
   | (extract_lets -merge -underBinder +onlyGivenNames ky; first | (refine State.Kept.cut ‹State.Kept _ _ _› (t := ky) ?_ ?_; subst ky; rotate_left; intro hx; clear_value ky) | clear_value ky)
   | with_reducible apply State.setQErr_kept
   | with_reducible apply State.setQFlag_kept
   | with_reducible apply State.setQState_kept
   | with_reducible apply State.setQTokens_kept
   | with_reducible apply State.setQf_kept
   | with_reducible apply State.setQueueF_kept)

theorem State.queueStopped_kept {kx : Bool} {k0 : State} (q : Nat) (s : State) (hs : k0.Kept kx s) :
    k0.Kept kx (State.queueStopped q s) := by
  delta State.queueStopped; beta_reduce
  repeat' (first
   | with_reducible assumption
   | (extract_lets -merge -underBinder +onlyGivenNames ky; first | (refine State.Kept.cut ‹State.Kept _ _ _› (t := ky) ?_ ?_; subst ky; rotate_left; intro hx; clear_value ky) | clear_value ky)
   | with_reducible apply State.queueStart_kept
   | with_reducible apply State.setBit_kept
   | with_reducible apply State.setQErr_kept
   | with_reducible apply State.setQState_kept
   | with_reducible apply State.setQf_kept
   | fail_if_no_progress (with_reducible refine State.Kept.lit ?_ rfl rfl rfl)
   | intro hx
   | (refine State.Kept.pair (by with_reducible assumption) ?_)
   | (refine State.Kept.triple (by with_reducible assumption) ?_)
   | split)

theorem State.flushQueue_kept {kx : Bool} {k0 : State} (q st : Nat) (c0 : Nat) (s : State) (hs : k0.Kept kx s) :
    k0.Kept kx (State.flushQueue q st c0 s) := by
  induction c0 generalizing  s with
  | zero =>
    unfold State.flushQueue
    repeat' (first
     | with_reducible assumption)
  | succ n ih =>
    unfold State.flushQueue
    repeat' (first
     | with_reducible assumption
     | (extract_lets -merge -underBinder +onlyGivenNames ky; first | (refine State.Kept.cut ‹State.Kept _ _ _› (t := ky) ?_ ?_; subst ky; rotate_left; intro hx; clear_value ky) | clear_value ky)
     | with_reducible apply ih
     | with_reducible apply State.completeUndispatched_kept
     | with_reducible apply State.retireSilently_kept
     | with_reducible apply State.setQf_kept
     | with_reducible apply State.usageAddr_kept
     | split)

theorem State.markJobs_kept {kx : Bool} {k0 : State} (p : Job → Bool) (st : Nat) (s : State) (hs : k0.Kept kx s) :
    k0.Kept kx (State.markJobs p st s) := by
  delta State.markJobs; beta_reduce
  repeat' (first
   | with_reducible assumption
   | with_reducible apply State.each_kept
   | with_reducible apply State.setUnitF_kept
   | intro hx
   | split)

theorem State.queueStop_kept {kx : Bool} {k0 : State} (q : Nat) (halt : Bool) (s : State) (hs : k0.Kept kx s) :
    k0.Kept kx (State.queueStop q halt s) := by
  delta State.queueStop; beta_reduce
  repeat' (first
   | with_reducible assumption
   | (extract_lets -merge -underBinder +onlyGivenNames ky; refine State.Kept.cut ‹State.Kept _ _ _› (t := ky) ?_ ?_; subst ky; rotate_left; intro hx; clear_value ky)
   | with_reducible apply State.whenB_kept
   | with_reducible apply State.flushQueue_kept
   | with_reducible apply State.markJobs_kept
   | with_reducible apply State.queueStopped_kept
   | with_reducible apply State.setQFlag_kept
   | with_reducible apply State.setQState_kept
   | split)

theorem State.refreshTokens_kept {kx : Bool} {k0 : State} (q : Nat) (s : State) (hs : k0.Kept kx s) :
    k0.Kept kx (State.refreshTokens q s) := by
  delta State.refreshTokens; beta_reduce
  repeat' (first
   | with_reducible assumption
   | (extract_lets -merge -underBinder +onlyGivenNames ky; clear_value ky)
   | with_reducible apply State.setQTokens_kept
   | with_reducible apply State.setQueueF_kept
   | split)

theorem State.tagHead_kept {kx : Bool} {k0 : State} (q b : Nat) (s : State) (hs : k0.Kept kx s) :
    k0.Kept kx (State.tagHead q b s) := by
  delta State.tagHead; beta_reduce
  repeat' (first
   | with_reducible assumption
   | (extract_lets -merge -underBinder +onlyGivenNames ky; clear_value ky)
   | with_reducible apply State.setQf_kept
   | with_reducible apply State.setQueueF_kept
   | split)

theorem State.startJob_kept {kx : Bool} {k0 : State} (u : Nat) (j : Job) (s : State) (hs : k0.Kept kx s) :
    k0.Kept kx (State.startJob u j s) := by
  delta State.startJob; beta_reduce
  repeat' (first
   | with_reducible assumption
   | (extract_lets -merge -underBinder +onlyGivenNames ky; first | (refine State.Kept.cut ‹State.Kept _ _ _› (t := ky) ?_ ?_; subst ky; rotate_left; intro hx; clear_value ky) | (refine State.Kept.cut2 ‹State.Kept _ _ _› (t := ky) ?_ ?_; subst ky; rotate_left; intro hx; clear_value ky) | clear_value ky)
   | with_reducible apply State.each_kept
   | with_reducible apply State.whenB_kept
   | with_reducible apply State.Kept.foldl
   | with_reducible apply State.Kept.foldl2
   | with_reducible apply State.Kept.foldl3
   | with_reducible apply State.drawMany_kept
   | with_reducible apply State.free_kept
   | with_reducible apply State.rereadCtx_kept
   | with_reducible apply State.setUnit_kept
   | with_reducible apply State.wr_kept
   | with_reducible apply State.wr40_kept
   | fail_if_no_progress (with_reducible refine State.Kept.lit ?_ rfl rfl rfl)
   | intro hx
   | (refine State.Kept.pair (by with_reducible assumption) ?_)
   | (refine State.Kept.triple (by with_reducible assumption) ?_)
   | split)

theorem State.dispatchTo_kept {kx : Bool} {k0 : State} (q b : Nat) (s : State) (hs : k0.Kept kx s) :
    k0.Kept kx (State.dispatchTo q b s) := by
  delta State.dispatchTo; beta_reduce
  repeat' (first
   | with_reducible assumption
   | (extract_lets -merge -underBinder +onlyGivenNames ky; clear_value ky)
   | with_reducible apply State.each_kept
   | with_reducible apply State.whenB_kept
   | with_reducible apply State.bucketAdd_kept
   | with_reducible apply State.bump_kept
   | with_reducible apply State.bumpMax_kept
   | with_reducible apply State.draw_kept
   | with_reducible apply State.refreshTokens_kept
   | with_reducible apply State.rereadCtx_kept
   | with_reducible apply State.setQTokens_kept
   | with_reducible apply State.setQf_kept
   | with_reducible apply State.setQueueF_kept
   | with_reducible apply State.setUnitF_kept
   | with_reducible apply State.sndCount_kept
   | with_reducible apply State.startJob_kept
   | fail_if_no_progress (with_reducible refine State.Kept.lit ?_ rfl rfl rfl)
   | intro hx
   | (refine State.Kept.pair (by with_reducible assumption) ?_)
   | (refine State.Kept.triple (by with_reducible assumption) ?_)
   | split
   | dsimp only)

theorem State.freeBufs_kept {kx : Bool} {k0 : State} (owner : Nat) (l : List Nat) (s : State) (hs : k0.Kept kx s) :
    k0.Kept kx (State.freeBufs owner l s) := by
  delta State.freeBufs; beta_reduce
  repeat' (first
   | with_reducible assumption
   | with_reducible apply State.each_kept
   | with_reducible apply State.giveBack_kept)

theorem State.finishJob_kept {kx : Bool} {k0 : State} (u st : Nat) (s : State) (hs : k0.Kept kx s) :
    k0.Kept kx (State.finishJob u st s) := by
  delta State.finishJob; beta_reduce
  repeat' (first
   | with_reducible assumption
   | (extract_lets -merge -underBinder +onlyGivenNames ky; first | (refine State.Kept.cut ‹State.Kept _ _ _› (t := ky) ?_ ?_; subst ky; rotate_left; intro hx; clear_value ky) | clear_value ky)
   | with_reducible apply State.each_kept
   | with_reducible apply State.whenB_kept
   | with_reducible apply State.countMiss_kept
   | with_reducible apply State.cpend_kept
   | with_reducible apply State.credit_kept
   | with_reducible apply State.inc_kept
   | with_reducible apply State.indexDone_kept
   | with_reducible apply State.lastStatus_kept
   | with_reducible apply State.queueStopped_kept
   | with_reducible apply State.releaseDone_kept
   | with_reducible apply State.setEng_kept
   | with_reducible apply State.setQf_kept
   | with_reducible apply State.setUnitF_kept
   | with_reducible apply State.sndCount_kept
   | with_reducible apply State.stopDone_kept
   | with_reducible apply State.writeRecord_kept
   | fail_if_no_progress (with_reducible refine State.Kept.lit ?_ rfl rfl rfl)
   | intro hx
   | (refine State.Kept.pair (by with_reducible assumption) ?_)
   | (refine State.Kept.triple (by with_reducible assumption) ?_)
   | split)

theorem State.haltStream_kept {kx : Bool} {k0 : State} (c : Nat) (s : State) (hs : k0.Kept kx s) :
    k0.Kept kx (State.haltStream c s) := by
  delta State.haltStream; beta_reduce
  repeat' (first
   | with_reducible assumption
   | with_reducible apply State.whenB_kept
   | with_reducible apply State.markJobs_kept
   | with_reducible apply State.setCtxState_kept
   | with_reducible apply State.setQState_kept)

theorem State.haltHead_kept {kx : Bool} {k0 : State} (q : Nat) (s : State) (hs : k0.Kept kx s) :
    k0.Kept kx (State.haltHead q s) := by
  delta State.haltHead; beta_reduce
  repeat' (first
   | with_reducible assumption
   | (extract_lets -merge -underBinder +onlyGivenNames ky; clear_value ky)
   | with_reducible apply State.haltStream_kept
   | fail_if_no_progress (with_reducible refine State.Kept.lit ?_ rfl rfl rfl)
   | intro hx
   | (refine State.Kept.pair (by with_reducible assumption) ?_)
   | (refine State.Kept.triple (by with_reducible assumption) ?_)
   | split)

theorem State.settleHead_kept {kx : Bool} {k0 : State} (q : Nat) (s : State) (hs : k0.Kept kx s) :
    k0.Kept kx (State.settleHead q s).2 := by
  delta State.settleHead; beta_reduce
  repeat' (first
   | with_reducible assumption
   | (extract_lets -merge -underBinder +onlyGivenNames ky; first | (refine State.Kept.cut ‹State.Kept _ _ _› (t := ky) ?_ ?_; subst ky; rotate_left; intro hx; clear_value ky) | clear_value ky)
   | with_reducible apply State.whenB_kept
   | with_reducible apply State.badRead_kept
   | with_reducible apply State.completeUndispatched_kept
   | with_reducible apply State.haltHead_kept
   | with_reducible apply State.outboundErr_kept
   | with_reducible apply State.queueStop_kept
   | with_reducible apply State.retireSilently_kept
   | with_reducible apply State.setQErr_kept
   | with_reducible apply State.setQState_kept
   | with_reducible apply State.setQf_kept
   | with_reducible apply State.setQueueF_kept
   | with_reducible apply State.tagHead_kept
   | with_reducible apply State.usageAddr_kept
   | fail_if_no_progress (with_reducible refine State.Kept.lit ?_ rfl rfl rfl)
   | intro hx
   | (refine State.Kept.pair (by with_reducible assumption) ?_)
   | (refine State.Kept.triple (by with_reducible assumption) ?_)
   | split)

theorem State.dispatchOne_kept {kx : Bool} {k0 : State} {s t : State} (hs : k0.Kept kx s) (h : s.dispatchOne = some t) :
    k0.Kept kx t := by
  unfold State.dispatchOne at h
  simp only [Option.map_eq_some_iff] at h
  obtain ⟨p, _, rfl⟩ := h
  split
  · exact State.finishJob_kept _ _ _ (State.dispatchTo_kept _ _ _ hs)
  · exact State.dispatchTo_kept _ _ _ hs

theorem State.dispatchFuel_kept {kx : Bool} {k0 : State} (c0 : Nat) (s : State) (hs : k0.Kept kx s) :
    k0.Kept kx (State.dispatchFuel c0 s) := by
  induction c0 generalizing  s with
  | zero =>
    unfold State.dispatchFuel
    repeat' (first
     | (exact ih _ (State.dispatchOne_kept (by with_reducible assumption) (by with_reducible assumption)))
     | with_reducible assumption)
  | succ n ih =>
    unfold State.dispatchFuel
    repeat' (first
     | (exact ih _ (State.dispatchOne_kept (by with_reducible assumption) (by with_reducible assumption)))
     | with_reducible assumption
     | (extract_lets -merge -underBinder +onlyGivenNames ky; refine State.Kept.cut2 ‹State.Kept _ _ _› (t := ky) ?_ ?_; subst ky; rotate_left; intro hx; clear_value ky)
     | with_reducible apply ih
     | with_reducible apply State.Kept.foldl2
     | with_reducible apply State.settleHead_kept
     | intro hx
     | split)

theorem State.resumeEgress_kept {kx : Bool} {k0 : State} (s : State) (hs : k0.Kept kx s) :
    k0.Kept kx (State.resumeEgress s) := by
  delta State.resumeEgress; beta_reduce
  repeat' (first
   | with_reducible assumption
   | (extract_lets -merge -underBinder +onlyGivenNames ky; first | (refine State.Kept.cut ‹State.Kept _ _ _› (t := ky) ?_ ?_; subst ky; rotate_left; intro hx; clear_value ky) | (have hk : ky.logWr = ky.logWr := rfl; clear hk; subst ky))
   | with_reducible apply State.each_kept
   | with_reducible apply State.setUnitF_kept
   | with_reducible apply State.startJob_kept
   | fail_if_no_progress (with_reducible refine State.Kept.lit ?_ rfl rfl rfl)
   | intro hx
   | split)

theorem State.dispatch_kept {kx : Bool} {k0 : State} (s : State) (hs : k0.Kept kx s) :
    k0.Kept kx (State.dispatch s) := by
  delta State.dispatch; beta_reduce
  repeat' (first
   | with_reducible assumption
   | (extract_lets -merge -underBinder +onlyGivenNames ky; first | (refine State.Kept.cut ‹State.Kept _ _ _› (t := ky) ?_ ?_; subst ky; rotate_left; intro hx; clear_value ky) | clear_value ky)
   | with_reducible apply State.dispatchFuel_kept
   | with_reducible apply State.resumeEgress_kept
   | split)

theorem State.loadCtx_kept {kx : Bool} {k0 : State} (q : Nat) (s : State) (hs : k0.Kept kx s) :
    k0.Kept kx (State.loadCtx q s) := by
  delta State.loadCtx; beta_reduce
  repeat' (first
   | with_reducible assumption
   | (extract_lets -merge -underBinder +onlyGivenNames ky; first | (refine State.Kept.cut ‹State.Kept _ _ _› (t := ky) ?_ ?_; subst ky; rotate_left; intro hx; clear_value ky) | (refine State.Kept.cut2 ‹State.Kept _ _ _› (t := ky) ?_ ?_; subst ky; rotate_left; intro hx; clear_value ky) | clear_value ky)
   | with_reducible apply State.bump_kept
   | with_reducible apply State.draw_kept
   | with_reducible apply State.setQueueF_kept
   | with_reducible apply State.sndCount_kept
   | split)

theorem State.post_kept {kx : Bool} {k0 : State} (q : Nat) (bytes : List Nat) (deps : List (Nat × Nat)) (s : State) (hs : k0.Kept kx s) :
    k0.Kept kx (State.post q bytes deps s).2.2 := by
  delta State.post; beta_reduce
  repeat' (first
   | with_reducible assumption
   | (extract_lets -merge -underBinder +onlyGivenNames ky; first | (refine State.Kept.cut ‹State.Kept _ _ _› (t := ky) ?_ ?_; subst ky; rotate_left; intro hx; clear_value ky) | clear_value ky)
   | with_reducible apply State.setBit_kept
   | with_reducible apply State.setQf_kept
   | with_reducible apply State.setQueueF_kept
   | with_reducible apply State.writeMem_kept
   | fail_if_no_progress (with_reducible refine State.Kept.lit ?_ rfl rfl rfl)
   | intro hx
   | (refine State.Kept.pair (by with_reducible assumption) ?_)
   | (refine State.Kept.triple (by with_reducible assumption) ?_)
   | split)

theorem State.doorbell_kept {kx : Bool} {k0 : State} (agent q new : Nat) (s : State) (hs : k0.Kept kx s) :
    k0.Kept kx (State.doorbell agent q new s) := by
  delta State.doorbell; beta_reduce
  repeat' (first
   | with_reducible assumption
   | (extract_lets -merge -underBinder +onlyGivenNames ky; clear_value ky)
   | with_reducible apply State.whenB_kept
   | with_reducible apply State.bump_kept
   | with_reducible apply State.report_kept
   | with_reducible apply State.setBit_kept
   | with_reducible apply State.setQErr_kept
   | with_reducible apply State.setQf_kept
   | with_reducible apply State.setQueueF_kept
   | with_reducible apply State.sndCount_kept
   | fail_if_no_progress (with_reducible refine State.Kept.lit ?_ rfl rfl rfl)
   | intro hx
   | (refine State.Kept.pair (by with_reducible assumption) ?_)
   | (refine State.Kept.triple (by with_reducible assumption) ?_)
   | split
   | dsimp only)

theorem State.deliver_kept {kx : Bool} {k0 : State} (q kind src len buf tide : Nat) (s : State) (hs : k0.Kept kx s) :
    k0.Kept kx (State.deliver q kind src len buf tide s) := by
  delta State.deliver; beta_reduce
  repeat' (first
   | with_reducible assumption
   | (extract_lets -merge -underBinder +onlyGivenNames ky; first | (have hk : ∀ a, ky a = ky a := (fun _ => rfl); clear hk; subst ky; beta_reduce) | clear_value ky)
   | with_reducible apply State.bump_kept
   | with_reducible apply State.cpend_kept
   | with_reducible apply State.giveBack_kept
   | with_reducible apply State.setQf_kept
   | with_reducible apply State.writeMem_kept
   | fail_if_no_progress (with_reducible refine State.Kept.lit ?_ rfl rfl rfl)
   | intro hx
   | (refine State.Kept.pair (by with_reducible assumption) ?_)
   | (refine State.Kept.triple (by with_reducible assumption) ?_)
   | split)

end Sys2Proof.Machine
end

