-- ==== Sys2Proof/Laws/KeptSndLog.lean ====
section
/-! SUPPORT. What the operations of Machine/SndLog.lean keep (Laws/Kept.lean), one lemma each. -/

namespace Sys2Proof.Machine

theorem State.sndDrop_kept {kx : Bool} {k0 : State} (s : State) (hs : k0.Kept kx s) :
    k0.Kept kx (State.sndDrop s) := by
  delta State.sndDrop; beta_reduce
  repeat' (first
   | with_reducible assumption
   | with_reducible apply State.bump_kept
   | with_reducible apply State.setBit_kept)

theorem State.sndRecord_kept {kx : Bool} {k0 : State} (bs : List Nat) (s : State) (hs : k0.Kept kx s) :
    k0.Kept kx (State.sndRecord bs s).2 := by
  delta State.sndRecord; beta_reduce
  repeat' (first
   | with_reducible assumption
   | (extract_lets -merge -underBinder +onlyGivenNames ky; first | (refine State.Kept.cut2 ‹State.Kept _ _ _› (t := ky) ?_ ?_; subst ky; rotate_left; intro hx; clear_value ky) | clear_value ky)
   | with_reducible apply State.inc_kept
   | with_reducible apply State.sndDrop_kept
   | with_reducible apply State.writeMem_kept
   | split)

theorem State.tagEnd_kept {kx : Bool} {k0 : State} (unit c src : Nat) (encode : Bool) (t : TagOut) (s : State) (hs : k0.Kept kx s) :
    k0.Kept kx (State.tagEnd unit c src encode t s) := by
  delta State.tagEnd; beta_reduce
  repeat' (first
   | with_reducible assumption
   | (extract_lets -merge -underBinder +onlyGivenNames ky; refine State.Kept.cut2 ‹State.Kept _ _ _› (t := ky) ?_ ?_; subst ky; rotate_left; intro hx; clear_value ky)
   | with_reducible apply State.whenB_kept
   | with_reducible apply State.bump_kept
   | with_reducible apply State.setBit_kept
   | with_reducible apply State.sndRecord_kept)

theorem State.tagRun_kept {kx : Bool} {k0 : State} (unit c src : Nat) (encode : Bool) (c0 : Nat) (c1 : List (Option TagOut)) (s : State) (hs : k0.Kept kx s) :
    k0.Kept kx (State.tagRun unit c src encode c0 c1 s) := by
  induction c0 generalizing c1 s with
  | zero =>
    unfold State.tagRun
    repeat' (first
     | with_reducible assumption)
  | succ n ih =>
    unfold State.tagRun
    repeat' (first
     | with_reducible assumption
     | (extract_lets -merge -underBinder +onlyGivenNames ky; first | (refine State.Kept.cut ‹State.Kept _ _ _› (t := ky) ?_ ?_; subst ky; rotate_left; intro hx; clear_value ky) | clear_value ky)
     | with_reducible apply ih
     | with_reducible apply State.bump_kept
     | with_reducible apply State.tagEnd_kept
     | fail_if_no_progress (with_reducible refine State.Kept.lit ?_ rfl rfl rfl)
     | split)

theorem State.tagPicture_kept {kx : Bool} {k0 : State} (encode : Bool) (x : TagRun) (j : Job) (s : State) (hs : k0.Kept kx s) :
    k0.Kept kx (State.tagPicture encode x j s) := by
  delta State.tagPicture; beta_reduce
  repeat' (first
   | with_reducible assumption
   | (extract_lets -merge -underBinder +onlyGivenNames ky; clear_value ky)
   | with_reducible apply State.tagRun_kept
   | split)

end Sys2Proof.Machine
end

