-- ==== Sys2Proof/Laws/KeptBooking.lean ====
section
/-! SUPPORT. What the operations of Machine/Booking.lean keep (Laws/Kept.lean), one lemma each. -/

namespace Sys2Proof.Machine

theorem State.streamQueue_kept {kx : Bool} {k0 : State} (q : Nat) (producer : Bool) (s : State) (hs : k0.Kept kx s) :
    k0.Kept kx (State.streamQueue q producer s) := by
  delta State.streamQueue; beta_reduce
  repeat' (first
   | with_reducible assumption
   | (extract_lets -merge -underBinder +onlyGivenNames ky; refine State.Kept.cut ‹State.Kept _ _ _› (t := ky) ?_ ?_; subst ky; rotate_left; intro hx; clear_value ky)
   | with_reducible apply State.queueStart_kept
   | with_reducible apply State.setQFlag_kept
   | with_reducible apply State.setQf_kept
   | with_reducible apply State.setQueueF_kept)

theorem State.enterBooking_kept {kx : Bool} {k0 : State} (c q : Nat) (producer : Bool) (b : Booking) (s : State) (hs : k0.Kept kx s) :
    k0.Kept kx (State.enterBooking c q producer b s).2 := by
  delta State.enterBooking; beta_reduce
  repeat' (first
   | with_reducible assumption
   | (extract_lets -merge -underBinder +onlyGivenNames ky; first | (refine State.Kept.cut ‹State.Kept _ _ _› (t := ky) ?_ ?_; subst ky; rotate_left; intro hx; clear_value ky) | clear_value ky)
   | with_reducible apply State.each_kept
   | with_reducible apply State.afterSpares_kept
   | with_reducible apply State.reserve_kept
   | with_reducible apply State.setBook_kept
   | with_reducible apply State.streamQueue_kept
   | intro hx
   | split)

theorem State.bookCtx_kept {kx : Bool} {k0 : State} (c : Nat) (s : State) (hs : k0.Kept kx s) :
    k0.Kept kx (State.bookCtx c s).2 := by
  delta State.bookCtx; beta_reduce
  repeat' (first
   | with_reducible assumption
   | (extract_lets -merge -underBinder +onlyGivenNames ky; clear_value ky)
   | with_reducible apply State.enterBooking_kept
   | split)

theorem State.bookOutput_kept {kx : Bool} {k0 : State} (n : Nat) (s : State) (hs : k0.Kept kx s) :
    k0.Kept kx (State.bookOutput n s).2 := by
  delta State.bookOutput; beta_reduce
  repeat' (first
   | with_reducible assumption
   | (extract_lets -merge -underBinder +onlyGivenNames ky; clear_value ky)
   | with_reducible apply State.enterBooking_kept
   | split)

theorem State.unbook_kept {kx : Bool} {k0 : State} (c : Nat) (s : State) (hs : k0.Kept kx s) :
    k0.Kept kx (State.unbook c s) := by
  delta State.unbook; beta_reduce
  repeat' (first
   | with_reducible assumption
   | (extract_lets -merge -underBinder +onlyGivenNames ky; first | (refine State.Kept.cut ‹State.Kept _ _ _› (t := ky) ?_ ?_; subst ky; rotate_left; intro hx; clear_value ky) | clear_value ky)
   | with_reducible apply State.each_kept
   | with_reducible apply State.afterSpares_kept
   | with_reducible apply State.unbind_kept
   | fail_if_no_progress (with_reducible refine State.Kept.lit ?_ rfl rfl rfl)
   | intro hx)

theorem State.moveLane_kept {kx : Bool} {k0 : State} (c : Nat) (old new : List (Nat × Nat × Nat)) (s : State) (hs : k0.Kept kx s) :
    k0.Kept kx (State.moveLane c old new s) := by
  delta State.moveLane; beta_reduce
  repeat' (first
   | with_reducible assumption
   | (extract_lets -merge -underBinder +onlyGivenNames ky; clear_value ky)
   | with_reducible apply State.each_kept
   | with_reducible apply State.whenB_kept
   | with_reducible apply State.Kept.foldl
   | with_reducible apply State.Kept.foldl2
   | with_reducible apply State.Kept.foldl3
   | with_reducible apply State.reserve_kept
   | with_reducible apply State.unbind_kept
   | fail_if_no_progress (with_reducible refine State.Kept.lit ?_ rfl rfl rfl)
   | intro hx)

theorem State.followLayout_kept {kx : Bool} {k0 : State} (c : Nat) (s : State) (hs : k0.Kept kx s) :
    k0.Kept kx (State.followLayout c s) := by
  delta State.followLayout; beta_reduce
  repeat' (first
   | with_reducible assumption
   | (extract_lets -merge -underBinder +onlyGivenNames ky; first | (refine State.Kept.cut ‹State.Kept _ _ _› (t := ky) ?_ ?_; subst ky; rotate_left; intro hx; clear_value ky) | (have hk : ∀ a, ky a = ky a := (fun _ => rfl); clear hk; subst ky; beta_reduce) | clear_value ky)
   | with_reducible apply State.each_kept
   | with_reducible apply State.whenB_kept
   | with_reducible apply State.Kept.foldl
   | with_reducible apply State.Kept.foldl2
   | with_reducible apply State.Kept.foldl3
   | with_reducible apply State.moveLane_kept
   | with_reducible apply State.setBit_kept
   | with_reducible apply State.setBook_kept
   | fail_if_no_progress (with_reducible refine State.Kept.lit ?_ rfl rfl rfl)
   | intro hx
   | (refine State.Kept.pair (by with_reducible assumption) ?_)
   | (refine State.Kept.triple (by with_reducible assumption) ?_)
   | split)

theorem State.followLayouts_kept {kx : Bool} {k0 : State} (s : State) (hs : k0.Kept kx s) :
    k0.Kept kx (State.followLayouts s) := by
  delta State.followLayouts; beta_reduce
  repeat' (first
   | with_reducible assumption
   | (extract_lets -merge -underBinder +onlyGivenNames ky; first | (refine State.Kept.cut ‹State.Kept _ _ _› (t := ky) ?_ ?_; subst ky; rotate_left; intro hx; clear_value ky) | (refine State.Kept.cut2 ‹State.Kept _ _ _› (t := ky) ?_ ?_; subst ky; rotate_left; intro hx; clear_value ky) | (refine State.Kept.cut3 ‹State.Kept _ _ _› (t := ky) ?_ ?_; subst ky; rotate_left; intro hx; clear_value ky) | (refine State.Kept.cut4 ‹State.Kept _ _ _› (t := ky) ?_ ?_; subst ky; rotate_left; intro hx; clear_value ky) | (have hk : ∀ a, ky a = ky a := (fun _ => rfl); clear hk; subst ky; beta_reduce) | (have hk : ky.broken = ky.broken := rfl; clear hk; subst ky) | (have hk : ky.logWr = ky.logWr := rfl; clear hk; subst ky) | clear_value ky)
   | with_reducible apply State.each_kept
   | with_reducible apply State.whenB_kept
   | with_reducible apply State.Kept.foldl
   | with_reducible apply State.Kept.foldl2
   | with_reducible apply State.Kept.foldl3
   | with_reducible apply State.followLayout_kept)

theorem State.withdraw_kept {kx : Bool} {k0 : State} (c : Nat) (s : State) (hs : k0.Kept kx s) :
    k0.Kept kx (State.withdraw c s).2 := by
  delta State.withdraw; beta_reduce
  repeat' (first
   | with_reducible assumption
   | with_reducible apply State.unbook_kept
   | split)

theorem bookStatus_kept {kx : Bool} {k0 : State} (c : Nat) (r : Nat × State) (hs : k0.Kept kx r.2) :
    k0.Kept kx (bookStatus c r) := by
  delta bookStatus; beta_reduce
  repeat' (first
   | with_reducible assumption
   | with_reducible apply State.setBit_kept
   | with_reducible apply State.wr_kept)

theorem State.bookCmd_kept {kx : Bool} {k0 : State} (agent op n : Nat) (s : State) (hs : k0.Kept kx s) :
    k0.Kept kx (State.bookCmd agent op n s) := by
  delta State.bookCmd; beta_reduce
  repeat' (first
   | with_reducible assumption
   | with_reducible apply State.bookCtx_kept
   | with_reducible apply State.bookOutput_kept
   | with_reducible apply bookStatus_kept
   | with_reducible apply State.dispatch_kept
   | with_reducible apply State.usageReg_kept
   | with_reducible apply State.withdraw_kept
   | split)

theorem State.qcErr_kept {kx : Bool} {k0 : State} (e : Nat) (s : State) (hs : k0.Kept kx s) :
    k0.Kept kx (State.qcErr e s) := by
  delta State.qcErr; beta_reduce
  repeat' (first
   | with_reducible assumption
   | with_reducible apply State.wr_kept)

theorem State.qcRead_kept {kx : Bool} {k0 : State} (q : Nat) (s : State) (hs : k0.Kept kx s) :
    k0.Kept kx (State.qcRead q s) := by
  delta State.qcRead; beta_reduce
  repeat' (first
   | with_reducible assumption
   | with_reducible apply State.each_kept
   | with_reducible apply State.qcErr_kept
   | with_reducible apply State.wr_kept
   | intro hx)

theorem State.qcWrite_kept {kx : Bool} {k0 : State} (q : Nat) (s : State) (hs : k0.Kept kx s) :
    k0.Kept kx (State.qcWrite q s) := by
  delta State.qcWrite; beta_reduce
  repeat' (first
   | with_reducible assumption
   | (extract_lets -merge -underBinder +onlyGivenNames ky; first | (refine State.Kept.cut ‹State.Kept _ _ _› (t := ky) ?_ ?_; subst ky; rotate_left; intro hx; clear_value ky) | clear_value ky)
   | with_reducible apply State.whenB_kept
   | with_reducible apply State.markJobs_kept
   | with_reducible apply State.qcErr_kept
   | with_reducible apply State.setQState_kept
   | with_reducible apply State.setQf_kept
   | with_reducible apply State.setQueueF_kept
   | split)

theorem State.qcEnable_kept {kx : Bool} {k0 : State} (q : Nat) (s : State) (hs : k0.Kept kx s) :
    k0.Kept kx (State.qcEnable q s) := by
  delta State.qcEnable; beta_reduce
  repeat' (first
   | with_reducible assumption
   | (extract_lets -merge -underBinder +onlyGivenNames ky; first | (refine State.Kept.cut ‹State.Kept _ _ _› (t := ky) ?_ ?_; subst ky; rotate_left; intro hx; clear_value ky) | clear_value ky)
   | with_reducible apply State.qcErr_kept
   | with_reducible apply State.queueStart_kept
   | with_reducible apply State.setQFlag_kept
   | with_reducible apply State.setQueueF_kept
   | fail_if_no_progress (with_reducible refine State.Kept.lit ?_ rfl rfl rfl)
   | intro hx
   | (refine State.Kept.pair (by with_reducible assumption) ?_)
   | (refine State.Kept.triple (by with_reducible assumption) ?_)
   | split)

theorem State.qcDisable_kept {kx : Bool} {k0 : State} (q : Nat) (s : State) (hs : k0.Kept kx s) :
    k0.Kept kx (State.qcDisable q s) := by
  delta State.qcDisable; beta_reduce
  repeat' (first
   | with_reducible assumption
   | with_reducible apply State.qcErr_kept
   | with_reducible apply State.queueStop_kept
   | with_reducible apply State.setQueueF_kept
   | split)

theorem State.qcCmd_kept {kx : Bool} {k0 : State} (agent : Nat) (f : Nat → State → State) (s : State) (hf : ∀ a0 a1, k0.Kept kx a1 → k0.Kept kx (f a0 a1)) (hs : k0.Kept kx s) :
    k0.Kept kx (State.qcCmd agent f s) := by
  delta State.qcCmd; beta_reduce
  repeat' (first
   | with_reducible assumption
   | with_reducible apply hf
   | with_reducible apply State.dispatch_kept
   | with_reducible apply State.usageReg_kept
   | split)

theorem State.gatePend_kept {kx : Bool} {k0 : State} (k t0 : Nat) (s : State) (hs : k0.Kept kx s) :
    k0.Kept kx (State.gatePend k t0 s) := by
  delta State.gatePend; beta_reduce
  repeat' (first
   | with_reducible assumption
   | (extract_lets -merge -underBinder +onlyGivenNames ky; clear_value ky)
   | with_reducible apply State.setGate_kept)

theorem State.gateTakeover_kept {kx : Bool} {k0 : State} (k : Nat) (s : State) (hs : k0.Kept kx s) :
    k0.Kept kx (State.gateTakeover k s) := by
  delta State.gateTakeover; beta_reduce
  repeat' (first
   | with_reducible assumption
   | (extract_lets -merge -underBinder +onlyGivenNames ky; clear_value ky)
   | with_reducible apply State.whenB_kept
   | with_reducible apply State.dispatch_kept
   | with_reducible apply State.setBit_kept
   | with_reducible apply State.setGate_kept
   | split)

theorem State.gateStep_kept {kx : Bool} {k0 : State} (k : Nat) (s : State) (hs : k0.Kept kx s) :
    k0.Kept kx (State.gateStep k s) := by
  delta State.gateStep; beta_reduce
  repeat' (first
   | with_reducible assumption
   | (extract_lets -merge -underBinder +onlyGivenNames ky; clear_value ky)
   | with_reducible apply State.dispatch_kept
   | with_reducible apply State.setGate_kept
   | split)

theorem State.sampleQueues_kept {kx : Bool} {k0 : State} (ended : Nat) (s : State) (hs : k0.Kept kx s) :
    k0.Kept kx (State.sampleQueues ended s) := by
  delta State.sampleQueues; beta_reduce
  repeat' (first
   | with_reducible assumption
   | (extract_lets -merge -underBinder +onlyGivenNames ky; first | (refine State.Kept.cut ‹State.Kept _ _ _› (t := ky) ?_ ?_; subst ky; rotate_left; intro hx; clear_value ky) | clear_value ky)
   | with_reducible apply State.each_kept
   | with_reducible apply State.inc_kept
   | with_reducible apply State.setBit_kept
   | with_reducible apply State.writeMem_kept
   | fail_if_no_progress (with_reducible refine State.Kept.lit ?_ rfl rfl rfl)
   | intro hx
   | split)

end Sys2Proof.Machine
end

