-- ==== Sys2Proof/Laws/KeptSamples.lean ====
section
/-! SUPPORT. What the operations of Machine/Samples.lean keep (Laws/Kept.lean), one lemma each. -/

namespace Sys2Proof.Machine

theorem State.storePic_kept {kx : Bool} {k0 : State} (u a size : Nat) (p : Pic) (s : State) (hs : k0.Kept kx s) :
    k0.Kept kx (State.storePic u a size p s) := by
  delta State.storePic; beta_reduce
  repeat' (first
   | with_reducible assumption
   | with_reducible apply State.each_kept
   | with_reducible apply State.writeMem_kept
   | fail_if_no_progress (with_reducible refine State.Kept.lit ?_ rfl rfl rfl)
   | intro hx
   | (refine State.Kept.pair (by with_reducible assumption) ?_)
   | (refine State.Kept.triple (by with_reducible assumption) ?_)
   | split)

end Sys2Proof.Machine
end

