-- ==== Sys2Proof/Laws/KeptJobs.lean ====
section
/-! SUPPORT. What the operations of Machine/Jobs.lean keep (Laws/Kept.lean), one lemma each. -/

namespace Sys2Proof.Machine

theorem State.setJob_kept {kx : Bool} {k0 : State} (u : Nat) (j : Job) (s : State) (hs : k0.Kept kx s) :
    k0.Kept kx (State.setJob u j s) := by
  delta State.setJob; beta_reduce
  repeat' (first
   | with_reducible assumption
   | with_reducible apply State.setUnitF_kept)

theorem State.ptrUsage_kept {kx : Bool} {k0 : State} (u : Nat) (j : Job) (s : State) (hs : k0.Kept kx s) :
    k0.Kept kx (State.ptrUsage u j s) := by
  delta State.ptrUsage; beta_reduce
  repeat' (first
   | with_reducible assumption
   | with_reducible apply State.badRead_kept
   | with_reducible apply State.outboundErr_kept
   | with_reducible apply State.usageAddr_kept
   | fail_if_no_progress (with_reducible refine State.Kept.lit ?_ rfl rfl rfl)
   | intro hx
   | (refine State.Kept.pair (by with_reducible assumption) ?_)
   | (refine State.Kept.triple (by with_reducible assumption) ?_)
   | split)

theorem State.setQuay_kept {kx : Bool} {k0 : State} (t : Nat) (l : List QuayPic) (s : State) (hs : k0.Kept kx s) :
    k0.Kept kx (State.setQuay t l s) := by
  delta State.setQuay; beta_reduce
  repeat' (first
   | with_reducible assumption
   | fail_if_no_progress (with_reducible refine State.Kept.lit ?_ rfl rfl rfl))

theorem State.quayShow_kept {kx : Bool} {k0 : State} (t : Nat) (s : State) (hs : k0.Kept kx s) :
    k0.Kept kx (State.quayShow t s) := by
  delta State.quayShow; beta_reduce
  repeat' (first
   | with_reducible assumption
   | (extract_lets -merge -underBinder +onlyGivenNames ky; first | (refine State.Kept.cut ‹State.Kept _ _ _› (t := ky) ?_ ?_; subst ky; rotate_left; intro hx; clear_value ky) | (refine State.Kept.cut2 ‹State.Kept _ _ _› (t := ky) ?_ ?_; subst ky; rotate_left; intro hx; clear_value ky) | (refine State.Kept.cut3 ‹State.Kept _ _ _› (t := ky) ?_ ?_; subst ky; rotate_left; intro hx; clear_value ky) | (refine State.Kept.cut4 ‹State.Kept _ _ _› (t := ky) ?_ ?_; subst ky; rotate_left; intro hx; clear_value ky) | (have hk : ∀ a, ky a = ky a := (fun _ => rfl); clear hk; subst ky; beta_reduce) | (have hk : ky.broken = ky.broken := rfl; clear hk; subst ky) | (have hk : ky.logWr = ky.logWr := rfl; clear hk; subst ky) | clear_value ky)
   | with_reducible apply State.each_kept
   | with_reducible apply State.wr_kept
   | fail_if_no_progress (with_reducible refine State.Kept.lit ?_ rfl rfl rfl)
   | intro hx)

theorem State.quayRead_kept {kx : Bool} {k0 : State} (t : Nat) (s : State) (hs : k0.Kept kx s) :
    k0.Kept kx (State.quayRead t s) := by
  delta State.quayRead; beta_reduce
  repeat' (first
   | with_reducible assumption
   | with_reducible apply State.each_kept
   | with_reducible apply State.whenB_kept
   | with_reducible apply State.setBit_kept
   | fail_if_no_progress (with_reducible refine State.Kept.lit ?_ rfl rfl rfl)
   | intro hx)

theorem State.quayPut_kept {kx : Bool} {k0 : State} (t : Nat) (x : QuayPic) (s : State) (hs : k0.Kept kx s) :
    k0.Kept kx (State.quayPut t x s) := by
  delta State.quayPut; beta_reduce
  repeat' (first
   | with_reducible assumption
   | with_reducible apply State.quayShow_kept
   | with_reducible apply State.setQuay_kept)

theorem State.quayAdd_kept {kx : Bool} {k0 : State} (t : Nat) (x : QuayPic) (s : State) (hs : k0.Kept kx s) :
    k0.Kept kx (State.quayAdd t x s) := by
  delta State.quayAdd; beta_reduce
  repeat' (first
   | with_reducible assumption
   | with_reducible apply State.quayShow_kept
   | with_reducible apply State.setQuay_kept)

theorem State.quayDrop_kept {kx : Bool} {k0 : State} (t c seq : Nat) (s : State) (hs : k0.Kept kx s) :
    k0.Kept kx (State.quayDrop t c seq s) := by
  delta State.quayDrop; beta_reduce
  repeat' (first
   | with_reducible assumption
   | with_reducible apply State.quayShow_kept
   | with_reducible apply State.setQuay_kept)

theorem State.setDec_kept {kx : Bool} {k0 : State} (c : Nat) (x : DecSt) (s : State) (hs : k0.Kept kx s) :
    k0.Kept kx (State.setDec c x s) := by
  delta State.setDec; beta_reduce
  repeat' (first
   | with_reducible assumption
   | fail_if_no_progress (with_reducible refine State.Kept.lit ?_ rfl rfl rfl))

theorem State.clearRefs_kept {kx : Bool} {k0 : State} (c off n : Nat) (s : State) (hs : k0.Kept kx s) :
    k0.Kept kx (State.clearRefs c off n s) := by
  delta State.clearRefs; beta_reduce
  repeat' (first
   | with_reducible assumption
   | with_reducible apply State.each_kept
   | with_reducible apply State.setSf_kept
   | intro hx)

theorem State.retireRefs_kept {kx : Bool} {k0 : State} (c : Nat) (s : State) (hs : k0.Kept kx s) :
    k0.Kept kx (State.retireRefs c s) := by
  delta State.retireRefs; beta_reduce
  repeat' (first
   | with_reducible assumption
   | (extract_lets -merge -underBinder +onlyGivenNames ky; clear_value ky)
   | with_reducible apply State.clearRefs_kept
   | with_reducible apply State.setDec_kept)

theorem State.stopCheck_kept {kx : Bool} {k0 : State} (c : Nat) (s : State) (hs : k0.Kept kx s) :
    k0.Kept kx (State.stopCheck c s) := by
  delta State.stopCheck; beta_reduce
  repeat' (first
   | with_reducible assumption
   | (extract_lets -merge -underBinder +onlyGivenNames ky; first | (refine State.Kept.cut ‹State.Kept _ _ _› (t := ky) ?_ ?_; subst ky; rotate_left; intro hx; clear_value ky) | clear_value ky)
   | with_reducible apply State.each_kept
   | with_reducible apply State.whenB_kept
   | with_reducible apply State.clearRefs_kept
   | with_reducible apply State.composed_kept
   | with_reducible apply State.finishJob_kept
   | with_reducible apply State.freeBufs_kept
   | with_reducible apply State.incSf_kept
   | with_reducible apply State.retireRefs_kept
   | with_reducible apply State.setBook_kept
   | with_reducible apply State.setCtxState_kept
   | with_reducible apply State.setEnc_kept
   | fail_if_no_progress (with_reducible refine State.Kept.lit ?_ rfl rfl rfl)
   | intro hx
   | (refine State.Kept.pair (by with_reducible assumption) ?_)
   | (refine State.Kept.triple (by with_reducible assumption) ?_)
   | split)

theorem State.endJob_kept {kx : Bool} {k0 : State} (u st : Nat) (s : State) (hs : k0.Kept kx s) :
    k0.Kept kx (State.endJob u st s) := by
  delta State.endJob; beta_reduce
  repeat' (first
   | with_reducible assumption
   | with_reducible apply State.dispatch_kept
   | with_reducible apply State.finishJob_kept
   | with_reducible apply State.queueStopped_kept
   | with_reducible apply State.stopCheck_kept
   | split)

theorem State.abandonJob_kept {kx : Bool} {k0 : State} (u st : Nat) (s : State) (hs : k0.Kept kx s) :
    k0.Kept kx (State.abandonJob u st s) := by
  delta State.abandonJob; beta_reduce
  repeat' (first
   | with_reducible assumption
   | (extract_lets -merge -underBinder +onlyGivenNames ky; refine State.Kept.cut ‹State.Kept _ _ _› (t := ky) ?_ ?_; subst ky; rotate_left; intro hx; clear_value ky)
   | with_reducible apply State.endJob_kept
   | with_reducible apply State.freeBufs_kept
   | with_reducible apply State.giveBack_kept
   | with_reducible apply State.quayDrop_kept
   | with_reducible apply State.setUnitF_kept
   | split)

theorem State.stopStream_kept {kx : Bool} {k0 : State} (c : Nat) (halt : Bool) (s : State) (hs : k0.Kept kx s) :
    k0.Kept kx (State.stopStream c halt s) := by
  delta State.stopStream; beta_reduce
  repeat' (first
   | with_reducible assumption
   | (extract_lets -merge -underBinder +onlyGivenNames ky; first | (refine State.Kept.cut ‹State.Kept _ _ _› (t := ky) ?_ ?_; subst ky; rotate_left; intro hx; clear_value ky) | clear_value ky)
   | with_reducible apply State.whenB_kept
   | with_reducible apply State.haltStream_kept
   | with_reducible apply State.queueStop_kept
   | with_reducible apply State.queueStopped_kept
   | with_reducible apply State.setCtxState_kept
   | with_reducible apply State.stopCheck_kept
   | fail_if_no_progress (with_reducible refine State.Kept.lit ?_ rfl rfl rfl)
   | intro hx
   | (refine State.Kept.pair (by with_reducible assumption) ?_)
   | (refine State.Kept.triple (by with_reducible assumption) ?_)
   | split)

theorem State.runJob_kept {kx : Bool} {k0 : State} (u op : Nat) (needsStart : Bool) (f : Job → State → State) (s : State) (hf : ∀ a0 a1, k0.Kept kx a1 → k0.Kept kx (f a0 a1)) (hs : k0.Kept kx s) :
    k0.Kept kx (State.runJob u op needsStart f s) := by
  delta State.runJob; beta_reduce
  repeat' (first
   | with_reducible assumption
   | with_reducible apply State.whenB_kept
   | with_reducible apply State.abandonJob_kept
   | with_reducible apply State.ptrUsage_kept
   | with_reducible apply hf
   | fail_if_no_progress (with_reducible refine State.Kept.lit ?_ rfl rfl rfl)
   | intro hx
   | (refine State.Kept.pair (by with_reducible assumption) ?_)
   | (refine State.Kept.triple (by with_reducible assumption) ?_)
   | split)

end Sys2Proof.Machine
end

