-- ==== Sys2Proof/Laws/KeptDecode.lean ====
section
/-! SUPPORT. What the operations of Machine/Decode.lean keep (Laws/Kept.lean), one lemma each. -/

namespace Sys2Proof.Machine

theorem State.askRefresh_kept {kx : Bool} {k0 : State} (c : Nat) (s : State) (hs : k0.Kept kx s) :
    k0.Kept kx (State.askRefresh c s) := by
  delta State.askRefresh; beta_reduce
  repeat' (first
   | with_reducible assumption
   | (extract_lets -merge -underBinder +onlyGivenNames ky; first | (refine State.Kept.cut ‹State.Kept _ _ _› (t := ky) ?_ ?_; subst ky; rotate_left; intro hx; clear_value ky) | clear_value ky)
   | with_reducible apply State.each_kept
   | with_reducible apply State.bump_kept
   | with_reducible apply State.emit_kept
   | with_reducible apply State.incSf_kept
   | with_reducible apply State.setDec_kept
   | fail_if_no_progress (with_reducible refine State.Kept.lit ?_ rfl rfl rfl)
   | intro hx
   | (refine State.Kept.pair (by with_reducible assumption) ?_)
   | (refine State.Kept.triple (by with_reducible assumption) ?_)
   | split)

theorem State.await_kept {kx : Bool} {k0 : State} (c held : Nat) (s : State) (hs : k0.Kept kx s) :
    k0.Kept kx (State.await c held s) := by
  delta State.await; beta_reduce
  repeat' (first
   | with_reducible assumption
   | (extract_lets -merge -underBinder +onlyGivenNames ky; first | (refine State.Kept.cut ‹State.Kept _ _ _› (t := ky) ?_ ?_; subst ky; rotate_left; intro hx; clear_value ky) | clear_value ky)
   | with_reducible apply State.whenB_kept
   | with_reducible apply State.askRefresh_kept
   | with_reducible apply State.setCtxState_kept
   | with_reducible apply State.setDec_kept
   | with_reducible apply State.setSf_kept)

theorem State.refreshRepeat_kept {kx : Bool} {k0 : State} (c : Nat) (s : State) (hs : k0.Kept kx s) :
    k0.Kept kx (State.refreshRepeat c s) := by
  delta State.refreshRepeat; beta_reduce
  repeat' (first
   | with_reducible assumption
   | (extract_lets -merge -underBinder +onlyGivenNames ky; clear_value ky)
   | with_reducible apply State.askRefresh_kept
   | fail_if_no_progress (with_reducible refine State.Kept.lit ?_ rfl rfl rfl)
   | intro hx
   | (refine State.Kept.pair (by with_reducible assumption) ?_)
   | (refine State.Kept.triple (by with_reducible assumption) ?_)
   | split)

theorem State.decStart_kept {kx : Bool} {k0 : State} (u : Nat) (j : Job) (s : State) (hs : k0.Kept kx s) :
    k0.Kept kx (State.decStart u j s) := by
  delta State.decStart; beta_reduce
  repeat' (first
   | with_reducible assumption
   | (extract_lets -merge -underBinder +onlyGivenNames ky; first | (refine State.Kept.cut ‹State.Kept _ _ _› (t := ky) ?_ ?_; subst ky; rotate_left; intro hx; clear_value ky) | clear_value ky)
   | with_reducible apply State.each_kept
   | with_reducible apply State.whenB_kept
   | with_reducible apply State.Kept.foldl
   | with_reducible apply State.Kept.foldl2
   | with_reducible apply State.Kept.foldl3
   | with_reducible apply State.await_kept
   | with_reducible apply State.clearRefs_kept
   | with_reducible apply State.endJob_kept
   | with_reducible apply State.readCtx_kept
   | with_reducible apply State.setDec_kept
   | with_reducible apply State.setJob_kept
   | with_reducible apply State.setSf_kept
   | with_reducible apply State.spadNeed_kept
   | fail_if_no_progress (with_reducible refine State.Kept.lit ?_ rfl rfl rfl)
   | intro hx
   | (refine State.Kept.pair (by with_reducible assumption) ?_)
   | (refine State.Kept.triple (by with_reducible assumption) ?_)
   | split)

theorem State.streamStopJob_kept {kx : Bool} {k0 : State} (_u : Nat) (j : Job) (s : State) (hs : k0.Kept kx s) :
    k0.Kept kx (State.streamStopJob _u j s) := by
  delta State.streamStopJob; beta_reduce
  repeat' (first
   | with_reducible assumption
   | (extract_lets -merge -underBinder +onlyGivenNames ky; refine State.Kept.cut ‹State.Kept _ _ _› (t := ky) ?_ ?_; subst ky; rotate_left; intro hx; clear_value ky)
   | with_reducible apply State.each_kept
   | with_reducible apply State.endJob_kept
   | with_reducible apply State.stopStream_kept
   | intro hx
   | split)

theorem State.readStatus_kept {kx : Bool} {k0 : State} (u off : Nat) (dec : Bool) (j : Job) (s : State) (hs : k0.Kept kx s) :
    k0.Kept kx (State.readStatus u off dec j s) := by
  delta State.readStatus; beta_reduce
  repeat' (first
   | with_reducible assumption
   | (extract_lets -merge -underBinder +onlyGivenNames ky; first | (refine State.Kept.cut2 ‹State.Kept _ _ _› (t := ky) ?_ ?_; subst ky; rotate_left; intro hx; clear_value ky) | clear_value ky)
   | with_reducible apply State.endJob_kept
   | with_reducible apply State.setSf_kept
   | with_reducible apply State.writeMem_kept
   | split)

theorem State.flushJob_kept {kx : Bool} {k0 : State} (u : Nat) (j : Job) (s : State) (hs : k0.Kept kx s) :
    k0.Kept kx (State.flushJob u j s) := by
  delta State.flushJob; beta_reduce
  repeat' (first
   | with_reducible assumption
   | (extract_lets -merge -underBinder +onlyGivenNames ky; first | (refine State.Kept.cut ‹State.Kept _ _ _› (t := ky) ?_ ?_; subst ky; rotate_left; intro hx; clear_value ky) | clear_value ky)
   | with_reducible apply State.await_kept
   | with_reducible apply State.endJob_kept
   | with_reducible apply State.retireRefs_kept
   | with_reducible apply State.setDec_kept)

theorem State.leafBumpAt_kept {kx : Bool} {k0 : State} (u i r n : Nat) (s : State) (hs : k0.Kept kx s) :
    k0.Kept kx (State.leafBumpAt u i r n s) := by
  delta State.leafBumpAt; beta_reduce
  repeat' (first
   | with_reducible assumption
   | (extract_lets -merge -underBinder +onlyGivenNames ky; refine State.Kept.cut ‹State.Kept _ _ _› (t := ky) ?_ ?_; subst ky; rotate_left; intro hx; clear_value ky)
   | with_reducible apply State.bump_kept
   | with_reducible apply State.sndCount_kept
   | fail_if_no_progress (with_reducible refine State.Kept.lit ?_ rfl rfl rfl)
   | intro hx
   | (refine State.Kept.pair (by with_reducible assumption) ?_)
   | (refine State.Kept.triple (by with_reducible assumption) ?_)
   | split)

theorem State.symbolsAt_kept {kx : Bool} {k0 : State} (u c i n : Nat) (s : State) (hs : k0.Kept kx s) :
    k0.Kept kx (State.symbolsAt u c i n s) := by
  delta State.symbolsAt; beta_reduce
  repeat' (first
   | with_reducible assumption
   | with_reducible apply State.bump_kept
   | with_reducible apply State.sndCount_kept
   | fail_if_no_progress (with_reducible refine State.Kept.lit ?_ rfl rfl rfl)
   | intro hx
   | (refine State.Kept.pair (by with_reducible assumption) ?_)
   | (refine State.Kept.triple (by with_reducible assumption) ?_)
   | split)

theorem State.leafWrAt_kept {kx : Bool} {k0 : State} (u i r v : Nat) (s : State) (hs : k0.Kept kx s) :
    k0.Kept kx (State.leafWrAt u i r v s) := by
  delta State.leafWrAt; beta_reduce
  repeat' (first
   | with_reducible assumption
   | with_reducible apply State.wr_kept
   | fail_if_no_progress (with_reducible refine State.Kept.lit ?_ rfl rfl rfl)
   | intro hx
   | (refine State.Kept.pair (by with_reducible assumption) ?_)
   | (refine State.Kept.triple (by with_reducible assumption) ?_)
   | split)

theorem State.tallyStats_kept {kx : Bool} {k0 : State} (u c : Nat) (o : CodedPic) (f : Found) (s : State) (hs : k0.Kept kx s) :
    k0.Kept kx (State.tallyStats u c o f s) := by
  delta State.tallyStats; beta_reduce
  repeat' (first
   | with_reducible assumption
   | (extract_lets -merge -underBinder +onlyGivenNames ky; first | (refine State.Kept.cut ‹State.Kept _ _ _› (t := ky) ?_ ?_; subst ky; rotate_left; intro hx; clear_value ky) | clear_value ky)
   | with_reducible apply State.each_kept
   | with_reducible apply State.Kept.foldl
   | with_reducible apply State.Kept.foldl2
   | with_reducible apply State.Kept.foldl3
   | with_reducible apply State.leafBumpAt_kept
   | with_reducible apply State.symbolsAt_kept
   | fail_if_no_progress (with_reducible refine State.Kept.lit ?_ rfl rfl rfl)
   | intro hx
   | (refine State.Kept.pair (by with_reducible assumption) ?_)
   | (refine State.Kept.triple (by with_reducible assumption) ?_)
   | split)

theorem State.tallyErr_kept {kx : Bool} {k0 : State} (u c : Nat) (f : Found) (s : State) (hs : k0.Kept kx s) :
    k0.Kept kx (State.tallyErr u c f s) := by
  delta State.tallyErr; beta_reduce
  repeat' (first
   | with_reducible assumption
   | (extract_lets -merge -underBinder +onlyGivenNames ky; clear_value ky)
   | with_reducible apply State.leafWrAt_kept
   | fail_if_no_progress (with_reducible refine State.Kept.lit ?_ rfl rfl rfl)
   | intro hx
   | (refine State.Kept.pair (by with_reducible assumption) ?_)
   | (refine State.Kept.triple (by with_reducible assumption) ?_)
   | split)

theorem State.tallyDone_kept {kx : Bool} {k0 : State} (u : Nat) (x : QuayPic) (s : State) (hs : k0.Kept kx s) :
    k0.Kept kx (State.tallyDone u x s) := by
  delta State.tallyDone; beta_reduce
  repeat' (first
   | with_reducible assumption
   | (extract_lets -merge -underBinder +onlyGivenNames ky; first | (refine State.Kept.cut ‹State.Kept _ _ _› (t := ky) ?_ ?_; subst ky; rotate_left; intro hx; clear_value ky) | clear_value ky)
   | with_reducible apply State.whenB_kept
   | with_reducible apply State.endJob_kept
   | with_reducible apply State.giveBack_kept
   | with_reducible apply State.quayDrop_kept
   | with_reducible apply State.setJob_kept
   | fail_if_no_progress (with_reducible refine State.Kept.lit ?_ rfl rfl rfl)
   | intro hx
   | (refine State.Kept.pair (by with_reducible assumption) ?_)
   | (refine State.Kept.triple (by with_reducible assumption) ?_)
   | split)

theorem State.tallyWrite_kept {kx : Bool} {k0 : State} (u c seq : Nat) (s : State) (hs : k0.Kept kx s) :
    k0.Kept kx (State.tallyWrite u c seq s) := by
  delta State.tallyWrite; beta_reduce
  repeat' (first
   | with_reducible assumption
   | (extract_lets -merge -underBinder +onlyGivenNames ky; first | (refine State.Kept.cut ‹State.Kept _ _ _› (t := ky) ?_ ?_; subst ky; rotate_left; intro hx; clear_value ky) | clear_value ky)
   | with_reducible apply State.quayPut_kept
   | with_reducible apply State.tallyDone_kept
   | fail_if_no_progress (with_reducible refine State.Kept.lit ?_ rfl rfl rfl)
   | intro hx
   | (refine State.Kept.pair (by with_reducible assumption) ?_)
   | (refine State.Kept.triple (by with_reducible assumption) ?_)
   | split)

theorem State.tallyBegin_kept {kx : Bool} {k0 : State} (o : CodedPic) (u : Nat) (j : Job) (s : State) (hs : k0.Kept kx s) :
    k0.Kept kx (State.tallyBegin o u j s) := by
  delta State.tallyBegin; beta_reduce
  repeat' (first
   | with_reducible assumption
   | (extract_lets -merge -underBinder +onlyGivenNames ky; first | (refine State.Kept.cut ‹State.Kept _ _ _› (t := ky) ?_ ?_; subst ky; rotate_left; intro hx; clear_value ky) | clear_value ky)
   | with_reducible apply State.quayAdd_kept
   | with_reducible apply State.setDec_kept
   | with_reducible apply State.setSf_kept
   | with_reducible apply State.tagPicture_kept
   | with_reducible apply State.tallyErr_kept
   | with_reducible apply State.tallyStats_kept
   | fail_if_no_progress (with_reducible refine State.Kept.lit ?_ rfl rfl rfl)
   | intro hx
   | (refine State.Kept.pair (by with_reducible assumption) ?_)
   | (refine State.Kept.triple (by with_reducible assumption) ?_)
   | split)

theorem State.entropyDecode_kept {kx : Bool} {k0 : State} (o : CodedPic) (u : Nat) (j : Job) (s : State) (hs : k0.Kept kx s) :
    k0.Kept kx (State.entropyDecode o u j s) := by
  delta State.entropyDecode; beta_reduce
  repeat' (first
   | with_reducible assumption
   | with_reducible apply State.tallyBegin_kept
   | with_reducible apply State.tallyWrite_kept
   | fail_if_no_progress (with_reducible refine State.Kept.lit ?_ rfl rfl rfl)
   | intro hx
   | (refine State.Kept.pair (by with_reducible assumption) ?_)
   | (refine State.Kept.triple (by with_reducible assumption) ?_)
   | split)

theorem State.showCommit_kept {kx : Bool} {k0 : State} (gt c : Nat) (l : List QRun) (s : State) (hs : k0.Kept kx s) :
    k0.Kept kx (State.showCommit gt c l s) := by
  delta State.showCommit; beta_reduce
  repeat' (first
   | with_reducible assumption
   | with_reducible apply State.each_kept
   | with_reducible apply State.leafWrAt_kept
   | fail_if_no_progress (with_reducible refine State.Kept.lit ?_ rfl rfl rfl)
   | intro hx)

theorem State.quayTurn_kept {kx : Bool} {k0 : State} (t c seq : Nat) (s : State) (hs : k0.Kept kx s) :
    k0.Kept kx (State.quayTurn t c seq s).1 := by
  delta State.quayTurn; beta_reduce
  repeat' (first
   | with_reducible assumption
   | (extract_lets -merge -underBinder +onlyGivenNames ky; first | (refine State.Kept.cut ‹State.Kept _ _ _› (t := ky) ?_ ?_; subst ky; rotate_left; intro hx; clear_value ky) | clear_value ky)
   | with_reducible apply State.quayPut_kept
   | with_reducible apply State.showCommit_kept
   | with_reducible apply State.tallyWrite_kept
   | fail_if_no_progress (with_reducible refine State.Kept.lit ?_ rfl rfl rfl)
   | intro hx
   | (refine State.Kept.pair (by with_reducible assumption) ?_)
   | (refine State.Kept.triple (by with_reducible assumption) ?_)
   | split)

theorem State.quayRun_kept {kx : Bool} {k0 : State} (t c seq : Nat) (n : Nat) (s : State) (hs : k0.Kept kx s) :
    k0.Kept kx (State.quayRun t c seq n s) := by
  induction n generalizing s with
  | zero => exact hs
  | succ n ih =>
    have h := State.quayTurn_kept t c seq s hs
    unfold State.quayRun; dsimp only; split
    · exact ih _ h
    · exact h

theorem State.substCount_kept {kx : Bool} {k0 : State} (u : Nat) (l : List Nat) (s : State) (hs : k0.Kept kx s) :
    k0.Kept kx (State.substCount u l s) := by
  delta State.substCount; beta_reduce
  repeat' (first
   | with_reducible assumption
   | (extract_lets -merge -underBinder +onlyGivenNames ky; clear_value ky)
   | fail_if_no_progress (with_reducible refine State.Kept.lit ?_ rfl rfl rfl)
   | split)

theorem State.discardPic_kept {kx : Bool} {k0 : State} (u : Nat) (j : Job) (st : Nat) (s : State) (hs : k0.Kept kx s) :
    k0.Kept kx (State.discardPic u j st s) := by
  delta State.discardPic; beta_reduce
  repeat' (first
   | with_reducible assumption
   | (extract_lets -merge -underBinder +onlyGivenNames ky; first | (refine State.Kept.cut ‹State.Kept _ _ _› (t := ky) ?_ ?_; subst ky; rotate_left; intro hx; clear_value ky) | clear_value ky)
   | with_reducible apply State.endJob_kept
   | with_reducible apply State.incSf_kept
   | with_reducible apply State.quayDrop_kept
   | with_reducible apply State.setJob_kept)

theorem State.picBuffers_kept {kx : Bool} {k0 : State} (u : Nat) (j : Job) (grain : Bool) (s : State) (hs : k0.Kept kx s) :
    k0.Kept kx (State.picBuffers u j grain s).2 := by
  delta State.picBuffers; beta_reduce
  repeat' (first
   | with_reducible assumption
   | (extract_lets -merge -underBinder +onlyGivenNames ky; first | (refine State.Kept.cut3 ‹State.Kept _ _ _› (t := ky) ?_ ?_; subst ky; rotate_left; intro hx; clear_value ky) | clear_value ky)
   | with_reducible apply State.alloc_kept
   | with_reducible apply State.giveBack_kept
   | split)

theorem State.concealStats_kept {kx : Bool} {k0 : State} (gt c : Nat) (x : QuayPic) (o : CodedPic) (b : Blocks) (s : State) (hs : k0.Kept kx s) :
    k0.Kept kx (State.concealStats gt c x o b s) := by
  delta State.concealStats; beta_reduce
  repeat' (first
   | with_reducible assumption
   | (extract_lets -merge -underBinder +onlyGivenNames ky; first | (have hk : ∀ a, ky a = ky a := (fun _ => rfl); clear hk; subst ky; beta_reduce) | clear_value ky)
   | with_reducible apply State.each_kept
   | with_reducible apply State.leafBumpAt_kept
   | fail_if_no_progress (with_reducible refine State.Kept.lit ?_ rfl rfl rfl)
   | intro hx)

theorem State.recover_kept {kx : Bool} {k0 : State} (c : Nat) (kind : PicKind) (e : PicEnd) (s : State) (hs : k0.Kept kx s) :
    k0.Kept kx (State.recover c kind e s) := by
  delta State.recover; beta_reduce
  repeat' (first
   | with_reducible assumption
   | (extract_lets -merge -underBinder +onlyGivenNames ky; clear_value ky)
   | with_reducible apply State.await_kept
   | with_reducible apply State.incSf_kept
   | with_reducible apply State.recovery_kept
   | with_reducible apply State.setCtxState_kept
   | with_reducible apply State.setDec_kept
   | with_reducible apply State.setSf_kept
   | fail_if_no_progress (with_reducible refine State.Kept.lit ?_ rfl rfl rfl)
   | intro hx
   | (refine State.Kept.pair (by with_reducible assumption) ?_)
   | (refine State.Kept.triple (by with_reducible assumption) ?_)
   | split
   | dsimp only)

theorem State.pictureOut_kept {kx : Bool} {k0 : State} (c u a g size src : Nat) (o : CodedPic) (out : PicOut) (b : Blocks) (pic : Pic) (rec_ : List Nat) (s : State) (hs : k0.Kept kx s) :
    k0.Kept kx (State.pictureOut c u a g size src o out b pic rec_ s) := by
  delta State.pictureOut; beta_reduce
  repeat' (first
   | with_reducible assumption
   | (extract_lets -merge -underBinder +onlyGivenNames ky; first | (refine State.Kept.cut ‹State.Kept _ _ _› (t := ky) ?_ ?_; subst ky; rotate_left; intro hx; clear_value ky) | clear_value ky)
   | with_reducible apply State.whenB_kept
   | with_reducible apply State.storePic_kept
   | with_reducible apply State.writeMem_kept
   | fail_if_no_progress (with_reducible refine State.Kept.lit ?_ rfl rfl rfl)
   | intro hx
   | (refine State.Kept.pair (by with_reducible assumption) ?_)
   | (refine State.Kept.triple (by with_reducible assumption) ?_)
   | split)

theorem State.keepPicture_kept {kx : Bool} {k0 : State} (c a g src : Nat) (hidden : Bool) (o : CodedPic) (s : State) (hs : k0.Kept kx s) :
    k0.Kept kx (State.keepPicture c a g src hidden o s) := by
  delta State.keepPicture; beta_reduce
  repeat' (first
   | with_reducible assumption
   | (extract_lets -merge -underBinder +onlyGivenNames ky; first | (refine State.Kept.cut ‹State.Kept _ _ _› (t := ky) ?_ ?_; subst ky; rotate_left; intro hx; clear_value ky) | (have hk : ∀ a, ky a = ky a := (fun _ => rfl); clear hk; subst ky; beta_reduce) | clear_value ky)
   | with_reducible apply State.each_kept
   | with_reducible apply State.setDec_kept
   | with_reducible apply State.setSf_kept
   | fail_if_no_progress (with_reducible refine State.Kept.lit ?_ rfl rfl rfl)
   | intro hx)

theorem State.countPicture_kept {kx : Bool} {k0 : State} (c src reason : Nat) (b : Blocks) (e : PicEnd) (s : State) (hs : k0.Kept kx s) :
    k0.Kept kx (State.countPicture c src reason b e s) := by
  delta State.countPicture; beta_reduce
  repeat' (first
   | with_reducible assumption
   | (extract_lets -merge -underBinder +onlyGivenNames ky; first | (refine State.Kept.cut ‹State.Kept _ _ _› (t := ky) ?_ ?_; subst ky; rotate_left; intro hx; clear_value ky) | clear_value ky)
   | with_reducible apply State.whenB_kept
   | with_reducible apply State.incSf_kept
   | with_reducible apply State.setSf_kept
   | fail_if_no_progress (with_reducible refine State.Kept.lit ?_ rfl rfl rfl)
   | intro hx)

theorem State.completePic_kept {kx : Bool} {k0 : State} (o : CodedPic) (out : PicOut) (x : QuayPic) (late : Bool) (u : Nat) (j : Job) (a g : Nat) (s : State) (hs : k0.Kept kx s) :
    k0.Kept kx (State.completePic o out x late u j a g s) := by
  delta State.completePic; beta_reduce
  repeat' (first
   | with_reducible assumption
   | (extract_lets -merge -underBinder +onlyGivenNames ky; first | (refine State.Kept.cut ‹State.Kept _ _ _› (t := ky) ?_ ?_; subst ky; rotate_left; intro hx; clear_value ky) | clear_value ky)
   | with_reducible apply State.each_kept
   | with_reducible apply State.concealStats_kept
   | with_reducible apply State.countPicture_kept
   | with_reducible apply State.endJob_kept
   | with_reducible apply State.keepPicture_kept
   | with_reducible apply State.leafBumpAt_kept
   | with_reducible apply State.pictureOut_kept
   | with_reducible apply State.quayDrop_kept
   | with_reducible apply State.recover_kept
   | with_reducible apply State.recovery_kept
   | with_reducible apply State.setJob_kept
   | with_reducible apply State.substCount_kept
   | fail_if_no_progress (with_reducible refine State.Kept.lit ?_ rfl rfl rfl)
   | intro hx)

theorem State.finishPic_kept {kx : Bool} {k0 : State} (o : CodedPic) (out : PicOut) (x : QuayPic) (late : Bool) (u : Nat) (j : Job) (s : State) (hs : k0.Kept kx s) :
    k0.Kept kx (State.finishPic o out x late u j s) := by
  delta State.finishPic; beta_reduce
  repeat' (first
   | with_reducible assumption
   | (extract_lets -merge -underBinder +onlyGivenNames ky; clear_value ky)
   | with_reducible apply State.completePic_kept
   | with_reducible apply State.discardPic_kept
   | with_reducible apply State.endJob_kept
   | with_reducible apply State.picBuffers_kept
   | with_reducible apply State.quayDrop_kept
   | with_reducible apply State.usageAddr_kept
   | fail_if_no_progress (with_reducible refine State.Kept.lit ?_ rfl rfl rfl)
   | intro hx
   | (refine State.Kept.pair (by with_reducible assumption) ?_)
   | (refine State.Kept.triple (by with_reducible assumption) ?_)
   | split)

theorem State.reconstruct_kept {kx : Bool} {k0 : State} (out : PicOut) (u : Nat) (j : Job) (s : State) (hs : k0.Kept kx s) :
    k0.Kept kx (State.reconstruct out u j s) := by
  delta State.reconstruct; beta_reduce
  repeat' (first
   | with_reducible assumption
   | (extract_lets -merge -underBinder +onlyGivenNames ky; first | (refine State.Kept.cut ‹State.Kept _ _ _› (t := ky) ?_ ?_; subst ky; rotate_left; intro hx; clear_value ky) | clear_value ky)
   | with_reducible apply State.finishPic_kept
   | with_reducible apply State.quayRead_kept
   | with_reducible apply State.quayRun_kept
   | fail_if_no_progress (with_reducible refine State.Kept.lit ?_ rfl rfl rfl)
   | intro hx
   | (refine State.Kept.pair (by with_reducible assumption) ?_)
   | (refine State.Kept.triple (by with_reducible assumption) ?_)
   | split)

theorem State.lateRec_kept {kx : Bool} {k0 : State} (out : Option PicOut) (u : Nat) (s : State) (hs : k0.Kept kx s) :
    k0.Kept kx (State.lateRec out u s) := by
  delta State.lateRec; beta_reduce
  repeat' (first
   | with_reducible assumption
   | (extract_lets -merge -underBinder +onlyGivenNames ky; clear_value ky)
   | with_reducible apply State.abandonJob_kept
   | with_reducible apply State.bind_kept
   | with_reducible apply State.committed_kept
   | with_reducible apply State.finishPic_kept
   | fail_if_no_progress (with_reducible refine State.Kept.lit ?_ rfl rfl rfl)
   | intro hx
   | (refine State.Kept.pair (by with_reducible assumption) ?_)
   | (refine State.Kept.triple (by with_reducible assumption) ?_)
   | split)

theorem State.lateTally_kept {kx : Bool} {k0 : State} (u : Nat) (s : State) (hs : k0.Kept kx s) :
    k0.Kept kx (State.lateTally u s) := by
  delta State.lateTally; beta_reduce
  repeat' (first
   | with_reducible assumption
   | (extract_lets -merge -underBinder +onlyGivenNames ky; first | (refine State.Kept.cut ‹State.Kept _ _ _› (t := ky) ?_ ?_; subst ky; rotate_left; intro hx; clear_value ky) | clear_value ky)
   | with_reducible apply State.committed_kept
   | with_reducible apply State.endJob_kept
   | with_reducible apply State.giveBack_kept
   | with_reducible apply State.quayAdd_kept
   | with_reducible apply State.quayPut_kept
   | fail_if_no_progress (with_reducible refine State.Kept.lit ?_ rfl rfl rfl)
   | intro hx
   | (refine State.Kept.pair (by with_reducible assumption) ?_)
   | (refine State.Kept.triple (by with_reducible assumption) ?_)
   | split)

theorem State.freePics_kept {kx : Bool} {k0 : State} (c : Nat) (s : State) (hs : k0.Kept kx s) :
    k0.Kept kx (State.freePics c s) := by
  delta State.freePics; beta_reduce
  repeat' (first
   | with_reducible assumption
   | (extract_lets -merge -underBinder +onlyGivenNames ky; first | (refine State.Kept.cut ‹State.Kept _ _ _› (t := ky) ?_ ?_; subst ky; rotate_left; intro hx; clear_value ky) | clear_value ky)
   | with_reducible apply State.each_kept
   | with_reducible apply State.free_kept
   | with_reducible apply State.setDec_kept
   | fail_if_no_progress (with_reducible refine State.Kept.lit ?_ rfl rfl rfl)
   | intro hx
   | (refine State.Kept.pair (by with_reducible assumption) ?_)
   | (refine State.Kept.triple (by with_reducible assumption) ?_)
   | split)

end Sys2Proof.Machine
end

