-- ==== Sys2Proof/Laws/KeptPilot.lean ====
section
/-! SUPPORT. What the operations of Machine/Pilot.lean and Machine/Window.lean keep (Laws/Kept.lean), one lemma each. -/

namespace Sys2Proof.Machine

theorem State.setPf_kept {kx : Bool} {k0 : State} (c off n v : Nat) (s : State) (hs : k0.Kept kx s) :
    k0.Kept kx (State.setPf c off n v s) := by
  delta State.setPf; beta_reduce
  repeat' (first
   | with_reducible assumption
   | with_reducible apply State.wrM_kept)

theorem State.setBank_kept {kx : Bool} {k0 : State} (c : Nat) (b : Int) (rem : Nat) (s : State) (hs : k0.Kept kx s) :
    k0.Kept kx (State.setBank c b rem s) := by
  delta State.setBank; beta_reduce
  repeat' (first
   | with_reducible assumption
   | with_reducible apply State.setPf_kept)

theorem State.afterSent_kept {kx : Bool} {k0 : State} (c b : Nat) (s : State) (hs : k0.Kept kx s) :
    k0.Kept kx (State.afterSent c b s) := by
  delta State.afterSent; beta_reduce
  repeat' (first
   | with_reducible assumption
   | (extract_lets -merge -underBinder +onlyGivenNames ky; clear_value ky)
   | with_reducible apply State.setBank_kept
   | with_reducible apply State.setPf_kept)

theorem State.attach_kept {kx : Bool} {k0 : State} (c : Nat) (s : State) (hs : k0.Kept kx s) :
    k0.Kept kx (State.attach c s) := by
  delta State.attach; beta_reduce
  repeat' (first
   | with_reducible assumption
   | (extract_lets -merge -underBinder +onlyGivenNames ky; clear_value ky)
   | with_reducible apply State.setBook_kept)

theorem State.initRecord_kept {kx : Bool} {k0 : State} (c : Nat) (seed : Option (Nat × Nat × Nat)) (s : State) (hs : k0.Kept kx s) :
    k0.Kept kx (State.initRecord c seed s) := by
  delta State.initRecord; beta_reduce
  repeat' (first
   | with_reducible assumption
   | (extract_lets -merge -underBinder +onlyGivenNames ky; first | (refine State.Kept.cut ‹State.Kept _ _ _› (t := ky) ?_ ?_; subst ky; rotate_left; intro hx; clear_value ky) | clear_value ky)
   | with_reducible apply State.setPf_kept)

theorem State.setWinq_kept {kx : Bool} {k0 : State} (p : Nat) (l : List (Nat × Nat × Nat)) (s : State) (hs : k0.Kept kx s) :
    k0.Kept kx (State.setWinq p l s) := by
  delta State.setWinq; beta_reduce
  repeat' (first
   | with_reducible assumption
   | fail_if_no_progress (with_reducible refine State.Kept.lit ?_ rfl rfl rfl))

theorem State.windowNext_kept {kx : Bool} {k0 : State} (p : Nat) (s : State) (hs : k0.Kept kx s) :
    k0.Kept kx (State.windowNext p s) := by
  delta State.windowNext; beta_reduce
  repeat' (first
   | with_reducible assumption
   | (extract_lets -merge -underBinder +onlyGivenNames ky; first | (refine State.Kept.cut ‹State.Kept _ _ _› (t := ky) ?_ ?_; subst ky; rotate_left; intro hx; clear_value ky) | (refine State.Kept.cut2 ‹State.Kept _ _ _› (t := ky) ?_ ?_; subst ky; rotate_left; intro hx; clear_value ky) | clear_value ky)
   | with_reducible apply State.Kept.foldl
   | with_reducible apply State.Kept.foldl2
   | with_reducible apply State.Kept.foldl3
   | with_reducible apply State.drawMany_kept
   | with_reducible apply State.setUnitF_kept
   | with_reducible apply State.setWinq_kept
   | with_reducible apply State.sndCount_kept
   | fail_if_no_progress (with_reducible refine State.Kept.lit ?_ rfl rfl rfl)
   | intro hx
   | (refine State.Kept.pair (by with_reducible assumption) ?_)
   | (refine State.Kept.triple (by with_reducible assumption) ?_)
   | split)

theorem State.windowAsk_kept {kx : Bool} {k0 : State} (c entry row : Nat) (s : State) (hs : k0.Kept kx s) :
    k0.Kept kx (State.windowAsk c entry row s) := by
  delta State.windowAsk; beta_reduce
  repeat' (first
   | with_reducible assumption
   | (extract_lets -merge -underBinder +onlyGivenNames ky; clear_value ky)
   | with_reducible apply State.setWinq_kept
   | with_reducible apply State.windowNext_kept
   | split)

theorem State.ucwWrite_kept {kx : Bool} {k0 : State} (p : Nat) (ws : List Nat) (s : State) (hs : k0.Kept kx s) :
    k0.Kept kx (State.ucwWrite p ws s) := by
  delta State.ucwWrite; beta_reduce
  repeat' (first
   | with_reducible assumption
   | fail_if_no_progress (with_reducible refine State.Kept.lit ?_ rfl rfl rfl))

theorem State.ucwSettle_kept {kx : Bool} {k0 : State} (p : Nat) (s : State) (hs : k0.Kept kx s) :
    k0.Kept kx (State.ucwSettle p s) := by
  delta State.ucwSettle; beta_reduce
  repeat' (first
   | with_reducible assumption
   | (extract_lets -merge -underBinder +onlyGivenNames ky; clear_value ky)
   | with_reducible apply State.each_kept
   | with_reducible apply State.ucwWrite_kept
   | fail_if_no_progress (with_reducible refine State.Kept.lit ?_ rfl rfl rfl)
   | intro hx
   | split)

theorem State.ucwTide_kept {kx : Bool} {k0 : State} (s : State) (hs : k0.Kept kx s) :
    k0.Kept kx (State.ucwTide s) := by
  delta State.ucwTide; beta_reduce
  repeat' (first
   | with_reducible assumption
   | (extract_lets -merge -underBinder +onlyGivenNames ky; first | (refine State.Kept.cut ‹State.Kept _ _ _› (t := ky) ?_ ?_; subst ky; rotate_left; intro hx; clear_value ky) | clear_value ky)
   | with_reducible apply State.each_kept
   | with_reducible apply State.ucwSettle_kept
   | with_reducible apply State.wr_kept
   | fail_if_no_progress (with_reducible refine State.Kept.lit ?_ rfl rfl rfl)
   | intro hx)

theorem State.windowDone_kept {kx : Bool} {k0 : State} (p : Nat) (s : State) (hs : k0.Kept kx s) :
    k0.Kept kx (State.windowDone p s) := by
  delta State.windowDone; beta_reduce
  repeat' (first
   | with_reducible assumption
   | (extract_lets -merge -underBinder +onlyGivenNames ky; refine State.Kept.cut ‹State.Kept _ _ _› (t := ky) ?_ ?_; subst ky; rotate_left; intro hx; clear_value ky)
   | with_reducible apply State.setUnitF_kept
   | with_reducible apply State.setWinq_kept
   | with_reducible apply State.ucwSettle_kept
   | with_reducible apply State.windowNext_kept)

theorem State.bounded_kept {kx : Bool} {k0 : State} (p : Nat) (lo hi x : Int) (s : State) (hs : k0.Kept kx s) :
    k0.Kept kx (State.bounded p lo hi x s).2 := by
  delta State.bounded; beta_reduce
  repeat' (first
   | with_reducible assumption
   | with_reducible apply State.bump_kept
   | split)

theorem State.windowExit_kept {kx : Bool} {k0 : State} (p : Nat) (s : State) (hs : k0.Kept kx s) :
    k0.Kept kx (State.windowExit p s) := by
  delta State.windowExit; beta_reduce
  repeat' (first
   | with_reducible assumption
   | with_reducible apply State.each_kept
   | with_reducible apply State.bounded_kept
   | with_reducible apply State.setEnc_kept
   | with_reducible apply State.setPf_kept
   | with_reducible apply State.setWinq_kept
   | with_reducible apply State.windowDone_kept
   | (extract_lets -merge -underBinder +onlyGivenNames ky; first | (refine State.Kept.cut2 ‹State.Kept _ _ _› (t := ky) ?_ ?_; subst ky; rotate_left; intro hx; clear_value ky) | clear_value ky)
   | intro hx
   | split)

theorem State.ucwOverrun_kept {kx : Bool} {k0 : State} (p : Nat) (s : State) (hs : k0.Kept kx s) :
    k0.Kept kx (State.ucwOverrun p s) := by
  delta State.ucwOverrun; beta_reduce
  repeat' (first
   | with_reducible assumption
   | (extract_lets -merge -underBinder +onlyGivenNames ky; refine State.Kept.cut ‹State.Kept _ _ _› (t := ky) ?_ ?_; subst ky; rotate_left; intro hx; clear_value ky)
   | with_reducible apply State.inc_kept
   | with_reducible apply State.report_kept
   | with_reducible apply State.setPf_kept
   | with_reducible apply State.windowDone_kept
   | with_reducible apply State.wr_kept
   | split)

theorem State.ucwRearm_kept {kx : Bool} {k0 : State} (agent p v : Nat) (s : State) (hs : k0.Kept kx s) :
    k0.Kept kx (State.ucwRearm agent p v s) := by
  delta State.ucwRearm; beta_reduce
  repeat' (first
   | with_reducible assumption
   | (extract_lets -merge -underBinder +onlyGivenNames ky; clear_value ky)
   | with_reducible apply State.each_kept
   | with_reducible apply State.setPf_kept
   | with_reducible apply State.usageReg_kept
   | intro hx
   | split)

theorem State.modelRead_kept {kx : Bool} {k0 : State} (u : Nat) (j : Job) (s : State) (hs : k0.Kept kx s) :
    k0.Kept kx (State.modelRead u j s) := by
  delta State.modelRead; beta_reduce
  repeat' (first
   | with_reducible assumption
   | (extract_lets -merge -underBinder +onlyGivenNames ky; refine State.Kept.cut2 ‹State.Kept _ _ _› (t := ky) ?_ ?_; subst ky; rotate_left; intro hx; clear_value ky)
   | with_reducible apply State.endJob_kept
   | with_reducible apply State.writeMem_kept
   | split)

theorem State.modelSeed_kept {kx : Bool} {k0 : State} (u : Nat) (j : Job) (s : State) (hs : k0.Kept kx s) :
    k0.Kept kx (State.modelSeed u j s) := by
  delta State.modelSeed; beta_reduce
  repeat' (first
   | with_reducible assumption
   | (extract_lets -merge -underBinder +onlyGivenNames ky; first | (refine State.Kept.cut ‹State.Kept _ _ _› (t := ky) ?_ ?_; subst ky; rotate_left; intro hx; clear_value ky) | (refine State.Kept.cut3 ‹State.Kept _ _ _› (t := ky) ?_ ?_; subst ky; rotate_left; intro hx; clear_value ky) | clear_value ky)
   | with_reducible apply State.endJob_kept
   | with_reducible apply State.readMem_kept
   | with_reducible apply State.setEnc_kept
   | split)

end Sys2Proof.Machine
end

