-- ==== Sys2Proof/Laws/KeptEncode.lean ====
section
/-! SUPPORT. What the operations of Machine/Encode.lean keep (Laws/Kept.lean), one lemma each. -/

namespace Sys2Proof.Machine

theorem State.encStart_kept {kx : Bool} {k0 : State} (u : Nat) (j : Job) (s : State) (hs : k0.Kept kx s) :
    k0.Kept kx (State.encStart u j s) := by
  delta State.encStart; beta_reduce
  repeat' (first
   | with_reducible assumption
   | (extract_lets -merge -underBinder +onlyGivenNames ky; first | (refine State.Kept.cut ‹State.Kept _ _ _› (t := ky) ?_ ?_; subst ky; rotate_left; intro hx; clear_value ky) | clear_value ky)
   | with_reducible apply State.each_kept
   | with_reducible apply State.whenB_kept
   | with_reducible apply State.Kept.foldl
   | with_reducible apply State.Kept.foldl2
   | with_reducible apply State.Kept.foldl3
   | with_reducible apply State.attach_kept
   | with_reducible apply State.clearRefs_kept
   | with_reducible apply State.endJob_kept
   | with_reducible apply State.initRecord_kept
   | with_reducible apply State.readCtx_kept
   | with_reducible apply State.setBook_kept
   | with_reducible apply State.setCtxState_kept
   | with_reducible apply State.setEnc_kept
   | with_reducible apply State.setJob_kept
   | with_reducible apply State.setSf_kept
   | with_reducible apply State.spadNeed_kept
   | fail_if_no_progress (with_reducible refine State.Kept.lit ?_ rfl rfl rfl)
   | intro hx
   | (refine State.Kept.pair (by with_reducible assumption) ?_)
   | (refine State.Kept.triple (by with_reducible assumption) ?_)
   | split)

theorem State.refreshAsked_kept {kx : Bool} {k0 : State} (c tide : Nat) (s : State) (hs : k0.Kept kx s) :
    k0.Kept kx (State.refreshAsked c tide s) := by
  delta State.refreshAsked; beta_reduce
  repeat' (first
   | with_reducible assumption
   | (extract_lets -merge -underBinder +onlyGivenNames ky; first | (refine State.Kept.cut ‹State.Kept _ _ _› (t := ky) ?_ ?_; subst ky; rotate_left; intro hx; clear_value ky) | clear_value ky)
   | with_reducible apply State.incSf_kept
   | with_reducible apply State.setEnc_kept
   | split)

theorem State.forceSweep_kept {kx : Bool} {k0 : State} (u : Nat) (j : Job) (s : State) (hs : k0.Kept kx s) :
    k0.Kept kx (State.forceSweep u j s) := by
  delta State.forceSweep; beta_reduce
  repeat' (first
   | with_reducible assumption
   | with_reducible apply State.endJob_kept
   | with_reducible apply State.refreshAsked_kept)

theorem State.restartJob_kept {kx : Bool} {k0 : State} (u : Nat) (j : Job) (s : State) (hs : k0.Kept kx s) :
    k0.Kept kx (State.restartJob u j s) := by
  delta State.restartJob; beta_reduce
  repeat' (first
   | with_reducible assumption
   | (extract_lets -merge -underBinder +onlyGivenNames ky; clear_value ky)
   | with_reducible apply State.endJob_kept
   | with_reducible apply State.setEnc_kept)

theorem State.dropEnc_kept {kx : Bool} {k0 : State} (u st : Nat) (l : List Nat) (j : Job) (s : State) (hs : k0.Kept kx s) :
    k0.Kept kx (State.dropEnc u st l j s) := by
  delta State.dropEnc; beta_reduce
  repeat' (first
   | with_reducible assumption
   | (extract_lets -merge -underBinder +onlyGivenNames ky; first | (refine State.Kept.cut ‹State.Kept _ _ _› (t := ky) ?_ ?_; subst ky; rotate_left; intro hx; clear_value ky) | clear_value ky)
   | with_reducible apply State.endJob_kept
   | with_reducible apply State.freeBufs_kept
   | with_reducible apply State.incSf_kept
   | with_reducible apply State.setEnc_kept
   | with_reducible apply State.setJob_kept)

theorem State.encBuffers_kept {kx : Bool} {k0 : State} (u : Nat) (j : Job) (s : State) (hs : k0.Kept kx s) :
    k0.Kept kx (State.encBuffers u j s).2 := by
  delta State.encBuffers; beta_reduce
  repeat' (first
   | with_reducible assumption
   | (extract_lets -merge -underBinder +onlyGivenNames ky; first | (refine State.Kept.cut3 ‹State.Kept _ _ _› (t := ky) ?_ ?_; subst ky; rotate_left; intro hx; clear_value ky) | clear_value ky)
   | with_reducible apply State.alloc_kept
   | with_reducible apply State.freeBufs_kept
   | split)

theorem State.encBegin_kept {kx : Bool} {k0 : State} (o : EncOut) (u : Nat) (j : Job) (bs rc hs : Nat) (s : State) (hst : k0.Kept kx s) :
    k0.Kept kx (State.encBegin o u j bs rc hs s) := by
  delta State.encBegin; beta_reduce
  repeat' (first
   | with_reducible assumption
   | (extract_lets -merge -underBinder +onlyGivenNames ky; first | (refine State.Kept.cut ‹State.Kept _ _ _› (t := ky) ?_ ?_; subst ky; rotate_left; intro hx; clear_value ky) | clear_value ky)
   | with_reducible apply State.each_kept
   | with_reducible apply State.whenB_kept
   | with_reducible apply State.Kept.foldl
   | with_reducible apply State.Kept.foldl2
   | with_reducible apply State.Kept.foldl3
   | with_reducible apply State.bump_kept
   | with_reducible apply State.leafBumpAt_kept
   | with_reducible apply State.leafWrAt_kept
   | with_reducible apply State.quayAdd_kept
   | with_reducible apply State.setEnc_kept
   | with_reducible apply State.storePic_kept
   | with_reducible apply State.writeMem_kept
   | fail_if_no_progress (with_reducible refine State.Kept.lit ?_ rfl rfl rfl)
   | intro hx)

theorem State.encDone_kept {kx : Bool} {k0 : State} (c : Nat) (p : EncPic) (s : State) (hs : k0.Kept kx s) :
    k0.Kept kx (State.encDone c p s) := by
  delta State.encDone; beta_reduce
  repeat' (first
   | with_reducible assumption
   | (extract_lets -merge -underBinder +onlyGivenNames ky; first | (refine State.Kept.cut ‹State.Kept _ _ _› (t := ky) ?_ ?_; subst ky; rotate_left; intro hx; clear_value ky) | clear_value ky)
   | with_reducible apply State.doneComposed_kept
   | with_reducible apply State.endJob_kept
   | with_reducible apply State.setEnc_kept
   | with_reducible apply State.setJob_kept
   | with_reducible apply State.wrM_kept
   | fail_if_no_progress (with_reducible refine State.Kept.lit ?_ rfl rfl rfl)
   | intro hx
   | (refine State.Kept.pair (by with_reducible assumption) ?_)
   | (refine State.Kept.triple (by with_reducible assumption) ?_)
   | split)

theorem State.encWrite_kept {kx : Bool} {k0 : State} (c seq : Nat) (s : State) (hs : k0.Kept kx s) :
    k0.Kept kx (State.encWrite c seq s) := by
  delta State.encWrite; beta_reduce
  repeat' (first
   | with_reducible assumption
   | (extract_lets -merge -underBinder +onlyGivenNames ky; first | (refine State.Kept.cut ‹State.Kept _ _ _› (t := ky) ?_ ?_; subst ky; rotate_left; intro hx; clear_value ky) | clear_value ky)
   | with_reducible apply State.each_kept
   | with_reducible apply State.encDone_kept
   | with_reducible apply State.leafWrAt_kept
   | with_reducible apply State.quayPut_kept
   | with_reducible apply State.wrFld_kept
   | fail_if_no_progress (with_reducible refine State.Kept.lit ?_ rfl rfl rfl)
   | intro hx
   | (refine State.Kept.pair (by with_reducible assumption) ?_)
   | (refine State.Kept.triple (by with_reducible assumption) ?_)
   | split)

theorem State.encTurn_kept {kx : Bool} {k0 : State} (c seq : Nat) (s : State) (hs : k0.Kept kx s) :
    k0.Kept kx (State.encTurn c seq s).1 := by
  delta State.encTurn; beta_reduce
  repeat' (first
   | with_reducible assumption
   | (extract_lets -merge -underBinder +onlyGivenNames ky; refine State.Kept.cut ‹State.Kept _ _ _› (t := ky) ?_ ?_; subst ky; rotate_left; intro hx; clear_value ky)
   | with_reducible apply State.encWrite_kept
   | with_reducible apply State.quayPut_kept
   | fail_if_no_progress (with_reducible refine State.Kept.lit ?_ rfl rfl rfl)
   | intro hx
   | (refine State.Kept.pair (by with_reducible assumption) ?_)
   | (refine State.Kept.triple (by with_reducible assumption) ?_)
   | split)

theorem State.encRun_kept {kx : Bool} {k0 : State} (c seq : Nat) (n : Nat) (s : State) (hs : k0.Kept kx s) :
    k0.Kept kx (State.encRun c seq n s) := by
  induction n generalizing s with
  | zero => exact hs
  | succ n ih =>
    have h := State.encTurn_kept c seq s hs
    unfold State.encRun; dsimp only; split
    · exact ih _ h
    · exact h

theorem State.encodePic_kept {kx : Bool} {k0 : State} (o : EncOut) (u : Nat) (j : Job) (s : State) (hs : k0.Kept kx s) :
    k0.Kept kx (State.encodePic o u j s) := by
  delta State.encodePic; beta_reduce
  repeat' (first
   | with_reducible assumption
   | (extract_lets -merge -underBinder +onlyGivenNames ky; clear_value ky)
   | with_reducible apply State.doneComposed_kept
   | with_reducible apply State.dropEnc_kept
   | with_reducible apply State.encBegin_kept
   | with_reducible apply State.encBuffers_kept
   | with_reducible apply State.encWrite_kept
   | with_reducible apply State.tagPicture_kept
   | fail_if_no_progress (with_reducible refine State.Kept.lit ?_ rfl rfl rfl)
   | intro hx
   | (refine State.Kept.pair (by with_reducible assumption) ?_)
   | (refine State.Kept.triple (by with_reducible assumption) ?_)
   | split)

theorem State.dropPic_kept {kx : Bool} {k0 : State} (c st : Nat) (p : EncPic) (s : State) (hs : k0.Kept kx s) :
    k0.Kept kx (State.dropPic c st p s) := by
  delta State.dropPic; beta_reduce
  repeat' (first
   | with_reducible assumption
   | (extract_lets -merge -underBinder +onlyGivenNames ky; first | (refine State.Kept.cut ‹State.Kept _ _ _› (t := ky) ?_ ?_; subst ky; rotate_left; intro hx; clear_value ky) | clear_value ky)
   | with_reducible apply State.freeBufs_kept
   | with_reducible apply State.incSf_kept
   | with_reducible apply State.quayDrop_kept
   | with_reducible apply State.setEnc_kept)

theorem State.keepRecon_kept {kx : Bool} {k0 : State} (c : Nat) (p : EncPic) (s : State) (hs : k0.Kept kx s) :
    k0.Kept kx (State.keepRecon c p s) := by
  delta State.keepRecon; beta_reduce
  repeat' (first
   | with_reducible assumption
   | (extract_lets -merge -underBinder +onlyGivenNames ky; first | (refine State.Kept.cut ‹State.Kept _ _ _› (t := ky) ?_ ?_; subst ky; rotate_left; intro hx; clear_value ky) | clear_value ky)
   | with_reducible apply State.each_kept
   | with_reducible apply State.freeBufs_kept
   | with_reducible apply State.setEnc_kept
   | with_reducible apply State.setSf_kept
   | fail_if_no_progress (with_reducible refine State.Kept.lit ?_ rfl rfl rfl)
   | intro hx)

theorem State.handOver_kept {kx : Bool} {k0 : State} (a owner : Nat) (s : State) (hs : k0.Kept kx s) :
    k0.Kept kx (State.handOver a owner s) := by
  delta State.handOver; beta_reduce
  repeat' (first
   | with_reducible assumption
   | with_reducible apply State.transfer_kept
   | split)

theorem State.pilotRecord_kept {kx : Bool} {k0 : State} (c fill : Nat) (p : EncPic) (s : State) (hs : k0.Kept kx s) :
    k0.Kept kx (State.pilotRecord c fill p s) := by
  delta State.pilotRecord; beta_reduce
  repeat' (first
   | with_reducible assumption
   | (extract_lets -merge -underBinder +onlyGivenNames ky; clear_value ky)
   | with_reducible apply State.each_kept
   | with_reducible apply State.afterSent_kept
   | with_reducible apply State.setPf_kept
   | fail_if_no_progress (with_reducible refine State.Kept.lit ?_ rfl rfl rfl)
   | intro hx)

theorem State.countSent_kept {kx : Bool} {k0 : State} (c len : Nat) (p : EncPic) (s : State) (hs : k0.Kept kx s) :
    k0.Kept kx (State.countSent c len p s) := by
  delta State.countSent; beta_reduce
  repeat' (first
   | with_reducible assumption
   | (extract_lets -merge -underBinder +onlyGivenNames ky; first | (refine State.Kept.cut ‹State.Kept _ _ _› (t := ky) ?_ ?_; subst ky; rotate_left; intro hx; clear_value ky) | clear_value ky)
   | with_reducible apply State.whenB_kept
   | with_reducible apply State.incSf_kept
   | with_reducible apply State.setSf_kept)

theorem State.passOn_kept {kx : Bool} {k0 : State} (u : Nat) (j : Job) (p : EncPic) (len : Nat) (s : State) (hs : k0.Kept kx s) :
    k0.Kept kx (State.passOn u j p len s) := by
  delta State.passOn; beta_reduce
  repeat' (first
   | with_reducible assumption
   | (extract_lets -merge -underBinder +onlyGivenNames ky; first | (refine State.Kept.cut3 ‹State.Kept _ _ _› (t := ky) ?_ ?_; subst ky; rotate_left; intro hx; clear_value ky) | clear_value ky)
   | with_reducible apply State.deliver_kept
   | with_reducible apply State.giveBack_kept
   | with_reducible apply State.handOver_kept
   | with_reducible apply State.incSf_kept
   | with_reducible apply State.post_kept
   | fail_if_no_progress (with_reducible refine State.Kept.lit ?_ rfl rfl rfl)
   | intro hx
   | (refine State.Kept.pair (by with_reducible assumption) ?_)
   | (refine State.Kept.triple (by with_reducible assumption) ?_)
   | split)

theorem State.encSent_kept {kx : Bool} {k0 : State} (payload : List Nat) (u : Nat) (j : Job) (p : EncPic) (s : State) (hs : k0.Kept kx s) :
    k0.Kept kx (State.encSent payload u j p s) := by
  delta State.encSent; beta_reduce
  repeat' (first
   | with_reducible assumption
   | (extract_lets -merge -underBinder +onlyGivenNames ky; first | (refine State.Kept.cut ‹State.Kept _ _ _› (t := ky) ?_ ?_; subst ky; rotate_left; intro hx; clear_value ky) | clear_value ky)
   | with_reducible apply State.each_kept
   | with_reducible apply State.countSent_kept
   | with_reducible apply State.endJob_kept
   | with_reducible apply State.keepRecon_kept
   | with_reducible apply State.passOn_kept
   | with_reducible apply State.pilotRecord_kept
   | with_reducible apply State.quayDrop_kept
   | with_reducible apply State.setEnc_kept
   | with_reducible apply State.setJob_kept
   | with_reducible apply State.symbolsAt_kept
   | with_reducible apply State.windowAsk_kept
   | with_reducible apply State.writeMem_kept
   | fail_if_no_progress (with_reducible refine State.Kept.lit ?_ rfl rfl rfl)
   | intro hx)

theorem State.entropyEncode_kept {kx : Bool} {k0 : State} (payload : List Nat) (u : Nat) (j : Job) (s : State) (hs : k0.Kept kx s) :
    k0.Kept kx (State.entropyEncode payload u j s) := by
  delta State.entropyEncode; beta_reduce
  repeat' (first
   | with_reducible assumption
   | (extract_lets -merge -underBinder +onlyGivenNames ky; first | (refine State.Kept.cut ‹State.Kept _ _ _› (t := ky) ?_ ?_; subst ky; rotate_left; intro hx; clear_value ky) | clear_value ky)
   | with_reducible apply State.encRun_kept
   | with_reducible apply State.encSent_kept
   | with_reducible apply State.endJob_kept
   | fail_if_no_progress (with_reducible refine State.Kept.lit ?_ rfl rfl rfl)
   | intro hx
   | (refine State.Kept.pair (by with_reducible assumption) ?_)
   | (refine State.Kept.triple (by with_reducible assumption) ?_)
   | split)

theorem State.dropCur_kept {kx : Bool} {k0 : State} (st : Nat) (j : Job) (s : State) (hs : k0.Kept kx s) :
    k0.Kept kx (State.dropCur st j s).2 := by
  delta State.dropCur; beta_reduce
  repeat' (first
   | with_reducible assumption
   | with_reducible apply State.dropPic_kept
   | fail_if_no_progress (with_reducible refine State.Kept.lit ?_ rfl rfl rfl)
   | intro hx
   | (refine State.Kept.pair (by with_reducible assumption) ?_)
   | (refine State.Kept.triple (by with_reducible assumption) ?_)
   | split)

theorem State.lateEnc_kept {kx : Bool} {k0 : State} (u : Nat) (s : State) (hs : k0.Kept kx s) :
    k0.Kept kx (State.lateEnc u s) := by
  delta State.lateEnc; beta_reduce
  repeat' (first
   | with_reducible assumption
   | (extract_lets -merge -underBinder +onlyGivenNames ky; first | (refine State.Kept.cut2 ‹State.Kept _ _ _› (t := ky) ?_ ?_; subst ky; rotate_left; intro hx; clear_value ky) | clear_value ky)
   | with_reducible apply State.doneComposed_kept
   | with_reducible apply State.dropCur_kept
   | with_reducible apply State.dropEnc_kept
   | with_reducible apply State.endJob_kept
   | with_reducible apply State.setJob_kept
   | fail_if_no_progress (with_reducible refine State.Kept.lit ?_ rfl rfl rfl)
   | intro hx
   | (refine State.Kept.pair (by with_reducible assumption) ?_)
   | (refine State.Kept.triple (by with_reducible assumption) ?_)
   | split)

theorem State.haltEnc_kept {kx : Bool} {k0 : State} (u st : Nat) (s : State) (hs : k0.Kept kx s) :
    k0.Kept kx (State.haltEnc u st s) := by
  delta State.haltEnc; beta_reduce
  repeat' (first
   | with_reducible assumption
   | (extract_lets -merge -underBinder +onlyGivenNames ky; first | (refine State.Kept.cut ‹State.Kept _ _ _› (t := ky) ?_ ?_; subst ky; rotate_left; intro hx; clear_value ky) | (refine State.Kept.cut2 ‹State.Kept _ _ _› (t := ky) ?_ ?_; subst ky; rotate_left; intro hx; clear_value ky) | clear_value ky)
   | with_reducible apply State.abandonJob_kept
   | with_reducible apply State.dropCur_kept
   | with_reducible apply State.giveBack_kept
   | with_reducible apply State.incSf_kept
   | fail_if_no_progress (with_reducible refine State.Kept.lit ?_ rfl rfl rfl)
   | intro hx
   | (refine State.Kept.pair (by with_reducible assumption) ?_)
   | (refine State.Kept.triple (by with_reducible assumption) ?_)
   | split)

theorem State.runEnc_kept {kx : Bool} {k0 : State} (u op : Nat) (f : Job → State → State) (s : State) (hf : ∀ a0 a1, k0.Kept kx a1 → k0.Kept kx (f a0 a1)) (hs : k0.Kept kx s) :
    k0.Kept kx (State.runEnc u op f s) := by
  delta State.runEnc; beta_reduce
  repeat' (first
   | with_reducible assumption
   | with_reducible apply State.haltEnc_kept
   | with_reducible apply State.runJob_kept
   | split)

end Sys2Proof.Machine
end

