-- ==== Sys2Proof/Laws/KeptCompose.lean ====
section
/-! SUPPORT. What the operations of Machine/Compose.lean keep (Laws/Kept.lean), one lemma each. -/

namespace Sys2Proof.Machine

theorem State.layoutFlip_kept {kx : Bool} {k0 : State} (agent n : Nat) (s : State) (hs : k0.Kept kx s) :
    k0.Kept kx (State.layoutFlip agent n s).2 := by
  delta State.layoutFlip; beta_reduce
  repeat' (first
   | with_reducible assumption
   | (extract_lets -merge -underBinder +onlyGivenNames ky; clear_value ky)
   | with_reducible apply State.setLayout_kept
   | with_reducible apply State.usageReg_kept
   | split)

theorem State.flipsDone_kept {kx : Bool} {k0 : State} (t : Nat) (s : State) (hs : k0.Kept kx s) :
    k0.Kept kx (State.flipsDone t s) := by
  delta State.flipsDone; beta_reduce
  repeat' (first
   | with_reducible assumption
   | (extract_lets -merge -underBinder +onlyGivenNames ky; clear_value ky)
   | with_reducible apply State.each_kept
   | with_reducible apply State.setLayout_kept
   | intro hx
   | split)

theorem State.stormAccept_kept {kx : Bool} {k0 : State} (id level slate e : Nat) (text : List Nat) (s : State) (hs : k0.Kept kx s) :
    k0.Kept kx (State.stormAccept id level slate e text s).2.2 := by
  delta State.stormAccept; beta_reduce
  repeat' (first
   | with_reducible assumption
   | (extract_lets -merge -underBinder +onlyGivenNames ky; first | (refine State.Kept.cut ‹State.Kept _ _ _› (t := ky) ?_ ?_; subst ky; rotate_left; intro hx; clear_value ky) | (have hk : ∀ a, ky a = ky a := (fun _ => rfl); clear hk; subst ky; beta_reduce) | clear_value ky)
   | with_reducible apply State.writeMem_kept
   | fail_if_no_progress (with_reducible refine State.Kept.lit ?_ rfl rfl rfl)
   | split)

theorem State.stormsDone_kept {kx : Bool} {k0 : State} (t : Nat) (s : State) (hs : k0.Kept kx s) :
    k0.Kept kx (State.stormsDone t s) := by
  delta State.stormsDone; beta_reduce
  repeat' (first
   | with_reducible assumption
   | (extract_lets -merge -underBinder +onlyGivenNames ky; clear_value ky)
   | fail_if_no_progress (with_reducible refine State.Kept.lit ?_ rfl rfl rfl))

theorem State.stormMsg_kept {kx : Bool} {k0 : State} (b : List Nat) (s : State) (hs : k0.Kept kx s) :
    k0.Kept kx (State.stormMsg b s).2.2.2 := by
  delta State.stormMsg; beta_reduce
  repeat' (first
   | with_reducible assumption
   | (extract_lets -merge -underBinder +onlyGivenNames ky; first | (refine State.Kept.cut ‹State.Kept _ _ _› (t := ky) ?_ ?_; subst ky; rotate_left; intro hx; clear_value ky) | (refine State.Kept.cut3 ‹State.Kept _ _ _› (t := ky) ?_ ?_; subst ky; rotate_left; intro hx; clear_value ky) | (have hk : ∀ a, ky a = ky a := (fun _ => rfl); clear hk; subst ky; beta_reduce) | clear_value ky)
   | with_reducible apply State.stormAccept_kept
   | fail_if_no_progress (with_reducible refine State.Kept.lit ?_ rfl rfl rfl)
   | split)

theorem State.fragExpiry_kept {kx : Bool} {k0 : State} (id : Nat) (s : State) (hs : k0.Kept kx s) :
    k0.Kept kx (State.fragExpiry id s) := by
  delta State.fragExpiry; beta_reduce
  repeat' (first
   | with_reducible assumption
   | fail_if_no_progress (with_reducible refine State.Kept.lit ?_ rfl rfl rfl))

theorem State.showLayers_kept {kx : Bool} {k0 : State} (u a t : Nat) (s : State) (hs : k0.Kept kx s) :
    k0.Kept kx (State.showLayers u a t s) := by
  delta State.showLayers; beta_reduce
  repeat' (first
   | with_reducible assumption
   | (extract_lets -merge -underBinder +onlyGivenNames ky; first | (refine State.Kept.cut ‹State.Kept _ _ _› (t := ky) ?_ ?_; subst ky; rotate_left; intro hx; clear_value ky) | clear_value ky)
   | with_reducible apply State.each_kept
   | with_reducible apply State.whenB_kept
   | with_reducible apply State.bump_kept
   | with_reducible apply State.release_kept
   | with_reducible apply State.setBit_kept
   | with_reducible apply State.setDec_kept
   | with_reducible apply State.setSf_kept
   | with_reducible apply State.share_kept
   | fail_if_no_progress (with_reducible refine State.Kept.lit ?_ rfl rfl rfl)
   | intro hx
   | (refine State.Kept.pair (by with_reducible assumption) ?_)
   | (refine State.Kept.triple (by with_reducible assumption) ?_)
   | split)

theorem State.dropBuf_kept {kx : Bool} {k0 : State} (a : Nat) (s : State) (hs : k0.Kept kx s) :
    k0.Kept kx (State.dropBuf a s) := by
  delta State.dropBuf; beta_reduce
  repeat' (first
   | with_reducible assumption
   | (extract_lets -merge -underBinder +onlyGivenNames ky; first | (refine State.Kept.cut ‹State.Kept _ _ _› (t := ky) ?_ ?_; subst ky; rotate_left; intro hx; clear_value ky) | (refine State.Kept.cut2 ‹State.Kept _ _ _› (t := ky) ?_ ?_; subst ky; rotate_left; intro hx; clear_value ky) | (refine State.Kept.cut3 ‹State.Kept _ _ _› (t := ky) ?_ ?_; subst ky; rotate_left; intro hx; clear_value ky) | (refine State.Kept.cut4 ‹State.Kept _ _ _› (t := ky) ?_ ?_; subst ky; rotate_left; intro hx; clear_value ky) | (have hk : ∀ a, ky a = ky a := (fun _ => rfl); clear hk; subst ky; beta_reduce) | (have hk : ky.broken = ky.broken := rfl; clear hk; subst ky) | (have hk : ky.logWr = ky.logWr := rfl; clear hk; subst ky) | clear_value ky)
   | with_reducible apply State.each_kept
   | with_reducible apply State.whenB_kept
   | with_reducible apply State.Kept.foldl
   | with_reducible apply State.Kept.foldl2
   | with_reducible apply State.Kept.foldl3
   | with_reducible apply State.giveBack_kept
   | fail_if_no_progress (with_reducible refine State.Kept.lit ?_ rfl rfl rfl)
   | intro hx
   | (refine State.Kept.pair (by with_reducible assumption) ?_)
   | (refine State.Kept.triple (by with_reducible assumption) ?_)
   | split)

theorem State.postEncode_kept {kx : Bool} {k0 : State} (c src buf : Nat) (s : State) (hs : k0.Kept kx s) :
    k0.Kept kx (State.postEncode c src buf s) := by
  delta State.postEncode; beta_reduce
  repeat' (first
   | with_reducible assumption
   | (extract_lets -merge -underBinder +onlyGivenNames ky; first | (refine State.Kept.cut ‹State.Kept _ _ _› (t := ky) ?_ ?_; subst ky; rotate_left; intro hx; clear_value ky) | (refine State.Kept.cut3 ‹State.Kept _ _ _› (t := ky) ?_ ?_; subst ky; rotate_left; intro hx; clear_value ky) | clear_value ky)
   | with_reducible apply State.dropBuf_kept
   | with_reducible apply State.handOver_kept
   | with_reducible apply State.incSf_kept
   | with_reducible apply State.post_kept
   | with_reducible apply State.setEnc_kept
   | fail_if_no_progress (with_reducible refine State.Kept.lit ?_ rfl rfl rfl)
   | intro hx
   | (refine State.Kept.pair (by with_reducible assumption) ?_)
   | (refine State.Kept.triple (by with_reducible assumption) ?_)
   | split)

theorem State.composed_kept {kx : Bool} {k0 : State} (c p buf st : Nat) (s : State) (hs : k0.Kept kx s) :
    k0.Kept kx (State.composed c p buf st s) := by
  delta State.composed; beta_reduce
  repeat' (first
   | with_reducible assumption
   | (extract_lets -merge -underBinder +onlyGivenNames ky; clear_value ky)
   | with_reducible apply State.each_kept
   | with_reducible apply State.whenB_kept
   | with_reducible apply State.Kept.foldl
   | with_reducible apply State.Kept.foldl2
   | with_reducible apply State.Kept.foldl3
   | with_reducible apply State.dropBuf_kept
   | with_reducible apply State.postEncode_kept
   | with_reducible apply State.setDisp_kept
   | fail_if_no_progress (with_reducible refine State.Kept.lit ?_ rfl rfl rfl)
   | intro hx
   | (refine State.Kept.pair (by with_reducible assumption) ?_)
   | (refine State.Kept.triple (by with_reducible assumption) ?_)
   | split)

theorem State.setComps_kept {kx : Bool} {k0 : State} (c : Nat) (l : List CompRec) (s : State) (hs : k0.Kept kx s) :
    k0.Kept kx (State.setComps c l s) := by
  delta State.setComps; beta_reduce
  repeat' (first
   | with_reducible assumption
   | fail_if_no_progress (with_reducible refine State.Kept.lit ?_ rfl rfl rfl))

theorem Memory.read_put_below {a x : Nat} (h : x < a) (l : List Nat) (m : Memory) :
    Memory.read (Memory.put m a l) x = Memory.read m x := by
  induction l generalizing m a with
  | nil => rfl
  | cons b bs ih =>
    rw [Memory.put, ih (by omega)]
    exact congrArg BitVec.toNat (SMap.get_set_other _ _ _ (by omega))

/-- What a composition draws from differs from memory in the outbound window alone. -/
theorem State.hostView_below {x : Nat} (h : x < 0x8000000000) (host : List (Nat × List Nat)) (s : State) :
    Memory.read (s.hostView host).mem x = Memory.read s.mem x := by
  have key : ∀ (l : List (Nat × List Nat)), (∀ p ∈ l, 0x8000000000 ≤ p.1) → ∀ m : Memory,
      Memory.read (l.foldl (fun m p => Memory.put m p.1 p.2) m) x = Memory.read m x := by
    intro l
    induction l with
    | nil => intros; rfl
    | cons p l ih =>
      intro hl m
      rw [List.foldl_cons, ih (fun q hq => hl q (List.mem_cons_of_mem _ hq)),
        Memory.read_put_below (Nat.lt_of_lt_of_le h (hl p List.mem_cons_self))]
  exact key _ (fun p hp => by simp_all) _

theorem State.composeJob_kept {kx : Bool} {k0 : State} (u : Nat) (host : List (Nat × List Nat)) (j : Job) (s : State) (hs : k0.Kept kx s) :
    k0.Kept kx (State.composeJob u host j s) := by
  delta State.composeJob; beta_reduce
  repeat' (first
   | with_reducible assumption
   | (extract_lets -merge -underBinder +onlyGivenNames ky; first | (refine State.Kept.cut ‹State.Kept _ _ _› (t := ky) ?_ ?_; subst ky; rotate_left; intro hx; clear_value ky) | (refine State.Kept.cut3 ‹State.Kept _ _ _› (t := ky) ?_ ?_; subst ky; rotate_left; intro hx; clear_value ky) | clear_value ky)
   | with_reducible apply State.whenB_kept
   | with_reducible apply State.alloc_kept
   | with_reducible apply State.bump_kept
   | with_reducible apply State.composed_kept
   | with_reducible apply State.endJob_kept
   | with_reducible apply State.leafBumpAt_kept
   | with_reducible apply State.setBit_kept
   | with_reducible apply State.setComps_kept
   | with_reducible apply State.setDisp_kept
   | with_reducible apply State.showLayers_kept
   | with_reducible apply State.storePic_kept
   | with_reducible apply State.writeMem_kept
   | fail_if_no_progress (with_reducible refine State.Kept.lit ?_ rfl rfl rfl)
   | intro hx
   | (refine State.Kept.pair (by with_reducible assumption) ?_)
   | (refine State.Kept.triple (by with_reducible assumption) ?_)
   | split)

theorem State.lateCompose_kept {kx : Bool} {k0 : State} (u : Nat) (s : State) (hs : k0.Kept kx s) :
    k0.Kept kx (State.lateCompose u s) := by
  delta State.lateCompose; beta_reduce
  repeat' (first
   | with_reducible assumption
   | with_reducible apply State.bump_kept
   | with_reducible apply State.composed_kept
   | with_reducible apply State.endJob_kept
   | split)

theorem State.runCompose_kept {kx : Bool} {k0 : State} (u : Nat) (host : List (Nat × List Nat)) (s : State) (hs : k0.Kept kx s) :
    k0.Kept kx (State.runCompose u host s) := by
  delta State.runCompose; beta_reduce
  repeat' (first
   | with_reducible assumption
   | with_reducible apply State.composeJob_kept
   | with_reducible apply State.endJob_kept
   | with_reducible apply State.runJob_kept
   | fail_if_no_progress (with_reducible refine State.Kept.lit ?_ rfl rfl rfl)
   | intro hx
   | (refine State.Kept.pair (by with_reducible assumption) ?_)
   | (refine State.Kept.triple (by with_reducible assumption) ?_)
   | split)

theorem State.postComposes_kept {kx : Bool} {k0 : State} (t : Nat) (s : State) (hs : k0.Kept kx s) :
    k0.Kept kx (State.postComposes t s) := by
  delta State.postComposes; beta_reduce
  repeat' (first
   | with_reducible assumption
   | (extract_lets -merge -underBinder +onlyGivenNames ky; first | (refine State.Kept.cut ‹State.Kept _ _ _› (t := ky) ?_ ?_; subst ky; rotate_left; intro hx; clear_value ky) | (refine State.Kept.cut3 ‹State.Kept _ _ _› (t := ky) ?_ ?_; subst ky; rotate_left; intro hx; clear_value ky) | clear_value ky)
   | with_reducible apply State.each_kept
   | with_reducible apply State.incSf_kept
   | with_reducible apply State.post_kept
   | fail_if_no_progress (with_reducible refine State.Kept.lit ?_ rfl rfl rfl)
   | intro hx
   | (refine State.Kept.pair (by with_reducible assumption) ?_)
   | (refine State.Kept.triple (by with_reducible assumption) ?_)
   | split)

theorem State.loadSlate_kept {kx : Bool} {k0 : State} (s : State) (hs : k0.Kept kx s) :
    k0.Kept kx (State.loadSlate s) := by
  delta State.loadSlate; beta_reduce
  repeat' (first
   | with_reducible assumption
   | (extract_lets -merge -underBinder +onlyGivenNames ky; clear_value ky)
   | with_reducible apply State.wr_kept
   | fail_if_no_progress (with_reducible refine State.Kept.lit ?_ rfl rfl rfl)
   | split)

theorem State.linkSet_kept {kx : Bool} {k0 : State} (n : Nat) (y : DispSt) (s : State) (hs : k0.Kept kx s) :
    k0.Kept kx (State.linkSet n y s) := by
  delta State.linkSet; beta_reduce
  repeat' (first
   | with_reducible assumption
   | (extract_lets -merge -underBinder +onlyGivenNames ky; first | (refine State.Kept.cut ‹State.Kept _ _ _› (t := ky) ?_ ?_; subst ky; rotate_left; intro hx; clear_value ky) | clear_value ky)
   | with_reducible apply State.whenB_kept
   | with_reducible apply State.report_kept
   | with_reducible apply State.setBit_kept
   | with_reducible apply State.setDisp_kept)

theorem State.train_kept {kx : Bool} {k0 : State} (n : Nat) (trains : Bool) (s : State) (hs : k0.Kept kx s) :
    k0.Kept kx (State.train n trains s) := by
  delta State.train; beta_reduce
  repeat' (first
   | with_reducible assumption
   | (extract_lets -merge -underBinder +onlyGivenNames ky; clear_value ky)
   | with_reducible apply State.linkSet_kept
   | split)

theorem State.hpdLow_kept {kx : Bool} {k0 : State} (n : Nat) (s : State) (hs : k0.Kept kx s) :
    k0.Kept kx (State.hpdLow n s) := by
  delta State.hpdLow; beta_reduce
  repeat' (first
   | with_reducible assumption
   | (extract_lets -merge -underBinder +onlyGivenNames ky; first | (refine State.Kept.cut ‹State.Kept _ _ _› (t := ky) ?_ ?_; subst ky; rotate_left; intro hx; clear_value ky) | clear_value ky)
   | with_reducible apply State.whenB_kept
   | with_reducible apply State.linkSet_kept
   | with_reducible apply State.setBit_kept)

theorem State.hpdAssert_kept {kx : Bool} {k0 : State} (n lanes rate diag : Nat) (trains : Bool) (s : State) (hs : k0.Kept kx s) :
    k0.Kept kx (State.hpdAssert n lanes rate diag trains s) := by
  delta State.hpdAssert; beta_reduce
  repeat' (first
   | with_reducible assumption
   | (extract_lets -merge -underBinder +onlyGivenNames ky; first | (refine State.Kept.cut ‹State.Kept _ _ _› (t := ky) ?_ ?_; subst ky; rotate_left; intro hx; clear_value ky) | clear_value ky)
   | with_reducible apply State.whenB_kept
   | with_reducible apply State.setBit_kept
   | with_reducible apply State.setDisp_kept
   | with_reducible apply State.train_kept
   | with_reducible apply State.wrFld_kept)

theorem State.irqHpd_kept {kx : Bool} {k0 : State} (n : Nat) (linkLost trains : Bool) (s : State) (hs : k0.Kept kx s) :
    k0.Kept kx (State.irqHpd n linkLost trains s) := by
  delta State.irqHpd; beta_reduce
  repeat' (first
   | with_reducible assumption
   | with_reducible apply State.train_kept
   | split)

theorem State.linkRetry_kept {kx : Bool} {k0 : State} (n : Nat) (trains : Bool) (s : State) (hs : k0.Kept kx s) :
    k0.Kept kx (State.linkRetry n trains s) := by
  delta State.linkRetry; beta_reduce
  repeat' (first
   | with_reducible assumption
   | with_reducible apply State.train_kept
   | split)

theorem State.auxTimeout_kept {kx : Bool} {k0 : State} (n : Nat) (s : State) (hs : k0.Kept kx s) :
    k0.Kept kx (State.auxTimeout n s) := by
  delta State.auxTimeout; beta_reduce
  repeat' (first
   | with_reducible assumption
   | (extract_lets -merge -underBinder +onlyGivenNames ky; clear_value ky)
   | with_reducible apply State.report_kept
   | with_reducible apply State.setBit_kept
   | with_reducible apply State.setDisp_kept
   | split)

theorem State.laneFault_kept {kx : Bool} {k0 : State} (n lane kind : Nat) (trains : Bool) (s : State) (hs : k0.Kept kx s) :
    k0.Kept kx (State.laneFault n lane kind trains s) := by
  delta State.laneFault; beta_reduce
  repeat' (first
   | with_reducible assumption
   | (extract_lets -merge -underBinder +onlyGivenNames ky; first | (refine State.Kept.cut ‹State.Kept _ _ _› (t := ky) ?_ ?_; subst ky; rotate_left; intro hx; clear_value ky) | clear_value ky)
   | with_reducible apply State.report_kept
   | with_reducible apply State.setBit_kept
   | with_reducible apply State.train_kept
   | with_reducible apply State.wrFld_kept)

theorem State.vsync_kept {kx : Bool} {k0 : State} (n : Nat) (s : State) (hs : k0.Kept kx s) :
    k0.Kept kx (State.vsync n s) := by
  delta State.vsync; beta_reduce
  repeat' (first
   | with_reducible assumption
   | (extract_lets -merge -underBinder +onlyGivenNames ky; first | (refine State.Kept.cut ‹State.Kept _ _ _› (t := ky) ?_ ?_; subst ky; rotate_left; intro hx; clear_value ky) | clear_value ky)
   | with_reducible apply State.bump_kept
   | with_reducible apply State.emit_kept
   | with_reducible apply State.setBit_kept
   | with_reducible apply State.setDisp_kept
   | split)

theorem State.freeShown_kept {kx : Bool} {k0 : State} (n : Nat) (s : State) (hs : k0.Kept kx s) :
    k0.Kept kx (State.freeShown n s) := by
  delta State.freeShown; beta_reduce
  repeat' (first
   | with_reducible assumption
   | (extract_lets -merge -underBinder +onlyGivenNames ky; first | (refine State.Kept.cut ‹State.Kept _ _ _› (t := ky) ?_ ?_; subst ky; rotate_left; intro hx; clear_value ky) | clear_value ky)
   | with_reducible apply State.each_kept
   | with_reducible apply State.whenB_kept
   | with_reducible apply State.Kept.foldl
   | with_reducible apply State.Kept.foldl2
   | with_reducible apply State.Kept.foldl3
   | with_reducible apply State.dropBuf_kept
   | with_reducible apply State.setDisp_kept)

theorem flipCmd_kept {kx : Bool} {k0 : State} (b : List Nat) (s : State) (hs : k0.Kept kx s) :
    k0.Kept kx (flipCmd b s).2.2 := by
  delta flipCmd; beta_reduce
  repeat' (first
   | with_reducible assumption
   | (extract_lets -merge -underBinder +onlyGivenNames ky; refine State.Kept.cut2 ‹State.Kept _ _ _› (t := ky) ?_ ?_; subst ky; rotate_left; intro hx; clear_value ky)
   | with_reducible apply State.layoutFlip_kept
   | split)

theorem stormCmd_kept {kx : Bool} {k0 : State} (via : Via) (b : List Nat) (s : State) (hs : k0.Kept kx s) :
    k0.Kept kx (stormCmd via b s).2.2 := by
  delta stormCmd; beta_reduce
  repeat' (first
   | with_reducible assumption
   | (extract_lets -merge -underBinder +onlyGivenNames ky; refine State.Kept.cut4 ‹State.Kept _ _ _› (t := ky) ?_ ?_; subst ky; rotate_left; intro hx; clear_value ky)
   | with_reducible apply State.whenB_kept
   | with_reducible apply State.setBit_kept
   | with_reducible apply State.stormMsg_kept)

end Sys2Proof.Machine
end

