-- ==== Sys2Proof/Laws/KeptNetwork.lean ====
section
/-! SUPPORT. What the operations of Machine/Network.lean keep (Laws/Kept.lean), one lemma each. -/

namespace Sys2Proof.Machine

theorem State.linkChange_kept {kx : Bool} {k0 : State} (k : Nat) (up fec lf rf : Bool) (sp : Nat) (s : State) (hs : k0.Kept kx s) :
    k0.Kept kx (State.linkChange k up fec lf rf sp s) := by
  delta State.linkChange; beta_reduce
  repeat' (first
   | with_reducible assumption
   | (extract_lets -merge -underBinder +onlyGivenNames ky; first | (refine State.Kept.cut ‹State.Kept _ _ _› (t := ky) ?_ ?_; subst ky; rotate_left; intro hx; clear_value ky) | clear_value ky)
   | with_reducible apply State.report_kept
   | with_reducible apply State.setBit_kept
   | with_reducible apply State.wr_kept
   | split)

theorem State.neighbourRx_kept {kx : Bool} {k0 : State} (k kind : Nat) (s : State) (hs : k0.Kept kx s) :
    k0.Kept kx (State.neighbourRx k kind s) := by
  delta State.neighbourRx; beta_reduce
  repeat' (first
   | with_reducible assumption
   | (extract_lets -merge -underBinder +onlyGivenNames ky; clear_value ky)
   | with_reducible apply State.emit_kept
   | split)

theorem State.pathLostAt_kept {kx : Bool} {k0 : State} (k : Nat) (s : State) (hs : k0.Kept kx s) :
    k0.Kept kx (State.pathLostAt k s) := by
  delta State.pathLostAt; beta_reduce
  repeat' (first
   | with_reducible assumption
   | with_reducible apply State.report_kept
   | fail_if_no_progress (with_reducible refine State.Kept.lit ?_ rfl rfl rfl)
   | split)

theorem State.pathFound_kept {kx : Bool} {k0 : State} (k : Nat) (s : State) (hs : k0.Kept kx s) :
    k0.Kept kx (State.pathFound k s) := by
  delta State.pathFound; beta_reduce
  repeat' (first
   | with_reducible assumption
   | (extract_lets -merge -underBinder +onlyGivenNames ky; refine State.Kept.cut ‹State.Kept _ _ _› (t := ky) ?_ ?_; subst ky; rotate_left; intro hx; clear_value ky)
   | with_reducible apply State.whenB_kept
   | with_reducible apply State.endCond_kept
   | fail_if_no_progress (with_reducible refine State.Kept.lit ?_ rfl rfl rfl)
   | split)

theorem State.policeAt_kept {kx : Bool} {k0 : State} (i n : Nat) (s : State) (hs : k0.Kept kx s) :
    k0.Kept kx (State.policeAt i n s).2 := by
  delta State.policeAt; beta_reduce
  repeat' (first
   | with_reducible assumption
   | (extract_lets -merge -underBinder +onlyGivenNames ky; first | (refine State.Kept.cut ‹State.Kept _ _ _› (t := ky) ?_ ?_; subst ky; rotate_left; intro hx; clear_value ky) | clear_value ky)
   | with_reducible apply State.bump_kept
   | with_reducible apply State.setBit_kept
   | fail_if_no_progress (with_reducible refine State.Kept.lit ?_ rfl rfl rfl)
   | split)

theorem State.classWatch_kept {kx : Bool} {k0 : State} (old : State) (agent : Nat) (s : State) (hs : k0.Kept kx s) :
    k0.Kept kx (State.classWatch old agent s) := by
  delta State.classWatch; beta_reduce
  repeat' (first
   | with_reducible assumption
   | (extract_lets -merge -underBinder +onlyGivenNames ky; refine State.Kept.cut ‹State.Kept _ _ _› (t := ky) ?_ ?_; subst ky; rotate_left; intro hx; clear_value ky)
   | with_reducible apply State.each_kept
   | with_reducible apply State.whenB_kept
   | with_reducible apply State.usage_kept
   | fail_if_no_progress (with_reducible refine State.Kept.lit ?_ rfl rfl rfl)
   | intro hx)

theorem State.bsAlloc_kept {kx : Bool} {k0 : State} (c : Nat) (s : State) (hs : k0.Kept kx s) :
    k0.Kept kx (State.bsAlloc c s).2 := by
  delta State.bsAlloc; beta_reduce
  repeat' (first
   | with_reducible assumption
   | (extract_lets -merge -underBinder +onlyGivenNames ky; refine State.Kept.cut3 ‹State.Kept _ _ _› (t := ky) ?_ ?_; subst ky; rotate_left; intro hx; clear_value ky)
   | with_reducible apply State.alloc_kept)

theorem State.noBuffer_kept {kx : Bool} {k0 : State} (s : State) (hs : k0.Kept kx s) :
    k0.Kept kx (State.noBuffer s) := by
  delta State.noBuffer; beta_reduce
  repeat' (first
   | with_reducible assumption
   | with_reducible apply State.bump_kept
   | with_reducible apply State.setBit_kept)

theorem State.noteElem_kept {kx : Bool} {k0 : State} (c : Nat) (elem : Option (List Nat)) (s : State) (hs : k0.Kept kx s) :
    k0.Kept kx (State.noteElem c elem s) := by
  delta State.noteElem; beta_reduce
  repeat' (first
   | with_reducible assumption
   | with_reducible apply State.setDec_kept
   | with_reducible apply State.setSf_kept
   | fail_if_no_progress (with_reducible refine State.Kept.lit ?_ rfl rfl rfl)
   | intro hx
   | (refine State.Kept.pair (by with_reducible assumption) ?_)
   | (refine State.Kept.triple (by with_reducible assumption) ?_)
   | split)

theorem State.postPic_kept {kx : Bool} {k0 : State} (c src addr lm fl : Nat) (s : State) (hs : k0.Kept kx s) :
    k0.Kept kx (State.postPic c src addr lm fl s) := by
  delta State.postPic; beta_reduce
  repeat' (first
   | with_reducible assumption
   | (extract_lets -merge -underBinder +onlyGivenNames ky; first | (refine State.Kept.cut3 ‹State.Kept _ _ _› (t := ky) ?_ ?_; subst ky; rotate_left; intro hx; clear_value ky) | clear_value ky)
   | with_reducible apply State.dispatch_kept
   | with_reducible apply State.giveBack_kept
   | with_reducible apply State.post_kept
   | with_reducible apply State.setDec_kept
   | fail_if_no_progress (with_reducible refine State.Kept.lit ?_ rfl rfl rfl)
   | intro hx
   | (refine State.Kept.pair (by with_reducible assumption) ?_)
   | (refine State.Kept.triple (by with_reducible assumption) ?_)
   | split)

theorem State.releasePic_kept {kx : Bool} {k0 : State} (c tide addr : Nat) (elem : Option (List Nat)) (data : List Nat) (losses : List (Nat × Nat)) (trunc disc : Bool) (s : State) (hs : k0.Kept kx s) :
    k0.Kept kx (State.releasePic c tide addr elem data losses trunc disc s) := by
  delta State.releasePic; beta_reduce
  repeat' (first
   | with_reducible assumption
   | (extract_lets -merge -underBinder +onlyGivenNames ky; first | (refine State.Kept.cut ‹State.Kept _ _ _› (t := ky) ?_ ?_; subst ky; rotate_left; intro hx; clear_value ky) | clear_value ky)
   | with_reducible apply State.whenB_kept
   | with_reducible apply State.giveBack_kept
   | with_reducible apply State.noteElem_kept
   | with_reducible apply State.postPic_kept
   | with_reducible apply State.writeMem_kept
   | fail_if_no_progress (with_reducible refine State.Kept.lit ?_ rfl rfl rfl)
   | intro hx
   | (refine State.Kept.pair (by with_reducible assumption) ?_)
   | (refine State.Kept.triple (by with_reducible assumption) ?_)
   | split)

theorem State.countLost_kept {kx : Bool} {k0 : State} (c t : Nat) (s : State) (hs : k0.Kept kx s) :
    k0.Kept kx (State.countLost c t s) := by
  delta State.countLost; beta_reduce
  repeat' (first
   | with_reducible assumption
   | (extract_lets -merge -underBinder +onlyGivenNames ky; clear_value ky)
   | with_reducible apply State.incSf_kept
   | split)

theorem State.setPes_kept {kx : Bool} {k0 : State} (k : Nat) (x : PesSt) (s : State) (hs : k0.Kept kx s) :
    k0.Kept kx (State.setPes k x s) := by
  delta State.setPes; beta_reduce
  repeat' (first
   | with_reducible assumption
   | fail_if_no_progress (with_reducible refine State.Kept.lit ?_ rfl rfl rfl))

theorem State.pesPacket_kept {kx : Bool} {k0 : State} (k c t : Nat) (buf : Option Nat) (elem : Option (List Nat)) (p : List Nat) (s : State) (hs : k0.Kept kx s) :
    k0.Kept kx (State.pesPacket k c t buf elem p s).2 := by
  delta State.pesPacket; beta_reduce
  repeat' (first
   | with_reducible assumption
   | (extract_lets -merge -underBinder +onlyGivenNames ky; first | (refine State.Kept.cut ‹State.Kept _ _ _› (t := ky) ?_ ?_; subst ky; rotate_left; intro hx; clear_value ky) | clear_value ky)
   | with_reducible apply State.releasePic_kept
   | with_reducible apply State.setPes_kept
   | fail_if_no_progress (with_reducible refine State.Kept.lit ?_ rfl rfl rfl)
   | intro hx
   | (refine State.Kept.pair (by with_reducible assumption) ?_)
   | (refine State.Kept.triple (by with_reducible assumption) ?_)
   | split)

theorem State.tsNet_kept {kx : Bool} {k0 : State} (k i t : Nat) (elem : Option (List Nat)) (data : List Nat) (s : State) (hs : k0.Kept kx s) :
    k0.Kept kx (State.tsNet k i t elem data s) := by
  delta State.tsNet; beta_reduce
  repeat' (first
   | with_reducible assumption
   | (extract_lets -merge -underBinder +onlyGivenNames ky; first | (refine State.Kept.cut ‹State.Kept _ _ _› (t := ky) ?_ ?_; subst ky; rotate_left; intro hx; clear_value ky) | (refine State.Kept.cut2 ‹State.Kept _ _ _› (t := ky) ?_ ?_; subst ky; rotate_left; intro hx; clear_value ky) | clear_value ky)
   | with_reducible apply State.each_kept
   | with_reducible apply State.bsAlloc_kept
   | with_reducible apply State.noBuffer_kept
   | with_reducible apply State.pesPacket_kept
   | with_reducible apply State.setSf_kept
   | fail_if_no_progress (with_reducible refine State.Kept.lit ?_ rfl rfl rfl)
   | intro hx
   | (refine State.Kept.pair (by with_reducible assumption) ?_)
   | (refine State.Kept.triple (by with_reducible assumption) ?_)
   | split)

theorem State.setRx_kept {kx : Bool} {k0 : State} (k : Nat) (x : RxSt) (s : State) (hs : k0.Kept kx s) :
    k0.Kept kx (State.setRx k x s) := by
  delta State.setRx; beta_reduce
  repeat' (first
   | with_reducible assumption
   | fail_if_no_progress (with_reducible refine State.Kept.lit ?_ rfl rfl rfl))

theorem State.rxRelease_kept {kx : Bool} {k0 : State} (k i : Nat) (c0 : Nat) (c1 : Bool) (s : State) (hs : k0.Kept kx s) :
    k0.Kept kx (State.rxRelease k i c0 c1 s) := by
  induction c0 generalizing c1 s with
  | zero => exact hs
  | succ n ih =>
    unfold State.rxRelease
    repeat' (first
     | with_reducible assumption
     | (extract_lets -merge -underBinder +onlyGivenNames ky; first | (refine State.Kept.cut ‹State.Kept _ _ _› (t := ky) ?_ ?_; subst ky; rotate_left; intro hx; clear_value ky) | clear_value ky)
     | with_reducible apply ih
     | with_reducible apply State.each_kept
     | with_reducible apply State.bump_kept
     | with_reducible apply State.releasePic_kept
     | with_reducible apply State.setBit_kept
     | with_reducible apply State.setRx_kept
     | with_reducible apply State.setSf_kept
     | with_reducible apply State.tsNet_kept
     | intro hx
     | split)

theorem State.notePath_kept {kx : Bool} {k0 : State} (i : Nat) (d : Datagram) (s : State) (hs : k0.Kept kx s) :
    k0.Kept kx (State.notePath i d s) := by
  delta State.notePath; beta_reduce
  repeat' (first
   | with_reducible assumption
   | (extract_lets -merge -underBinder +onlyGivenNames ky; clear_value ky)
   | with_reducible apply State.setDec_kept
   | fail_if_no_progress (with_reducible refine State.Kept.lit ?_ rfl rfl rfl)
   | intro hx
   | (refine State.Kept.pair (by with_reducible assumption) ?_)
   | (refine State.Kept.triple (by with_reducible assumption) ?_)
   | split)

theorem State.rxPlace_kept {kx : Bool} {k0 : State} (k i n a : Nat) (d : Datagram) (s : State) (hs : k0.Kept kx s) :
    k0.Kept kx (State.rxPlace k i n a d s) := by
  delta State.rxPlace; beta_reduce
  repeat' (first
   | with_reducible assumption
   | (extract_lets -merge -underBinder +onlyGivenNames ky; clear_value ky)
   | with_reducible apply State.rxRelease_kept
   | with_reducible apply State.setRx_kept)

theorem State.rxPacket_kept {kx : Bool} {k0 : State} (i : Nat) (d : Datagram) (s : State) (hs : k0.Kept kx s) :
    k0.Kept kx (State.rxPacket i d s) := by
  delta State.rxPacket; beta_reduce
  repeat' (first
   | with_reducible assumption
   | (extract_lets -merge -underBinder +onlyGivenNames ky; first | (refine State.Kept.cut2 ‹State.Kept _ _ _› (t := ky) ?_ ?_; subst ky; rotate_left; intro hx; clear_value ky) | clear_value ky)
   | with_reducible apply State.bsAlloc_kept
   | with_reducible apply State.bump_kept
   | with_reducible apply State.noBuffer_kept
   | with_reducible apply State.rxPlace_kept
   | with_reducible apply State.setRx_kept
   | fail_if_no_progress (with_reducible refine State.Kept.lit ?_ rfl rfl rfl)
   | intro hx
   | (refine State.Kept.pair (by with_reducible assumption) ?_)
   | (refine State.Kept.triple (by with_reducible assumption) ?_)
   | split)

theorem State.mergeExpiry_kept {kx : Bool} {k0 : State} (i : Nat) (s : State) (hs : k0.Kept kx s) :
    k0.Kept kx (State.mergeExpiry i s) := by
  delta State.mergeExpiry; beta_reduce
  repeat' (first
   | with_reducible assumption
   | with_reducible apply State.rxRelease_kept
   | split)

theorem State.feedback_kept {kx : Bool} {k0 : State} (p : List Nat) (s : State) (hs : k0.Kept kx s) :
    k0.Kept kx (State.feedback p s) := by
  delta State.feedback; beta_reduce
  repeat' (first
   | with_reducible assumption
   | (extract_lets -merge -underBinder +onlyGivenNames ky; clear_value ky)
   | with_reducible apply State.bump_kept
   | with_reducible apply State.refreshAsked_kept
   | with_reducible apply State.setBit_kept
   | split)

theorem State.stormFlow_kept {kx : Bool} {k0 : State} (d : Datagram) (s : State) (hs : k0.Kept kx s) :
    k0.Kept kx (State.stormFlow d s) := by
  delta State.stormFlow; beta_reduce
  repeat' (first
   | with_reducible assumption
   | (extract_lets -merge -underBinder +onlyGivenNames ky; first | (refine State.Kept.cut4 ‹State.Kept _ _ _› (t := ky) ?_ ?_; subst ky; rotate_left; intro hx; clear_value ky) | clear_value ky)
   | with_reducible apply State.whenB_kept
   | with_reducible apply State.rmpRun_kept
   | with_reducible apply State.setBit_kept
   | with_reducible apply State.stormMsg_kept
   | intro hx
   | split)

theorem State.toHost_kept {kx : Bool} {k0 : State} (i : Nat) (d : Datagram) (s : State) (hs : k0.Kept kx s) :
    k0.Kept kx (State.toHost i d s) := by
  delta State.toHost; beta_reduce
  repeat' (first
   | with_reducible assumption
   | (extract_lets -merge -underBinder +onlyGivenNames ky; refine State.Kept.cut3 ‹State.Kept _ _ _› (t := ky) ?_ ?_; subst ky; rotate_left; intro hx; clear_value ky)
   | with_reducible apply State.alloc_kept
   | with_reducible apply State.deliver_kept
   | with_reducible apply State.noBuffer_kept
   | with_reducible apply State.writeMem_kept
   | split)

theorem State.ingress_kept {kx : Bool} {k0 : State} (d : Datagram) (s : State) (hs : k0.Kept kx s) :
    k0.Kept kx (State.ingress d s) := by
  delta State.ingress; beta_reduce
  repeat' (first
   | with_reducible assumption
   | (extract_lets -merge -underBinder +onlyGivenNames ky; first | (refine State.Kept.cut ‹State.Kept _ _ _› (t := ky) ?_ ?_; subst ky; rotate_left; intro hx; clear_value ky) | (refine State.Kept.cut2 ‹State.Kept _ _ _› (t := ky) ?_ ?_; subst ky; rotate_left; intro hx; clear_value ky) | clear_value ky)
   | with_reducible apply State.bump_kept
   | with_reducible apply State.feedback_kept
   | with_reducible apply State.notePath_kept
   | with_reducible apply State.policeAt_kept
   | with_reducible apply State.rxPacket_kept
   | with_reducible apply State.stormFlow_kept
   | with_reducible apply State.toHost_kept
   | with_reducible apply State.tsNet_kept
   | fail_if_no_progress (with_reducible refine State.Kept.lit ?_ rfl rfl rfl)
   | intro hx
   | (refine State.Kept.pair (by with_reducible assumption) ?_)
   | (refine State.Kept.triple (by with_reducible assumption) ?_)
   | split)

theorem State.sendOn_kept {kx : Bool} {k0 : State} (u f src path unsent : Nat) (l : List (List Nat)) (s : State) (hs : k0.Kept kx s) :
    k0.Kept kx (State.sendOn u f src path unsent l s) := by
  delta State.sendOn; beta_reduce
  repeat' (first
   | with_reducible assumption
   | (extract_lets -merge -underBinder +onlyGivenNames ky; first | (refine State.Kept.cut ‹State.Kept _ _ _› (t := ky) ?_ ?_; subst ky; rotate_left; intro hx; clear_value ky) | clear_value ky)
   | with_reducible apply State.Kept.foldl
   | with_reducible apply State.Kept.foldl2
   | with_reducible apply State.Kept.foldl3
   | with_reducible apply State.bump_kept
   | with_reducible apply State.emit_kept
   | with_reducible apply State.sndCount_kept
   | fail_if_no_progress (with_reducible refine State.Kept.lit ?_ rfl rfl rfl)
   | intro hx
   | (refine State.Kept.pair (by with_reducible assumption) ?_)
   | (refine State.Kept.triple (by with_reducible assumption) ?_)
   | split)

theorem State.sendPic_kept {kx : Bool} {k0 : State} (u : Nat) (j : Job) (l : List (List Nat)) (n : Nat) (s : State) (hs : k0.Kept kx s) :
    k0.Kept kx (State.sendPic u j l n s) := by
  delta State.sendPic; beta_reduce
  repeat' (first
   | with_reducible assumption
   | (extract_lets -merge -underBinder +onlyGivenNames ky; first | (refine State.Kept.cut ‹State.Kept _ _ _› (t := ky) ?_ ?_; subst ky; rotate_left; intro hx; clear_value ky) | clear_value ky)
   | with_reducible apply State.each_kept
   | with_reducible apply State.sendOn_kept
   | fail_if_no_progress (with_reducible refine State.Kept.lit ?_ rfl rfl rfl)
   | intro hx)

theorem State.transmit_kept {kx : Bool} {k0 : State} (times : List Nat) (u : Nat) (j : Job) (s : State) (hs : k0.Kept kx s) :
    k0.Kept kx (State.transmit times u j s) := by
  delta State.transmit; beta_reduce
  repeat' (first
   | with_reducible assumption
   | (extract_lets -merge -underBinder +onlyGivenNames ky; clear_value ky)
   | with_reducible apply State.abandonJob_kept
   | with_reducible apply State.endJob_kept
   | with_reducible apply State.giveBack_kept
   | with_reducible apply State.sendPic_kept
   | fail_if_no_progress (with_reducible refine State.Kept.lit ?_ rfl rfl rfl)
   | intro hx
   | (refine State.Kept.pair (by with_reducible assumption) ?_)
   | (refine State.Kept.triple (by with_reducible assumption) ?_)
   | split)

theorem State.txDeadline_kept {kx : Bool} {k0 : State} (outs : List (Nat × List Nat)) (s : State) (hs : k0.Kept kx s) :
    k0.Kept kx (State.txDeadline outs s) := by
  delta State.txDeadline; beta_reduce
  repeat' (first
   | with_reducible assumption
   | (extract_lets -merge -underBinder +onlyGivenNames ky; clear_value ky)
   | with_reducible apply State.each_kept
   | with_reducible apply State.endJob_kept
   | with_reducible apply State.giveBack_kept
   | with_reducible apply State.sendPic_kept
   | fail_if_no_progress (with_reducible refine State.Kept.lit ?_ rfl rfl rfl)
   | intro hx
   | (refine State.Kept.pair (by with_reducible assumption) ?_)
   | (refine State.Kept.triple (by with_reducible assumption) ?_)
   | split)

theorem State.setFeed_kept {kx : Bool} {k0 : State} (n : Nat) (x : FeedSt) (s : State) (hs : k0.Kept kx s) :
    k0.Kept kx (State.setFeed n x s) := by
  delta State.setFeed; beta_reduce
  repeat' (first
   | with_reducible assumption
   | fail_if_no_progress (with_reducible refine State.Kept.lit ?_ rfl rfl rfl))

theorem State.feedShow_kept {kx : Bool} {k0 : State} (n : Nat) (s : State) (hs : k0.Kept kx s) :
    k0.Kept kx (State.feedShow n s) := by
  delta State.feedShow; beta_reduce
  repeat' (first
   | with_reducible assumption
   | (extract_lets -merge -underBinder +onlyGivenNames ky; first | (refine State.Kept.cut ‹State.Kept _ _ _› (t := ky) ?_ ?_; subst ky; rotate_left; intro hx; clear_value ky) | clear_value ky)
   | with_reducible apply State.bump_kept
   | with_reducible apply State.putBit_kept
   | with_reducible apply State.setBit_kept
   | with_reducible apply State.setFeed_kept
   | with_reducible apply State.wr_kept
   | split)

theorem State.feedTide_kept {kx : Bool} {k0 : State} (n : Nat) (s : State) (hs : k0.Kept kx s) :
    k0.Kept kx (State.feedTide n s) := by
  delta State.feedTide; beta_reduce
  repeat' (first
   | with_reducible assumption
   | (extract_lets -merge -underBinder +onlyGivenNames ky; clear_value ky)
   | with_reducible apply State.bump_kept
   | with_reducible apply State.setFeed_kept
   | split)

theorem State.feederPacket_kept {kx : Bool} {k0 : State} (n : Nat) (bytes sync : List Nat) (nextSync : Bool) (s : State) (hs : k0.Kept kx s) :
    k0.Kept kx (State.feederPacket n bytes sync nextSync s) := by
  delta State.feederPacket; beta_reduce
  repeat' (first
   | with_reducible assumption
   | (extract_lets -merge -underBinder +onlyGivenNames ky; first | (refine State.Kept.cut ‹State.Kept _ _ _› (t := ky) ?_ ?_; subst ky; rotate_left; intro hx; clear_value ky) | clear_value ky)
   | with_reducible apply State.bump_kept
   | with_reducible apply State.clrBit_kept
   | with_reducible apply State.feedShow_kept
   | with_reducible apply State.setBit_kept
   | with_reducible apply State.setFeed_kept
   | fail_if_no_progress (with_reducible refine State.Kept.lit ?_ rfl rfl rfl)
   | intro hx
   | (refine State.Kept.pair (by with_reducible assumption) ?_)
   | (refine State.Kept.triple (by with_reducible assumption) ?_)
   | split)

theorem State.feedBufs_kept {kx : Bool} {k0 : State} (c0 : List (Nat × Nat)) (s : State) (hs : k0.Kept kx s) :
    k0.Kept kx (State.feedBufs c0 s).2 := by
  induction c0 generalizing  s with
  | nil =>
    unfold State.feedBufs
    repeat' (first
     | with_reducible assumption)
  | cons a l ih =>
    unfold State.feedBufs
    repeat' (first
     | with_reducible assumption
     | (extract_lets -merge -underBinder +onlyGivenNames ky; refine State.Kept.cut2 ‹State.Kept _ _ _› (t := ky) ?_ ?_; subst ky; rotate_left; intro hx; clear_value ky)
     | with_reducible apply ih
     | with_reducible apply State.bsAlloc_kept
     | with_reducible apply State.giveBack_kept
     | split)

theorem State.demuxRead_kept {kx : Bool} {k0 : State} (n : Nat) (s : State) (hs : k0.Kept kx s) :
    k0.Kept kx (State.demuxRead n s) := by
  delta State.demuxRead; beta_reduce
  repeat' (first
   | with_reducible assumption
   | (extract_lets -merge -underBinder +onlyGivenNames ky; first | (refine State.Kept.cut ‹State.Kept _ _ _› (t := ky) ?_ ?_; subst ky; rotate_left; intro hx; clear_value ky) | (refine State.Kept.cut2 ‹State.Kept _ _ _› (t := ky) ?_ ?_; subst ky; rotate_left; intro hx; clear_value ky) | clear_value ky)
   | with_reducible apply State.each_kept
   | with_reducible apply State.bump_kept
   | with_reducible apply State.feedBufs_kept
   | with_reducible apply State.feedShow_kept
   | with_reducible apply State.pesPacket_kept
   | with_reducible apply State.setFeed_kept
   | fail_if_no_progress (with_reducible refine State.Kept.lit ?_ rfl rfl rfl)
   | intro hx
   | (refine State.Kept.pair (by with_reducible assumption) ?_)
   | (refine State.Kept.triple (by with_reducible assumption) ?_)
   | split)

theorem State.feedData_kept {kx : Bool} {k0 : State} (n : Nat) (s : State) (hs : k0.Kept kx s) :
    k0.Kept kx (State.feedData n s).2 := by
  delta State.feedData; beta_reduce
  repeat' (first
   | with_reducible assumption
   | (extract_lets -merge -underBinder +onlyGivenNames ky; clear_value ky)
   | with_reducible apply State.feedShow_kept
   | with_reducible apply State.setBit_kept
   | with_reducible apply State.setFeed_kept
   | fail_if_no_progress (with_reducible refine State.Kept.lit ?_ rfl rfl rfl)
   | intro hx
   | (refine State.Kept.pair (by with_reducible assumption) ?_)
   | (refine State.Kept.triple (by with_reducible assumption) ?_)
   | split)

theorem State.feederSilent_kept {kx : Bool} {k0 : State} (n : Nat) (s : State) (hs : k0.Kept kx s) :
    k0.Kept kx (State.feederSilent n s) := by
  delta State.feederSilent; beta_reduce
  repeat' (first
   | with_reducible assumption
   | with_reducible apply State.setBit_kept
   | split)

theorem State.holdShort_kept {kx : Bool} {k0 : State} (n : Nat) (s : State) (hs : k0.Kept kx s) :
    k0.Kept kx (State.holdShort n s) := by
  delta State.holdShort; beta_reduce
  repeat' (first
   | with_reducible assumption
   | (extract_lets -merge -underBinder +onlyGivenNames ky; first | (refine State.Kept.cut ‹State.Kept _ _ _› (t := ky) ?_ ?_; subst ky; rotate_left; intro hx; clear_value ky) | clear_value ky)
   | with_reducible apply State.report_kept
   | with_reducible apply State.setBit_kept
   | with_reducible apply State.setFeed_kept
   | split)

theorem State.pinTest_kept {kx : Bool} {k0 : State} (n pins : Nat) (s : State) (hs : k0.Kept kx s) :
    k0.Kept kx (State.pinTest n pins s) := by
  delta State.pinTest; beta_reduce
  repeat' (first
   | with_reducible assumption
   | (extract_lets -merge -underBinder +onlyGivenNames ky; first | (refine State.Kept.cut ‹State.Kept _ _ _› (t := ky) ?_ ?_; subst ky; rotate_left; intro hx; clear_value ky) | clear_value ky)
   | with_reducible apply State.clrBit_kept
   | with_reducible apply State.report_kept
   | with_reducible apply State.setBit_kept
   | with_reducible apply State.wrFld_kept
   | split)

end Sys2Proof.Machine
end

