-- ==== Sys2Proof/Laws/KeptPower.lean ====
section
/-! SUPPORT. What the operations of Machine/Power.lean keep (Laws/Kept.lean), one lemma each. -/

namespace Sys2Proof.Machine

theorem State.setInput_kept {kx : Bool} {k0 : State} (b : Bool) (x : InputSt) (s : State) (hs : k0.Kept kx s) :
    k0.Kept kx (State.setInput b x s) := by
  delta State.setInput; beta_reduce
  repeat' (first
   | with_reducible assumption
   | (extract_lets -merge -underBinder +onlyGivenNames ky; clear_value ky)
   | fail_if_no_progress (with_reducible refine State.Kept.lit ?_ rfl rfl rfl))

theorem State.abandonFlash_kept {kx : Bool} {k0 : State} (s : State) (hs : k0.Kept kx s) :
    k0.Kept kx (State.abandonFlash s) := by
  delta State.abandonFlash; beta_reduce
  repeat' (first
   | with_reducible assumption
   | with_reducible apply flashWriteTimeout_kept)

theorem State.inputTo_kept {kx : Bool} {k0 : State} (b : Bool) (mv : Int) (st : InState) (s : State) (hs : k0.Kept kx s) :
    k0.Kept kx (State.inputTo b mv st s) := by
  delta State.inputTo; beta_reduce
  repeat' (first
   | with_reducible assumption
   | (extract_lets -merge -underBinder +onlyGivenNames ky; first | (refine State.Kept.cut ‹State.Kept _ _ _› (t := ky) ?_ ?_; subst ky; rotate_left; intro hx; clear_value ky) | clear_value ky)
   | with_reducible apply State.whenB_kept
   | with_reducible apply State.abandonFlash_kept
   | with_reducible apply State.inc_kept
   | with_reducible apply State.report_kept
   | with_reducible apply State.setBit_kept
   | with_reducible apply State.setInput_kept
   | with_reducible apply State.wr_kept
   | with_reducible apply State.wrFld_kept
   | fail_if_no_progress (with_reducible refine State.Kept.lit ?_ rfl rfl rfl)
   | split)

theorem State.inputChange_kept {kx : Bool} {k0 : State} (b : Bool) (mv : Int) (s : State) (hs : k0.Kept kx s) :
    k0.Kept kx (State.inputChange b mv s) := by
  delta State.inputChange; beta_reduce
  repeat' (first
   | with_reducible assumption
   | (extract_lets -merge -underBinder +onlyGivenNames ky; clear_value ky)
   | with_reducible apply State.inputTo_kept)

theorem State.countTrip_kept {kx : Bool} {k0 : State} (b : Bool) (s : State) (hs : k0.Kept kx s) :
    k0.Kept kx (State.countTrip b s) := by
  delta State.countTrip; beta_reduce
  repeat' (first
   | with_reducible assumption
   | with_reducible apply State.wrFld_kept)

theorem State.efuseTrip_kept {kx : Bool} {k0 : State} (b : Bool) (s : State) (hs : k0.Kept kx s) :
    k0.Kept kx (State.efuseTrip b s) := by
  delta State.efuseTrip; beta_reduce
  repeat' (first
   | with_reducible assumption
   | with_reducible apply State.countTrip_kept
   | with_reducible apply State.inputTo_kept
   | split)

theorem State.efuseRetry_kept {kx : Bool} {k0 : State} (b fault : Bool) (mv : Int) (s : State) (hs : k0.Kept kx s) :
    k0.Kept kx (State.efuseRetry b fault mv s) := by
  delta State.efuseRetry; beta_reduce
  repeat' (first
   | with_reducible assumption
   | with_reducible apply State.countTrip_kept
   | with_reducible apply State.inputTo_kept
   | split)

theorem State.singleFeed_kept {kx : Bool} {k0 : State} (b : Bool) (s : State) (hs : k0.Kept kx s) :
    k0.Kept kx (State.singleFeed b s) := by
  delta State.singleFeed; beta_reduce
  repeat' (first
   | with_reducible assumption
   | (extract_lets -merge -underBinder +onlyGivenNames ky; clear_value ky)
   | with_reducible apply State.report_kept
   | with_reducible apply State.setInput_kept
   | split)

theorem State.singleFeedClears_kept {kx : Bool} {k0 : State} (b : Bool) (s : State) (hs : k0.Kept kx s) :
    k0.Kept kx (State.singleFeedClears b s) := by
  delta State.singleFeedClears; beta_reduce
  repeat' (first
   | with_reducible assumption
   | (extract_lets -merge -underBinder +onlyGivenNames ky; clear_value ky)
   | with_reducible apply State.setInput_kept
   | split)

theorem State.powerSample_kept {kx : Bool} {k0 : State} (r : PowerReading) (s : State) (hs : k0.Kept kx s) :
    k0.Kept kx (State.powerSample r s) := by
  delta State.powerSample; beta_reduce
  repeat' (first
   | with_reducible assumption
   | (extract_lets -merge -underBinder +onlyGivenNames ky; first | (refine State.Kept.cut ‹State.Kept _ _ _› (t := ky) ?_ ?_; subst ky; rotate_left; intro hx; clear_value ky) | clear_value ky)
   | with_reducible apply State.bump_kept
   | with_reducible apply State.putBit_kept
   | with_reducible apply State.setInput_kept
   | with_reducible apply State.wr_kept
   | fail_if_no_progress (with_reducible refine State.Kept.lit ?_ rfl rfl rfl))

theorem State.efficiency_kept {kx : Bool} {k0 : State} (eff fixed : Nat) (s : State) (hs : k0.Kept kx s) :
    k0.Kept kx (State.efficiency eff fixed s) := by
  delta State.efficiency; beta_reduce
  repeat' (first
   | with_reducible assumption
   | with_reducible apply State.wr_kept)

theorem State.temperature_kept {kx : Bool} {k0 : State} (bases dies : List Int) (ports : List (Nat × Int)) (s : State) (hs : k0.Kept kx s) :
    k0.Kept kx (State.temperature bases dies ports s) := by
  delta State.temperature; beta_reduce
  repeat' (first
   | with_reducible assumption
   | (extract_lets -merge -underBinder +onlyGivenNames ky; first | (refine State.Kept.cut ‹State.Kept _ _ _› (t := ky) ?_ ?_; subst ky; rotate_left; intro hx; clear_value ky) | clear_value ky)
   | with_reducible apply State.each_kept
   | with_reducible apply State.whenB_kept
   | with_reducible apply State.report_kept
   | with_reducible apply State.setBit_kept
   | with_reducible apply State.setPort_kept
   | with_reducible apply State.wr_kept
   | fail_if_no_progress (with_reducible refine State.Kept.lit ?_ rfl rfl rfl)
   | intro hx
   | split)

theorem State.powerWindow_kept {kx : Bool} {k0 : State} (mw : Nat) (s : State) (hs : k0.Kept kx s) :
    k0.Kept kx (State.powerWindow mw s) := by
  delta State.powerWindow; beta_reduce
  repeat' (first
   | with_reducible assumption
   | (extract_lets -merge -underBinder +onlyGivenNames ky; first | (refine State.Kept.cut ‹State.Kept _ _ _› (t := ky) ?_ ?_; subst ky; rotate_left; intro hx; clear_value ky) | clear_value ky)
   | with_reducible apply State.whenB_kept
   | with_reducible apply State.clrBit_kept
   | with_reducible apply State.report_kept
   | with_reducible apply State.setBit_kept
   | fail_if_no_progress (with_reducible refine State.Kept.lit ?_ rfl rfl rfl)
   | split)

theorem State.setCeiling_kept {kx : Bool} {k0 : State} (s : State) (hs : k0.Kept kx s) :
    k0.Kept kx (State.setCeiling s) := by
  delta State.setCeiling; beta_reduce
  repeat' (first
   | with_reducible assumption
   | (extract_lets -merge -underBinder +onlyGivenNames ky; clear_value ky)
   | with_reducible apply State.whenB_kept
   | with_reducible apply State.setBit_kept
   | with_reducible apply State.wr_kept)

theorem State.refillAtTide_kept {kx : Bool} {k0 : State} (s : State) (hs : k0.Kept kx s) :
    k0.Kept kx (State.refillAtTide s) := by
  delta State.refillAtTide; beta_reduce
  repeat' (first
   | with_reducible assumption
   | (extract_lets -merge -underBinder +onlyGivenNames ky; clear_value ky)
   | with_reducible apply State.bucketAdd_kept
   | with_reducible apply State.wr_kept)

theorem State.setGov_kept {kx : Bool} {k0 : State} (g : Nat) (short : Bool) (s : State) (hs : k0.Kept kx s) :
    k0.Kept kx (State.setGov g short s) := by
  delta State.setGov; beta_reduce
  repeat' (first
   | with_reducible assumption
   | (extract_lets -merge -underBinder +onlyGivenNames ky; first | (refine State.Kept.cut ‹State.Kept _ _ _› (t := ky) ?_ ?_; subst ky; rotate_left; intro hx; clear_value ky) | clear_value ky)
   | with_reducible apply State.whenB_kept
   | with_reducible apply State.setBit_kept
   | with_reducible apply State.wr_kept
   | fail_if_no_progress (with_reducible refine State.Kept.lit ?_ rfl rfl rfl))

theorem State.governor_kept {kx : Bool} {k0 : State} (s : State) (hs : k0.Kept kx s) :
    k0.Kept kx (State.governor s) := by
  delta State.governor; beta_reduce
  repeat' (first
   | with_reducible assumption
   | (extract_lets -merge -underBinder +onlyGivenNames ky; first | (refine State.Kept.cut ‹State.Kept _ _ _› (t := ky) ?_ ?_; subst ky; rotate_left; intro hx; clear_value ky) | clear_value ky)
   | with_reducible apply State.whenB_kept
   | with_reducible apply State.inc_kept
   | with_reducible apply State.setGov_kept
   | with_reducible apply State.wr_kept
   | fail_if_no_progress (with_reducible refine State.Kept.lit ?_ rfl rfl rfl)
   | split)

theorem State.governorRecheck_kept {kx : Bool} {k0 : State} (s : State) (hs : k0.Kept kx s) :
    k0.Kept kx (State.governorRecheck s) := by
  delta State.governorRecheck; beta_reduce
  repeat' (first
   | with_reducible assumption
   | (extract_lets -merge -underBinder +onlyGivenNames ky; clear_value ky)
   | with_reducible apply State.setGov_kept
   | split)

theorem State.coefReset_kept {kx : Bool} {k0 : State} (agent v : Nat) (s : State) (hs : k0.Kept kx s) :
    k0.Kept kx (State.coefReset agent v s) := by
  delta State.coefReset; beta_reduce
  repeat' (first
   | with_reducible assumption
   | (extract_lets -merge -underBinder +onlyGivenNames ky; clear_value ky)
   | with_reducible apply State.usageReg_kept
   | fail_if_no_progress (with_reducible refine State.Kept.lit ?_ rfl rfl rfl)
   | split)

theorem State.clockGate_kept {kx : Bool} {k0 : State} (u : Nat) (s : State) (hs : k0.Kept kx s) :
    k0.Kept kx (State.clockGate u s) := by
  delta State.clockGate; beta_reduce
  repeat' (first
   | with_reducible assumption
   | (extract_lets -merge -underBinder +onlyGivenNames ky; clear_value ky)
   | with_reducible apply State.setUnit_kept
   | split)

theorem State.unitWake_kept {kx : Bool} {k0 : State} (u : Nat) (s : State) (hs : k0.Kept kx s) :
    k0.Kept kx (State.unitWake u s) := by
  delta State.unitWake; beta_reduce
  repeat' (first
   | with_reducible assumption
   | with_reducible apply State.dispatch_kept
   | with_reducible apply State.setUnitF_kept
   | split)

theorem State.deepWake_kept {kx : Bool} {k0 : State} (u : Nat) (s : State) (hs : k0.Kept kx s) :
    k0.Kept kx (State.deepWake u s) := by
  delta State.deepWake; beta_reduce
  repeat' (first
   | with_reducible assumption
   | with_reducible apply State.unitWake_kept
   | split)

theorem State.deepGate_kept {kx : Bool} {k0 : State} (s : State) (hs : k0.Kept kx s) :
    k0.Kept kx (State.deepGate s) := by
  delta State.deepGate; beta_reduce
  repeat' (first
   | with_reducible assumption
   | (extract_lets -merge -underBinder +onlyGivenNames ky; clear_value ky)
   | with_reducible apply State.each_kept
   | with_reducible apply State.setUnitF_kept
   | with_reducible apply State.spadGate_kept
   | intro hx
   | split)

theorem State.unitPwrWrite_kept {kx : Bool} {k0 : State} (u v : Nat) (s : State) (hs : k0.Kept kx s) :
    k0.Kept kx (State.unitPwrWrite u v s) := by
  delta State.unitPwrWrite; beta_reduce
  repeat' (first
   | with_reducible assumption
   | (extract_lets -merge -underBinder +onlyGivenNames ky; first | (refine State.Kept.cut ‹State.Kept _ _ _› (t := ky) ?_ ?_; subst ky; rotate_left; intro hx; clear_value ky) | clear_value ky)
   | with_reducible apply State.dispatch_kept
   | with_reducible apply State.setEng_kept
   | with_reducible apply State.setUnitF_kept
   | with_reducible apply State.wr_kept
   | split)

theorem State.bankRetain_kept {kx : Bool} {k0 : State} (g i : Nat) (s : State) (hs : k0.Kept kx s) :
    k0.Kept kx (State.bankRetain g i s) := by
  delta State.bankRetain; beta_reduce
  repeat' (first
   | with_reducible assumption
   | with_reducible apply State.setBankSt_kept
   | split)

theorem State.bankAccess_kept {kx : Bool} {k0 : State} (g off : Nat) (s : State) (hs : k0.Kept kx s) :
    k0.Kept kx (State.bankAccess g off s) := by
  delta State.bankAccess; beta_reduce
  repeat' (first
   | with_reducible assumption
   | with_reducible apply State.setBankSt_kept
   | split)

theorem State.spadCtrlWrite_kept {kx : Bool} {k0 : State} (g v : Nat) (s : State) (hs : k0.Kept kx s) :
    k0.Kept kx (State.spadCtrlWrite g v s).2 := by
  delta State.spadCtrlWrite; beta_reduce
  repeat' (first
   | with_reducible assumption
   | (extract_lets -merge -underBinder +onlyGivenNames ky; refine State.Kept.cut ‹State.Kept _ _ _› (t := ky) ?_ ?_; subst ky; rotate_left; intro hx; clear_value ky)
   | with_reducible apply State.each_kept
   | with_reducible apply State.setBankSt_kept
   | with_reducible apply State.wr_kept
   | intro hx
   | split)

end Sys2Proof.Machine
end

