-- ==== Sys2Proof/Laws/KeptMemSys.lean ====
section
/-! SUPPORT. What the operations of Machine/MemSys.lean keep (Laws/Kept.lean), one lemma each. -/

namespace Sys2Proof.Machine

theorem State.correct_kept {kx : Bool} {k0 : State} (p : Nat) (s : State) (hs : k0.Kept kx s) :
    k0.Kept kx (State.correct p s) := by
  delta State.correct; beta_reduce
  repeat' (first
   | with_reducible assumption
   | (extract_lets -merge -underBinder +onlyGivenNames ky; clear_value ky)
   | with_reducible apply State.setPort_kept
   | split)

theorem State.trainPorts_kept {kx : Bool} {k0 : State} (failed : List Nat) (vals : List (Nat × Nat)) (s : State) (hs : k0.Kept kx s) :
    k0.Kept kx (State.trainPorts failed vals s) := by
  delta State.trainPorts; beta_reduce
  repeat' (first
   | with_reducible assumption
   | (extract_lets -merge -underBinder +onlyGivenNames ky; first | (refine State.Kept.cut ‹State.Kept _ _ _› (t := ky) ?_ ?_; subst ky; rotate_left; intro hx; clear_value ky) | clear_value ky)
   | with_reducible apply State.each_kept
   | with_reducible apply State.whenB_kept
   | with_reducible apply State.memConds_kept
   | with_reducible apply State.report_kept
   | with_reducible apply State.setBit_kept
   | with_reducible apply State.setPort_kept
   | fail_if_no_progress (with_reducible refine State.Kept.lit ?_ rfl rfl rfl)
   | intro hx
   | split)

theorem State.setDebt_kept {kx : Bool} {k0 : State} (p k v : Nat) (s : State) (hs : k0.Kept kx s) :
    k0.Kept kx (State.setDebt p k v s) := by
  delta State.setDebt; beta_reduce
  repeat' (first
   | with_reducible assumption
   | (extract_lets -merge -underBinder +onlyGivenNames ky; clear_value ky)
   | with_reducible apply State.setPort_kept)

theorem State.refreshDue_kept {kx : Bool} {k0 : State} (p c b : Nat) (queued : Bool) (s : State) (hs : k0.Kept kx s) :
    k0.Kept kx (State.refreshDue p c b queued s) := by
  delta State.refreshDue; beta_reduce
  repeat' (first
   | with_reducible assumption
   | (extract_lets -merge -underBinder +onlyGivenNames ky; first | (refine State.Kept.cut ‹State.Kept _ _ _› (t := ky) ?_ ?_; subst ky; rotate_left; intro hx; clear_value ky) | clear_value ky)
   | with_reducible apply State.each_kept
   | with_reducible apply State.bump_kept
   | with_reducible apply State.selfRefresh_kept
   | with_reducible apply State.setBit_kept
   | with_reducible apply State.setDebt_kept
   | fail_if_no_progress (with_reducible refine State.Kept.lit ?_ rfl rfl rfl)
   | intro hx
   | (refine State.Kept.pair (by with_reducible assumption) ?_)
   | (refine State.Kept.triple (by with_reducible assumption) ?_)
   | split)

theorem State.selfRefresh_kept {kx : Bool} {k0 : State} (p : Nat) (s : State) (hs : k0.Kept kx s) :
    k0.Kept kx (State.selfRefresh p s) := by
  delta State.selfRefresh; beta_reduce
  repeat' (first
   | with_reducible assumption
   | (extract_lets -merge -underBinder +onlyGivenNames ky; clear_value ky)
   | with_reducible apply State.setPort_kept
   | split)

theorem State.edcFail_kept {kx : Bool} {k0 : State} (agent addr : Nat) (isWrite : Bool) (fails : Nat) (toDest : Bool) (s : State) (hs : k0.Kept kx s) :
    k0.Kept kx (State.edcFail agent addr isWrite fails toDest s) := by
  delta State.edcFail; beta_reduce
  repeat' (first
   | with_reducible assumption
   | (extract_lets -merge -underBinder +onlyGivenNames ky; clear_value ky)
   | with_reducible apply State.whenB_kept
   | with_reducible apply State.bump_kept
   | with_reducible apply State.dstFails_kept
   | with_reducible apply State.inc_kept
   | with_reducible apply State.memErr_kept
   | with_reducible apply State.poisonAt_kept
   | with_reducible apply State.report_kept
   | with_reducible apply State.setBit_kept
   | with_reducible apply State.setUnitF_kept
   | intro hx
   | split
   | dsimp only)

theorem State.predict_kept {kx : Bool} {k0 : State} (p reissues : Nat) (s : State) (hs : k0.Kept kx s) :
    k0.Kept kx (State.predict p reissues s) := by
  delta State.predict; beta_reduce
  repeat' (first
   | with_reducible assumption
   | (extract_lets -merge -underBinder +onlyGivenNames ky; clear_value ky)
   | with_reducible apply State.retirePort_kept
   | with_reducible apply State.setBit_kept
   | fail_if_no_progress (with_reducible refine State.Kept.lit ?_ rfl rfl rfl)
   | intro hx
   | (refine State.Kept.pair (by with_reducible assumption) ?_)
   | (refine State.Kept.triple (by with_reducible assumption) ?_)
   | split)

theorem State.upset_kept {kx : Bool} {k0 : State} (errs : List (Nat × Nat)) (s : State) (hs : k0.Kept kx s) :
    k0.Kept kx (State.upset errs s) := by
  delta State.upset; beta_reduce
  repeat' (first
   | with_reducible assumption
   | (extract_lets -merge -underBinder +onlyGivenNames ky; clear_value ky)
   | with_reducible apply State.Kept.foldl
   | with_reducible apply State.Kept.foldl2
   | with_reducible apply State.Kept.foldl3
   | fail_if_no_progress (with_reducible refine State.Kept.lit ?_ rfl rfl rfl))

theorem State.scrubRead_kept {kx : Bool} {k0 : State} (errs : List (Nat × Nat)) (s : State) (hs : k0.Kept kx s) :
    k0.Kept kx (State.scrubRead errs s) := by
  delta State.scrubRead; beta_reduce
  repeat' (first
   | with_reducible assumption
   | (extract_lets -merge -underBinder +onlyGivenNames ky; first | (refine State.Kept.cut ‹State.Kept _ _ _› (t := ky) ?_ ?_; subst ky; rotate_left; intro hx; clear_value ky) | clear_value ky)
   | with_reducible apply State.eccRead_kept
   | with_reducible apply State.upset_kept
   | fail_if_no_progress (with_reducible refine State.Kept.lit ?_ rfl rfl rfl)
   | intro hx
   | (refine State.Kept.pair (by with_reducible assumption) ?_)
   | (refine State.Kept.triple (by with_reducible assumption) ?_)
   | split)

theorem State.migBegin_kept {kx : Bool} {k0 : State} (s : State) (hs : k0.Kept kx s) :
    k0.Kept kx (State.migBegin s) := by
  delta State.migBegin; beta_reduce
  repeat' (first
   | with_reducible assumption
   | (extract_lets -merge -underBinder +onlyGivenNames ky; first | (refine State.Kept.cut ‹State.Kept _ _ _› (t := ky) ?_ ?_; subst ky; rotate_left; intro hx; clear_value ky) | clear_value ky)
   | with_reducible apply State.setBit_kept
   | with_reducible apply State.setPort_kept
   | fail_if_no_progress (with_reducible refine State.Kept.lit ?_ rfl rfl rfl)
   | intro hx
   | (refine State.Kept.pair (by with_reducible assumption) ?_)
   | (refine State.Kept.triple (by with_reducible assumption) ?_)
   | split)

theorem State.memTide_kept {kx : Bool} {k0 : State} (s : State) (hs : k0.Kept kx s) :
    k0.Kept kx (State.memTide s) := by
  delta State.memTide; beta_reduce
  repeat' (first
   | with_reducible assumption
   | (extract_lets -merge -underBinder +onlyGivenNames ky; first | (refine State.Kept.cut ‹State.Kept _ _ _› (t := ky) ?_ ?_; subst ky; rotate_left; intro hx; clear_value ky) | clear_value ky)
   | with_reducible apply State.each_kept
   | with_reducible apply State.correct_kept
   | with_reducible apply State.memConds_kept
   | with_reducible apply State.migBegin_kept
   | with_reducible apply State.poisonAt_kept
   | with_reducible apply State.promote_kept
   | with_reducible apply State.setBit_kept
   | with_reducible apply State.setPort_kept
   | fail_if_no_progress (with_reducible refine State.Kept.lit ?_ rfl rfl rfl)
   | intro hx
   | split)

theorem State.copyDone_kept {kx : Bool} {k0 : State} (s : State) (hs : k0.Kept kx s) :
    k0.Kept kx (State.copyDone s) := by
  delta State.copyDone; beta_reduce
  repeat' (first
   | with_reducible assumption
   | (extract_lets -merge -underBinder +onlyGivenNames ky; clear_value ky)
   | fail_if_no_progress (with_reducible refine State.Kept.lit ?_ rfl rfl rfl)
   | split)

theorem State.migEnd_kept {kx : Bool} {k0 : State} (s : State) (hs : k0.Kept kx s) :
    k0.Kept kx (State.migEnd s) := by
  delta State.migEnd; beta_reduce
  repeat' (first
   | with_reducible assumption
   | (extract_lets -merge -underBinder +onlyGivenNames ky; clear_value ky)
   | with_reducible apply State.inc_kept
   | with_reducible apply State.setBit_kept
   | fail_if_no_progress (with_reducible refine State.Kept.lit ?_ rfl rfl rfl))

theorem State.drainDone_kept {kx : Bool} {k0 : State} (s : State) (hs : k0.Kept kx s) :
    k0.Kept kx (State.drainDone s) := by
  delta State.drainDone; beta_reduce
  repeat' (first
   | with_reducible assumption
   | (extract_lets -merge -underBinder +onlyGivenNames ky; first | (refine State.Kept.cut ‹State.Kept _ _ _› (t := ky) ?_ ?_; subst ky; rotate_left; intro hx; clear_value ky) | clear_value ky)
   | with_reducible apply State.fencePort_kept
   | with_reducible apply State.migEnd_kept
   | with_reducible apply State.promote_kept
   | with_reducible apply State.setPort_kept
   | fail_if_no_progress (with_reducible refine State.Kept.lit ?_ rfl rfl rfl)
   | split)

theorem State.sessionDone_kept {kx : Bool} {k0 : State} (p : Nat) (vals : List (Nat × Nat)) (s : State) (hs : k0.Kept kx s) :
    k0.Kept kx (State.sessionDone p vals s) := by
  delta State.sessionDone; beta_reduce
  repeat' (first
   | with_reducible assumption
   | (extract_lets -merge -underBinder +onlyGivenNames ky; first | (refine State.Kept.cut ‹State.Kept _ _ _› (t := ky) ?_ ?_; subst ky; rotate_left; intro hx; clear_value ky) | clear_value ky)
   | with_reducible apply State.correct_kept
   | with_reducible apply State.inc_kept
   | with_reducible apply State.memConds_kept
   | with_reducible apply State.migEnd_kept
   | with_reducible apply State.setBit_kept
   | with_reducible apply State.setPort_kept
   | split)

theorem State.migForce_kept {kx : Bool} {k0 : State} (agent v : Nat) (s : State) (hs : k0.Kept kx s) :
    k0.Kept kx (State.migForce agent v s) := by
  delta State.migForce; beta_reduce
  repeat' (first
   | with_reducible assumption
   | with_reducible apply State.usageReg_kept
   | fail_if_no_progress (with_reducible refine State.Kept.lit ?_ rfl rfl rfl)
   | intro hx
   | (refine State.Kept.pair (by with_reducible assumption) ?_)
   | (refine State.Kept.triple (by with_reducible assumption) ?_)
   | split)

theorem State.portLost_kept {kx : Bool} {k0 : State} (p : Nat) (s : State) (hs : k0.Kept kx s) :
    k0.Kept kx (State.portLost p s) := by
  delta State.portLost; beta_reduce
  repeat' (first
   | with_reducible assumption
   | (extract_lets -merge -underBinder +onlyGivenNames ky; first | (refine State.Kept.cut ‹State.Kept _ _ _› (t := ky) ?_ ?_; subst ky; rotate_left; intro hx; clear_value ky) | clear_value ky)
   | with_reducible apply State.whenB_kept
   | with_reducible apply State.dstFails_kept
   | with_reducible apply State.fencePort_kept
   | with_reducible apply State.promote_kept
   | with_reducible apply State.report_kept
   | with_reducible apply State.setBit_kept
   | with_reducible apply State.setPort_kept
   | fail_if_no_progress (with_reducible refine State.Kept.lit ?_ rfl rfl rfl)
   | split)

theorem State.inplaceStep_kept {kx : Bool} {k0 : State} (p : Nat) (last : Bool) (vals : List (Nat × Nat)) (s : State) (hs : k0.Kept kx s) :
    k0.Kept kx (State.inplaceStep p last vals s) := by
  delta State.inplaceStep; beta_reduce
  repeat' (first
   | with_reducible assumption
   | (extract_lets -merge -underBinder +onlyGivenNames ky; first | (refine State.Kept.cut ‹State.Kept _ _ _› (t := ky) ?_ ?_; subst ky; rotate_left; intro hx; clear_value ky) | clear_value ky)
   | with_reducible apply State.whenB_kept
   | with_reducible apply State.bump_kept
   | with_reducible apply State.inc_kept
   | with_reducible apply State.memConds_kept
   | with_reducible apply State.setBit_kept
   | with_reducible apply State.setPort_kept
   | split)

end Sys2Proof.Machine
end

