-- ==== Sys2Proof/Laws/KeptHostFn.lean ====
section
/-! SUPPORT. What the operations of Machine/HostFn.lean keep (Laws/Kept.lean), one lemma each. -/

namespace Sys2Proof.Machine

theorem State.bar2Base0_kept {kx : Bool} {k0 : State} (s : State) (hs : k0.Kept kx s) :
    k0.Kept kx (State.bar2Base0 s) := by
  delta State.bar2Base0; beta_reduce
  repeat' (first
   | with_reducible assumption
   | with_reducible apply State.committed_kept
   | with_reducible apply State.wr40_kept)

theorem State.configReset_kept {kx : Bool} {k0 : State} (s : State) (hs : k0.Kept kx s) :
    k0.Kept kx (State.configReset s) := by
  delta State.configReset; beta_reduce
  repeat' (first
   | with_reducible assumption
   | (extract_lets -merge -underBinder +onlyGivenNames ky; first | (refine State.Kept.cut ‹State.Kept _ _ _› (t := ky) ?_ ?_; subst ky; rotate_left; intro hx; clear_value ky) | clear_value ky)
   | with_reducible apply State.each_kept
   | with_reducible apply State.bar2Base0_kept
   | with_reducible apply State.wr_kept
   | fail_if_no_progress (with_reducible refine State.Kept.lit ?_ rfl rfl rfl)
   | intro hx
   | (refine State.Kept.pair (by with_reducible assumption) ?_)
   | (refine State.Kept.triple (by with_reducible assumption) ?_)
   | split)

theorem State.linkDown_kept {kx : Bool} {k0 : State} (s : State) (hs : k0.Kept kx s) :
    k0.Kept kx (State.linkDown s) := by
  delta State.linkDown; beta_reduce
  repeat' (first
   | with_reducible assumption
   | (extract_lets -merge -underBinder +onlyGivenNames ky; clear_value ky)
   | with_reducible apply State.setBit_kept
   | fail_if_no_progress (with_reducible refine State.Kept.lit ?_ rfl rfl rfl)
   | split)

theorem State.perst_kept {kx : Bool} {k0 : State} (asserted : Bool) (s : State) (hs : k0.Kept kx s) :
    k0.Kept kx (State.perst asserted s) := by
  delta State.perst; beta_reduce
  repeat' (first
   | with_reducible assumption
   | (extract_lets -merge -underBinder +onlyGivenNames ky; first | (refine State.Kept.cut ‹State.Kept _ _ _› (t := ky) ?_ ?_; subst ky; rotate_left; intro hx; clear_value ky) | clear_value ky)
   | with_reducible apply State.bellHostReset_kept
   | with_reducible apply State.configReset_kept
   | with_reducible apply State.linkDown_kept
   | with_reducible apply State.setBit_kept
   | fail_if_no_progress (with_reducible refine State.Kept.lit ?_ rfl rfl rfl)
   | split)

theorem State.flr_kept {kx : Bool} {k0 : State} (s : State) (hs : k0.Kept kx s) :
    k0.Kept kx (State.flr s) := by
  delta State.flr; beta_reduce
  repeat' (first
   | with_reducible assumption
   | with_reducible apply State.bellHostReset_kept
   | with_reducible apply State.configReset_kept
   | with_reducible apply State.setBit_kept)

theorem State.pcieLink_kept {kx : Bool} {k0 : State} (up : Bool) (rate width : Nat) (s : State) (hs : k0.Kept kx s) :
    k0.Kept kx (State.pcieLink up rate width s) := by
  delta State.pcieLink; beta_reduce
  repeat' (first
   | with_reducible assumption
   | (extract_lets -merge -underBinder +onlyGivenNames ky; first | (refine State.Kept.cut ‹State.Kept _ _ _› (t := ky) ?_ ?_; subst ky; rotate_left; intro hx; clear_value ky) | clear_value ky)
   | with_reducible apply State.linkDown_kept
   | with_reducible apply State.setBit_kept
   | with_reducible apply State.signalHosts_kept
   | fail_if_no_progress (with_reducible refine State.Kept.lit ?_ rfl rfl rfl)
   | split)

theorem State.wakeHost_kept {kx : Bool} {k0 : State} (s : State) (hs : k0.Kept kx s) :
    k0.Kept kx (State.wakeHost s) := by
  delta State.wakeHost; beta_reduce
  repeat' (first
   | with_reducible assumption
   | with_reducible apply State.emit_kept
   | with_reducible apply State.perst_kept
   | fail_if_no_progress (with_reducible refine State.Kept.lit ?_ rfl rfl rfl)
   | intro hx
   | (refine State.Kept.pair (by with_reducible assumption) ?_)
   | (refine State.Kept.triple (by with_reducible assumption) ?_)
   | split)

theorem State.dState_kept {kx : Bool} {k0 : State} (d3 : Bool) (s : State) (hs : k0.Kept kx s) :
    k0.Kept kx (State.dState d3 s) := by
  delta State.dState; beta_reduce
  repeat' (first
   | with_reducible assumption
   | (extract_lets -merge -underBinder +onlyGivenNames ky; first | (refine State.Kept.cut ‹State.Kept _ _ _› (t := ky) ?_ ?_; subst ky; rotate_left; intro hx; clear_value ky) | clear_value ky)
   | with_reducible apply State.setBit_kept
   | with_reducible apply State.signalHosts_kept
   | with_reducible apply State.wakeHost_kept
   | fail_if_no_progress (with_reducible refine State.Kept.lit ?_ rfl rfl rfl)
   | intro hx
   | (refine State.Kept.pair (by with_reducible assumption) ?_)
   | (refine State.Kept.triple (by with_reducible assumption) ?_)
   | split)

theorem State.unmaskAll_kept {kx : Bool} {k0 : State} (s : State) (hs : k0.Kept kx s) :
    k0.Kept kx (State.unmaskAll s) := by
  delta State.unmaskAll; beta_reduce
  repeat' (first
   | with_reducible assumption
   | with_reducible apply State.each_kept
   | with_reducible apply State.msixUnmask_kept)

theorem State.configReq_kept {kx : Bool} {k0 : State} (c : ConfigReq) (s : State) (hs : k0.Kept kx s) :
    k0.Kept kx (State.configReq c s) := by
  delta State.configReq; beta_reduce
  repeat' (first
   | with_reducible assumption
   | (extract_lets -merge -underBinder +onlyGivenNames ky; first | (refine State.Kept.cut ‹State.Kept _ _ _› (t := ky) ?_ ?_; subst ky; rotate_left; intro hx; clear_value ky) | clear_value ky)
   | with_reducible apply State.whenB_kept
   | with_reducible apply State.draw_kept
   | with_reducible apply State.emit_kept
   | with_reducible apply State.signalHosts_kept
   | with_reducible apply State.unmaskAll_kept
   | with_reducible apply State.wakeHost_kept
   | fail_if_no_progress (with_reducible refine State.Kept.lit ?_ rfl rfl rfl)
   | intro hx
   | (refine State.Kept.pair (by with_reducible assumption) ?_)
   | (refine State.Kept.triple (by with_reducible assumption) ?_)
   | split)

theorem State.bar2Resize_kept {kx : Bool} {k0 : State} (k : Nat) (s : State) (hs : k0.Kept kx s) :
    k0.Kept kx (State.bar2Resize k s) := by
  delta State.bar2Resize; beta_reduce
  repeat' (first
   | with_reducible assumption
   | with_reducible apply State.bar2Base0_kept
   | fail_if_no_progress (with_reducible refine State.Kept.lit ?_ rfl rfl rfl)
   | intro hx
   | (refine State.Kept.pair (by with_reducible assumption) ?_)
   | (refine State.Kept.triple (by with_reducible assumption) ?_)
   | split)

theorem State.inRefused_kept {kx : Bool} {k0 : State} (s : State) (hs : k0.Kept kx s) :
    k0.Kept kx (State.inRefused s) := by
  delta State.inRefused; beta_reduce
  repeat' (first
   | with_reducible assumption
   | with_reducible apply State.bump_kept
   | with_reducible apply State.setBit_kept)

theorem State.bar2Write_kept {kx : Bool} {k0 : State} (off : Nat) (bs : List Nat) (poisoned : Bool) (s : State) (hs : k0.Kept kx s) :
    k0.Kept kx (State.bar2Write off bs poisoned s) := by
  delta State.bar2Write; beta_reduce
  repeat' (first
   | with_reducible assumption
   | (extract_lets -merge -underBinder +onlyGivenNames ky; first | (refine State.Kept.cut ‹State.Kept _ _ _› (t := ky) ?_ ?_; subst ky; rotate_left; intro hx; clear_value ky) | (refine State.Kept.cut2 ‹State.Kept _ _ _› (t := ky) ?_ ?_; subst ky; rotate_left; intro hx; clear_value ky) | clear_value ky)
   | with_reducible apply State.classWatch_kept
   | with_reducible apply State.inRefused_kept
   | with_reducible apply State.sndCount_kept
   | with_reducible apply State.usageAddr_kept
   | with_reducible apply State.writeMem_kept
   | fail_if_no_progress (with_reducible refine State.Kept.lit ?_ rfl rfl rfl)
   | intro hx
   | (refine State.Kept.pair (by with_reducible assumption) ?_)
   | (refine State.Kept.triple (by with_reducible assumption) ?_)
   | split)

theorem State.bar2Read_kept {kx : Bool} {k0 : State} (off n : Nat) (s : State) (hs : k0.Kept kx s) :
    k0.Kept kx (State.bar2Read off n s) := by
  delta State.bar2Read; beta_reduce
  repeat' (first
   | with_reducible assumption
   | (extract_lets -merge -underBinder +onlyGivenNames ky; first | (refine State.Kept.cut ‹State.Kept _ _ _› (t := ky) ?_ ?_; subst ky; rotate_left; intro hx; clear_value ky) | (refine State.Kept.cut3 ‹State.Kept _ _ _› (t := ky) ?_ ?_; subst ky; rotate_left; intro hx; clear_value ky) | clear_value ky)
   | with_reducible apply State.emit_kept
   | with_reducible apply State.inRefused_kept
   | with_reducible apply State.readMem_kept
   | with_reducible apply State.sndCount_kept
   | with_reducible apply State.usageAddr_kept
   | fail_if_no_progress (with_reducible refine State.Kept.lit ?_ rfl rfl rfl)
   | intro hx
   | (refine State.Kept.pair (by with_reducible assumption) ?_)
   | (refine State.Kept.triple (by with_reducible assumption) ?_)
   | split)

end Sys2Proof.Machine
end

