-- ==== Sys2Proof/Laws/KeptLighter.lean ====
section
/-! SUPPORT. What the operations of Machine/Lighter.lean keep (Laws/Kept.lean), one lemma each. -/

namespace Sys2Proof.Machine

theorem State.setLt_kept {kx : Bool} {k0 : State} (u : Nat) (x : LtSt) (s : State) (hs : k0.Kept kx s) :
    k0.Kept kx (State.setLt u x s) := by
  delta State.setLt; beta_reduce
  repeat' (first
   | with_reducible assumption
   | fail_if_no_progress (with_reducible refine State.Kept.lit ?_ rfl rfl rfl))

theorem State.modLt_kept {kx : Bool} {k0 : State} (u : Nat) (f : LtSt → LtSt) (s : State) (hs : k0.Kept kx s) :
    k0.Kept kx (State.modLt u f s) := by
  delta State.modLt; beta_reduce
  repeat' (first
   | with_reducible assumption
   | with_reducible apply State.setLt_kept)

theorem State.ltEnd_kept {kx : Bool} {k0 : State} (u : Nat) (s : State) (hs : k0.Kept kx s) :
    k0.Kept kx (State.ltEnd u s) := by
  delta State.ltEnd; beta_reduce
  repeat' (first
   | with_reducible assumption
   | (extract_lets -merge -underBinder +onlyGivenNames ky; first | (refine State.Kept.cut ‹State.Kept _ _ _› (t := ky) ?_ ?_; subst ky; rotate_left; intro hx; clear_value ky) | clear_value ky)
   | with_reducible apply State.endJob_kept
   | with_reducible apply State.setJob_kept
   | with_reducible apply State.setLt_kept
   | fail_if_no_progress (with_reducible refine State.Kept.lit ?_ rfl rfl rfl)
   | intro hx
   | (refine State.Kept.pair (by with_reducible assumption) ?_)
   | (refine State.Kept.triple (by with_reducible assumption) ?_)
   | split)

theorem State.ltHalt_kept {kx : Bool} {k0 : State} (u cause : Nat) (write : Bool) (addr : Nat) (s : State) (hs : k0.Kept kx s) :
    k0.Kept kx (State.ltHalt u cause write addr s) := by
  delta State.ltHalt; beta_reduce
  repeat' (first
   | with_reducible assumption
   | (extract_lets -merge -underBinder +onlyGivenNames ky; first | (refine State.Kept.cut ‹State.Kept _ _ _› (t := ky) ?_ ?_; subst ky; rotate_left; intro hx; clear_value ky) | clear_value ky)
   | with_reducible apply State.whenB_kept
   | with_reducible apply State.bump_kept
   | with_reducible apply State.ltEnd_kept
   | with_reducible apply State.setBit_kept
   | with_reducible apply State.setLt_kept
   | with_reducible apply State.wr_kept
   | with_reducible apply State.wr40_kept
   | split)

theorem State.ltHaltAt_kept {kx : Bool} {k0 : State} (u cause : Nat) (s : State) (hs : k0.Kept kx s) :
    k0.Kept kx (State.ltHaltAt u cause s) := by
  delta State.ltHaltAt; beta_reduce
  repeat' (first
   | with_reducible assumption
   | (extract_lets -merge -underBinder +onlyGivenNames ky; refine State.Kept.cut2 ‹State.Kept _ _ _› (t := ky) ?_ ?_; subst ky; rotate_left; intro hx; clear_value ky)
   | with_reducible apply State.draw_kept
   | with_reducible apply State.ltHalt_kept)

theorem State.ltRetry_kept {kx : Bool} {k0 : State} (u : Nat) (attempt : State → State) (s : State) (hattempt : ∀ a0, k0.Kept kx a0 → k0.Kept kx (attempt a0)) (hs : k0.Kept kx s) :
    k0.Kept kx (State.ltRetry u attempt s) := by
  delta State.ltRetry; beta_reduce
  repeat' (first
   | with_reducible assumption
   | (extract_lets -merge -underBinder +onlyGivenNames ky; clear_value ky)
   | with_reducible apply State.each_kept
   | with_reducible apply State.modLt_kept
   | with_reducible apply State.sndCount_kept
   | with_reducible apply hattempt
   | fail_if_no_progress (with_reducible refine State.Kept.lit ?_ rfl rfl rfl)
   | intro hx)

theorem State.ltReach_kept {kx : Bool} {k0 : State} (u : Nat) (s : State) (hs : k0.Kept kx s) :
    k0.Kept kx (State.ltReach u s) := by
  delta State.ltReach; beta_reduce
  repeat' (first
   | with_reducible assumption
   | (extract_lets -merge -underBinder +onlyGivenNames ky; first | (refine State.Kept.cut ‹State.Kept _ _ _› (t := ky) ?_ ?_; subst ky; rotate_left; intro hx; clear_value ky) | (refine State.Kept.cut3 ‹State.Kept _ _ _› (t := ky) ?_ ?_; subst ky; rotate_left; intro hx; clear_value ky) | clear_value ky)
   | with_reducible apply State.ltHalt_kept
   | with_reducible apply State.ltHaltAt_kept
   | with_reducible apply State.ltRetry_kept
   | with_reducible apply State.readAs_kept
   | fail_if_no_progress (with_reducible refine State.Kept.lit ?_ rfl rfl rfl)
   | intro hx
   | (refine State.Kept.pair (by with_reducible assumption) ?_)
   | (refine State.Kept.triple (by with_reducible assumption) ?_)
   | split)

theorem State.ltJump_kept {kx : Bool} {k0 : State} (u pc : Nat) (s : State) (hs : k0.Kept kx s) :
    k0.Kept kx (State.ltJump u pc s) := by
  delta State.ltJump; beta_reduce
  repeat' (first
   | with_reducible assumption
   | with_reducible apply State.ltReach_kept
   | with_reducible apply State.modLt_kept)

theorem State.ltNext_kept {kx : Bool} {k0 : State} (u : Nat) (s : State) (hs : k0.Kept kx s) :
    k0.Kept kx (State.ltNext u s) := by
  delta State.ltNext; beta_reduce
  repeat' (first
   | with_reducible assumption
   | with_reducible apply State.ltJump_kept)

theorem State.ltStep_kept {kx : Bool} {k0 : State} (u : Nat) (f : State → State) (s : State) (hf : ∀ a0, k0.Kept kx a0 → k0.Kept kx (f a0)) (hs : k0.Kept kx s) :
    k0.Kept kx (State.ltStep u f s) := by
  delta State.ltStep; beta_reduce
  repeat' (first
   | with_reducible assumption
   | with_reducible apply hf
   | with_reducible apply State.ltHaltAt_kept
   | split)

theorem State.runProgram_kept {kx : Bool} {k0 : State} (u : Nat) (s : State) (hs : k0.Kept kx s) :
    k0.Kept kx (State.runProgram u s) := by
  delta State.runProgram; beta_reduce
  repeat' (first
   | with_reducible assumption
   | (extract_lets -merge -underBinder +onlyGivenNames ky; first | (refine State.Kept.cut ‹State.Kept _ _ _› (t := ky) ?_ ?_; subst ky; rotate_left; intro hx; clear_value ky) | clear_value ky)
   | with_reducible apply State.whenB_kept
   | with_reducible apply State.endJob_kept
   | with_reducible apply State.ltReach_kept
   | with_reducible apply State.setBit_kept
   | with_reducible apply State.setLt_kept
   | with_reducible apply State.usageAddr_kept
   | fail_if_no_progress (with_reducible refine State.Kept.lit ?_ rfl rfl rfl)
   | intro hx
   | (refine State.Kept.pair (by with_reducible assumption) ?_)
   | (refine State.Kept.triple (by with_reducible assumption) ?_)
   | split)

theorem State.ltIdle_kept {kx : Bool} {k0 : State} (s : State) (hs : k0.Kept kx s) :
    k0.Kept kx (State.ltIdle s) := by
  delta State.ltIdle; beta_reduce
  repeat' (first
   | with_reducible assumption
   | with_reducible apply State.each_kept
   | with_reducible apply State.clrBit_kept
   | intro hx
   | split)

theorem State.ltLoop_kept {kx : Bool} {k0 : State} (u : Nat) (s : State) (hs : k0.Kept kx s) :
    k0.Kept kx (State.ltLoop u s) := by
  delta State.ltLoop; beta_reduce
  repeat' (first
   | with_reducible assumption
   | (extract_lets -merge -underBinder +onlyGivenNames ky; clear_value ky)
   | with_reducible apply State.ltJump_kept
   | with_reducible apply State.setLt_kept
   | split)

theorem State.ltGo_kept {kx : Bool} {k0 : State} (u : Nat) (s : State) (hs : k0.Kept kx s) :
    k0.Kept kx (State.ltGo u s) := by
  delta State.ltGo; beta_reduce
  repeat' (first
   | with_reducible assumption
   | (extract_lets -merge -underBinder +onlyGivenNames ky; first | (refine State.Kept.cut ‹State.Kept _ _ _› (t := ky) ?_ ?_; subst ky; rotate_left; intro hx; clear_value ky) | clear_value ky)
   | with_reducible apply State.clrBit_kept
   | with_reducible apply State.ltNext_kept
   | split)

theorem State.ltWait_kept {kx : Bool} {k0 : State} (u : Nat) (s : State) (hs : k0.Kept kx s) :
    k0.Kept kx (State.ltWait u s) := by
  delta State.ltWait; beta_reduce
  repeat' (first
   | with_reducible assumption
   | with_reducible apply State.ltGo_kept
   | with_reducible apply State.modLt_kept
   | split)

theorem State.ltSatisfied_kept {kx : Bool} {k0 : State} (u : Nat) (s : State) (hs : k0.Kept kx s) :
    k0.Kept kx (State.ltSatisfied u s) := by
  delta State.ltSatisfied; beta_reduce
  repeat' (first
   | with_reducible assumption
   | with_reducible apply State.ltGo_kept
   | split)

theorem State.ltTimeout_kept {kx : Bool} {k0 : State} (u : Nat) (s : State) (hs : k0.Kept kx s) :
    k0.Kept kx (State.ltTimeout u s) := by
  delta State.ltTimeout; beta_reduce
  repeat' (first
   | with_reducible assumption
   | with_reducible apply State.ltHaltAt_kept
   | split)

theorem State.ltFlagWake_kept {kx : Bool} {k0 : State} (s : State) (hs : k0.Kept kx s) :
    k0.Kept kx (State.ltFlagWake s) := by
  delta State.ltFlagWake; beta_reduce
  repeat' (first
   | with_reducible assumption
   | with_reducible apply State.each_kept
   | with_reducible apply State.ltSatisfied_kept
   | with_reducible apply State.ltStep_kept
   | intro hx
   | split)

theorem State.ltFlags_kept {kx : Bool} {k0 : State} (v : Nat) (s : State) (hs : k0.Kept kx s) :
    k0.Kept kx (State.ltFlags v s) := by
  delta State.ltFlags; beta_reduce
  repeat' (first
   | with_reducible assumption
   | with_reducible apply State.ltFlagWake_kept
   | with_reducible apply State.ltIdle_kept
   | with_reducible apply State.wr_kept)

theorem State.ltFlagsSet_kept {kx : Bool} {k0 : State} (agent v : Nat) (s : State) (hs : k0.Kept kx s) :
    k0.Kept kx (State.ltFlagsSet agent v s) := by
  delta State.ltFlagsSet; beta_reduce
  repeat' (first
   | with_reducible assumption
   | with_reducible apply State.ltFlags_kept
   | with_reducible apply State.usageReg_kept
   | split)

theorem State.ltTide_kept {kx : Bool} {k0 : State} (s : State) (hs : k0.Kept kx s) :
    k0.Kept kx (State.ltTide s) := by
  delta State.ltTide; beta_reduce
  repeat' (first
   | with_reducible assumption
   | with_reducible apply State.each_kept
   | with_reducible apply State.ltIdle_kept
   | with_reducible apply State.ltSatisfied_kept
   | with_reducible apply State.ltStep_kept
   | intro hx
   | split)

theorem State.ltBusError_kept {kx : Bool} {k0 : State} (u : Nat) (write : Bool) (addr : Nat) (s : State) (hs : k0.Kept kx s) :
    k0.Kept kx (State.ltBusError u write addr s) := by
  delta State.ltBusError; beta_reduce
  repeat' (first
   | with_reducible assumption
   | (extract_lets -merge -underBinder +onlyGivenNames ky; clear_value ky)
   | with_reducible apply State.ltHalt_kept
   | with_reducible apply State.setLt_kept
   | with_reducible apply State.sndCount_kept
   | split)

theorem State.ltAbort_kept {kx : Bool} {k0 : State} (u : Nat) (s : State) (hs : k0.Kept kx s) :
    k0.Kept kx (State.ltAbort u s) := by
  delta State.ltAbort; beta_reduce
  repeat' (first
   | with_reducible assumption
   | with_reducible apply State.ltHaltAt_kept
   | with_reducible apply State.ltIdle_kept
   | split)

theorem State.ltQuiesce_kept {kx : Bool} {k0 : State} (u : Nat) (s : State) (hs : k0.Kept kx s) :
    k0.Kept kx (State.ltQuiesce u s) := by
  delta State.ltQuiesce; beta_reduce
  repeat' (first
   | with_reducible assumption
   | with_reducible apply State.ltHaltAt_kept
   | with_reducible apply State.ltIdle_kept
   | split)

theorem State.outTimeout_kept {kx : Bool} {k0 : State} (agent : Nat) (s : State) (hs : k0.Kept kx s) :
    k0.Kept kx (State.outTimeout agent s) := by
  delta State.outTimeout; beta_reduce
  repeat' (first
   | with_reducible assumption
   | (extract_lets -merge -underBinder +onlyGivenNames ky; first | (refine State.Kept.cut ‹State.Kept _ _ _› (t := ky) ?_ ?_; subst ky; rotate_left; intro hx; clear_value ky) | clear_value ky)
   | with_reducible apply State.bump_kept
   | with_reducible apply State.ltBusError_kept
   | with_reducible apply State.ltIdle_kept
   | with_reducible apply State.setBit_kept
   | with_reducible apply State.setJob_kept
   | fail_if_no_progress (with_reducible refine State.Kept.lit ?_ rfl rfl rfl)
   | intro hx
   | (refine State.Kept.pair (by with_reducible assumption) ?_)
   | (refine State.Kept.triple (by with_reducible assumption) ?_)
   | split)

end Sys2Proof.Machine
end

