-- ==== Sys2Proof/Laws/KeptWatch.lean ====
section
/-! SUPPORT. What the operations of Machine/Watch.lean keep (Laws/Kept.lean), one lemma each. -/

namespace Sys2Proof.Machine

theorem State.noSpare_kept {kx : Bool} {k0 : State} (u : Nat) (s : State) (hs : k0.Kept kx s) :
    k0.Kept kx (State.noSpare u s) := by
  delta State.noSpare; beta_reduce
  repeat' (first
   | with_reducible assumption
   | (extract_lets -merge -underBinder +onlyGivenNames ky; first | (refine State.Kept.cut ‹State.Kept _ _ _› (t := ky) ?_ ?_; subst ky; rotate_left; intro hx; clear_value ky) | clear_value ky)
   | with_reducible apply State.each_kept
   | with_reducible apply State.abandonJob_kept
   | with_reducible apply State.report_kept
   | with_reducible apply State.stopStream_kept
   | intro hx)

theorem State.chooseSpare_kept {kx : Bool} {k0 : State} (u : Nat) (s : State) (hs : k0.Kept kx s) :
    k0.Kept kx (State.chooseSpare u s) := by
  delta State.chooseSpare; beta_reduce
  repeat' (first
   | with_reducible assumption
   | (extract_lets -merge -underBinder +onlyGivenNames ky; first | (refine State.Kept.cut ‹State.Kept _ _ _› (t := ky) ?_ ?_; subst ky; rotate_left; intro hx; clear_value ky) | (have hk : ∀ a, ky a = ky a := (fun _ => rfl); clear hk; subst ky; beta_reduce) | (have hk : ky.logWr = ky.logWr := rfl; clear hk; subst ky) | clear_value ky)
   | with_reducible apply State.noSpare_kept
   | with_reducible apply State.setUnitF_kept
   | fail_if_no_progress (with_reducible refine State.Kept.lit ?_ rfl rfl rfl)
   | split)

theorem State.egressConds_kept {kx : Bool} {k0 : State} (s : State) (hs : k0.Kept kx s) :
    k0.Kept kx (State.egressConds s) := by
  delta State.egressConds; beta_reduce
  repeat' (first
   | with_reducible assumption
   | (extract_lets -merge -underBinder +onlyGivenNames ky; first | (refine State.Kept.cut ‹State.Kept _ _ _› (t := ky) ?_ ?_; subst ky; rotate_left; intro hx; clear_value ky) | clear_value ky)
   | with_reducible apply State.each_kept
   | with_reducible apply State.whenB_kept
   | with_reducible apply State.cond_kept
   | with_reducible apply State.setBit_kept
   | intro hx)

theorem State.egressMove_kept {kx : Bool} {k0 : State} (s : State) (hs : k0.Kept kx s) :
    k0.Kept kx (State.egressMove s) := by
  delta State.egressMove; beta_reduce
  repeat' (first
   | with_reducible assumption
   | (extract_lets -merge -underBinder +onlyGivenNames ky; first | (refine State.Kept.cut ‹State.Kept _ _ _› (t := ky) ?_ ?_; subst ky; rotate_left; intro hx; clear_value ky) | clear_value ky)
   | with_reducible apply State.each_kept
   | with_reducible apply State.egressConds_kept
   | with_reducible apply State.setBook_kept
   | with_reducible apply State.setUnit_kept
   | intro hx
   | split)

theorem State.egressFence_kept {kx : Bool} {k0 : State} (u : Nat) (s : State) (hs : k0.Kept kx s) :
    k0.Kept kx (State.egressFence u s) := by
  delta State.egressFence; beta_reduce
  repeat' (first
   | with_reducible assumption
   | (extract_lets -merge -underBinder +onlyGivenNames ky; first | (refine State.Kept.cut ‹State.Kept _ _ _› (t := ky) ?_ ?_; subst ky; rotate_left; intro hx; clear_value ky) | (have hk : ky.logWr = ky.logWr := rfl; clear hk; subst ky) | clear_value ky)
   | with_reducible apply State.egressMove_kept
   | fail_if_no_progress (with_reducible refine State.Kept.lit ?_ rfl rfl rfl)
   | split)

theorem State.fenceUnit_kept {kx : Bool} {k0 : State} (code u : Nat) (s : State) (hs : k0.Kept kx s) :
    k0.Kept kx (State.fenceUnit code u s) := by
  delta State.fenceUnit; beta_reduce
  repeat' (first
   | with_reducible assumption
   | (extract_lets -merge -underBinder +onlyGivenNames ky; first | (refine State.Kept.cut ‹State.Kept _ _ _› (t := ky) ?_ ?_; subst ky; rotate_left; intro hx; clear_value ky) | (have hk : ky.logWr = ky.logWr := rfl; clear hk; subst ky) | clear_value ky)
   | with_reducible apply State.afterSpares_kept
   | with_reducible apply State.chooseSpare_kept
   | with_reducible apply State.dispatch_kept
   | with_reducible apply State.egressFence_kept
   | with_reducible apply State.ltAbort_kept
   | with_reducible apply State.setEng_kept
   | with_reducible apply State.unitIrq_kept
   | with_reducible apply State.wr_kept
   | fail_if_no_progress (with_reducible refine State.Kept.lit ?_ rfl rfl rfl)
   | split)

theorem State.fence_kept {kx : Bool} {k0 : State} (code access addr u : Nat) (s : State) (hs : k0.Kept kx s) :
    k0.Kept kx (State.fence code access addr u s) := by
  delta State.fence; beta_reduce
  repeat' (first
   | with_reducible assumption
   | (extract_lets -merge -underBinder +onlyGivenNames ky; clear_value ky)
   | with_reducible apply State.fenceUnit_kept
   | with_reducible apply State.report_kept
   | (with_reducible refine State.Kept.watch ?_ (fun h => WatchSt.logReport_log _ _ _ _ _ _ h) (fun h => (WatchSt.logReport_active _ _ _ _ _ _).symm ▸ h))
   | split)

theorem State.countReplay_kept {kx : Bool} {k0 : State} (u op : Nat) (s : State) (hs : k0.Kept kx s) :
    k0.Kept kx (State.countReplay u op s) := by
  delta State.countReplay; beta_reduce
  repeat' (first
   | with_reducible assumption
   | with_reducible apply State.inc_kept
   | split)

theorem State.replayQuay_kept {kx : Bool} {k0 : State} (j : Job) (s : State) (hs : k0.Kept kx s) :
    k0.Kept kx (State.replayQuay j s) := by
  delta State.replayQuay; beta_reduce
  repeat' (first
   | with_reducible assumption
   | with_reducible apply State.quayPut_kept
   | fail_if_no_progress (with_reducible refine State.Kept.lit ?_ rfl rfl rfl)
   | intro hx
   | (refine State.Kept.pair (by with_reducible assumption) ?_)
   | (refine State.Kept.triple (by with_reducible assumption) ?_)
   | split)

theorem State.moveBerth_kept {kx : Bool} {k0 : State} (f u : Nat) (s : State) (hs : k0.Kept kx s) :
    k0.Kept kx (State.moveBerth f u s) := by
  delta State.moveBerth; beta_reduce
  repeat' (first
   | with_reducible assumption
   | (extract_lets -merge -underBinder +onlyGivenNames ky; first | (refine State.Kept.cut ‹State.Kept _ _ _› (t := ky) ?_ ?_; subst ky; rotate_left; intro hx; clear_value ky) | clear_value ky)
   | with_reducible apply State.each_kept
   | with_reducible apply State.whenB_kept
   | with_reducible apply State.ucwWrite_kept
   | with_reducible apply State.wr_kept
   | with_reducible apply State.wr40_kept
   | with_reducible apply State.wrFld_kept
   | fail_if_no_progress (with_reducible refine State.Kept.lit ?_ rfl rfl rfl)
   | intro hx
   | split)

theorem State.takeover_kept {kx : Bool} {k0 : State} (u : Nat) (s : State) (hs : k0.Kept kx s) :
    k0.Kept kx (State.takeover u s) := by
  delta State.takeover; beta_reduce
  repeat' (first
   | with_reducible assumption
   | (extract_lets -merge -underBinder +onlyGivenNames ky; first | (refine State.Kept.cut ‹State.Kept _ _ _› (t := ky) ?_ ?_; subst ky; rotate_left; intro hx; clear_value ky) | (have hk : ky.logWr = ky.logWr := rfl; clear hk; subst ky) | clear_value ky)
   | with_reducible apply State.afterSpares_kept
   | with_reducible apply State.clrBit_kept
   | with_reducible apply State.countReplay_kept
   | with_reducible apply State.dispatch_kept
   | with_reducible apply State.moveBerth_kept
   | with_reducible apply State.quayShow_kept
   | with_reducible apply State.replayQuay_kept
   | with_reducible apply State.setBit_kept
   | with_reducible apply State.setJob_kept
   | with_reducible apply State.setUnitF_kept
   | with_reducible apply State.startJob_kept
   | with_reducible apply State.unitIrq_kept
   | fail_if_no_progress (with_reducible refine State.Kept.lit ?_ rfl rfl rfl)
   | intro hx
   | (refine State.Kept.pair (by with_reducible assumption) ?_)
   | (refine State.Kept.triple (by with_reducible assumption) ?_)
   | split)

theorem State.hang_kept {kx : Bool} {k0 : State} (u : Nat) (s : State) (hs : k0.Kept kx s) :
    k0.Kept kx (State.hang u s) := by
  delta State.hang; beta_reduce
  repeat' (first
   | with_reducible assumption
   | (extract_lets -merge -underBinder +onlyGivenNames ky; clear_value ky)
   | with_reducible apply State.fence_kept
   | split)

theorem State.watchAck_kept {kx : Bool} {k0 : State} (agent v : Nat) (s : State) (hs : k0.Kept kx s) :
    k0.Kept kx (State.watchAck agent v s) := by
  delta State.watchAck; beta_reduce
  repeat' (first
   | with_reducible assumption
   | with_reducible apply State.usageReg_kept
   | (with_reducible refine State.Kept.watch ?_ id (fun h => le_trans (WatchSt.leave_active _ _) h))
   | split)

theorem State.rewriteOwners_kept {kx : Bool} {k0 : State} (u v : Nat) (s : State) (hs : k0.Kept kx s) :
    k0.Kept kx (State.rewriteOwners u v s) := by
  delta State.rewriteOwners; beta_reduce
  repeat' (first
   | with_reducible assumption
   | (extract_lets -merge -underBinder +onlyGivenNames ky; clear_value ky)
   | with_reducible apply State.each_kept
   | with_reducible apply State.setOwner_kept
   | intro hx
   | split)

theorem State.fenceClear_kept {kx : Bool} {k0 : State} (agent v : Nat) (s : State) (hs : k0.Kept kx s) :
    k0.Kept kx (State.fenceClear agent v s) := by
  delta State.fenceClear; beta_reduce
  repeat' (first
   | with_reducible assumption
   | (extract_lets -merge -underBinder +onlyGivenNames ky; first | (refine State.Kept.cut ‹State.Kept _ _ _› (t := ky) ?_ ?_; subst ky; rotate_left; intro hx; clear_value ky) | (have hk : ∀ a, ky a = ky a := (fun _ => rfl); clear hk; subst ky; beta_reduce) | (have hk : ky.logWr = ky.logWr := rfl; clear hk; subst ky) | clear_value ky)
   | with_reducible apply State.rewriteOwners_kept
   | with_reducible apply State.usageReg_kept
   | fail_if_no_progress (with_reducible refine State.Kept.lit ?_ rfl rfl rfl)
   | split)

theorem State.selfTestDone_kept {kx : Bool} {k0 : State} (pass : Bool) (s : State) (hs : k0.Kept kx s) :
    k0.Kept kx (State.selfTestDone pass s) := by
  delta State.selfTestDone; beta_reduce
  repeat' (first
   | with_reducible assumption
   | (extract_lets -merge -underBinder +onlyGivenNames ky; first | (refine State.Kept.cut ‹State.Kept _ _ _› (t := ky) ?_ ?_; subst ky; rotate_left; intro hx; clear_value ky) | (have hk : ky.logWr = ky.logWr := rfl; clear hk; subst ky))
   | with_reducible apply State.clrBit_kept
   | with_reducible apply State.egressMove_kept
   | with_reducible apply State.setEng_kept
   | fail_if_no_progress (with_reducible refine State.Kept.lit ?_ rfl rfl rfl)
   | (with_reducible refine State.Kept.watch ?_ id (fun h => le_trans (WatchSt.leave_active _ _) h))
   | split)

theorem State.safeForce_kept {kx : Bool} {k0 : State} (agent v : Nat) (s : State) (hs : k0.Kept kx s) :
    k0.Kept kx (State.safeForce agent v s) := by
  delta State.safeForce; beta_reduce
  repeat' (first
   | with_reducible assumption
   | (extract_lets -merge -underBinder +onlyGivenNames ky; clear_value ky)
   | with_reducible apply State.report_kept
   | with_reducible apply State.usageReg_kept
   | split)

theorem State.enterSafe_kept {kx : Bool} {k0 : State} (s : State) (hs : k0.Kept kx s) :
    k0.Kept kx (State.enterSafe s) := by
  delta State.enterSafe; beta_reduce
  repeat' (first
   | with_reducible assumption
   | (extract_lets -merge -underBinder +onlyGivenNames ky; first | (refine State.Kept.cut ‹State.Kept _ _ _› (t := ky) ?_ ?_; subst ky; rotate_left; intro hx; clear_value ky) | (have hk : ky.logWr = ky.logWr := rfl; clear hk; subst ky))
   | with_reducible apply State.each_kept
   | with_reducible apply State.abandonJob_kept
   | with_reducible apply State.ltAbort_kept
   | with_reducible apply State.markJobs_kept
   | with_reducible apply State.setDisp_kept
   | with_reducible apply State.setUnitF_kept
   | with_reducible apply State.spadGate_kept
   | fail_if_no_progress (with_reducible refine State.Kept.lit ?_ rfl rfl rfl)
   | intro hx
   | split)

theorem State.servoPause_kept {kx : Bool} {k0 : State} (s : State) (hs : k0.Kept kx s) :
    k0.Kept kx (State.servoPause s) := by
  delta State.servoPause; beta_reduce
  repeat' (first
   | with_reducible assumption
   | (extract_lets -merge -underBinder +onlyGivenNames ky; first | (refine State.Kept.cut ‹State.Kept _ _ _› (t := ky) ?_ ?_; subst ky; rotate_left; intro hx; clear_value ky) | (refine State.Kept.cut2 ‹State.Kept _ _ _› (t := ky) ?_ ?_; subst ky; rotate_left; intro hx; clear_value ky) | clear_value ky)
   | with_reducible apply State.draw_kept
   | fail_if_no_progress (with_reducible refine State.Kept.lit ?_ rfl rfl rfl))

theorem State.lockstep_kept {kx : Bool} {k0 : State} (p : Nat) (s : State) (hs : k0.Kept kx s) :
    k0.Kept kx (State.lockstep p s) := by
  delta State.lockstep; beta_reduce
  repeat' (first
   | with_reducible assumption
   | (extract_lets -merge -underBinder +onlyGivenNames ky; clear_value ky)
   | with_reducible apply State.report_kept
   | with_reducible apply State.servoPause_kept
   | fail_if_no_progress (with_reducible refine State.Kept.lit ?_ rfl rfl rfl)
   | intro hx
   | (refine State.Kept.pair (by with_reducible assumption) ?_)
   | (refine State.Kept.triple (by with_reducible assumption) ?_)
   | split
   | dsimp only)

theorem State.watchSelf_kept {kx : Bool} {k0 : State} (s : State) (hs : k0.Kept kx s) :
    k0.Kept kx (State.watchSelf s) := by
  delta State.watchSelf; beta_reduce
  repeat' (first
   | with_reducible assumption
   | (extract_lets -merge -underBinder +onlyGivenNames ky; (have hk : ky.logWr = ky.logWr := rfl; clear hk; subst ky))
   | fail_if_no_progress (with_reducible refine State.Kept.lit ?_ rfl rfl rfl))

end Sys2Proof.Machine
end

