-- ==== Sys2Proof/Laws/KeptSoundings.lean ====
section
/-! SUPPORT. What the operations of Machine/Soundings.lean keep (Laws/Kept.lean), one lemma each. -/

namespace Sys2Proof.Machine

theorem State.sndSelect_kept {kx : Bool} {k0 : State} (agent src i v : Nat) (s : State) (hs : k0.Kept kx s) :
    k0.Kept kx (State.sndSelect agent src i v s).2 := by
  delta State.sndSelect; beta_reduce
  repeat' (first
   | with_reducible assumption
   | (extract_lets -merge -underBinder +onlyGivenNames ky; clear_value ky)
   | with_reducible apply State.stage_kept
   | with_reducible apply State.usageReg_kept
   | split)

theorem State.sndSelWrite_kept {kx : Bool} {k0 : State} (agent src i v : Nat) (s : State) (hs : k0.Kept kx s) :
    k0.Kept kx (State.sndSelWrite agent src i v s) := by
  delta State.sndSelWrite; beta_reduce
  repeat' (first
   | with_reducible assumption
   | with_reducible apply State.sndSelect_kept
   | with_reducible apply State.usageReg_kept
   | split)

theorem sndEntries_kept {kx : Bool} {k0 : State} (agent : Nat) (c0 : List Nat) (c1 : Nat) (s : State) (hs : k0.Kept kx s) :
    k0.Kept kx (sndEntries agent c0 c1 s).2 := by
  induction c1 generalizing c0 s with
  | zero =>
    unfold sndEntries
    repeat' (first
     | with_reducible assumption)
  | succ n ih =>
    unfold sndEntries
    repeat' (first
     | with_reducible assumption
     | (extract_lets -merge -underBinder +onlyGivenNames ky; refine State.Kept.cut2 ‹State.Kept _ _ _› (t := ky) ?_ ?_; subst ky; rotate_left; intro hx; clear_value ky)
     | with_reducible apply ih
     | with_reducible apply State.sndSelect_kept
     | split)

theorem sndCtrl_kept {kx : Bool} {k0 : State} (body : List Nat) (s : State) (hs : k0.Kept kx s) :
    k0.Kept kx (sndCtrl body s).2.2 := by
  delta sndCtrl; beta_reduce
  repeat' (first
   | with_reducible assumption
   | (extract_lets -merge -underBinder +onlyGivenNames ky; refine State.Kept.cut2 ‹State.Kept _ _ _› (t := ky) ?_ ?_; subst ky; rotate_left; intro hx; clear_value ky)
   | with_reducible apply State.runtimeChanged_kept
   | with_reducible apply sndEntries_kept
   | fail_if_no_progress (with_reducible refine State.Kept.lit ?_ rfl rfl rfl)
   | intro hx
   | (refine State.Kept.pair (by with_reducible assumption) ?_)
   | (refine State.Kept.triple (by with_reducible assumption) ?_)
   | split)

theorem State.sndCounters_kept {kx : Bool} {k0 : State} (src tide : Nat) (s : State) (hs : k0.Kept kx s) :
    k0.Kept kx (State.sndCounters src tide s) := by
  delta State.sndCounters; beta_reduce
  repeat' (first
   | with_reducible assumption
   | (extract_lets -merge -underBinder +onlyGivenNames ky; clear_value ky)
   | with_reducible apply State.sndRecord_kept)

theorem State.sndRun_kept {kx : Bool} {k0 : State} (o : Nat) (s : State) (hs : k0.Kept kx s) :
    k0.Kept kx (State.sndRun o s) := by
  delta State.sndRun; beta_reduce
  repeat' (first
   | with_reducible assumption
   | (extract_lets -merge -underBinder +onlyGivenNames ky; refine State.Kept.cut2 ‹State.Kept _ _ _› (t := ky) ?_ ?_; subst ky; rotate_left; intro hx; clear_value ky)
   | with_reducible apply State.draw_kept
   | with_reducible apply State.sndAdd_kept
   | fail_if_no_progress (with_reducible refine State.Kept.lit ?_ rfl rfl rfl)
   | intro hx
   | (refine State.Kept.pair (by with_reducible assumption) ?_)
   | (refine State.Kept.triple (by with_reducible assumption) ?_)
   | split)

theorem State.sndLatch_kept {kx : Bool} {k0 : State} (o : Nat) (restaged : Bool) (s : State) (hs : k0.Kept kx s) :
    k0.Kept kx (State.sndLatch o restaged s) := by
  delta State.sndLatch; beta_reduce
  repeat' (first
   | with_reducible assumption
   | (extract_lets -merge -underBinder +onlyGivenNames ky; refine State.Kept.cut ‹State.Kept _ _ _› (t := ky) ?_ ?_; subst ky; rotate_left; intro hx; clear_value ky)
   | with_reducible apply State.clrBit_kept
   | with_reducible apply State.putBit_kept
   | with_reducible apply State.sndRun_kept
   | with_reducible apply State.wr64_kept
   | split)

theorem State.sndTide_kept {kx : Bool} {k0 : State} (applies : Bool) (ended : Nat) (s : State) (hs : k0.Kept kx s) :
    k0.Kept kx (State.sndTide applies ended s) := by
  delta State.sndTide; beta_reduce
  repeat' (first
   | with_reducible assumption
   | (extract_lets -merge -underBinder +onlyGivenNames ky; first | (refine State.Kept.cut ‹State.Kept _ _ _› (t := ky) ?_ ?_; subst ky; rotate_left; intro hx; clear_value ky) | clear_value ky)
   | with_reducible apply State.each_kept
   | with_reducible apply State.sndCounters_kept
   | with_reducible apply State.sndLatch_kept
   | fail_if_no_progress (with_reducible refine State.Kept.lit ?_ rfl rfl rfl)
   | intro hx
   | (refine State.Kept.pair (by with_reducible assumption) ?_)
   | (refine State.Kept.triple (by with_reducible assumption) ?_)
   | split)

theorem State.sampleCfgWrite_kept {kx : Bool} {k0 : State} (agent v : Nat) (s : State) (hs : k0.Kept kx s) :
    k0.Kept kx (State.sampleCfgWrite agent v s) := by
  delta State.sampleCfgWrite; beta_reduce
  repeat' (first
   | with_reducible assumption
   | (extract_lets -merge -underBinder +onlyGivenNames ky; clear_value ky)
   | with_reducible apply State.usageReg_kept
   | with_reducible apply State.wr_kept
   | split)

theorem State.skidSample_kept {kx : Bool} {k0 : State} (column row value : Nat) (busy : Bool) (s : State) (hs : k0.Kept kx s) :
    k0.Kept kx (State.skidSample column row value busy s) := by
  delta State.skidSample; beta_reduce
  repeat' (first
   | with_reducible assumption
   | (extract_lets -merge -underBinder +onlyGivenNames ky; first | (refine State.Kept.cut ‹State.Kept _ _ _› (t := ky) ?_ ?_; subst ky; rotate_left; intro hx; clear_value ky) | (refine State.Kept.cut2 ‹State.Kept _ _ _› (t := ky) ?_ ?_; subst ky; rotate_left; intro hx; clear_value ky) | clear_value ky)
   | with_reducible apply State.whenB_kept
   | with_reducible apply State.bump_kept
   | with_reducible apply State.setBit_kept
   | with_reducible apply State.sndRecord_kept
   | split)

end Sys2Proof.Machine
end

