-- ==== Sys2Proof/Laws/KeptHardware.lean ====
section
/-! SUPPORT. What the operations of Machine/Hardware.lean keep (Laws/Kept.lean), one lemma each. -/

namespace Sys2Proof.Machine

theorem State.i2cWrite_kept {kx : Bool} {k0 : State} (bytes : List Nat) (s : State) (hs : k0.Kept kx s) :
    k0.Kept kx (State.i2cWrite bytes s) := by
  delta State.i2cWrite; beta_reduce
  repeat' (first
   | with_reducible assumption
   | fail_if_no_progress (with_reducible refine State.Kept.lit ?_ rfl rfl rfl)
   | split)

theorem State.i2cRead_kept {kx : Bool} {k0 : State} (n : Nat) (s : State) (hs : k0.Kept kx s) :
    k0.Kept kx (State.i2cRead n s) := by
  delta State.i2cRead; beta_reduce
  repeat' (first
   | with_reducible assumption
   | with_reducible apply State.emit_kept
   | fail_if_no_progress (with_reducible refine State.Kept.lit ?_ rfl rfl rfl)
   | split)

theorem State.i2cRelease_kept {kx : Bool} {k0 : State} (s : State) (hs : k0.Kept kx s) :
    k0.Kept kx (State.i2cRelease s) := by
  delta State.i2cRelease; beta_reduce
  repeat' (first
   | with_reducible assumption
   | fail_if_no_progress (with_reducible refine State.Kept.lit ?_ rfl rfl rfl)
   | split)

theorem State.hotInsert_kept {kx : Bool} {k0 : State} (mvA mvB : Int) (s : State) (hs : k0.Kept kx s) :
    k0.Kept kx (State.hotInsert mvA mvB s) := by
  delta State.hotInsert; beta_reduce
  repeat' (first
   | with_reducible assumption
   | (extract_lets -merge -underBinder +onlyGivenNames ky; (have hk : ∀ a, ky a = ky a := (fun _ => rfl); clear hk; subst ky; beta_reduce))
   | with_reducible apply State.emit_kept
   | with_reducible apply State.inputChange_kept
   | split)

theorem State.heaterOff_kept {kx : Bool} {k0 : State} (s : State) (hs : k0.Kept kx s) :
    k0.Kept kx (State.heaterOff s) := by
  delta State.heaterOff; beta_reduce
  repeat' (first
   | with_reducible assumption
   | (extract_lets -merge -underBinder +onlyGivenNames ky; (have hk : ky.broken = ky.broken := rfl; clear hk; subst ky))
   | fail_if_no_progress (with_reducible refine State.Kept.lit ?_ rfl rfl rfl))

end Sys2Proof.Machine
end

