-- ==== Sys2Proof/Laws/KeptUnitCtrl.lean ====
section
/-! SUPPORT. What the operations of Machine/UnitCtrl.lean keep (Laws/Kept.lean), one lemma each. -/

namespace Sys2Proof.Machine

theorem State.stopRunning_kept {kx : Bool} {k0 : State} (u : Nat) (halt : Bool) (s : State) (hs : k0.Kept kx s) :
    k0.Kept kx (State.stopRunning u halt s) := by
  delta State.stopRunning; beta_reduce
  repeat' (first
   | with_reducible assumption
   | (extract_lets -merge -underBinder +onlyGivenNames ky; refine State.Kept.cut ‹State.Kept _ _ _› (t := ky) ?_ ?_; subst ky; rotate_left; intro hx; clear_value ky)
   | with_reducible apply State.ltAbort_kept
   | with_reducible apply State.ltQuiesce_kept
   | with_reducible apply State.setEng_kept
   | with_reducible apply State.setJob_kept
   | split)

theorem State.ctrlEffect_kept {kx : Bool} {k0 : State} (u v : Nat) (s : State) (hs : k0.Kept kx s) :
    k0.Kept kx (State.ctrlEffect u v s) := by
  delta State.ctrlEffect; beta_reduce
  repeat' (first
   | with_reducible assumption
   | (extract_lets -merge -underBinder +onlyGivenNames ky; first | (refine State.Kept.cut ‹State.Kept _ _ _› (t := ky) ?_ ?_; subst ky; rotate_left; intro hx; clear_value ky) | clear_value ky)
   | with_reducible apply State.whenB_kept
   | with_reducible apply State.adopt_kept
   | with_reducible apply State.setEng_kept
   | with_reducible apply State.setUnitF_kept
   | with_reducible apply State.stopDone_kept
   | with_reducible apply State.stopRunning_kept
   | split)

theorem State.ctrlWrite_kept {kx : Bool} {k0 : State} (by_ : CtrlBy) (u v : Nat) (s : State) (hs : k0.Kept kx s) :
    k0.Kept kx (State.ctrlWrite by_ u v s) := by
  delta State.ctrlWrite; beta_reduce
  repeat' (first
   | with_reducible assumption
   | (extract_lets -merge -underBinder +onlyGivenNames ky; first | (refine State.Kept.cut ‹State.Kept _ _ _› (t := ky) ?_ ?_; subst ky; rotate_left; intro hx; clear_value ky) | clear_value ky)
   | with_reducible apply State.whenB_kept
   | with_reducible apply State.afterSpares_kept
   | with_reducible apply State.cfgAccept_kept
   | with_reducible apply State.cfgRefuse_kept
   | with_reducible apply State.ctrlEffect_kept
   | with_reducible apply State.dispatch_kept
   | with_reducible apply State.measEvent_kept
   | with_reducible apply State.runtimeChanged_kept
   | with_reducible apply State.wr_kept
   | split)

theorem State.unitCtrl_kept {kx : Bool} {k0 : State} (agent u v : Nat) (s : State) (hs : k0.Kept kx s) :
    k0.Kept kx (State.unitCtrl agent u v s) := by
  delta State.unitCtrl; beta_reduce
  repeat' (first
   | with_reducible assumption
   | (extract_lets -merge -underBinder +onlyGivenNames ky; clear_value ky)
   | with_reducible apply State.ctrlWrite_kept
   | with_reducible apply State.usageReg_kept
   | split)

theorem State.ctrlField_kept {kx : Bool} {k0 : State} (agent u hi lo x : Nat) (s : State) (hs : k0.Kept kx s) :
    k0.Kept kx (State.ctrlField agent u hi lo x s) := by
  delta State.ctrlField; beta_reduce
  repeat' (first
   | with_reducible assumption
   | with_reducible apply State.unitCtrl_kept)

theorem State.grpWrite_kept {kx : Bool} {k0 : State} (agent u v : Nat) (s : State) (hs : k0.Kept kx s) :
    k0.Kept kx (State.grpWrite agent u v s) := by
  delta State.grpWrite; beta_reduce
  repeat' (first
   | with_reducible assumption
   | (extract_lets -merge -underBinder +onlyGivenNames ky; clear_value ky)
   | with_reducible apply State.grpCtrlWrite_kept
   | with_reducible apply State.usageReg_kept
   | split)

theorem State.watermark_kept {kx : Bool} {k0 : State} (agent o v : Nat) (s : State) (hs : k0.Kept kx s) :
    k0.Kept kx (State.watermark agent o v s) := by
  delta State.watermark; beta_reduce
  repeat' (first
   | with_reducible assumption
   | with_reducible apply State.usageReg_kept
   | with_reducible apply State.wmWrite_kept
   | split)

end Sys2Proof.Machine
end

