-- ==== Sys2Proof/Laws/KeptTide.lean ====
section
/-! SUPPORT. What the operations of Machine/Tide.lean keep (Laws/Kept.lean), one lemma each. -/

namespace Sys2Proof.Machine

theorem State.rebase_kept {kx : Bool} {k0 : State} (s : State) (hs : k0.Kept kx s) :
    k0.Kept kx (State.rebase s) := by
  delta State.rebase; beta_reduce
  repeat' (first
   | with_reducible assumption
   | (extract_lets -merge -underBinder +onlyGivenNames ky; clear_value ky)
   | fail_if_no_progress (with_reducible refine State.Kept.lit ?_ rfl rfl rfl))

theorem State.noteRate_kept {kx : Bool} {k0 : State} (s : State) (hs : k0.Kept kx s) :
    k0.Kept kx (State.noteRate s) := by
  delta State.noteRate; beta_reduce
  repeat' (first
   | with_reducible assumption
   | (extract_lets -merge -underBinder +onlyGivenNames ky; clear_value ky)
   | fail_if_no_progress (with_reducible refine State.Kept.lit ?_ rfl rfl rfl))

theorem State.setRate_kept {kx : Bool} {k0 : State} (r : Int) (s : State) (hs : k0.Kept kx s) :
    k0.Kept kx (State.setRate r s) := by
  delta State.setRate; beta_reduce
  repeat' (first
   | with_reducible assumption
   | (extract_lets -merge -underBinder +onlyGivenNames ky; first | (refine State.Kept.cut ‹State.Kept _ _ _› (t := ky) ?_ ?_; subst ky; rotate_left; intro hx; clear_value ky) | clear_value ky)
   | with_reducible apply State.noteRate_kept
   | with_reducible apply State.rebase_kept
   | with_reducible apply State.wr40_kept
   | fail_if_no_progress (with_reducible refine State.Kept.lit ?_ rfl rfl rfl))

theorem State.passToNs_kept {kx : Bool} {k0 : State} (ns : Nat) (s : State) (hs : k0.Kept kx s) :
    k0.Kept kx (State.passToNs ns s) := by
  delta State.passToNs; beta_reduce
  repeat' (first
   | with_reducible assumption
   | with_reducible apply State.passTo_kept)

theorem State.stepBy_kept {kx : Bool} {k0 : State} (n : Int) (s : State) (hs : k0.Kept kx s) :
    k0.Kept kx (State.stepBy n s) := by
  delta State.stepBy; beta_reduce
  repeat' (first
   | with_reducible assumption
   | (extract_lets -merge -underBinder +onlyGivenNames ky; first | (refine State.Kept.cut ‹State.Kept _ _ _› (t := ky) ?_ ?_; subst ky; rotate_left; intro hx; clear_value ky) | clear_value ky)
   | with_reducible apply State.rebase_kept
   | with_reducible apply State.setBit_kept
   | fail_if_no_progress (with_reducible refine State.Kept.lit ?_ rfl rfl rfl))

theorem State.acceptStep_kept {kx : Bool} {k0 : State} (n : Int) (s : State) (hs : k0.Kept kx s) :
    k0.Kept kx (State.acceptStep n s) := by
  delta State.acceptStep; beta_reduce
  repeat' (first
   | with_reducible assumption
   | (extract_lets -merge -underBinder +onlyGivenNames ky; clear_value ky)
   | with_reducible apply State.setBit_kept
   | with_reducible apply State.stepBy_kept
   | fail_if_no_progress (with_reducible refine State.Kept.lit ?_ rfl rfl rfl)
   | split)

theorem State.capture_kept {kx : Bool} {k0 : State} (s : State) (hs : k0.Kept kx s) :
    k0.Kept kx (State.capture s) := by
  delta State.capture; beta_reduce
  repeat' (first
   | with_reducible assumption
   | (extract_lets -merge -underBinder +onlyGivenNames ky; clear_value ky)
   | with_reducible apply State.wr_kept
   | with_reducible apply State.wr64_kept)

theorem State.captureWrite_kept {kx : Bool} {k0 : State} (agent v : Nat) (s : State) (hs : k0.Kept kx s) :
    k0.Kept kx (State.captureWrite agent v s) := by
  delta State.captureWrite; beta_reduce
  repeat' (first
   | with_reducible assumption
   | with_reducible apply State.capture_kept
   | with_reducible apply State.usageReg_kept
   | split)

theorem State.setServo_kept {kx : Bool} {k0 : State} (m : Nat) (s : State) (hs : k0.Kept kx s) :
    k0.Kept kx (State.setServo m s) := by
  delta State.setServo; beta_reduce
  repeat' (first
   | with_reducible assumption
   | (extract_lets -merge -underBinder +onlyGivenNames ky; first | (refine State.Kept.cut ‹State.Kept _ _ _› (t := ky) ?_ ?_; subst ky; rotate_left; intro hx; clear_value ky) | clear_value ky)
   | with_reducible apply State.clrBit_kept
   | with_reducible apply State.noteRate_kept
   | with_reducible apply State.setBit_kept
   | with_reducible apply State.wrFld_kept
   | fail_if_no_progress (with_reducible refine State.Kept.lit ?_ rfl rfl rfl)
   | intro hx
   | (refine State.Kept.pair (by with_reducible assumption) ?_)
   | (refine State.Kept.triple (by with_reducible assumption) ?_)
   | split)

theorem State.estimated_kept {kx : Bool} {k0 : State} (s : State) (hs : k0.Kept kx s) :
    k0.Kept kx (State.estimated s) := by
  delta State.estimated; beta_reduce
  repeat' (first
   | with_reducible assumption
   | (extract_lets -merge -underBinder +onlyGivenNames ky; first | (refine State.Kept.cut ‹State.Kept _ _ _› (t := ky) ?_ ?_; subst ky; rotate_left; intro hx; clear_value ky) | (refine State.Kept.cut2 ‹State.Kept _ _ _› (t := ky) ?_ ?_; subst ky; rotate_left; intro hx; clear_value ky) | clear_value ky)
   | with_reducible apply State.draw_kept
   | fail_if_no_progress (with_reducible refine State.Kept.lit ?_ rfl rfl rfl))

theorem State.steer_kept {kx : Bool} {k0 : State} (off : Int) (s : State) (hs : k0.Kept kx s) :
    k0.Kept kx (State.steer off s) := by
  delta State.steer; beta_reduce
  repeat' (first
   | with_reducible assumption
   | (extract_lets -merge -underBinder +onlyGivenNames ky; first | (refine State.Kept.cut2 ‹State.Kept _ _ _› (t := ky) ?_ ?_; subst ky; rotate_left; intro hx; clear_value ky) | clear_value ky)
   | with_reducible apply State.draw_kept
   | with_reducible apply State.setRate_kept)

theorem State.holdover_kept {kx : Bool} {k0 : State} (s : State) (hs : k0.Kept kx s) :
    k0.Kept kx (State.holdover s) := by
  delta State.holdover; beta_reduce
  repeat' (first
   | with_reducible assumption
   | (extract_lets -merge -underBinder +onlyGivenNames ky; first | (refine State.Kept.cut ‹State.Kept _ _ _› (t := ky) ?_ ?_; subst ky; rotate_left; intro hx; clear_value ky) | clear_value ky)
   | with_reducible apply State.noteRate_kept
   | with_reducible apply State.setRate_kept
   | with_reducible apply State.setServo_kept
   | fail_if_no_progress (with_reducible refine State.Kept.lit ?_ rfl rfl rfl)
   | intro hx
   | (refine State.Kept.pair (by with_reducible assumption) ?_)
   | (refine State.Kept.triple (by with_reducible assumption) ?_)
   | split)

theorem State.freerun_kept {kx : Bool} {k0 : State} (s : State) (hs : k0.Kept kx s) :
    k0.Kept kx (State.freerun s) := by
  delta State.freerun; beta_reduce
  repeat' (first
   | with_reducible assumption
   | (extract_lets -merge -underBinder +onlyGivenNames ky; first | (refine State.Kept.cut ‹State.Kept _ _ _› (t := ky) ?_ ?_; subst ky; rotate_left; intro hx; clear_value ky) | clear_value ky)
   | with_reducible apply State.setRate_kept
   | with_reducible apply State.setServo_kept
   | fail_if_no_progress (with_reducible refine State.Kept.lit ?_ rfl rfl rfl)
   | intro hx
   | (refine State.Kept.pair (by with_reducible assumption) ?_)
   | (refine State.Kept.triple (by with_reducible assumption) ?_)
   | split)

theorem State.outliers_kept {kx : Bool} {k0 : State} (n : Nat) (s : State) (hs : k0.Kept kx s) :
    k0.Kept kx (State.outliers n s) := by
  delta State.outliers; beta_reduce
  repeat' (first
   | with_reducible assumption
   | with_reducible apply State.wr_kept)

theorem State.jumpConfirmed_kept {kx : Bool} {k0 : State} (l : List Int) (s : State) (hs : k0.Kept kx s) :
    k0.Kept kx (State.jumpConfirmed l s) := by
  delta State.jumpConfirmed; beta_reduce
  repeat' (first
   | with_reducible assumption
   | (extract_lets -merge -underBinder +onlyGivenNames ky; first | (refine State.Kept.cut ‹State.Kept _ _ _› (t := ky) ?_ ?_; subst ky; rotate_left; intro hx; clear_value ky) | clear_value ky)
   | with_reducible apply State.holdover_kept
   | with_reducible apply State.setBit_kept
   | with_reducible apply State.wr64_kept
   | fail_if_no_progress (with_reducible refine State.Kept.lit ?_ rfl rfl rfl))

theorem State.runTowards_kept {kx : Bool} {k0 : State} (counts : Bool) (f : State → State) (s : State) (hf : ∀ a0, k0.Kept kx a0 → k0.Kept kx (f a0)) (hs : k0.Kept kx s) :
    k0.Kept kx (State.runTowards counts f s) := by
  delta State.runTowards; beta_reduce
  repeat' (first
   | with_reducible assumption
   | (extract_lets -merge -underBinder +onlyGivenNames ky; first | (refine State.Kept.cut ‹State.Kept _ _ _› (t := ky) ?_ ?_; subst ky; rotate_left; intro hx; clear_value ky) | clear_value ky)
   | with_reducible apply hf
   | fail_if_no_progress (with_reducible refine State.Kept.lit ?_ rfl rfl rfl)
   | split)

theorem State.acquired_kept {kx : Bool} {k0 : State} (s : State) (hs : k0.Kept kx s) :
    k0.Kept kx (State.acquired s) := by
  delta State.acquired; beta_reduce
  repeat' (first
   | with_reducible assumption
   | (extract_lets -merge -underBinder +onlyGivenNames ky; first | (refine State.Kept.cut ‹State.Kept _ _ _› (t := ky) ?_ ?_; subst ky; rotate_left; intro hx; clear_value ky) | clear_value ky)
   | with_reducible apply State.estimated_kept
   | with_reducible apply State.setRate_kept
   | with_reducible apply State.setServo_kept
   | fail_if_no_progress (with_reducible refine State.Kept.lit ?_ rfl rfl rfl)
   | intro hx
   | (refine State.Kept.pair (by with_reducible assumption) ?_)
   | (refine State.Kept.triple (by with_reducible assumption) ?_)
   | split)

theorem State.goodSample_kept {kx : Bool} {k0 : State} (off : Int) (s : State) (hs : k0.Kept kx s) :
    k0.Kept kx (State.goodSample off s) := by
  delta State.goodSample; beta_reduce
  repeat' (first
   | with_reducible assumption
   | (extract_lets -merge -underBinder +onlyGivenNames ky; first | (refine State.Kept.cut ‹State.Kept _ _ _› (t := ky) ?_ ?_; subst ky; rotate_left; intro hx; clear_value ky) | clear_value ky)
   | with_reducible apply State.acquired_kept
   | with_reducible apply State.runTowards_kept
   | with_reducible apply State.setServo_kept
   | with_reducible apply State.steer_kept
   | fail_if_no_progress (with_reducible refine State.Kept.lit ?_ rfl rfl rfl)
   | intro hx
   | (refine State.Kept.pair (by with_reducible assumption) ?_)
   | (refine State.Kept.triple (by with_reducible assumption) ?_)
   | split)

theorem State.farSample_kept {kx : Bool} {k0 : State} (off : Int) (s : State) (hs : k0.Kept kx s) :
    k0.Kept kx (State.farSample off s) := by
  delta State.farSample; beta_reduce
  repeat' (first
   | with_reducible assumption
   | (extract_lets -merge -underBinder +onlyGivenNames ky; first | (refine State.Kept.cut ‹State.Kept _ _ _› (t := ky) ?_ ?_; subst ky; rotate_left; intro hx; clear_value ky) | clear_value ky)
   | with_reducible apply State.jumpConfirmed_kept
   | with_reducible apply State.outliers_kept
   | fail_if_no_progress (with_reducible refine State.Kept.lit ?_ rfl rfl rfl)
   | split)

theorem State.sample_kept {kx : Bool} {k0 : State} (off : Int) (s : State) (hs : k0.Kept kx s) :
    k0.Kept kx (State.sample off s) := by
  delta State.sample; beta_reduce
  repeat' (first
   | with_reducible assumption
   | (extract_lets -merge -underBinder +onlyGivenNames ky; first | (refine State.Kept.cut ‹State.Kept _ _ _› (t := ky) ?_ ?_; subst ky; rotate_left; intro hx; clear_value ky) | clear_value ky)
   | with_reducible apply State.acceptStep_kept
   | with_reducible apply State.acquired_kept
   | with_reducible apply State.farSample_kept
   | with_reducible apply State.goodSample_kept
   | with_reducible apply State.outliers_kept
   | with_reducible apply State.setServo_kept
   | with_reducible apply State.wr_kept
   | fail_if_no_progress (with_reducible refine State.Kept.lit ?_ rfl rfl rfl)
   | intro hx
   | (refine State.Kept.pair (by with_reducible assumption) ?_)
   | (refine State.Kept.triple (by with_reducible assumption) ?_)
   | split)

theorem State.masterGone_kept {kx : Bool} {k0 : State} (s : State) (hs : k0.Kept kx s) :
    k0.Kept kx (State.masterGone s) := by
  delta State.masterGone; beta_reduce
  repeat' (first
   | with_reducible assumption
   | with_reducible apply State.freerun_kept
   | with_reducible apply State.holdover_kept
   | split)

theorem State.gmCheck_kept {kx : Bool} {k0 : State} (s : State) (hs : k0.Kept kx s) :
    k0.Kept kx (State.gmCheck s) := by
  delta State.gmCheck; beta_reduce
  repeat' (first
   | with_reducible assumption
   | with_reducible apply State.clrBit_kept
   | split)

theorem State.ptpSync_kept {kx : Bool} {k0 : State} (port : Nat) (raw : Int) (s : State) (hs : k0.Kept kx s) :
    k0.Kept kx (State.ptpSync port raw s) := by
  delta State.ptpSync; beta_reduce
  repeat' (first
   | with_reducible assumption
   | with_reducible apply State.sample_kept
   | fail_if_no_progress (with_reducible refine State.Kept.lit ?_ rfl rfl rfl)
   | intro hx
   | (refine State.Kept.pair (by with_reducible assumption) ?_)
   | (refine State.Kept.triple (by with_reducible assumption) ?_)
   | split)

theorem State.ptpAnnounce_kept {kx : Bool} {k0 : State} (port id portNumber steps result : Nat) (s : State) (hs : k0.Kept kx s) :
    k0.Kept kx (State.ptpAnnounce port id portNumber steps result s) := by
  delta State.ptpAnnounce; beta_reduce
  repeat' (first
   | with_reducible assumption
   | (extract_lets -merge -underBinder +onlyGivenNames ky; first | (refine State.Kept.cut ‹State.Kept _ _ _› (t := ky) ?_ ?_; subst ky; rotate_left; intro hx; clear_value ky) | clear_value ky)
   | with_reducible apply State.clrBit_kept
   | with_reducible apply State.setBit_kept
   | with_reducible apply State.setServo_kept
   | with_reducible apply State.wr_kept
   | with_reducible apply State.wr64_kept
   | fail_if_no_progress (with_reducible refine State.Kept.lit ?_ rfl rfl rfl)
   | intro hx
   | (refine State.Kept.pair (by with_reducible assumption) ?_)
   | (refine State.Kept.triple (by with_reducible assumption) ?_)
   | split)

theorem State.noMaster_kept {kx : Bool} {k0 : State} (s : State) (hs : k0.Kept kx s) :
    k0.Kept kx (State.noMaster s) := by
  delta State.noMaster; beta_reduce
  repeat' (first
   | with_reducible assumption
   | with_reducible apply State.whenB_kept
   | with_reducible apply State.setBit_kept
   | fail_if_no_progress (with_reducible refine State.Kept.lit ?_ rfl rfl rfl))

theorem State.masterLost_kept {kx : Bool} {k0 : State} (s : State) (hs : k0.Kept kx s) :
    k0.Kept kx (State.masterLost s) := by
  delta State.masterLost; beta_reduce
  repeat' (first
   | with_reducible assumption
   | (extract_lets -merge -underBinder +onlyGivenNames ky; refine State.Kept.cut ‹State.Kept _ _ _› (t := ky) ?_ ?_; subst ky; rotate_left; intro hx; clear_value ky)
   | with_reducible apply State.masterGone_kept
   | with_reducible apply State.noMaster_kept
   | fail_if_no_progress (with_reducible refine State.Kept.lit ?_ rfl rfl rfl)
   | intro hx
   | (refine State.Kept.pair (by with_reducible assumption) ?_)
   | (refine State.Kept.triple (by with_reducible assumption) ?_)
   | split)

theorem State.ppsEdge_kept {kx : Bool} {k0 : State} (s : State) (hs : k0.Kept kx s) :
    k0.Kept kx (State.ppsEdge s) := by
  delta State.ppsEdge; beta_reduce
  repeat' (first
   | with_reducible assumption
   | (extract_lets -merge -underBinder +onlyGivenNames ky; first | (refine State.Kept.cut ‹State.Kept _ _ _› (t := ky) ?_ ?_; subst ky; rotate_left; intro hx; clear_value ky) | clear_value ky)
   | with_reducible apply State.clrBit_kept
   | with_reducible apply State.sample_kept
   | with_reducible apply State.wr64_kept
   | split)

theorem State.ppsLost_kept {kx : Bool} {k0 : State} (s : State) (hs : k0.Kept kx s) :
    k0.Kept kx (State.ppsLost s) := by
  delta State.ppsLost; beta_reduce
  repeat' (first
   | with_reducible assumption
   | with_reducible apply State.masterGone_kept
   | with_reducible apply State.setBit_kept
   | split)

theorem State.holdoverExpired_kept {kx : Bool} {k0 : State} (s : State) (hs : k0.Kept kx s) :
    k0.Kept kx (State.holdoverExpired s) := by
  delta State.holdoverExpired; beta_reduce
  repeat' (first
   | with_reducible assumption
   | (extract_lets -merge -underBinder +onlyGivenNames ky; refine State.Kept.cut ‹State.Kept _ _ _› (t := ky) ?_ ?_; subst ky; rotate_left; intro hx; clear_value ky)
   | with_reducible apply State.passTo_kept
   | with_reducible apply State.report_kept
   | with_reducible apply State.setBit_kept
   | split)

theorem State.stepAccept_kept {kx : Bool} {k0 : State} (agent v : Nat) (s : State) (hs : k0.Kept kx s) :
    k0.Kept kx (State.stepAccept agent v s) := by
  delta State.stepAccept; beta_reduce
  repeat' (first
   | with_reducible assumption
   | (extract_lets -merge -underBinder +onlyGivenNames ky; first | (refine State.Kept.cut ‹State.Kept _ _ _› (t := ky) ?_ ?_; subst ky; rotate_left; intro hx; clear_value ky) | clear_value ky)
   | with_reducible apply State.acceptStep_kept
   | with_reducible apply State.setRate_kept
   | with_reducible apply State.setServo_kept
   | with_reducible apply State.usageReg_kept
   | fail_if_no_progress (with_reducible refine State.Kept.lit ?_ rfl rfl rfl)
   | split)

theorem State.adjCommit_kept {kx : Bool} {k0 : State} (agent v : Nat) (s : State) (hs : k0.Kept kx s) :
    k0.Kept kx (State.adjCommit agent v s) := by
  delta State.adjCommit; beta_reduce
  repeat' (first
   | with_reducible assumption
   | (extract_lets -merge -underBinder +onlyGivenNames ky; first | (refine State.Kept.cut ‹State.Kept _ _ _› (t := ky) ?_ ?_; subst ky; rotate_left; intro hx; clear_value ky) | clear_value ky)
   | with_reducible apply State.acceptStep_kept
   | with_reducible apply State.setServo_kept
   | with_reducible apply State.usageReg_kept
   | split)

theorem State.rateCommit_kept {kx : Bool} {k0 : State} (agent v : Nat) (s : State) (hs : k0.Kept kx s) :
    k0.Kept kx (State.rateCommit agent v s) := by
  delta State.rateCommit; beta_reduce
  repeat' (first
   | with_reducible assumption
   | (extract_lets -merge -underBinder +onlyGivenNames ky; clear_value ky)
   | with_reducible apply State.committed_kept
   | with_reducible apply State.runtimeChanged_kept
   | with_reducible apply State.setRate_kept
   | with_reducible apply State.usageReg_kept
   | fail_if_no_progress (with_reducible refine State.Kept.lit ?_ rfl rfl rfl)
   | intro hx
   | (refine State.Kept.pair (by with_reducible assumption) ?_)
   | (refine State.Kept.triple (by with_reducible assumption) ?_)
   | split)

theorem State.tideCtrlWrite_kept {kx : Bool} {k0 : State} (agent v : Nat) (s : State) (hs : k0.Kept kx s) :
    k0.Kept kx (State.tideCtrlWrite agent v s) := by
  delta State.tideCtrlWrite; beta_reduce
  repeat' (first
   | with_reducible assumption
   | (extract_lets -merge -underBinder +onlyGivenNames ky; first | (refine State.Kept.cut ‹State.Kept _ _ _› (t := ky) ?_ ?_; subst ky; rotate_left; intro hx; clear_value ky) | clear_value ky)
   | with_reducible apply State.clrBit_kept
   | with_reducible apply State.freerun_kept
   | with_reducible apply State.gmCheck_kept
   | with_reducible apply State.usageReg_kept
   | with_reducible apply State.wr_kept
   | fail_if_no_progress (with_reducible refine State.Kept.lit ?_ rfl rfl rfl)
   | split)

theorem State.refLoss_kept {kx : Bool} {k0 : State} (s : State) (hs : k0.Kept kx s) :
    k0.Kept kx (State.refLoss s) := by
  delta State.refLoss; beta_reduce
  repeat' (first
   | with_reducible assumption
   | (extract_lets -merge -underBinder +onlyGivenNames ky; first | (refine State.Kept.cut ‹State.Kept _ _ _› (t := ky) ?_ ?_; subst ky; rotate_left; intro hx; clear_value ky) | clear_value ky)
   | with_reducible apply State.report_kept
   | with_reducible apply State.setBit_kept
   | fail_if_no_progress (with_reducible refine State.Kept.lit ?_ rfl rfl rfl)
   | split)

theorem State.refReturn_kept {kx : Bool} {k0 : State} (s : State) (hs : k0.Kept kx s) :
    k0.Kept kx (State.refReturn s) := by
  delta State.refReturn; beta_reduce
  repeat' (first
   | with_reducible assumption
   | (extract_lets -merge -underBinder +onlyGivenNames ky; first | (refine State.Kept.cut ‹State.Kept _ _ _› (t := ky) ?_ ?_; subst ky; rotate_left; intro hx; clear_value ky) | clear_value ky)
   | with_reducible apply State.clrBit_kept
   | with_reducible apply State.setBit_kept
   | fail_if_no_progress (with_reducible refine State.Kept.lit ?_ rfl rfl rfl)
   | split)

theorem State.tideOutFall_kept {kx : Bool} {k0 : State} (s : State) (hs : k0.Kept kx s) :
    k0.Kept kx (State.tideOutFall s) := by
  delta State.tideOutFall; beta_reduce
  repeat' (first
   | with_reducible assumption
   | (extract_lets -merge -underBinder +onlyGivenNames ky; first | (refine State.Kept.cut ‹State.Kept _ _ _› (t := ky) ?_ ?_; subst ky; rotate_left; intro hx; clear_value ky) | clear_value ky)
   | with_reducible apply State.passToNs_kept
   | fail_if_no_progress (with_reducible refine State.Kept.lit ?_ rfl rfl rfl)
   | split)

theorem State.ppsRise_kept {kx : Bool} {k0 : State} (s : State) (hs : k0.Kept kx s) :
    k0.Kept kx (State.ppsRise s) := by
  delta State.ppsRise; beta_reduce
  repeat' (first
   | with_reducible assumption
   | (extract_lets -merge -underBinder +onlyGivenNames ky; first | (refine State.Kept.cut ‹State.Kept _ _ _› (t := ky) ?_ ?_; subst ky; rotate_left; intro hx; clear_value ky) | clear_value ky)
   | with_reducible apply State.passToNs_kept
   | fail_if_no_progress (with_reducible refine State.Kept.lit ?_ rfl rfl rfl)
   | split)

theorem State.ppsFall_kept {kx : Bool} {k0 : State} (s : State) (hs : k0.Kept kx s) :
    k0.Kept kx (State.ppsFall s) := by
  delta State.ppsFall; beta_reduce
  repeat' (first
   | with_reducible assumption
   | (extract_lets -merge -underBinder +onlyGivenNames ky; first | (refine State.Kept.cut ‹State.Kept _ _ _› (t := ky) ?_ ?_; subst ky; rotate_left; intro hx; clear_value ky) | clear_value ky)
   | with_reducible apply State.passToNs_kept
   | fail_if_no_progress (with_reducible refine State.Kept.lit ?_ rfl rfl rfl)
   | split)

theorem State.ptpTx_kept {kx : Bool} {k0 : State} (kind port : Nat) (s : State) (hs : k0.Kept kx s) :
    k0.Kept kx (State.ptpTx kind port s) := by
  delta State.ptpTx; beta_reduce
  repeat' (first
   | with_reducible assumption
   | (extract_lets -merge -underBinder +onlyGivenNames ky; clear_value ky)
   | with_reducible apply State.emit_kept
   | fail_if_no_progress (with_reducible refine State.Kept.lit ?_ rfl rfl rfl)
   | intro hx
   | (refine State.Kept.pair (by with_reducible assumption) ?_)
   | (refine State.Kept.triple (by with_reducible assumption) ?_)
   | split
   | dsimp only)

theorem State.ptpDelayRx_kept {kx : Bool} {k0 : State} (kind port delay : Nat) (s : State) (hs : k0.Kept kx s) :
    k0.Kept kx (State.ptpDelayRx kind port delay s) := by
  delta State.ptpDelayRx; beta_reduce
  repeat' (first
   | with_reducible assumption
   | (extract_lets -merge -underBinder +onlyGivenNames ky; clear_value ky)
   | with_reducible apply State.draw_kept
   | with_reducible apply State.emit_kept
   | with_reducible apply State.wr_kept
   | fail_if_no_progress (with_reducible refine State.Kept.lit ?_ rfl rfl rfl)
   | intro hx
   | (refine State.Kept.pair (by with_reducible assumption) ?_)
   | (refine State.Kept.triple (by with_reducible assumption) ?_)
   | split
   | dsimp only)

end Sys2Proof.Machine
end

