-- ==== Sys2Proof/Laws/KeptTideStart.lean ====
section
/-! SUPPORT. What the operations of Machine/TideStart.lean keep (Laws/Kept.lean), one lemma each. -/

namespace Sys2Proof.Machine

theorem State.latchCounts_kept {kx : Bool} {k0 : State} (s : State) (hs : k0.Kept kx s) :
    k0.Kept kx (State.latchCounts s) := by
  delta State.latchCounts; beta_reduce
  repeat' (first
   | with_reducible assumption
   | (extract_lets -merge -underBinder +onlyGivenNames ky; first | (refine State.Kept.cut ‹State.Kept _ _ _› (t := ky) ?_ ?_; subst ky; rotate_left; intro hx; clear_value ky) | clear_value ky)
   | with_reducible apply State.each_kept
   | with_reducible apply State.wr_kept
   | fail_if_no_progress (with_reducible refine State.Kept.lit ?_ rfl rfl rfl)
   | intro hx)

theorem State.latchPools_kept {kx : Bool} {k0 : State} (s : State) (hs : k0.Kept kx s) :
    k0.Kept kx (State.latchPools s) := by
  delta State.latchPools; beta_reduce
  repeat' (first
   | with_reducible assumption
   | (extract_lets -merge -underBinder +onlyGivenNames ky; clear_value ky)
   | with_reducible apply State.each_kept
   | with_reducible apply State.setPool_kept
   | with_reducible apply State.wr_kept
   | intro hx)

theorem State.latchPorts_kept {kx : Bool} {k0 : State} (s : State) (hs : k0.Kept kx s) :
    k0.Kept kx (State.latchPorts s) := by
  delta State.latchPorts; beta_reduce
  repeat' (first
   | with_reducible assumption
   | (extract_lets -merge -underBinder +onlyGivenNames ky; refine State.Kept.cut2 ‹State.Kept _ _ _› (t := ky) ?_ ?_; subst ky; rotate_left; intro hx; clear_value ky)
   | with_reducible apply State.each_kept
   | with_reducible apply State.draw_kept
   | with_reducible apply State.wr_kept
   | intro hx)

theorem State.applyStaged_kept {kx : Bool} {k0 : State} (first : Bool) (t t0 : Nat) (o v : Nat) (s : State) (hs : k0.Kept kx s) :
    k0.Kept kx (State.applyStaged first t t0 o v s) := by
  delta State.applyStaged; beta_reduce
  repeat' (first
   | with_reducible assumption
   | (extract_lets -merge -underBinder +onlyGivenNames ky; clear_value ky)
   | with_reducible apply State.gatePend_kept
   | with_reducible apply State.setDisp_kept
   | with_reducible apply State.wr_kept
   | fail_if_no_progress (with_reducible refine State.Kept.lit ?_ rfl rfl rfl)
   | split)

theorem State.applyAll_kept {kx : Bool} {k0 : State} (first : Bool) (t t0 : Nat) (s : State) (hs : k0.Kept kx s) :
    k0.Kept kx (State.applyAll first t t0 s) := by
  delta State.applyAll; beta_reduce
  repeat' (first
   | with_reducible assumption
   | (extract_lets -merge -underBinder +onlyGivenNames ky; clear_value ky)
   | with_reducible apply State.each_kept
   | with_reducible apply State.applyStaged_kept
   | fail_if_no_progress (with_reducible refine State.Kept.lit ?_ rfl rfl rfl)
   | intro hx
   | split)

theorem State.lateJob_kept {kx : Bool} {k0 : State} (late : List (Nat × PicOut)) (t u : Nat) (s : State) (hs : k0.Kept kx s) :
    k0.Kept kx (State.lateJob late t u s) := by
  delta State.lateJob; beta_reduce
  repeat' (first
   | with_reducible assumption
   | with_reducible apply State.lateCompose_kept
   | with_reducible apply State.lateEnc_kept
   | with_reducible apply State.lateRec_kept
   | with_reducible apply State.lateTally_kept
   | with_reducible apply State.setJob_kept
   | with_reducible apply State.txDeadline_kept
   | fail_if_no_progress (with_reducible refine State.Kept.lit ?_ rfl rfl rfl)
   | intro hx
   | (refine State.Kept.pair (by with_reducible assumption) ?_)
   | (refine State.Kept.triple (by with_reducible assumption) ?_)
   | split)

theorem State.bookingsTide_kept {kx : Bool} {k0 : State} (s : State) (hs : k0.Kept kx s) :
    k0.Kept kx (State.bookingsTide s) := by
  delta State.bookingsTide; beta_reduce
  repeat' (first
   | with_reducible assumption
   | (extract_lets -merge -underBinder +onlyGivenNames ky; refine State.Kept.cut ‹State.Kept _ _ _› (t := ky) ?_ ?_; subst ky; rotate_left; intro hx; clear_value ky)
   | with_reducible apply State.each_kept
   | with_reducible apply State.bind_kept
   | with_reducible apply State.unbook_kept
   | intro hx)

theorem State.autostartAll_kept {kx : Bool} {k0 : State} (s : State) (hs : k0.Kept kx s) :
    k0.Kept kx (State.autostartAll s) := by
  delta State.autostartAll; beta_reduce
  repeat' (first
   | with_reducible assumption
   | (extract_lets -merge -underBinder +onlyGivenNames ky; clear_value ky)
   | with_reducible apply State.each_kept
   | with_reducible apply State.startJob_kept
   | fail_if_no_progress (with_reducible refine State.Kept.lit ?_ rfl rfl rfl)
   | intro hx
   | split)

theorem State.applyStep_kept {kx : Bool} {k0 : State} (s : State) (hs : k0.Kept kx s) :
    k0.Kept kx (State.applyStep s) := by
  delta State.applyStep; beta_reduce
  repeat' (first
   | with_reducible assumption
   | (extract_lets -merge -underBinder +onlyGivenNames ky; first | (refine State.Kept.cut ‹State.Kept _ _ _› (t := ky) ?_ ?_; subst ky; rotate_left; intro hx; clear_value ky) | clear_value ky)
   | with_reducible apply State.clrBit_kept
   | with_reducible apply State.stepBy_kept
   | fail_if_no_progress (with_reducible refine State.Kept.lit ?_ rfl rfl rfl)
   | split)

theorem State.tideActions_kept {kx : Bool} {k0 : State} (late : List (Nat × PicOut)) (t : Nat) (s : State) (hs : k0.Kept kx s) :
    k0.Kept kx (State.tideActions late t s) := by
  delta State.tideActions; beta_reduce
  repeat' (first
   | with_reducible assumption
   | (extract_lets -merge -underBinder +onlyGivenNames ky; first | (refine State.Kept.cut ‹State.Kept _ _ _› (t := ky) ?_ ?_; subst ky; rotate_left; intro hx; clear_value ky) | clear_value ky)
   | with_reducible apply State.each_kept
   | with_reducible apply State.applyAll_kept
   | with_reducible apply State.autostartAll_kept
   | with_reducible apply State.bookingsTide_kept
   | with_reducible apply State.countLost_kept
   | with_reducible apply State.deepGate_kept
   | with_reducible apply State.dispatch_kept
   | with_reducible apply State.egressConds_kept
   | with_reducible apply State.feedTide_kept
   | with_reducible apply State.flipsDone_kept
   | with_reducible apply State.followLayouts_kept
   | with_reducible apply State.freePics_kept
   | with_reducible apply State.freeShown_kept
   | with_reducible apply State.governor_kept
   | with_reducible apply State.latchCounts_kept
   | with_reducible apply State.latchPools_kept
   | with_reducible apply State.latchPorts_kept
   | with_reducible apply State.lateJob_kept
   | with_reducible apply State.loadSlate_kept
   | with_reducible apply State.ltTide_kept
   | with_reducible apply State.memTide_kept
   | with_reducible apply State.postComposes_kept
   | with_reducible apply State.refillAtTide_kept
   | with_reducible apply State.sampleQueues_kept
   | with_reducible apply State.setBit_kept
   | with_reducible apply State.setCeiling_kept
   | with_reducible apply State.setQf_kept
   | with_reducible apply State.sndTide_kept
   | with_reducible apply State.stormsDone_kept
   | with_reducible apply State.ucwTide_kept
   | with_reducible apply State.windowAsk_kept
   | with_reducible apply State.wr64_kept
   | with_reducible apply State.wrFld_kept
   | fail_if_no_progress (with_reducible refine State.Kept.lit ?_ rfl rfl rfl)
   | intro hx
   | (refine State.Kept.pair (by with_reducible assumption) ?_)
   | (refine State.Kept.triple (by with_reducible assumption) ?_)
   | split)

theorem State.tideStart_kept {kx : Bool} {k0 : State} (late : List (Nat × PicOut)) (s : State) (hs : k0.Kept kx s) :
    k0.Kept kx (State.tideStart late s) := by
  delta State.tideStart; beta_reduce
  repeat' (first
   | with_reducible assumption
   | (extract_lets -merge -underBinder +onlyGivenNames ky; first | (refine State.Kept.cut ‹State.Kept _ _ _› (t := ky) ?_ ?_; subst ky; rotate_left; intro hx; clear_value ky) | clear_value ky)
   | with_reducible apply State.applyStep_kept
   | with_reducible apply State.passToNs_kept
   | with_reducible apply State.tideActions_kept
   | split)

end Sys2Proof.Machine
end

