-- ==== Sys2Proof/Laws/KeptRegView.lean ====
section
/-! SUPPORT. What the operations of Machine/RegView.lean keep (Laws/Kept.lean), one lemma each. -/

namespace Sys2Proof.Machine

theorem State.afterRead_kept {kx : Bool} {k0 : State} (o v : Nat) (acc : Acc) (s : State) (hs : k0.Kept kx s) :
    k0.Kept kx (State.afterRead o v acc s) := by
  delta State.afterRead; beta_reduce
  repeat' (first
   | with_reducible assumption
   | (extract_lets -merge -underBinder +onlyGivenNames ky; first | (refine State.Kept.cut ‹State.Kept _ _ _› (t := ky) ?_ ?_; subst ky; rotate_left; intro hx; clear_value ky) | clear_value ky)
   | with_reducible apply State.setGate_kept
   | with_reducible apply State.wr_kept
   | fail_if_no_progress (with_reducible refine State.Kept.lit ?_ rfl rfl rfl)
   | split)

theorem State.beforeRead_kept {kx : Bool} {k0 : State} (o : Nat) (s : State) (hs : k0.Kept kx s) :
    k0.Kept kx (State.beforeRead o s) := by
  delta State.beforeRead; beta_reduce
  repeat' (first
   | with_reducible assumption
   | with_reducible apply State.sndRun_kept
   | split)

theorem State.readMirror_kept {kx : Bool} {k0 : State} (agent o : Nat) (s : State) (hs : k0.Kept kx s) :
    k0.Kept kx (State.readMirror agent o s).2 := by
  delta State.readMirror; beta_reduce
  repeat' (first
   | with_reducible assumption
   | (extract_lets -merge -underBinder +onlyGivenNames ky; clear_value ky)
   | fail_if_no_progress (with_reducible refine State.Kept.lit ?_ rfl rfl rfl)
   | intro hx
   | (refine State.Kept.pair (by with_reducible assumption) ?_)
   | (refine State.Kept.triple (by with_reducible assumption) ?_)
   | split)

theorem State.regRead_kept {kx : Bool} {k0 : State} (agent o : Nat) (s : State) (hs : k0.Kept kx s) :
    k0.Kept kx (State.regRead agent o s).2 := by
  delta State.regRead; beta_reduce
  repeat' (first
   | with_reducible assumption
   | (extract_lets -merge -underBinder +onlyGivenNames ky; first | (refine State.Kept.cut ‹State.Kept _ _ _› (t := ky) ?_ ?_; subst ky; rotate_left; intro hx; clear_value ky) | clear_value ky)
   | with_reducible apply State.afterRead_kept
   | with_reducible apply State.beforeRead_kept
   | with_reducible apply State.feedData_kept
   | with_reducible apply State.readMirror_kept
   | with_reducible apply State.usageReg_kept
   | fail_if_no_progress (with_reducible refine State.Kept.lit ?_ rfl rfl rfl)
   | intro hx
   | (refine State.Kept.pair (by with_reducible assumption) ?_)
   | (refine State.Kept.triple (by with_reducible assumption) ?_)
   | split)

theorem State.readAny_kept {kx : Bool} {k0 : State} (agent o : Nat) (s : State) (hs : k0.Kept kx s) :
    k0.Kept kx (State.readAny agent o s).2 := by
  delta State.readAny; beta_reduce
  repeat' (first
   | with_reducible assumption
   | (extract_lets -merge -underBinder +onlyGivenNames ky; refine State.Kept.cut ‹State.Kept _ _ _› (t := ky) ?_ ?_; subst ky; rotate_left; intro hx; clear_value ky)
   | with_reducible apply bellClaim_kept
   | with_reducible apply State.regRead_kept
   | fail_if_no_progress (with_reducible refine State.Kept.lit ?_ rfl rfl rfl)
   | split)

theorem State.readCmd_kept {kx : Bool} {k0 : State} (agent o : Nat) (s : State) (hs : k0.Kept kx s) :
    k0.Kept kx (State.readCmd agent o s) := by
  delta State.readCmd; beta_reduce
  repeat' (first
   | with_reducible assumption
   | (extract_lets -merge -underBinder +onlyGivenNames ky; refine State.Kept.cut2 ‹State.Kept _ _ _› (t := ky) ?_ ?_; subst ky; rotate_left; intro hx; clear_value ky)
   | with_reducible apply bellClaim_kept
   | with_reducible apply State.emit_kept
   | with_reducible apply State.regRead_kept
   | with_reducible apply State.usageReg_kept
   | split)

end Sys2Proof.Machine
end

