-- ==== Sys2Proof/Laws/KeptRegWrite.lean ====
section
/-! SUPPORT. What the operations of Machine/RegWrite.lean keep (Laws/Kept.lean), one lemma each. -/

namespace Sys2Proof.Machine

theorem State.storeRw_kept {kx : Bool} {k0 : State} (o v : Nat) (s : State) (hs : k0.Kept kx s) :
    k0.Kept kx (State.storeRw o v s) := by
  delta State.storeRw; beta_reduce
  repeat' (first
   | with_reducible assumption
   | (extract_lets -merge -underBinder +onlyGivenNames ky; first | (refine State.Kept.cut ‹State.Kept _ _ _› (t := ky) ?_ ?_; subst ky; rotate_left; intro hx; clear_value ky) | clear_value ky)
   | with_reducible apply State.dispatch_kept
   | with_reducible apply State.feedShow_kept
   | with_reducible apply State.gmCheck_kept
   | with_reducible apply State.linkDown_kept
   | with_reducible apply State.msixUnmask_kept
   | with_reducible apply State.settle_kept
   | with_reducible apply State.wr_kept
   | fail_if_no_progress (with_reducible refine State.Kept.lit ?_ rfl rfl rfl)
   | intro hx
   | (refine State.Kept.pair (by with_reducible assumption) ?_)
   | (refine State.Kept.triple (by with_reducible assumption) ?_)
   | split)

theorem State.opWriteD_kept {kx : Bool} {k0 : State} (agent o v : Nat) (s : State) (hs : k0.Kept kx s) :
    k0.Kept kx ((State.opWrite agent o v s).getD s) := by
  delta State.opWrite; beta_reduce
  repeat' (first
   | with_reducible apply State.Kept.getD_some
   | with_reducible apply State.Kept.getD_none
   | with_reducible assumption
   | (extract_lets -merge -underBinder +onlyGivenNames ky; first | (refine State.Kept.cut2 ‹State.Kept _ _ _› (t := ky) ?_ ?_; subst ky; rotate_left; intro hx; clear_value ky) | (have hk : ky.logWr = ky.logWr := rfl; clear hk; subst ky) | clear_value ky)
   | with_reducible apply bellComplete_kept
   | with_reducible apply State.bellDiscard_kept
   | with_reducible apply bellSrcCfgWrite_kept
   | with_reducible apply bellSwset_kept
   | with_reducible apply State.bookCmd_kept
   | with_reducible apply State.captureWrite_kept
   | with_reducible apply State.clrBit_kept
   | with_reducible apply State.coefReset_kept
   | with_reducible apply State.feedShow_kept
   | with_reducible apply State.fenceClear_kept
   | with_reducible apply State.grpMemberWrite_kept
   | with_reducible apply State.grpWrite_kept
   | with_reducible apply State.layoutFlip_kept
   | with_reducible apply State.ltFlagsSet_kept
   | with_reducible apply State.migForce_kept
   | with_reducible apply State.poolCfgWrite_kept
   | with_reducible apply State.poolCmd_kept
   | with_reducible apply State.qcCmd_kept
   | with_reducible apply State.qcDisable_kept
   | with_reducible apply State.qcEnable_kept
   | with_reducible apply State.qcRead_kept
   | with_reducible apply State.qcWrite_kept
   | with_reducible apply State.safeForce_kept
   | with_reducible apply State.sampleCfgWrite_kept
   | with_reducible apply State.sndSelWrite_kept
   | with_reducible apply State.spadCtrlWrite_kept
   | with_reducible apply State.stepAccept_kept
   | with_reducible apply State.tideCtrlWrite_kept
   | with_reducible apply State.ucwRearm_kept
   | with_reducible apply State.unitCtrl_kept
   | with_reducible apply State.unitPwrWrite_kept
   | with_reducible apply State.usageReg_kept
   | with_reducible apply State.watchAck_kept
   | with_reducible apply State.watermark_kept
   | with_reducible apply State.wr_kept
   | fail_if_no_progress (with_reducible refine State.Kept.lit ?_ rfl rfl rfl)
   | split)

theorem State.opWrite_kept {kx : Bool} {k0 : State} {agent o v : Nat} {s t : State} (hs : k0.Kept kx s)
    (h : State.opWrite agent o v s = some t) : k0.Kept kx t := by
  have := State.opWriteD_kept agent o v s hs
  rw [h] at this
  exact this

theorem State.holdLow_kept {kx : Bool} {k0 : State} (o v : Nat) (s : State) (hs : k0.Kept kx s) :
    k0.Kept kx (State.holdLow o v s) := by
  delta State.holdLow; beta_reduce
  repeat' (first
   | with_reducible assumption
   | fail_if_no_progress (with_reducible refine State.Kept.lit ?_ rfl rfl rfl))

theorem State.commit_kept {kx : Bool} {k0 : State} (img : Bool) (agent o hi : Nat) (s : State) (hs : k0.Kept kx s) :
    k0.Kept kx (State.commit img agent o hi s) := by
  delta State.commit; beta_reduce
  repeat' (first
   | with_reducible assumption
   | (extract_lets -merge -underBinder +onlyGivenNames ky; first | (refine State.Kept.cut ‹State.Kept _ _ _› (t := ky) ?_ ?_; subst ky; rotate_left; intro hx; clear_value ky) | clear_value ky)
   | with_reducible apply State.adjCommit_kept
   | with_reducible apply State.committed_kept
   | with_reducible apply State.dropSnaps_kept
   | with_reducible apply State.rateCommit_kept
   | with_reducible apply State.runtimeChanged_kept
   | with_reducible apply State.setRate_kept
   | with_reducible apply State.usageReg_kept
   | with_reducible apply State.wr_kept
   | fail_if_no_progress (with_reducible refine State.Kept.lit ?_ rfl rfl rfl)
   | intro hx
   | (refine State.Kept.pair (by with_reducible assumption) ?_)
   | (refine State.Kept.triple (by with_reducible assumption) ?_)
   | split)

theorem State.writeReg_kept {kx : Bool} {k0 : State} (img : Bool) (agent o v : Nat) (s : State) (hs : k0.Kept kx s) :
    k0.Kept kx (State.writeReg img agent o v s) := by
  delta State.writeReg; beta_reduce
  repeat' (first
   | with_reducible assumption
   | (extract_lets -merge -underBinder +onlyGivenNames ky; clear_value ky)
   | with_reducible apply State.commit_kept
   | with_reducible apply State.holdLow_kept
   | with_reducible apply State.runtimeChanged_kept
   | with_reducible apply State.sndSelWrite_kept
   | with_reducible apply State.stage_kept
   | with_reducible apply State.storeRw_kept
   | with_reducible apply State.usageReg_kept
   | with_reducible apply State.wr_kept
   | (with_reducible apply State.opWriteD_kept)
   | (exact State.opWrite_kept (by with_reducible assumption) (by with_reducible assumption))
   | fail_if_no_progress (with_reducible refine State.Kept.lit ?_ rfl rfl rfl)
   | intro hx
   | (refine State.Kept.pair (by with_reducible assumption) ?_)
   | (refine State.Kept.triple (by with_reducible assumption) ?_)
   | split)

theorem State.regWrite_kept {kx : Bool} {k0 : State} (agent o v : Nat) (s : State) (hs : k0.Kept kx s) :
    k0.Kept kx (State.regWrite agent o v s) := by
  delta State.regWrite; beta_reduce
  repeat' (first
   | with_reducible assumption
   | with_reducible apply State.writeReg_kept)

theorem State.refuseAccess_kept {kx : Bool} {k0 : State} (agent o : Nat) (isWrite : Bool) (s : State) (hs : k0.Kept kx s) :
    k0.Kept kx (State.refuseAccess agent o isWrite s) := by
  delta State.refuseAccess; beta_reduce
  repeat' (first
   | with_reducible assumption
   | (extract_lets -merge -underBinder +onlyGivenNames ky; refine State.Kept.cut ‹State.Kept _ _ _› (t := ky) ?_ ?_; subst ky; rotate_left; intro hx; clear_value ky)
   | with_reducible apply State.emit_kept
   | with_reducible apply State.usageReg_kept
   | split)

end Sys2Proof.Machine
end

