-- ==== Sys2Proof/Laws/KeptBursts.lean ====
section
/-! SUPPORT. What the operations of Machine/Bursts.lean keep (Laws/Kept.lean), one lemma each. -/

namespace Sys2Proof.Machine

theorem State.ltMove_kept {kx : Bool} {k0 : State} (u : Nat) (s : State) (hs : k0.Kept kx s) :
    k0.Kept kx (State.ltMove u s) := by
  delta State.ltMove; beta_reduce
  repeat' (first
   | with_reducible assumption
   | (extract_lets -merge -underBinder +onlyGivenNames ky; clear_value ky)
   | with_reducible apply State.ltHalt_kept
   | with_reducible apply State.modLt_kept
   | with_reducible apply State.wr_kept
   | fail_if_no_progress (with_reducible refine State.Kept.lit ?_ rfl rfl rfl)
   | intro hx
   | (refine State.Kept.pair (by with_reducible assumption) ?_)
   | (refine State.Kept.triple (by with_reducible assumption) ?_)
   | split)

theorem State.spadRead_kept {kx : Bool} {k0 : State} (g a : Nat) (c0 : Nat) (s : State) (hs : k0.Kept kx s) :
    k0.Kept kx (State.spadRead g a c0 s).2 := by
  induction c0 generalizing  g a  s with
  | zero =>
    unfold State.spadRead
    repeat' (first
     | with_reducible assumption)
  | succ n ih =>
    unfold State.spadRead
    repeat' (first
     | with_reducible assumption
     | (extract_lets -merge -underBinder +onlyGivenNames ky; refine State.Kept.cut2 ‹State.Kept _ _ _› (t := ky) ?_ ?_; subst ky; rotate_left; intro hx; clear_value ky)
     | with_reducible apply ih
     | with_reducible apply State.draw_kept
     | split)

theorem State.spadWrite_kept {kx : Bool} {k0 : State} (g a : Nat) (bs : List Nat) (s : State) (hs : k0.Kept kx s) :
    k0.Kept kx (State.spadWrite g a bs s) := by
  delta State.spadWrite; beta_reduce
  repeat' (first
   | with_reducible assumption
   | fail_if_no_progress (with_reducible refine State.Kept.lit ?_ rfl rfl rfl))

theorem State.readBeats_kept {kx : Bool} {k0 : State} (u : Nat) (x : Side) (p n : Nat) (data : List Nat) (s : State)
    (hs : k0.Kept kx s) : k0.Kept kx (State.readBeats u x p n data s).2 := by
  unfold State.readBeats
  dsimp only
  split
  · exact State.spadRead_kept _ _ _ _ (State.bankAccess_kept _ _ _ hs)
  · split
    · with_reducible exact State.Kept.mk2 (State.regRead_kept _ _ _ hs)
    · split
      · exact State.sndCount_kept _ _ _ _ hs
      · exact State.outboundErr_kept _ (State.sndCount_kept _ _ _ _ hs)
    · split
      · exact State.Kept.triple (by assumption) (State.readMem_kept _ _ _ _ hs)
      · exact State.Kept.triple (by assumption) (State.readMem_kept _ _ _ _ hs)
      · exact State.Kept.triple (by assumption) (State.readMem_kept _ _ _ _ hs)

theorem State.writeBeats_kept {kx : Bool} {k0 : State} (u : Nat) (x : Side) (p : Nat) (bs : List Nat) (s : State) (hs : k0.Kept kx s) :
    k0.Kept kx (State.writeBeats u x p bs s).2 := by
  delta State.writeBeats; beta_reduce
  repeat' (first
   | with_reducible assumption
   | (extract_lets -merge -underBinder +onlyGivenNames ky; clear_value ky)
   | with_reducible apply State.each_kept
   | with_reducible apply State.bankAccess_kept
   | with_reducible apply State.hostWrite_kept
   | with_reducible apply State.outboundErr_kept
   | with_reducible apply State.regWrite_kept
   | with_reducible apply State.spadWrite_kept
   | with_reducible apply State.writeMem_kept
   | intro hx
   | (refine State.Kept.pair (by with_reducible assumption) ?_)
   | split)

theorem State.freeBytes_kept {kx : Bool} {k0 : State} (a b : Side) (len : Nat) (c0 : List Nat) (c1 : Nat) (s : State) (hs : k0.Kept kx s) :
    k0.Kept kx (State.freeBytes a b len c0 c1 s).2 := by
  induction c0 generalizing  a b len c1 s with
  | nil =>
    unfold State.freeBytes
    repeat' (first
     | with_reducible assumption)
  | cons a l ih =>
    unfold State.freeBytes
    repeat' (first
     | with_reducible assumption
     | (extract_lets -merge -underBinder +onlyGivenNames ky; refine State.Kept.cut2 ‹State.Kept _ _ _› (t := ky) ?_ ?_; subst ky; rotate_left; intro hx; clear_value ky)
     | with_reducible apply ih
     | with_reducible apply State.draw_kept
     | split)

theorem State.ltMoved_kept {kx : Bool} {k0 : State} (u n : Nat) (s : State) (hs : k0.Kept kx s) :
    k0.Kept kx (State.ltMoved u n s) := by
  delta State.ltMoved; beta_reduce
  repeat' (first
   | with_reducible assumption
   | (extract_lets -merge -underBinder +onlyGivenNames ky; first | (refine State.Kept.cut ‹State.Kept _ _ _› (t := ky) ?_ ?_; subst ky; rotate_left; intro hx; clear_value ky) | clear_value ky)
   | with_reducible apply State.bump_kept
   | with_reducible apply State.modLt_kept
   | with_reducible apply State.sndCount_kept
   | fail_if_no_progress (with_reducible refine State.Kept.lit ?_ rfl rfl rfl))

theorem State.ltFetched_kept {kx : Bool} {k0 : State} (u : Nat) (bs : List Nat) (s : State) (hs : k0.Kept kx s) :
    k0.Kept kx (State.ltFetched u bs s) := by
  delta State.ltFetched; beta_reduce
  repeat' (first
   | with_reducible assumption
   | with_reducible apply State.modLt_kept)

theorem State.ltRun_kept {kx : Bool} {k0 : State} (u p : Nat) (s : State) (hs : k0.Kept kx s) :
    k0.Kept kx (State.ltRun u p s) := by
  delta State.ltRun; beta_reduce
  repeat' (first
   | with_reducible assumption
   | (extract_lets -merge -underBinder +onlyGivenNames ky; clear_value ky)
   | with_reducible apply State.whenB_kept
   | with_reducible apply State.ltMoved_kept
   | with_reducible apply State.setBit_kept
   | with_reducible apply State.setLt_kept
   | fail_if_no_progress (with_reducible refine State.Kept.lit ?_ rfl rfl rfl)
   | intro hx
   | (refine State.Kept.pair (by with_reducible assumption) ?_)
   | (refine State.Kept.triple (by with_reducible assumption) ?_)
   | split)

theorem State.ltPut_kept {kx : Bool} {k0 : State} (u n : Nat) (s : State) (hs : k0.Kept kx s) :
    k0.Kept kx (State.ltPut u n s) := by
  delta State.ltPut; beta_reduce
  repeat' (first
   | with_reducible assumption
   | (extract_lets -merge -underBinder +onlyGivenNames ky; first | (refine State.Kept.cut ‹State.Kept _ _ _› (t := ky) ?_ ?_; subst ky; rotate_left; intro hx; clear_value ky) | clear_value ky)
   | with_reducible apply State.whenB_kept
   | with_reducible apply State.ltNext_kept
   | with_reducible apply State.ltRun_kept
   | with_reducible apply State.setBit_kept
   | with_reducible apply State.setLt_kept
   | fail_if_no_progress (with_reducible refine State.Kept.lit ?_ rfl rfl rfl)
   | intro hx
   | (refine State.Kept.pair (by with_reducible assumption) ?_)
   | (refine State.Kept.triple (by with_reducible assumption) ?_)
   | split)

theorem State.ltIssue_kept {kx : Bool} {k0 : State} (u n : Nat) (source : Bool) (s : State) (hs : k0.Kept kx s) :
    k0.Kept kx (State.ltIssue u n source s) := by
  delta State.ltIssue; beta_reduce
  repeat' (first
   | with_reducible assumption
   | (extract_lets -merge -underBinder +onlyGivenNames ky; first | (refine State.Kept.cut ‹State.Kept _ _ _› (t := ky) ?_ ?_; subst ky; rotate_left; intro hx; clear_value ky) | clear_value ky)
   | with_reducible apply State.setLt_kept
   | with_reducible apply State.sndCount_kept
   | with_reducible apply State.wr_kept
   | split)

theorem State.ltBurst_kept {kx : Bool} {k0 : State} (u : Nat) (err : Bool) (beat : Nat) (data : List Nat) (s : State) (hs : k0.Kept kx s) :
    k0.Kept kx (State.ltBurst u err beat data s) := by
  delta State.ltBurst; beta_reduce
  repeat' (first
   | with_reducible assumption
   | (extract_lets -merge -underBinder +onlyGivenNames ky; first | (refine State.Kept.cut ‹State.Kept _ _ _› (t := ky) ?_ ?_; subst ky; rotate_left; intro hx; clear_value ky) | (refine State.Kept.cut2 ‹State.Kept _ _ _› (t := ky) ?_ ?_; subst ky; rotate_left; intro hx; clear_value ky) | clear_value ky)
   | with_reducible apply State.whenB_kept
   | with_reducible apply State.freeBytes_kept
   | with_reducible apply State.ltBusError_kept
   | with_reducible apply State.ltFetched_kept
   | with_reducible apply State.ltHalt_kept
   | with_reducible apply State.ltIssue_kept
   | with_reducible apply State.ltPut_kept
   | with_reducible apply State.ltRun_kept
   | with_reducible apply State.readBeats_kept
   | with_reducible apply State.writeBeats_kept
   | fail_if_no_progress (with_reducible refine State.Kept.lit ?_ rfl rfl rfl)
   | intro hx
   | (refine State.Kept.pair (by with_reducible assumption) ?_)
   | (refine State.Kept.triple (by with_reducible assumption) ?_)
   | split)

theorem State.ltSignalRest_kept {kx : Bool} {k0 : State} (u : Nat) (s : State) (hs : k0.Kept kx s) :
    k0.Kept kx (State.ltSignalRest u s) := by
  delta State.ltSignalRest; beta_reduce
  repeat' (first
   | with_reducible assumption
   | (extract_lets -merge -underBinder +onlyGivenNames ky; first | (refine State.Kept.cut ‹State.Kept _ _ _› (t := ky) ?_ ?_; subst ky; rotate_left; intro hx; clear_value ky) | clear_value ky)
   | with_reducible apply State.whenB_kept
   | with_reducible apply State.ltEnd_kept
   | with_reducible apply State.ltFlags_kept
   | with_reducible apply State.ltNext_kept
   | with_reducible apply State.modLt_kept
   | with_reducible apply State.setBit_kept
   | split)

theorem State.ltSignal_kept {kx : Bool} {k0 : State} (u : Nat) (s : State) (hs : k0.Kept kx s) :
    k0.Kept kx (State.ltSignal u s) := by
  delta State.ltSignal; beta_reduce
  repeat' (first
   | with_reducible assumption
   | (extract_lets -merge -underBinder +onlyGivenNames ky; first | (refine State.Kept.cut ‹State.Kept _ _ _› (t := ky) ?_ ?_; subst ky; rotate_left; intro hx; clear_value ky) | (refine State.Kept.cut2 ‹State.Kept _ _ _› (t := ky) ?_ ?_; subst ky; rotate_left; intro hx; clear_value ky) | clear_value ky)
   | with_reducible apply State.ltHalt_kept
   | with_reducible apply State.ltRetry_kept
   | with_reducible apply State.ltSignalRest_kept
   | with_reducible apply State.modLt_kept
   | with_reducible apply State.writeBeats_kept
   | fail_if_no_progress (with_reducible refine State.Kept.lit ?_ rfl rfl rfl)
   | intro hx
   | (refine State.Kept.pair (by with_reducible assumption) ?_)
   | (refine State.Kept.triple (by with_reducible assumption) ?_)
   | split)

end Sys2Proof.Machine
end

