-- ==== Sys2Proof/Laws/KeptMicro.lean ====
section
/-! SUPPORT. What the operations of Machine/Micro.lean keep (Laws/Kept.lean), one lemma each. -/

namespace Sys2Proof.Machine

theorem State.setMi_kept {kx : Bool} {k0 : State} (u : Nat) (m : Micro) (s : State) (hs : k0.Kept kx s) :
    k0.Kept kx (State.setMi u m s) := by
  delta State.setMi; beta_reduce
  repeat' (first
   | with_reducible assumption
   | with_reducible apply State.setUnitF_kept)

theorem State.illegal_kept {kx : Bool} {k0 : State} (u : Nat) (s : State) (hs : k0.Kept kx s) :
    k0.Kept kx (State.illegal u s) := by
  delta State.illegal; beta_reduce
  repeat' (first
   | with_reducible assumption
   | with_reducible apply State.fence_kept)

theorem State.memAccess_kept {kx : Bool} {k0 : State} (u access a : Nat) (s : State) (hs : k0.Kept kx s) :
    k0.Kept kx (State.memAccess u access a s) := by
  delta State.memAccess; beta_reduce
  repeat' (first
   | with_reducible assumption
   | with_reducible apply State.fence_kept)

theorem State.ran_kept {kx : Bool} {k0 : State} (u cost : Nat) (s : State) (hs : k0.Kept kx s) :
    k0.Kept kx (State.ran u cost s) := by
  delta State.ran; beta_reduce
  repeat' (first
   | with_reducible assumption
   | (extract_lets -merge -underBinder +onlyGivenNames ky; clear_value ky)
   | with_reducible apply State.setMi_kept
   | with_reducible apply State.ucwOverrun_kept
   | split)

theorem State.violation_kept {kx : Bool} {k0 : State} (u : Nat) (s : State) (hs : k0.Kept kx s) :
    k0.Kept kx (State.violation u s) := by
  delta State.violation; beta_reduce
  repeat' (first
   | with_reducible assumption
   | with_reducible apply State.illegal_kept
   | with_reducible apply State.ucwOverrun_kept
   | split)

theorem State.microNext_kept {kx : Bool} {k0 : State} (u cost : Nat) (s : State) (hs : k0.Kept kx s) :
    k0.Kept kx (State.microNext u cost s) := by
  delta State.microNext; beta_reduce
  repeat' (first
   | with_reducible assumption
   | (extract_lets -merge -underBinder +onlyGivenNames ky; clear_value ky)
   | with_reducible apply State.ran_kept
   | with_reducible apply State.setMi_kept)

theorem State.microOp_kept {kx : Bool} {k0 : State} (u op err : Nat) (f : Nat → State → State) (s : State) (hf : ∀ a0 a1, k0.Kept kx a1 → k0.Kept kx (f a0 a1)) (hs : k0.Kept kx s) :
    k0.Kept kx (State.microOp u op err f s) := by
  delta State.microOp; beta_reduce
  repeat' (first
   | with_reducible assumption
   | (extract_lets -merge -underBinder +onlyGivenNames ky; first | (refine State.Kept.cut ‹State.Kept _ _ _› (t := ky) ?_ ?_; subst ky; rotate_left; intro hx; clear_value ky) | clear_value ky)
   | with_reducible apply State.windowNext_kept
   | with_reducible apply State.whenB_kept
   | with_reducible apply State.fence_kept
   | with_reducible apply State.report_kept
   | with_reducible apply State.violation_kept
   | with_reducible apply hf
   | fail_if_no_progress (with_reducible refine State.Kept.lit ?_ rfl rfl rfl)
   | intro hx
   | (refine State.Kept.pair (by with_reducible assumption) ?_)
   | (refine State.Kept.triple (by with_reducible assumption) ?_)
   | split)

theorem State.wrReg_kept {kx : Bool} {k0 : State} (u i v : Nat) (f : State → State) (s : State) (hf : ∀ a0, k0.Kept kx a0 → k0.Kept kx (f a0)) (hs : k0.Kept kx s) :
    k0.Kept kx (State.wrReg u i v f s) := by
  delta State.wrReg; beta_reduce
  repeat' (first
   | with_reducible assumption
   | (extract_lets -merge -underBinder +onlyGivenNames ky; clear_value ky)
   | with_reducible apply hf
   | with_reducible apply State.illegal_kept
   | with_reducible apply State.setMi_kept
   | split)

theorem State.result_kept {kx : Bool} {k0 : State} (u rd v : Nat) (fl : Option Nat) (cost : Nat) (s : State) (hs : k0.Kept kx s) :
    k0.Kept kx (State.result u rd v fl cost s) := by
  delta State.result; beta_reduce
  repeat' (first
   | with_reducible assumption
   | with_reducible apply State.microNext_kept
   | with_reducible apply State.setMi_kept
   | with_reducible apply State.wrReg_kept
   | intro hx
   | split)

theorem State.alu_kept {kx : Bool} {k0 : State} (u : Nat) (cost : Nat) (g : Nat → Nat → Nat × Nat) (w : Nat) (s : State) (hs : k0.Kept kx s) :
    k0.Kept kx (State.alu u cost g w s) := by
  delta State.alu; beta_reduce
  repeat' (first
   | with_reducible assumption
   | (extract_lets -merge -underBinder +onlyGivenNames ky; clear_value ky)
   | with_reducible apply State.result_kept)

theorem State.shift_kept {kx : Bool} {k0 : State} (u : Nat) (g : Nat → Nat → Nat) (w : Nat) (s : State) (hs : k0.Kept kx s) :
    k0.Kept kx (State.shift u g w s) := by
  delta State.shift; beta_reduce
  repeat' (first
   | with_reducible assumption
   | (extract_lets -merge -underBinder +onlyGivenNames ky; clear_value ky)
   | with_reducible apply State.result_kept)

theorem State.ld_kept {kx : Bool} {k0 : State} (u data w : Nat) (s : State) (hs : k0.Kept kx s) :
    k0.Kept kx (State.ld u data w s) := by
  delta State.ld; beta_reduce
  repeat' (first
   | with_reducible assumption
   | (extract_lets -merge -underBinder +onlyGivenNames ky; first | (refine State.Kept.cut2 ‹State.Kept _ _ _› (t := ky) ?_ ?_; subst ky; rotate_left; intro hx; clear_value ky) | clear_value ky)
   | with_reducible apply State.draw_kept
   | with_reducible apply State.memAccess_kept
   | with_reducible apply State.outboundErr_kept
   | with_reducible apply State.readMem_kept
   | with_reducible apply State.result_kept
   | with_reducible apply State.ucwOverrun_kept
   | (refine State.Kept.triple (by with_reducible assumption) ?_)
   | split)

theorem State.st_kept {kx : Bool} {k0 : State} (u w : Nat) (s : State) (hs : k0.Kept kx s) :
    k0.Kept kx (State.st u w s) := by
  delta State.st; beta_reduce
  repeat' (first
   | with_reducible assumption
   | (extract_lets -merge -underBinder +onlyGivenNames ky; clear_value ky)
   | with_reducible apply State.hostWrite_kept
   | with_reducible apply State.memAccess_kept
   | with_reducible apply State.microNext_kept
   | with_reducible apply State.outboundErr_kept
   | with_reducible apply State.setMi_kept
   | with_reducible apply State.ucwOverrun_kept
   | with_reducible apply State.writeMem_kept
   | (refine State.Kept.pair (by with_reducible assumption) ?_)
   | split)

theorem State.br_kept {kx : Bool} {k0 : State} (u w : Nat) (s : State) (hs : k0.Kept kx s) :
    k0.Kept kx (State.br u w s) := by
  delta State.br; beta_reduce
  repeat' (first
   | with_reducible assumption
   | (extract_lets -merge -underBinder +onlyGivenNames ky; clear_value ky)
   | with_reducible apply State.microNext_kept
   | with_reducible apply State.ran_kept
   | with_reducible apply State.setMi_kept
   | split)

theorem State.callOp_kept {kx : Bool} {k0 : State} (u w : Nat) (s : State) (hs : k0.Kept kx s) :
    k0.Kept kx (State.callOp u w s) := by
  delta State.callOp; beta_reduce
  repeat' (first
   | with_reducible assumption
   | (extract_lets -merge -underBinder +onlyGivenNames ky; clear_value ky)
   | with_reducible apply State.microNext_kept
   | with_reducible apply State.ran_kept
   | with_reducible apply State.setMi_kept
   | with_reducible apply State.violation_kept
   | split)

theorem State.retOp_kept {kx : Bool} {k0 : State} (u : Nat) (s : State) (hs : k0.Kept kx s) :
    k0.Kept kx (State.retOp u s) := by
  delta State.retOp; beta_reduce
  repeat' (first
   | with_reducible assumption
   | (extract_lets -merge -underBinder +onlyGivenNames ky; clear_value ky)
   | with_reducible apply State.ran_kept
   | with_reducible apply State.setMi_kept
   | with_reducible apply State.violation_kept
   | split)

theorem State.waitOp_kept {kx : Bool} {k0 : State} (u : Nat) (ready : Bool) (w : Nat) (s : State) (hs : k0.Kept kx s) :
    k0.Kept kx (State.waitOp u ready w s) := by
  delta State.waitOp; beta_reduce
  repeat' (first
   | with_reducible assumption
   | with_reducible apply State.microNext_kept
   | with_reducible apply State.setMi_kept
   | fail_if_no_progress (with_reducible refine State.Kept.lit ?_ rfl rfl rfl)
   | intro hx
   | (refine State.Kept.pair (by with_reducible assumption) ?_)
   | (refine State.Kept.triple (by with_reducible assumption) ?_)
   | split)

theorem State.waitDone_kept {kx : Bool} {k0 : State} (u : Nat) (s : State) (hs : k0.Kept kx s) :
    k0.Kept kx (State.waitDone u s) := by
  delta State.waitDone; beta_reduce
  repeat' (first
   | with_reducible assumption
   | (extract_lets -merge -underBinder +onlyGivenNames ky; clear_value ky)
   | with_reducible apply State.microNext_kept
   | with_reducible apply State.setMi_kept
   | fail_if_no_progress (with_reducible refine State.Kept.lit ?_ rfl rfl rfl)
   | intro hx
   | (refine State.Kept.pair (by with_reducible assumption) ?_)
   | (refine State.Kept.triple (by with_reducible assumption) ?_)
   | split)

theorem State.stepOp_kept {kx : Bool} {k0 : State} (u w : Nat) (s : State) (hs : k0.Kept kx s) :
    k0.Kept kx (State.stepOp u w s) := by
  delta State.stepOp; beta_reduce
  repeat' (first
   | with_reducible assumption
   | with_reducible apply State.illegal_kept
   | with_reducible apply State.microNext_kept
   | with_reducible apply State.wrFld_kept
   | split)

theorem State.commitQuay_kept {kx : Bool} {k0 : State} (u : Nat) (j : Job) (s : State) (hs : k0.Kept kx s) :
    k0.Kept kx (State.commitQuay u j s) := by
  delta State.commitQuay; beta_reduce
  repeat' (first
   | with_reducible assumption
   | (extract_lets -merge -underBinder +onlyGivenNames ky; first | (refine State.Kept.cut ‹State.Kept _ _ _› (t := ky) ?_ ?_; subst ky; rotate_left; intro hx; clear_value ky) | clear_value ky)
   | with_reducible apply State.quayPut_kept
   | with_reducible apply State.wr_kept
   | fail_if_no_progress (with_reducible refine State.Kept.lit ?_ rfl rfl rfl)
   | intro hx
   | (refine State.Kept.pair (by with_reducible assumption) ?_)
   | (refine State.Kept.triple (by with_reducible assumption) ?_)
   | split)

theorem State.commitOp_kept {kx : Bool} {k0 : State} (u : Nat) (s : State) (hs : k0.Kept kx s) :
    k0.Kept kx (State.commitOp u s) := by
  delta State.commitOp; beta_reduce
  repeat' (first
   | with_reducible assumption
   | (extract_lets -merge -underBinder +onlyGivenNames ky; first | (refine State.Kept.cut ‹State.Kept _ _ _› (t := ky) ?_ ?_; subst ky; rotate_left; intro hx; clear_value ky) | (refine State.Kept.cut2 ‹State.Kept _ _ _› (t := ky) ?_ ?_; subst ky; rotate_left; intro hx; clear_value ky) | clear_value ky)
   | with_reducible apply State.abandonJob_kept
   | with_reducible apply State.commitQuay_kept
   | with_reducible apply State.draw_kept
   | with_reducible apply State.illegal_kept
   | with_reducible apply State.microNext_kept
   | with_reducible apply State.sndCount_kept
   | with_reducible apply State.wr_kept
   | with_reducible apply State.wrFld_kept
   | fail_if_no_progress (with_reducible refine State.Kept.lit ?_ rfl rfl rfl)
   | intro hx
   | (refine State.Kept.pair (by with_reducible assumption) ?_)
   | (refine State.Kept.triple (by with_reducible assumption) ?_)
   | split)

theorem State.doneOp_kept {kx : Bool} {k0 : State} (u w : Nat) (s : State) (hs : k0.Kept kx s) :
    k0.Kept kx (State.doneOp u w s) := by
  delta State.doneOp; beta_reduce
  repeat' (first
   | with_reducible assumption
   | (extract_lets -merge -underBinder +onlyGivenNames ky; first | (refine State.Kept.cut ‹State.Kept _ _ _› (t := ky) ?_ ?_; subst ky; rotate_left; intro hx; clear_value ky) | clear_value ky)
   | with_reducible apply State.abandonJob_kept
   | with_reducible apply State.endJob_kept
   | with_reducible apply State.illegal_kept
   | with_reducible apply State.setMi_kept
   | split)

theorem State.takeTrap_kept {kx : Bool} {k0 : State} (u : Nat) (s : State) (hs : k0.Kept kx s) :
    k0.Kept kx (State.takeTrap u s) := by
  delta State.takeTrap; beta_reduce
  repeat' (first
   | with_reducible assumption
   | (extract_lets -merge -underBinder +onlyGivenNames ky; clear_value ky)
   | with_reducible apply State.whenB_kept
   | with_reducible apply State.setMi_kept
   | with_reducible apply State.sndCount_kept
   | fail_if_no_progress (with_reducible refine State.Kept.lit ?_ rfl rfl rfl)
   | intro hx
   | (refine State.Kept.pair (by with_reducible assumption) ?_)
   | (refine State.Kept.triple (by with_reducible assumption) ?_)
   | split)

theorem State.microTrap_kept {kx : Bool} {k0 : State} (u cause : Nat) (s : State) (hs : k0.Kept kx s) :
    k0.Kept kx (State.microTrap u cause s) := by
  delta State.microTrap; beta_reduce
  repeat' (first
   | with_reducible assumption
   | (extract_lets -merge -underBinder +onlyGivenNames ky; first | (refine State.Kept.cut ‹State.Kept _ _ _› (t := ky) ?_ ?_; subst ky; rotate_left; intro hx; clear_value ky) | clear_value ky)
   | with_reducible apply State.setMi_kept
   | with_reducible apply State.takeTrap_kept
   | split)

theorem State.trapret_kept {kx : Bool} {k0 : State} (u : Nat) (s : State) (hs : k0.Kept kx s) :
    k0.Kept kx (State.trapret u s) := by
  delta State.trapret; beta_reduce
  repeat' (first
   | with_reducible assumption
   | (extract_lets -merge -underBinder +onlyGivenNames ky; clear_value ky)
   | with_reducible apply State.illegal_kept
   | with_reducible apply State.setMi_kept
   | with_reducible apply State.takeTrap_kept
   | split)

theorem State.exitOp_kept {kx : Bool} {k0 : State} (u : Nat) (s : State) (hs : k0.Kept kx s) :
    k0.Kept kx (State.exitOp u s) := by
  delta State.exitOp; beta_reduce
  repeat' (first
   | with_reducible assumption
   | (extract_lets -merge -underBinder +onlyGivenNames ky; clear_value ky)
   | with_reducible apply State.illegal_kept
   | with_reducible apply State.ucwOverrun_kept
   | with_reducible apply State.windowExit_kept
   | split)

end Sys2Proof.Machine
end

