-- ==== Sys2Proof/Laws/KeptRmp.lean ====
section
/-! SUPPORT. What the operations of Machine/Rmp.lean keep (Laws/Kept.lean), one lemma each. -/

namespace Sys2Proof.Machine

theorem getRegs_kept {kx : Bool} {k0 : State} (o : Nat) (c0 : Nat) (s : State) (hs : k0.Kept kx s) :
    k0.Kept kx (getRegs o c0 s).2 := by
  induction c0 generalizing  o  s with
  | zero =>
    unfold getRegs
    repeat' (first
     | with_reducible assumption)
  | succ n ih =>
    unfold getRegs
    repeat' (first
     | with_reducible assumption
     | (extract_lets -merge -underBinder +onlyGivenNames ky; refine State.Kept.cut2 ‹State.Kept _ _ _› (t := ky) ?_ ?_; subst ky; rotate_left; intro hx; clear_value ky)
     | with_reducible apply ih
     | with_reducible apply State.readAny_kept)

theorem getCmd_kept {kx : Bool} {k0 : State} (b : List Nat) (s : State) (hs : k0.Kept kx s) :
    k0.Kept kx (getCmd b s).2.2 := by
  delta getCmd; beta_reduce
  repeat' (first
   | with_reducible assumption
   | (extract_lets -merge -underBinder +onlyGivenNames ky; first | (refine State.Kept.cut2 ‹State.Kept _ _ _› (t := ky) ?_ ?_; subst ky; rotate_left; intro hx; clear_value ky) | clear_value ky)
   | with_reducible apply getRegs_kept
   | split)

theorem setRegs_kept {kx : Bool} {k0 : State} (c0 : Nat) (c1 : List Nat) (s : State) (hs : k0.Kept kx s) :
    k0.Kept kx (setRegs c0 c1 s).2 := by
  induction c0 generalizing c1 s with
  | zero =>
    unfold setRegs
    repeat' (first
     | with_reducible assumption)
  | succ n ih =>
    unfold setRegs
    repeat' (first
     | with_reducible assumption
     | (extract_lets -merge -underBinder +onlyGivenNames ky; first | (refine State.Kept.cut ‹State.Kept _ _ _› (t := ky) ?_ ?_; subst ky; rotate_left; intro hx; clear_value ky) | clear_value ky)
     | with_reducible apply ih
     | with_reducible apply State.regWrite_kept
     | split)

theorem setCmd_kept {kx : Bool} {k0 : State} (b : List Nat) (s : State) (hs : k0.Kept kx s) :
    k0.Kept kx (setCmd b s).2.2 := by
  delta setCmd; beta_reduce
  repeat' (first
   | with_reducible assumption
   | (extract_lets -merge -underBinder +onlyGivenNames ky; refine State.Kept.cut2 ‹State.Kept _ _ _› (t := ky) ?_ ?_; subst ky; rotate_left; intro hx; clear_value ky)
   | with_reducible apply setRegs_kept
   | split)

theorem memReadCmd_kept {kx : Bool} {k0 : State} (data b : List Nat) (s : State) (hs : k0.Kept kx s) :
    k0.Kept kx (memReadCmd data b s).2.2 := by
  delta memReadCmd; beta_reduce
  repeat' (first
   | with_reducible assumption
   | (extract_lets -merge -underBinder +onlyGivenNames ky; first | (refine State.Kept.cut2 ‹State.Kept _ _ _› (t := ky) ?_ ?_; subst ky; rotate_left; intro hx; clear_value ky) | clear_value ky)
   | with_reducible apply getRegs_kept
   | with_reducible apply State.outboundErr_kept
   | with_reducible apply State.readMem_kept
   | with_reducible apply State.usageReg_kept
   | (refine State.Kept.triple (by with_reducible assumption) ?_)
   | split)

theorem memWriteCmd_kept {kx : Bool} {k0 : State} (b : List Nat) (s : State) (hs : k0.Kept kx s) :
    k0.Kept kx (memWriteCmd b s).2.2 := by
  delta memWriteCmd; beta_reduce
  repeat' (first
   | with_reducible assumption
   | (extract_lets -merge -underBinder +onlyGivenNames ky; clear_value ky)
   | with_reducible apply State.classWatch_kept
   | with_reducible apply State.usageAddr_kept
   | with_reducible apply State.writeMem_kept
   | (refine State.Kept.pair (by with_reducible assumption) ?_)
   | split)

theorem State.postStream_kept {kx : Bool} {k0 : State} (c op flags : Nat) (s : State) (hs : k0.Kept kx s) :
    k0.Kept kx (State.postStream c op flags s).2 := by
  delta State.postStream; beta_reduce
  repeat' (first
   | with_reducible assumption
   | (extract_lets -merge -underBinder +onlyGivenNames ky; refine State.Kept.cut3 ‹State.Kept _ _ _› (t := ky) ?_ ?_; subst ky; rotate_left; intro hx; clear_value ky)
   | with_reducible apply State.dispatch_kept
   | with_reducible apply State.post_kept)

theorem State.startStream_kept {kx : Bool} {k0 : State} (c : Nat) (s : State) (hs : k0.Kept kx s) :
    k0.Kept kx (State.startStream c s).2 := by
  delta State.startStream; beta_reduce
  repeat' (first
   | with_reducible assumption
   | (extract_lets -merge -underBinder +onlyGivenNames ky; first | (refine State.Kept.cut ‹State.Kept _ _ _› (t := ky) ?_ ?_; subst ky; rotate_left; intro hx; clear_value ky) | (refine State.Kept.cut2 ‹State.Kept _ _ _› (t := ky) ?_ ?_; subst ky; rotate_left; intro hx; clear_value ky) | clear_value ky)
   | with_reducible apply State.bookCtx_kept
   | with_reducible apply bookStatus_kept
   | with_reducible apply State.postStream_kept
   | split)

theorem streamStartCmd_kept {kx : Bool} {k0 : State} (b : List Nat) (s : State) (hs : k0.Kept kx s) :
    k0.Kept kx (streamStartCmd b s).2.2 := by
  delta streamStartCmd; beta_reduce
  repeat' (first
   | with_reducible assumption
   | (extract_lets -merge -underBinder +onlyGivenNames ky; first | (refine State.Kept.cut2 ‹State.Kept _ _ _› (t := ky) ?_ ?_; subst ky; rotate_left; intro hx; clear_value ky) | clear_value ky)
   | with_reducible apply State.startStream_kept
   | split)

theorem streamStopCmd_kept {kx : Bool} {k0 : State} (b : List Nat) (s : State) (hs : k0.Kept kx s) :
    k0.Kept kx (streamStopCmd b s).2.2 := by
  delta streamStopCmd; beta_reduce
  repeat' (first
   | with_reducible assumption
   | (extract_lets -merge -underBinder +onlyGivenNames ky; first | (refine State.Kept.cut2 ‹State.Kept _ _ _› (t := ky) ?_ ?_; subst ky; rotate_left; intro hx; clear_value ky) | clear_value ky)
   | with_reducible apply State.dispatch_kept
   | with_reducible apply State.postStream_kept
   | with_reducible apply State.stopStream_kept
   | split)

theorem State.ucwLoad_kept {kx : Bool} {k0 : State} (u n a : Nat) (s : State) (hs : k0.Kept kx s) :
    k0.Kept kx (State.ucwLoad u n a s).2 := by
  delta State.ucwLoad; beta_reduce
  repeat' (first
   | with_reducible assumption
   | (extract_lets -merge -underBinder +onlyGivenNames ky; first | (refine State.Kept.cut ‹State.Kept _ _ _› (t := ky) ?_ ?_; subst ky; rotate_left; intro hx; clear_value ky) | clear_value ky)
   | with_reducible apply State.measExtend_kept
   | fail_if_no_progress (with_reducible refine State.Kept.lit ?_ rfl rfl rfl)
   | split)

theorem ucwEnableCmd_kept {kx : Bool} {k0 : State} (b : List Nat) (s : State) (hs : k0.Kept kx s) :
    k0.Kept kx (ucwEnableCmd b s).2.2 := by
  delta ucwEnableCmd; beta_reduce
  repeat' (first
   | with_reducible assumption
   | (extract_lets -merge -underBinder +onlyGivenNames ky; first | (refine State.Kept.cut2 ‹State.Kept _ _ _› (t := ky) ?_ ?_; subst ky; rotate_left; intro hx; clear_value ky) | clear_value ky)
   | with_reducible apply State.ucwLoad_kept
   | split)

theorem spareDisableCmd_kept {kx : Bool} {k0 : State} (b : List Nat) (s : State) (hs : k0.Kept kx s) :
    k0.Kept kx (spareDisableCmd b s).2.2 := by
  delta spareDisableCmd; beta_reduce
  repeat' (first
   | with_reducible assumption
   | (extract_lets -merge -underBinder +onlyGivenNames ky; clear_value ky)
   | with_reducible apply State.ctrlWrite_kept
   | split)

end Sys2Proof.Machine
end

