-- ==== Sys2Proof/Laws/KeptImage.lean ====
section
/-! SUPPORT. What the operations of Machine/Image.lean keep (Laws/Kept.lean), one lemma each. -/

namespace Sys2Proof.Machine

theorem State.imgStore_kept {kx : Bool} {k0 : State} (o v : Nat) (s : State) (hs : k0.Kept kx s) :
    k0.Kept kx (State.imgStore o v s) := by
  delta State.imgStore; beta_reduce
  repeat' (first
   | with_reducible assumption
   | with_reducible apply State.ctrlWrite_kept
   | with_reducible apply State.writeReg_kept
   | split)

theorem State.imgWrite_kept {kx : Bool} {k0 : State} (o : Nat) (value : State → RegRow → Nat) (s : State) (hs : k0.Kept kx s) :
    k0.Kept kx (State.imgWrite o value s).2 := by
  delta State.imgWrite; beta_reduce
  repeat' (first
   | with_reducible assumption
   | (extract_lets -merge -underBinder +onlyGivenNames ky; refine State.Kept.cut ‹State.Kept _ _ _› (t := ky) ?_ ?_; subst ky; rotate_left; intro hx; clear_value ky)
   | with_reducible apply State.imgStore_kept
   | split)

theorem imgEach_kept {kx : Bool} {k0 : State} (f : List Nat → State → Nat × State) (size : Nat) (hf : ∀ a0 a1, k0.Kept kx a1 → k0.Kept kx (f a0 a1).2) (c0 : Nat) (c1 : List Nat) (s : State) (hs : k0.Kept kx s) :
    k0.Kept kx (imgEach f size c0 c1 s).2.2 := by
  induction c0 generalizing c1 s with
  | zero => exact hs
  | succ n ih =>
    unfold imgEach
    split
    · exact ih _ _ (State.Kept.pair ‹_› (hf _ _ hs))
    · exact hf _ _ hs

theorem State.skipWrite_kept {kx : Bool} {k0 : State} (o : Nat) (t s : State) (hs : k0.Kept kx s) :
    k0.Kept kx (State.skipWrite o t s) := by
  delta State.skipWrite; beta_reduce
  repeat' (first
   | with_reducible assumption
   | with_reducible apply State.cfgRefuse_kept
   | with_reducible apply State.usageReg_kept
   | fail_if_no_progress (with_reducible refine State.Kept.lit ?_ rfl rfl rfl)
   | intro hx
   | (refine State.Kept.pair (by with_reducible assumption) ?_)
   | (refine State.Kept.triple (by with_reducible assumption) ?_)
   | split)

theorem imgEntries_kept {kx : Bool} {k0 : State} (f : List Nat → State → Nat × State) (size k : Nat) (v : List Nat) (s : State) (hf : ∀ a0 a1, k0.Kept kx a1 → k0.Kept kx (f a0 a1).2) (hs : k0.Kept kx s) :
    k0.Kept kx (imgEntries f size k v s).2 := by
  delta imgEntries; beta_reduce
  repeat' (first
   | with_reducible assumption
   | with_reducible apply State.skipWrite_kept
   | with_reducible apply imgEach_kept
   | with_reducible apply hf
   | fail_if_no_progress (with_reducible refine State.Kept.lit ?_ rfl rfl rfl)
   | intro hx
   | (refine State.Kept.pair (by with_reducible assumption) ?_)
   | (refine State.Kept.triple (by with_reducible assumption) ?_)
   | split)

theorem imgRegWrite_kept {kx : Bool} {k0 : State} (v : List Nat) (s : State) (hs : k0.Kept kx s) :
    k0.Kept kx (imgRegWrite v s).2 := by
  delta imgRegWrite; beta_reduce
  repeat' (first
   | with_reducible assumption
   | with_reducible apply State.imgWrite_kept)

theorem imgRegField_kept {kx : Bool} {k0 : State} (v : List Nat) (s : State) (hs : k0.Kept kx s) :
    k0.Kept kx (imgRegField v s).2 := by
  delta imgRegField; beta_reduce
  repeat' (first
   | with_reducible assumption
   | (extract_lets -merge -underBinder +onlyGivenNames ky; clear_value ky)
   | with_reducible apply State.imgWrite_kept)

theorem imgPair40_kept {kx : Bool} {k0 : State} (v : List Nat) (s : State) (hs : k0.Kept kx s) :
    k0.Kept kx (imgPair40 v s).2 := by
  delta imgPair40; beta_reduce
  repeat' (first
   | with_reducible assumption
   | (extract_lets -merge -underBinder +onlyGivenNames ky; first | (refine State.Kept.cut ‹State.Kept _ _ _› (t := ky) ?_ ?_; subst ky; rotate_left; intro hx; clear_value ky) | clear_value ky)
   | with_reducible apply State.imgStore_kept
   | split)

theorem State.objBytes_kept {kx : Bool} {k0 : State} (agent a : Nat) (d : List Nat) (s : State) (hs : k0.Kept kx s) :
    k0.Kept kx (State.objBytes agent a d s).2 := by
  delta State.objBytes; beta_reduce
  repeat' (first
   | with_reducible assumption
   | with_reducible apply State.writeMem_kept
   | (refine State.Kept.pair (by with_reducible assumption) ?_)
   | split)

theorem objStreamCheck_kept {kx : Bool} {k0 : State} (c : Nat) (s : State) (r : Bool × State) (hs : k0.Kept kx s)
    (hr : k0.Kept kx r.2) : k0.Kept kx (objStreamCheck c s r).2 := by
  unfold objStreamCheck
  split
  · exact hr
  · refine State.Kept.mk2 ?_
    split
    · exact hs
    · exact hr

theorem objStream_kept {kx : Bool} {k0 : State} (c : Nat) (d : List Nat) (s : State) (hs : k0.Kept kx s) :
    k0.Kept kx (objStream c d s).2 := by
  unfold objStream
  split
  · exact State.Kept.mk2 hs
  · exact objStreamCheck_kept _ _ _ hs (State.objBytes_kept _ _ _ _ hs)

theorem objQueueEnd_kept {kx : Bool} {k0 : State} (q flags : Nat) (r : Bool × State) (hs : k0.Kept kx r.2) :
    k0.Kept kx (objQueueEnd q flags r).2 := by
  delta objQueueEnd; beta_reduce
  repeat' (first
   | with_reducible assumption
   | (extract_lets -merge -underBinder +onlyGivenNames ky; clear_value ky)
   | with_reducible apply State.whenB_kept
   | with_reducible apply State.queueStart_kept
   | with_reducible apply State.setQueue_kept
   | split)

theorem objQueue_kept {kx : Bool} {k0 : State} (q : Nat) (d : List Nat) (s : State) (hs : k0.Kept kx s) :
    k0.Kept kx (objQueue q d s).2 := by
  unfold objQueue
  split
  · exact State.Kept.mk2 hs
  · split
    · exact State.Kept.mk2 hs
    · exact objQueueEnd_kept _ _ _ (State.objBytes_kept _ _ _ _ hs)

theorem objGate_kept {kx : Bool} {k0 : State} (k : Nat) (d : List Nat) (s : State) (hs : k0.Kept kx s) :
    k0.Kept kx (objGate k d s).2 := by
  delta objGate; beta_reduce
  repeat' (first
   | with_reducible assumption
   | (extract_lets -merge -underBinder +onlyGivenNames ky; first | (refine State.Kept.cut ‹State.Kept _ _ _› (t := ky) ?_ ?_; subst ky; rotate_left; intro hx; clear_value ky) | clear_value ky)
   | with_reducible apply State.each_kept
   | with_reducible apply State.stage_kept
   | with_reducible apply State.wr_kept
   | with_reducible apply State.wr64_kept
   | intro hx
   | split)

theorem objPool_kept {kx : Bool} {k0 : State} (p : Nat) (d : List Nat) (s : State) (hs : k0.Kept kx s) :
    k0.Kept kx (objPool p d s).2 := by
  delta objPool; beta_reduce
  repeat' (first
   | with_reducible assumption
   | (extract_lets -merge -underBinder +onlyGivenNames ky; first | (refine State.Kept.cut ‹State.Kept _ _ _› (t := ky) ?_ ?_; subst ky; rotate_left; intro hx; clear_value ky) | (have hk : ∀ a, ky a = ky a := (fun _ => rfl); clear hk; subst ky; beta_reduce) | clear_value ky)
   | with_reducible apply State.poolCfgWrite_kept
   | with_reducible apply State.setPool_kept
   | with_reducible apply State.usageReg_kept
   | with_reducible apply State.wr_kept
   | with_reducible apply State.wr40_kept
   | fail_if_no_progress (with_reducible refine State.Kept.lit ?_ rfl rfl rfl)
   | intro hx
   | (refine State.Kept.pair (by with_reducible assumption) ?_)
   | (refine State.Kept.triple (by with_reducible assumption) ?_)
   | split)

theorem State.Kept.after {kx : Bool} {k0 : State} (r : Bool × State) (g : Bool × State → Bool × State) (hr : k0.Kept kx r.2)
    (h : ∀ r, k0.Kept kx r.2 → k0.Kept kx (g r).2) : k0.Kept kx (g r).2 := h r hr

theorem objLayout_kept {kx : Bool} {k0 : State} (n : Nat) (d : List Nat) (s : State) (hs : k0.Kept kx s) :
    k0.Kept kx (objLayout n d s).2 := by
  unfold objLayout
  split
  · exact hs
  · refine State.Kept.after _ (fun r => if !r.1 then r
      else if r.2.layoutCheck (s.layoutAddr n 0) ≠ 0 then (false, s.usage 11 agentCc0 2 (s.layoutAddr n 0)) else r)
      (State.objBytes_kept _ _ _ _ hs) ?_
    intro r h
    split
    · exact h
    · split
      · exact State.usage_kept _ _ _ _ _ hs
      · exact h

theorem objClass_kept {kx : Bool} {k0 : State} (i : Nat) (d : List Nat) (s : State) (hs : k0.Kept kx s) :
    k0.Kept kx (objClass i d s).2 := by
  delta objClass; beta_reduce
  repeat' (first
   | with_reducible assumption
   | (extract_lets -merge -underBinder +onlyGivenNames ky; first | (refine State.Kept.cut ‹State.Kept _ _ _› (t := ky) ?_ ?_; subst ky; rotate_left; intro hx; clear_value ky) | (refine State.Kept.cut2 ‹State.Kept _ _ _› (t := ky) ?_ ?_; subst ky; rotate_left; intro hx; clear_value ky))
   | with_reducible apply State.objBytes_kept
   | with_reducible apply State.usage_kept
   | fail_if_no_progress (with_reducible refine State.Kept.lit ?_ rfl rfl rfl)
   | split)

theorem objGroup_kept {kx : Bool} {k0 : State} (g : Nat) (d : List Nat) (s : State) (hs : k0.Kept kx s) :
    k0.Kept kx (objGroup g d s).2 := by
  delta objGroup; beta_reduce
  repeat' (first
   | with_reducible assumption
   | (extract_lets -merge -underBinder +onlyGivenNames ky; first | (refine State.Kept.cut ‹State.Kept _ _ _› (t := ky) ?_ ?_; subst ky; rotate_left; intro hx; clear_value ky) | clear_value ky)
   | with_reducible apply State.each_kept
   | with_reducible apply State.cfgRefuse_kept
   | with_reducible apply State.ctrlWrite_kept
   | with_reducible apply State.grpCtrlWrite_kept
   | with_reducible apply State.grpMemberWrite_kept
   | fail_if_no_progress (with_reducible refine State.Kept.lit ?_ rfl rfl rfl)
   | intro hx
   | (refine State.Kept.pair (by with_reducible assumption) ?_)
   | (refine State.Kept.triple (by with_reducible assumption) ?_)
   | split)

theorem objLighter_kept {kx : Bool} {k0 : State} (n : Nat) (d : List Nat) (s : State) (hs : k0.Kept kx s) :
    k0.Kept kx (objLighter n d s).2 := by
  delta objLighter; beta_reduce
  repeat' (first
   | with_reducible assumption
   | (extract_lets -merge -underBinder +onlyGivenNames ky; first | (refine State.Kept.cut ‹State.Kept _ _ _› (t := ky) ?_ ?_; subst ky; rotate_left; intro hx; clear_value ky) | (refine State.Kept.cut2 ‹State.Kept _ _ _› (t := ky) ?_ ?_; subst ky; rotate_left; intro hx; clear_value ky) | clear_value ky)
   | with_reducible apply State.objBytes_kept
   | fail_if_no_progress (with_reducible refine State.Kept.lit ?_ rfl rfl rfl)
   | split)

theorem objPilot_kept {kx : Bool} {k0 : State} (u : Nat) (d : List Nat) (s : State) (hs : k0.Kept kx s) :
    k0.Kept kx (objPilot u d s).2 := by
  delta objPilot; beta_reduce
  repeat' (first
   | with_reducible assumption
   | (extract_lets -merge -underBinder +onlyGivenNames ky; first | (refine State.Kept.cut ‹State.Kept _ _ _› (t := ky) ?_ ?_; subst ky; rotate_left; intro hx; clear_value ky) | (refine State.Kept.cut2 ‹State.Kept _ _ _› (t := ky) ?_ ?_; subst ky; rotate_left; intro hx; clear_value ky) | clear_value ky)
   | with_reducible apply State.Kept.foldl
   | with_reducible apply State.Kept.foldl2
   | with_reducible apply State.Kept.foldl3
   | with_reducible apply State.ucwLoad_kept
   | with_reducible apply State.usageReg_kept
   | with_reducible apply State.writeReg_kept
   | fail_if_no_progress (with_reducible refine State.Kept.lit ?_ rfl rfl rfl)
   | intro hx
   | (refine State.Kept.pair (by with_reducible assumption) ?_)
   | (refine State.Kept.triple (by with_reducible assumption) ?_)
   | split)

theorem imgObject_kept {kx : Bool} {k0 : State} (v : List Nat) (s : State) (hs : k0.Kept kx s) :
    k0.Kept kx (imgObject v s).2 := by
  delta imgObject; beta_reduce
  repeat' (first
   | with_reducible assumption
   | (extract_lets -merge -underBinder +onlyGivenNames ky; first | (refine State.Kept.cut2 ‹State.Kept _ _ _› (t := ky) ?_ ?_; subst ky; rotate_left; intro hx; clear_value ky) | clear_value ky)
   | with_reducible apply objClass_kept
   | with_reducible apply objGate_kept
   | with_reducible apply objGroup_kept
   | with_reducible apply objLayout_kept
   | with_reducible apply objLighter_kept
   | with_reducible apply objPilot_kept
   | with_reducible apply objPool_kept
   | with_reducible apply objQueue_kept
   | with_reducible apply objStream_kept
   | split)

theorem imgBlob_kept {kx : Bool} {k0 : State} (v : List Nat) (s : State) (hs : k0.Kept kx s) :
    k0.Kept kx (imgBlob v s).2 := by
  delta imgBlob; beta_reduce
  repeat' (first
   | with_reducible assumption
   | (extract_lets -merge -underBinder +onlyGivenNames ky; first | (refine State.Kept.cut2 ‹State.Kept _ _ _› (t := ky) ?_ ?_; subst ky; rotate_left; intro hx; clear_value ky) | clear_value ky)
   | with_reducible apply State.objBytes_kept
   | split)

theorem imgNode_kept {kx : Bool} {k0 : State} (v : List Nat) (s : State) (hs : k0.Kept kx s) :
    k0.Kept kx (imgNode v s).2 := by
  delta imgNode; beta_reduce
  repeat' (first
   | with_reducible assumption
   | with_reducible apply State.imgWrite_kept
   | split)

theorem imgRecord_kept {kx : Bool} {k0 : State} (r : EtvorRec) (s : State) (hs : k0.Kept kx s) :
    k0.Kept kx (imgRecord r s).2 := by
  delta imgRecord; beta_reduce
  repeat' (first
   | with_reducible assumption
   | with_reducible apply imgBlob_kept
   | with_reducible apply imgEntries_kept
   | with_reducible apply imgNode_kept
   | with_reducible apply imgObject_kept
   | with_reducible apply imgPair40_kept
   | with_reducible apply imgRegField_kept
   | with_reducible apply imgRegWrite_kept
   | fail_if_no_progress (with_reducible refine State.Kept.lit ?_ rfl rfl rfl)
   | intro hx
   | (refine State.Kept.pair (by with_reducible assumption) ?_)
   | (refine State.Kept.triple (by with_reducible assumption) ?_)
   | split)

theorem imgRecords_kept {kx : Bool} {k0 : State} (c0 : Nat) (c1 : List EtvorRec) (s : State) (hs : k0.Kept kx s) :
    k0.Kept kx (imgRecords c0 c1 s) := by
  induction c1 generalizing c0 s with
  | nil =>
    unfold imgRecords
    repeat' (first
     | with_reducible assumption)
  | cons a l ih =>
    unfold imgRecords
    repeat' (first
     | with_reducible assumption
     | (extract_lets -merge -underBinder +onlyGivenNames ky; refine State.Kept.cut ‹State.Kept _ _ _› (t := ky) ?_ ?_; subst ky; rotate_left; intro hx; clear_value ky)
     | with_reducible apply ih
     | with_reducible apply imgRecord_kept
     | with_reducible apply State.wr_kept
     | with_reducible apply State.wrFld_kept
     | (refine State.Kept.pair (by with_reducible assumption) ?_)
     | split)

theorem State.defaultSpares_kept {kx : Bool} {k0 : State} (written : List Nat) (s : State) (hs : k0.Kept kx s) :
    k0.Kept kx (State.defaultSpares written s) := by
  delta State.defaultSpares; beta_reduce
  repeat' (first
   | with_reducible assumption
   | with_reducible apply State.each_kept
   | with_reducible apply State.ctrlWrite_kept
   | intro hx)

end Sys2Proof.Machine
end

