-- ==== Sys2Proof/Laws/KeptBoot.lean ====
section
/-! SUPPORT. What the operations of Machine/Boot.lean keep (Laws/Kept.lean), one lemma each. -/

namespace Sys2Proof.Machine

theorem State.showInput_kept {kx : Bool} {k0 : State} (b : Bool) (s : State) (hs : k0.Kept kx s) :
    k0.Kept kx (State.showInput b s) := by
  delta State.showInput; beta_reduce
  repeat' (first
   | with_reducible assumption
   | with_reducible apply State.wr_kept
   | with_reducible apply State.wrFld_kept)

theorem State.ownMacs_kept {kx : Bool} {k0 : State} (s : State) (hs : k0.Kept kx s) :
    k0.Kept kx (State.ownMacs s) := by
  delta State.ownMacs; beta_reduce
  repeat' (first
   | with_reducible assumption
   | with_reducible apply State.each_kept
   | with_reducible apply State.wr64_kept
   | intro hx)

theorem State.cleared_kept {kx : Bool} {k0 : State} (meas : Bool) (s : State) (hs : k0.Kept kx s) :
    k0.Kept kx (State.cleared meas s) := by
  unfold State.cleared
  apply State.ownMacs_kept
  apply State.showInput_kept
  apply State.showInput_kept
  exact hs.trans ⟨fun _ => rfl, fun _ => rfl, rfl, le_refl _, ⟨le_refl _, rfl⟩, fun _ => rfl, fun _ => id, id,
    fun _ => Nat.zero_le _, fun _ j _ h => absurd h (by simp [State.src, State.reset, BellSrc.reset])⟩

theorem State.recovery_kept {kx : Bool} {k0 : State} (s : State) (hs : k0.Kept kx s) :
    k0.Kept kx (State.recovery s) := by
  delta State.recovery; beta_reduce
  repeat' (first
   | with_reducible assumption
   | fail_if_no_progress (with_reducible refine State.Kept.lit ?_ rfl rfl rfl))

theorem State.step1_kept {kx : Bool} {k0 : State} (st : StartUp) (power : Bool) (s : State) (hs : k0.Kept kx s) :
    k0.Kept kx (State.step1 st power s) := by
  delta State.step1; beta_reduce
  repeat' (first
   | with_reducible assumption
   | with_reducible apply State.whenB_kept
   | with_reducible apply State.measEvent_kept
   | with_reducible apply State.measExtend_kept
   | with_reducible apply State.recovery_kept
   | with_reducible apply State.report_kept
   | with_reducible apply State.setBit_kept
   | with_reducible apply State.wr_kept
   | with_reducible apply State.wrFld_kept
   | fail_if_no_progress (with_reducible refine State.Kept.lit ?_ rfl rfl rfl)
   | (with_reducible refine State.Kept.boot ?_ (fun h => Bool.or_eq_true _ _ ▸ Or.inl h))
   | (extract_lets -merge -underBinder +onlyGivenNames ky; first | (refine State.Kept.cut ‹State.Kept _ _ _› (t := ky) ?_ ?_; subst ky; rotate_left; intro hx; clear_value ky) | (have hk : ky.broken = ky.broken := rfl; clear hk; subst ky) | clear_value ky)
   | intro hx
   | split)

theorem State.markFailed_kept {kx : Bool} {k0 : State} (x : Nat) (s : State) (hs : k0.Kept kx s) :
    k0.Kept kx (State.markFailed x s) := by
  delta State.markFailed; beta_reduce
  repeat' (first
   | with_reducible assumption
   | (extract_lets -merge -underBinder +onlyGivenNames ky; (have hk : ky.broken = ky.broken := rfl; clear hk; subst ky))
   | fail_if_no_progress (with_reducible refine State.Kept.lit ?_ rfl rfl rfl)
   | split)

theorem State.loadPatches_kept {kx : Bool} {k0 : State} (load : Patch → State → State)
    (hl : ∀ p s, k0.Kept kx s → k0.Kept kx (load p s)) (l : List Patch) (s : State) (hs : k0.Kept kx s) :
    k0.Kept kx (State.loadPatches load l s).2 := by
  induction l generalizing s with
  | nil => exact hs
  | cons p l ih =>
    unfold State.loadPatches; split
    · exact ih _ (hl _ _ hs)
    · exact hs

theorem State.loadPatch_kept {kx : Bool} {k0 : State} (p : Patch) (s : State) (hs : k0.Kept kx s) :
    k0.Kept kx (State.loadPatch p s) := by
  delta State.loadPatch; beta_reduce
  repeat' (first
   | with_reducible assumption
   | (extract_lets -merge -underBinder +onlyGivenNames ky; clear_value ky)
   | with_reducible apply State.measExtend_kept
   | fail_if_no_progress (with_reducible refine State.Kept.lit ?_ rfl rfl rfl))

theorem State.readbackFails_kept {kx : Bool} {k0 : State} (u : Nat) (s : State) (hs : k0.Kept kx s) :
    k0.Kept kx (State.readbackFails u s) := by
  delta State.readbackFails; beta_reduce
  repeat' (first
   | with_reducible assumption
   | with_reducible apply State.fence_kept
   | fail_if_no_progress (with_reducible refine State.Kept.lit ?_ rfl rfl rfl)
   | intro hx
   | (refine State.Kept.pair (by with_reducible assumption) ?_)
   | (refine State.Kept.triple (by with_reducible assumption) ?_)
   | split)

theorem State.initRoutines_kept {kx : Bool} {k0 : State} (s : State) (hs : k0.Kept kx s) :
    k0.Kept kx (State.initRoutines s) := by
  delta State.initRoutines; beta_reduce
  repeat' (first
   | with_reducible assumption
   | with_reducible apply State.each_kept
   | with_reducible apply State.setUnitF_kept
   | fail_if_no_progress (with_reducible refine State.Kept.lit ?_ rfl rfl rfl)
   | intro hx
   | (refine State.Kept.pair (by with_reducible assumption) ?_)
   | (refine State.Kept.triple (by with_reducible assumption) ?_)
   | split)

theorem State.dropImg_kept {kx : Bool} {k0 : State} (s : State) (hs : k0.Kept kx s) :
    k0.Kept kx (State.dropImg s) := by
  delta State.dropImg; beta_reduce
  repeat' (first
   | with_reducible assumption
   | (extract_lets -merge -underBinder +onlyGivenNames ky; (have hk : ky.broken = ky.broken := rfl; clear hk; subst ky))
   | fail_if_no_progress (with_reducible refine State.Kept.lit ?_ rfl rfl rfl))

theorem State.bootSlots_kept {kx : Bool} {k0 : State} (st : StartUp) (c0 : Nat) (c1 : List Nat) (s : State) (hs : k0.Kept kx s) :
    k0.Kept kx (State.bootSlots st c0 c1 s) := by
  induction c1 generalizing c0 s with
  | nil => exact State.recovery_kept _ hs
  | cons a l ih =>
    unfold State.bootSlots
    repeat' (first
     | with_reducible assumption
     | with_reducible apply ih
     | with_reducible apply State.each_kept
     | with_reducible apply State.dropImg_kept
     | with_reducible apply State.loadPatches_kept
     | with_reducible apply State.loadPatch_kept
     | with_reducible apply State.markFailed_kept
     | with_reducible apply State.measExtend_kept
     | with_reducible apply State.initRoutines_kept
     | with_reducible apply State.readbackFails_kept
     | with_reducible apply State.report_kept
     | with_reducible apply State.wr_kept
     | with_reducible apply State.wrFld_kept
     | fail_if_no_progress (with_reducible refine State.Kept.lit ?_ rfl rfl rfl)
     | (extract_lets -merge -underBinder +onlyGivenNames ky; first | (refine State.Kept.cut ‹State.Kept _ _ _› (t := ky) ?_ ?_; subst ky; rotate_left; intro hx; clear_value ky) | (refine State.Kept.cut2 ‹State.Kept _ _ _› (t := ky) ?_ ?_; subst ky; rotate_left; intro hx; clear_value ky) | (have hk : ky.broken = ky.broken := rfl; clear hk; subst ky) | clear_value ky)
     | intro hx
     | split)

theorem State.step5_kept {kx : Bool} {k0 : State} (st : StartUp) (s : State) (hs : k0.Kept kx s) :
    k0.Kept kx (State.step5 st s) := by
  delta State.step5; beta_reduce
  repeat' (first
   | with_reducible assumption
   | (extract_lets -merge -underBinder +onlyGivenNames ky; refine State.Kept.cut ‹State.Kept _ _ _› (t := ky) ?_ ?_; subst ky; rotate_left; intro hx; clear_value ky)
   | with_reducible apply State.recovery_kept
   | with_reducible apply State.trainPorts_kept
   | with_reducible apply State.wrFld_kept
   | split)

theorem State.step6_kept {kx : Bool} {k0 : State} (s : State) (hs : k0.Kept kx s) :
    k0.Kept kx (State.step6 s) := by
  delta State.step6; beta_reduce
  repeat' (first
   | with_reducible assumption
   | (extract_lets -merge -underBinder +onlyGivenNames ky; first | (refine State.Kept.cut ‹State.Kept _ _ _› (t := ky) ?_ ?_; subst ky; rotate_left; intro hx; clear_value ky) | (have hk : ∀ a, ky a = ky a := (fun _ => rfl); clear hk; subst ky; beta_reduce) | (have hk : ky.broken = ky.broken := rfl; clear hk; subst ky) | clear_value ky)
   | with_reducible apply State.whenB_kept
   | with_reducible apply State.cond_kept
   | with_reducible apply State.defaultSpares_kept
   | with_reducible apply imgRecords_kept
   | with_reducible apply State.measExtend_kept
   | with_reducible apply State.report_kept
   | with_reducible apply State.setBit_kept
   | with_reducible apply State.wr_kept
   | with_reducible apply State.wrFld_kept
   | fail_if_no_progress (with_reducible refine State.Kept.lit ?_ rfl rfl rfl)
   | split)

theorem State.step9_kept {kx : Bool} {k0 : State} (s : State) (hs : k0.Kept kx s) :
    k0.Kept kx (State.step9 s) := by
  delta State.step9; beta_reduce
  repeat' (first
   | with_reducible assumption
   | (extract_lets -merge -underBinder +onlyGivenNames ky; first | (refine State.Kept.cut ‹State.Kept _ _ _› (t := ky) ?_ ?_; subst ky; rotate_left; intro hx; clear_value ky) | (have hk : ky.broken = ky.broken := rfl; clear hk; subst ky) | clear_value ky)
   | with_reducible apply State.each_kept
   | with_reducible apply State.bookOutput_kept
   | with_reducible apply State.startStream_kept
   | with_reducible apply State.wrFld_kept
   | with_reducible apply bookStatus_kept
   | fail_if_no_progress (with_reducible refine State.Kept.lit ?_ rfl rfl rfl)
   | intro hx
   | (refine State.Kept.pair (by with_reducible assumption) ?_)
   | (refine State.Kept.triple (by with_reducible assumption) ?_)
   | split)

theorem State.afterServo_kept {kx : Bool} {k0 : State} (s : State) (hs : k0.Kept kx s) :
    k0.Kept kx (State.afterServo s) := by
  delta State.afterServo; beta_reduce
  repeat' (first
   | with_reducible assumption
   | with_reducible apply State.step9_kept
   | split)

theorem State.bringUp_kept {kx : Bool} {k0 : State} (st : StartUp) (s : State) (hs : k0.Kept kx s) :
    k0.Kept kx (State.bringUp st s) := by
  delta State.bringUp; beta_reduce
  repeat' (first
   | with_reducible assumption
   | (extract_lets -merge -underBinder +onlyGivenNames ky; first | (refine State.Kept.cut ‹State.Kept _ _ _› (t := ky) ?_ ?_; subst ky; rotate_left; intro hx; clear_value ky) | clear_value ky)
   | with_reducible apply State.each_kept
   | with_reducible apply State.linkChange_kept
   | with_reducible apply State.report_kept
   | fail_if_no_progress (with_reducible refine State.Kept.lit ?_ rfl rfl rfl)
   | intro hx
   | (refine State.Kept.pair (by with_reducible assumption) ?_)
   | (refine State.Kept.triple (by with_reducible assumption) ?_)
   | split)

theorem State.steps5_kept {kx : Bool} {k0 : State} (st : StartUp) (s : State) (hs : k0.Kept kx s) :
    k0.Kept kx (State.steps5 st s) := by
  delta State.steps5; beta_reduce
  repeat' (first
   | with_reducible assumption
   | (extract_lets -merge -underBinder +onlyGivenNames ky; first | (refine State.Kept.cut ‹State.Kept _ _ _› (t := ky) ?_ ?_; subst ky; rotate_left; intro hx; clear_value ky) | (have hk : ky.broken = ky.broken := rfl; clear hk; subst ky) | clear_value ky)
   | with_reducible apply State.afterServo_kept
   | with_reducible apply State.bringUp_kept
   | with_reducible apply State.step5_kept
   | with_reducible apply State.step6_kept
   | with_reducible apply State.wrFld_kept
   | fail_if_no_progress (with_reducible refine State.Kept.lit ?_ rfl rfl rfl)
   | intro hx
   | (refine State.Kept.pair (by with_reducible assumption) ?_)
   | (refine State.Kept.triple (by with_reducible assumption) ?_)
   | split)

theorem State.startUp_kept {kx : Bool} {k0 : State} (st : StartUp) (power : Bool) (s : State) (hs : k0.Kept kx s) :
    k0.Kept kx (State.startUp st power s) := by
  delta State.startUp; beta_reduce
  repeat' (first
   | with_reducible assumption
   | (extract_lets -merge -underBinder +onlyGivenNames ky; refine State.Kept.cut ‹State.Kept _ _ _› (t := ky) ?_ ?_; subst ky; rotate_left; intro hx; clear_value ky)
   | with_reducible apply State.bootSlots_kept
   | with_reducible apply State.step1_kept
   | with_reducible apply State.steps5_kept
   | split)

theorem State.restart_kept {kx : Bool} {k0 : State} (meas : Bool) (st : Option StartUp) (s : State) (hs : k0.Kept kx s) :
    k0.Kept kx (State.restart meas st s) := by
  delta State.restart; beta_reduce
  repeat' (first
   | with_reducible assumption
   | (extract_lets -merge -underBinder +onlyGivenNames ky; refine State.Kept.cut ‹State.Kept _ _ _› (t := ky) ?_ ?_; subst ky; rotate_left; intro hx; clear_value ky)
   | with_reducible apply State.cleared_kept
   | with_reducible apply State.startUp_kept
   | split)

theorem State.modReset_kept {kx : Bool} {k0 : State} (st : Option StartUp) (s : State) (hs : k0.Kept kx s) :
    k0.Kept kx (State.modReset st s) := by
  delta State.modReset; beta_reduce
  repeat' (first
   | with_reducible assumption
   | with_reducible apply State.emit_kept
   | with_reducible apply State.restart_kept)

theorem State.wakeUp_kept {kx : Bool} {k0 : State} (s : State) (hs : k0.Kept kx s) :
    k0.Kept kx (State.wakeUp s) := by
  delta State.wakeUp; beta_reduce
  repeat' (first
   | with_reducible assumption
   | with_reducible apply State.ownMacs_kept
   | fail_if_no_progress (with_reducible refine State.Kept.lit ?_ rfl rfl rfl)
   | intro hx
   | (refine State.Kept.pair (by with_reducible assumption) ?_)
   | (refine State.Kept.triple (by with_reducible assumption) ?_)
   | split)

theorem State.powerApplied_kept {kx : Bool} {k0 : State} (b : Bool) (mv : Int) (s : State) (hs : k0.Kept kx s) :
    k0.Kept kx (State.powerApplied b mv s) := by
  delta State.powerApplied; beta_reduce
  repeat' (first
   | with_reducible assumption
   | (extract_lets -merge -underBinder +onlyGivenNames ky; first | (refine State.Kept.cut ‹State.Kept _ _ _› (t := ky) ?_ ?_; subst ky; rotate_left; intro hx; clear_value ky) | (have hk : ky.broken = ky.broken := rfl; clear hk; subst ky) | clear_value ky)
   | with_reducible apply State.inputChange_kept
   | with_reducible apply State.inputTo_kept
   | with_reducible apply State.ownMacs_kept
   | fail_if_no_progress (with_reducible refine State.Kept.lit ?_ rfl rfl rfl)
   | intro hx
   | (refine State.Kept.pair (by with_reducible assumption) ?_)
   | (refine State.Kept.triple (by with_reducible assumption) ?_)
   | split)

theorem State.railRetry_kept {kx : Bool} {k0 : State} (s : State) (hs : k0.Kept kx s) :
    k0.Kept kx (State.railRetry s) := by
  delta State.railRetry; beta_reduce
  repeat' (first
   | with_reducible assumption
   | (extract_lets -merge -underBinder +onlyGivenNames ky; (have hk : ky.broken = ky.broken := rfl; clear hk; subst ky))
   | fail_if_no_progress (with_reducible refine State.Kept.lit ?_ rfl rfl rfl)
   | split)

theorem State.resetRelease_kept {kx : Bool} {k0 : State} (st : StartUp) (s : State) (hs : k0.Kept kx s) :
    k0.Kept kx (State.resetRelease st s) := by
  delta State.resetRelease; beta_reduce
  repeat' (first
   | with_reducible assumption
   | (extract_lets -merge -underBinder +onlyGivenNames ky; (have hk : ky.broken = ky.broken := rfl; clear hk; subst ky))
   | with_reducible apply State.startUp_kept
   | fail_if_no_progress (with_reducible refine State.Kept.lit ?_ rfl rfl rfl)
   | split)

theorem State.powerRemoved_kept {kx : Bool} {k0 : State} (s : State) (hs : k0.Kept kx s) :
    k0.Kept kx (State.powerRemoved s) := by
  unfold State.powerRemoved
  have h := State.abandonFlash_kept s hs
  generalize s.abandonFlash = t at h ⊢
  exact h.trans ⟨fun _ => rfl, fun _ => rfl, rfl, le_refl _, ⟨le_refl _, rfl⟩, fun _ => rfl, fun _ => id,
    fun _ => Nat.zero_le _, fun _ => Nat.zero_le _, fun _ j _ h => absurd h (by simp [State.src, State.reset, BellSrc.reset])⟩

theorem State.holdupExhausted_kept {kx : Bool} {k0 : State} (s : State) (hs : k0.Kept kx s) :
    k0.Kept kx (State.holdupExhausted s) := by
  delta State.holdupExhausted; beta_reduce
  repeat' (first
   | with_reducible assumption
   | (extract_lets -merge -underBinder +onlyGivenNames ky; first | (refine State.Kept.cut ‹State.Kept _ _ _› (t := ky) ?_ ?_; subst ky; rotate_left; intro hx; clear_value ky) | (have hk : ky.broken = ky.broken := rfl; clear hk; subst ky) | clear_value ky)
   | with_reducible apply State.abandonFlash_kept
   | with_reducible apply State.cleared_kept
   | fail_if_no_progress (with_reducible refine State.Kept.lit ?_ rfl rfl rfl)
   | split)

theorem State.bootWatchdog_kept {kx : Bool} {k0 : State} (st : StartUp) (s : State) (hs : k0.Kept kx s) :
    k0.Kept kx (State.bootWatchdog st s) := by
  delta State.bootWatchdog; beta_reduce
  repeat' (first
   | with_reducible assumption
   | with_reducible apply State.markFailed_kept
   | with_reducible apply State.restart_kept
   | fail_if_no_progress (with_reducible refine State.Kept.lit ?_ rfl rfl rfl)
   | intro hx
   | (refine State.Kept.pair (by with_reducible assumption) ?_)
   | (refine State.Kept.triple (by with_reducible assumption) ?_)
   | split)

theorem State.ptpWaitExpiry_kept {kx : Bool} {k0 : State} (s : State) (hs : k0.Kept kx s) :
    k0.Kept kx (State.ptpWaitExpiry s) := by
  delta State.ptpWaitExpiry; beta_reduce
  repeat' (first
   | with_reducible assumption
   | with_reducible apply State.passTo_kept
   | with_reducible apply State.report_kept
   | with_reducible apply State.setBit_kept
   | with_reducible apply State.step9_kept
   | split)

theorem State.ccLostReset_kept {kx : Bool} {k0 : State} (st : StartUp) (s : State) (hs : k0.Kept kx s) :
    k0.Kept kx (State.ccLostReset st s) := by
  delta State.ccLostReset; beta_reduce
  repeat' (first
   | with_reducible assumption
   | with_reducible apply State.modReset_kept
   | split)

theorem factoryReset_kept {kx : Bool} {k0 : State} (b : List Nat) (s : State) (hs : k0.Kept kx s) :
    k0.Kept kx (factoryReset b s).2.2 := by
  delta factoryReset; beta_reduce
  repeat' (first
   | with_reducible assumption
   | with_reducible apply State.putEtvor_kept
   | split)

theorem safeClear_kept {kx : Bool} {k0 : State} (b : List Nat) (s : State) (hs : k0.Kept kx s) :
    k0.Kept kx (safeClear b s).2.2 := by
  delta safeClear; beta_reduce
  repeat' (first
   | with_reducible assumption
   | split)

theorem State.afterCommand_kept {kx : Bool} {k0 : State} (cmd : Nat) (st : Option StartUp) (slot : Option Nat) (ok : Bool) (s : State) (hs : k0.Kept kx s) :
    k0.Kept kx (State.afterCommand cmd st slot ok s) := by
  delta State.afterCommand; beta_reduce
  repeat' (first
   | with_reducible assumption
   | with_reducible apply State.modReset_kept
   | with_reducible apply State.restart_kept
   | split)

theorem State.restartCmd_kept {kx : Bool} {k0 : State} (q : Req) (cmd : Nat) (st : Option StartUp) (f : State → Nat × List Nat × State) (s : State) (hf : ∀ a0, k0.Kept kx a0 → k0.Kept kx (f a0).2.2) (hs : k0.Kept kx s) :
    k0.Kept kx (State.restartCmd q cmd st f s) := by
  delta State.restartCmd; beta_reduce
  repeat' (first
   | with_reducible assumption
   | (extract_lets -merge -underBinder +onlyGivenNames ky; first | (refine State.Kept.cut2 ‹State.Kept _ _ _› (t := ky) ?_ ?_; subst ky; rotate_left; intro hx; clear_value ky) | clear_value ky)
   | with_reducible apply State.afterCommand_kept
   | with_reducible apply State.rmp_kept)

end Sys2Proof.Machine
end

