-- ==== Sys2Proof/Laws/KeptMailbox.lean ====
section
/-! SUPPORT. What the operations of Machine/Mailbox.lean keep (Laws/Kept.lean), one lemma each. -/

namespace Sys2Proof.Machine

/-- Every command of R356 and R358. -/
theorem rmpCommand_kept {k0 : State} (data : List Nat) (via : Via) (cmd : Nat) (b : List Nat) (s : State)
    (hs : k0.Kept true s) : k0.Kept true ((rmpCommand data via cmd b).2 s).2.2 := by
  unfold rmpCommand
  split
  · with_reducible exact State.Kept.cmd (getCmd_kept _ _ hs)
  · with_reducible exact State.Kept.cmd (setCmd_kept _ _ hs)
  · with_reducible exact State.Kept.cmd (certRead_kept _ _ hs)
  · with_reducible exact State.Kept.cmd (quoteCmd_kept _ _ hs)
  · with_reducible exact State.Kept.cmd (logRead_kept _ _ hs)
  · with_reducible exact State.Kept.cmd (memReadCmd_kept _ _ _ hs)
  · with_reducible exact State.Kept.cmd (streamStartCmd_kept _ _ hs)
  · with_reducible exact State.Kept.cmd (streamStopCmd_kept _ _ hs)
  · with_reducible exact State.Kept.cmd (flipCmd_kept _ _ hs)
  · with_reducible exact State.Kept.cmd (stormCmd_kept _ _ _ hs)
  · with_reducible exact State.Kept.cmd (sndCtrl_kept _ _ hs)
  · with_reducible exact State.Kept.cmd (memWriteCmd_kept _ _ hs)
  · with_reducible exact State.Kept.cmd (flashOpen_kept _ _ hs)
  · with_reducible exact State.Kept.cmd (flashWrite_kept _ _ hs)
  · with_reducible exact State.Kept.cmd (flashClose_kept _ _ hs)
  · with_reducible exact State.Kept.cmd (fwCommit_kept _ _ hs)
  · with_reducible exact State.Kept.cmd (factoryReset_kept _ _ hs)
  · with_reducible exact State.Kept.cmd (ucwEnableCmd_kept _ _ hs)
  · with_reducible exact State.Kept.cmd (safeClear_kept _ _ hs)
  · with_reducible exact State.Kept.cmd (spareDisableCmd_kept _ _ hs)
  · with_reducible exact State.Kept.cmd (sealClear_kept _ _ hs)
  · exact hs

theorem State.mbxDone_kept {kx : Bool} {k0 : State} (resp : List Nat) (s : State) (hs : k0.Kept kx s) :
    k0.Kept kx (State.mbxDone resp s) := by
  delta State.mbxDone; beta_reduce
  repeat' (first
   | with_reducible assumption
   | (extract_lets -merge -underBinder +onlyGivenNames ky; first | (refine State.Kept.cut ‹State.Kept _ _ _› (t := ky) ?_ ?_; subst ky; rotate_left; intro hx; clear_value ky) | clear_value ky)
   | with_reducible apply State.each_kept
   | with_reducible apply State.setBit_kept
   | with_reducible apply State.wr_kept
   | intro hx)

theorem State.hostData_kept {kx : Bool} {k0 : State} (data : Option (List Nat)) (s : State) (hs : k0.Kept kx s) :
    k0.Kept kx (State.hostData data s).2 := by
  delta State.hostData; beta_reduce
  repeat' (first
   | with_reducible assumption
   | (extract_lets -merge -underBinder +onlyGivenNames ky; refine State.Kept.cut2 ‹State.Kept _ _ _› (t := ky) ?_ ?_; subst ky; rotate_left; intro hx; clear_value ky)
   | with_reducible apply State.drawMany_kept
   | split)

theorem State.mbxServe_kept {k0 : State} (st : Option StartUp) (data : Option (List Nat)) (s : State) (hs : k0.Kept true s) :
    k0.Kept true (State.mbxServe st data s) := by
  unfold State.mbxServe
  split
  · exact hs
  · dsimp only
    split
    · exact State.mbxDone_kept _ _ hs
    · refine State.afterCommand_kept _ _ _ _ _ (State.mbxDone_kept _ _ (State.rmp_kept _ _ _ _ _ ?_ ?_))
      · exact fun s h => rmpCommand_kept _ _ _ _ s h
      · exact State.hostData_kept _ _ hs

theorem State.mailboxGo_kept {k0 : State} (agent value : Nat) (st : StartUp) (data : List Nat) (s : State)
    (hs : k0.Kept true s) : k0.Kept true (State.mailboxGo agent value st data s) := by
  unfold State.mailboxGo
  dsimp only
  split
  · exact State.regWrite_kept _ _ _ _ hs
  · exact State.mbxServe_kept _ _ _ (State.regWrite_kept _ _ _ _ hs)

theorem State.served_kept {k0 : State} (s : State) (hs : k0.Kept true s) : k0.Kept true (State.served s) :=
  State.mbxServe_kept _ _ _ hs

end Sys2Proof.Machine
end

