-- ==== Sys2Proof/Laws/KeptExec.lean ====
section
/-! SUPPORT. What each meaning keeps (Laws/Kept.lean). -/

namespace Sys2Proof.Machine

theorem execSourceEdge_kept {kx : Bool} (src : Nat) (s : State) (t : State) (h : execSourceEdge src s = .next t) :
    s.Kept kx t := by
  cases h
  repeat' (first
   | exact State.Kept.refl _
   | with_reducible apply sourceEdge_kept)

theorem execBellClaim_kept {kx : Bool} (agent target : Nat) (s : State) (t : State) (h : execBellClaim agent target s = .next t) :
    s.Kept kx t := by
  cases h
  have hs : s.Kept kx s := State.Kept.refl s
  repeat' (first
   | with_reducible assumption
   | with_reducible apply State.usageReg_kept
   | with_reducible apply bellClaim_kept
   | fail_if_no_progress (with_reducible refine State.Kept.lit ?_ rfl rfl rfl)
   | intro hx
   | (refine State.Kept.pair (by with_reducible assumption) ?_)
   | (refine State.Kept.triple (by with_reducible assumption) ?_)
   | split)

theorem execBellComplete_kept {kx : Bool} (agent target value : Nat) (s : State) (t : State) (h : execBellComplete agent target value s = .next t) :
    s.Kept kx t := by
  cases h
  have hs : s.Kept kx s := State.Kept.refl s
  repeat' (first
   | with_reducible assumption
   | with_reducible apply State.usageReg_kept
   | with_reducible apply bellComplete_kept
   | fail_if_no_progress (with_reducible refine State.Kept.lit ?_ rfl rfl rfl)
   | intro hx
   | (refine State.Kept.pair (by with_reducible assumption) ?_)
   | (refine State.Kept.triple (by with_reducible assumption) ?_)
   | split)

theorem execBellSwset_kept {kx : Bool} (agent word value : Nat) (s : State) (t : State) (h : execBellSwset agent word value s = .next t) :
    s.Kept kx t := by
  cases h
  repeat' (first
   | exact State.Kept.refl _
   | with_reducible apply bellSwset_kept)

theorem execBellSrcCfgWrite_kept {kx : Bool} (agent src value : Nat) (s : State) (t : State) (h : execBellSrcCfgWrite agent src value s = .next t) :
    s.Kept kx t := by
  cases h
  have hs : s.Kept kx s := State.Kept.refl s
  repeat' (first
   | with_reducible assumption
   | with_reducible apply State.setting_kept
   | with_reducible apply bellSrcCfgWrite_kept)

theorem execHoldTimerExpiry_kept {kx : Bool} (src : Nat) (s : State) (t : State) (h : execHoldTimerExpiry src s = .next t) :
    s.Kept kx t := by
  cases h
  repeat' (first
   | exact State.Kept.refl _
   | with_reducible apply holdTimerExpiry_kept)

theorem execMsixUnmask_kept {kx : Bool} (vector : Nat) (s : State) (t : State) (h : execMsixUnmask vector s = .next t) :
    s.Kept kx t := by
  cases h
  have hs : s.Kept kx s := State.Kept.refl s
  repeat' (first
   | with_reducible assumption
   | (extract_lets -merge -underBinder +onlyGivenNames ky; first | (refine State.Kept.cut ‹State.Kept _ _ _› (t := ky) ?_ ?_; subst ky; rotate_left; intro hx; clear_value ky) | (refine State.Kept.cut2 ‹State.Kept _ _ _› (t := ky) ?_ ?_; subst ky; rotate_left; intro hx; clear_value ky) | (refine State.Kept.cut3 ‹State.Kept _ _ _› (t := ky) ?_ ?_; subst ky; rotate_left; intro hx; clear_value ky) | (refine State.Kept.cut4 ‹State.Kept _ _ _› (t := ky) ?_ ?_; subst ky; rotate_left; intro hx; clear_value ky) | (have hk : ∀ a, ky a = ky a := (fun _ => rfl); clear hk; subst ky; beta_reduce) | (have hk : ky.broken = ky.broken := rfl; clear hk; subst ky) | (have hk : ky.logWr = ky.logWr := rfl; clear hk; subst ky) | clear_value ky)
   | with_reducible apply State.clrBit_kept
   | with_reducible apply State.msixUnmask_kept
   | with_reducible apply State.usageReg_kept
   | fail_if_no_progress (with_reducible refine State.Kept.lit ?_ rfl rfl rfl)
   | intro hx
   | (refine State.Kept.pair (by with_reducible assumption) ?_)
   | (refine State.Kept.triple (by with_reducible assumption) ?_)
   | split)

theorem execAlloc_kept {kx : Bool} (agent owner pool cls : Nat) (s : State) (t : State) (h : execAlloc agent owner pool cls s = .next t) :
    s.Kept kx t := by
  cases h
  repeat' (first
   | exact State.Kept.refl _
   | with_reducible apply State.alloc_kept)

theorem execFree_kept {kx : Bool} (agent addr : Nat) (s : State) (t : State) (h : execFree agent addr s = .next t) :
    s.Kept kx t := by
  cases h
  repeat' (first
   | exact State.Kept.refl _
   | with_reducible apply State.free_kept)

theorem execRelease_kept {kx : Bool} (agent addr : Nat) (s : State) (t : State) (h : execRelease agent addr s = .next t) :
    s.Kept kx t := by
  cases h
  repeat' (first
   | exact State.Kept.refl _
   | with_reducible apply State.release_kept)

theorem execShare_kept {kx : Bool} (agent addr : Nat) (s : State) (t : State) (h : execShare agent addr s = .next t) :
    s.Kept kx t := by
  cases h
  repeat' (first
   | exact State.Kept.refl _
   | with_reducible apply State.share_kept)

theorem execTransfer_kept {kx : Bool} (agent addr owner : Nat) (s : State) (t : State) (h : execTransfer agent addr owner s = .next t) :
    s.Kept kx t := by
  cases h
  repeat' (first
   | exact State.Kept.refl _
   | with_reducible apply State.transfer_kept)

theorem execPoolEnable_kept {kx : Bool} (agent pool value : Nat) (s : State) (t : State) (h : execPoolEnable agent pool value s = .next t) :
    s.Kept kx t := by
  cases h
  have hs : s.Kept kx s := State.Kept.refl s
  repeat' (first
   | with_reducible assumption
   | with_reducible apply State.poolCfgWrite_kept
   | with_reducible apply State.setting_kept
   | with_reducible apply State.usageReg_kept
   | fail_if_no_progress (with_reducible refine State.Kept.lit ?_ rfl rfl rfl)
   | intro hx
   | (refine State.Kept.pair (by with_reducible assumption) ?_)
   | (refine State.Kept.triple (by with_reducible assumption) ?_)
   | split)

theorem execPoolDisable_kept {kx : Bool} (agent pool value : Nat) (s : State) (t : State) (h : execPoolDisable agent pool value s = .next t) :
    s.Kept kx t := by
  cases h
  have hs : s.Kept kx s := State.Kept.refl s
  repeat' (first
   | with_reducible assumption
   | with_reducible apply State.poolCfgWrite_kept
   | with_reducible apply State.setting_kept
   | with_reducible apply State.usageReg_kept
   | fail_if_no_progress (with_reducible refine State.Kept.lit ?_ rfl rfl rfl)
   | intro hx
   | (refine State.Kept.pair (by with_reducible assumption) ?_)
   | (refine State.Kept.triple (by with_reducible assumption) ?_)
   | split)

theorem execThreaded_kept {kx : Bool} (pool : Nat) (s : State) (t : State) (h : execThreaded pool s = .next t) :
    s.Kept kx t := by
  cases h
  repeat' (first
   | exact State.Kept.refl _
   | with_reducible apply threaded_kept)

theorem execArmChange_kept {kx : Bool} (armed : Bool) (s : State) (t : State) (h : execArmChange armed s = .next t) :
    s.Kept kx t := by
  cases h
  repeat' (first
   | exact State.Kept.refl _
   | with_reducible apply armChange_kept)

theorem execPresentPress_kept {kx : Bool} (s : State) (t : State) (h : execPresentPress s = .next t) :
    s.Kept kx t := by
  cases h
  repeat' (first
   | exact State.Kept.refl _
   | with_reducible apply presentPress_kept)

theorem execPresenceWindowExpiry_kept {kx : Bool} (s : State) (t : State) (h : execPresenceWindowExpiry s = .next t) :
    s.Kept kx t := by
  cases h
  repeat' (first
   | exact State.Kept.refl _
   | with_reducible apply presenceWindowExpiry_kept)

theorem execBtnStuck_kept {kx : Bool} (s : State) (t : State) (h : execBtnStuck s = .next t) :
    s.Kept kx t := by
  cases h
  repeat' (first
   | exact State.Kept.refl _
   | with_reducible apply btnStuck_kept)

theorem execButtonRelease_kept {kx : Bool} (s : State) (t : State) (h : execButtonRelease s = .next t) :
    s.Kept kx t := by
  cases h
  repeat' (first
   | exact State.Kept.refl _
   | with_reducible apply buttonRelease_kept)

theorem execSealBreak_kept {kx : Bool} (s : State) (t : State) (h : execSealBreak s = .next t) :
    s.Kept kx t := by
  cases h
  repeat' (first
   | exact State.Kept.refl _
   | with_reducible apply sealBreak_kept)

theorem execSealLoopClose_kept {kx : Bool} (s : State) (t : State) (h : execSealLoopClose s = .next t) :
    s.Kept kx t := by
  cases h
  repeat' (first
   | exact State.Kept.refl _
   | with_reducible apply sealLoopClose_kept)

theorem execCertRead_kept {kx : Bool} (req : Req) (body : List Nat) (s : State) (t : State) (h : execCertRead req body s = .next t) :
    s.Kept kx t := by
  cases h
  repeat' (first
   | exact State.Kept.refl _
   | with_reducible apply certRead_kept
   | with_reducible apply State.rmpRun_kept)

theorem execQuote_kept {kx : Bool} (req : Req) (body : List Nat) (s : State) (t : State) (h : execQuote req body s = .next t) :
    s.Kept kx t := by
  cases h
  repeat' (first
   | exact State.Kept.refl _
   | with_reducible apply quoteCmd_kept
   | with_reducible apply State.rmpRun_kept)

theorem execLogRead_kept {kx : Bool} (req : Req) (body : List Nat) (s : State) (t : State) (h : execLogRead req body s = .next t) :
    s.Kept kx t := by
  cases h
  repeat' (first
   | exact State.Kept.refl _
   | with_reducible apply logRead_kept
   | with_reducible apply State.rmpRun_kept)

theorem execSealClear_kept (req : Req) (body : List Nat) (s : State) (t : State) (h : execSealClear req body s = .next t) :
    s.Kept true t := by
  cases h
  repeat' (first
   | exact State.Kept.refl _
   | with_reducible apply State.rmpRun_kept
   | with_reducible apply sealClear_kept)

theorem execFwCommit_kept (req : Req) (body : List Nat) (s : State) (t : State) (h : execFwCommit req body s = .next t) :
    s.Kept true t := by
  cases h
  repeat' (first
   | exact State.Kept.refl _
   | with_reducible apply fwCommit_kept
   | with_reducible apply State.rmpRun_kept)

theorem execFlashOpen_kept {kx : Bool} (req : Req) (body : List Nat) (s : State) (t : State) (h : execFlashOpen req body s = .next t) :
    s.Kept kx t := by
  cases h
  repeat' (first
   | exact State.Kept.refl _
   | with_reducible apply flashOpen_kept
   | with_reducible apply State.rmpRun_kept)

theorem execFlashWrite_kept {kx : Bool} (req : Req) (body : List Nat) (s : State) (t : State) (h : execFlashWrite req body s = .next t) :
    s.Kept kx t := by
  cases h
  repeat' (first
   | exact State.Kept.refl _
   | with_reducible apply flashWrite_kept
   | with_reducible apply State.rmpRun_kept)

theorem execFlashWriteTimeout_kept {kx : Bool} (s : State) (t : State) (h : execFlashWriteTimeout s = .next t) :
    s.Kept kx t := by
  cases h
  repeat' (first
   | exact State.Kept.refl _
   | with_reducible apply flashWriteTimeout_kept)

theorem execHmDoorbell_kept {kx : Bool} (agent queue index : Nat) (s : State) (t : State) (h : execHmDoorbell agent queue index s = .next t) :
    s.Kept kx t := by
  cases h
  repeat' (first
   | exact State.Kept.refl _
   | with_reducible apply State.dispatch_kept
   | with_reducible apply State.doorbell_kept
   | with_reducible apply State.usageReg_kept
   | split)

theorem execQctxLoad_kept {kx : Bool} (queue : Nat) (s : State) (t : State) (h : execQctxLoad queue s = .next t) :
    s.Kept kx t := by
  cases h
  repeat' (first
   | exact State.Kept.refl _
   | with_reducible apply State.dispatch_kept
   | with_reducible apply State.loadCtx_kept)

theorem execDispatchDeadlineExpiry_kept {kx : Bool} (queue index : Nat) (s : State) (t : State) (h : execDispatchDeadlineExpiry queue index s = .next t) :
    s.Kept kx t := by
  cases h
  have hs : s.Kept kx s := State.Kept.refl s
  repeat' (first
   | with_reducible assumption
   | (extract_lets -merge -underBinder +onlyGivenNames ky; first | (refine State.Kept.cut ‹State.Kept _ _ _› (t := ky) ?_ ?_; subst ky; rotate_left; intro hx; clear_value ky) | (refine State.Kept.cut2 ‹State.Kept _ _ _› (t := ky) ?_ ?_; subst ky; rotate_left; intro hx; clear_value ky) | (refine State.Kept.cut3 ‹State.Kept _ _ _› (t := ky) ?_ ?_; subst ky; rotate_left; intro hx; clear_value ky) | (refine State.Kept.cut4 ‹State.Kept _ _ _› (t := ky) ?_ ?_; subst ky; rotate_left; intro hx; clear_value ky) | (have hk : ∀ a, ky a = ky a := (fun _ => rfl); clear hk; subst ky; beta_reduce) | (have hk : ky.broken = ky.broken := rfl; clear hk; subst ky) | (have hk : ky.logWr = ky.logWr := rfl; clear hk; subst ky) | clear_value ky)
   | with_reducible apply State.completeUndispatched_kept
   | with_reducible apply State.dispatch_kept
   | fail_if_no_progress (with_reducible refine State.Kept.lit ?_ rfl rfl rfl)
   | intro hx
   | (refine State.Kept.pair (by with_reducible assumption) ?_)
   | (refine State.Kept.triple (by with_reducible assumption) ?_)
   | split)

theorem execQcRead_kept {kx : Bool} (agent : Nat) (s : State) (t : State) (h : execQcRead agent s = .next t) :
    s.Kept kx t := by
  cases h
  repeat' (first
   | exact State.Kept.refl _
   | with_reducible apply State.qcCmd_kept
   | with_reducible apply State.qcRead_kept)

theorem execQcWrite_kept {kx : Bool} (agent : Nat) (s : State) (t : State) (h : execQcWrite agent s = .next t) :
    s.Kept kx t := by
  cases h
  repeat' (first
   | exact State.Kept.refl _
   | with_reducible apply State.qcCmd_kept
   | with_reducible apply State.qcWrite_kept)

theorem execQcEnable_kept {kx : Bool} (agent : Nat) (s : State) (t : State) (h : execQcEnable agent s = .next t) :
    s.Kept kx t := by
  cases h
  repeat' (first
   | exact State.Kept.refl _
   | with_reducible apply State.qcCmd_kept
   | with_reducible apply State.qcEnable_kept)

theorem execQcDisable_kept {kx : Bool} (agent : Nat) (s : State) (t : State) (h : execQcDisable agent s = .next t) :
    s.Kept kx t := by
  cases h
  repeat' (first
   | exact State.Kept.refl _
   | with_reducible apply State.qcCmd_kept
   | with_reducible apply State.qcDisable_kept)

theorem execBook_kept {kx : Bool} (agent ctx : Nat) (s : State) (t : State) (h : execBook agent ctx s = .next t) :
    s.Kept kx t := by
  cases h
  repeat' (first
   | exact State.Kept.refl _
   | with_reducible apply State.bookCmd_kept)

theorem execWithdraw_kept {kx : Bool} (agent ctx : Nat) (s : State) (t : State) (h : execWithdraw agent ctx s = .next t) :
    s.Kept kx t := by
  cases h
  repeat' (first
   | exact State.Kept.refl _
   | with_reducible apply State.bookCmd_kept)

theorem execBookOutput_kept {kx : Bool} (agent output : Nat) (s : State) (t : State) (h : execBookOutput agent output s = .next t) :
    s.Kept kx t := by
  cases h
  repeat' (first
   | exact State.Kept.refl _
   | with_reducible apply State.bookCmd_kept)

theorem execGateListTakeover_kept {kx : Bool} (list : Nat) (s : State) (t : State) (h : execGateListTakeover list s = .next t) :
    s.Kept kx t := by
  cases h
  repeat' (first
   | exact State.Kept.refl _
   | with_reducible apply State.gateTakeover_kept)

theorem execGateEntryChange_kept {kx : Bool} (list : Nat) (s : State) (t : State) (h : execGateEntryChange list s = .next t) :
    s.Kept kx t := by
  cases h
  repeat' (first
   | exact State.Kept.refl _
   | with_reducible apply State.gateStep_kept)

theorem execHmGateSwap_kept {kx : Bool} (agent list value : Nat) (s : State) (t : State) (h : execHmGateSwap agent list value s = .next t) :
    s.Kept kx t := by
  cases h
  have hs : s.Kept kx s := State.Kept.refl s
  repeat' (first
   | with_reducible assumption
   | (extract_lets -merge -underBinder +onlyGivenNames ky; first | (refine State.Kept.cut ‹State.Kept _ _ _› (t := ky) ?_ ?_; subst ky; rotate_left; intro hx; clear_value ky) | (refine State.Kept.cut2 ‹State.Kept _ _ _› (t := ky) ?_ ?_; subst ky; rotate_left; intro hx; clear_value ky) | (refine State.Kept.cut3 ‹State.Kept _ _ _› (t := ky) ?_ ?_; subst ky; rotate_left; intro hx; clear_value ky) | (refine State.Kept.cut4 ‹State.Kept _ _ _› (t := ky) ?_ ?_; subst ky; rotate_left; intro hx; clear_value ky) | (have hk : ∀ a, ky a = ky a := (fun _ => rfl); clear hk; subst ky; beta_reduce) | (have hk : ky.broken = ky.broken := rfl; clear hk; subst ky) | (have hk : ky.logWr = ky.logWr := rfl; clear hk; subst ky) | clear_value ky)
   | with_reducible apply State.runtimeChanged_kept
   | with_reducible apply State.stage_kept
   | with_reducible apply State.usageReg_kept
   | fail_if_no_progress (with_reducible refine State.Kept.lit ?_ rfl rfl rfl)
   | intro hx
   | (refine State.Kept.pair (by with_reducible assumption) ?_)
   | (refine State.Kept.triple (by with_reducible assumption) ?_)
   | split)

theorem execEntropyDecode_kept {kx : Bool} (unit : Nat) (pic : CodedPic) (s : State) (t : State) (h : execEntropyDecode unit pic s = .next t) :
    s.Kept kx t := by
  cases h
  have hs : s.Kept kx s := State.Kept.refl s
  repeat' (first
   | with_reducible assumption
   | with_reducible apply State.entropyDecode_kept
   | with_reducible apply State.runJob_kept)

theorem execReconstruct_kept {kx : Bool} (unit : Nat) (out : PicOut) (s : State) (t : State) (h : execReconstruct unit out s = .next t) :
    s.Kept kx t := by
  cases h
  repeat' (first
   | exact State.Kept.refl _
   | with_reducible apply State.reconstruct_kept
   | with_reducible apply State.runJob_kept)

theorem execDecodeStart_kept {kx : Bool} (unit : Nat) (s : State) (t : State) (h : execDecodeStart unit s = .next t) :
    s.Kept kx t := by
  cases h
  repeat' (first
   | exact State.Kept.refl _
   | with_reducible apply State.decStart_kept
   | with_reducible apply State.runJob_kept)

theorem execDecodeStop_kept {kx : Bool} (unit : Nat) (s : State) (t : State) (h : execDecodeStop unit s = .next t) :
    s.Kept kx t := by
  cases h
  repeat' (first
   | exact State.Kept.refl _
   | with_reducible apply State.runJob_kept
   | with_reducible apply State.streamStopJob_kept)

theorem execDecodeReadStatus_kept {kx : Bool} (unit : Nat) (s : State) (t : State) (h : execDecodeReadStatus unit s = .next t) :
    s.Kept kx t := by
  cases h
  repeat' (first
   | exact State.Kept.refl _
   | with_reducible apply State.readStatus_kept
   | with_reducible apply State.runJob_kept)

theorem execFlush_kept {kx : Bool} (unit : Nat) (s : State) (t : State) (h : execFlush unit s = .next t) :
    s.Kept kx t := by
  cases h
  repeat' (first
   | exact State.Kept.refl _
   | with_reducible apply State.flushJob_kept
   | with_reducible apply State.runJob_kept)

theorem execRefreshRequestRepeat_kept {kx : Bool} (ctx : Nat) (s : State) (t : State) (h : execRefreshRequestRepeat ctx s = .next t) :
    s.Kept kx t := by
  cases h
  repeat' (first
   | exact State.Kept.refl _
   | with_reducible apply State.refreshRepeat_kept)

theorem execModelRead_kept {kx : Bool} (unit : Nat) (s : State) (t : State) (h : execModelRead unit s = .next t) :
    s.Kept kx t := by
  cases h
  repeat' (first
   | exact State.Kept.refl _
   | with_reducible apply State.modelRead_kept
   | with_reducible apply State.runJob_kept)

theorem execModelSeed_kept {kx : Bool} (unit : Nat) (s : State) (t : State) (h : execModelSeed unit s = .next t) :
    s.Kept kx t := by
  cases h
  repeat' (first
   | exact State.Kept.refl _
   | with_reducible apply State.modelSeed_kept
   | with_reducible apply State.runJob_kept)

theorem execUcwOverrun_kept {kx : Bool} (pilot : Nat) (s : State) (t : State) (h : execUcwOverrun pilot s = .next t) :
    s.Kept kx t := by
  cases h
  repeat' (first
   | exact State.Kept.refl _
   | with_reducible apply State.ucwOverrun_kept)

theorem execPlUcwRearm_kept {kx : Bool} (agent pilot value : Nat) (s : State) (t : State) (h : execPlUcwRearm agent pilot value s = .next t) :
    s.Kept kx t := by
  cases h
  repeat' (first
   | exact State.Kept.refl _
   | with_reducible apply State.ucwRearm_kept)

theorem execEncode_kept {kx : Bool} (unit : Nat) (out : EncOut) (s : State) (t : State) (h : execEncode unit out s = .next t) :
    s.Kept kx t := by
  cases h
  have hs : s.Kept kx s := State.Kept.refl s
  repeat' (first
   | with_reducible assumption
   | with_reducible apply State.encodePic_kept
   | with_reducible apply State.runEnc_kept)

theorem execEntropyEncode_kept {kx : Bool} (unit : Nat) (data : List Nat) (s : State) (t : State) (h : execEntropyEncode unit data s = .next t) :
    s.Kept kx t := by
  cases h
  repeat' (first
   | exact State.Kept.refl _
   | with_reducible apply State.entropyEncode_kept
   | with_reducible apply State.runEnc_kept)

theorem execEncodeStart_kept {kx : Bool} (unit : Nat) (s : State) (t : State) (h : execEncodeStart unit s = .next t) :
    s.Kept kx t := by
  cases h
  repeat' (first
   | exact State.Kept.refl _
   | with_reducible apply State.encStart_kept
   | with_reducible apply State.runJob_kept)

theorem execEncodeStop_kept {kx : Bool} (unit : Nat) (s : State) (t : State) (h : execEncodeStop unit s = .next t) :
    s.Kept kx t := by
  cases h
  repeat' (first
   | exact State.Kept.refl _
   | with_reducible apply State.runJob_kept
   | with_reducible apply State.streamStopJob_kept)

theorem execEncodeReadStatus_kept {kx : Bool} (unit : Nat) (s : State) (t : State) (h : execEncodeReadStatus unit s = .next t) :
    s.Kept kx t := by
  cases h
  repeat' (first
   | exact State.Kept.refl _
   | with_reducible apply State.readStatus_kept
   | with_reducible apply State.runJob_kept)

theorem execForceSweep_kept {kx : Bool} (unit : Nat) (s : State) (t : State) (h : execForceSweep unit s = .next t) :
    s.Kept kx t := by
  cases h
  repeat' (first
   | exact State.Kept.refl _
   | with_reducible apply State.forceSweep_kept
   | with_reducible apply State.runJob_kept)

theorem execRestart_kept {kx : Bool} (unit : Nat) (s : State) (t : State) (h : execRestart unit s = .next t) :
    s.Kept kx t := by
  cases h
  repeat' (first
   | exact State.Kept.refl _
   | with_reducible apply State.restartJob_kept
   | with_reducible apply State.runJob_kept)

theorem execCompose_kept {kx : Bool} (unit : Nat) (host : List (Nat × List Nat)) (s : State) (t : State) (h : execCompose unit host s = .next t) :
    s.Kept kx t := by
  cases h
  have hs : s.Kept kx s := State.Kept.refl s
  repeat' (first
   | with_reducible assumption
   | with_reducible apply State.runCompose_kept)

theorem execCmpLayoutFlip_kept {kx : Bool} (agent value : Nat) (s : State) (t : State) (h : execCmpLayoutFlip agent value s = .next t) :
    s.Kept kx t := by
  cases h
  repeat' (first
   | exact State.Kept.refl _
   | with_reducible apply State.layoutFlip_kept
   | with_reducible apply State.usageReg_kept
   | split)

theorem execDisplayVsync_kept {kx : Bool} (output : Nat) (s : State) (t : State) (h : execDisplayVsync output s = .next t) :
    s.Kept kx t := by
  cases h
  repeat' (first
   | exact State.Kept.refl _
   | with_reducible apply State.vsync_kept)

theorem execHpdLow_kept {kx : Bool} (output : Nat) (s : State) (t : State) (h : execHpdLow output s = .next t) :
    s.Kept kx t := by
  cases h
  repeat' (first
   | exact State.Kept.refl _
   | with_reducible apply State.hpdLow_kept)

theorem execIrqHpd_kept {kx : Bool} (output : Nat) (linkLost trains : Bool) (s : State) (t : State) (h : execIrqHpd output linkLost trains s = .next t) :
    s.Kept kx t := by
  cases h
  repeat' (first
   | exact State.Kept.refl _
   | with_reducible apply State.irqHpd_kept)

theorem execHpdAssert_kept {kx : Bool} (output lanes rate diag : Nat) (trains : Bool) (s : State) (t : State) (h : execHpdAssert output lanes rate diag trains s = .next t) :
    s.Kept kx t := by
  cases h
  repeat' (first
   | exact State.Kept.refl _
   | with_reducible apply State.hpdAssert_kept)

theorem execLinkTrainingRetry_kept {kx : Bool} (output : Nat) (trains : Bool) (s : State) (t : State) (h : execLinkTrainingRetry output trains s = .next t) :
    s.Kept kx t := by
  cases h
  repeat' (first
   | exact State.Kept.refl _
   | with_reducible apply State.linkRetry_kept)

theorem execAuxTimeout_kept {kx : Bool} (output : Nat) (s : State) (t : State) (h : execAuxTimeout output s = .next t) :
    s.Kept kx t := by
  cases h
  repeat' (first
   | exact State.Kept.refl _
   | with_reducible apply State.auxTimeout_kept)

theorem execLaneFault_kept {kx : Bool} (output lane kind : Nat) (trains : Bool) (s : State) (t : State) (h : execLaneFault output lane kind trains s = .next t) :
    s.Kept kx t := by
  cases h
  repeat' (first
   | exact State.Kept.refl _
   | with_reducible apply State.laneFault_kept)

theorem execLayoutFlip_kept {kx : Bool} (req : Req) (body : List Nat) (s : State) (t : State) (h : execLayoutFlip req body s = .next t) :
    s.Kept kx t := by
  cases h
  repeat' (first
   | exact State.Kept.refl _
   | with_reducible apply flipCmd_kept
   | with_reducible apply State.rmpRun_kept)

theorem execStorm_kept {kx : Bool} (req : Req) (body : List Nat) (s : State) (t : State) (h : execStorm req body s = .next t) :
    s.Kept kx t := by
  cases h
  repeat' (first
   | exact State.Kept.refl _
   | with_reducible apply State.rmpRun_kept
   | with_reducible apply stormCmd_kept)

theorem execStormFragmentExpiry_kept {kx : Bool} (id : Nat) (s : State) (t : State) (h : execStormFragmentExpiry id s = .next t) :
    s.Kept kx t := by
  cases h
  repeat' (first
   | exact State.Kept.refl _
   | with_reducible apply State.fragExpiry_kept)

theorem execNetLinkChange_kept {kx : Bool} (port : Nat) (up fec localFault remoteFault : Bool) (speed : Nat) (s : State) (t : State) (h : execNetLinkChange port up fec localFault remoteFault speed s = .next t) :
    s.Kept kx t := by
  cases h
  repeat' (first
   | exact State.Kept.refl _
   | with_reducible apply State.linkChange_kept)

theorem execIngressDatagram_kept {kx : Bool} (d : Datagram) (s : State) (t : State) (h : execIngressDatagram d s = .next t) :
    s.Kept kx t := by
  cases h
  repeat' (first
   | exact State.Kept.refl _
   | with_reducible apply State.ingress_kept)

theorem execMergeWindowExpiry_kept {kx : Bool} (classifier : Nat) (s : State) (t : State) (h : execMergeWindowExpiry classifier s = .next t) :
    s.Kept kx t := by
  cases h
  repeat' (first
   | exact State.Kept.refl _
   | with_reducible apply State.mergeExpiry_kept)

theorem execNeighbourRequestRx_kept {kx : Bool} (port kind : Nat) (s : State) (t : State) (h : execNeighbourRequestRx port kind s = .next t) :
    s.Kept kx t := by
  cases h
  repeat' (first
   | exact State.Kept.refl _
   | with_reducible apply State.neighbourRx_kept)

theorem execFeedbackRx_kept {kx : Bool} (payload : List Nat) (s : State) (t : State) (h : execFeedbackRx payload s = .next t) :
    s.Kept kx t := by
  cases h
  repeat' (first
   | exact State.Kept.refl _
   | with_reducible apply State.feedback_kept)

theorem execTransmit_kept {kx : Bool} (unit : Nat) (times : List Nat) (s : State) (t : State) (h : execTransmit unit times s = .next t) :
    s.Kept kx t := by
  cases h
  have hs : s.Kept kx s := State.Kept.refl s
  repeat' (first
   | with_reducible assumption
   | with_reducible apply State.runJob_kept
   | with_reducible apply State.transmit_kept)

theorem execCompletionDeadline_kept {kx : Bool} (outs : List (Nat × List Nat)) (s : State) (t : State) (h : execCompletionDeadline outs s = .next t) :
    s.Kept kx t := by
  cases h
  have hs : s.Kept kx s := State.Kept.refl s
  repeat' (first
   | with_reducible assumption
   | with_reducible apply State.txDeadline_kept)

theorem execFeederPacket_kept {kx : Bool} (port : Nat) (bytes sync : List Nat) (nextSync : Bool) (s : State) (t : State) (h : execFeederPacket port bytes sync nextSync s = .next t) :
    s.Kept kx t := by
  cases h
  repeat' (first
   | exact State.Kept.refl _
   | with_reducible apply State.feederPacket_kept)

theorem execDemuxRead_kept {kx : Bool} (port : Nat) (s : State) (t : State) (h : execDemuxRead port s = .next t) :
    s.Kept kx t := by
  cases h
  repeat' (first
   | exact State.Kept.refl _
   | with_reducible apply State.demuxRead_kept)

theorem execFeednDataRead_kept {kx : Bool} (agent port : Nat) (s : State) (t : State) (h : execFeednDataRead agent port s = .next t) :
    s.Kept kx t := by
  cases h
  repeat' (first
   | exact State.Kept.refl _
   | with_reducible apply State.emit_kept
   | with_reducible apply State.feedData_kept)

theorem execFeederSilent_kept {kx : Bool} (port : Nat) (s : State) (t : State) (h : execFeederSilent port s = .next t) :
    s.Kept kx t := by
  cases h
  repeat' (first
   | exact State.Kept.refl _
   | with_reducible apply State.feederSilent_kept)

theorem execHoldShort_kept {kx : Bool} (port : Nat) (s : State) (t : State) (h : execHoldShort port s = .next t) :
    s.Kept kx t := by
  cases h
  repeat' (first
   | exact State.Kept.refl _
   | with_reducible apply State.holdShort_kept)

theorem execFeederPinTest_kept {kx : Bool} (port pins : Nat) (s : State) (t : State) (h : execFeederPinTest port pins s = .next t) :
    s.Kept kx t := by
  cases h
  repeat' (first
   | exact State.Kept.refl _
   | with_reducible apply State.pinTest_kept)

theorem execPathLost_kept {kx : Bool} (port : Nat) (s : State) (t : State) (h : execPathLost port s = .next t) :
    s.Kept kx t := by
  cases h
  repeat' (first
   | exact State.Kept.refl _
   | with_reducible apply State.pathLostAt_kept)

theorem execPathLostEnds_kept {kx : Bool} (port : Nat) (s : State) (t : State) (h : execPathLostEnds port s = .next t) :
    s.Kept kx t := by
  cases h
  repeat' (first
   | exact State.Kept.refl _
   | with_reducible apply State.pathFound_kept)

theorem execInputStateChange_kept {kx : Bool} (isB : Bool) (mv : Int) (s : State) (t : State) (h : execInputStateChange isB mv s = .next t) :
    s.Kept kx t := by
  cases h
  have hs : s.Kept kx s := State.Kept.refl s
  repeat' (first
   | with_reducible assumption
   | with_reducible apply State.inputChange_kept
   | with_reducible apply State.wakeUp_kept)

theorem execEfuseTrip_kept {kx : Bool} (isB : Bool) (s : State) (t : State) (h : execEfuseTrip isB s = .next t) :
    s.Kept kx t := by
  cases h
  repeat' (first
   | exact State.Kept.refl _
   | with_reducible apply State.efuseTrip_kept)

theorem execEfuseRetry_kept {kx : Bool} (isB fault : Bool) (mv : Int) (s : State) (t : State) (h : execEfuseRetry isB fault mv s = .next t) :
    s.Kept kx t := by
  cases h
  have hs : s.Kept kx s := State.Kept.refl s
  repeat' (first
   | with_reducible assumption
   | with_reducible apply State.efuseRetry_kept
   | with_reducible apply State.wakeUp_kept)

theorem execSingleFeed_kept {kx : Bool} (isB : Bool) (s : State) (t : State) (h : execSingleFeed isB s = .next t) :
    s.Kept kx t := by
  cases h
  repeat' (first
   | exact State.Kept.refl _
   | with_reducible apply State.singleFeed_kept)

theorem execSingleFeedClears_kept {kx : Bool} (isB : Bool) (s : State) (t : State) (h : execSingleFeedClears isB s = .next t) :
    s.Kept kx t := by
  cases h
  repeat' (first
   | exact State.Kept.refl _
   | with_reducible apply State.singleFeedClears_kept)

theorem execPowerSample_kept {kx : Bool} (r : PowerReading) (s : State) (t : State) (h : execPowerSample r s = .next t) :
    s.Kept kx t := by
  cases h
  repeat' (first
   | exact State.Kept.refl _
   | with_reducible apply State.powerSample_kept)

theorem execEfficiencyUpdate_kept {kx : Bool} (eff fixed : Nat) (s : State) (t : State) (h : execEfficiencyUpdate eff fixed s = .next t) :
    s.Kept kx t := by
  cases h
  repeat' (first
   | exact State.Kept.refl _
   | with_reducible apply State.efficiency_kept)

theorem execTemperatureSample_kept {kx : Bool} (bases dies : List Int) (ports : List (Nat × Int)) (s : State) (t : State) (h : execTemperatureSample bases dies ports s = .next t) :
    s.Kept kx t := by
  cases h
  repeat' (first
   | exact State.Kept.refl _
   | with_reducible apply State.temperature_kept)

theorem execGovernorRecheck_kept {kx : Bool} (s : State) (t : State) (h : execGovernorRecheck s = .next t) :
    s.Kept kx t := by
  cases h
  repeat' (first
   | exact State.Kept.refl _
   | with_reducible apply State.governorRecheck_kept)

theorem execPowerWindow_kept {kx : Bool} (mw : Nat) (s : State) (t : State) (h : execPowerWindow mw s = .next t) :
    s.Kept kx t := by
  cases h
  repeat' (first
   | exact State.Kept.refl _
   | with_reducible apply State.powerWindow_kept)

theorem execPwrCoefReset_kept {kx : Bool} (agent value : Nat) (s : State) (t : State) (h : execPwrCoefReset agent value s = .next t) :
    s.Kept kx t := by
  cases h
  repeat' (first
   | exact State.Kept.refl _
   | with_reducible apply State.coefReset_kept)

theorem execClockGate_kept {kx : Bool} (unit : Nat) (s : State) (t : State) (h : execClockGate unit s = .next t) :
    s.Kept kx t := by
  cases h
  repeat' (first
   | exact State.Kept.refl _
   | with_reducible apply State.clockGate_kept)

theorem execUnitWake_kept {kx : Bool} (unit : Nat) (s : State) (t : State) (h : execUnitWake unit s = .next t) :
    s.Kept kx t := by
  cases h
  repeat' (first
   | exact State.Kept.refl _
   | with_reducible apply State.unitWake_kept)

theorem execDeepGateWake_kept {kx : Bool} (unit : Nat) (s : State) (t : State) (h : execDeepGateWake unit s = .next t) :
    s.Kept kx t := by
  cases h
  repeat' (first
   | exact State.Kept.refl _
   | with_reducible apply State.deepWake_kept)

theorem execSpadBankRetention_kept {kx : Bool} (gantry bank : Nat) (s : State) (t : State) (h : execSpadBankRetention gantry bank s = .next t) :
    s.Kept kx t := by
  cases h
  repeat' (first
   | exact State.Kept.refl _
   | with_reducible apply State.bankRetain_kept)

theorem execRefreshDue_kept {kx : Bool} (port channel bank : Nat) (queued : Bool) (s : State) (t : State) (h : execRefreshDue port channel bank queued s = .next t) :
    s.Kept kx t := by
  cases h
  repeat' (first
   | exact State.Kept.refl _
   | with_reducible apply State.refreshDue_kept)

theorem execSelfRefreshEntry_kept {kx : Bool} (port : Nat) (s : State) (t : State) (h : execSelfRefreshEntry port s = .next t) :
    s.Kept kx t := by
  cases h
  repeat' (first
   | exact State.Kept.refl _
   | with_reducible apply State.selfRefresh_kept)

theorem execEdcFail_kept {kx : Bool} (agent addr : Nat) (isWrite : Bool) (fails : Nat) (toDest : Bool) (s : State) (t : State) (h : execEdcFail agent addr isWrite fails toDest s = .next t) :
    s.Kept kx t := by
  cases h
  repeat' (first
   | exact State.Kept.refl _
   | with_reducible apply State.edcFail_kept
   | split)

theorem execPredictWindow_kept {kx : Bool} (port reissues : Nat) (s : State) (t : State) (h : execPredictWindow port reissues s = .next t) :
    s.Kept kx t := by
  cases h
  repeat' (first
   | exact State.Kept.refl _
   | with_reducible apply State.predict_kept)

theorem execScrubRead_kept {kx : Bool} (errs : List (Nat × Nat)) (s : State) (t : State) (h : execScrubRead errs s = .next t) :
    s.Kept kx t := by
  cases h
  have hs : s.Kept kx s := State.Kept.refl s
  repeat' (first
   | with_reducible assumption
   | with_reducible apply State.scrubRead_kept)

theorem execCalibrationSession_kept {kx : Bool} (port : Nat) (vals : List (Nat × Nat)) (s : State) (t : State) (h : execCalibrationSession port vals s = .next t) :
    s.Kept kx t := by
  cases h
  repeat' (first
   | exact State.Kept.refl _
   | with_reducible apply State.sessionDone_kept)

theorem execMigrationCopyDone_kept {kx : Bool} (s : State) (t : State) (h : execMigrationCopyDone s = .next t) :
    s.Kept kx t := by
  cases h
  repeat' (first
   | exact State.Kept.refl _
   | with_reducible apply State.copyDone_kept)

theorem execMigrationDrainDone_kept {kx : Bool} (s : State) (t : State) (h : execMigrationDrainDone s = .next t) :
    s.Kept kx t := by
  cases h
  repeat' (first
   | exact State.Kept.refl _
   | with_reducible apply State.drainDone_kept)

theorem execMemMigForce_kept {kx : Bool} (agent value : Nat) (s : State) (t : State) (h : execMemMigForce agent value s = .next t) :
    s.Kept kx t := by
  cases h
  repeat' (first
   | exact State.Kept.refl _
   | with_reducible apply State.migForce_kept)

theorem execPortLost_kept {kx : Bool} (port : Nat) (s : State) (t : State) (h : execPortLost port s = .next t) :
    s.Kept kx t := by
  cases h
  repeat' (first
   | exact State.Kept.refl _
   | with_reducible apply State.portLost_kept)

theorem execInplaceCalStep_kept {kx : Bool} (port : Nat) (last : Bool) (vals : List (Nat × Nat)) (s : State) (t : State) (h : execInplaceCalStep port last vals s = .next t) :
    s.Kept kx t := by
  cases h
  repeat' (first
   | exact State.Kept.refl _
   | with_reducible apply State.inplaceStep_kept)

theorem execPerstAssert_kept {kx : Bool} (asserted : Bool) (s : State) (t : State) (h : execPerstAssert asserted s = .next t) :
    s.Kept kx t := by
  cases h
  repeat' (first
   | exact State.Kept.refl _
   | with_reducible apply State.perst_kept)

theorem execPcieLinkChange_kept {kx : Bool} (up : Bool) (rate width : Nat) (s : State) (t : State) (h : execPcieLinkChange up rate width s = .next t) :
    s.Kept kx t := by
  cases h
  repeat' (first
   | exact State.Kept.refl _
   | with_reducible apply State.pcieLink_kept)

theorem execFlr_kept {kx : Bool} (s : State) (t : State) (h : execFlr s = .next t) :
    s.Kept kx t := by
  cases h
  repeat' (first
   | exact State.Kept.refl _
   | with_reducible apply State.flr_kept)

theorem execDStateChange_kept {kx : Bool} (d3 : Bool) (s : State) (t : State) (h : execDStateChange d3 s = .next t) :
    s.Kept kx t := by
  cases h
  repeat' (first
   | exact State.Kept.refl _
   | with_reducible apply State.dState_kept)

theorem execBar2Resize_kept {kx : Bool} (size : Nat) (s : State) (t : State) (h : execBar2Resize size s = .next t) :
    s.Kept kx t := by
  cases h
  repeat' (first
   | exact State.Kept.refl _
   | with_reducible apply State.bar2Resize_kept)

theorem execBar2Write_kept {kx : Bool} (offset : Nat) (bytes : List Nat) (poisoned : Bool) (s : State) (t : State) (h : execBar2Write offset bytes poisoned s = .next t) :
    s.Kept kx t := by
  cases h
  repeat' (first
   | exact State.Kept.refl _
   | with_reducible apply State.bar2Write_kept)

theorem execBar2Read_kept {kx : Bool} (offset len : Nat) (s : State) (t : State) (h : execBar2Read offset len s = .next t) :
    s.Kept kx t := by
  cases h
  repeat' (first
   | exact State.Kept.refl _
   | with_reducible apply State.bar2Read_kept)

theorem execConfigurationRequest_kept {kx : Bool} (c : ConfigReq) (s : State) (t : State) (h : execConfigurationRequest c s = .next t) :
    s.Kept kx t := by
  cases h
  repeat' (first
   | exact State.Kept.refl _
   | with_reducible apply State.configReq_kept)

theorem execRunProgram_kept {kx : Bool} (unit : Nat) (s : State) (t : State) (h : execRunProgram unit s = .next t) :
    s.Kept kx t := by
  cases h
  repeat' (first
   | exact State.Kept.refl _
   | with_reducible apply State.ltIdle_kept
   | with_reducible apply State.runProgram_kept)

theorem execLoop_kept {kx : Bool} (unit : Nat) (s : State) (t : State) (h : execLoop unit s = .next t) :
    s.Kept kx t := by
  cases h
  repeat' (first
   | exact State.Kept.refl _
   | with_reducible apply State.ltIdle_kept
   | with_reducible apply State.ltLoop_kept
   | with_reducible apply State.ltStep_kept)

theorem execLtWait_kept {kx : Bool} (unit : Nat) (s : State) (t : State) (h : execLtWait unit s = .next t) :
    s.Kept kx t := by
  cases h
  repeat' (first
   | exact State.Kept.refl _
   | with_reducible apply State.ltIdle_kept
   | with_reducible apply State.ltStep_kept
   | with_reducible apply State.ltWait_kept)

theorem execLtWaitSatisfied_kept {kx : Bool} (unit : Nat) (s : State) (t : State) (h : execLtWaitSatisfied unit s = .next t) :
    s.Kept kx t := by
  cases h
  repeat' (first
   | exact State.Kept.refl _
   | with_reducible apply State.ltIdle_kept
   | with_reducible apply State.ltSatisfied_kept
   | with_reducible apply State.ltStep_kept)

theorem execWaitTimeout_kept {kx : Bool} (unit : Nat) (s : State) (t : State) (h : execWaitTimeout unit s = .next t) :
    s.Kept kx t := by
  cases h
  repeat' (first
   | exact State.Kept.refl _
   | with_reducible apply State.ltIdle_kept
   | with_reducible apply State.ltStep_kept
   | with_reducible apply State.ltTimeout_kept)

theorem execLtFlagsSet_kept {kx : Bool} (agent value : Nat) (s : State) (t : State) (h : execLtFlagsSet agent value s = .next t) :
    s.Kept kx t := by
  cases h
  repeat' (first
   | exact State.Kept.refl _
   | with_reducible apply State.ltFlagsSet_kept)

theorem execOutboundTimeout_kept {kx : Bool} (agent : Nat) (s : State) (t : State) (h : execOutboundTimeout agent s = .next t) :
    s.Kept kx t := by
  cases h
  repeat' (first
   | exact State.Kept.refl _
   | with_reducible apply State.outTimeout_kept)

theorem execUnitFence_kept {kx : Bool} (unit code access addr : Nat) (s : State) (t : State) (h : execUnitFence unit code access addr s = .next t) :
    s.Kept kx t := by
  cases h
  repeat' (first
   | exact State.Kept.refl _
   | with_reducible apply State.fence_kept)

theorem execSpareTakeover_kept {kx : Bool} (spare : Nat) (s : State) (t : State) (h : execSpareTakeover spare s = .next t) :
    s.Kept kx t := by
  cases h
  repeat' (first
   | exact State.Kept.refl _
   | with_reducible apply State.takeover_kept)

theorem execHang_kept {kx : Bool} (unit : Nat) (s : State) (t : State) (h : execHang unit s = .next t) :
    s.Kept kx t := by
  cases h
  repeat' (first
   | exact State.Kept.refl _
   | with_reducible apply State.hang_kept)

theorem execWatchAck_kept {kx : Bool} (agent value : Nat) (s : State) (t : State) (h : execWatchAck agent value s = .next t) :
    s.Kept kx t := by
  cases h
  repeat' (first
   | exact State.Kept.refl _
   | with_reducible apply State.watchAck_kept)

theorem execWatchFenceClear_kept {kx : Bool} (agent value : Nat) (s : State) (t : State) (h : execWatchFenceClear agent value s = .next t) :
    s.Kept kx t := by
  cases h
  repeat' (first
   | exact State.Kept.refl _
   | with_reducible apply State.fenceClear_kept)

theorem execFenceSelfTestDone_kept {kx : Bool} (pass : Bool) (s : State) (t : State) (h : execFenceSelfTestDone pass s = .next t) :
    s.Kept kx t := by
  cases h
  repeat' (first
   | exact State.Kept.refl _
   | with_reducible apply State.selfTestDone_kept)

theorem execWatchSafeForce_kept {kx : Bool} (agent value : Nat) (s : State) (t : State) (h : execWatchSafeForce agent value s = .next t) :
    s.Kept kx t := by
  cases h
  repeat' (first
   | exact State.Kept.refl _
   | with_reducible apply State.safeForce_kept)

theorem execSafeStateEntry_kept {kx : Bool} (s : State) (t : State) (h : execSafeStateEntry s = .next t) :
    s.Kept kx t := by
  cases h
  repeat' (first
   | exact State.Kept.refl _
   | with_reducible apply State.enterSafe_kept)

theorem execLockstep_kept {kx : Bool} (pair : Nat) (s : State) (t : State) (h : execLockstep pair s = .next t) :
    s.Kept kx t := by
  cases h
  repeat' (first
   | exact State.Kept.refl _
   | with_reducible apply State.lockstep_kept)

theorem execTideLost_kept {kx : Bool} (s : State) (t : State) (h : execTideLost s = .next t) :
    s.Kept kx t := by
  cases h
  repeat' (first
   | exact State.Kept.refl _
   | with_reducible apply State.report_kept)

theorem execWatchSelf_kept {kx : Bool} (s : State) (t : State) (h : execWatchSelf s = .next t) :
    s.Kept kx t := by
  cases h
  repeat' (first
   | exact State.Kept.refl _
   | with_reducible apply State.watchSelf_kept)

theorem execCustomsLost_kept {kx : Bool} (s : State) (t : State) (h : execCustomsLost s = .next t) :
    s.Kept kx t := by
  cases h
  repeat' (first
   | exact State.Kept.refl _
   | with_reducible apply State.report_kept)

theorem execHmLost_kept {kx : Bool} (s : State) (t : State) (h : execHmLost s = .next t) :
    s.Kept kx t := by
  cases h
  repeat' (first
   | exact State.Kept.refl _
   | with_reducible apply State.report_kept)

theorem execSndSelWrite_kept {kx : Bool} (agent source counter value : Nat) (s : State) (t : State) (h : execSndSelWrite agent source counter value s = .next t) :
    s.Kept kx t := by
  cases h
  have hs : s.Kept kx s := State.Kept.refl s
  repeat' (first
   | with_reducible assumption
   | with_reducible apply State.setting_kept
   | with_reducible apply State.sndSelWrite_kept)

theorem execSndSampleCfgWrite_kept {kx : Bool} (agent value : Nat) (s : State) (t : State) (h : execSndSampleCfgWrite agent value s = .next t) :
    s.Kept kx t := by
  cases h
  have hs : s.Kept kx s := State.Kept.refl s
  repeat' (first
   | with_reducible assumption
   | with_reducible apply State.sampleCfgWrite_kept
   | with_reducible apply State.setting_kept)

theorem execSkidSample_kept {kx : Bool} (column row value : Nat) (busy : Bool) (s : State) (t : State) (h : execSkidSample column row value busy s = .next t) :
    s.Kept kx t := by
  cases h
  repeat' (first
   | exact State.Kept.refl _
   | with_reducible apply State.skidSample_kept)

theorem execSndCtrl_kept {kx : Bool} (req : Req) (body : List Nat) (s : State) (t : State) (h : execSndCtrl req body s = .next t) :
    s.Kept kx t := by
  cases h
  repeat' (first
   | exact State.Kept.refl _
   | with_reducible apply State.rmpRun_kept
   | with_reducible apply sndCtrl_kept)

theorem execI2cWrite_kept {kx : Bool} (bytes : List Nat) (s : State) (t : State) (h : execI2cWrite bytes s = .next t) :
    s.Kept kx t := by
  cases h
  repeat' (first
   | exact State.Kept.refl _
   | with_reducible apply State.i2cWrite_kept)

theorem execI2cRead_kept {kx : Bool} (len : Nat) (s : State) (t : State) (h : execI2cRead len s = .next t) :
    s.Kept kx t := by
  cases h
  repeat' (first
   | exact State.Kept.refl _
   | with_reducible apply State.i2cRead_kept)

theorem execI2cBusRelease_kept {kx : Bool} (s : State) (t : State) (h : execI2cBusRelease s = .next t) :
    s.Kept kx t := by
  cases h
  repeat' (first
   | exact State.Kept.refl _
   | with_reducible apply State.i2cRelease_kept)

theorem execHotInsertion_kept {kx : Bool} (mvA mvB : Int) (s : State) (t : State) (h : execHotInsertion mvA mvB s = .next t) :
    s.Kept kx t := by
  cases h
  have hs : s.Kept kx s := State.Kept.refl s
  repeat' (first
   | with_reducible assumption
   | with_reducible apply State.hotInsert_kept
   | with_reducible apply State.wakeUp_kept)

theorem execHeaterOff_kept {kx : Bool} (s : State) (t : State) (h : execHeaterOff s = .next t) :
    s.Kept kx t := by
  cases h
  repeat' (first
   | exact State.Kept.refl _
   | with_reducible apply State.heaterOff_kept)

theorem execUnitEnable_kept {kx : Bool} (agent unit : Nat) (s : State) (t : State) (h : execUnitEnable agent unit s = .next t) :
    s.Kept kx t := by
  cases h
  repeat' (first
   | exact State.Kept.refl _
   | with_reducible apply State.ctrlField_kept)

theorem execUnitDisable_kept {kx : Bool} (agent unit : Nat) (halt : Bool) (s : State) (t : State) (h : execUnitDisable agent unit halt s = .next t) :
    s.Kept kx t := by
  cases h
  repeat' (first
   | exact State.Kept.refl _
   | with_reducible apply State.ctrlField_kept)

theorem execStopModeHalt_kept {kx : Bool} (agent unit : Nat) (s : State) (t : State) (h : execStopModeHalt agent unit s = .next t) :
    s.Kept kx t := by
  cases h
  repeat' (first
   | exact State.Kept.refl _
   | with_reducible apply State.ctrlField_kept)

theorem execSpareSet_kept {kx : Bool} (agent unit : Nat) (s : State) (t : State) (h : execSpareSet agent unit s = .next t) :
    s.Kept kx t := by
  cases h
  repeat' (first
   | exact State.Kept.refl _
   | with_reducible apply State.ctrlField_kept)

theorem execSpareClear_kept {kx : Bool} (agent unit : Nat) (s : State) (t : State) (h : execSpareClear agent unit s = .next t) :
    s.Kept kx t := by
  cases h
  repeat' (first
   | exact State.Kept.refl _
   | with_reducible apply State.ctrlField_kept)

theorem execGroupCtrlWrite_kept {kx : Bool} (agent unit value : Nat) (s : State) (t : State) (h : execGroupCtrlWrite agent unit value s = .next t) :
    s.Kept kx t := by
  cases h
  have hs : s.Kept kx s := State.Kept.refl s
  repeat' (first
   | with_reducible assumption
   | with_reducible apply State.grpWrite_kept
   | with_reducible apply State.setting_kept
   | fail_if_no_progress (with_reducible refine State.Kept.lit ?_ rfl rfl rfl)
   | intro hx
   | (refine State.Kept.pair (by with_reducible assumption) ?_)
   | (refine State.Kept.triple (by with_reducible assumption) ?_)
   | split)

theorem execQuayWatermarkWrite_kept {kx : Bool} (agent offset value : Nat) (s : State) (t : State) (h : execQuayWatermarkWrite agent offset value s = .next t) :
    s.Kept kx t := by
  cases h
  have hs : s.Kept kx s := State.Kept.refl s
  repeat' (first
   | with_reducible assumption
   | with_reducible apply State.setting_kept
   | with_reducible apply State.watermark_kept
   | fail_if_no_progress (with_reducible refine State.Kept.lit ?_ rfl rfl rfl)
   | intro hx
   | (refine State.Kept.pair (by with_reducible assumption) ?_)
   | (refine State.Kept.triple (by with_reducible assumption) ?_)
   | split)

theorem execTideOutFall_kept {kx : Bool} (s : State) (t : State) (h : execTideOutFall s = .next t) :
    s.Kept kx t := by
  cases h
  repeat' (first
   | exact State.Kept.refl _
   | with_reducible apply State.tideOutFall_kept)

theorem execPpsOutRise_kept {kx : Bool} (s : State) (t : State) (h : execPpsOutRise s = .next t) :
    s.Kept kx t := by
  cases h
  repeat' (first
   | exact State.Kept.refl _
   | with_reducible apply State.ppsRise_kept)

theorem execPpsOutFall_kept {kx : Bool} (s : State) (t : State) (h : execPpsOutFall s = .next t) :
    s.Kept kx t := by
  cases h
  repeat' (first
   | exact State.Kept.refl _
   | with_reducible apply State.ppsFall_kept)

theorem execTideCapture_kept {kx : Bool} (agent value : Nat) (s : State) (t : State) (h : execTideCapture agent value s = .next t) :
    s.Kept kx t := by
  cases h
  repeat' (first
   | exact State.Kept.refl _
   | with_reducible apply State.captureWrite_kept)

theorem execTideRateFracCommit_kept {kx : Bool} (agent value : Nat) (s : State) (t : State) (h : execTideRateFracCommit agent value s = .next t) :
    s.Kept kx t := by
  cases h
  repeat' (first
   | exact State.Kept.refl _
   | with_reducible apply State.rateCommit_kept)

theorem execTideRebase_kept {kx : Bool} (s : State) (t : State) (h : execTideRebase s = .next t) :
    s.Kept kx t := by
  cases h
  repeat' (first
   | exact State.Kept.refl _
   | with_reducible apply State.rebase_kept)

theorem execPtpAnnounceRx_kept {kx : Bool} (port id portNumber steps result : Nat) (s : State) (t : State) (h : execPtpAnnounceRx port id portNumber steps result s = .next t) :
    s.Kept kx t := by
  cases h
  repeat' (first
   | exact State.Kept.refl _
   | with_reducible apply State.ptpAnnounce_kept)

theorem execMasterLost_kept {kx : Bool} (s : State) (t : State) (h : execMasterLost s = .next t) :
    s.Kept kx t := by
  cases h
  repeat' (first
   | exact State.Kept.refl _
   | with_reducible apply State.masterLost_kept)

theorem execPpsInLost_kept {kx : Bool} (s : State) (t : State) (h : execPpsInLost s = .next t) :
    s.Kept kx t := by
  cases h
  repeat' (first
   | exact State.Kept.refl _
   | with_reducible apply State.ppsLost_kept)

theorem execStepAccept_kept {kx : Bool} (agent : Nat) (s : State) (t : State) (h : execStepAccept agent s = .next t) :
    s.Kept kx t := by
  cases h
  repeat' (first
   | exact State.Kept.refl _
   | with_reducible apply State.stepAccept_kept)

theorem execSlewAccept_kept {kx : Bool} (agent : Nat) (s : State) (t : State) (h : execSlewAccept agent s = .next t) :
    s.Kept kx t := by
  cases h
  repeat' (first
   | exact State.Kept.refl _
   | with_reducible apply State.stepAccept_kept)

theorem execTideAdjCommit_kept {kx : Bool} (agent value : Nat) (s : State) (t : State) (h : execTideAdjCommit agent value s = .next t) :
    s.Kept kx t := by
  cases h
  repeat' (first
   | exact State.Kept.refl _
   | with_reducible apply State.adjCommit_kept)

theorem execHoldoverExpired_kept {kx : Bool} (s : State) (t : State) (h : execHoldoverExpired s = .next t) :
    s.Kept kx t := by
  cases h
  repeat' (first
   | exact State.Kept.refl _
   | with_reducible apply State.holdoverExpired_kept)

theorem execRef10mLoss_kept {kx : Bool} (s : State) (t : State) (h : execRef10mLoss s = .next t) :
    s.Kept kx t := by
  cases h
  repeat' (first
   | exact State.Kept.refl _
   | with_reducible apply State.refLoss_kept)

theorem execRef10mReturn_kept {kx : Bool} (s : State) (t : State) (h : execRef10mReturn s = .next t) :
    s.Kept kx t := by
  cases h
  repeat' (first
   | exact State.Kept.refl _
   | with_reducible apply State.refReturn_kept)

theorem execPtpMessageTx_kept {kx : Bool} (kind port : Nat) (s : State) (t : State) (h : execPtpMessageTx kind port s = .next t) :
    s.Kept kx t := by
  cases h
  repeat' (first
   | exact State.Kept.refl _
   | with_reducible apply State.ptpTx_kept)

theorem execPtpDelayMessageRx_kept {kx : Bool} (kind port delay : Nat) (s : State) (t : State) (h : execPtpDelayMessageRx kind port delay s = .next t) :
    s.Kept kx t := by
  cases h
  repeat' (first
   | exact State.Kept.refl _
   | with_reducible apply State.ptpDelayRx_kept)

theorem execTideStart_kept {kx : Bool} (late : List (Nat × PicOut)) (s : State) (t : State) (h : execTideStart late s = .next t) :
    s.Kept kx t := by
  cases h
  repeat' (first
   | exact State.Kept.refl _
   | with_reducible apply State.tideStart_kept)

theorem execNop_kept {kx : Bool} (unit err : Nat) (s : State) (t : State) (h : execNop unit err s = .next t) :
    s.Kept kx t := by
  cases h
  repeat' (first
   | exact State.Kept.refl _
   | with_reducible apply State.microNext_kept
   | with_reducible apply State.microOp_kept
   | intro hx)

theorem execMov_kept {kx : Bool} (unit err : Nat) (s : State) (t : State) (h : execMov unit err s = .next t) :
    s.Kept kx t := by
  cases h
  repeat' (first
   | exact State.Kept.refl _
   | with_reducible apply State.microOp_kept
   | with_reducible apply State.result_kept
   | intro hx)

theorem execLdi_kept {kx : Bool} (unit err : Nat) (s : State) (t : State) (h : execLdi unit err s = .next t) :
    s.Kept kx t := by
  cases h
  repeat' (first
   | exact State.Kept.refl _
   | with_reducible apply State.microOp_kept
   | with_reducible apply State.result_kept
   | intro hx)

theorem execShi_kept {kx : Bool} (unit err : Nat) (s : State) (t : State) (h : execShi unit err s = .next t) :
    s.Kept kx t := by
  cases h
  repeat' (first
   | exact State.Kept.refl _
   | with_reducible apply State.microOp_kept
   | with_reducible apply State.result_kept
   | intro hx)

theorem execAdd_kept {kx : Bool} (unit err : Nat) (s : State) (t : State) (h : execAdd unit err s = .next t) :
    s.Kept kx t := by
  cases h
  repeat' (first
   | exact State.Kept.refl _
   | with_reducible apply State.alu_kept
   | with_reducible apply State.microOp_kept)

theorem execSub_kept {kx : Bool} (unit err : Nat) (s : State) (t : State) (h : execSub unit err s = .next t) :
    s.Kept kx t := by
  cases h
  repeat' (first
   | exact State.Kept.refl _
   | with_reducible apply State.alu_kept
   | with_reducible apply State.microOp_kept)

theorem execAnd_kept {kx : Bool} (unit err : Nat) (s : State) (t : State) (h : execAnd unit err s = .next t) :
    s.Kept kx t := by
  cases h
  repeat' (first
   | exact State.Kept.refl _
   | with_reducible apply State.alu_kept
   | with_reducible apply State.microOp_kept)

theorem execOr_kept {kx : Bool} (unit err : Nat) (s : State) (t : State) (h : execOr unit err s = .next t) :
    s.Kept kx t := by
  cases h
  repeat' (first
   | exact State.Kept.refl _
   | with_reducible apply State.alu_kept
   | with_reducible apply State.microOp_kept)

theorem execXor_kept {kx : Bool} (unit err : Nat) (s : State) (t : State) (h : execXor unit err s = .next t) :
    s.Kept kx t := by
  cases h
  repeat' (first
   | exact State.Kept.refl _
   | with_reducible apply State.alu_kept
   | with_reducible apply State.microOp_kept)

theorem execMin_kept {kx : Bool} (unit err : Nat) (s : State) (t : State) (h : execMin unit err s = .next t) :
    s.Kept kx t := by
  cases h
  repeat' (first
   | exact State.Kept.refl _
   | with_reducible apply State.alu_kept
   | with_reducible apply State.microOp_kept)

theorem execMax_kept {kx : Bool} (unit err : Nat) (s : State) (t : State) (h : execMax unit err s = .next t) :
    s.Kept kx t := by
  cases h
  repeat' (first
   | exact State.Kept.refl _
   | with_reducible apply State.alu_kept
   | with_reducible apply State.microOp_kept)

theorem execShl_kept {kx : Bool} (unit err : Nat) (s : State) (t : State) (h : execShl unit err s = .next t) :
    s.Kept kx t := by
  cases h
  repeat' (first
   | exact State.Kept.refl _
   | with_reducible apply State.microOp_kept
   | with_reducible apply State.shift_kept)

theorem execShr_kept {kx : Bool} (unit err : Nat) (s : State) (t : State) (h : execShr unit err s = .next t) :
    s.Kept kx t := by
  cases h
  repeat' (first
   | exact State.Kept.refl _
   | with_reducible apply State.microOp_kept
   | with_reducible apply State.shift_kept)

theorem execSar_kept {kx : Bool} (unit err : Nat) (s : State) (t : State) (h : execSar unit err s = .next t) :
    s.Kept kx t := by
  cases h
  repeat' (first
   | exact State.Kept.refl _
   | with_reducible apply State.microOp_kept
   | with_reducible apply State.shift_kept)

theorem execMul_kept {kx : Bool} (unit err : Nat) (s : State) (t : State) (h : execMul unit err s = .next t) :
    s.Kept kx t := by
  cases h
  repeat' (first
   | exact State.Kept.refl _
   | with_reducible apply State.alu_kept
   | with_reducible apply State.microOp_kept)

theorem execMulh_kept {kx : Bool} (unit err : Nat) (s : State) (t : State) (h : execMulh unit err s = .next t) :
    s.Kept kx t := by
  cases h
  repeat' (first
   | exact State.Kept.refl _
   | with_reducible apply State.alu_kept
   | with_reducible apply State.microOp_kept)

theorem execDiv_kept {kx : Bool} (unit err : Nat) (s : State) (t : State) (h : execDiv unit err s = .next t) :
    s.Kept kx t := by
  cases h
  repeat' (first
   | exact State.Kept.refl _
   | with_reducible apply State.alu_kept
   | with_reducible apply State.microOp_kept
   | intro hx)

theorem execAddi_kept {kx : Bool} (unit err : Nat) (s : State) (t : State) (h : execAddi unit err s = .next t) :
    s.Kept kx t := by
  cases h
  repeat' (first
   | exact State.Kept.refl _
   | with_reducible apply State.microOp_kept
   | with_reducible apply State.result_kept
   | intro hx)

theorem execCmp_kept {kx : Bool} (unit err : Nat) (s : State) (t : State) (h : execCmp unit err s = .next t) :
    s.Kept kx t := by
  cases h
  repeat' (first
   | exact State.Kept.refl _
   | with_reducible assumption
   | with_reducible apply State.microNext_kept
   | with_reducible apply State.microOp_kept
   | with_reducible apply State.setMi_kept
   | intro hx)

theorem execCmpi_kept {kx : Bool} (unit err : Nat) (s : State) (t : State) (h : execCmpi unit err s = .next t) :
    s.Kept kx t := by
  cases h
  repeat' (first
   | exact State.Kept.refl _
   | with_reducible assumption
   | with_reducible apply State.microNext_kept
   | with_reducible apply State.microOp_kept
   | with_reducible apply State.setMi_kept
   | intro hx)

theorem execLd_kept {kx : Bool} (unit err data : Nat) (s : State) (t : State) (h : execLd unit err data s = .next t) :
    s.Kept kx t := by
  cases h
  repeat' (first
   | exact State.Kept.refl _
   | with_reducible apply State.ld_kept
   | with_reducible apply State.microOp_kept)

theorem execSt_kept {kx : Bool} (unit err : Nat) (s : State) (t : State) (h : execSt unit err s = .next t) :
    s.Kept kx t := by
  cases h
  repeat' (first
   | exact State.Kept.refl _
   | with_reducible apply State.microOp_kept
   | with_reducible apply State.st_kept)

theorem execBr_kept {kx : Bool} (unit err : Nat) (s : State) (t : State) (h : execBr unit err s = .next t) :
    s.Kept kx t := by
  cases h
  repeat' (first
   | exact State.Kept.refl _
   | with_reducible apply State.br_kept
   | with_reducible apply State.microOp_kept)

theorem execCall_kept {kx : Bool} (unit err : Nat) (s : State) (t : State) (h : execCall unit err s = .next t) :
    s.Kept kx t := by
  cases h
  repeat' (first
   | exact State.Kept.refl _
   | with_reducible apply State.callOp_kept
   | with_reducible apply State.microOp_kept)

theorem execRet_kept {kx : Bool} (unit err : Nat) (s : State) (t : State) (h : execRet unit err s = .next t) :
    s.Kept kx t := by
  cases h
  repeat' (first
   | exact State.Kept.refl _
   | with_reducible apply State.microOp_kept
   | with_reducible apply State.retOp_kept
   | intro hx)

theorem execWait_kept {kx : Bool} (unit err : Nat) (ready : Bool) (s : State) (t : State) (h : execWait unit err ready s = .next t) :
    s.Kept kx t := by
  cases h
  repeat' (first
   | exact State.Kept.refl _
   | with_reducible apply State.microOp_kept
   | with_reducible apply State.waitOp_kept)

theorem execWaitSatisfied_kept {kx : Bool} (unit : Nat) (s : State) (t : State) (h : execWaitSatisfied unit s = .next t) :
    s.Kept kx t := by
  cases h
  repeat' (first
   | exact State.Kept.refl _
   | with_reducible apply State.waitDone_kept)

theorem execStep_kept {kx : Bool} (unit err : Nat) (s : State) (t : State) (h : execStep unit err s = .next t) :
    s.Kept kx t := by
  cases h
  repeat' (first
   | exact State.Kept.refl _
   | with_reducible apply State.microOp_kept
   | with_reducible apply State.stepOp_kept)

theorem execCommit_kept {kx : Bool} (unit err : Nat) (s : State) (t : State) (h : execCommit unit err s = .next t) :
    s.Kept kx t := by
  cases h
  repeat' (first
   | exact State.Kept.refl _
   | with_reducible apply State.commitOp_kept
   | with_reducible apply State.microOp_kept
   | intro hx)

theorem execIssue_kept {kx : Bool} (unit err : Nat) (s : State) (t : State) (h : execIssue unit err s = .next t) :
    s.Kept kx t := by
  cases h
  repeat' (first
   | exact State.Kept.refl _
   | with_reducible apply State.microNext_kept
   | with_reducible apply State.microOp_kept
   | intro hx)

theorem execDone_kept {kx : Bool} (unit err : Nat) (s : State) (t : State) (h : execDone unit err s = .next t) :
    s.Kept kx t := by
  cases h
  repeat' (first
   | exact State.Kept.refl _
   | with_reducible apply State.doneOp_kept
   | with_reducible apply State.microOp_kept)

theorem execTrapret_kept {kx : Bool} (unit err : Nat) (s : State) (t : State) (h : execTrapret unit err s = .next t) :
    s.Kept kx t := by
  cases h
  repeat' (first
   | exact State.Kept.refl _
   | with_reducible apply State.microOp_kept
   | with_reducible apply State.trapret_kept
   | intro hx)

theorem execExit_kept {kx : Bool} (unit err : Nat) (s : State) (t : State) (h : execExit unit err s = .next t) :
    s.Kept kx t := by
  cases h
  repeat' (first
   | exact State.Kept.refl _
   | with_reducible apply State.exitOp_kept
   | with_reducible apply State.microOp_kept
   | intro hx)

theorem execMicroTrap_kept {kx : Bool} (unit cause : Nat) (s : State) (t : State) (h : execMicroTrap unit cause s = .next t) :
    s.Kept kx t := by
  cases h
  repeat' (first
   | exact State.Kept.refl _
   | with_reducible apply State.microTrap_kept)

theorem execPowerApplied_kept {kx : Bool} (isB : Bool) (mv : Int) (s : State) (t : State) (h : execPowerApplied isB mv s = .next t) :
    s.Kept kx t := by
  cases h
  repeat' (first
   | exact State.Kept.refl _
   | with_reducible apply State.powerApplied_kept)

theorem execRailRetry_kept {kx : Bool} (s : State) (t : State) (h : execRailRetry s = .next t) :
    s.Kept kx t := by
  cases h
  repeat' (first
   | exact State.Kept.refl _
   | with_reducible apply State.railRetry_kept)

theorem execResetRelease_kept {kx : Bool} (start : StartUp) (s : State) (t : State) (h : execResetRelease start s = .next t) :
    s.Kept kx t := by
  cases h
  repeat' (first
   | exact State.Kept.refl _
   | with_reducible apply State.resetRelease_kept)

theorem execModReset_kept {kx : Bool} (start : StartUp) (s : State) (t : State) (h : execModReset start s = .next t) :
    s.Kept kx t := by
  cases h
  repeat' (first
   | exact State.Kept.refl _
   | with_reducible apply State.restart_kept
   | split)

theorem execPowerRemoved_kept {kx : Bool} (s : State) (t : State) (h : execPowerRemoved s = .next t) :
    s.Kept kx t := by
  cases h
  repeat' (first
   | exact State.Kept.refl _
   | with_reducible apply State.powerRemoved_kept)

theorem execBootWatchdogExpiry_kept {kx : Bool} (start : StartUp) (s : State) (t : State) (h : execBootWatchdogExpiry start s = .next t) :
    s.Kept kx t := by
  cases h
  repeat' (first
   | exact State.Kept.refl _
   | with_reducible apply State.bootWatchdog_kept)

theorem execPtpWaitExpiry_kept {kx : Bool} (s : State) (t : State) (h : execPtpWaitExpiry s = .next t) :
    s.Kept kx t := by
  cases h
  repeat' (first
   | exact State.Kept.refl _
   | with_reducible apply State.ptpWaitExpiry_kept)

theorem execHoldupExhausted_kept {kx : Bool} (s : State) (t : State) (h : execHoldupExhausted s = .next t) :
    s.Kept kx t := by
  cases h
  repeat' (first
   | exact State.Kept.refl _
   | with_reducible apply State.holdupExhausted_kept)

theorem execCcLostReset_kept {kx : Bool} (start : StartUp) (s : State) (t : State) (h : execCcLostReset start s = .next t) :
    s.Kept kx t := by
  cases h
  repeat' (first
   | exact State.Kept.refl _
   | with_reducible apply State.ccLostReset_kept)

theorem execPtpSyncRx_kept {kx : Bool} (port : Nat) (offset : Int) (s : State) (t : State) (h : execPtpSyncRx port offset s = .next t) :
    s.Kept kx t := by
  cases h
  repeat' (first
   | exact State.Kept.refl _
   | with_reducible apply State.afterServo_kept
   | with_reducible apply State.ptpSync_kept)

theorem execPpsInEdge_kept {kx : Bool} (s : State) (t : State) (h : execPpsInEdge s = .next t) :
    s.Kept kx t := by
  cases h
  repeat' (first
   | exact State.Kept.refl _
   | with_reducible apply State.afterServo_kept
   | with_reducible apply State.ppsEdge_kept)

theorem execFlashClose_kept {kx : Bool} (req : Req) (body : List Nat) (start : StartUp) (s : State) (t : State) (h : execFlashClose req body start s = .next t) :
    s.Kept kx t := by
  cases h
  repeat' (first
   | exact State.Kept.refl _
   | with_reducible apply flashClose_kept
   | with_reducible apply State.restartCmd_kept)

theorem execFactoryReset_kept {kx : Bool} (req : Req) (body : List Nat) (start : StartUp) (s : State) (t : State) (h : execFactoryReset req body start s = .next t) :
    s.Kept kx t := by
  cases h
  repeat' (first
   | exact State.Kept.refl _
   | with_reducible apply factoryReset_kept
   | with_reducible apply State.restartCmd_kept)

theorem execSafeClear_kept {kx : Bool} (req : Req) (body : List Nat) (start : StartUp) (s : State) (t : State) (h : execSafeClear req body start s = .next t) :
    s.Kept kx t := by
  cases h
  repeat' (first
   | exact State.Kept.refl _
   | with_reducible apply State.restartCmd_kept
   | with_reducible apply safeClear_kept)

theorem execRegisterWrite_kept (agent offset value : Nat) (s : State) (t : State) (h : execRegisterWrite agent offset value s = .next t) :
    s.Kept true t := by
  cases h
  repeat' (first
   | exact State.Kept.refl _
   | with_reducible apply State.regWrite_kept
   | with_reducible apply State.served_kept)

theorem execRefusedRegisterAccess_kept {kx : Bool} (agent offset : Nat) (isWrite : Bool) (s : State) (t : State) (h : execRefusedRegisterAccess agent offset isWrite s = .next t) :
    s.Kept kx t := by
  cases h
  repeat' (first
   | exact State.Kept.refl _
   | with_reducible apply State.refuseAccess_kept)

theorem execRcRead_kept {kx : Bool} (agent offset : Nat) (s : State) (t : State) (h : execRcRead agent offset s = .next t) :
    s.Kept kx t := by
  cases h
  repeat' (first
   | exact State.Kept.refl _
   | with_reducible apply State.readCmd_kept)

theorem execPairLoWrite_kept (agent offset value : Nat) (s : State) (t : State) (h : execPairLoWrite agent offset value s = .next t) :
    s.Kept true t := by
  cases h
  repeat' (first
   | exact State.Kept.refl _
   | with_reducible apply State.regWrite_kept
   | with_reducible apply State.served_kept)

theorem execPairHiWrite_kept (agent offset value : Nat) (s : State) (t : State) (h : execPairHiWrite agent offset value s = .next t) :
    s.Kept true t := by
  cases h
  repeat' (first
   | exact State.Kept.refl _
   | with_reducible apply State.regWrite_kept
   | with_reducible apply State.served_kept)

theorem execPairLoRead_kept {kx : Bool} (agent offset : Nat) (s : State) (t : State) (h : execPairLoRead agent offset s = .next t) :
    s.Kept kx t := by
  cases h
  repeat' (first
   | exact State.Kept.refl _
   | with_reducible apply State.readCmd_kept)

theorem execStageHoldWrite_kept {kx : Bool} (agent value : Nat) (s : State) (t : State) (h : execStageHoldWrite agent value s = .next t) :
    s.Kept kx t := by
  cases h
  repeat' (first
   | exact State.Kept.refl _
   | with_reducible apply State.regWrite_kept)

theorem execMailboxGo_kept (agent value : Nat) (start : StartUp) (data : List Nat) (s : State) (t : State) (h : execMailboxGo agent value start data s = .next t) :
    s.Kept true t := by
  cases h
  repeat' (first
   | exact State.Kept.refl _
   | with_reducible apply State.mailboxGo_kept)

theorem execMove_kept {kx : Bool} (unit : Nat) (s : State) (t : State) (h : execMove unit s = .next t) :
    s.Kept kx t := by
  cases h
  repeat' (first
   | exact State.Kept.refl _
   | with_reducible apply State.ltIdle_kept
   | with_reducible apply State.ltMove_kept
   | with_reducible apply State.ltStep_kept)

theorem execSignal_kept (unit : Nat) (s : State) (t : State) (h : execSignal unit s = .next t) :
    s.Kept true t := by
  cases h
  repeat' (first
   | exact State.Kept.refl _
   | with_reducible apply State.classWatch_kept
   | with_reducible apply State.ltIdle_kept
   | with_reducible apply State.ltSignal_kept
   | with_reducible apply State.ltStep_kept
   | with_reducible apply State.served_kept)

theorem execBurstComplete_kept (unit : Nat) (err : Bool) (beat : Nat) (data : List Nat) (s : State) (t : State) (h : execBurstComplete unit err beat data s = .next t) :
    s.Kept true t := by
  cases h
  repeat' (first
   | exact State.Kept.refl _
   | with_reducible apply State.classWatch_kept
   | with_reducible apply State.ltBurst_kept
   | with_reducible apply State.ltIdle_kept
   | with_reducible apply State.ltStep_kept
   | with_reducible apply State.served_kept)

theorem execGet_kept {kx : Bool} (req : Req) (body : List Nat) (s : State) (t : State) (h : execGet req body s = .next t) :
    s.Kept kx t := by
  cases h
  repeat' (first
   | exact State.Kept.refl _
   | with_reducible apply getCmd_kept
   | with_reducible apply State.rmpRun_kept)

theorem execSet_kept (req : Req) (body : List Nat) (s : State) (t : State) (h : execSet req body s = .next t) :
    s.Kept true t := by
  cases h
  repeat' (first
   | exact State.Kept.refl _
   | with_reducible apply State.rmpRun_kept
   | with_reducible apply State.served_kept
   | with_reducible apply setCmd_kept)

theorem execMemRead_kept {kx : Bool} (req : Req) (body data : List Nat) (s : State) (t : State) (h : execMemRead req body data s = .next t) :
    s.Kept kx t := by
  cases h
  repeat' (first
   | exact State.Kept.refl _
   | with_reducible apply memReadCmd_kept
   | with_reducible apply State.rmpRun_kept)

theorem execMemWrite_kept {kx : Bool} (req : Req) (body : List Nat) (s : State) (t : State) (h : execMemWrite req body s = .next t) :
    s.Kept kx t := by
  cases h
  repeat' (first
   | exact State.Kept.refl _
   | with_reducible apply memWriteCmd_kept
   | with_reducible apply State.rmpRun_kept)

theorem execStreamStart_kept {kx : Bool} (req : Req) (body : List Nat) (s : State) (t : State) (h : execStreamStart req body s = .next t) :
    s.Kept kx t := by
  cases h
  repeat' (first
   | exact State.Kept.refl _
   | with_reducible apply State.rmpRun_kept
   | with_reducible apply streamStartCmd_kept)

theorem execStreamStop_kept {kx : Bool} (req : Req) (body : List Nat) (s : State) (t : State) (h : execStreamStop req body s = .next t) :
    s.Kept kx t := by
  cases h
  repeat' (first
   | exact State.Kept.refl _
   | with_reducible apply State.rmpRun_kept
   | with_reducible apply streamStopCmd_kept)

theorem execUcwEnable_kept {kx : Bool} (req : Req) (body : List Nat) (s : State) (t : State) (h : execUcwEnable req body s = .next t) :
    s.Kept kx t := by
  cases h
  repeat' (first
   | exact State.Kept.refl _
   | with_reducible apply State.rmpRun_kept
   | with_reducible apply ucwEnableCmd_kept)

theorem execSpareDisable_kept {kx : Bool} (req : Req) (body : List Nat) (s : State) (t : State) (h : execSpareDisable req body s = .next t) :
    s.Kept kx t := by
  cases h
  repeat' (first
   | exact State.Kept.refl _
   | with_reducible apply State.rmpRun_kept
   | with_reducible apply spareDisableCmd_kept)

end Sys2Proof.Machine
end

