-- ==== Sys2Proof/Laws/Ops.lean ====
section
/-! SUPPORT. What the shared operations do to registers: a read of a register or of one bit after each. -/

namespace Sys2Proof.Machine

theorem testBit_putBit (v b x c : Nat) : (putBits v b b x).testBit c = if c = b then decide (x % 2 = 1) else v.testBit c := by
  have e1 : ∀ y, bits y b b = y / 2 ^ b % 2 := by intro y; simp [bits]
  have e2 : x % 2 ^ (b - b + 1) = x % 2 := by simp
  unfold putBits
  rw [e1, e2]
  have hb : v / 2 ^ b % 2 = (v.testBit b).toNat := by
    rw [Nat.toNat_testBit]
  have key : v = 2 ^ (b + 1) * (v / 2 ^ (b + 1)) + (2 ^ b * (v / 2 ^ b % 2) + v % 2 ^ b) := by
    have h1 := Nat.div_add_mod v (2 ^ (b + 1))
    have h2 : v % 2 ^ (b + 1) = 2 ^ b * (v / 2 ^ b % 2) + v % 2 ^ b := by
      rw [pow_succ, Nat.mod_mul]; ring
    omega
  have hlt : v % 2 ^ b < 2 ^ b := Nat.mod_lt _ (Nat.two_pow_pos _)
  have hval : v - v / 2 ^ b % 2 * 2 ^ b + x % 2 * 2 ^ b = 2 ^ (b + 1) * (v / 2 ^ (b + 1)) + (2 ^ b * (x % 2) + v % 2 ^ b) := by
    have : v / 2 ^ b % 2 * 2 ^ b = 2 ^ b * (v / 2 ^ b % 2) := by ring
    have : x % 2 * 2 ^ b = 2 ^ b * (x % 2) := by ring
    omega
  rw [hval]
  have form : ∀ q : Nat, q < 2 → ∀ c, (2 ^ (b + 1) * (v / 2 ^ (b + 1)) + (2 ^ b * q + v % 2 ^ b)).testBit c =
      if c = b then decide (q = 1) else v.testBit c := by
    intro q hq c
    have hq2 : 2 ^ b * q + v % 2 ^ b < 2 ^ (b + 1) := by
      rw [pow_succ]
      rcases (by omega : q = 0 ∨ q = 1) with h | h <;> subst h <;> omega
    rw [Nat.testBit_two_pow_mul_add _ hq2]
    by_cases h1 : c < b + 1
    · rw [if_pos h1, Nat.testBit_two_pow_mul_add _ hlt]
      by_cases h2 : c < b
      · rw [if_pos h2, if_neg (by omega), Nat.testBit_mod_two_pow]; simp [h2]
      · have : c = b := by omega
        subst this
        rcases (by omega : q = 0 ∨ q = 1) with h | h <;> subst h <;> simp
    · rw [if_neg h1, if_neg (by omega), Nat.testBit_div_two_pow]
      congr 1; omega
  exact (form _ (Nat.mod_lt _ (by omega)) c)

theorem putBit_lt {v b x : Nat} (hv : v < 2 ^ 32) (hb : b < 32) : putBits v b b x < 2 ^ 32 := by
  apply Nat.lt_pow_two_of_testBit
  intro c hc
  rw [testBit_putBit, if_neg (by omega)]
  exact Nat.testBit_lt_two_pow (lt_of_lt_of_le hv (Nat.pow_le_pow_right (by omega) hc))

theorem State.rd_wrFld_other {o p : Nat} (hi lo v : Nat) (s : State) (h : p ≠ o) : (s.wrFld o hi lo v).rd p = s.rd p :=
  State.rd_wr_other _ _ h
theorem State.rd_setBit_other {o p : Nat} (b : Nat) (s : State) (h : p ≠ o) : (s.setBit o b).rd p = s.rd p :=
  State.rd_wr_other _ _ h
theorem State.rd_clrBit_other {o p : Nat} (b : Nat) (s : State) (h : p ≠ o) : (s.clrBit o b).rd p = s.rd p :=
  State.rd_wr_other _ _ h
theorem State.rd_putBit_other {o p : Nat} (b : Nat) (v : Bool) (s : State) (h : p ≠ o) : (s.putBit o b v).rd p = s.rd p :=
  State.rd_wr_other _ _ h

/-- One bit of a register after one bit of it is stored. -/
theorem State.bit_putBit {o b : Nat} (c : Nat) (v : Bool) (s : State) (hb : b < 32) :
    (s.putBit o b v).bit o c = if c = b then v else s.bit o c := by
  have h := putBit_lt (v := s.rd o) (x := b2n v) (s.rd_lt o) hb
  simp only [State.bit, State.putBit, State.wrFld, State.rd_wr_same, Nat.mod_eq_of_lt h, testBit_putBit]
  split
  · cases v <;> rfl
  · rfl

theorem State.bit_setBit {o b : Nat} (c : Nat) (s : State) (hb : b < 32) :
    (s.setBit o b).bit o c = (decide (c = b) || s.bit o c) := by
  have h := s.bit_putBit (o := o) c true hb
  simp only [State.putBit, b2n, if_true] at h
  rw [show (s.setBit o b) = s.wrFld o b b 1 from rfl, h]
  by_cases h : c = b <;> simp [h]

theorem State.bit_clrBit {o b : Nat} (c : Nat) (s : State) (hb : b < 32) :
    (s.clrBit o b).bit o c = (!decide (c = b) && s.bit o c) := by
  have h := s.bit_putBit (o := o) c false hb
  simp only [State.putBit, b2n] at h
  rw [show (s.clrBit o b) = s.wrFld o b b 0 from rfl]
  simp only [Bool.false_eq_true, if_false] at h
  rw [h]
  by_cases h : c = b <;> simp [h]

theorem State.bit_other {s t : State} {o : Nat} (h : t.rd o = s.rd o) (c : Nat) : t.bit o c = s.bit o c := by
  simp only [State.bit, h]

/-- A report changes no register but WATCH_EVENT. -/
theorem State.rd_report {p : Nat} (code agent access addr : Nat) (s : State) (h : p ≠ Reg.WATCH_EVENT) :
    (s.report code agent access addr).rd p = s.rd p := by
  unfold State.report
  split
  · rfl
  · extract_lets cls tt ns w0 cap w1 w2 w3 s1 s2 s3
    split
    · rfl
    · have e3 : s3.rd p = s.rd p := by
        simp only [s3, State.whenB]; split
        · rw [State.rd_setBit_other _ _ h]; simp only [s2]; rw [State.rd_setBit_other _ _ h]; rfl
        · simp only [s2]; rw [State.rd_setBit_other _ _ h]; rfl
      split
      · exact e3
      · exact e3

theorem State.mem_report (code agent access addr : Nat) (s : State) : (s.report code agent access addr).mem = s.mem := by
  unfold State.report
  split
  · rfl
  · extract_lets cls tt ns w0 cap w1 w2 w3 s1 s2 s3
    split
    · rfl
    · have e3 : s3.mem = s.mem := by
        simp only [s3, State.whenB]; split <;> rfl
      split
      · exact e3
      · exact e3

theorem State.rd_usageReg {p : Nat} (agent o : Nat) (s : State) (h : p ≠ Reg.WATCH_EVENT) : (s.usageReg agent o).rd p = s.rd p :=
  State.rd_report _ _ _ _ s h

/-- With no request waiting in the mailbox nothing is carried out (R562). -/
theorem State.served_idle {s : State} (h : s.bit Reg.HOST_MBX_STATUS 0 = false) : s.served = s := by
  simp [State.served, State.mbxServe, h]

end Sys2Proof.Machine
end

