-- ==== Sys2Proof/WellFormed.lean ====
section
/-! DEFINITION. Operands that a command can carry: agents, unit IDs and register offsets as the address map numbers them (R37 to R40),
register words, bytes, and the header of an RMP message (R353). What R192 lets a tally write for a coding block. A command outside these bounds cannot be sent. -/

namespace Sys2Proof

/-- A number of bits, or one of a run of things. -/
def below (n x : Nat) : Bool := decide (x < n)

/-- A length from 1 up to a bound. -/
def lenOk (n x : Nat) : Bool := decide (0 < x) && decide (x ≤ n)

/-- A register offset: aligned, in the 256 MiB of register space (R10, R38). -/
def offsetOk (o : Nat) : Bool := decide (o % 4 = 0) && decide (o < 2 ^ 28)

/-- A string of bytes. -/
def bytesOk (l : List Nat) : Bool := l.all (fun b => decide (b < 256))

/-- The body of an RMP request: at most 1,400 bytes (R353). -/
def bodyOk (l : List Nat) : Bool := bytesOk l && decide (l.length ≤ 1400)

/-- The header of an RMP request: a 32-bit SEQ (R353). -/
def reqOk (q : Req) : Bool := decide (q.seq < 2 ^ 32)

/-- An outcome of the start-up sequence: control-core pairs 0 and 1, ports 0 to 16, stalls at step 7 or 9, network ports 0 to 8 and outputs 0
to 7 (R77, R88). -/
def startOk (s : StartUp) : Bool :=
  s.pairsFail.all (fun l => l.all (fun p => decide (p < 2))) && s.portsFail.all (fun p => decide (p < 17))
    && [0, 7, 9].contains s.stallA && [0, 7, 9].contains s.stallB && s.links.all (fun l => decide (l.1 < 9))
    && s.outsFail.all (fun n => decide (n < 8))

/-- A coded picture whose tally writes at most 1,024 entries for each run of 64 columns of a block row (R192). -/
def picOk (p : CodedPic) : Bool :=
  p.units.all (fun u => match u.kind with
    | .segment g => g.cells.all (fun c => decide (c.entries ≤ 1024))
    | _ => true)

/-- A frame of Ethernet with its datagram, at a network port (R329). -/
def datagramOk (d : Datagram) : Bool := decide (d.port < 9) && bytesOk d.data

/-- Runs of bytes of the outbound window (R33). -/
def hostOk (l : List (Nat × List Nat)) : Bool :=
  l.all (fun p => decide (0x8000000000 ≤ p.1) && below (2 ^ 40 + 1) (p.1 + p.2.length) && bytesOk p.2)

/-- Words of the protected region with the number of their bits that are wrong, 1 or 2 (R456). -/
def errsOk (l : List (Nat × Nat)) : Bool := l.all (fun e => decide (e.1 % 8 = 0) && decide (1 ≤ e.2) && decide (e.2 ≤ 2))

/-- A command that can be sent. -/
def Instr.wf (i : Instr) : Bool :=
  match i with
  | .registerWrite a b c | .pairLoWrite a b c | .pairHiWrite a b c | .quayWatermarkWrite a b c =>
    below 4096 a && offsetOk b && below (2 ^ 32) c
  | .refusedRegisterAccess a b _ =>
    below 4096 a && below (2 ^ 28) b
  | .rcRead a b | .pairLoRead a b =>
    below 4096 a && offsetOk b
  | .stageHoldWrite a b | .tideCapture a b | .cmpLayoutFlip a b | .pwrCoefReset a b | .memMigForce a b | .ltFlagsSet a b
    | .watchAck a b | .watchFenceClear a b | .watchSafeForce a b | .sndSampleCfgWrite a b =>
    below 4096 a && below (2 ^ 32) b
  | .powerApplied _ _ | .railRetry | .powerRemoved | .ptpWaitExpiry | .heaterOff | .armChange _ | .presentPress
    | .presenceWindowExpiry | .btnStuck | .sealBreak | .flashWriteTimeout | .tideStart _ | .tideOutFall | .ppsOutRise
    | .ppsOutFall | .tideRebase | .masterLost | .ppsInEdge | .ppsInLost | .holdoverExpired | .ref10mLoss | .ref10mReturn
    | .inputStateChange _ _ | .efuseTrip _ | .efuseRetry _ _ _ | .singleFeed _ | .holdupExhausted
    | .powerSample _ | .efficiencyUpdate _ _ | .temperatureSample _ _ _ | .governorRecheck | .powerWindow _
    | .migrationCopyDone | .migrationDrainDone | .perstAssert _ | .pcieLinkChange _ _ _ | .flr | .dStateChange _
    | .fenceSelfTestDone _ | .safeStateEntry | .tideLost | .watchSelf | .i2cBusRelease | .hotInsertion _ _
    | .completionDeadline _ | .sealLoopClose | .buttonRelease | .customsLost | .hmLost
    | .singleFeedClears _ =>
    true
  | .resetRelease a | .modReset a | .bootWatchdogExpiry a | .ccLostReset a =>
    startOk a
  | .get a b | .set a b | .certRead a b | .quote a b | .logRead a b | .memWrite a b | .streamStart a b | .streamStop a b
    | .layoutFlip a b | .storm a b | .sndCtrl a b | .flashOpen a b | .flashWrite a b | .fwCommit a b | .ucwEnable a b
    | .spareDisable a b | .sealClear a b =>
    reqOk a && bodyOk b
  | .memRead a b c =>
    reqOk a && bodyOk b && bytesOk c
  | .stormFragmentExpiry a | .refreshRequestRepeat a | .mergeWindowExpiry a =>
    below 65536 a
  | .flashClose a b c | .factoryReset a b c | .safeClear a b c =>
    reqOk a && bodyOk b && startOk c
  | .tideRateFracCommit a b | .edcFail a b _ _ _ | .free a b | .release a b | .share a b | .ld a _ b | .unitFence a _ _ b =>
    below 4096 a && below (2 ^ 40) b
  | .ptpSyncRx a _ | .ptpAnnounceRx a _ _ _ _ | .netLinkChange a _ _ _ _ _ | .neighbourRequestRx a _ | .pathLost a
    | .pathLostEnds a | .ptpMessageTx _ a | .ptpDelayMessageRx _ a _ =>
    below 9 a
  | .ingressDatagram a => datagramOk a
  | .scrubRead a => errsOk a
  | .configurationRequest a => below 4096 a.reg
  | .entropyDecode a b => below 4096 a && picOk b
  | .stepAccept a | .slewAccept a | .reconstruct a _ | .decodeStart a | .decodeStop a | .decodeReadStatus a
    | .flush a | .encode a _ | .encodeStart a | .encodeStop a | .encodeReadStatus a | .forceSweep a | .restart a | .modelRead a
    | .modelSeed a | .ucwOverrun a | .transmit a _ | .qcRead a | .qcWrite a | .qcEnable a | .qcDisable a
    | .clockGate a | .unitWake a | .deepGateWake a | .runProgram a | .move a | .loop a | .ltWait a | .ltWaitSatisfied a
    | .waitTimeout a | .signal a | .nop a _ | .mov a _ | .ldi a _ | .shi a _ | .add a _ | .sub a _ | .and a _ | .or a _
    | .xor a _ | .min a _ | .max a _ | .shl a _ | .shr a _ | .sar a _ | .mul a _ | .mulh a _ | .div a _ | .addi a _ | .cmp a _
    | .cmpi a _ | .st a _ | .br a _ | .call a _ | .ret a _ | .wait a _ _ | .waitSatisfied a | .step a _ | .commit a _
    | .issue a _ | .done a _ | .trapret a _ | .exit a _ | .microTrap a _ | .outboundTimeout a | .spareTakeover a | .hang a =>
    below 4096 a
  | .tideAdjCommit a b =>
    below 4096 a && below (2 ^ 64) b
  | .compose a b => below 4096 a && hostOk b
  | .entropyEncode a b | .burstComplete a _ _ b =>
    below 4096 a && bytesOk b
  | .plUcwRearm a b c | .groupCtrlWrite a b c =>
    below 4096 a && below 4096 b && below (2 ^ 32) c
  | .displayVsync a | .hpdLow a | .irqHpd a _ _ | .hpdAssert a _ _ _ _ | .linkTrainingRetry a _ | .auxTimeout a
    | .laneFault a _ _ _ =>
    below 8 a
  | .feedbackRx a | .i2cWrite a =>
    bytesOk a
  | .feederPacket a b _ _ =>
    below 2 a && bytesOk b
  | .demuxRead a | .feederSilent a | .holdShort a | .feederPinTest a _ | .lockstep a =>
    below 2 a
  | .feednDataRead a b =>
    below 4096 a && below 2 b
  | .hmDoorbell a b c =>
    below 4096 a && below (2 ^ 20) b && below (2 ^ 32) c
  | .qctxLoad a =>
    below (2 ^ 20) a
  | .dispatchDeadlineExpiry a b =>
    below (2 ^ 20) a && below (2 ^ 32) b
  | .book a b | .withdraw a b =>
    below 4096 a && below 65536 b
  | .bookOutput a b =>
    below 4096 a && below 8 b
  | .hmGateSwap a b c =>
    below 4096 a && below 16 b && below (2 ^ 32) c
  | .gateListTakeover a | .gateEntryChange a =>
    below 16 a
  | .unitEnable a b | .unitDisable a b _ | .stopModeHalt a b | .spareSet a b | .spareClear a b =>
    below 4096 a && below 4096 b
  | .spadBankRetention a b =>
    below 48 a && below 64 b
  | .refreshDue a b c _ =>
    below 17 a && below 2 b && below 16 c
  | .selfRefreshEntry a | .predictWindow a _ | .calibrationSession a _ | .portLost a | .inplaceCalStep a _ _ =>
    below 17 a
  | .alloc a b c d =>
    below 4096 a && below 4096 b && below 256 c && below 8 d
  | .transfer a b c =>
    below 4096 a && below (2 ^ 40) b && below 4096 c
  | .poolEnable a b c | .poolDisable a b c =>
    below 4096 a && below 256 b && below (2 ^ 32) c
  | .threaded a =>
    below 256 a
  | .bar2Resize a =>
    below 64 a
  | .bar2Write a b _ =>
    below (2 ^ 64) a && bytesOk b
  | .bar2Read a b =>
    below (2 ^ 64) a && lenOk 4096 b
  | .msixUnmask a =>
    below 32 a
  | .mailboxGo a b c d =>
    below 4096 a && below (2 ^ 32) b && startOk c && bytesOk d
  | .sourceEdge a | .holdTimerExpiry a =>
    below 1024 a
  | .bellClaim a b =>
    below 4096 a && below 36 b
  | .bellComplete a b c =>
    below 4096 a && below 36 b && below (2 ^ 32) c
  | .bellSwset a b c =>
    below 4096 a && below 8 b && below (2 ^ 32) c
  | .bellSrcCfgWrite a b c =>
    below 4096 a && below 1024 b && below (2 ^ 32) c
  | .sndSelWrite a b c d =>
    below 4096 a && below 4096 b && below 8 c && below (2 ^ 32) d
  | .skidSample _ _ a _ =>
    below (2 ^ 32) a
  | .i2cRead a =>
    lenOk 256 a

end Sys2Proof
end

