-- ==== Sys2Proof/Tests/Slice0.lean ====
section
/-! SUPPORT. Tests: ill-formed commands refused by each check of WellFormed; single steps against values the manual states;
and for each statement with hypotheses a state and operands that meet them, at the bounds where a clause has a range. -/

namespace Sys2Proof.Tests

open Sys2Proof Sys2Proof.Machine

set_option Elab.async false

/-! ### States the tests use -/

/-- A module in service, ARM fitted, step 9. -/
def svc : State :=
  ({ State.reset with boot := { BootSt.reset with phase := .service, arm := true } } : State).wr Reg.CUS_BOOT_STATUS 9

/-- The same with the presence window open. -/
def pres : State := { svc with boot := { svc.boot with window := some 0 } }

/-- A request over the service port. -/
def rq : Req := { via := .service, addr := 5, seq := 7, noReply := false }

/-- A start-up outcome without a failure. -/
def st0 : StartUp :=
  { selfTest := true, loopOpen := false, carrierOk := true, pairsFail := [], readback := [], portsFail := [], vals := [],
    stallA := 0, stallB := 0, links := [], outsFail := [] }

/-! ### WellFormed refuses, one ill-formed term for each check -/

theorem test_wf_good : (Instr.registerWrite 4095 0x600004 (2 ^ 32 - 1)).wf = true := by decide
theorem test_wf_agent : (Instr.registerWrite 4096 0x600004 1).wf = false := by decide
theorem test_wf_offset : (Instr.registerWrite 1 0x600002 1).wf = false := by decide
theorem test_wf_offset_top : (Instr.rcRead 1 (2 ^ 28)).wf = false := by decide
theorem test_wf_word : (Instr.registerWrite 1 0x600004 (2 ^ 32)).wf = false := by decide
theorem test_wf_bytes : (Instr.i2cWrite [256]).wf = false := by decide
theorem test_wf_host : (Instr.compose 0x70 [(0x7FFFFFFFFF, [0])]).wf = false := by decide
theorem test_wf_seq : (Instr.quote { rq with seq := 2 ^ 32 } []).wf = false := by decide
theorem test_wf_body : (Instr.quote rq (List.replicate 1401 0)).wf = false := by decide +kernel
theorem test_wf_body_full : (Instr.quote rq (List.replicate 1400 0)).wf = true := by decide +kernel
theorem test_wf_start : (Instr.resetRelease { st0 with stallA := 8 }).wf = false := by decide

/-! ### Witnesses: the step, the queue, the canonical forms -/

theorem wit_StepRunsTheFrontCommand : State.reset.pending = [] := rfl

theorem wit_StepKeepsCanonicalForm : State.reset.Canonical ∧ ∃ t, step State.reset = .next t :=
  ⟨by unfold State.Canonical; decide, _, rfl⟩

theorem wit_StepKeepsWatchTablesBounded : State.reset.WatchBounded ∧ ∃ t, step State.reset = .next t :=
  ⟨by unfold State.WatchBounded; decide, _, rfl⟩

theorem wit_StepKeepsOneClaimPerTarget : State.reset.OneClaim ∧ ∃ t, step { State.reset with pending := [.bellClaim 0 4] } = .next t :=
  ⟨fun _ _ h => absurd h Bool.false_ne_true, _, rfl⟩

theorem wit_CommandsLeaveTheQueue : ∃ t, exec (.heaterOff) { State.reset with pending := [.flr] } = .next t := ⟨_, rfl⟩

theorem wit_OnlySealClearMendsTheSeal : ∃ t, exec (.sealClear rq []) { pres with boot := { pres.boot with broken := true } } = .next t
    ∧ t.boot.broken = false := ⟨_, rfl, by decide +kernel⟩

theorem wit_FusesOnlyRise : ∃ t, exec .railRetry State.reset = .next t := ⟨_, rfl⟩

/-! ### Witnesses: registers -/

theorem wit_PlainRegisterWriteStoresAtOnce : ∃ r k i, rowOf Reg.MEM_SR_IDLE = some (r, k, i) ∧ r.acc = .rw ∧ r.half = .none ∧
    groupSnd Reg.MEM_SR_IDLE = false ∧ svc.noRegister 0 Reg.MEM_SR_IDLE = false ∧ svc.armBlocks 0 Reg.MEM_SR_IDLE = false ∧
    svc.imageOnly r Reg.MEM_SR_IDLE (1 % two32) = false ∧ svc.absentPort Reg.MEM_SR_IDLE = false ∧ noGroupReg Reg.MEM_SR_IDLE = false ∧
    svc.opWrite 0 Reg.MEM_SR_IDLE (Nat.land (1 % two32) r.mask) = none ∧ svc.badWrite Reg.MEM_SR_IDLE (Nat.land (1 % two32) r.mask) = false ∧
    ([.global, .tide, .feed, .hm, .snd, .bell, .host] : List Block).contains (blockOf Reg.MEM_SR_IDLE) = false ∧
    svc.bit Reg.HOST_MBX_STATUS 0 = false := by
  refine ⟨_, _, _, rfl, ?_⟩
  decide +kernel


theorem wit_PlainRegisterWriteStoresAtOnce_refused : ∃ r k i, rowOf Reg.PWR_GOV_CTRL = some (r, k, i) ∧ r.acc = .rw ∧ r.half = .none ∧
    groupSnd Reg.PWR_GOV_CTRL = false ∧ svc.noRegister 0 Reg.PWR_GOV_CTRL = false ∧ svc.armBlocks 0 Reg.PWR_GOV_CTRL = false ∧
    svc.imageOnly r Reg.PWR_GOV_CTRL (0xFFF % two32) = false ∧ svc.absentPort Reg.PWR_GOV_CTRL = false ∧ noGroupReg Reg.PWR_GOV_CTRL = false ∧
    svc.opWrite 0 Reg.PWR_GOV_CTRL (Nat.land (0xFFF % two32) r.mask) = none ∧
    svc.badWrite Reg.PWR_GOV_CTRL (Nat.land (0xFFF % two32) r.mask) = true ∧ svc.bit Reg.HOST_MBX_STATUS 0 = false := by
  refine ⟨_, _, _, rfl, ?_⟩
  decide +kernel

theorem wit_StagedRegisterWriteWaits : ∃ r k i, rowOf Reg.PWR_CEILING = some (r, k, i) ∧ r.acc = .rws ∧
    groupSnd Reg.PWR_CEILING = false ∧ svc.noRegister 0 Reg.PWR_CEILING = false ∧ svc.armBlocks 0 Reg.PWR_CEILING = false ∧
    svc.imageOnly r Reg.PWR_CEILING (90 % two32) = false ∧ svc.absentPort Reg.PWR_CEILING = false ∧ noGroupReg Reg.PWR_CEILING = false ∧
    sndSetSel Reg.PWR_CEILING = none ∧ svc.opWrite 0 Reg.PWR_CEILING (Nat.land (90 % two32) r.mask) = none ∧ svc.badWrite Reg.PWR_CEILING (Nat.land (90 % two32) r.mask) = false ∧
    svc.bit Reg.HOST_MBX_STATUS 0 = false := by
  refine ⟨_, _, _, rfl, ?_⟩
  decide +kernel

theorem wit_WriteOneClearsAndReadOnlyIgnores :
    (∃ r k i, rowOf Reg.PWR_EVENT = some (r, k, i) ∧ r.acc = .w1c ∧
      groupSnd Reg.PWR_EVENT = false ∧ svc.noRegister 0 Reg.PWR_EVENT = false ∧ svc.armBlocks 0 Reg.PWR_EVENT = false ∧
      svc.imageOnly r Reg.PWR_EVENT (3 % two32) = false ∧ svc.absentPort Reg.PWR_EVENT = false ∧
      noGroupReg Reg.PWR_EVENT = false ∧ svc.opWrite 0 Reg.PWR_EVENT (Nat.land (3 % two32) r.mask) = none ∧ svc.bit Reg.HOST_MBX_STATUS 0 = false) ∧
    (∃ r k i, rowOf Reg.PWR_IN_MW = some (r, k, i) ∧ r.acc = .ro ∧
      groupSnd Reg.PWR_IN_MW = false ∧ svc.noRegister 0 Reg.PWR_IN_MW = false ∧ svc.armBlocks 0 Reg.PWR_IN_MW = false ∧
      svc.imageOnly r Reg.PWR_IN_MW (3 % two32) = false ∧ svc.absentPort Reg.PWR_IN_MW = false ∧ svc.bit Reg.HOST_MBX_STATUS 0 = false) ∧
    (∃ r k i, rowOf (nreg Reg.NET_PORT_CTRL 1) = some (r, k, i) ∧ groupSnd (nreg Reg.NET_PORT_CTRL 1) = false ∧
      svc.noRegister 0 (nreg Reg.NET_PORT_CTRL 1) = false ∧ svc.armBlocks 0 (nreg Reg.NET_PORT_CTRL 1) = false ∧
      svc.imageOnly r (nreg Reg.NET_PORT_CTRL 1) (3 % two32) = false ∧ svc.absentPort (nreg Reg.NET_PORT_CTRL 1) = true ∧
      svc.bit Reg.HOST_MBX_STATUS 0 = false) ∧
    (∃ r k i, rowOf (ucb 3 Reg.UCB_GRP_CTRL) = some (r, k, i) ∧ groupSnd (ucb 3 Reg.UCB_GRP_CTRL) = false ∧
      svc.noRegister 0 (ucb 3 Reg.UCB_GRP_CTRL) = false ∧ svc.armBlocks 0 (ucb 3 Reg.UCB_GRP_CTRL) = false ∧
      svc.imageOnly r (ucb 3 Reg.UCB_GRP_CTRL) (3 % two32) = false ∧ noGroupReg (ucb 3 Reg.UCB_GRP_CTRL) = true) := by
  refine ⟨⟨_, _, _, rfl, ?_⟩, ⟨_, _, _, rfl, ?_⟩, ⟨_, _, _, rfl, ?_⟩, ⟨_, _, _, rfl, ?_⟩⟩ <;> decide +kernel

/-- The low half of HM_SAMPLE_BASE held with a value the pair refuses. -/
def held : State := svc.holdLow Reg.HM_SAMPLE_BASE_LO 5

theorem wit_PairCommitTakesTheHeldLowHalf :
    (∃ r k i, rowOf Reg.POOL_ADDR_LO = some (r, k, i) ∧ r.acc = .rw ∧ r.half = .lo40 ∧
      svc.noRegister 0 Reg.POOL_ADDR_LO = false ∧ svc.armBlocks 0 Reg.POOL_ADDR_LO = false ∧ svc.imageOnly r Reg.POOL_ADDR_LO (5 % two32) = false ∧
      svc.absentPort Reg.POOL_ADDR_LO = false ∧ noGroupReg Reg.POOL_ADDR_LO = false ∧ groupSnd Reg.POOL_ADDR_LO = false ∧
      svc.bit Reg.HOST_MBX_STATUS 0 = false) ∧
    (∃ r k i, rowOf (Reg.POOL_ADDR_LO + 4) = some (r, k, i) ∧ r.acc = .rw ∧ r.half = .hi40 ∧
      svc.noRegister 0 (Reg.POOL_ADDR_LO + 4) = false ∧ svc.armBlocks 0 (Reg.POOL_ADDR_LO + 4) = false ∧
      svc.imageOnly r (Reg.POOL_ADDR_LO + 4) (0xFF % two32) = false ∧ svc.absentPort (Reg.POOL_ADDR_LO + 4) = false ∧
      noGroupReg (Reg.POOL_ADDR_LO + 4) = false ∧ groupSnd (Reg.POOL_ADDR_LO + 4) = false ∧ Reg.POOL_ADDR_LO ≠ Reg.TIDE_ADJ_W0 ∧ Reg.POOL_ADDR_LO ≠ Reg.TIDE_RATE_FRAC_LO ∧
      svc.badCommit Reg.POOL_ADDR_LO (svc.heldLow Reg.POOL_ADDR_LO + Nat.land (0xFF % two32) r.mask * two32) = false ∧
      svc.bit Reg.HOST_MBX_STATUS 0 = false) ∧
    (∃ r k i, rowOf (Reg.HM_SAMPLE_BASE_LO + 4) = some (r, k, i) ∧ r.acc = .rw ∧ r.half = .hi40 ∧
      held.noRegister 0 (Reg.HM_SAMPLE_BASE_LO + 4) = false ∧ held.armBlocks 0 (Reg.HM_SAMPLE_BASE_LO + 4) = false ∧
      held.imageOnly r (Reg.HM_SAMPLE_BASE_LO + 4) (0 % two32) = false ∧ held.absentPort (Reg.HM_SAMPLE_BASE_LO + 4) = false ∧
      noGroupReg (Reg.HM_SAMPLE_BASE_LO + 4) = false ∧ groupSnd (Reg.HM_SAMPLE_BASE_LO + 4) = false ∧
      Reg.HM_SAMPLE_BASE_LO ≠ Reg.TIDE_ADJ_W0 ∧ Reg.HM_SAMPLE_BASE_LO ≠ Reg.TIDE_RATE_FRAC_LO ∧ held.bit Reg.HOST_MBX_STATUS 0 = false ∧
      held.badCommit Reg.HM_SAMPLE_BASE_LO (held.heldLow Reg.HM_SAMPLE_BASE_LO + Nat.land (0 % two32) r.mask * two32) = true) := by
  refine ⟨⟨_, _, _, rfl, ?_⟩, ⟨_, _, _, rfl, ?_⟩, ⟨_, _, _, rfl, ?_⟩⟩ <;> decide +kernel

theorem wit_ReadsAnswerTheValueInForce :
    (∃ r k i, rowOf Reg.PWR_IN_MW = some (r, k, i) ∧ r.half = .none ∧ r.acc ≠ .rc ∧ r.acc ≠ .wo ∧
      groupSnd Reg.PWR_IN_MW = false ∧ (inMirror Reg.PWR_IN_MW = false ∨ 0 = hostAgent ∧ svc.bootStep < 6) ∧
      svc.noRegister 0 Reg.PWR_IN_MW = false ∧ idxOf Reg.BELL_T_CLAIM 16 36 Reg.PWR_IN_MW = none ∧
      idxOf Reg.FEED_DATA 0x100 2 Reg.PWR_IN_MW = none ∧ sndOf Reg.PWR_IN_MW = none ∧
      idxOf Reg.HM_GATE_CHANGE_W0 0x40 16 Reg.PWR_IN_MW = none ∧ Reg.PWR_IN_MW ≠ Reg.CMP_STORM_E_W0) ∧
    (∃ r k i, rowOf Reg.PWR_BUCKET_LO = some (r, k, i) ∧ r.half = .lo40 ∧ r.acc ≠ .rc ∧ r.acc ≠ .wo ∧
      groupSnd Reg.PWR_BUCKET_LO = false ∧ (inMirror Reg.PWR_BUCKET_LO = false ∨ 0 = hostAgent ∧ svc.bootStep < 6) ∧
      svc.noRegister 0 Reg.PWR_BUCKET_LO = false ∧ idxOf Reg.BELL_T_CLAIM 16 36 Reg.PWR_BUCKET_LO = none ∧
      idxOf Reg.FEED_DATA 0x100 2 Reg.PWR_BUCKET_LO = none ∧ sndOf Reg.PWR_BUCKET_LO = none ∧
      idxOf Reg.HM_GATE_CHANGE_W0 0x40 16 Reg.PWR_BUCKET_LO = none ∧ Reg.PWR_BUCKET_LO ≠ Reg.CMP_STORM_E_W0) := by
  refine ⟨⟨_, _, _, rfl, ?_⟩, ⟨_, _, _, rfl, ?_⟩⟩ <;> decide +kernel

theorem wit_RefusedAccessIsRecorded :
    svc.noRegister 0 0x0FFFFFFC = true ∧ groupSnd 0x0FFFFFFC = false ∧ svc.bit Reg.HOST_MBX_STATUS 0 = false := by decide +kernel

theorem wit_StageHoldWriteSetsHold :
    svc.noRegister 0 Reg.GLOBAL_STAGE_CTRL = false ∧ svc.armBlocks 0 Reg.GLOBAL_STAGE_CTRL = false := by decide +kernel

/-! ### Witnesses: power, start-up and restarts -/

/-- A module without power. -/
def dark : State := { State.reset with boot := { BootSt.reset with phase := .unpowered } }

theorem wit_PowerInputsAreJudged : dark.boot.phase = .unpowered ∧ svc.boot.phase ≠ .unpowered ∧ (dark.input false).st ≠ .tripped ∧ (dark.input true).st ≠ .tripped := by
  decide +kernel

theorem wit_ResetReleaseStartsAtStepOne : State.reset.boot.phase = .resetHeld ∨ State.reset.boot.phase = .railRetry := by decide

theorem wit_ModResetRestartsAtStepOne : svc.boot.phase ≠ .unpowered := by decide

theorem wit_PowerLossClearsAndResets : svc.powered = false ∧ svc.boot.phase ≠ .unpowered := by decide +kernel

/-- Stalled at step 7 on slot A; with slot B failed already. -/
def stalledA : State := { State.reset with boot := { BootSt.reset with phase := .stalled, runSlot := 0 } }
def stalledAB : State := { stalledA with boot := { stalledA.boot with failedB := true } }

/-- The safe state with both pairs fenced. -/
def bothLost : State := { svc with watch := { svc.watch with safe := true, pairsFenced := [0, 1] } }

theorem wit_StartUpFailuresRestart : stalledA.boot.phase = .stalled ∧
    (stalledAB.boot.phase = .stalled ∧ (stalledAB.markFailed stalledAB.boot.runSlot).boot.failedA = true ∧
      (stalledAB.markFailed stalledAB.boot.runSlot).boot.failedB = true) ∧
    ({ State.reset with boot := { BootSt.reset with phase := .waitPtp } } : State).boot.phase = .waitPtp ∧
    (bothLost.watch.safe = true ∧ bothLost.watch.pairsFenced.length = 2) := by
  decide +kernel

theorem wit_ManagementTargetAndHeater : svc.railsGood = true := by decide

/-! ### Witnesses: customs and RMP -/

theorem wit_PresenceAndSealFollowTheirPins :
    svc.boot.arm ≠ false ∧ ({ svc with boot := { svc.boot with btnHeld := true } } : State).boot.btnHeld = true ∧
    (svc.boot.btnStuck = false ∧ svc.boot.btnFree = none) ∧ pres.boot.window = some 0 ∧ dark.boot.phase = .unpowered ∧
    (svc.boot.loopOpen = false ∧ svc.boot.phase ≠ .unpowered) := by decide

/-- A GET of one register; a MEM_READ of four bytes at an address of that top byte; one memory port, or the host’s link and mastering. -/
def getOne : List Nat := [0, 0, 0, 0, 1, 0, 0, 0]
def readAt (top : Nat) : List Nat := [0, 0, 0, 0, top, 0, 0, 0, 4, 0]
def svcB (n : Nat) : State :=
  if n = 0 then { svc with memsys := { svc.memsys with ports := 1 } } else { svc with host := { svc.host with linkUp := true, bme := true } }

/-- Four stored bytes of a measurement log. -/
def logged : State := { svc with boot := { svc.boot with log := [(1, 2, 3)] } }

theorem wit_MonitorCommandsAnswer :
    (svc.Admits rq 1 .monitor ∧ getOne.length = 8 ∧ 0 < bodyN getOne 4 4 ∧ bodyN getOne 4 4 ≤ 256) ∧
    (svc.Admits rq 3 .monitor ∧ 1 < 2) ∧
    (svc.Admits rq 4 .monitor ∧ (List.replicate 32 0).length ≤ 32 ∧
      (svc.boot.quotes.filter (fun c => decide (svc.tide.count < c + msCounts 1000))).length < 16) ∧
    (logged.Admits rq 5 .monitor ∧ 0 < 256 ∧ logged.boot.log[0]? = some (1, 2, 3)) ∧
    ((svcB 0).Admits rq 6 .monitor ∧ (readAt 0).length = 10 ∧ bodyN (readAt 0) 0 8 < two40 ∧ 0 < bodyN (readAt 0) 8 2 ∧
      bodyN (readAt 0) 8 2 ≤ 1024 ∧ (svcB 0).isMem (bodyN (readAt 0) 0 8) = true ∧
      (svcB 0).isMem (bodyN (readAt 0) 0 8 + bodyN (readAt 0) 8 2 - 1) = true ∧
      (svcB 0).canRead (bodyN (readAt 0) 0 8) (bodyN (readAt 0) 8 2) = .ok ∧
      (svcB 0).ports.any (fun p => p.2.selfRefresh && p.2.role == .active) = false ∧ (svcB 0).memsys.flips = []) ∧
    (svc.target (bodyN (readAt 0x40) 0 8) = .regs ∧ bodyN (readAt 0x40) 0 8 % 4 = 0 ∧ bodyN (readAt 0x40) 8 2 % 4 = 0) ∧
    ((svcB 1).Admits rq 6 .monitor ∧ (svcB 1).target (bodyN (readAt 0x80) 0 8) = .outbound ∧ (svcB 1).outboundOk = true) ∧
    svc.target (bodyN (readAt 0x60) 0 8) = .unmapped := by
  unfold State.Admits
  refine ⟨?_, ?_, ?_, ?_, ?_, ?_, ?_, ?_⟩ <;> decide +kernel

/-- A single register read as a GET takes it. -/
theorem wit_MonitorCommandsAnswer_get : ∃ r k i, rowOf Reg.PWR_IN_MW = some (r, k, i) ∧ r.half = .none ∧ r.acc ≠ .rc ∧ r.acc ≠ .wo ∧
    groupSnd Reg.PWR_IN_MW = false ∧ inMirror Reg.PWR_IN_MW = false ∧ svc.noRegister agentCc0 Reg.PWR_IN_MW = false ∧
    idxOf Reg.BELL_T_CLAIM 16 36 Reg.PWR_IN_MW = none ∧ idxOf Reg.FEED_DATA 0x100 2 Reg.PWR_IN_MW = none ∧ sndOf Reg.PWR_IN_MW = none ∧
    idxOf Reg.HM_GATE_CHANGE_W0 0x40 16 Reg.PWR_IN_MW = none ∧ Reg.PWR_IN_MW ≠ Reg.CMP_STORM_E_W0 := by
  refine ⟨_, _, _, rfl, ?_⟩
  decide +kernel


/-! ### Witnesses: memory-borne structures -/

/-- Bytes put into memory. -/
def lit (a : Nat) (bs : List Nat) (s : State) : State :=
  { s with mem := bs.zipIdx.foldl (fun m p => Memory.write m (a + p.2) p.1) s.mem }

/-- One port in service: 8 GiB. -/
def svcM : State := { svc with memsys := { svc.memsys with ports := 1 } }

/-- A gantry, a tally and a pilot bound to contexts 1 and 2, and pool 0 enabled with buffers of 64 MiB. -/
def bound (ctxs : List Nat) : UnitSt := { UnitSt.reset with eng := .idle, berth := .bound, ctxs, pow := .on }
def svcU : State :=
  ({ svcM with units := [(0, bound [1, 2]), (0x40, bound [1, 2]), (0x60, bound [1, 2])] } : State).wr (poolReg Reg.POOL_CFG 0) 0x11A

/-- Context 1: a decode stream of HEVC 4:2:0, 1920 × 1080. -/
def decBytes : List Nat :=
  [1, 0, 1, 0, 0x13, 0, 0, 0, 0x80, 7, 0x38, 4, 0, 0, 0x40, 0, 0, 0, 0, 0, 0, 0, 0, 0, 0, 0, 1, 0]
/-- Context 2: an encode stream of the same format, into the buffers of pool 0. -/
def encBytes : List Nat :=
  [2, 0, 2, 0, 0x13, 0, 0, 1, 0x80, 7, 0x38, 4, 0, 0, 0x40, 0, 0x60, 0, 0xFF, 0xFF, 0, 0, 0, 0, 0xFF, 0xFF, 1, 0, 0, 0,
   8, 0, 0, 1, 0, 0, 0, 0, 0, 0, 0, 0, 0, 0] ++ leBytes 4 40000000 ++ List.replicate 36 0
  ++ [0, 0, 0, 20] ++ leBytes 4 20000000 ++ leBytes 4 20000000 ++ [44, 1, 0, 4]
def svcC : State := lit 256 decBytes (lit 512 encBytes svcU)

/-- A job of an opcode for a context, source pointer `s0`. -/
def mkJob (op ctx s0 : Nat) : Job :=
  { queue := ctx, index := 0, addr := 0x1000, op, flags := 0, ctx, seq := 0, tide := 0, deadline := 0, s0, s1 := 0, s2 := 0,
    s3 := 0, s4 := 0, completion := 0, work := 0, cls := 8, cost := 0, estimate := 0, effort := 0, status := none, b1 := 0,
    b2 := 0, b3 := 0, b8 := 0, b15 := 0, rerun := false, stopWith := none, bufs := [], started := 0, startNs := 0 }
/-- A unit runs a job. -/
def busy (u : Nat) (j : Job) (s : State) : State := s.setUnit u { s.unit u with eng := .running, job := some j }
/-- Contexts 1 and 2 started. -/
def runC : State := ((svcC.readCtx 1).readCtx 2 |>.setCtxState 1 1).setCtxState 2 2

/-- A tally and a gantry at a picture of context 1; what a quay holds of one; the same put into the tally’s quay. -/
def pic0 : CodedPic :=
  { units := [], params := 0, kind := .plain, struct := 0, order := 0, num := 0, isRef := false, slots := [], tileCols := [],
    tileRows := [], refs := [], motion := [], recovery := none, hash := none, hdrFlags := 0, hdr := [], grain := false,
    tags := { blocks := 0, hits := [] } }
def tallying : State := busy 0x40 (mkJob 0x0101 1 0x100000) runC
def recon : State := busy 0 (mkJob 0x0102 1 0x100000) runC
def inBuf : QuayPic := { ctx := 1, seq := 0, runs := [], eop := 1, eopLeaf := 0, found := Found.reset, pic := some pic0 }
def full (s : State) : State := s.setBit (ucb 0x40 Reg.TL_QUAY_STATUS) 18

theorem wit_DecodeJobsRun :
    (tallying.JobReady 0x40 0x0101 true (mkJob 0x0101 1 0x100000) ∧ tallying.quayFind 0x40 1 0 = none ∧ tallying.quayHigh 0x40 = false) ∧
    ((full tallying).JobReady 0x40 0x0101 true (mkJob 0x0101 1 0x100000) ∧ (full tallying).quayFind 0x40 1 0 = none ∧
      (full tallying).quayHigh 0x40 = true) ∧
    ((tallying.quayAdd 0x40 inBuf).JobReady 0x40 0x0101 true (mkJob 0x0101 1 0x100000) ∧
      (tallying.quayAdd 0x40 inBuf).quayFind 0x40 1 0 = some inBuf ∧ ((tallying.quayAdd 0x40 inBuf).quayFill 0x40 inBuf).eop = 1 ∧
      ((tallying.quayAdd 0x40 inBuf).dec 1).orphans.contains 0 = false) ∧
    (recon.JobReady 0 0x0102 true (mkJob 0x0102 1 0x100000) ∧ recon.quayFind (recon.tlBerth 1) 1 0 = none) ∧
    ((recon.quayAdd 0x40 inBuf).JobReady 0 0x0102 true (mkJob 0x0102 1 0x100000) ∧
      (recon.quayAdd 0x40 inBuf).quayFind ((recon.quayAdd 0x40 inBuf).tlBerth 1) 1 0 = some inBuf ∧ inBuf.runs = [] ∧ inBuf.eop = 1 ∧
      inBuf.pic = some pic0 ∧ (recon.quayAdd 0x40 inBuf).jobAt ((recon.quayAdd 0x40 inBuf).tlBerth 1) 0x0101 = none ∧
      ((recon.quayAdd 0x40 inBuf).dec 1).joined = false ∧ joinPoint ((recon.quayAdd 0x40 inBuf).codec 1) pic0 = false) ∧
    ((busy 0 (mkJob 0x0103 1 0) svcC).JobReady 0 0x0103 false (mkJob 0x0103 1 0) ∧
      (busy 0 (mkJob 0x0103 1 0) svcC).decStartCode 1 = 0) ∧
    (busy 0 (mkJob 0x0104 1 0) runC).JobReady 0 0x0104 false (mkJob 0x0104 1 0) ∧
    ((busy 0 (mkJob 0x0105 1 0x100000) runC).JobReady 0 0x0105 false (mkJob 0x0105 1 0x100000) ∧
      (busy 0 (mkJob 0x0105 1 0x100000) runC).isMem 0x10003F = true ∧ (busy 0 (mkJob 0x0105 1 0x100000) runC).canWrite 0 0x100000 64 = .ok) ∧
    (busy 0 (mkJob 0x0106 1 0) runC).JobReady 0 0x0106 true (mkJob 0x0106 1 0) := by
  unfold State.JobReady
  refine ⟨?_, ?_, ?_, ?_, ?_, ?_, ?_, ?_, ?_⟩ <;> decide +kernel

/-- Gantry 0 at an ENCODE with its buffers in its slots; the tally at the picture it coded, and at one that was dropped. -/
def encJ : Job := { mkJob 0x0201 2 0x100000 with s1 := 0x200000, s2 := 0x300000 }
def encing : State := busy 0 encJ runC
def sending : State := busy 0x40 (mkJob 0x0202 2 0) runC
def coded : EncPic :=
  { seq := 0, status := 0, bits := 0x500000, coded := 800, tide := 0, flags := 0, effort := 0, qp := 0, order := 0, step := 0, pic := 0,
    defers := 0, begins := false, intra := false, sweepId := 0, recon := 0x600000, hash := 0, model := [], whole := false, head := [],
    tail := [], elems := [], inters := 0, exacts := 0, qLast := 0, rows := 0, shareBits := [], done := true }
def outBuf : QuayPic := { ctx := 2, seq := 0, runs := [], eop := 2, eopLeaf := 0, found := Found.reset, pic := none }
def sendingC : State := (sending.setEnc 2 { EncSt.reset with cur := some coded }).quayAdd 0x40 outBuf
def sendingD : State := sending.setEnc 2 { EncSt.reset with dropped := some (0, 0x10) }

theorem wit_EncodeAndPilotJobsRun :
    (encing.JobReady 0 0x0201 true encJ ∧ encJ.s0 ≠ 0 ∧ (encing.enc 2).orphans.contains encJ.seq = false ∧ (encing.enc 2).cur = none ∧
      encing.quayHigh (encing.tlBerth 2) = false ∧ (encing.encBuffers 0 encJ).1 = some (0x200000, 0x300000, 0, [])) ∧
    ((full encing).JobReady 0 0x0201 true encJ ∧ ((full encing).enc 2).cur = none ∧ (full encing).quayHigh ((full encing).tlBerth 2) = true) ∧
    (sendingD.JobReady 0x40 0x0202 true (mkJob 0x0202 2 0) ∧ (sendingD.enc 2).cur = none ∧ (sendingD.enc 2).dropped = some (0, 0x10)) ∧
    (sendingC.JobReady 0x40 0x0202 true (mkJob 0x0202 2 0) ∧ (sendingC.enc 2).cur = some coded ∧ coded.seq = (mkJob 0x0202 2 0).seq ∧
      coded.done = true ∧ sendingC.tlBerth 2 = 0x40 ∧ sendingC.quayFind 0x40 2 0 = some outBuf ∧ outBuf.runs = [] ∧ outBuf.eop = 2) ∧
    ((busy 0 (mkJob 0x0203 2 0) svcC).JobReady 0 0x0203 false (mkJob 0x0203 2 0) ∧
      (busy 0 (mkJob 0x0203 2 0) svcC).encStartCode 2 = 0) ∧
    (busy 0 (mkJob 0x0204 2 0) runC).JobReady 0 0x0204 false (mkJob 0x0204 2 0) ∧
    ((busy 0 (mkJob 0x0205 2 0x100000) runC).JobReady 0 0x0205 false (mkJob 0x0205 2 0x100000) ∧
      (busy 0 (mkJob 0x0205 2 0x100000) runC).isMem 0x10003F = true ∧ (busy 0 (mkJob 0x0205 2 0x100000) runC).canWrite 0 0x100000 64 = .ok) ∧
    (busy 0 (mkJob 0x0206 2 0) runC).JobReady 0 0x0206 true (mkJob 0x0206 2 0) ∧
    (busy 0 (mkJob 0x0207 2 0) runC).JobReady 0 0x0207 true (mkJob 0x0207 2 0) ∧
    ((busy 0x60 (mkJob 0x0601 2 0x100000) runC).JobReady 0x60 0x0601 false (mkJob 0x0601 2 0x100000) ∧
      (busy 0x60 (mkJob 0x0601 2 0x100000) runC).pilotCtx 0x60 (mkJob 0x0601 2 0x100000) = true ∧
      (busy 0x60 (mkJob 0x0601 2 0x100000) runC).isMem 0x10007F = true ∧
      (busy 0x60 (mkJob 0x0601 2 0x100000) runC).canWrite 0x60 0x100000 128 = .ok) ∧
    ((busy 0x60 (mkJob 0x0602 2 0x100000) svcC).JobReady 0x60 0x0602 false (mkJob 0x0602 2 0x100000) ∧
      (busy 0x60 (mkJob 0x0602 2 0x100000) svcC).pilotCtx 0x60 (mkJob 0x0602 2 0x100000) = true ∧
      (busy 0x60 (mkJob 0x0602 2 0x100000) svcC).ctxState 2 = 0 ∧ (busy 0x60 (mkJob 0x0602 2 0x100000) svcC).isMem 0x100017 = true ∧
      (busy 0x60 (mkJob 0x0602 2 0x100000) svcC).canRead 0x100000 24 = .ok ∧
      (busy 0x60 (mkJob 0x0602 2 0x100000) svcC).memsys.flips = []) := by
  unfold State.JobReady
  refine ⟨?_, ?_, ?_, ?_, ?_, ?_, ?_, ?_, ?_, ?_, ?_⟩ <;> decide +kernel

/-! ### Witnesses: commands over RMP -/

/-- Context 1 booked, its queue running on a ring at 0x10000; layout 0's second copy 64 × 64 on lane LN0. -/
def svcQ : State :=
  lit 64 (leBytes 5 0x10000 ++ [0, 0, 0, 0, 4, 0, 0, 0, 0, 0, 1])
    (lit 0x200800 [64, 0, 64, 0, 0, 0, 0, 0, 0, 0, 0, 0, 0xFF, 0xFF, 0x70, 0]
      (({ svcC with books := [(1, Booking.reset)] } : State).wr40 Reg.CMP_LAYOUT_BASE_LO 0x200000))

/-- A SET of MEM_SR_IDLE to 5; a MEM_WRITE of the last byte below 8 GiB; a STORM; a SND_CTRL; context 1 QUIESCING. -/
def setIdle : List Nat := leBytes 4 Reg.MEM_SR_IDLE ++ leBytes 4 5
def write7 : List Nat := leBytes 8 0x1FFFFFFFF ++ [7]
def stormB : List Nat := [1, 0, 1, 0, 100] ++ leBytes 15 0
def sndB : List Nat := [0, 0, 0, 0] ++ leBytes 4 0x1000
def stopping : State := (svcQ.readCtx 1).setCtxState 1 3

theorem wit_OperationalCommandsAct :
    (svcM.Admits rq 2 .operational ∧ setIdle.length % 8 = 0 ∧ setIdle ≠ [] ∧ setIdle.length ≤ 1024) ∧
    (svcM.Admits rq 0x15 .operational ∧ 9 ≤ write7.length ∧ write7.length ≤ 1032 ∧ bodyN write7 0 8 < two40 ∧
      bodyN write7 0 8 + (write7.length - 8) ≤ svcM.capacity ∧ svcM.protOn = false ∧ svcM.isMem (bodyN write7 0 8) = true ∧
      svcM.isMem (bodyN write7 0 8 + (write7.length - 8) - 1) = true ∧ svcM.canWrite agentCc0 (bodyN write7 0 8) (write7.length - 8) = .ok ∧
      svcM.memsys.flips = []) ∧
    (svcQ.Admits rq 0x10 .operational ∧ bodyN [1, 0] 0 2 < 4096 ∧ svcQ.ctxKind (bodyN [1, 0] 0 2) = 1 ∧
      svcQ.books.any (fun k => k.1 = bodyN [1, 0] 0 2) = true ∧ svcQ.qState (bodyN [1, 0] 0 2) = 1 ∧
      sub32 (svcQ.qProd (bodyN [1, 0] 0 2)) (svcQ.qDone (bodyN [1, 0] 0 2)) ≠ svcQ.qSize (bodyN [1, 0] 0 2)) ∧
    (stopping.Admits rq 0x11 .operational ∧ bodyN [1, 0, 1] 0 2 < 4096 ∧ byteAt [1, 0, 1] 2 ≤ 1 ∧ stopping.ctxKind (bodyN [1, 0, 1] 0 2) = 1 ∧
      stopping.ctxState (bodyN [1, 0, 1] 0 2) = 3 ∧ byteAt [1, 0, 1] 2 = 1) ∧
    (svcQ.Admits rq 0x11 .operational ∧ svcQ.ctxKind (bodyN [1, 0, 0] 0 2) = 1 ∧ byteAt [1, 0, 0] 2 ≤ 1 ∧
      svcQ.ctxState (bodyN [1, 0, 0] 0 2) ≠ 3) ∧
    (svcQ.Admits rq 0x12 .operational ∧ bodyN [0xFF, 3] 0 2 < 1024 ∧ (svcQ.layoutSt (bodyN [0, 0] 0 2)).pend = none ∧ svcQ.flipsFresh < 64 ∧
      svcQ.layoutCheck (svcQ.layoutAddr (bodyN [0, 0] 0 2) (1 - (svcQ.layoutSt (bodyN [0, 0] 0 2)).copy)) = 0) ∧
    (svcM.Admits rq 0x13 .operational ∧ stormBad stormB = false ∧ (stormFields stormB).2.2.2.2 = 0 ∧ svcM.storms.length < 8 ∧
      svcM.storms.any (fun x => x.id = (stormFields stormB).1) = false ∧ svcM.tideNum + 3 + svcM.presentL ≤ (stormFields stormB).2.2.2.1) ∧
    (svcM.Admits rq 0x14 .operational ∧ sndB.length = 8 ∧ byteAt sndB 2 < 8 ∧ sndSource (bodyN sndB 0 2) = true ∧
      sndOk (bodyN sndB 0 2) (bits (bodyN sndB 4 4) 11 0) = true) := by
  unfold State.Admits
  refine ⟨?_, ?_, ?_, ?_, ?_, ?_, ?_, ?_⟩ <;> decide +kernel

theorem wit_OperationalCommandsAct_set : ∃ r k i, rowOf (bodyN setIdle 0 4) = some (r, k, i) ∧ r.acc = .rw ∧ r.half = .none ∧
    r.img = false ∧ bodyN setIdle 0 4 % 4 = 0 ∧ ([.mem, .watch, .net, .lt] : List Block).contains (blockOf (bodyN setIdle 0 4)) = true ∧
    svcM.absentPort (bodyN setIdle 0 4) = false ∧ svcM.opWrite agentCc0 (bodyN setIdle 0 4) (Nat.land (bodyN setIdle 4 4) r.mask) = none ∧
    svcM.badWrite (bodyN setIdle 0 4) (Nat.land (bodyN setIdle 4 4) r.mask) = false ∧ setIdle.length = 8 ∧
    svcM.bit Reg.HOST_MBX_STATUS 0 = false := by
  refine ⟨_, _, _, rfl, ?_⟩
  decide +kernel

/-- An open flash write of 8 bytes, 4 of them taken. -/
def fw : FlashWr := { slot := 0, length := 8, data := [1, 2, 3, 4] }
def img : BootImg := { version := 0, svn := 3, root := 0, sigOk := true, digest := 0, patches := [] }
def presF : State := { pres with boot := { pres.boot with flash := some fw, runImg := some img } }
def presS : State := pres.setUnit 3 { UnitSt.reset with eng := .spare }
def presW : State := { pres with watch := { pres.watch with safe := true } }
def presB : State := { pres with boot := { pres.boot with broken := true } }

theorem wit_AbandonedWorkIsDropped :
    (presF.boot.flash = some fw ∧ fw.slot < 2) ∧
    ({ pres with boot := { pres.boot with flash := some { fw with slot := 2 } } } : State).boot.flash = some { fw with slot := 2 } := by
  decide

/-- The open write complete; an Etvor write complete; slot A in use; a window program of four words in memory. -/
def presC : State := { presF with boot := { presF.boot with flash := some { fw with data := [1, 2, 3, 4, 5, 6, 7, 8] } } }
def etvHead : List Nat := leBytes 4 0x52565445 ++ leBytes 2 1 ++ leBytes 2 32 ++ leBytes 4 36 ++ List.replicate 20 0
def etvImg : List Nat := etvHead ++ leBytes 4 (crc32c etvHead)
def etvWr (d : List Nat) : FlashWr := { slot := 3, length := d.length, data := d }
def presE (d : List Nat) : State := { presF with boot := { presF.boot with flash := some (etvWr d) } }
def presR : State := { pres with boot := { pres.boot with runImg := some img } }
def uwords : List Nat := [0, 0, 0, 31 * 2 ^ 18]
def presU : State := lit 0x2000 (uwords.flatMap (leBytes 4)) { pres with memsys := svcM.memsys }
def openA : List Nat := [0, 0, 0, 0, 4, 0, 0, 0]
def ucw0 : List Nat := leBytes 16 0x60
def ucw4 : List Nat := [0x60, 0, 4, 0, 0, 0, 0, 0] ++ leBytes 8 0x2000

theorem wit_PresenceCommandsAct :
    (presB.Admits rq 0x28 .presence ∧ presB.boot.loopOpen = false ∧ presB.boot.broken = true) ∧
    (presF.Admits rq 0x23 .presence ∧ presF.boot.runImg = some img) ∧
    (presF.Admits rq 0x21 .presence ∧ presF.boot.flash = some fw ∧ 9 ≤ ([4, 0, 0, 0, 0, 0, 0, 0, 9, 9, 9, 9] : List Nat).length ∧
      bodyN [4, 0, 0, 0, 0, 0, 0, 0, 9, 9, 9, 9] 4 4 = 0 ∧ bodyN [4, 0, 0, 0, 0, 0, 0, 0, 9, 9, 9, 9] 0 4 = fw.data.length ∧
      fw.data.length + (12 - 8) ≤ fw.length ∧ 12 % 4 = 0) ∧
    (pres.Admits rq 0x20 .presence ∧ openA.length = 8 ∧ byteAt openA 0 ≤ 1 ∧ byteAt openA 1 ≤ 1 ∧ bodyN openA 2 2 = 0 ∧
      bodyN openA 4 4 % 4 = 0 ∧ (if byteAt openA 0 = 1 then 36 else 4) ≤ bodyN openA 4 4 ∧ bodyN openA 4 4 ≤ 16777216 ∧
      pres.boot.phase ≠ .recovery ∧ pres.boot.flash = none ∧ pres.slotInUse (byteAt openA 0) (byteAt openA 1) = false) ∧
    (presF.Admits rq 0x20 .presence ∧ presF.boot.flash ≠ none) ∧
    (presR.Admits rq 0x20 .presence ∧ presR.boot.flash = none ∧ presR.slotInUse (byteAt openA 0) (byteAt openA 1) = true) ∧
    (presC.Admits rq 0x22 .presence ∧ presC.boot.phase ≠ .recovery ∧ presC.boot.flash = some { fw with data := [1, 2, 3, 4, 5, 6, 7, 8] } ∧
      fw.length = 8 ∧ fw.slot < 2 ∧ presC.bootFlash = true) ∧
    (svc.bootCheck (some { img with sigOk := false }) false = 1 ∧ svc.ident.rootRevoked.testBit img.root = false ∧
      ¬img.svn < svc.ident.bootArc) ∧
    ((presE etvImg).Admits rq 0x22 .presence ∧ (presE etvImg).boot.flash = some (etvWr etvImg) ∧ 2 ≤ (etvWr etvImg).slot ∧
      (presE etvImg).etvorFlash = true ∧ etvorCheck (presE etvImg).fwVersion (some (etvWr etvImg).data) = 0) ∧
    ((presE etvHead).Admits rq 0x22 .presence ∧ (presE etvHead).boot.flash = some (etvWr etvHead) ∧
      etvorCheck (presE etvHead).fwVersion (some (etvWr etvHead).data) ≠ 0) ∧
    (pres.Admits rq 0x25 .presence ∧ ucw0.length = 16 ∧ bodyN ucw0 2 2 = 0 ∧ bodyN ucw0 4 4 = 0 ∧ bodyN ucw0 8 8 < two40 ∧
      unitKind (bodyN ucw0 0 2) = some .pilot) ∧
    (presU.Admits rq 0x25 .presence ∧ ucw4.length = 16 ∧ 4 ≤ bodyN ucw4 2 2 ∧ bodyN ucw4 2 2 ≤ 8192 ∧ bodyN ucw4 4 4 = 0 ∧
      bodyN ucw4 8 8 < two40 ∧ unitKind (bodyN ucw4 0 2) = some .pilot ∧ presU.windowProg (bodyN ucw4 2 2) (bodyN ucw4 8 8) = some uwords ∧
      uwords.all (windowWord (bodyN ucw4 2 2)) = true) ∧
    (presS.Admits rq 0x27 .presence ∧ bodyN [3, 0, 0, 0] 2 2 = 0 ∧ unitKind (bodyN [3, 0, 0, 0] 0 2) = some .gantry ∧
      Kind.spareOk .gantry = true ∧ presS.eng (bodyN [3, 0, 0, 0] 0 2) = .spare ∧ pres.eng (bodyN [3, 0, 0, 0] 0 2) ≠ .spare) ∧
    pres.Admits rq 0x24 .presence ∧
    (presW.Admits rq 0x26 .presence ∧ presW.watch.safe = true) := by
  unfold State.Admits
  refine ⟨?_, ?_, ?_, ?_, ?_, ?_, ?_, ?_, ?_, ?_, ?_, ?_, ?_, ?_, ?_⟩ <;> decide +kernel

def unarmed : State := { svc with boot := { svc.boot with arm := false } }

theorem wit_MissingAuthorityIsRefused : svc.rmpReach rq = true ∧ (rq.via = .service ∨ rq.via = .mailbox) ∧ svc.boot.phase ≠ .recovery ∧
    SMap.get (fun _ => []) svc.rmpKept (reqKey rq) = [] ∧ svc.watch.safe = false ∧ svc.boot.arm = true ∧ svc.present = false ∧
    (presW.rmpReach rq = true ∧ presW.boot.phase ≠ .recovery ∧ SMap.get (fun _ => []) presW.rmpKept (reqKey rq) = [] ∧
      presW.boot.arm = true ∧ presW.watch.safe = true) ∧
    (unarmed.rmpReach rq = true ∧ unarmed.boot.phase ≠ .recovery ∧ SMap.get (fun _ => []) unarmed.rmpKept (reqKey rq) = [] ∧
      unarmed.watch.safe = false ∧ unarmed.boot.arm = false) := by decide +kernel

/-- The repeat interval over; a window invocation late. -/
def runR : State := runC.wr64 Reg.TIDE_NUM_W0 1
def runW : State :=
  ({ runC with windows := [(0x60, [(2, 0, 0)])] } : State).setUnit 0x60 { UnitSt.reset with micro := { Micro.reset with window := some 2 } }

theorem wit_StoppedJobsEndAndWindowsAreControlled :
    ((busy 0 { mkJob 0x0102 1 0 with stopWith := some 0x31 } runC).jobAt 0 0x0102 = some { mkJob 0x0102 1 0 with stopWith := some 0x31 }) ∧
    ((busy 0 { mkJob 0x0102 1 0 with flags := 1 } runC).jobAt 0 0x0102 = some { mkJob 0x0102 1 0 with flags := 1 } ∧
      (busy 0 { mkJob 0x0102 1 0 with flags := 1 } runC).jobRefused { mkJob 0x0102 1 0 with flags := 1 } true = some 0x20) ∧
    ((busy 0 (mkJob 0x0102 1 0x7000000000) runC).jobAt 0 0x0102 = some (mkJob 0x0102 1 0x7000000000) ∧
      (busy 0 (mkJob 0x0102 1 0x7000000000) runC).jobRefused (mkJob 0x0102 1 0x7000000000) true = some 0x21 ∧
      (mkJob 0x0102 1 0x7000000000).badUnnamed = false ∧ (mkJob 0x0102 1 0x7000000000).badSlots = false) ∧
    ((busy 0 { mkJob 0x0201 2 0 with stopWith := some 0x31 } runC).jobAt 0 0x0201 = some { mkJob 0x0201 2 0 with stopWith := some 0x31 }) ∧
    ((busy 0xE0 { mkJob 0x0401 2 0 with stopWith := some 0x31 } runC).jobAt 0xE0 0x0401
      = some { mkJob 0x0401 2 0 with stopWith := some 0x31 }) ∧
    (runR.ctxKind 1 = 1 ∧ runR.ctxState 1 = 1 ∧ (runR.dec 1).points = [] ∧ (runR.dec 1).sweepBegun = none ∧
      (runR.dec 1).asked + max 1 (runR.sf 1 26 1) ≤ runR.tideNum) ∧
    (runW.winq 0x60 = [(2, 0, 0)] ∧ (runW.unit 0x60).micro.window.isSome = true) ∧
    (runC.armBlocks 0 (ucb 0x60 Reg.PL_UCW_REARM) = false ∧ (2 ^ 31).testBit 31 = true) := by
  decide +kernel

/-! ### Witnesses: the tide clock -/

/-- SERVO_MAN set; a step pending; HOLD set. -/
def tMan : State := svc.setBit Reg.TIDE_CTRL 4
def tStep : State := svc.setBit Reg.TIDE_STATUS 9
def tHold : State := svc.setBit Reg.GLOBAL_STAGE_CTRL 0

theorem wit_RateChangesAndRebasesKeepTime : tMan.armBlocks 0 Reg.TIDE_RATE_FRAC_HI = false ∧ tMan.bit Reg.TIDE_CTRL 4 = true := by decide +kernel

theorem wit_CaptureRecordsOneInstant : svc.armBlocks 0 Reg.TIDE_CAPTURE = false ∧ Nat.testBit 1 0 = true := by decide +kernel

theorem wit_TideStartActsAtItsInstant : State.reset.boot.phase ≠ .service ∧ (svc.boot.phase = .service ∧ svc.bit Reg.TIDE_STATUS 9 = false) ∧
    (tStep.boot.phase = .service ∧ tStep.bit Reg.TIDE_STATUS 9 = true) ∧ tHold.bit Reg.GLOBAL_STAGE_CTRL 0 = true := by decide +kernel

/-- TIDE_OUT and PPS_OUT high, PPS enabled, servo HOLDING. -/
def tOut : State := (({ svc with tide := { svc.tide with tideOut := true, ppsOut := true } } : State).setBit Reg.TIDE_OUT_CFG 17).setServo 3

theorem wit_TimingOutputsFollowTheClock : tOut.tide.tideOut = true ∧ (tOut.bit Reg.TIDE_OUT_CFG 17 = true ∧ tOut.servo ≠ 0) ∧
    (svc.bit Reg.TIDE_OUT_CFG 17 = false ∨ svc.servo = 0) ∧ tOut.tide.ppsOut = true := by decide +kernel

/-- PTP on port 8, a master selected; the same as grandmaster; source PPS_IN; source 2. -/
def tPtp : State := ({ svc with tide := { svc.tide with master := some 4 } } : State).setBit Reg.TIDE_PTP_CFG 20
def tGm : State := tPtp.setBit Reg.TIDE_STATUS 10
def tPps : State := svc.wrFld Reg.TIDE_CTRL 1 0 1
/-- A master heard; the peer-to-peer profile; a module that may be master. -/
def tHeard : State := { tPtp with tide := { tPtp.tide with masterUp := true } }
def tP2p : State := tPtp.wrFld Reg.TIDE_PTP_CFG 9 8 1
def tMay : State := (tPps.setBit Reg.TIDE_CTRL 5).clrBit Reg.TIDE_PTP_CFG 10

theorem wit_PtpAndServoFollowTheSource :
    (tHeard.ptpOn 8 = true ∧ tHeard.tideSource = 0 ∧ tHeard.tide.masterUp = true) ∧
    (tPtp.ptpOn 8 = true ∧ tPtp.tide.master = some 4 ∧ 4 ≠ 9) ∧
    (tPtp.mayMaster = false ∧ tPtp.tideSource = 0 ∧ tPtp.servoMan = false ∧ tPtp.servoOff = false) ∧ tMay.mayMaster = true ∧
    (tPps.tideSource = 1 ∧ tPps.servoMan = false ∧ tPps.servoOff = false) ∧
    (svc.tideSource ≠ 1 ∧ svc.boot.phase ≠ .waitPtp) ∧
    (tGm.ptpOn 8 = true ∧ tGm.bit Reg.TIDE_STATUS 10 = true ∧ tGm.fld Reg.TIDE_PTP_CFG 9 8 ≠ 1) ∧
    (tP2p.ptpOn 8 = true ∧ tP2p.fld Reg.TIDE_PTP_CFG 9 8 = 1) := by decide +kernel

/-- A refused jump of c ns, in HOLDOVER. -/
def tJump (c : Int) : State := (({ svc with tide := { svc.tide with corr := c } } : State).setBit Reg.TIDE_STATUS 4).setServo 4

theorem wit_CorrectionsAreAccepted :
    (svc.armBlocks 0 Reg.TIDE_STEP_ACCEPT = false ∧ svc.armBlocks 0 Reg.TIDE_ADJ_W1 = false) ∧
    ((tJump (16 * svc.pb : Nat)).armBlocks 0 Reg.TIDE_STEP_ACCEPT = false ∧ (tJump (16 * svc.pb : Nat)).bit Reg.TIDE_STATUS 4 = true ∧
      (tJump (16 * svc.pb : Nat)).tide.corr ≤ (16 * (tJump (16 * svc.pb : Nat)).pb : Nat)) ∧
    ((tJump (16 * svc.pb + 1 : Nat)).bit Reg.TIDE_STATUS 4 = true ∧
      ((16 * (tJump (16 * svc.pb + 1 : Nat)).pb : Nat) : Int) < (tJump (16 * svc.pb + 1 : Nat)).tide.corr) ∧
    svc.bit Reg.TIDE_STATUS 4 = false ∧
    ((tJump (-5)).slewRefused (tJump (-5)).tide.corr = false ∧ (tJump (-5)).servo = 4 ∧ (tJump (-5)).tide.corr < 0) ∧
    ((tJump 5).slewRefused (tJump 5).tide.corr = false ∧ (tJump 5).servo = 4 ∧ 0 < (tJump 5).tide.corr) ∧
    tMan.servoMan = true ∧ (svc.servoMan = false ∧ svc.tideSource ≠ 1) ∧
    ((tPps.setServo 2).armBlocks 0 Reg.TIDE_ADJ_W1 = false ∧ (tPps.setServo 2).servoMan = false ∧ (tPps.setServo 2).tideSource = 1 ∧
      (tPps.setServo 2).servo ≠ 0) := by decide +kernel

theorem wit_HoldoverExpiryAndReferenceLoss :
    ((svc.setServo 4).servo = 4 ∧ (svc.setServo 4).bit Reg.TIDE_STATUS 5 = false) ∧
    ((svc.setBit Reg.TIDE_CTRL 2).bit Reg.TIDE_CTRL 2 = true ∧ (svc.setBit Reg.TIDE_CTRL 2).bit Reg.TIDE_STATUS 6 = false) ∧
    (((svc.setBit Reg.TIDE_CTRL 2).setBit Reg.TIDE_STATUS 6).bit Reg.TIDE_CTRL 2 = true ∧
      ((svc.setBit Reg.TIDE_CTRL 2).setBit Reg.TIDE_STATUS 6).bit Reg.TIDE_STATUS 6 = true) := by decide +kernel

/-! ### Witnesses: composition and display -/

/-- Outputs 7: enabled with a composition ready, enabled with none, in the slate. -/
def dOn : State := (svc.setBit (dreg Reg.DISP_OUT_CTRL 7) 0).setDisp 7 { DispSt.reset with lays := [(0, 1023)] }
def dReady : State := dOn.setDisp 7 { dOn.disp 7 with ready := [(0, 0x4000)], hpd := true, aux := 2 }
def dSlate : State := dOn.setDisp 7 { dOn.disp 7 with slate := true, aux := 3 }

/-- A lane composing for the display output of layout 0; for a context whose output has no layout. -/
def composing : State := busy 0x70 (mkJob 0x0301 4096 0x100000) svcQ
def noLayout : State := busy 0x70 (mkJob 0x0301 2 0) (runC.setSf 2 24 2 0xFFFF)

theorem wit_ComposeAndFlip :
    (composing.JobReady 0x70 0x0301 false (mkJob 0x0301 4096 0x100000) ∧ 4096 ≤ (mkJob 0x0301 4096 0x100000).ctx ∧
      composing.composeLayout 4096 ≤ 1023 ∧ (mkJob 0x0301 4096 0x100000).s0 ≠ 0) ∧
    (noLayout.JobReady 0x70 0x0301 false (mkJob 0x0301 2 0) ∧ noLayout.ctxState 2 ≠ 0 ∧ 1023 < noLayout.composeLayout 2) ∧
    (svcQ.armBlocks 0 Reg.CMP_LAYOUT_FLIP = false ∧ (svcQ.layoutSt (bits 0 9 0)).pend = none ∧ svcQ.flipsFresh < 64 ∧
      svcQ.layoutCheck (svcQ.layoutAddr (bits 0 9 0) (1 - (svcQ.layoutSt (bits 0 9 0)).copy)) = 0) ∧
    ((svcQ.setLayout 1023 { LayoutSt.reset with pend := some 3 }).layoutSt (bits 1023 9 0)).pend.isSome = true := by
  unfold State.JobReady
  decide +kernel

theorem wit_DisplayFollowsTheSinkAndTheTide :
    (7 < 8 ∧ (dOn.disp 7).hpd = false) ∧ ((dReady.disp 7).hpd = true ∧ (dReady.disp 7).up = false ∧ (dReady.disp 7).aux < 3) ∧
    3 ≤ (dSlate.disp 7).aux ∧
    (dSlate.bit (dreg Reg.DISP_OUT_CTRL 7) 0 = true ∧ (dSlate.disp 7).slate = true) ∧
    (dReady.bit (dreg Reg.DISP_OUT_CTRL 7) 0 = true ∧ (dReady.disp 7).slate = false ∧ dReady.tideNum % dReady.dispDiv 7 = 0 ∧
      dReady.dispLayout 7 dReady.tideNum ≤ 1023 ∧ (dReady.disp 7).ready.find? (fun p => p.1 = dReady.tideNum) = some (0, 0x4000)) ∧
    (dOn.bit (dreg Reg.DISP_OUT_CTRL 7) 0 = true ∧ (dOn.disp 7).slate = false ∧ dOn.tideNum % dOn.dispDiv 7 = 0 ∧
      dOn.dispLayout 7 dOn.tideNum ≤ 1023 ∧ (dOn.disp 7).ready.find? (fun p => p.1 = dOn.tideNum) = none) := by decide +kernel

/-! ### Witnesses: the network and the feeder ports -/

/-- Lanes 0 to 7 in service as single ports and the management port, all enabled and up. -/
def nUp : State :=
  (List.range 9).foldl (fun s k => (s.wr (nreg Reg.NET_PORT_STATUS k) 1).setBit (nreg Reg.NET_PORT_CTRL k) 0) (svcM.wr Reg.NET_CFG 0x1A)
def datagram (fcsOk : Bool) : Datagram :=
  { port := 8, proto := 0, vlan := none, ipv6 := false, dst := 0, src := 0, dstUdp := 5004, srcUdp := 0, fragment := false, frame := 9022,
    len := 9000, fcsOk, fecCorr := 0, fecBad := 0, seq := 0, ts := 0, marker := true, elems := [], data := [] }
/-- Classifier 65,535 takes HEVC in RTP on the management port, without policing. -/
def nClass : State :=
  lit (0x300000 + 64 * 65535) ([1, 1, 0, 1, 0, 0, 0x8C, 0x13, 0, 0, 0, 0, 1, 0, 0xFF, 0xFF] ++ List.replicate 44 0 ++ [1, 0, 0, 0])
    (nUp.wr40 Reg.NET_CLASS_BASE_LO 0x300000)
/-- A refresh request to context 2 of this node. -/
def feedback : List Nat := [0x81, 204, 0, 6, 0, 0, 0, 0, 0x54, 0x4E, 0x46, 0x42, 0, 0, 0, 2, 0, 0, 0, 0, 0, 0, 0, 0, 0, 0, 0, 0]

def nNode : State := runC.wr Reg.NET_NODE 0
/-- A booked encode context on a flow that protects port 8, whose link is down; the report of its loss standing. -/
def nDown : State :=
  lit 0x300000 [1, 1, 0, 1, 0, 0, 0x8C, 0x13, 0, 0, 0, 0, 1, 0, 1, 0] ((svcM.wr Reg.NET_CFG 0x1A).wr40 Reg.NET_CLASS_BASE_LO 0x300000)

theorem wit_NetworkReceives :
    (nUp.portExists 8 = true ∧ nUp.bit (nreg Reg.NET_PORT_STATUS 8) 0 = true) ∧
    ((nUp.clrBit (nreg Reg.NET_PORT_STATUS 8) 0).portExists 8 = true ∧ (nUp.clrBit (nreg Reg.NET_PORT_STATUS 8) 0).outputsOn = true ∧
      (nUp.clrBit (nreg Reg.NET_PORT_STATUS 8) 0).bit (nreg Reg.NET_PORT_CTRL 8) 0 = true ∧
      (nUp.clrBit (nreg Reg.NET_PORT_STATUS 8) 0).bit (nreg Reg.NET_PORT_STATUS 8) 0 = false) ∧
    (nUp.portUp (datagram false).port = true ∧ (datagram false).fcsOk = false) ∧
    (nUp.portUp (datagram true).port = true ∧ (datagram true).frame ≤ 9022 ∧ (datagram true).proto = 0 ∧
      nUp.classify (datagram true) = none) ∧
    (nClass.portUp (datagram true).port = true ∧ nClass.classify (datagram true) = some 65535 ∧
      (nClass.policeAt 65535 (datagram true).len).1 = true ∧ (nClass.policeAt 65535 (datagram true).len).2.cf 65535 1 1 = 1) ∧
    ((nUp.wr (nreg Reg.NET_PORT_IP4 8) 1).portUp 8 = true ∧ 7 ≤ nUp.bootStep ∧ nUp.watch.pairsFenced.length < 2 ∧
      (nUp.wr (nreg Reg.NET_PORT_IP4 8) 1).rd (nreg Reg.NET_PORT_IP4 8) ≠ 0) ∧
    (65535 < 65536 ∧ nClass.classOn 65535 = true ∧ nClass.cf 65535 1 1 = 1) ∧
    (feedback.length = 28 ∧ beN feedback 0 1 = 0x81 ∧ beN feedback 1 1 = 204 ∧ beN feedback 2 2 = 6 ∧ beN feedback 8 4 = 0x544E4642 ∧
      beN feedback 12 2 = nNode.fld Reg.NET_NODE 15 0 ∧ beN feedback 14 2 < 4096 ∧ nNode.ctxKind (beN feedback 14 2) = 2 ∧
      nNode.ctxState (beN feedback 14 2) = 2 ∧ nNode.ctrlBit (beN feedback 14 2) 0 = true) := by decide +kernel

/-- An engine at a picture of one NAL unit; the only unit at work; the gate of its queue closed. -/
def transmitting : State :=
  lit (0x100000 + 16) [8, 0, 0, 0] (lit (0x100000 + 64) [0, 0, 0, 1, 9, 9, 9, 9] (busy 0xE7 (mkJob 0x0401 2 0x100000) runC))
def oneSends : State := { svc with units := [(0xE7, { UnitSt.reset with eng := .running, job := some (mkJob 0x0401 2 0x100000) })] }
def shut : State := lit 142 [0x80] (transmitting.wr Reg.HM_GATE_CTRL 0)

theorem wit_TransmitAndPathLoss :
    (transmitting.JobReady 0xE7 0x0401 false (mkJob 0x0401 2 0x100000) ∧ (mkJob 0x0401 2 0x100000).s0 ≠ 0 ∧
      (transmitting.txPlan (mkJob 0x0401 2 0x100000) [1, 2]).any (fun p => p.2.isNone) = false) ∧
    (shut.JobReady 0xE7 0x0401 false (mkJob 0x0401 2 0x100000) ∧
      (shut.txPlan (mkJob 0x0401 2 0x100000) [1, 2]).any (fun p => p.2.isNone) = true) ∧
    (unitKind 0xE7 = some .egress ∧ transmitting.jobAt 0xE7 0x0401 = some (mkJob 0x0401 2 0x100000)) ∧
    (∀ u, u ≠ 0xE7 → oneSends.jobAt u 0x0401 = none) ∧
    (∀ u, svc.jobAt u 0x0401 = none) ∧
    (nDown.portExists 8 = true ∧ nDown.bit (nreg Reg.NET_PORT_STATUS 8) 0 = false ∧ nDown.portProtected 8 = true ∧
      nDown.pathLost.contains 8 = false) ∧
    (({ nUp with pathLost := [8] } : State).bit (nreg Reg.NET_PORT_STATUS 8) 0 = true ∧ ({ nUp with pathLost := [8] } : State).pathLost = [8]) := by
  unfold State.JobReady
  exact ⟨by decide +kernel, by decide +kernel, by decide +kernel, fun u h => by
    unfold State.jobAt State.unit oneSends SMap.get
    rw [if_neg (Ne.symm h)]
    rfl, fun _ => rfl,
    by decide +kernel, by decide +kernel⟩

/-- A transport packet; feeder port 1 enabled, locked; with packets waiting, 255 of them, and in host mode. -/
def tsp : List Nat := [0x47, 0x1F, 0xFF, 0x10] ++ List.replicate 184 0
def fOn : State := ((svc.setBit (freg Reg.FEED_CTRL 1) 0).setBit (freg Reg.FEED_STATUS 1) 0).setFeed 1 { FeedSt.reset with fifo := List.replicate 255 (0, tsp) }
def fHost (w : Nat) : State := (svc.setBit (freg Reg.FEED_CTRL 1) 1).setFeed 1 { FeedSt.reset with fifo := [(0, tsp)], word := w }
def fRead : State := svc.setFeed 1 { FeedSt.reset with fifo := [(0, tsp)] }

theorem wit_FeederPortsReceive :
    (1 < 2 ∧ fOn.bit (freg Reg.FEED_CTRL 1) 0 = true ∧ fOn.bit (freg Reg.FEED_CTRL 1) 3 = false ∧ fOn.bit (freg Reg.FEED_STATUS 1) 0 = true ∧
      (fOn.feed 1).fifo.length < 256 ∧ tsp.length = 188 ∧ tsp.head? = some 0x47) ∧
    ((fHost 46).bit (freg Reg.FEED_CTRL 1) 1 = true ∧ ((fHost 46).feed 1).fifo = (0, tsp) :: [] ∧ 46 ≤ ((fHost 46).feed 1).word) ∧
    ((fHost 45).bit (freg Reg.FEED_CTRL 1) 1 = true ∧ ((fHost 45).feed 1).fifo = (0, tsp) :: []) ∧
    (fRead.bit (freg Reg.FEED_CTRL 1) 1 = false ∧ (fRead.feed 1).fifo = (0, tsp) :: [] ∧ needsBuffer tsp = false ∧ fRead.feedFilters 1 tsp = []) ∧
    (fOn.bit (freg Reg.FEED_CTRL 1) 0 = true ∧ fOn.bit (freg Reg.FEED_STATUS 1) 2 = false) ∧
    ((svc.feed 1).driverOff = none ∧ 2047 < 2048) := by decide +kernel

/-! ### Witnesses: queues, bookings, gates, unit control -/

/-- Queue 4128 with a sound context, stopped; HM_QC_SEL names it and HM_QC_DATA holds the same context; running with a job posted. -/
def qBytes (st : Nat) : List Nat :=
  leBytes 5 0x10000 ++ [0, 0, 0, 0, 4, 0, 1, 0, 0, 0, st, 1, 0, 0, 0, 1, 0, 0, 0] ++ List.replicate 40 0
def qSel : State := ((svcM.wr Reg.HM_QC_SEL 4128).wr (Reg.HM_QC_DATA) 0x10000).wr (Reg.HM_QC_DATA + 8) 0x01000400
def qOff : State := lit (64 * 4128) (qBytes 0) ((qSel.wr (Reg.HM_QC_DATA + 16) 1))
def qOn : State := lit 0x10000 ([1, 1] ++ List.replicate 12 0 ++ [9, 0]) (lit (64 * 4128) (qBytes 1) qSel)

/-- The same in service 60 s and 100 tides later. -/
def qLate : State := ((qOn.passToNs 60000000000).setBit Reg.TIDE_STATUS 3).wr64 Reg.TIDE_NUM_W0 100

theorem wit_QueueCommandsAct :
    (4128 < 1048576 ∧ 2 < two32 ∧ qOn.armBlocks 0 0x100100 = false ∧ qOn.qState 4128 = 1 ∧ ¬(4104 ≤ 4128 ∧ 4128 < 4128) ∧
      qOn.qFlag 4128 1 = false ∧ qOn.qClass 4128 ≠ 3 ∧ sub32 2 (qOn.qProd 4128) ≤ 2 ^ 31 ∧ sub32 2 (qOn.qDone 4128) ≤ qOn.qSize 4128) ∧
    (qOff.qState 4128 ≠ 1 ∧ qOff.armBlocks 0 0x100100 = false) ∧
    (qOff.armBlocks 0 Reg.HM_QC_CMD = false ∧ qOff.fld Reg.HM_QC_SEL 19 0 = 4128) ∧
    (qcBad qSel.qcN = true ∧ qSel.fld Reg.HM_QC_SEL 19 0 = 4128) ∧
    (qcBad (qOff.wr Reg.HM_QC_SEL 4127).qcN = false ∧ 4104 ≤ 4127 ∧ 4127 < 4128 ∧ (qOff.wr Reg.HM_QC_SEL 4127).fld Reg.HM_QC_SEL 19 0 = 4127) ∧
    (qcBad qOff.qcN = false ∧ qOff.qIdle 4128 = true ∧ (qOff.qcByte 10).testBit 2 = false) ∧
    (qcBad (qSel.qf 4128) = true) ∧ (qcBad (qOff.qf 4128) = false ∧ qOff.qRate 4128 = 0) ∧
    (qOn.fld Reg.HM_QC_SEL 19 0 = 4128 ∧ qOn.qState 4128 = 1) ∧
    (qOff.queue 4128).cached = false ∧ ((qOff.setQueue 4128 { QueueSt.reset with cached := true }).queue 4128).cached = true ∧
    (qOn.qState 4128 = 1 ∧ sub32 0 (qOn.qDisp 4128) < sub32 (qOn.qProd 4128) (qOn.qDisp 4128) ∧
      (qOn.readJob 4128 0 (qOn.qSlot 4128 0)).deadline ≠ 0 ∧ (qOn.queue 4128).completed.contains 0 = false ∧
      qOn.canRead (qOn.qSlot 4128 0) 64 ≠ .busError ∧ qOn.badCompletion (qOn.readJob 4128 0 (qOn.qSlot 4128 0)).completion = false) ∧
    (qLate.qState 4128 = 1 ∧ sub32 0 (qLate.qDisp 4128) < sub32 (qLate.qProd 4128) (qLate.qDisp 4128) ∧
      qLate.pastDeadline (qLate.readJob 4128 0 (qLate.qSlot 4128 0)) = true) := by
  decide +kernel

/-- Context 1 booked; gate list 15 with a pending copy, operational with two entries. -/
def booked : State := { svcC with books := [(1, { Booking.reset with divisor := 1 })] }
def gPend : State := svc.setGate 15 { GateSt.reset with pend := true, nextEntries := [(1, 5)] }
def gOper : State := svc.setGate 15 { GateSt.reset with oper := true, entries := [(1, 5), (2, 5)] }

theorem wit_BookingCommandsAndGates :
    (4095 < 4096 ∧ svcC.armBlocks 0 Reg.HM_BOOK_CMD = false) ∧
    (booked.books.any (fun k => k.1 = 1) = true ∧ booked.ctxState 1 = 0 ∧ SMap.wf (fun _ => Booking.reset) booked.books = true) ∧
    runC.ctxState 2 ≠ 0 ∧ 7 < 8 ∧
    (svc.armBlocks 0 (Reg.HM_GATE_SWAP + 0x40 * 15) = false ∧ svc.swapRefused 15 = false) ∧ gPend.swapRefused 15 = true ∧
    (gPend.gate 15).pend = true ∧ (gOper.gate 15).oper = true := by decide +kernel

/-- A gantry in each engine state. -/
def eng (e : Eng) : State := svc.setUnit 0x2F { UnitSt.reset with eng := e }

theorem wit_UnitControlMovesTheEngine :
    (svc.armBlocks 0 (ucb 0x2F Reg.UCB_CTRL) = false ∧ unitKind 0x2F = some .gantry ∧ svc.bit (ucb 0x2F Reg.UCB_CTRL) 2 = false) ∧
    (eng .stopped).eng 0x2F = .stopped ∧ (eng .fenced).eng 0x2F = .fenced ∧
    ((eng .idle).eng 0x2F = .idle ∧ ((eng .idle).unit 0x2F).reEnable = false) ∧ (eng .running).eng 0x2F = .running ∧
    (((eng .running).setBit (ucb 0x2F Reg.UCB_CTRL) 0).eng 0x2F = .running ∧ ((eng .running).setBit (ucb 0x2F Reg.UCB_CTRL) 0).bit (ucb 0x2F Reg.UCB_CTRL) 0 = true) ∧
    ((eng .quiescing).eng 0x2F = .quiescing ∧ (eng .quiescing).bit (ucb 0x2F Reg.UCB_CTRL) 0 = false) ∧
    Kind.spareOk .gantry = true ∧
    (({ eng .spare with boot := pres.boot } : State).eng 0x2F = .spare ∧ ({ eng .spare with boot := pres.boot } : State).boot.arm = true ∧
      ({ eng .spare with boot := pres.boot } : State).present = true) ∧
    ((eng .spare).boot.arm && (eng .spare).present) = false ∧
    (unitKind 0xFFF = some .group ∧ svc.groupOn 0xFFF = false ∧ bits 2 8 0 ≠ 0 ∧ bits 512 8 0 = 0 ∧
      svc.armBlocks 0 (ucb 0xFFF Reg.UCB_GRP_CTRL) = false) ∧
    (svc.setUnit 0xFFF { UnitSt.reset with eng := .idle }).groupOn 0xFFF = true ∧
    (wmDepth Reg.FEED_FIFO_WM = some 256 ∧ svc.armBlocks 0 Reg.FEED_FIFO_WM = false ∧
      wmRefused (256 % two32) 256 = false ∧ wmRefused (257 % two32) 256 = true ∧ wmRefused (0x00100010 % two32) 256 = true) := by decide +kernel

/-! ### Witnesses: power and memory -/

/-- Input A in a state; input B tripped. -/
def pIn (x : InState) : State := { svc with power := { svc.power with inA := { mv := 0, st := x, single := false } } }

theorem wit_PowerInputsFollowTheirVoltage :
    ((pIn .ok).input false).st ≠ .tripped ∧ ((pIn .tripped).input false).st = .tripped ∧ ((pIn .ok).input false).st = .ok ∧
    ((35000 : Int) ≤ 35000 ∧ (79999 : Int) < 80000) ∧ (pIn .tripped).boot.phase ≠ .unpowered ∧
    (dark.boot.phase = .unpowered ∧ inputAt (dark.input false).st 48000 = .ok) ∧
    (((pIn .under).setBit Reg.PWR_IN_CTRL 0).expected false = true ∧ (((pIn .under).setBit Reg.PWR_IN_CTRL 0).input false).st ≠ .ok ∧
      (((pIn .under).setBit Reg.PWR_IN_CTRL 0).input false).single = false) := by decide +kernel

/-- R415's thresholds at their bounds. -/
theorem test_input_thresholds :
    inputAt .ok (-1001) = .reversed ∧ inputAt .ok (-1000) = .absent ∧ inputAt .ok 17999 = .absent ∧ inputAt .ok 18000 = .under ∧
    inputAt .ok 32999 = .under ∧ inputAt .ok 33000 = .ok ∧ inputAt .under 33000 = .under ∧ inputAt .under 34999 = .under ∧
    inputAt .under 35000 = .ok ∧ inputAt .ok 77999 = .ok ∧ inputAt .high 77999 = .ok ∧ inputAt .high 78000 = .high ∧
    inputAt .ok 79999 = .ok ∧ inputAt .ok 80000 = .high := by decide

/-- The governor running at g 7, with nothing in the bucket; the lowest gantry idle; booked for every tide. -/
def gov7 : State :=
  (((svc.setBit Reg.TIDE_STATUS 3).setBit Reg.PWR_GOV_CTRL 0).wrFld Reg.PWR_GOV_STATUS 2 0 7)
def govLow : State := { gov7 with power := { gov7.power with bucket := -1 } }
def gIdle : State := svc.setUnit 0 { UnitSt.reset with eng := .idle, pow := .on }
def gBook : State :=
  { svc.setUnit 0 { UnitSt.reset with eng := .idle, berth := .bound, ctxs := [1] } with
    books := [(1, { Booking.reset with charges := [(0, 5, 0x0102)], divisor := 1 })] }

theorem wit_PowerSamplesAndGates :
    ((114 : Int) < 115 ∧ svc.power.tb ≤ svc.gradeLimit) ∧
    (svc.running = false ∨ svc.bit Reg.PWR_GOV_CTRL 0 = false ∨ svc.power.above = true) ∧
    (govLow.running = true ∧ govLow.bit Reg.PWR_GOV_CTRL 0 = true ∧ govLow.power.above = false ∧
      (govLow.gCalc govLow.toDispatch).getD 0 < govLow.gov) ∧
    105 * (svc.ceilEff * 1000) < 100 * (1050 * svc.ceilEff + 1) ∧ 1000 * svc.ceilEff ≤ svc.ceilEff * 1000 ∧
    (svc.armBlocks 0 Reg.PWR_COEF_RESET = false ∧ Nat.testBit 1 0 = true) ∧
    (isLeaf 0 = true ∧ (gIdle.unit 0).eng = .idle ∧ (gIdle.unit 0).job = none ∧ (gIdle.unit (gIdle.berthRoot 0)).job = none ∧
      (gIdle.unit 0).pow = .on ∧ gIdle.forceOn 0 = false) ∧
    (gIdle.watch.safe = false ∧ gIdle.mustGate 0 = false ∧ (gIdle.unit 0).eng ≠ .fenced) ∧
    (gBook.watch.safe = false ∧ gBook.mustGate 0 = false ∧ (gBook.unit 0).eng ≠ .fenced ∧ deepKind 0 = true ∧
      (gBook.unit 0).pow = .powerGated ∧ gBook.bookedWork (gBook.berthRoot 0) (gBook.tideNum + 1) = true) ∧
    (47 < 48 ∧ 63 < (((svc.wrFld (spadCtrl 47) 22 16 64).setBankSt 47 63 2).fld (spadCtrl 47) 22 16) ∧
      ((svc.wrFld (spadCtrl 47) 22 16 64).setBankSt 47 63 2).bankSt 47 63 = 2 ∧
      ((svc.wrFld (spadCtrl 47) 22 16 64).setBankSt 47 63 2).bit (spadCtrl 47) 8 = false) := by decide +kernel

/-- Ports 0 active, 16 in dry dock or active; a migration from 0 to 16 in a phase. -/
def mPort (x : PortSt) : State := ({ svcM with ports := [(0, { PortSt.reset with role := .active })] } : State).setPort 16 x
def mMig (phase : Nat) : State :=
  { mPort { PortSt.reset with role := .drydock } with memsys := { svcM.memsys with phase, src := 0, dst := 16, logical := 0 } }

def patrol : State := (svcM.wr Reg.MEM_SCRUB_CFG 1).setBit Reg.MEM_PROT_SIZE 8

theorem wit_MemoryKeepsItsDataAndRotates :
    (16 < 17 ∧ 1 < 2 ∧ 15 < 16 ∧ ((mPort { PortSt.reset with role := .active }).port 16).role = .active ∧
      ((mPort { PortSt.reset with role := .active }).port 16).selfRefresh = false ∧
      ∀ i, i < 16 → (mPort { PortSt.reset with role := .active }).debt 16 (1 * 16 + i) < 5) ∧
    (svcM.wr Reg.MEM_SR_IDLE 1).rd Reg.MEM_SR_IDLE ≠ 0 ∧
    (svcM.target 0 = .gddr ∧ svcM.memsys.phase = 0 ∧ 0 < 3 ∧ 3 ≤ (svcM.wrFld Reg.MEM_EDC_CFG 2 0 3).fld Reg.MEM_EDC_CFG 2 0) ∧
    (((mPort PortSt.reset).wrFld Reg.MEM_EDC_CFG 31 16 4).fld Reg.MEM_EDC_CFG 31 16 ≠ 0 ∧
      ((mPort PortSt.reset).wrFld Reg.MEM_EDC_CFG 31 16 4).fld Reg.MEM_EDC_CFG 31 16 < 5 ∧
      (((mPort PortSt.reset).wrFld Reg.MEM_EDC_CFG 31 16 4).port 0).role = .active ∧
      (((mPort PortSt.reset).wrFld Reg.MEM_EDC_CFG 31 16 4).port 0).fenceAfter = false) ∧
    0 ≤ svcM.fld Reg.MEM_EDC_CFG 31 16 ∧
    ((patrol.upset [(0x10, 3)]).rd Reg.MEM_SCRUB_CFG ≠ 0 ∧ (patrol.upset [(0x10, 3)]).protOn = true) ∧
    (svcM.port 16).calibrating = false ∧
    (((mPort { PortSt.reset with calibrating := true }).port 16).calibrating = true ∧ (mPort PortSt.reset).memsys.phase ≠ 5) ∧
    ((mMig 2).memsys.phase = 2 ∧ (mMig 2).memsys.abort = false) ∧
    ((mMig 4).memsys.phase = 4 ∧ (mMig 4).memsys.src ≠ (mMig 4).memsys.dst ∧ ((mMig 4).port (mMig 4).memsys.src).fenceAfter = false) ∧
    ((mMig 4).armBlocks 0 Reg.MEM_MIG_FORCE = false ∧ (2 ^ 31).testBit 31 = true ∧ ((mMig 4).dock.isSome = true ∨ (mMig 4).memsys.phase ≠ 0) ∧
      2 ^ 31 % 16 < (mMig 4).memsys.ports ∧ (mMig 4).memsys.ports ≤ (2 ^ 31 + 15) % 16) ∧
    (((mPort PortSt.reset).port 0).role = .active ∧ (mPort PortSt.reset).spareHeld = false ∧ ((mPort PortSt.reset).port 0).covered = false ∧
      ((mPort PortSt.reset).port 0).stepTide ≠ some (mPort PortSt.reset).tideNum ∧ ((mPort PortSt.reset).port 0).inplace + 1 < 64) ∧
    ((mPort { PortSt.reset with stepTide := some 0 }).port 16).stepTide = some (mPort { PortSt.reset with stepTide := some 0 }).tideNum := by
  decide +kernel

/-! ### Witnesses: the warehouse -/

/-- Pool 1: two buffers of 2 KiB from 0x400000, first index 8, metadata at 0x800000; the second free buffer at the head; then
handed out to agent 3. -/
def link (p next : Nat) : List Nat := leBytes 6 (next + p * two40) ++ leBytes 2 (crc32c (leBytes 6 (next + p * two40)) % 65536)
def wOff : State :=
  ((((({ svcM with metaSet := true } : State).wr40 Reg.POOL_META_BASE_LO 0x800000).wr40 (Reg.POOL_BASE_LO + 0x40) 0x400000).wr
    (poolReg Reg.POOL_COUNT 1) 2).wr (poolReg Reg.POOL_FIRST_INDEX 1) 8)
def wOn : State :=
  lit 0x400800 (link 1 0) ((wOff.wr (poolReg Reg.POOL_CFG 1) 0x10B).setPool 1 { PoolSt.reset with head := 0x400800, threaded := 1, free := 1 })
def wOut : State := (wOn.handOut 1 3 0x400800).setRefCount 9 2

/-- Threading followed; the bitmap byte of the head read; the record of the second buffer read. -/
def wReach : State := (wOn.bump Reg.POOL_OPS_LAST 1).threadReach 1
def wBit : State := wReach.metaRead (wReach.bitAddr (wReach.globalIndex 1 0x400800))
def wTouch (s : State) : State := (s.bump Reg.POOL_OPS_LAST 1).metaTouch 0x400800

theorem wit_WarehouseOperations :
    ((wOn.bump Reg.POOL_OPS_LAST 1).poolOn 1 = true ∧ (wReach.pool 1).threaded ≠ 0 ∧ (wReach.pool 1).head = 0x400800 ∧
      wBit.metaBad (wReach.bitAddr (wReach.globalIndex 1 0x400800)) = false ∧
      (wBit.readMem agentPool (wBit.pool 1).head 8).1 = .ok ∧
      (wBit.readMem agentPool (wBit.pool 1).head 8).2.2.headSound 1 (wBit.pool 1).head = true) ∧
    (((wOn.setPool 1 PoolSt.reset).bump Reg.POOL_OPS_LAST 1).poolOn 1 = true ∧
      ((((wOn.setPool 1 PoolSt.reset).bump Reg.POOL_OPS_LAST 1).threadReach 1).pool 1).threaded = 0) ∧
    (wOff.bump Reg.POOL_OPS_LAST 1).poolOn 1 = false ∧
    ((wTouch wOut).poolOf 0x400800 = some 1 ∧ (wTouch wOut).globalIndex 1 0x400800 = 9 ∧ (wTouch wOut).poolCheck 3 3 0x400800 = 0 ∧
      (wTouch wOut).poolCheck 4 3 0x400800 = 0 ∧ (wTouch wOut).poolCheck 5 3 0x400800 = 0 ∧ (wTouch wOut).poolCheck 2 3 0x400800 ≠ 0) ∧
    ((wTouch (wOut.setRefCount 9 1)).poolOf 0x400800 = some 1 ∧ (wTouch (wOut.setRefCount 9 1)).poolCheck 2 3 0x400800 = 0) ∧
    ((wTouch wOn).poolCheck 3 3 0x400800 ≠ 0 ∧ (wTouch wOn).poolCheck 4 3 0x400800 ≠ 0 ∧ (wTouch wOn).poolCheck 5 3 0x400800 ≠ 0) ∧
    (wOff.armBlocks 0 (poolReg Reg.POOL_CFG 1) = false ∧ wOff.poolOn 1 = false ∧ wOff.enableCheck 1 (0xB ||| 0x100) = 0) ∧
    (wOn.armBlocks 0 (poolReg Reg.POOL_CFG 1) = false ∧ wOn.poolOn 1 = true ∧ wOn.disableCheck 1 = 0) ∧
    (wOut.poolOn 1 = true ∧ wOut.disableCheck 1 ≠ 0) ∧
    ((wOn.setPool 1 { PoolSt.reset with threading := true }).pool 1).threading = true := by decide +kernel

/-! ### Witnesses: lighter channels and micro-routines -/

/-- Barge LT0 runs the job whose program is at 0x1000, at an instruction of these words. -/
def ltJob0 : Job := mkJob 0x0501 0 0x1000
def ltRun (w0 w1 : Nat) (x : LtSt) : State :=
  lit 0x1000 (leBytes 8 w0 ++ leBytes 8 w1)
    (((busy 0x90 ltJob0 svcM).setLt 0x90 { x with prog := 0x1000 }).setBit (ucb 0x90 Reg.LT_STATUS) 16)
/-- MOVE of 64 bytes from 0x2000 to 0x3000. -/
def ltMove : State := ltRun (2 ^ 60 + 0x2000) (64 * 2 ^ 40 + 0x3000) LtSt.reset
/-- LOOP of counter 3 back to 0, twice; LOOP for ever; WAIT for a tide, for flag 31; SIGNAL without WRITE. -/
def ltLoop (n : Nat) : State := ltRun (2 * 2 ^ 60 + 3 * 2 ^ 56 + n * 2 ^ 32) (8 * 2 ^ 32 + 4) LtSt.reset
def ltWait0 : State := (ltRun (3 * 2 ^ 60 + 1) 0 { LtSt.reset with tideAt := 1 }).wr64 Reg.TIDE_NUM_W0 1
def ltWait1 (waits : Option Nat) : State := ltRun (3 * 2 ^ 60 + 2 ^ 56 + 31 * 2 ^ 48 + 1) 0 { LtSt.reset with waiting := waits }

theorem wit_ChannelProgramsRun :
    ((busy 0x90 ltJob0 svcM).ltJob 0x90 = some ltJob0 ∧ (busy 0x90 ltJob0 svcM).bit (ucb 0x90 Reg.LT_STATUS) 16 = false ∧
      ltJob0.stopWith = none ∧ (busy 0x90 ltJob0 svcM).ltRefused ltJob0 = none) ∧
    (ltMove.ltJob 0x90 = some ltJob0 ∧ ltMove.ltAt 0x90 1 = true ∧ 64 = mvLen (ltMove.ltWords 0x90).2 ∧
      ltMove.sideOk 0x90 false (ltMove.mvSource 0x90) ((ltMove.mvSource 0x90).span 64) = true ∧
      ltMove.sideOk 0x90 true (ltMove.mvDest 0x90) ((ltMove.mvDest 0x90).span 64) = true) ∧
    ((ltLoop 0).ltJob 0x90 = some ltJob0 ∧ (ltLoop 0).ltAt 0x90 2 = true ∧ bits ((ltLoop 0).ltWords 0x90).1 57 56 = 3 ∧
      bits ((ltLoop 0).ltWords 0x90).1 47 32 = 0) ∧
    ((ltLoop 2).ltAt 0x90 2 = true ∧ bits ((ltLoop 2).ltWords 0x90).1 47 32 = 2 ∧ (((ltLoop 2).lt 0x90).loop 3 + 1) % 65536 < 2) ∧
    ((ltLoop 1).ltAt 0x90 2 = true ∧ bits ((ltLoop 1).ltWords 0x90).1 47 32 = 1 ∧ 1 ≤ (((ltLoop 1).lt 0x90).loop 3 + 1) % 65536) ∧
    (ltWait0.ltAt 0x90 3 = true ∧ ltWait0.ltHolds 0x90 ltWait0.tideNum = false) ∧
    (((ltWait1 none).setBit Reg.LT_FLAGS 31).ltAt 0x90 3 = true ∧
      ((ltWait1 none).setBit Reg.LT_FLAGS 31).ltHolds 0x90 ((ltWait1 none).setBit Reg.LT_FLAGS 31).tideNum = true) ∧
    ((ltWait1 (some 1)).ltJob 0x90 = some ltJob0 ∧ ((ltWait1 (some 1)).lt 0x90).waiting.isSome = true ∧
      ((ltWait1 (some 1)).setBit Reg.LT_FLAGS 31).ltHolds 0x90 ((ltWait1 (some 1)).lt 0x90).tideAt = true) ∧
    ((ltWait1 (some 1)).ltHolds 0x90 ((ltWait1 (some 1)).lt 0x90).tideAt = false ∧ bits ((ltWait1 (some 1)).ltWords 0x90).1 31 0 ≠ 0) ∧
    ((ltRun (4 * 2 ^ 60) 0 LtSt.reset).ltAt 0x90 4 = true ∧ ((ltRun (4 * 2 ^ 60) 0 LtSt.reset).ltWords 0x90).1.testBit 58 = false) ∧
    svc.armBlocks 0 Reg.LT_FLAGS_SET = false ∧
    (isChannel 3 = false ∧ (svc.unit 3).job = none ∧ unitKind 3 = some .gantry ∧
      ((busy 3 (mkJob 0x0102 1 0) svc).unit 3).job = some (mkJob 0x0102 1 0)) := by decide +kernel

/-- A source burst of a MOVE in progress, all beats done. -/
def ltMoving : State := ltMove.setLt 0x90 { ltMove.lt 0x90 with moving := true }
theorem wit_ChannelProgramsRun_burst : ∃ bs v, ltMoving.ltJob 0x90 = some ltJob0 ∧ ltJob0.stopWith = none ∧ (ltMoving.lt 0x90).moving = true ∧
    ltMoving.ltReady 0x90 = 0 ∧ isSkiff 0x90 = false ∧
    64 = (ltMoving.mvSource 0x90).burst false (ltMoving.lt 0x90).issued (mvLen (ltMoving.ltWords 0x90).2 - (ltMoving.lt 0x90).issued) ∧
    (ltMoving.ltIssue 0x90 64 true).readBeats 0x90 (ltMoving.mvSource 0x90) (ltMoving.lt 0x90).issued 64 [] = (.done bs, v) ∧
    (v.ltJob 0x90).isSome = true :=
  ⟨_, _, by decide +kernel, by decide +kernel, by decide +kernel, by decide +kernel, by decide +kernel, by decide +kernel, rfl, by decide +kernel⟩

/-- Gantry 0 in a routine at micro-PC 0, where its control store holds `w`. -/
def mu (w : Nat) (m : Micro) : State :=
  ({ svc with cs := [(0, w)] } : State).setUnit 0 { UnitSt.reset with eng := .running, micro := { m with inRoutine := true } }
def muWin : Micro := { Micro.reset with window := some 2, cycles := 1998 }

/-- Opcodes with their costs. -/
def computing : List (Nat × Nat) :=
  [(0x01, 1), (0x02, 1), (0x03, 1), (0x04, 1), (0x05, 1), (0x06, 1), (0x07, 1), (0x08, 1), (0x09, 1), (0x0A, 1), (0x0B, 1), (0x0C, 1),
    (0x0D, 1), (0x0E, 4), (0x0F, 4), (0x10, 42), (0x11, 1)]

theorem wit_MicroOpsCompute :
    (∀ p ∈ computing, (mu (p.1 * 2 ^ 18) Micro.reset).MicroReady 0 p.1 p.2 (p.1 * 2 ^ 18) ∧
      (mu (p.1 * 2 ^ 18) Micro.reset).MayWrite 0 (rdOf (p.1 * 2 ^ 18))) ∧
    (mu (4 * 2 ^ 18) muWin).MicroReady 0 4 1 (4 * 2 ^ 18) ∧
    ((mu (16 * 2 ^ 18) { Micro.reset with d := [(0, 5)] }).mi 0).reg (rbOf (16 * 2 ^ 18)) ≠ 0 ∧
    ((mu (16 * 2 ^ 18) Micro.reset).mi 0).reg (rbOf (16 * 2 ^ 18)) = 0 := by
  unfold State.MicroReady State.MayWrite
  decide +kernel

def controls : List (Nat × Nat) :=
  [(0x00, 1), (0x12, 1), (0x13, 1), (0x14, 2), (0x15, 1), (0x16, 2), (0x16, 1), (0x17, 2), (0x18, 2), (0x19, 1), (0x1A, 1), (0x1B, 1), (0x1C, 1),
    (0x1D, 1), (0x1E, 1), (0x1F, 1)]
/-- LD or ST of a space with the offset 31; a VIEW slot written earlier in the routine; a base register, memory and the host’s link. -/
def ldSt (op space : Nat) : Nat := op * 2 ^ 18 + 2 ^ 14 + space * 2 ^ 8 + 31
def muSlot : Micro := { Micro.reset with locals := [(viewKey 31, 9)] }
def muMem (a op : Nat) : State :=
  { mu (ldSt op 2) { Micro.reset with d := [(0, a)] } with memsys := svcM.memsys, host := { svc.host with linkUp := true, bme := true } }
def muTrap : Micro := { Micro.reset with trapped := true }

theorem wit_MicroOpsControl :
    (∀ p ∈ controls, (mu (p.1 * 2 ^ 18) Micro.reset).MicroReady 0 p.1 p.2 (p.1 * 2 ^ 18)) ∧
    (bits (0x14 * 2 ^ 18) 9 8 = 0 ∧ bits (0x15 * 2 ^ 18) 9 8 = 0 ∧ (mu (0x14 * 2 ^ 18) Micro.reset).MayWrite 0 (rdOf (0x14 * 2 ^ 18))) ∧
    ((mu (ldSt 0x14 1) { muWin with cycles := 0 }).MicroReady 0 0x14 2 (ldSt 0x14 1) ∧
      (mu (ldSt 0x14 1) { muWin with cycles := 0 }).MayWrite 0 (rdOf (ldSt 0x14 1)) ∧
      ((mu (ldSt 0x14 1) { muWin with cycles := 0 }).mi 0).inWindow = true ∧ muSlot.locals.find? (fun p => p.1 = viewKey 31) = some (viewKey 31, 9) ∧
      (mu (ldSt 0x14 1) muSlot).MicroReady 0 0x14 2 (ldSt 0x14 1) ∧ bits (ldSt 0x14 1) 9 8 = 1 ∧ bits (ldSt 0x14 1) 7 0 = 31) ∧
    ((mu (ldSt 0x15 1) { muWin with cycles := 0 }).MicroReady 0 0x15 1 (ldSt 0x15 1) ∧ viewRw muWin.routine 31 = true) ∧
    ((muMem 1 0x14).MicroReady 0 0x14 1 (ldSt 0x14 2) ∧ (muMem 1 0x14).MayWrite 0 (rdOf (ldSt 0x14 2)) ∧ 2 ≤ bits (ldSt 0x14 2) 9 8 ∧
      (((muMem 1 0x14).mi 0).reg (raOf (ldSt 0x14 2)) + bits (ldSt 0x14 2) 7 0 * 8) % two40 % 8 ≠ 0) ∧
    ((muMem 0x2000 0x14).target 0x20F8 ≠ .outbound ∧ ((muMem 0x2000 0x14).readMem 0 0x20F8 8).1 = .ok ∧
      ((muMem 0x2000 0x14).mi 0).reg (raOf (ldSt 0x14 2)) = 0x2000) ∧
    ((muMem 0x8000000000 0x14).target 0x80000000F8 = .outbound ∧ (muMem 0x8000000000 0x14).outboundOk = true) ∧
    ((muMem 0x2000 0x15).MicroReady 0 0x15 1 (ldSt 0x15 2) ∧ ((muMem 0x2000 0x15).writeMem 0 0x20F8 (leBytes 8 0)).1 = .ok) ∧
    (Micro.reset.holds (bits (0x16 * 2 ^ 18) 17 15) = true ∧
      (mu (0x16 * 2 ^ 18 + 2 ^ 15) Micro.reset).MicroReady 0 0x16 1 (0x16 * 2 ^ 18 + 2 ^ 15) ∧
      ((mu (0x16 * 2 ^ 18 + 2 ^ 15) Micro.reset).mi 0).holds (bits (0x16 * 2 ^ 18 + 2 ^ 15) 17 15) = false) ∧
    ((mu (0x17 * 2 ^ 18) { Micro.reset with stack := List.replicate 7 1 }).MicroReady 0 0x17 2 (0x17 * 2 ^ 18) ∧
      ((mu (0x17 * 2 ^ 18) { Micro.reset with stack := List.replicate 7 1 }).mi 0).stack.length <
        ((mu (0x17 * 2 ^ 18) { Micro.reset with stack := List.replicate 7 1 }).mi 0).depth) ∧
    ((mu (0x18 * 2 ^ 18) { Micro.reset with stack := [5] }).MicroReady 0 0x18 2 (0x18 * 2 ^ 18) ∧
      ((mu (0x18 * 2 ^ 18) { Micro.reset with stack := [5] }).mi 0).stack = 5 :: []) ∧
    ((mu (0x19 * 2 ^ 18) Micro.reset).waitHolds 0 (0x19 * 2 ^ 18) 0 true = true ∧
      (mu (0x19 * 2 ^ 18) Micro.reset).waitHolds 0 (0x19 * 2 ^ 18) 0 false = false) ∧
    (((mu 0 { Micro.reset with waiting := some 0 }).mi 0).waiting = some 0 ∧ ((mu 0 { Micro.reset with waiting := some 0 }).mi 0).inWindow = false ∧
      (mu 0 { Micro.reset with waiting := some 0 }).waitHolds 0 0 0 true = true) ∧
    ((mu (0x1B * 2 ^ 18) Micro.reset).stopMark 0 = none ∧ ((mu (0x1D * 2 ^ 18) Micro.reset).unit ((mu (0x1D * 2 ^ 18) Micro.reset).workOf 0)).job = none) ∧
    ((mu (0x1E * 2 ^ 18) muTrap).MicroReady 0 0x1E 1 (0x1E * 2 ^ 18) ∧ ((mu (0x1E * 2 ^ 18) muTrap).mi 0).trapped = true ∧
      ((mu (0x1E * 2 ^ 18) muTrap).mi 0).causes = 0) ∧
    ((mu (0x1F * 2 ^ 18) muWin).MicroReady 0 0x1F 1 (0x1F * 2 ^ 18) ∧ ((mu (0x1F * 2 ^ 18) muWin).mi 0).inWindow = true) ∧
    (1 ≤ 4 ∧ (4 = 3 → unitKind 0 = some .pilot) ∧ ((mu 0 Micro.reset).mi 0).inRoutine = true ∧ (mu 0 Micro.reset).eng 0 ≠ .fenced ∧
      ((mu 0 Micro.reset).mi 0).trapped = false ∧ ((mu 0 Micro.reset).mi 0).causes = 0) ∧
    (bits 0 23 18 = 0 ∧ (mu 0 Micro.reset).csWord 0 0 = 0 ∧ 0x20 ≤ bits (0x20 * 2 ^ 18) 23 18 ∧
      (mu (0x20 * 2 ^ 18) Micro.reset).csWord 0 ((mu (0x20 * 2 ^ 18) Micro.reset).mi 0).pc = 0x20 * 2 ^ 18) := by
  unfold State.MicroReady State.MayWrite
  refine ⟨?_, ?_, ?_, ?_, ?_, ?_, ?_, ?_, ?_, ?_, ?_, ?_, ?_, ?_, ?_, ?_, ?_, ?_⟩ <;> decide +kernel

/-! ### Witnesses: the host function, the bell, the Watch, soundings -/

/-- The function enabled, linked and awake; configuration served; vector 31 masked with a message pending for source 35's target. -/
def hOn : State := { (svcM.setBit Reg.HOST_CTRL 0) with host := { svc.host with linkUp := true, retry := false, bme := true, msixEn := true } }
def hReq : ConfigReq := { isWrite := true, reg := 0, bme := true, msixEn := false, msixMaskAll := false, pmeEn := false, relaxed := true }
def hBell : State :=
  (hOn.setBit Reg.HOST_MSIX_PBA 31).setSrc 900 { BellSrc.reset with pending := true, enable := true, target := 35 }

/-- The function in D3hot; BAR2 placed at the last bytes of its range. -/
def hD3 : State := { hOn with host := { hOn.host with d3hot := true } }
def hOut : State := hOn.wr40 Reg.HOST_BAR2_BASE_LO 0x1FFFFFFFF8

theorem wit_HostFunctionFollowsItsLink :
    (hOn.host.perst = false ∧ hOn.host.linkUp = true ∧ hOn.hostEnabled = true ∧ hOn.outputsOn = true ∧ hOn.host.d3hot = false) ∧
    (hOn.host.linkUp = true ∧ hD3.host.linkUp = true ∧ hD3.host.d3hot = true) ∧ (7 ≤ 7 ∧ 7 ≠ hOn.host.bar2Size) ∧ svc.hostAwake = false ∧ hOn.bar2Bytes < 0x200000000 + ([5] : List Nat).length ∧
    (hOn.hostAwake = true ∧ 0x1FFFFFFFF + ([5] : List Nat).length ≤ hOn.bar2Bytes ∧
      ((hOn.sndCount 0xF05 0xD00 1).writeMem hostAgent ((hOn.sndCount 0xF05 0xD00 1).rd40 Reg.HOST_BAR2_BASE_LO + 0x1FFFFFFFF) [5]).1 = .ok ∧
      ((hOn.sndCount 0xF05 0xD01 1).readMem hostAgent ((hOn.sndCount 0xF05 0xD01 1).rd40 Reg.HOST_BAR2_BASE_LO + 0x1FFFFFFFF) 1).1 = .ok) ∧
    (hOut.hostAwake = true ∧ 0x10 + 1 ≤ hOut.bar2Bytes ∧
      0x2000000000 < (hOut.sndCount 0xF05 0xD00 1).rd40 Reg.HOST_BAR2_BASE_LO + 0x10 + ([5] : List Nat).length) ∧
    svc.host.retry = true ∧ (hOn.host.retry = false ∧ hReq.isWrite = true ∧ ({ hReq with isWrite := false } : ConfigReq).isWrite = false) ∧
    (31 < 32 ∧ hOn.armBlocks hostAgent (Reg.HOST_MSIX_TABLE + 16 * 31 + 12) = false ∧ hOn.bit Reg.HOST_MSIX_PBA 31 = false) ∧
    ({ hOn with boot := { hOn.boot with arm := false } } : State).armBlocks hostAgent (Reg.HOST_MSIX_TABLE + 16 * 31 + 12) = true ∧ (hOn.setBit Reg.HOST_MBX_STATUS 0).bit Reg.HOST_MBX_STATUS 0 = true ∧
    (hOn.bit Reg.HOST_MBX_STATUS 0 = false ∧ (hOn.regWrite 0 Reg.HOST_MBX_CTRL 1).bit Reg.HOST_MBX_STATUS 0 = true ∧
      (hOn.regWrite 0 Reg.HOST_MBX_CTRL 1).mbxN 0 2 ≠ 0x4D52) ∧
    ((hBell.clrBit (Reg.HOST_MSIX_TABLE + 16 * 31 + 12) 0).bit Reg.HOST_MSIX_PBA 31 = true ∧
      (hBell.clrBit (Reg.HOST_MSIX_TABLE + 16 * 31 + 12) 0).vectorMasked 31 = false ∧
      (((hBell.clrBit (Reg.HOST_MSIX_TABLE + 16 * 31 + 12) 0).clrBit Reg.HOST_MSIX_PBA 31).presented (31 + 4)).isSome = true) := by
  refine ⟨?_, ?_, ?_, ?_, ?_, ?_, ?_, ?_, ?_, ?_, ?_, ?_, ?_, ?_⟩ <;> decide +kernel

/-- Source 767 with its line high; source 1023 pending at target 4, claimed by it, in its hold time. -/
def bLine : State := (svc.setBit Reg.WATCH_EVENT 7).setBit Reg.WATCH_EVENT_ENABLE 7
def bPend : State := svc.setSrc 1023 { BellSrc.reset with pending := true, enable := true, target := 4 }
def bAct : State := svc.setSrc 1023 { BellSrc.reset with active := true, claimer := 4 }
def bHold : State := svc.setSrc 1023 { BellSrc.reset with pending := true, timer := true, enable := true, target := 4, fallback := 5 }

theorem wit_BellClaimsAndCompletes :
    (noDriver 7 = false ∧ 7 < 768 ∧ bLine.bellLine 7 = true ∧ (bLine.src 7).line = false ∧ (bLine.src 7).pending = false) ∧
    (¬(hostAgent = hostAgent ∧ 4 < 4) ∧ bPend.tooEarly hostAgent (Reg.BELL_T_CLAIM + 16 * 4) = false ∧
      bAct.tooEarly hostAgent (Reg.BELL_T_COMPLETE + 16 * 4) = false ∧ bPend.presented 4 = some 1023 ∧ svc.presented 4 = none) ∧
    (1023 = bits 1023 9 0 ∧ (bAct.src 1023).active = true ∧ (bAct.src 1023).claimer = 4 ∧ (bAct.src 1023).claimer ≠ 5 ∧
      (svc.src 1023).active = false) ∧
    svc.armBlocks 0 (Reg.BELL_SWSET + 4 * 7) = false ∧
    (svc.armBlocks 0 (Reg.BELL_SRC_CFG + 8 * 343) = false ∧ noDriver 343 = false ∧ badTarget (bits 0x3F23 5 0) = false ∧
      badTarget (bits 0x3F23 13 8) = false ∧ badTarget (bits 0x3F3E 5 0) = true) ∧
    ((bHold.src 1023).timer = true ∧ (bHold.src 1023).pending = true ∧ (bHold.src 1023).active = false ∧ (bHold.src 1023).current ≠ 63 ∧
      (bHold.src 1023).fallback ≠ 63 ∧ (bHold.src 1023).fallback ≠ (bHold.src 1023).current) := by
  refine ⟨?_, ?_, ?_, ?_, ?_, ?_⟩ <;> decide +kernel

/-- Gantry 0 fenced n times, and a gantry about to take its berth; the safe state. -/
def wFen (n : Nat) (safe : Bool) : State :=
  { eng .fenced with watch := { svc.watch with fencedTimes := [(0x2F, n)], safe } }
def wTake : State := { svc with watch := { svc.watch with takeovers := [(0, 1)] } }

theorem wit_WatchFencesAndClears :
    (fenceCode 0x2F 0x4810 = true ∧ (eng .idle).eng 0x2F ≠ .fenced) ∧
    ((eng .fenced).eng 0x2F = .fenced ∧ (eng .fenced).watch.selfLost = false) ∧
    (wTake.watch.takeovers = [(0, 1)] ∧ unitKind 0 ≠ some .egress ∧ 0 ≠ 1 ∧ (wTake.unit 0).job = none ∧ (wTake.unit 0).parent = none) ∧
    ((svc.wr Reg.WATCH_HANG_CFG 100).fld Reg.WATCH_HANG_CFG 15 0 ≠ 0 ∧ (eng .running).eng 0x2F = .running) ∧
    (svc.armBlocks 0 Reg.WATCH_ACK = false ∧ bits 0x4010 15 0 / 4096 = 4) ∧
    (svc.armBlocks 0 Reg.WATCH_FENCE_CLEAR = false ∧ svc.watch.clearing = none ∧ ((eng .idle).unit (0x2F % 4096)).eng ≠ .fenced) ∧
    (((wFen 2 false).unit (0x2F % 4096)).eng = .fenced ∧ SMap.get (fun _ => 0) (wFen 2 false).watch.fencedTimes (0x2F % 4096) < 3 ∧
      (wFen 2 false).watch.safe = false ∧ (wFen 2 false).watch.clearing = none) ∧
    (((wFen 3 false).unit (0x2F % 4096)).eng = .fenced ∧ 3 ≤ SMap.get (fun _ => 0) (wFen 3 false).watch.fencedTimes (0x2F % 4096)) ∧
    (((wFen 2 true).unit (0x2F % 4096)).eng = .fenced ∧ SMap.get (fun _ => 0) (wFen 2 true).watch.fencedTimes (0x2F % 4096) < 3 ∧
      (wFen 2 true).watch.safe = true) ∧
    (({ svc with watch := { svc.watch with clearing := some 0x2F } } : State).watch.clearing = some 0x2F ∧ unitKind 0x2F ≠ some .egress) ∧
    (svc.armBlocks 0 Reg.WATCH_SAFE_FORCE = false ∧ Nat.testBit 1 0 = true) ∧
    (({ svc with watch := { svc.watch with safeAsked := true } } : State).watch.safeAsked = true ∧ svc.watch.safe = false) ∧
    (svc.watch.pairsFenced.contains 1 = false ∧ 1 ≤ 1 ∧ svc.watch.selfLost = false ∧ svc.watch.lockstep = []) := by
  refine ⟨?_, ?_, ?_, ?_, ?_, ?_, ?_, ?_, ?_, ?_, ?_, ?_, ?_⟩ <;> decide +kernel

theorem wit_ReportsEnterTheWatch : svc.watch.selfLost = false ∧ svc.watch.safe = false ∧ 0x6FFF / 4096 = 6 ∧ 0x5FFF / 4096 ≠ 6 ∧
    svc.watch.fe = none ∧ 0x3FFF / 4096 < 4 := by decide

theorem wit_SoundingsCommandsAct :
    (svc.armBlocks 0 (sndBase 0x2F (7 % 8)) = false ∧ (unitKind 0x2F == some .group && decide (0x2F < 0xF00)) = false ∧
      (svc.sndSelect 0 0x2F (7 % 8) 0x1001).1 = true ∧ (svc.sndSelect 0 0x2F (7 % 8) 0x1FFF).1 = false) ∧
    (svc.armBlocks 0 Reg.SND_SAMPLE_CFG = false ∧ svc.sampleRefused 0 = false ∧ svc.sampleRefused 3 = true) ∧
    svc.sndCfg % 4 ≠ 1 ∧ ({ svc with sndCfg := 1 } : State).sndCfg % 4 = 1 := by decide +kernel

/-! ### Witnesses: the rules stated whole -/

theorem wit_CeilingStaysInRange :
    (svc.noRegister 0 Reg.PWR_CEILING = false ∧ svc.armBlocks 0 Reg.PWR_CEILING = false ∧ svc.bit Reg.HOST_MBX_STATUS 0 = false) ∧
    (bits 89 8 0 < 90 ∧ 300 < bits 301 8 0) ∧ (90 ≤ bits 90 8 0 ∧ bits 90 8 0 ≤ 300) ∧ (90 ≤ bits 300 8 0 ∧ bits 300 8 0 ≤ 300) ∧
    (SMap.rising (svc.stage Reg.PWR_CEILING 300).staged = true ∧ (svc.stage Reg.PWR_CEILING 300).bit Reg.GLOBAL_STAGE_CTRL 0 = false ∧
      (svc.stage Reg.PWR_CEILING 300).staged.find? (fun p => p.1 = Reg.PWR_CEILING) = some (Reg.PWR_CEILING, BitVec.ofNat 32 300) ∧
      300 < two32) := by decide +kernel

theorem wit_BuffersHaveGlobalIndices : (0 < wOn.poolCount 1 ∧ 1 < wOn.poolCount 1) ∧ 8 ≠ 9 := by decide +kernel

/-- A kept response to QUOTE with SEQ 7. -/
def kept : State := { svc with rmpKept := [(reqKey rq, [{ seq := 7, command := 4, status := 0, body := [] }])] }

theorem wit_RepeatedRequestIsAnsweredOnce : kept.rmpReach rq = true ∧ kept.bit Reg.HOST_MBX_STATUS 0 = false ∧
    (SMap.get (fun _ => []) kept.rmpKept (reqKey rq)).find? (fun x => x.seq = rq.seq && x.command = 4)
      = some { seq := 7, command := 4, status := 0, body := [] } ∧ reqKey { rq with addr := 6 } ≠ reqKey rq := by decide +kernel

/-! ### Single steps against the manual -/

/-- The next state of a step that has one. -/
def after (i : Instr) (s : State) : State :=
  match step { s with pending := [i] } with
  | .next t => t
  | _ => s

/-- R526: 40-bit addition wraps; carry out of bit 39, Z of the result, no overflow. -/
theorem test_micro_add_wraps :
    ((after (.add 0 0) (mu (4 * 2 ^ 18 + 1 * 2 ^ 14 + 2 * 2 ^ 10 + 3 * 2 ^ 6) { Micro.reset with d := [(2, 2 ^ 40 - 1), (3, 1)] })).mi 0).reg 1 = 0 ∧
    ((after (.add 0 0) (mu (4 * 2 ^ 18 + 1 * 2 ^ 14 + 2 * 2 ^ 10 + 3 * 2 ^ 6) { Micro.reset with d := [(2, 2 ^ 40 - 1), (3, 1)] })).mi 0).z = true ∧
    ((after (.add 0 0) (mu (4 * 2 ^ 18 + 1 * 2 ^ 14 + 2 * 2 ^ 10 + 3 * 2 ^ 6) { Micro.reset with d := [(2, 2 ^ 40 - 1), (3, 1)] })).mi 0).c = true := by
  decide +kernel

/-- R422: 300 W is staged, and 301 W is refused and keeps what was staged. -/
theorem test_ceiling_staged :
    SMap.get (fun _ => 0) (after (.registerWrite 0 Reg.PWR_CEILING 300) svc).staged Reg.PWR_CEILING = 300 ∧
    SMap.get (fun _ => 0) (after (.registerWrite 0 Reg.PWR_CEILING 301) (svc.stage Reg.PWR_CEILING 90)).staged Reg.PWR_CEILING = 90 := by
  decide +kernel

/-- R116: a rate beyond 200 ppm saturates. -/
theorem test_rate_saturates : (after (.tideRateFracCommit 0 0x7FFFFFFFFF) tMan).tide.rate = 137438953 := by decide +kernel

/-- R567: the number presented with bit 31; the claim makes the source active. -/
theorem test_bell_claim :
    (after (.bellClaim 0 4) bPend).out.head? = some (.readData 0 (Reg.BELL_T_CLAIM + 64) (1023 + 2 ^ 31)) ∧
    ((after (.bellClaim 0 4) bPend).src 1023).active = true := by decide +kernel

/-- R99: a command over RMP without its authority is answered ARM_REQUIRED. -/
theorem test_arm_required : (after (.memWrite rq []) unarmed).out.head? = some (.rmp (reqKey rq) 7 0x15 4 []) := by decide +kernel

end Sys2Proof.Tests
end

/-! PROOFS. The kept responses of RMP (09_network_and_feeders.md: R354, R355): what answering a request keeps, and what a repeat does. -/

namespace Sys2Proof.Machine

/-! ### Keeping a response -/

/-- The responses kept after an answer; sending it touches none of them. -/
theorem State.rmpReply_rmpKept (q : Req) (cmd st : Nat) (body : List Nat) (s : State) :
    (s.rmpReply q cmd st body).rmpKept = SMap.set (fun _ => []) s.rmpKept (reqKey q)
      (({ seq := q.seq, command := cmd, status := st, body := body } :: SMap.get (fun _ => []) s.rmpKept (reqKey q)).take 16) := by
  unfold State.rmpReply State.whenB
  split <;> rfl

/-! ### A repeated request -/

/-- The kept response of a SEQ and COMMAND from the source of a request, if there is one. -/
def State.keptFor (s : State) (q : Req) (cmd : Nat) : Option RmpResp :=
  (SMap.get (fun _ => []) s.rmpKept (reqKey q)).find? (fun x => x.seq = q.seq && x.command = cmd)

/-- The kept response goes out again, unless NO_REPLY. -/
def State.resend (q : Req) (cmd : Nat) (r : RmpResp) (s : State) : State :=
  if q.noReply then s else s.emit (.rmp (reqKey q) q.seq cmd r.status r.body)

@[simp] theorem State.bit_resend (q : Req) (cmd : Nat) (r : RmpResp) (s : State) (o b : Nat) :
    (s.resend q cmd r).bit o b = s.bit o b := by
  unfold State.resend
  split <;> rfl

section Repeat

variable {s : State} {q : Req} {cmd : Nat} {r : RmpResp}

/-- A repeat runs no command, whatever the command's class and effect. -/
theorem State.rmp_repeat (c : RmpClass) (f : State → Nat × List Nat × State) (hreach : s.rmpReach q = true)
    (hkept : s.keptFor q cmd = some r) : s.rmp q cmd c f = (false, s.resend q cmd r) := by
  unfold State.keptFor at hkept
  simp only [State.rmp, hreach, hkept, State.whenB, State.resend]
  cases q.noReply <;> rfl

theorem State.rmpRun_repeat (c : RmpClass) (f : State → Nat × List Nat × State) (hreach : s.rmpReach q = true)
    (hkept : s.keptFor q cmd = some r) : s.rmpRun q cmd c f = s.resend q cmd r := by
  rw [State.rmpRun, State.rmp_repeat c f hreach hkept]

/-- With no request waiting in the mailbox, none is served after the repeat (SET serves the mailbox after its writes). -/
theorem State.rmpRun_served_repeat (c : RmpClass) (f : State → Nat × List Nat × State) (hreach : s.rmpReach q = true)
    (hkept : s.keptFor q cmd = some r) (hidle : s.bit Reg.HOST_MBX_STATUS 0 = false) :
    (s.rmpRun q cmd c f).served = s.resend q cmd r := by
  rw [State.rmpRun_repeat c f hreach hkept, State.served_idle (by rw [State.bit_resend, hidle])]

/-- No reset or restart follows a repeat, since only a command that ran with status OK has one. -/
theorem State.restartCmd_repeat (st : Option StartUp) (f : State → Nat × List Nat × State) (hreach : s.rmpReach q = true)
    (hkept : s.keptFor q cmd = some r) : s.restartCmd q cmd st f = s.resend q cmd r := by
  rw [State.restartCmd, State.rmp_repeat .presence f hreach hkept]
  rfl

end Repeat

/-- Settles O60: every command runs through `State.rmp`, which looks for a kept response before anything else. -/
theorem repeatedRequestIsAnsweredOnce : Obligations.RepeatedRequestIsAnsweredOnce := by
  unfold Obligations.RepeatedRequestIsAnsweredOnce
  refine ⟨fun s q cmd st b => ⟨?_, fun k hk => ?_⟩, fun s t q cmd r b d st hreach hidle hkept ht => ?_⟩
  · rw [State.rmpReply_rmpKept, SMap.get_set_same]
  · rw [State.rmpReply_rmpKept, SMap.get_set_other _ _ _ hk]
  · change s.keptFor q cmd = some r at hkept
    change t = s.resend q cmd r at ht
    have run (c f) : Host.Outcome.next (s.rmpRun q cmd c f) = (.next t : Host.Outcome State Fault Refusal) := by
      rw [ht, State.rmpRun_repeat c f hreach hkept]
    have runServed (c f) : Host.Outcome.next (s.rmpRun q cmd c f).served = (.next t : Host.Outcome State Fault Refusal) := by
      rw [ht, State.rmpRun_served_repeat c f hreach hkept hidle]
    have runRestart (f) : Host.Outcome.next (s.restartCmd q cmd (some st) f) = (.next t : Host.Outcome State Fault Refusal) := by
      rw [ht, State.restartCmd_repeat (some st) f hreach hkept]
    refine ⟨?get, ?set, ?certRead, ?quote, ?logRead, ?memRead, ?streamStart, ?streamStop, ?layoutFlip, ?storm, ?sndCtrl, ?memWrite,
      ?flashOpen, ?flashWrite, ?flashClose, ?fwCommit, ?factoryReset, ?ucwEnable, ?safeClear, ?spareDisable, ?sealClear⟩
      <;> rintro rfl
    case set => exact runServed ..
    case flashClose | factoryReset | safeClear => exact runRestart _
    all_goals exact run ..

end Sys2Proof.Machine

/-! PROOFS. The global index of a buffer (13_warehouse.md: R475, R479, R480): the index of a pool's buffer, and the bit and the owner
record that an index has to itself. -/

namespace Sys2Proof.Machine

/-- A buffer is at least one byte, so an address divides by its size. -/
theorem State.poolSize_pos (s : State) (p : Nat) : 0 < s.poolSize p :=
  Nat.two_pow_pos _

@[simp] theorem State.globalIndex_poolAddr (s : State) (p i : Nat) : s.globalIndex p (s.poolAddr p i) = s.poolFirst p + i := by
  rw [State.globalIndex, State.poolAddr, Nat.add_sub_cancel_left, Nat.mul_div_cancel i (s.poolSize_pos p)]

theorem State.ownerOf_eq_mod (s : State) (g : Nat) : s.ownerOf g = s.rdM (s.ownerAddr g) 8 % 4096 := by
  simp [State.ownerOf, bits]

/-- Two indices whose bits share a byte and a position are one index. -/
theorem State.bit_position_injective (s : State) {g h : Nat} (hbyte : s.bitAddr g = s.bitAddr h) (hbit : g % 8 = h % 8) : g = h := by
  have hdiv : g / 8 = h / 8 := Nat.add_left_cancel hbyte
  rw [← Nat.div_add_mod g 8, hdiv, hbit, Nat.div_add_mod]

/-- The record of an index ends where that of the next begins, or before any later one. -/
theorem State.ownerAddr_add_le (s : State) {g h : Nat} (hlt : g < h) : s.ownerAddr g + 8 ≤ s.ownerAddr h := by
  simp only [State.ownerAddr]
  omega

/-- Settles O59: the size of a buffer is a power of two, so the division by it recovers the buffer's number, and an index is its byte
and its position in it. -/
theorem buffersHaveGlobalIndices : Obligations.BuffersHaveGlobalIndices := by
  unfold Obligations.BuffersHaveGlobalIndices
  refine ⟨fun s p i hi => ?index, fun s g => ⟨rfl, s.ownerOf_eq_mod g⟩, fun s g h hne => ⟨?bit, ?record⟩⟩
  case index =>
    rw [State.globalIndex_poolAddr]
    omega
  case bit =>
    exact not_and_or.mp fun ⟨hbyte, hbit⟩ => hne (s.bit_position_injective hbyte hbit)
  case record =>
    exact (Nat.lt_or_gt_of_ne hne).imp s.ownerAddr_add_le s.ownerAddr_add_le

end Sys2Proof.Machine

/-! PROOFS. Rules for registers that the proofs below share (00_scope.md: R6, R10): fields read back after a field is stored, what the
counting of soundings leaves as it was, and updates that touch the registers alone. -/

namespace Sys2Proof.Machine

/-! ### Fields of a number (R6) -/

theorem testBit_bits (v hi lo i : Nat) : (bits v hi lo).testBit i = (decide (i < hi - lo + 1) && v.testBit (lo + i)) := by
  rw [bits, Nat.testBit_mod_two_pow, Nat.testBit_div_two_pow, Nat.add_comm lo]

/-- A number with a field replaced, as its upper part, the field and its lower part. -/
theorem putBits_eq (v hi lo x : Nat) :
    putBits v hi lo x = 2 ^ (lo + (hi - lo + 1)) * (v / 2 ^ (lo + (hi - lo + 1))) + (2 ^ lo * (x % 2 ^ (hi - lo + 1)) + v % 2 ^ lo) := by
  unfold putBits bits
  generalize hi - lo + 1 = w
  have hsplit : v % 2 ^ (lo + w) = v % 2 ^ lo + 2 ^ lo * (v / 2 ^ lo % 2 ^ w) := by rw [Nat.pow_add, Nat.mod_mul]
  have hwhole := Nat.div_add_mod v (2 ^ (lo + w))
  rw [Nat.mul_comm (v / 2 ^ lo % 2 ^ w), Nat.mul_comm (x % 2 ^ w)]
  omega

theorem testBit_putBits (v hi lo x c : Nat) :
    (putBits v hi lo x).testBit c = if lo ≤ c ∧ c < lo + (hi - lo + 1) then x.testBit (c - lo) else v.testBit c := by
  rw [putBits_eq]
  generalize hi - lo + 1 = w
  have hlow : v % 2 ^ lo < 2 ^ lo := Nat.mod_lt _ (Nat.two_pow_pos _)
  have hmid : 2 ^ lo * (x % 2 ^ w) + v % 2 ^ lo < 2 ^ (lo + w) := by
    have hx : x % 2 ^ w + 1 ≤ 2 ^ w := Nat.mod_lt _ (Nat.two_pow_pos _)
    have := Nat.mul_le_mul_left (2 ^ lo) hx
    rw [Nat.mul_add] at this
    rw [Nat.pow_add]
    omega
  rw [Nat.testBit_two_pow_mul_add _ hmid, Nat.testBit_two_pow_mul_add _ hlow]
  by_cases hc : c < lo + w
  · by_cases hl : c < lo
    · rw [if_pos hc, if_pos hl, if_neg (by omega), Nat.testBit_mod_two_pow]
      simp [hl]
    · rw [if_pos hc, if_neg hl, if_pos ⟨by omega, hc⟩, Nat.testBit_mod_two_pow]
      simp [show c - lo < w by omega]
  · rw [if_neg hc, if_neg (by omega), Nat.testBit_div_two_pow]
    congr 1
    omega

theorem putBits_lt {v hi lo x : Nat} (hv : v < 2 ^ 32) (hlo : lo ≤ hi) (hhi : hi < 32) : putBits v hi lo x < 2 ^ 32 := by
  apply Nat.lt_pow_two_of_testBit
  intro c hc
  rw [testBit_putBits, if_neg (by omega)]
  exact Nat.testBit_lt_two_pow (lt_of_lt_of_le hv (Nat.pow_le_pow_right (by omega) hc))

theorem bits_putBits_same (v hi lo x : Nat) : bits (putBits v hi lo x) hi lo = x % 2 ^ (hi - lo + 1) := by
  apply Nat.eq_of_testBit_eq
  intro i
  rw [testBit_bits, testBit_putBits, Nat.testBit_mod_two_pow]
  by_cases hi' : i < hi - lo + 1
  · rw [if_pos (by omega), Nat.add_sub_cancel_left]
  · simp [hi']

/-- A field apart from the one replaced. -/
theorem bits_putBits_other {v hi lo x hi' lo' : Nat} (hlo : lo ≤ hi) (hlo' : lo' ≤ hi') (h : hi' < lo ∨ hi < lo') :
    bits (putBits v hi lo x) hi' lo' = bits v hi' lo' := by
  apply Nat.eq_of_testBit_eq
  intro i
  rw [testBit_bits, testBit_bits, testBit_putBits]
  by_cases hi' : i < hi' - lo' + 1
  · rw [if_neg (by omega)]
  · simp [hi']

/-! ### Fields of a register (R10) -/

namespace State

theorem fld_congr {s t : State} {o : Nat} (h : t.rd o = s.rd o) (hi lo : Nat) : t.fld o hi lo = s.fld o hi lo := by
  rw [State.fld, State.fld, h]

theorem rd_wrFld_same {hi lo : Nat} (o v : Nat) (s : State) (hlo : lo ≤ hi) (hhi : hi < 32) :
    (s.wrFld o hi lo v).rd o = putBits (s.rd o) hi lo v := by
  rw [State.wrFld, State.rd_wr_same, Nat.mod_eq_of_lt (putBits_lt (s.rd_lt o) hlo hhi)]

theorem fld_wrFld_same {hi lo : Nat} (o v : Nat) (s : State) (hlo : lo ≤ hi) (hhi : hi < 32) :
    (s.wrFld o hi lo v).fld o hi lo = v % 2 ^ (hi - lo + 1) := by
  rw [State.fld, State.rd_wrFld_same o v s hlo hhi, bits_putBits_same]

theorem fld_wrFld_apart {hi lo hi' lo' : Nat} (o v : Nat) (s : State) (hlo : lo ≤ hi) (hhi : hi < 32) (hlo' : lo' ≤ hi')
    (h : hi' < lo ∨ hi < lo') : (s.wrFld o hi lo v).fld o hi' lo' = s.fld o hi' lo' := by
  rw [State.fld, State.fld, State.rd_wrFld_same o v s hlo hhi, bits_putBits_other hlo hlo' h]

/-- A bit of a register after a field of it is stored. -/
theorem bit_wrFld_same {hi lo : Nat} (o v c : Nat) (s : State) (hlo : lo ≤ hi) (hhi : hi < 32) :
    (s.wrFld o hi lo v).bit o c = if lo ≤ c ∧ c ≤ hi then v.testBit (c - lo) else s.bit o c := by
  rw [State.bit, State.rd_wrFld_same o v s hlo hhi, testBit_putBits, State.bit]
  congr 1
  exact propext ⟨fun h => ⟨h.1, by omega⟩, fun h => ⟨h.1, by omega⟩⟩

theorem bit_wr_same {o v : Nat} (c : Nat) (s : State) (hv : v < 2 ^ 32) : (s.wr o v).bit o c = v.testBit c := by
  rw [State.bit, State.rd_wr_same, Nat.mod_eq_of_lt hv]

@[simp] theorem bit_setBit_same {o b : Nat} (s : State) (hb : b < 32) : (s.setBit o b).bit o b = true := by
  rw [State.bit_setBit b s hb]; simp

@[simp] theorem bit_clrBit_same {o b : Nat} (s : State) (hb : b < 32) : (s.clrBit o b).bit o b = false := by
  rw [State.bit_clrBit b s hb]; simp

theorem bit_setBit_other {o p : Nat} (b c : Nat) (s : State) (h : p ≠ o) : (s.setBit o b).bit p c = s.bit p c :=
  State.bit_other (State.rd_setBit_other b s h) c

theorem bit_clrBit_other {o p : Nat} (b c : Nat) (s : State) (h : p ≠ o) : (s.clrBit o b).bit p c = s.bit p c :=
  State.bit_other (State.rd_clrBit_other b s h) c

theorem bit_wr_other {o p : Nat} (v c : Nat) (s : State) (h : p ≠ o) : (s.wr o v).bit p c = s.bit p c :=
  State.bit_other (State.rd_wr_other v s h) c

end State

/-! ### Registers of a unit (R41) -/

theorem ucb_ne_ucb {r r' : Nat} (u v : Nat) (hr : r < 0x4000) (hr' : r' < 0x4000) (h : r ≠ r') : ucb u r ≠ ucb v r' := by
  unfold ucb
  omega

/-! ### Updates of the registers alone -/

/-- `t` is `s` with other registers. -/
def State.OnlyRegs (s t : State) : Prop := t = { s with regs := t.regs }

namespace State.OnlyRegs

theorem refl (s : State) : s.OnlyRegs s := rfl

theorem of_eq {s t : State} {r : SMap Word} (h : t = { s with regs := r }) : s.OnlyRegs t := by
  subst h
  rfl

theorem trans {s t u : State} (h : s.OnlyRegs t) (k : t.OnlyRegs u) : s.OnlyRegs u := by
  unfold State.OnlyRegs at h
  rw [h] at k
  exact of_eq k

variable {s t : State}

theorem wr (o v : Nat) (h : s.OnlyRegs t) : s.OnlyRegs (t.wr o v) := h.trans rfl
theorem setBit (o b : Nat) (h : s.OnlyRegs t) : s.OnlyRegs (t.setBit o b) := h.trans rfl
theorem clrBit (o b : Nat) (h : s.OnlyRegs t) : s.OnlyRegs (t.clrBit o b) := h.trans rfl
theorem wr64 (o v : Nat) (h : s.OnlyRegs t) : s.OnlyRegs (t.wr64 o v) := h.trans rfl

theorem whenB {f : State → State} (c : Bool) (hf : ∀ s : State, s.OnlyRegs (f s)) (h : s.OnlyRegs t) : s.OnlyRegs (t.whenB c f) := by
  cases c with
  | false => exact h
  | true => exact h.trans (hf t)

theorem each {α : Type} {f : α → State → State} (hf : ∀ a, ∀ s : State, s.OnlyRegs (f a s)) (l : List α) (s : State) :
    s.OnlyRegs (s.each l f) := by
  induction l generalizing s with
  | nil => exact refl s
  | cons a l ih => exact (hf a s).trans (ih (f a s))

end State.OnlyRegs

/-- What each application of an operation keeps, all of them keep. -/
theorem State.each_keeps {α β : Type} (g : State → β) {f : α → State → State} (l : List α) (s : State)
    (hf : ∀ a ∈ l, ∀ s, g (f a s) = g s) : g (s.each l f) = g s := by
  induction l generalizing s with
  | nil => rfl
  | cons a l ih => exact (ih (f a s) (fun b hb => hf b (List.mem_cons_of_mem a hb))).trans (hf a List.mem_cons_self s)

/-! ### Soundings (R612) -/

theorem State.sndAdd_onlyRegs (b n : Nat) (s : State) : s.OnlyRegs (s.sndAdd b n) := by
  unfold State.sndAdd
  dsimp only
  split
  · exact (State.OnlyRegs.refl s).wr64 _ _
  · exact (((State.OnlyRegs.refl s).wr64 _ _).setBit _ _).setBit _ _

/-- The counters of a source are no register of the first 0x100 bytes of a UCB (R42, R610). -/
theorem sndBase_apart_ucb {r i src u : Nat} (h : src = u ∨ src < 0x1000) (hr : r < 0x100) (hi : i < 8) :
    ucb u r < sndBase src i + 4 ∨ sndBase src i + 12 < ucb u r := by
  unfold sndBase ucb
  simp only [Reg.SND_SEL, Reg.SNDSET_SEL]
  split <;> omega

/-- Counting an event changes registers alone. -/
theorem State.sndCount_onlyRegs (src ev n : Nat) (s : State) : s.OnlyRegs (s.sndCount src ev n) := by
  refine State.OnlyRegs.each (fun i s => ?_) _ s
  split
  · exact s.sndAdd_onlyRegs _ n
  · exact State.OnlyRegs.refl s

theorem State.rd_wr64_other {o p : Nat} (v : Nat) (s : State) (h : p ≠ o) (h4 : p ≠ o + 4) : (s.wr64 o v).rd p = s.rd p := by
  rw [State.wr64, State.rd_wr_other _ _ h4, State.rd_wr_other _ _ h]

/-- A counter's own registers and SND_EVENT are all that rise with it. -/
theorem State.rd_sndAdd_other {b p : Nat} (n : Nat) (s : State) (h : p < b + 4 ∨ b + 12 < p) (he : p ≠ Reg.SND_EVENT) :
    (s.sndAdd b n).rd p = s.rd p := by
  have h64 : (s.wr64 (b + 8) ((s.rd64 (b + 8) + n) % 2 ^ 48)).rd p = s.rd p :=
    State.rd_wr64_other _ s (by omega) (by omega)
  unfold State.sndAdd
  dsimp only
  split
  · exact h64
  · rw [State.rd_setBit_other _ _ he, State.rd_setBit_other _ _ (by omega), h64]

theorem State.rd_sndCount_other {src p : Nat} (ev n : Nat) (s : State)
    (h : ∀ i, i < 8 → p < sndBase src i + 4 ∨ sndBase src i + 12 < p) (he : p ≠ Reg.SND_EVENT) :
    (s.sndCount src ev n).rd p = s.rd p := by
  refine State.each_keeps (·.rd p) _ s (fun i hi s => ?_)
  split
  · exact State.rd_sndAdd_other n s (h i (List.mem_range.1 hi)) he
  · rfl

end Sys2Proof.Machine

/-! PROOFS. Invariants of the step (12_memory.md, 16_host_and_bell.md, 17_faults_and_availability.md): what every command keeps, and
from it what a step keeps. -/

namespace Sys2Proof.Machine

/-- One case for each command: what its meaning keeps. -/
theorem exec_kept {s t : State} : (c : Instr) → exec c s = .next t → s.Kept true t
  | .registerWrite .., h => execRegisterWrite_kept (h := h) ..
  | .refusedRegisterAccess .., h => execRefusedRegisterAccess_kept (h := h) ..
  | .rcRead .., h => execRcRead_kept (h := h) ..
  | .pairLoWrite .., h => execPairLoWrite_kept (h := h) ..
  | .pairHiWrite .., h => execPairHiWrite_kept (h := h) ..
  | .pairLoRead .., h => execPairLoRead_kept (h := h) ..
  | .stageHoldWrite .., h => execStageHoldWrite_kept (h := h) ..
  | .powerApplied .., h => execPowerApplied_kept (h := h) ..
  | .railRetry, h => execRailRetry_kept (h := h) ..
  | .resetRelease .., h => execResetRelease_kept (h := h) ..
  | .modReset .., h => execModReset_kept (h := h) ..
  | .powerRemoved, h => execPowerRemoved_kept (h := h) ..
  | .bootWatchdogExpiry .., h => execBootWatchdogExpiry_kept (h := h) ..
  | .ptpWaitExpiry, h => execPtpWaitExpiry_kept (h := h) ..
  | .heaterOff, h => execHeaterOff_kept (h := h) ..
  | .armChange .., h => execArmChange_kept (h := h) ..
  | .presentPress, h => execPresentPress_kept (h := h) ..
  | .presenceWindowExpiry, h => execPresenceWindowExpiry_kept (h := h) ..
  | .btnStuck, h => execBtnStuck_kept (h := h) ..
  | .sealBreak, h => execSealBreak_kept (h := h) ..
  | .get .., h => execGet_kept (h := h) ..
  | .set .., h => execSet_kept (h := h) ..
  | .certRead .., h => execCertRead_kept (h := h) ..
  | .quote .., h => execQuote_kept (h := h) ..
  | .logRead .., h => execLogRead_kept (h := h) ..
  | .memRead .., h => execMemRead_kept (h := h) ..
  | .memWrite .., h => execMemWrite_kept (h := h) ..
  | .streamStart .., h => execStreamStart_kept (h := h) ..
  | .streamStop .., h => execStreamStop_kept (h := h) ..
  | .layoutFlip .., h => execLayoutFlip_kept (h := h) ..
  | .storm .., h => execStorm_kept (h := h) ..
  | .stormFragmentExpiry .., h => execStormFragmentExpiry_kept (h := h) ..
  | .sndCtrl .., h => execSndCtrl_kept (h := h) ..
  | .flashOpen .., h => execFlashOpen_kept (h := h) ..
  | .flashWrite .., h => execFlashWrite_kept (h := h) ..
  | .flashClose .., h => execFlashClose_kept (h := h) ..
  | .flashWriteTimeout, h => execFlashWriteTimeout_kept (h := h) ..
  | .fwCommit .., h => execFwCommit_kept (h := h) ..
  | .factoryReset .., h => execFactoryReset_kept (h := h) ..
  | .ucwEnable .., h => execUcwEnable_kept (h := h) ..
  | .safeClear .., h => execSafeClear_kept (h := h) ..
  | .spareDisable .., h => execSpareDisable_kept (h := h) ..
  | .sealClear .., h => execSealClear_kept (h := h) ..
  | .tideStart .., h => execTideStart_kept (h := h) ..
  | .tideOutFall, h => execTideOutFall_kept (h := h) ..
  | .ppsOutRise, h => execPpsOutRise_kept (h := h) ..
  | .ppsOutFall, h => execPpsOutFall_kept (h := h) ..
  | .tideCapture .., h => execTideCapture_kept (h := h) ..
  | .tideRateFracCommit .., h => execTideRateFracCommit_kept (h := h) ..
  | .tideRebase, h => execTideRebase_kept (h := h) ..
  | .ptpSyncRx .., h => execPtpSyncRx_kept (h := h) ..
  | .ptpAnnounceRx .., h => execPtpAnnounceRx_kept (h := h) ..
  | .masterLost, h => execMasterLost_kept (h := h) ..
  | .ppsInEdge, h => execPpsInEdge_kept (h := h) ..
  | .ppsInLost, h => execPpsInLost_kept (h := h) ..
  | .stepAccept .., h => execStepAccept_kept (h := h) ..
  | .slewAccept .., h => execSlewAccept_kept (h := h) ..
  | .tideAdjCommit .., h => execTideAdjCommit_kept (h := h) ..
  | .holdoverExpired, h => execHoldoverExpired_kept (h := h) ..
  | .ref10mLoss, h => execRef10mLoss_kept (h := h) ..
  | .ref10mReturn, h => execRef10mReturn_kept (h := h) ..
  | .entropyDecode .., h => execEntropyDecode_kept (h := h) ..
  | .reconstruct .., h => execReconstruct_kept (h := h) ..
  | .decodeStart .., h => execDecodeStart_kept (h := h) ..
  | .decodeStop .., h => execDecodeStop_kept (h := h) ..
  | .decodeReadStatus .., h => execDecodeReadStatus_kept (h := h) ..
  | .flush .., h => execFlush_kept (h := h) ..
  | .refreshRequestRepeat .., h => execRefreshRequestRepeat_kept (h := h) ..
  | .encode .., h => execEncode_kept (h := h) ..
  | .entropyEncode .., h => execEntropyEncode_kept (h := h) ..
  | .encodeStart .., h => execEncodeStart_kept (h := h) ..
  | .encodeStop .., h => execEncodeStop_kept (h := h) ..
  | .encodeReadStatus .., h => execEncodeReadStatus_kept (h := h) ..
  | .forceSweep .., h => execForceSweep_kept (h := h) ..
  | .restart .., h => execRestart_kept (h := h) ..
  | .modelRead .., h => execModelRead_kept (h := h) ..
  | .modelSeed .., h => execModelSeed_kept (h := h) ..
  | .ucwOverrun .., h => execUcwOverrun_kept (h := h) ..
  | .plUcwRearm .., h => execPlUcwRearm_kept (h := h) ..
  | .compose .., h => execCompose_kept (h := h) ..
  | .cmpLayoutFlip .., h => execCmpLayoutFlip_kept (h := h) ..
  | .displayVsync .., h => execDisplayVsync_kept (h := h) ..
  | .hpdLow .., h => execHpdLow_kept (h := h) ..
  | .irqHpd .., h => execIrqHpd_kept (h := h) ..
  | .hpdAssert .., h => execHpdAssert_kept (h := h) ..
  | .linkTrainingRetry .., h => execLinkTrainingRetry_kept (h := h) ..
  | .auxTimeout .., h => execAuxTimeout_kept (h := h) ..
  | .laneFault .., h => execLaneFault_kept (h := h) ..
  | .netLinkChange .., h => execNetLinkChange_kept (h := h) ..
  | .ingressDatagram .., h => execIngressDatagram_kept (h := h) ..
  | .mergeWindowExpiry .., h => execMergeWindowExpiry_kept (h := h) ..
  | .neighbourRequestRx .., h => execNeighbourRequestRx_kept (h := h) ..
  | .feedbackRx .., h => execFeedbackRx_kept (h := h) ..
  | .transmit .., h => execTransmit_kept (h := h) ..
  | .feederPacket .., h => execFeederPacket_kept (h := h) ..
  | .demuxRead .., h => execDemuxRead_kept (h := h) ..
  | .feednDataRead .., h => execFeednDataRead_kept (h := h) ..
  | .feederSilent .., h => execFeederSilent_kept (h := h) ..
  | .holdShort .., h => execHoldShort_kept (h := h) ..
  | .feederPinTest .., h => execFeederPinTest_kept (h := h) ..
  | .hmDoorbell .., h => execHmDoorbell_kept (h := h) ..
  | .qcRead .., h => execQcRead_kept (h := h) ..
  | .qcWrite .., h => execQcWrite_kept (h := h) ..
  | .qcEnable .., h => execQcEnable_kept (h := h) ..
  | .qcDisable .., h => execQcDisable_kept (h := h) ..
  | .qctxLoad .., h => execQctxLoad_kept (h := h) ..
  | .dispatchDeadlineExpiry .., h => execDispatchDeadlineExpiry_kept (h := h) ..
  | .book .., h => execBook_kept (h := h) ..
  | .withdraw .., h => execWithdraw_kept (h := h) ..
  | .bookOutput .., h => execBookOutput_kept (h := h) ..
  | .hmGateSwap .., h => execHmGateSwap_kept (h := h) ..
  | .gateListTakeover .., h => execGateListTakeover_kept (h := h) ..
  | .gateEntryChange .., h => execGateEntryChange_kept (h := h) ..
  | .unitEnable .., h => execUnitEnable_kept (h := h) ..
  | .unitDisable .., h => execUnitDisable_kept (h := h) ..
  | .stopModeHalt .., h => execStopModeHalt_kept (h := h) ..
  | .spareSet .., h => execSpareSet_kept (h := h) ..
  | .spareClear .., h => execSpareClear_kept (h := h) ..
  | .groupCtrlWrite .., h => execGroupCtrlWrite_kept (h := h) ..
  | .quayWatermarkWrite .., h => execQuayWatermarkWrite_kept (h := h) ..
  | .inputStateChange .., h => execInputStateChange_kept (h := h) ..
  | .efuseTrip .., h => execEfuseTrip_kept (h := h) ..
  | .efuseRetry .., h => execEfuseRetry_kept (h := h) ..
  | .singleFeed .., h => execSingleFeed_kept (h := h) ..
  | .holdupExhausted, h => execHoldupExhausted_kept (h := h) ..
  | .powerSample .., h => execPowerSample_kept (h := h) ..
  | .efficiencyUpdate .., h => execEfficiencyUpdate_kept (h := h) ..
  | .temperatureSample .., h => execTemperatureSample_kept (h := h) ..
  | .governorRecheck, h => execGovernorRecheck_kept (h := h) ..
  | .powerWindow .., h => execPowerWindow_kept (h := h) ..
  | .pwrCoefReset .., h => execPwrCoefReset_kept (h := h) ..
  | .clockGate .., h => execClockGate_kept (h := h) ..
  | .unitWake .., h => execUnitWake_kept (h := h) ..
  | .deepGateWake .., h => execDeepGateWake_kept (h := h) ..
  | .spadBankRetention .., h => execSpadBankRetention_kept (h := h) ..
  | .refreshDue .., h => execRefreshDue_kept (h := h) ..
  | .selfRefreshEntry .., h => execSelfRefreshEntry_kept (h := h) ..
  | .edcFail .., h => execEdcFail_kept (h := h) ..
  | .predictWindow .., h => execPredictWindow_kept (h := h) ..
  | .scrubRead .., h => execScrubRead_kept (h := h) ..
  | .calibrationSession .., h => execCalibrationSession_kept (h := h) ..
  | .migrationCopyDone, h => execMigrationCopyDone_kept (h := h) ..
  | .migrationDrainDone, h => execMigrationDrainDone_kept (h := h) ..
  | .memMigForce .., h => execMemMigForce_kept (h := h) ..
  | .portLost .., h => execPortLost_kept (h := h) ..
  | .inplaceCalStep .., h => execInplaceCalStep_kept (h := h) ..
  | .alloc .., h => execAlloc_kept (h := h) ..
  | .free .., h => execFree_kept (h := h) ..
  | .release .., h => execRelease_kept (h := h) ..
  | .share .., h => execShare_kept (h := h) ..
  | .transfer .., h => execTransfer_kept (h := h) ..
  | .poolEnable .., h => execPoolEnable_kept (h := h) ..
  | .poolDisable .., h => execPoolDisable_kept (h := h) ..
  | .threaded .., h => execThreaded_kept (h := h) ..
  | .runProgram .., h => execRunProgram_kept (h := h) ..
  | .move .., h => execMove_kept (h := h) ..
  | .loop .., h => execLoop_kept (h := h) ..
  | .ltWait .., h => execLtWait_kept (h := h) ..
  | .ltWaitSatisfied .., h => execLtWaitSatisfied_kept (h := h) ..
  | .waitTimeout .., h => execWaitTimeout_kept (h := h) ..
  | .signal .., h => execSignal_kept (h := h) ..
  | .burstComplete .., h => execBurstComplete_kept (h := h) ..
  | .ltFlagsSet .., h => execLtFlagsSet_kept (h := h) ..
  | .nop .., h => execNop_kept (h := h) ..
  | .mov .., h => execMov_kept (h := h) ..
  | .ldi .., h => execLdi_kept (h := h) ..
  | .shi .., h => execShi_kept (h := h) ..
  | .add .., h => execAdd_kept (h := h) ..
  | .sub .., h => execSub_kept (h := h) ..
  | .and .., h => execAnd_kept (h := h) ..
  | .or .., h => execOr_kept (h := h) ..
  | .xor .., h => execXor_kept (h := h) ..
  | .min .., h => execMin_kept (h := h) ..
  | .max .., h => execMax_kept (h := h) ..
  | .shl .., h => execShl_kept (h := h) ..
  | .shr .., h => execShr_kept (h := h) ..
  | .sar .., h => execSar_kept (h := h) ..
  | .mul .., h => execMul_kept (h := h) ..
  | .mulh .., h => execMulh_kept (h := h) ..
  | .div .., h => execDiv_kept (h := h) ..
  | .addi .., h => execAddi_kept (h := h) ..
  | .cmp .., h => execCmp_kept (h := h) ..
  | .cmpi .., h => execCmpi_kept (h := h) ..
  | .ld .., h => execLd_kept (h := h) ..
  | .st .., h => execSt_kept (h := h) ..
  | .br .., h => execBr_kept (h := h) ..
  | .call .., h => execCall_kept (h := h) ..
  | .ret .., h => execRet_kept (h := h) ..
  | .wait .., h => execWait_kept (h := h) ..
  | .waitSatisfied .., h => execWaitSatisfied_kept (h := h) ..
  | .step .., h => execStep_kept (h := h) ..
  | .commit .., h => execCommit_kept (h := h) ..
  | .issue .., h => execIssue_kept (h := h) ..
  | .done .., h => execDone_kept (h := h) ..
  | .trapret .., h => execTrapret_kept (h := h) ..
  | .exit .., h => execExit_kept (h := h) ..
  | .microTrap .., h => execMicroTrap_kept (h := h) ..
  | .perstAssert .., h => execPerstAssert_kept (h := h) ..
  | .pcieLinkChange .., h => execPcieLinkChange_kept (h := h) ..
  | .flr, h => execFlr_kept (h := h) ..
  | .dStateChange .., h => execDStateChange_kept (h := h) ..
  | .bar2Resize .., h => execBar2Resize_kept (h := h) ..
  | .bar2Write .., h => execBar2Write_kept (h := h) ..
  | .bar2Read .., h => execBar2Read_kept (h := h) ..
  | .outboundTimeout .., h => execOutboundTimeout_kept (h := h) ..
  | .msixUnmask .., h => execMsixUnmask_kept (h := h) ..
  | .mailboxGo .., h => execMailboxGo_kept (h := h) ..
  | .sourceEdge .., h => execSourceEdge_kept (h := h) ..
  | .bellClaim .., h => execBellClaim_kept (h := h) ..
  | .bellComplete .., h => execBellComplete_kept (h := h) ..
  | .bellSwset .., h => execBellSwset_kept (h := h) ..
  | .bellSrcCfgWrite .., h => execBellSrcCfgWrite_kept (h := h) ..
  | .holdTimerExpiry .., h => execHoldTimerExpiry_kept (h := h) ..
  | .unitFence .., h => execUnitFence_kept (h := h) ..
  | .spareTakeover .., h => execSpareTakeover_kept (h := h) ..
  | .hang .., h => execHang_kept (h := h) ..
  | .watchAck .., h => execWatchAck_kept (h := h) ..
  | .watchFenceClear .., h => execWatchFenceClear_kept (h := h) ..
  | .fenceSelfTestDone .., h => execFenceSelfTestDone_kept (h := h) ..
  | .watchSafeForce .., h => execWatchSafeForce_kept (h := h) ..
  | .safeStateEntry, h => execSafeStateEntry_kept (h := h) ..
  | .lockstep .., h => execLockstep_kept (h := h) ..
  | .ccLostReset .., h => execCcLostReset_kept (h := h) ..
  | .tideLost, h => execTideLost_kept (h := h) ..
  | .watchSelf, h => execWatchSelf_kept (h := h) ..
  | .pathLost .., h => execPathLost_kept (h := h) ..
  | .sndSelWrite .., h => execSndSelWrite_kept (h := h) ..
  | .sndSampleCfgWrite .., h => execSndSampleCfgWrite_kept (h := h) ..
  | .skidSample .., h => execSkidSample_kept (h := h) ..
  | .i2cWrite .., h => execI2cWrite_kept (h := h) ..
  | .i2cRead .., h => execI2cRead_kept (h := h) ..
  | .i2cBusRelease, h => execI2cBusRelease_kept (h := h) ..
  | .hotInsertion .., h => execHotInsertion_kept (h := h) ..
  | .completionDeadline .., h => execCompletionDeadline_kept (h := h) ..
  | .sealLoopClose, h => execSealLoopClose_kept (h := h) ..
  | .buttonRelease, h => execButtonRelease_kept (h := h) ..
  | .customsLost, h => execCustomsLost_kept (h := h) ..
  | .hmLost, h => execHmLost_kept (h := h) ..
  | .configurationRequest .., h => execConfigurationRequest_kept (h := h) ..
  | .singleFeedClears .., h => execSingleFeedClears_kept (h := h) ..
  | .pathLostEnds .., h => execPathLostEnds_kept (h := h) ..
  | .ptpMessageTx .., h => execPtpMessageTx_kept (h := h) ..
  | .ptpDelayMessageRx .., h => execPtpDelayMessageRx_kept (h := h) ..

/-! ### The step -/

/-- A step is a cycle of the clock on an empty queue, and the front command on the rest of another. -/
theorem step_cases {s t : State} (h : step s = .next t) :
    (s.pending = [] ∧ t = s.tick) ∨ ∃ c rest, s.pending = c :: rest ∧ exec c { s with pending := rest } = .next t := by
  unfold step at h
  split at h
  · next hp => exact .inl ⟨hp, (Host.Outcome.next.inj h).symm⟩
  · next c rest hp => exact .inr ⟨c, rest, hp, h⟩

/-- The queue apart, a step keeps what a command keeps. -/
theorem step_kept {s t : State} (h : step s = .next t) : ∃ rest, ({ s with pending := rest } : State).Kept true t := by
  obtain ⟨hp, rfl⟩ | ⟨c, rest, -, hc⟩ := step_cases h
  · refine ⟨s.pending, ?_⟩
    exact State.Kept.lit (State.Kept.refl _) rfl rfl rfl
  · exact ⟨rest, exec_kept c hc⟩

/-- Settles O3: every command keeps memory and registers canonical (`exec_kept`), and the queue is part of neither. -/
theorem stepKeepsCanonicalForm : Obligations.StepKeepsCanonicalForm := by
  intro s t ⟨hmem, hregs⟩ h
  obtain ⟨rest, k⟩ := step_kept h
  exact ⟨k.mem hmem, k.regs hregs⟩

/-- Settles O4. -/
theorem stepKeepsWatchTablesBounded : Obligations.StepKeepsWatchTablesBounded := by
  intro s t ⟨hlog, hactive⟩ h
  obtain ⟨rest, k⟩ := step_kept h
  exact ⟨k.log hlog, k.active hactive⟩

/-- Settles O5. -/
theorem stepKeepsOneClaimPerTarget : Obligations.StepKeepsOneClaimPerTarget := by
  intro s t hone h
  obtain ⟨rest, k⟩ := step_kept h
  exact k.bell hone

/-- Settles O6. -/
theorem commandsLeaveTheQueue : Obligations.CommandsLeaveTheQueue :=
  fun c _ _ h => (exec_kept c h).pending

/-- Settles O8. -/
theorem fusesOnlyRise : Obligations.FusesOnlyRise := by
  intro c s t h
  obtain ⟨hle, hrest⟩ := (exec_kept c h).arc
  exact ⟨hle, congrArg (fun i : Ident => { i with bootArc := s.ident.bootArc }) hrest⟩

theorem step_of_empty_queue {s : State} (hp : s.pending = []) : step s = .next s.tick := by
  unfold step
  rw [hp]

/-- Settles O1: both clauses are the two cases of `step`. -/
theorem stepRunsTheFrontCommand : Obligations.StepRunsTheFrontCommand := by
  refine ⟨fun c rest s => rfl, fun s hp => step_of_empty_queue hp⟩

/-- Settles O2: memory, registers, the queue and the Watch's tables are empty, and no source is claimed. -/
theorem resetMeetsInvariants : Obligations.ResetMeetsInvariants := by
  refine ⟨⟨rfl, rfl⟩, ⟨?log, ?active⟩, ?claims, rfl⟩
  case log => exact Nat.zero_le _
  case active => exact Nat.zero_le _
  case claims =>
    intro j k hj
    exact absurd hj Bool.false_ne_true

end Sys2Proof.Machine

/-! PROOFS. Micro-routines (15_microcode.md: R522 to R547): what a micro-op does to the micro-state of its unit, and that it changes
nothing else. -/

namespace Sys2Proof.Machine

/-! ### The micro-state of one unit -/

@[simp] theorem State.mi_setMi_same (u : Nat) (m : Micro) (s : State) : (s.setMi u m).mi u = m := by
  simp [State.mi, State.setMi, State.setUnitF]

@[simp] theorem Micro.inWindow_setFlags (m : Micro) (f : Nat) : (m.setFlags f).inWindow = m.inWindow := rfl
@[simp] theorem Micro.cycles_setFlags (m : Micro) (f : Nat) : (m.setFlags f).cycles = m.cycles := rfl

@[simp] theorem Micro.inWindow_put (i v : Nat) (m : Micro) : (Micro.put i v m).inWindow = m.inWindow := by
  unfold Micro.put; split <;> rfl
@[simp] theorem Micro.cycles_put (i v : Nat) (m : Micro) : (Micro.put i v m).cycles = m.cycles := by
  unfold Micro.put; split <;> rfl

/-- A register holds 40 bits (R6). -/
@[simp] theorem Micro.put_mod (i v : Nat) (m : Micro) : Micro.put i (v % two40) m = Micro.put i v m := by
  simp only [Micro.put, Nat.mod_mod]

/-- The micro-op of `cost` stays within what a window invocation has left (R546, R547). -/
def Micro.Affords (cost : Nat) (m : Micro) : Prop := m.inWindow = true → m.cycles + cost < 2000

/-! ### Micro-ops change one micro-state and nothing else -/

section Goes

variable {s t : State} {u : Nat} {m : Micro}

theorem State.MicroGoes.refl (s : State) (u : Nat) : s.MicroGoes s u (s.mi u) :=
  ⟨rfl, fun _ _ => rfl, fun _ => rfl, rfl⟩

theorem State.MicroGoes.setMi (m' : Micro) (h : s.MicroGoes t u m) : s.MicroGoes (t.setMi u m') u m' := by
  obtain ⟨-, hother, hrest, ht⟩ := h
  refine ⟨t.mi_setMi_same u m', fun v hv => ?other, fun x => ?rest, ?state⟩
  case other => rw [← hother v hv, State.setMi, State.setUnitF, State.unit_setUnit, if_neg hv]
  case rest => rw [← hrest x, State.setMi, State.setUnitF, State.unit_setUnit_same]
  case state => rw [ht]; rfl

theorem State.microGoes_setMi (s : State) (u : Nat) (m' : Micro) : s.MicroGoes (s.setMi u m') u m' :=
  (State.MicroGoes.refl s u).setMi m'

theorem State.MicroGoes.ran (cost : Nat) (h : s.MicroGoes t u m) (hc : m.Affords cost) :
    s.MicroGoes (t.ran u cost) u (Micro.spend cost m) := by
  have hm := h.1
  cases hw : m.inWindow with
  | false => simpa [State.ran, Micro.spend, hm, hw] using h
  | true => simpa [State.ran, Micro.spend, hm, hw, hc hw] using State.MicroGoes.setMi { m with cycles := m.cycles + cost } h

theorem State.MicroGoes.microNext (cost : Nat) (h : s.MicroGoes t u m) (hc : m.Affords cost) :
    s.MicroGoes (t.microNext u cost) u (Micro.next cost m) := by
  unfold State.microNext Micro.next
  rw [h.1]
  exact (h.setMi _).ran cost hc

/-- A write of a register goes on, in the trap handler for t0 to t3 alone (R536). -/
theorem State.wrReg_eq {i : Nat} (v : Nat) (f : State → State) (hi : (t.mi u).trapped = true → 12 ≤ i) :
    t.wrReg u i v f = f (t.setMi u (Micro.put i v (t.mi u))) := by
  unfold State.wrReg Micro.put
  cases ht : (t.mi u).trapped with
  | false => simp [ht]
  | true => simp [ht, Nat.not_lt.2 (hi ht)]

theorem State.MicroGoes.result {i : Nat} (v cost : Nat) (h : s.MicroGoes t u m) (hi : m.trapped = true → 12 ≤ i)
    (hc : m.Affords cost) : s.MicroGoes (t.result u i v none cost) u (Micro.next cost (Micro.put i v m)) := by
  have hm := h.1
  rw [State.result, State.wrReg_eq _ _ (by rwa [hm]), hm]
  exact (h.setMi _).microNext cost (by simpa [Micro.Affords] using hc)

theorem State.MicroGoes.resultFlags {i : Nat} (v k cost : Nat) (h : s.MicroGoes t u m) (hi : m.trapped = true → 12 ≤ i)
    (hc : m.Affords cost) :
    s.MicroGoes (t.result u i v (some k) cost) u (Micro.next cost ((Micro.put i v m).setFlags k)) := by
  have hm := h.1
  rw [State.result, State.wrReg_eq _ _ (by rwa [hm]), hm]
  simp only [State.mi_setMi_same]
  exact ((h.setMi _).setMi _).microNext cost (by simpa [Micro.Affords] using hc)

end Goes

section Ready

variable {s : State} {u op cost w : Nat}

/-- A unit at a micro-op runs it (R522, R525, R532). -/
theorem State.MicroReady.microOp (f : Nat → State → State) (hop : op < 0x20) (h : s.MicroReady u op cost w) :
    s.microOp u op 0 f = f w s := by
  obtain ⟨hin, hwait, heng, hw, hopc, hbad, -⟩ := h
  have heng' : (s.eng u == .fenced) = false := by simpa using heng
  simp [State.microOp, hin, hwait, heng', hw, hopc, hbad, State.whenB, Nat.not_le.2 hop]

theorem State.MicroReady.affords (h : s.MicroReady u op cost w) : (s.mi u).Affords cost := h.2.2.2.2.2.2

/-- A micro-op of two operands and its flags. -/
theorem State.MicroReady.alu (g : Nat → Nat → Nat × Nat) (h : s.MicroReady u op cost w) (hi : s.MayWrite u (rdOf w)) :
    s.MicroGoes (s.alu u cost g w) u (Micro.next cost ((Micro.put (rdOf w) (g ((s.mi u).reg (raOf w)) ((s.mi u).reg (rbOf w))).1
      (s.mi u)).setFlags (g ((s.mi u).reg (raOf w)) ((s.mi u).reg (rbOf w))).2)) :=
  (State.MicroGoes.refl s u).resultFlags _ _ cost hi h.affords

/-- A logic result is its operands' own value, as a register holds 40 bits. -/
theorem State.MicroReady.logic (g : Nat → Nat → Nat) (h : s.MicroReady u op cost w) (hi : s.MayWrite u (rdOf w)) :
    s.MicroGoes (s.alu u cost (fun a b => logic (g a b)) w) u
      (Micro.next cost ((Micro.put (rdOf w) (g ((s.mi u).reg (raOf w)) ((s.mi u).reg (rbOf w))) (s.mi u)).setFlags
        (zn (g ((s.mi u).reg (raOf w)) ((s.mi u).reg (rbOf w)))))) := by
  have key := h.alu (fun a b => Machine.logic (g a b)) hi
  simpa only [Machine.logic, Micro.put_mod] using key

theorem State.MicroReady.shift (g : Nat → Nat → Nat) (h : s.MicroReady u op 1 w) (hi : s.MayWrite u (rdOf w)) :
    s.MicroGoes (s.shift u g w) u (Micro.next 1 ((Micro.put (rdOf w) (g ((s.mi u).reg (raOf w)) (bits w 5 0)) (s.mi u)).setFlags
      (zn (g ((s.mi u).reg (raOf w)) (bits w 5 0))))) :=
  (State.MicroGoes.refl s u).resultFlags _ _ 1 hi h.affords

end Ready

/-- Settles O51: each arm is the micro-op's function at the unit's operands, through `State.alu`, `State.shift` or a single result. -/
theorem microOpsCompute : Obligations.MicroOpsCompute := by
  unfold Obligations.MicroOpsCompute
  rintro s u w a b d sh i m rfl rfl rfl rfl rfl rfl hi
  have one := State.MicroGoes.refl s u
  refine ⟨?mov, ?ldi, ?shi, ?add, ?sub, ?and, ?or, ?xor, ?min, ?max, ?shl, ?shr, ?sar, ?mul, ?mulh, ?div, ?div0, ?addi⟩
  case div | div0 =>
    intro h hb
    have quotient := h.alu
      (fun a b => if b = 0 then (two40 - 1, zn (two40 - 1) + 8) else (a / b, zn (a / b) + 8 * b2n (s.mi u).v)) hi
    exact ⟨_, congrArg Host.Outcome.next (h.microOp _ (by decide)), by simpa only [hb, if_true, if_false] using quotient⟩
  all_goals intro h; refine ⟨_, congrArg Host.Outcome.next (h.microOp _ (by decide)), ?_⟩
  case mov | ldi | shi => exact one.result _ 1 hi h.affords
  case addi => exact one.resultFlags _ _ 1 hi h.affords
  case shl | shr | sar => exact h.shift _ hi
  case add | sub | mul => exact h.alu _ hi
  case and | or | xor | min | max | mulh => exact h.logic _ hi

end Sys2Proof.Machine

/-! PROOFS. The micro-ops that control a routine (15_microcode.md: R526 to R537, R546, R547): memory spaces, branches, waits, commits,
traps and the end of a routine. -/

namespace Sys2Proof.Machine

/-! ### Memory spaces (R527) -/

section Spaces

variable {s : State} {u w : Nat}

/-- The address of an LD or ST in LOCAL or VIEW, and in memory. -/
def Micro.slot (m : Micro) (w : Nat) : Nat := (m.reg (raOf w) + bits w 7 0) % two40
def Micro.memAddr (m : Micro) (w : Nat) : Nat := (m.reg (raOf w) + bits w 7 0 * 8) % two40

theorem State.ld_local (data : Nat) (h : bits w 9 8 = 0) :
    s.ld u data w = s.result u (rdOf w) ((s.mi u).local (((s.mi u).reg (raOf w) + bits w 7 0) % 1024)) none 2 := by
  simp only [State.ld, h]

theorem State.ld_view_window (data : Nat) (h : bits w 9 8 = 1) (hw : (s.mi u).inWindow = true) (hk : (s.mi u).slot w ≤ 31) :
    s.ld u data w = s.result u (rdOf w) (SMap.get (fun _ => 0) (s.mi u).locals (viewKey ((s.mi u).slot w))) none 2 := by
  have hk' := Nat.not_lt.2 hk
  unfold Micro.slot at hk' ⊢
  simp only [State.ld, h, hw, if_true, hk', if_false]

theorem State.ld_view_loaded (data : Nat) {p : Nat × Nat} (h : bits w 9 8 = 1) (hw : (s.mi u).inWindow = false)
    (hp : (s.mi u).locals.find? (fun p => p.1 = viewKey ((s.mi u).slot w)) = some p) :
    s.ld u data w = s.result u (rdOf w) p.2 none 2 := by
  unfold Micro.slot at hp
  simp only [State.ld, h, hw, hp, Bool.false_eq_true, if_false]

theorem State.ld_misaligned (data : Nat) (h : 2 ≤ bits w 9 8) (ha : (s.mi u).memAddr w % 8 ≠ 0) :
    s.ld u data w = s.memAccess u 1 ((s.mi u).memAddr w) := by
  unfold State.ld
  split
  · omega
  · omega
  · exact if_pos ha

theorem State.ld_device {l : List Nat} {v : State} (data : Nat) (h : 2 ≤ bits w 9 8) (ha : (s.mi u).memAddr w % 8 = 0)
    (ht : s.target ((s.mi u).memAddr w) ≠ .outbound) (hr : s.readMem u ((s.mi u).memAddr w) 8 = (.ok, l, v)) :
    s.ld u data w = v.result u (rdOf w) (leNat l % two40) none 1 := by
  unfold Micro.memAddr at ha ht hr
  unfold State.ld
  split
  · omega
  · omega
  · simp only [ha, ne_eq, not_true_eq_false, if_false, ht, hr]

theorem State.ld_outbound (data : Nat) (h : 2 ≤ bits w 9 8) (ha : (s.mi u).memAddr w % 8 = 0)
    (ht : s.target ((s.mi u).memAddr w) = .outbound) (ho : s.outboundOk = true) :
    s.ld u data w = s.result u (rdOf w) data none 1 := by
  unfold Micro.memAddr at ha ht
  unfold State.ld
  split
  · omega
  · omega
  · simp only [ha, ne_eq, not_true_eq_false, if_false, ht, ho, if_true]

theorem State.st_local (h : bits w 9 8 = 0) :
    s.st u w = (s.setMi u { s.mi u with
      locals := SMap.ins (((s.mi u).reg (raOf w) + bits w 7 0) % 1024) ((s.mi u).reg (rdOf w)) (s.mi u).locals }).microNext u 1 := by
  simp only [State.st, h]

theorem State.st_view (h : bits w 9 8 = 1) (hk : (s.mi u).slot w ≤ 31)
    (hrw : (s.mi u).inWindow = true → viewRw (s.mi u).routine ((s.mi u).slot w) = true) :
    s.st u w = (s.setMi u { s.mi u with
      locals := SMap.ins (viewKey ((s.mi u).slot w)) ((s.mi u).reg (rdOf w)) (s.mi u).locals }).microNext u 1 := by
  have hk' := Nat.not_lt.2 hk
  unfold Micro.slot at hk' hrw ⊢
  cases hw : (s.mi u).inWindow with
  | false => simp only [State.st, h, hw, hk', Bool.false_and, Bool.false_eq_true, if_false]
  | true => simp [State.st, h, hw, hrw hw, hk']

theorem State.st_misaligned (h : 2 ≤ bits w 9 8) (ha : (s.mi u).memAddr w % 8 ≠ 0) :
    s.st u w = s.memAccess u 2 ((s.mi u).memAddr w) := by
  unfold State.st
  split
  · omega
  · omega
  · exact if_pos ha

theorem State.st_device {v : State} (h : 2 ≤ bits w 9 8) (ha : (s.mi u).memAddr w % 8 = 0)
    (ht : s.target ((s.mi u).memAddr w) ≠ .outbound)
    (hr : s.writeMem u ((s.mi u).memAddr w) (leBytes 8 ((s.mi u).reg (rdOf w))) = (.ok, v)) :
    s.st u w = v.microNext u 1 := by
  unfold Micro.memAddr at ha ht hr
  unfold State.st
  split
  · omega
  · omega
  · simp only [ha, ne_eq, not_true_eq_false, if_false, ht, hr]

theorem State.st_outbound (h : 2 ≤ bits w 9 8) (ha : (s.mi u).memAddr w % 8 = 0)
    (ht : s.target ((s.mi u).memAddr w) = .outbound) (ho : s.outboundOk = true) :
    s.st u w = (s.hostWrite ((s.mi u).memAddr w) (leBytes 8 ((s.mi u).reg (rdOf w)))).microNext u 1 := by
  unfold Micro.memAddr at ha ht ⊢
  unfold State.st
  split
  · omega
  · omega
  · simp only [ha, ne_eq, not_true_eq_false, if_false, ht, ho, if_true]

end Spaces

theorem Micro.affords_setFlags (cost f : Nat) (m : Micro) : (m.setFlags f).Affords cost ↔ m.Affords cost := by
  simp only [Micro.Affords, Micro.inWindow_setFlags, Micro.cycles_setFlags]

/-! ### A micro-op in error (R522, R532) -/

section Errors

variable {s : State} {u w : Nat}

theorem State.microOp_uncorrectable (op : Nat) (f : Nat → State → State) (hin : (s.mi u).inRoutine = true)
    (hwait : (s.mi u).waiting = none) (heng : s.eng u ≠ .fenced) (hw : s.csWord u (s.mi u).pc = w) (hop : bits w 23 18 = op) :
    s.microOp u op 2 f = s.fence (0x4010 + s.unitNibble u * 256) 3 0 u := by
  have heng' : (s.eng u == .fenced) = false := by simpa using heng
  simp [State.microOp, hin, hwait, heng', hw, hop]

theorem State.microOp_reserved (op : Nat) (f : Nat → State → State) (hin : (s.mi u).inRoutine = true)
    (hwait : (s.mi u).waiting = none) (heng : s.eng u ≠ .fenced) (hw : s.csWord u (s.mi u).pc = w) (hop : 0x20 ≤ bits w 23 18)
    (hwin : (s.mi u).inWindow = false) : s.microOp u op 0 f = s.illegal u := by
  have heng' : (s.eng u == .fenced) = false := by simpa using heng
  simp [State.microOp, hin, hwait, heng', hw, hop, State.whenB, State.violation, hwin, Nat.not_lt.2 hop]

end Errors

/-! ### Commits (R530, R531) -/

section Goes

variable {s t : State} {u : Nat} {m : Micro}

theorem State.MicroGoes.mem_eq (h : s.MicroGoes t u m) : t.mem = s.mem := by
  rw [h.2.2.2]

theorem State.MicroGoes.rd_eq (h : s.MicroGoes t u m) (o : Nat) : t.rd o = s.rd o := by
  rw [h.2.2.2]
  rfl

/-- The micro-state is no part of what a unit works on. -/
theorem State.MicroGoes.job_eq (h : s.MicroGoes t u m) (v : Nat) : (t.unit v).job = (s.unit v).job := by
  obtain ⟨-, hother, hrest, -⟩ := h
  by_cases hv : v = u
  · subst hv
    exact (congrArg UnitSt.job (hrest m) :)
  · rw [hother v hv]

theorem State.MicroGoes.parent_eq (h : s.MicroGoes t u m) (v : Nat) : (t.unit v).parent = (s.unit v).parent := by
  obtain ⟨-, hother, hrest, -⟩ := h
  by_cases hv : v = u
  · subst hv
    exact (congrArg UnitSt.parent (hrest m) :)
  · rw [hother v hv]

theorem State.topOf_congr {s t : State} (h : ∀ v, (t.unit v).parent = (s.unit v).parent) (fuel v : Nat) :
    t.topOf fuel v = s.topOf fuel v := by
  induction fuel generalizing v with
  | zero => rfl
  | succ fuel ih => simp only [State.topOf, h, ih]

/-- A stop is marked on the job a unit works on, which jobs and parents decide. -/
theorem State.stopMark_congr {s t : State} (hj : ∀ v, (t.unit v).job = (s.unit v).job)
    (hp : ∀ v, (t.unit v).parent = (s.unit v).parent) (v : Nat) : t.stopMark v = s.stopMark v := by
  simp only [State.stopMark, State.workOf, hj, State.topOf_congr hp]

end Goes

section Commit

variable {s : State} {u r : Nat}

/-- What an operation on quays leaves of the state: units, memory and the registers that every unit has (R42). -/
def State.CommitFrame (s t : State) : Prop :=
  t.units = s.units ∧ t.mem = s.mem ∧ ∀ u r, r < 0x100 → t.rd (ucb u r) = s.rd (ucb u r)

theorem State.CommitFrame.trans {s t v : State} (h : s.CommitFrame t) (k : t.CommitFrame v) : s.CommitFrame v :=
  ⟨k.1.trans h.1, k.2.1.trans h.2.1, fun u r hr => (k.2.2 u r hr).trans (h.2.2 u r hr)⟩

/-- A unit-type register is written (R44). -/
theorem State.commitFrame_wr (s : State) {o : Nat} (u v : Nat) (ho : 0x100 ≤ o) (ho' : o < 0x4000) :
    s.CommitFrame (s.wr (ucb u o) v) :=
  ⟨State.wr_units _ v s, State.wr_mem _ v s, fun u' r hr => State.rd_wr_other v s (ucb_ne_ucb u' u (by omega) ho' (by omega))⟩

theorem State.CommitFrame.each {α : Type} {f : α → State → State} (hf : ∀ a, ∀ s : State, s.CommitFrame (f a s)) (l : List α)
    (s : State) : s.CommitFrame (s.each l f) :=
  ⟨State.each_keeps (·.units) l s fun a _ s => (hf a s).1, State.each_keeps (·.mem) l s fun a _ s => (hf a s).2.1, fun u r hr =>
    State.each_keeps (·.rd (ucb u r)) l s fun a _ s => (hf a s).2.2 u r hr⟩

theorem State.commitFrame_setQuay (s : State) (t : Nat) (l : List QuayPic) : s.CommitFrame (s.setQuay t l) :=
  ⟨State.setQuay_units t l s, State.setQuay_mem t l s, fun _ _ _ => State.rd_congr (State.setQuay_regs t l s) _⟩

theorem State.commitFrame_draw (s : State) : s.CommitFrame s.draw.2 :=
  ⟨s.draw_units, s.draw_mem, fun _ _ _ => State.rd_congr s.draw_regs _⟩

theorem State.commitFrame_quayShow (s : State) (t : Nat) : s.CommitFrame (s.quayShow t) := by
  unfold State.quayShow
  refine State.CommitFrame.each (fun p s => ?_) _ s
  exact s.commitFrame_wr p.1 _ (o := Reg.TL_QUAY_STATUS) (by decide) (by decide)

theorem State.commitFrame_quayPut (s : State) (t : Nat) (x : QuayPic) : s.CommitFrame (s.quayPut t x) :=
  (s.commitFrame_setQuay t _).trans (State.commitFrame_quayShow _ t)

theorem State.commitFrame_commitQuay (s : State) (u : Nat) (j : Job) : s.CommitFrame (s.commitQuay u j) := by
  unfold State.commitQuay
  dsimp only
  split
  · exact ⟨rfl, rfl, fun _ _ _ => rfl⟩
  · split
    · exact (s.commitFrame_wr u _ (o := Reg.GT_COMMIT_POS) (by decide) (by decide)).trans (State.commitFrame_quayPut _ _ _)
    · exact State.commitFrame_quayPut _ _ _

/-- Counting a commit leaves the routine's own registers. -/
theorem State.commitFrame_sndCount (s : State) (u ev n : Nat) :
    (s.sndCount u ev n).units = s.units ∧ (s.sndCount u ev n).mem = s.mem
      ∧ ∀ r, r < 0x100 → (s.sndCount u ev n).rd (ucb u r) = s.rd (ucb u r) := by
  have h := s.sndCount_onlyRegs u ev n
  refine ⟨by rw [h], by rw [h], fun r hr => State.rd_sndCount_other ev n s (fun i hi => sndBase_apart_ucb (.inl rfl) hr hi) ?_⟩
  unfold ucb
  simp only [Reg.SND_EVENT]
  omega

/-- The copy of STEP that a commit makes (R530). -/
def State.commitCounted (u : Nat) (s : State) : State :=
  s.wrFld (ucb u Reg.UCB_ROUTINE_STEP) 31 16 (s.fld (ucb u Reg.UCB_ROUTINE_STEP) 15 0)

/-- COMMITS rises with a commit (R530). -/
def State.commitRaised (u : Nat) (s : State) : State :=
  s.wrFld (ucb u Reg.UCB_ROUTINE_STATUS) 15 0 (min 65535 (s.fld (ucb u Reg.UCB_ROUTINE_STATUS) 15 0 + 1))

/-- What a commit records of the unit's position. -/
def State.commitRecord (u : Nat) (s : State) : State :=
  match s.jobAt (s.workOf u) 0x0102 with
  | some j => if unitKind u = some Kind.gantry then s.commitQuay u j else s
  | none =>
    if unitKind u = some Kind.gantry ∧ 64 ≤ (s.mi u).routine then s.draw.2.wr (ucb u Reg.GT_ENC_COMMIT_POS) s.draw.1 else s

/-- The state a commit goes on from: counted, recorded, on to the next micro-op. -/
def State.commitNext (u : Nat) (s : State) : State :=
  (((s.commitCounted u).commitRaised u).sndCount u 7 1 |>.commitRecord u).microNext u 1

theorem State.commitOp_eq (ht : (s.mi u).trapped = false) (hs : (s.commitNext u).stopMark u = none) : s.commitOp u = s.commitNext u := by
  have hopen : s.commitOp u = match (s.commitNext u).stopMark u with
      | some st => (s.commitNext u).abandonJob ((s.commitNext u).workOf u) st
      | none => s.commitNext u := by
    unfold State.commitOp State.commitNext State.commitRecord State.commitRaised State.commitCounted
    exact if_neg (by simp [ht])
  rw [hopen, hs]

theorem State.commitFrame_commitRecord (s : State) (u : Nat) : s.CommitFrame (s.commitRecord u) := by
  unfold State.commitRecord
  split
  · split
    · exact s.commitFrame_commitQuay u _
    · exact ⟨rfl, rfl, fun _ _ _ => rfl⟩
  · split
    · exact s.commitFrame_draw.trans (s.draw.2.commitFrame_wr u _ (o := Reg.GT_ENC_COMMIT_POS) (by decide) (by decide))
    · exact ⟨rfl, rfl, fun _ _ _ => rfl⟩

/-- A commit outside the window, with no stop asked for: STEP is copied, COMMITS rises, and the routine goes on. -/
theorem State.commitOp_effect (ht : (s.mi u).trapped = false) (hw : (s.mi u).inWindow = false) (hs : s.stopMark u = none) :
    (s.commitOp u).mi u = Micro.next 1 (s.mi u)
      ∧ (s.commitOp u).fld (ucb u Reg.UCB_ROUTINE_STEP) 31 16 = s.fld (ucb u Reg.UCB_ROUTINE_STEP) 15 0
      ∧ (s.commitOp u).fld (ucb u Reg.UCB_ROUTINE_STATUS) 15 0 = min 65535 (s.fld (ucb u Reg.UCB_ROUTINE_STATUS) 15 0 + 1)
      ∧ (s.commitOp u).mem = s.mem := by
  obtain ⟨v, hv⟩ : ∃ v : State, v = ((s.commitCounted u).commitRaised u).sndCount u 7 1 := ⟨_, rfl⟩
  obtain ⟨hunits2, hmem2, hrd2⟩ := ((s.commitCounted u).commitRaised u).commitFrame_sndCount u 7 1
  obtain ⟨hunits3, hmem3, hrd3⟩ := v.commitFrame_commitRecord u
  rw [← hv, State.commitRaised, State.wrFld_units, State.commitCounted, State.wrFld_units] at hunits2
  rw [← hv, State.commitRaised, State.wrFld_mem, State.commitCounted, State.wrFld_mem] at hmem2
  rw [← hv] at hrd2
  have hunit (w : Nat) : (v.commitRecord u).unit w = s.unit w := by rw [State.unit, hunits3, hunits2, State.unit]
  have hmi : (v.commitRecord u).mi u = s.mi u := congrArg UnitSt.micro (hunit u)
  have hnext : s.commitNext u = (v.commitRecord u).microNext u 1 := by rw [hv]; rfl
  have goes : (v.commitRecord u).MicroGoes (s.commitNext u) u (Micro.next 1 (s.mi u)) := by
    rw [hnext, ← hmi]
    exact (State.MicroGoes.refl (v.commitRecord u) u).microNext 1 (by rw [Micro.Affords, hmi, hw]; exact fun h => absurd h Bool.false_ne_true)
  have hstop : (s.commitNext u).stopMark u = none :=
    (State.stopMark_congr (fun w => (goes.job_eq w).trans (by rw [hunit])) (fun w => (goes.parent_eq w).trans (by rw [hunit])) u).trans hs
  have hrd (x : Nat) (hx : x < 0x100) : (s.commitNext u).rd (ucb u x) = ((s.commitCounted u).commitRaised u).rd (ucb u x) :=
    (goes.rd_eq _).trans ((hrd3 u x hx).trans (hrd2 x hx))
  have hne : ucb u Reg.UCB_ROUTINE_STATUS ≠ ucb u Reg.UCB_ROUTINE_STEP := ucb_ne_ucb u u (by decide) (by decide) (by decide)
  rw [State.commitOp_eq ht hstop]
  refine ⟨goes.1, ?step, ?commits, goes.mem_eq.trans (hmem3.trans hmem2)⟩
  case step =>
    rw [State.fld_congr (hrd _ (by decide)), State.commitRaised, State.fld_congr (State.rd_wrFld_other 15 0 _ _ hne.symm), State.commitCounted,
      State.fld_wrFld_same _ _ s (by decide) (by decide), State.fld, bits]
    exact Nat.mod_mod _ _
  case commits =>
    have hr1 : (s.commitCounted u).fld (ucb u Reg.UCB_ROUTINE_STATUS) 15 0 = s.fld (ucb u Reg.UCB_ROUTINE_STATUS) 15 0 :=
      State.fld_congr (State.rd_wrFld_other 31 16 _ s hne) 15 0
    rw [State.fld_congr (hrd _ (by decide)), State.commitRaised, State.fld_wrFld_same _ _ _ (by decide) (by decide), hr1]
    exact Nat.mod_eq_of_lt (by omega)

end Commit

/-! ### Micro-traps (R534 to R537) -/

section Traps

variable {s : State} {u : Nat}

/-- The micro-state with a trap taken. -/
def Micro.trap (k : Nat) (m : Micro) : Micro :=
  { m with
    trapped := true, shadowPc := m.pc, shadowFlags := m.flags, shadowStack := m.stack, shadowWait := m.waiting
    waiting := none, stack := [], pc := 0xFE, t := SMap.ins 0 k m.t, causes := m.causes - 2 ^ k }

theorem State.takeTrap_idle (h : (s.mi u).causes = 0) : s.takeTrap u = s := by
  simp [State.takeTrap, h]

theorem State.takeTrap_eq {k : Nat} (h : [1, 2, 3, 4].find? (fun j => (s.mi u).causes.testBit j) = some k) :
    s.takeTrap u = ((s.setMi u ((s.mi u).trap k)).sndCount u 6 1).whenB (k = 3) (State.sndCount u 0x303 1) := by
  simp only [State.takeTrap, h, Micro.trap]

/-- One of the four causes alone is the one taken. -/
theorem firstCause {k : Nat} (h1 : 1 ≤ k) (h4 : k ≤ 4) : [1, 2, 3, 4].find? (fun j => (2 ^ k).testBit j) = some k := by
  interval_cases k <;> rfl

/-- A taken trap is counted among the soundings, which changes registers alone. -/
theorem State.takeTrap_onlyRegs {k : Nat} (h : [1, 2, 3, 4].find? (fun j => (s.mi u).causes.testBit j) = some k) :
    (s.setMi u ((s.mi u).trap k)).OnlyRegs (s.takeTrap u) := by
  rw [State.takeTrap_eq h]
  exact (State.sndCount_onlyRegs u 6 1 _).whenB _ fun s => s.sndCount_onlyRegs u 0x303 1

/-- A cause that arises in a routine is taken at once when none stands before it. -/
theorem State.microTrap_onlyRegs {k : Nat} (h1 : 1 ≤ k) (h4 : k ≤ 4) (hk : k = 3 → unitKind u = some .pilot)
    (hin : (s.mi u).inRoutine = true) (heng : s.eng u ≠ .fenced) (ht : (s.mi u).trapped = false) (hc : (s.mi u).causes = 0) :
    ((s.setMi u { s.mi u with causes := 2 ^ k }).setMi u (Micro.trap k { s.mi u with causes := 2 ^ k })).OnlyRegs
      (s.microTrap u k) := by
  have heng' : (s.eng u == .fenced) = false := by simpa using heng
  have hout : outside 1 4 k = false := by simp [outside, h4, Nat.one_le_iff_ne_zero.1 h1]
  have hpilot : (decide (k = 3) && unitKind u != some .pilot) = false := by
    by_cases h3 : k = 3
    · simp [hk h3]
    · simp [h3]
  have htrap : s.microTrap u k = (s.setMi u { s.mi u with causes := 2 ^ k }).takeTrap u := by
    simp [State.microTrap, hin, heng', hout, hpilot, ht, hc]
  rw [htrap]
  have key := State.takeTrap_onlyRegs (s := s.setMi u { s.mi u with causes := 2 ^ k }) (u := u) (k := k)
    (by rw [State.mi_setMi_same]; exact firstCause h1 h4)
  rwa [State.mi_setMi_same] at key

theorem State.OnlyRegs.mi_eq {s t : State} (h : s.OnlyRegs t) (u : Nat) : t.mi u = s.mi u := by
  rw [h]
  rfl

theorem State.OnlyRegs.mem_eq {s t : State} (h : s.OnlyRegs t) : t.mem = s.mem := by
  rw [h]

end Traps

/-- Settles O52: each arm is the micro-op's own effect on a unit that is ready for it. -/
theorem microOpsControl : Obligations.MicroOpsControl := by
  unfold Obligations.MicroOpsControl
  rintro s u w m rfl
  have one := State.MicroGoes.refl s u
  have ran {op cost t} (f : Nat → State → State) (m : Micro) (hop : op < 0x20) (h : s.MicroReady u op cost w) (ht : f w s = t)
      (goes : s.MicroGoes t u m) : 
      ∃ t, (Host.Outcome.next (s.microOp u op 0 f) : Host.Outcome State Fault Refusal) = .next t ∧ s.MicroGoes t u m :=
    ⟨t, congrArg Host.Outcome.next ((h.microOp f hop).trans ht), goes⟩
  refine ⟨?nop, ?cmp, ?cmpi, ?ldLocal, ?ldView, ?ldMem, ?stLocal, ?stView, ?stMem, ?br, ?brNot, ?call, ?ret, ?wait, ?hold,
    ?waitSatisfied, ?step, ?commit, ?issue, ?done, ?trapret, ?exit, ?trap, ?uncorrectable, ?reserved⟩
  case nop => exact fun h => ran _ _ (by decide) h rfl (one.microNext 1 h.affords)
  case issue => exact fun h => ran _ _ (by decide) h rfl (one.microNext 1 h.affords)
  case cmp => exact fun h => ran _ _ (by decide) h rfl ((one.setMi _).microNext 1 ((Micro.affords_setFlags _ _ _).2 h.affords))
  case cmpi => exact fun h => ran _ _ (by decide) h rfl ((one.setMi _).microNext 1 ((Micro.affords_setFlags _ _ _).2 h.affords))
  case ldLocal =>
    exact fun h hsp hi x => ran _ _ (by decide) h (State.ld_local x hsp) (one.result _ 2 hi h.affords)
  case ldView =>
    rintro h hsp hi k x rfl
    exact ⟨fun hw hk => ran _ _ (by decide) h (State.ld_view_window x hsp hw hk) (one.result _ 2 hi h.affords),
      fun hw p hp => ran _ _ (by decide) h (State.ld_view_loaded x hsp hw hp) (one.result _ 2 hi h.affords)⟩
  case ldMem =>
    rintro h hsp a x rfl
    have hld {t} (ht : s.ld u x w = t) : exec (.ld u 0 x) s = .next t :=
      congrArg Host.Outcome.next ((h.microOp _ (by decide)).trans ht)
    exact ⟨fun ha => hld (State.ld_misaligned x hsp ha), fun ha ht l v hr => hld (State.ld_device x hsp ha ht hr),
      fun ha ht ho => hld (State.ld_outbound x hsp ha ht ho)⟩
  case stLocal =>
    exact fun h hsp => ran _ _ (by decide) h (State.st_local hsp) ((one.setMi _).microNext 1 h.affords)
  case stView =>
    rintro h hsp k rfl hk hrw
    exact ran _ _ (by decide) h (State.st_view hsp hk hrw) ((one.setMi _).microNext 1 h.affords)
  case stMem =>
    rintro h hsp a rfl
    have hst {t} (ht : s.st u w = t) : exec (.st u 0) s = .next t :=
      congrArg Host.Outcome.next ((h.microOp _ (by decide)).trans ht)
    exact ⟨fun ha => hst (State.st_misaligned hsp ha), fun ha ht v hr => hst (State.st_device hsp ha ht hr),
      fun ha ht ho => hst (State.st_outbound hsp ha ht ho)⟩
  case br =>
    exact fun h hc => ran _ _ (by decide) h (if_pos hc) ((one.setMi _).ran 2 h.affords)
  case brNot =>
    exact fun h hc => ran _ _ (by decide) h (if_neg (by simp [hc])) (one.microNext 1 h.affords)
  case call =>
    intro h hc hdepth
    refine ran _ _ (by decide) h ?_ ((one.setMi _).ran 2 h.affords)
    rw [State.callOp, if_neg (by simp [hc]), if_neg (Nat.not_le.2 hdepth)]
  case ret =>
    intro h a l hstack
    refine ran _ _ (by decide) h ?_ ((one.setMi _).ran 2 h.affords)
    simp only [State.retOp, hstack]
  case wait =>
    exact fun h hc => ran _ _ (by decide) h (if_pos hc) (one.microNext 1 h.affords)
  case hold =>
    exact fun h hc => ran _ _ (by decide) h (if_neg (by simp [hc])) (one.setMi _)
  case waitSatisfied =>
    intro x hx hw hc
    refine ⟨_, congrArg Host.Outcome.next ?_, (one.setMi _).microNext 1 (fun h => absurd (hw.symm.trans h) Bool.false_ne_true)⟩
    simp only [State.waitDone, hx, hc, if_true]
  case step =>
    intro h ht
    refine congrArg Host.Outcome.next ((h.microOp _ (by decide)).trans ?_)
    rw [State.stepOp, if_neg (by simp [ht])]
  case commit =>
    intro h ht hw hstop
    exact ⟨_, congrArg Host.Outcome.next (h.microOp _ (by decide)), State.commitOp_effect ht hw hstop⟩
  case done =>
    intro h ht hjob
    refine congrArg Host.Outcome.next ((h.microOp _ (by decide)).trans ?_)
    have hjob' : ((s.setMi u { s.mi u with inRoutine := false }).unit (s.workOf u)).job = none :=
      ((one.setMi _).job_eq _).trans hjob
    rw [State.doneOp, if_neg (by simp [ht])]
    exact if_pos (by rw [hjob']; rfl)
  case trapret =>
    intro h ht hc
    refine ran _ _ (by decide) h ?_ (one.setMi _)
    rw [State.trapret, if_neg (by simp [ht]), State.takeTrap_idle (by simpa [Micro.setFlags] using hc)]
  case exit =>
    intro h hw
    refine congrArg Host.Outcome.next ((h.microOp _ (by decide)).trans ?_)
    have hcycles := h.affords hw
    rw [State.exitOp, if_neg (by simp [hw]), if_neg (by omega)]
  case trap =>
    intro k h1 h4 hk hin heng ht hc
    have only := State.microTrap_onlyRegs h1 h4 hk hin heng ht hc
    have hmi := only.mi_eq u
    rw [State.mi_setMi_same] at hmi
    exact ⟨_, rfl, by rw [hmi]; rfl, by rw [hmi]; rfl, by rw [hmi]; rfl, by rw [hmi]; rfl, by rw [hmi]; rfl, by rw [hmi]; rfl,
      only.mem_eq⟩
  case uncorrectable =>
    exact fun hin hwait heng hop hw => congrArg Host.Outcome.next (State.microOp_uncorrectable _ _ hin hwait heng hw hop)
  case reserved =>
    exact fun hin hwait heng hwin hw hop => congrArg Host.Outcome.next (State.microOp_reserved _ _ hin hwait heng hw hop hwin)

end Sys2Proof.Machine

/-! PROOFS. The tide clock and its servo (03_tide.md: R116 to R149): rebases and rates keep device time, a change of the servo's mode
touches its own status alone, and each event of the clock's inputs and outputs has its effect. -/

namespace Sys2Proof.Machine

namespace State

/-! ### Pairs of 64 bits (R119) -/

theorem rd64_wr64_same (o v : Nat) (s : State) : (s.wr64 o v).rd64 o = v % 2 ^ 64 := by
  rw [State.rd64, State.wr64, State.rd_wr_same, State.rd_wr_other _ _ (by omega), State.rd_wr_same]
  unfold two32
  omega

theorem rd64_congr {s t : State} {o : Nat} (h : t.rd o = s.rd o) (h4 : t.rd (o + 4) = s.rd (o + 4)) : t.rd64 o = s.rd64 o := by
  rw [State.rd64, State.rd64, h, h4]

theorem rd64_lt (s : State) (o : Nat) : s.rd64 o < 2 ^ 64 := by
  have hlo := s.rd_lt o
  have hhi := s.rd_lt (o + 4)
  unfold State.rd64 two32
  omega

theorem rd64_wr64_other {o p : Nat} (v : Nat) (s : State) (h : p + 4 < o ∨ o + 4 < p) : (s.wr64 o v).rd64 p = s.rd64 p := by
  rw [State.rd64, State.rd64, State.wr64, State.rd_wr_other _ _ (by omega), State.rd_wr_other _ _ (by omega),
    State.rd_wr_other _ _ (by omega), State.rd_wr_other _ _ (by omega)]

theorem rd64_wr_other {o p : Nat} (v : Nat) (s : State) (h : p ≠ o) (h4 : p + 4 ≠ o) : (s.wr o v).rd64 p = s.rd64 p := by
  rw [State.rd64, State.rd64, State.rd_wr_other _ _ h, State.rd_wr_other _ _ h4]

theorem rd_wr40_other {o p : Nat} (v : Nat) (s : State) (h : p ≠ o) (h4 : p ≠ o + 4) : (s.wr40 o v).rd p = s.rd p := by
  rw [State.wr40, State.rd_wr_other _ _ h4, State.rd_wr_other _ _ h]

theorem rd_runtimeChanged_other {p : Nat} (img : Bool) (s : State) (h : p ≠ Reg.CFG_STATUS) : (s.runtimeChanged img).rd p = s.rd p := by
  unfold State.runtimeChanged
  split
  · exact State.rd_setBit_other _ s h
  · rfl

theorem runtimeChanged_onlyRegs (img : Bool) (s : State) : s.OnlyRegs (s.runtimeChanged img) := by
  unfold State.runtimeChanged
  split
  · exact (OnlyRegs.refl s).setBit _ _
  · exact OnlyRegs.refl s

end State

/-! ### Device time (R115 to R118) -/

theorem TideSt.readTime_fst_lt (t : TideSt) : t.readTime.1 < 2 ^ 64 := Nat.mod_lt _ (Nat.two_pow_pos _)

theorem TideSt.readTime_snd_lt (t : TideSt) : t.readTime.2 < two40 := Nat.mod_lt _ (by decide)

/-- At its base the clock shows its offset, whatever the rate. -/
theorem TideSt.readTime_of_base_eq {t : TideSt} (hb : t.base = t.count) (hn : t.offNs < 2 ^ 64) (hf : t.offSub < two40) :
    t.readTime = (t.offNs, t.offSub) := by
  have hd : (t.count + 2 ^ 64 - t.base) % 2 ^ 64 = 0 := by omega
  unfold TideSt.readTime
  simp only [hd, Nat.zero_mul, Nat.add_zero, Nat.div_eq_of_lt hf, Nat.mod_eq_of_lt hf, Nat.mod_eq_of_lt hn]

namespace State

/-- A rebase makes the offset what device time is, so a new rate acts from there on and moves nothing (R116, R117). -/
theorem readTime_rebase_rate (r : Int) (s : State) : ({ s.rebase.tide with rate := r } : TideSt).readTime = s.tide.readTime :=
  TideSt.readTime_of_base_eq rfl s.tide.readTime_fst_lt s.tide.readTime_snd_lt

theorem readTime_noteRate (s : State) : s.noteRate.tide.readTime = s.tide.readTime := rfl

theorem readTime_setRate (r : Int) (s : State) : (s.setRate r).tide.readTime = s.tide.readTime :=
  (s.noteRate.readTime_rebase_rate _).trans s.readTime_noteRate

theorem rate_setRate (r : Int) (s : State) : (s.setRate r).tide.rate = clamp (-rateLimit) rateLimit r := rfl

theorem rd_setRate_other {p : Nat} (r : Int) (s : State) (hlo : p ≠ Reg.TIDE_RATE_FRAC_LO) (hhi : p ≠ Reg.TIDE_RATE_FRAC_HI) :
    (s.setRate r).rd p = s.rd p :=
  State.rd_wr40_other _ _ hlo hhi

end State

/-- Settles O28: a rate comes into force in a cycle that rebases, and at its base the clock shows its offset. -/
theorem rateChangesAndRebasesKeepTime : Obligations.RateChangesAndRebasesKeepTime := by
  refine ⟨fun s agent v harm hman => ?_, fun s => ⟨s.rebase, rfl, s.readTime_rebase_rate s.tide.rate, rfl, rfl⟩⟩
  have honly := ((s.setRate (signed 40 v)).committed Reg.TIDE_RATE_FRAC_LO).runtimeChanged_onlyRegs false
  have hexec : s.rateCommit agent v = ((s.setRate (signed 40 v)).committed Reg.TIDE_RATE_FRAC_LO).runtimeChanged false := by
    simp [State.rateCommit, State.servoMan, harm, hman]
  refine ⟨_, congrArg Host.Outcome.next hexec, ?_⟩
  have htide : (((s.setRate (signed 40 v)).committed Reg.TIDE_RATE_FRAC_LO).runtimeChanged false).tide
      = (s.setRate (signed 40 v)).tide := (congrArg State.tide honly :)
  have hmem : (((s.setRate (signed 40 v)).committed Reg.TIDE_RATE_FRAC_LO).runtimeChanged false).mem = s.mem :=
    (congrArg State.mem honly :)
  rw [htide, hmem]
  refine ⟨s.rate_setRate _, s.readTime_setRate _, rfl, fun o hlo hhi hcfg => ?_, fun a => rfl⟩
  rw [State.rd_runtimeChanged_other _ _ hcfg]
  exact s.rd_setRate_other _ hlo hhi

/-- Settles O29: each of the four records is written once and apart from the others. -/
theorem captureRecordsOneInstant : Obligations.CaptureRecordsOneInstant := by
  intro s agent v harm hv
  have hexec : s.captureWrite agent v = s.capture := by simp [State.captureWrite, harm, hv]
  have hmem : s.capture.mem = s.mem :=
    (((((State.OnlyRegs.refl s).wr64 _ _).wr64 _ _).wr _ _).wr64 _ _ : s.OnlyRegs s.capture).mem_eq
  refine ⟨_, congrArg Host.Outcome.next hexec, ?_, ?_, ?_, ?_, fun o ho => ?_, fun a => by rw [hmem]⟩
  · rw [State.capture, State.rd64_wr64_other _ _ (by decide), State.rd64_wr_other _ _ (by decide) (by decide),
      State.rd64_wr64_other _ _ (by decide), State.rd64_wr64_same]
  · rw [State.capture, State.rd64_wr64_other _ _ (by decide), State.rd64_wr_other _ _ (by decide) (by decide), State.rd64_wr64_same]
    exact Nat.mod_eq_of_lt s.tide.readTime_fst_lt
  · rw [State.capture, State.rd64_wr64_same]
    exact Nat.mod_eq_of_lt (s.rd64_lt _)
  · have hlt : s.tide.readTime.2 / 256 < 2 ^ 32 := by
      have := s.tide.readTime_snd_lt
      unfold two40 at this
      omega
    rw [State.capture, State.rd_wr64_other _ _ (by decide) (by decide), State.rd_wr_same, Nat.mod_eq_of_lt hlt]
  · have hne : ∀ k, k < 28 → o ≠ Reg.TIDE_CAP_COUNT_W0 + k := by omega
    rw [State.capture, State.rd_wr64_other _ _ (hne 20 (by decide)) (hne 24 (by decide)), State.rd_wr_other _ _ (hne 16 (by decide)),
      State.rd_wr64_other _ _ (hne 8 (by decide)) (hne 12 (by decide)), State.rd_wr64_other _ _ (hne 0 (by decide)) (hne 4 (by decide))]

/-- Settles O31: time passes to the instant, and the output is a field of the clock. -/
theorem timingOutputsFollowTheClock : Obligations.TimingOutputsFollowTheClock := by
  refine ⟨fun s hout => ?_, fun s hen hservo => ?_, fun s hoff => ?_, fun s hout => ?_⟩
  · exact ⟨_, congrArg Host.Outcome.next (if_neg (by simp [hout])), rfl, rfl⟩
  · exact ⟨_, congrArg Host.Outcome.next (if_pos (Bool.and_eq_true_iff.2 ⟨hen, decide_eq_true hservo⟩)), rfl, rfl⟩
  · refine congrArg Host.Outcome.next (if_neg fun h => ?_)
    obtain ⟨hen, hservo⟩ := Bool.and_eq_true_iff.1 h
    exact hoff.elim (fun h0 => absurd (h0.symm.trans hen) (by decide)) (fun h0 => of_decide_eq_true hservo h0)
  · exact ⟨_, congrArg Host.Outcome.next (if_neg (by simp [hout])), rfl, rfl⟩

/-! ### Servo modes (R138 to R149) -/

namespace State

theorem rd_setServo_other {p : Nat} (m : Nat) (s : State) (hs : p ≠ Reg.TIDE_STATUS) (he : p ≠ Reg.TIDE_EVENT) :
    (s.setServo m).rd p = s.rd p := by
  unfold State.setServo
  extract_lets old n c s1 s2 s3
  have h2 : s2.rd p = s.rd p := by
    rw [State.rd_setBit_other _ _ he, State.rd_wrFld_other _ _ _ _ hs]
    rfl
  have h3 : s3.rd p = s.rd p := by
    simp only [s3]
    split
    · rw [State.rd_clrBit_other _ _ hs, State.rd_clrBit_other _ _ hs, h2]
    · exact h2
  split
  · rfl
  · split
    · rw [State.rd_clrBit_other _ _ hs, h3]
    · exact h3

/-- An event that is set stays set. -/
theorem bit_event_setServo {b : Nat} (m : Nat) (s : State) (h : s.bit Reg.TIDE_EVENT b = true) :
    (s.setServo m).bit Reg.TIDE_EVENT b = true := by
  unfold State.setServo
  extract_lets old n c s1 s2 s3
  have h2 : s2.bit Reg.TIDE_EVENT b = true := by
    have h1 : s1.bit Reg.TIDE_EVENT b = true := h
    rw [State.bit_setBit _ _ (by decide), State.bit_other (State.rd_wrFld_other _ _ _ _ (by decide)), h1, Bool.or_true]
  have h3 : s3.bit Reg.TIDE_EVENT b = true := by
    simp only [s3]
    split
    · rw [State.bit_clrBit_other _ _ _ (by decide), State.bit_clrBit_other _ _ _ (by decide), h2]
    · exact h2
  split
  · exact h
  · split
    · rw [State.bit_clrBit_other _ _ _ (by decide), h3]
    · exact h3

/-- A change of mode leaves everything but the registers and the clock's records of the mode. -/
theorem setServo_keeps (m : Nat) (s : State) :
    s.setServo m = { s with
      regs := (s.setServo m).regs
      tide := { s.tide with
        run := (s.setServo m).tide.run, acq := (s.setServo m).tide.acq
        hist := (s.setServo m).tide.hist, histAt := (s.setServo m).tide.histAt } } := by
  unfold State.setServo
  extract_lets old n c s1 s2 s3
  have h3 : s3 = { s1 with regs := s3.regs } := by
    simp only [s3]
    split <;> rfl
  split
  · rfl
  · split
    · rw [h3]; rfl
    · rw [h3]; rfl

/-- An accepted step changes the clock and its own bits of status and event; the servo's mode is no part of them (R148). -/
theorem rd_acceptStep_other {p : Nat} (n : Int) (s : State) (hs : p ≠ Reg.TIDE_STATUS) (he : p ≠ Reg.TIDE_EVENT) :
    (s.acceptStep n).rd p = s.rd p := by
  unfold State.acceptStep
  split
  · exact State.rd_setBit_other _ _ hs
  · exact State.rd_setBit_other _ _ he

theorem servo_acceptStep (n : Int) (s : State) : (s.acceptStep n).servo = s.servo := by
  unfold State.acceptStep
  split
  · exact State.fld_wrFld_apart _ _ _ (by decide) (by decide) (by decide) (by decide)
  · exact State.fld_congr (State.rd_setBit_other _ _ (by decide)) _ _

theorem servoMan_acceptStep (n : Int) (s : State) : (s.acceptStep n).servoMan = s.servoMan :=
  State.bit_other (s.rd_acceptStep_other n (by decide) (by decide)) 4

/-- Out of HOLDOVER: the mode is the new one, and JUMP_REFUSED is clear (R138, R140). -/
theorem setServo_from_holdover {m : Nat} {s : State} (h4 : s.servo = 4) (hm : m < 3) :
    (s.setServo m).servo = m ∧ (s.setServo m).bit Reg.TIDE_STATUS 4 = false := by
  unfold State.setServo
  extract_lets old n c s1 s2 s3
  have hs3 : s3 = (s2.clrBit Reg.TIDE_STATUS 4).clrBit Reg.TIDE_STATUS 5 := if_pos h4
  have hfld : s2.fld Reg.TIDE_STATUS 2 0 = m := by
    rw [State.fld_congr (s := s1.wrFld Reg.TIDE_STATUS 2 0 m) (State.rd_setBit_other _ _ (by decide)),
      State.fld_wrFld_same _ _ _ (by decide) (by decide), Nat.mod_eq_of_lt (by omega)]
  have hold : old ≠ m := fun h => by
    have : old = 4 := h4
    omega
  rw [if_neg hold, if_neg (by omega), hs3]
  refine ⟨?_, ?_⟩
  · rw [State.servo, State.clrBit, State.fld_wrFld_apart _ _ _ (by decide) (by decide) (by decide) (by decide), State.clrBit,
      State.fld_wrFld_apart _ _ _ (by decide) (by decide) (by decide) (by decide), hfld]
  · rw [State.bit_clrBit _ _ (by decide), State.bit_clrBit_same _ (by decide)]
    rfl

end State

/-- Settles O33. -/
theorem correctionsAreAccepted : Obligations.CorrectionsAreAccepted := by
  refine ⟨fun s agent harm hj hc => ?_, fun s agent harm hj hc => ?_, fun s agent harm hj => ?_, fun s agent harm hj href h4 => ?_,
    fun s agent v harm hman => ?_, fun s agent v harm hman hsrc h0 => ?_, fun s agent v harm hman hsrc => ?_⟩
  · refine congrArg Host.Outcome.next ?_
    simp only [State.stepAccept, harm, hj]
    exact if_neg (not_lt.2 hc)
  · refine congrArg Host.Outcome.next ?_
    simp only [State.stepAccept, harm, hj]
    exact if_pos hc
  · refine ⟨congrArg Host.Outcome.next ?_, congrArg Host.Outcome.next ?_⟩ <;> simp [State.stepAccept, harm, hj]
  · obtain ⟨r, hr⟩ : ∃ r, r = (if s.tide.corr < 0 then s.tide.estimate + ppm (s.fld Reg.TIDE_SLEW_MAX 7 0)
        else if 0 < s.tide.corr then s.tide.estimate - ppm (s.fld Reg.TIDE_SLEW_MAX 7 0) else s.tide.estimate) := ⟨_, rfl⟩
    obtain ⟨u, hu⟩ : ∃ u : State, u = { s.setRate r with tide := { (s.setRate r).tide with slewing := true, slewJump := true } } :=
      ⟨_, rfl⟩
    have hexec : s.stepAccept agent 2 = u.setServo 2 := by
      simp only [State.stepAccept, harm, hj, href, hu, hr]
      rfl
    have hkeep := u.setServo_keeps 2
    have hservo : u.servo = 4 := by
      subst hu
      exact (State.fld_congr (s.rd_setRate_other r (by decide) (by decide)) 2 0).trans h4
    have hrate : (u.setServo 2).tide.rate = clamp (-137438953) 137438953 r := by
      rw [hkeep, hu]
      exact s.rate_setRate r
    have htime : (u.setServo 2).tide.readTime = s.tide.readTime := by
      rw [hkeep, hu]
      exact s.readTime_setRate r
    have hslew : (u.setServo 2).tide.slewing = true := by rw [hkeep, hu]
    refine ⟨_, congrArg Host.Outcome.next hexec, (State.setServo_from_holdover hservo (by decide)).1, hslew,
      (State.setServo_from_holdover hservo (by decide)).2, htime, fun hneg => ?_, fun hpos => ?_⟩
    · rw [hrate, hr, if_pos hneg]
    · rw [hrate, hr, if_neg (by omega), if_pos hpos]
  · refine congrArg Host.Outcome.next ?_
    simp [State.adjCommit, harm, hman, State.servoMan_acceptStep]
  · refine congrArg Host.Outcome.next ?_
    simp [State.adjCommit, harm, hman, hsrc, h0, State.servoMan_acceptStep, State.servo_acceptStep]
  · refine congrArg Host.Outcome.next ?_
    simp [State.adjCommit, harm, hman, hsrc]

/-- Settles O34: each event whose guard holds is its own chain of updates. -/
theorem holdoverExpiryAndReferenceLoss : Obligations.HoldoverExpiryAndReferenceLoss := by
  refine ⟨fun s h4 h5 => ?_, fun s href => ⟨fun h6 => ?_, fun h6 => ?_⟩⟩
  · exact congrArg Host.Outcome.next (if_neg (by simp [h4, h5]))
  · exact congrArg Host.Outcome.next (if_neg (by simp [href, h6]))
  · exact congrArg Host.Outcome.next (if_neg (by simp [href, h6]))

/-! ### Masters and messages (R134 to R146) -/

namespace State

theorem masterGone_eq {s : State} (hman : s.servoMan = false) (hoff : s.servoOff = false) :
    s.masterGone = if s.servo = 1 then s.freerun else if s.servo = 2 ∨ s.servo = 3 then s.holdover else s := by
  simp only [State.masterGone, hman, hoff, Bool.or_self, Bool.false_eq_true, if_false]
  split <;> simp_all

theorem afterServo_eq {s : State} (h : s.boot.phase ≠ .waitPtp) : s.afterServo = s := if_neg fun hp => h hp.1

/-- The servo's registers are those of its status and event: a new master's identity stays, and MASTER_CHANGE with it. -/
theorem ptpAnnounce_replaces {s : State} {port id pn steps old : Nat} (hon : s.ptpOn port = true) (hold : s.tide.master = some old)
    (hne : old ≠ id) :
    (s.ptpAnnounce port id pn steps 1).tide.master = some id ∧ (s.ptpAnnounce port id pn steps 1).bit Reg.TIDE_EVENT 3 = true
      ∧ (s.ptpAnnounce port id pn steps 1).rd64 Reg.TIDE_MASTER_ID_W0 = id % 2 ^ 64
      ∧ (s.ptpAnnounce port id pn steps 1).mem = s.mem := by
  obtain ⟨w, hw⟩ : ∃ w : State, w = s.setBit Reg.TIDE_EVENT 3 := ⟨_, rfl⟩
  obtain ⟨v, hv⟩ : ∃ v : State, v = { w with tide := { w.tide with master := some id, masterUp := true } } := ⟨_, rfl⟩
  obtain ⟨u, hu⟩ : ∃ u : State, u = ((v.clrBit Reg.TIDE_STATUS 10).wr64 Reg.TIDE_MASTER_ID_W0 id).wr Reg.TIDE_MASTER_PORT
      (pn % 65536 + min 255 steps * 65536 + port * 2 ^ 24) := ⟨_, rfl⟩
  have hann : s.ptpAnnounce port id pn steps 1 = if u.servo = 0 && u.tideSource = 0 && !u.servoMan then u.setServo 1 else u := by
    have hnew : (s.tide.master != some id && s.tide.master.isSome) = true := by simp [hold, hne]
    unfold State.ptpAnnounce
    rw [if_neg (by simp [hon])]
    simp only [hnew, if_true]
    rw [hu, hv, hw]
  have honly : v.OnlyRegs u := hu ▸ (((State.OnlyRegs.refl v).clrBit _ _).wr64 _ _).wr _ _
  have hmaster : u.tide.master = some id := by rw [honly, hv]
  have hmem : u.mem = s.mem := by
    have hvw : v.mem = w.mem := by rw [hv]
    rw [honly.mem_eq, hvw, hw, State.setBit_mem]
  have hbit : u.bit Reg.TIDE_EVENT 3 = true := by
    rw [hu, State.bit_wr_other _ _ _ (by decide), State.bit_other (State.rd_wr64_other _ _ (by decide) (by decide)),
      State.bit_clrBit_other _ _ _ (by decide)]
    have hvw : v.regs = w.regs := by rw [hv]
    rw [State.bit_other (State.rd_congr hvw _), hw]
    exact s.bit_setBit_same (by decide)
  have hid : u.rd64 Reg.TIDE_MASTER_ID_W0 = id % 2 ^ 64 := by
    rw [hu, State.rd64_wr_other _ _ (by decide) (by decide), State.rd64_wr64_same]
  rw [hann]
  split
  · have hkeep := u.setServo_keeps 1
    refine ⟨by rw [hkeep]; exact hmaster, u.bit_event_setServo 1 hbit, ?_, by rw [hkeep]; exact hmem⟩
    rw [State.rd64_congr (u.rd_setServo_other 1 (by decide) (by decide)) (u.rd_setServo_other 1 (by decide) (by decide)), hid]
  · exact ⟨hmaster, hbit, hid, hmem⟩

end State

/-- Settles O32. -/
theorem ptpAndServoFollowTheSource : Obligations.PtpAndServoFollowTheSource := by
  refine ⟨⟨fun s port off hon hsrc hup => ?_, fun s port id pn steps old hon hold hne => ?_, fun s u hu => ⟨fun hmay hsrc hman hoff => ?_, fun hmay => ?_⟩,
    fun s hsrc hman hoff => ⟨_, rfl, ?_⟩, fun s hsrc hph => ?_, fun s hsrc => ?_⟩, fun s port delay hon => ⟨fun hgm => ?_, fun hp => ?_, fun hp => ?_, fun hp hgm => ?_⟩⟩
  · refine congrArg Host.Outcome.next (congrArg State.afterServo ?_)
    exact if_pos (by simp [hon, hsrc, hup])
  · obtain ⟨hmaster, hbit, hid, hmem⟩ := State.ptpAnnounce_replaces (pn := pn) (steps := steps) hon hold hne
    exact ⟨_, rfl, hmaster, hbit, hid, fun a => by rw [hmem]⟩
  · subst hu
    refine congrArg Host.Outcome.next ?_
    have hno : s.noMaster = { s with tide := { s.tide with masterUp := false } } := by simp [State.noMaster, State.whenB, hmay]
    simp only [State.masterLost, hno]
    exact (if_pos hsrc).trans (State.masterGone_eq hman hoff)
  · subst hu
    refine congrArg Host.Outcome.next ?_
    have hno : s.noMaster = ({ s with tide := { s.tide with masterUp := false } } : State).setBit Reg.TIDE_STATUS 10 := by
      simp [State.noMaster, State.whenB, hmay]
    have hsrc : s.tideSource = 1 := by
      simp only [State.mayMaster, Bool.and_eq_true, decide_eq_true_eq] at hmay
      exact hmay.2
    have hsrc' : s.noMaster.tideSource = 1 := by
      rw [hno]
      exact (State.fld_congr (State.rd_setBit_other _ _ (by decide)) 1 0).trans hsrc
    simp only [State.masterLost, hsrc']
    exact hno
  · refine congrArg Host.Outcome.next ((if_neg (not_not.2 hsrc)).trans (State.masterGone_eq ?_ (by simpa [State.servoOff] using hoff)))
    exact (State.bit_other ((State.rd_setBit_other _ _ (by decide)).trans (State.rd_setBit_other _ _ (by decide))) 4).trans hman
  · have hsrc' : (s.wr64 Reg.TIDE_PPS_IN_TS_W0 s.now).tideSource ≠ 1 := by
      rwa [State.tideSource, State.fld_congr (State.rd_wr64_other _ s (by decide) (by decide))]
    exact congrArg Host.Outcome.next ((congrArg State.afterServo (if_pos hsrc')).trans (State.afterServo_eq (by rwa [State.wr64_boot])))
  · have hsrc' : (s.wr64 Reg.TIDE_PPS_IN_TS_W0 s.now).tideSource = 1 := by
      rwa [State.tideSource, State.fld_congr (State.rd_wr64_other _ s (by decide) (by decide))]
    exact congrArg Host.Outcome.next (congrArg State.afterServo (if_neg (not_not.2 hsrc')))
  all_goals refine congrArg Host.Outcome.next ?_
  · simp [State.ptpTx, hon, hgm, State.egressStamp]
  · simp [State.ptpTx, hon, hp]
  · simp [State.ptpDelayRx, hon, hp, State.pathDelay]
  · simp [State.ptpDelayRx, hon, hp, hgm, State.ingressStamp]

end Sys2Proof.Machine

/-! PROOFS. Reads and writes of the register space (00_scope.md: R10 to R24): what a write does to each kind of register, once for
each kind, and what a read answers. -/

namespace Sys2Proof.Machine

/-! ### Writes by kind (R12, R18, R22) -/

/-- A write of `v` to the register at `o`, whose row is `r`, reaches it (R11, R37, R42, R100, R369). -/
structure State.Reaches (s : State) (agent o v : Nat) (r : RegRow) : Prop where
  row : ∃ k i, rowOf o = some (r, k, i)
  counted : groupSnd o = false
  there : s.noRegister agent o = false
  armed : s.armBlocks agent o = false
  open_ : s.imageOnly r o (v % two32) = false
  port : s.absentPort o = false
  group : noGroupReg o = false

namespace State.Reaches

variable {s : State} {agent o v : Nat} {r : RegRow}

theorem regWrite_rw (h : s.Reaches agent o v r) (hacc : r.acc = .rw) (hhalf : r.half = .none)
    (hop : s.opWrite agent o (Nat.land (v % two32) r.mask) = none) :
    s.regWrite agent o v = if s.badWrite o (Nat.land (v % two32) r.mask) then s.usageReg agent o
      else (s.storeRw o (Nat.land (v % two32) r.mask)).runtimeChanged false := by
  obtain ⟨⟨k, i, hrow⟩, hc, ht, ha, ho, hp, hg⟩ := h
  simp only [State.regWrite, State.writeReg, hrow, hc, ht, ha, ho, hp, hg, hacc, hhalf, hop, Bool.not_false, Bool.true_and, Bool.or_self,
    Bool.false_eq_true, if_false]

theorem regWrite_rws (h : s.Reaches agent o v r) (hacc : r.acc = .rws) (hsnd : sndSetSel o = none)
    (hop : s.opWrite agent o (Nat.land (v % two32) r.mask) = none) (hbad : s.badWrite o (Nat.land (v % two32) r.mask) = false) :
    s.regWrite agent o v = (s.stage o (Nat.land (v % two32) r.mask)).runtimeChanged false := by
  obtain ⟨⟨k, i, hrow⟩, hc, ht, ha, ho, hp, hg⟩ := h
  simp only [State.regWrite, State.writeReg, hrow, hc, ht, ha, ho, hp, hg, hacc, hsnd, hop, hbad, Bool.not_false, Bool.true_and, Bool.or_self,
    Bool.false_eq_true, if_false]

theorem regWrite_w1c (h : s.Reaches agent o v r) (hacc : r.acc = .w1c)
    (hop : s.opWrite agent o (Nat.land (v % two32) r.mask) = none) :
    s.regWrite agent o v = s.wr o (s.rd o - Nat.land (s.rd o) (Nat.land (v % two32) r.mask)) := by
  obtain ⟨⟨k, i, hrow⟩, hc, ht, ha, ho, hp, hg⟩ := h
  simp only [State.regWrite, State.writeReg, hrow, hc, ht, ha, ho, hp, hg, hacc, hop, Bool.not_false, Bool.true_and, Bool.or_self,
    Bool.false_eq_true, if_false]

theorem regWrite_lo (h : s.Reaches agent o v r) (hacc : r.acc = .rw) (hhalf : r.half = .lo40) :
    s.regWrite agent o v = s.holdLow o (v % two32) := by
  obtain ⟨⟨k, i, hrow⟩, hc, ht, ha, ho, hp, hg⟩ := h
  simp only [State.regWrite, State.writeReg, hrow, hc, ht, ha, ho, hp, hg, hacc, hhalf, Bool.not_false, Bool.true_and, Bool.or_self,
    Bool.false_eq_true, if_false]

theorem regWrite_hi (h : s.Reaches agent o v r) (hacc : r.acc = .rw) (hhalf : r.half = .hi40) :
    s.regWrite agent o v = s.commit false agent (o - 4) (Nat.land (v % two32) r.mask) := by
  obtain ⟨⟨k, i, hrow⟩, hc, ht, ha, ho, hp, hg⟩ := h
  simp only [State.regWrite, State.writeReg, hrow, hc, ht, ha, ho, hp, hg, hacc, hhalf, Bool.not_false, Bool.true_and, Bool.or_self,
    Bool.false_eq_true, if_false]

end State.Reaches

/-! ### Registers of the device's own (R562, R109) -/

/-- Registers whose rows a property tells apart are not the same. -/
theorem ne_of_row {o p k i : Nat} {r : RegRow} (P : RegRow → Bool) (h : rowOf o = some (r, k, i)) (hr : P r = true)
    (hp : (rowOf p).any (fun x => P x.1) = false) : o ≠ p := by
  rintro rfl
  rw [h] at hp
  exact absurd (hp.symm.trans hr) (by decide)

namespace State

theorem bit_mbxStatus_runtimeChanged (img : Bool) (s : State) :
    (s.runtimeChanged img).bit Reg.HOST_MBX_STATUS 0 = s.bit Reg.HOST_MBX_STATUS 0 :=
  State.bit_other (s.rd_runtimeChanged_other img (by decide)) 0

theorem served_usageReg {s : State} (agent o : Nat) (h : s.bit Reg.HOST_MBX_STATUS 0 = false) :
    (s.usageReg agent o).served = s.usageReg agent o :=
  State.served_idle ((State.bit_other (s.rd_usageReg agent o (by decide)) 0).trans h)

end State

theorem State.bit_mbxStatus_wr {s : State} {o v : Nat} (h : o ≠ Reg.HOST_MBX_STATUS) :
    (s.wr o v).bit Reg.HOST_MBX_STATUS 0 = s.bit Reg.HOST_MBX_STATUS 0 :=
  State.bit_wr_other v 0 s h.symm

/-- A plain block stores the value and does no more with it. -/
theorem State.storeRw_plain {o : Nat} (v : Nat) (s : State)
    (h : ([.global, .tide, .feed, .hm, .snd, .bell, .host] : List Block).contains (blockOf o) = false) : s.storeRw o v = s.wr o v := by
  unfold State.storeRw
  split <;> simp_all

theorem two32_eq : two32 = 2 ^ 32 := by decide

theorem land_lt_two32 (v m : Nat) : Nat.land (v % two32) m < 2 ^ 32 :=
  lt_of_le_of_lt Nat.and_le_left (Nat.mod_lt _ (by decide))

/-- Settles O9: the value is stored by `State.storeRw`, which in a plain block is one register. -/
theorem plainRegisterWriteStoresAtOnce : Obligations.PlainRegisterWriteStoresAtOnce := by
  intro s agent o v r k i hrow hacc hhalf hc ht ha ho hp hg hop
  have hreach : s.Reaches agent o v r := ⟨⟨k, i, hrow⟩, hc, ht, ha, ho, hp, hg⟩
  have hwrite := hreach.regWrite_rw hacc hhalf hop
  refine ⟨fun hbad hidle => ?_, fun hgood => ?_⟩
  · rw [hbad, if_pos rfl] at hwrite
    exact congrArg Host.Outcome.next (by rw [hwrite, State.served_usageReg agent o hidle])
  · rw [hgood, if_neg Bool.false_ne_true] at hwrite
    have hexec : exec (.registerWrite agent o v) s
        = (.next ((s.storeRw o (Nat.land (v % two32) r.mask)).runtimeChanged false).served : Host.Outcome State Fault Refusal) :=
      congrArg Host.Outcome.next (by rw [hwrite])
    refine ⟨hexec, fun hblock hidle => ?_⟩
    have hcfg : o ≠ Reg.CFG_STATUS := ne_of_row (fun x => x.acc == .rw) hrow (by simp [hacc]) (by decide)
    have hmbx : o ≠ Reg.HOST_MBX_STATUS := ne_of_row (fun x => x.acc == .rw) hrow (by simp [hacc]) (by decide)
    rw [State.storeRw_plain _ s hblock, State.served_idle] at hexec
    · refine ⟨_, hexec, ?_, fun p hpo hpc => ?_, fun a => ?_⟩
      · rw [State.rd_runtimeChanged_other _ _ hcfg, State.rd_wr_same, Nat.mod_eq_of_lt (land_lt_two32 v r.mask)]
      · rw [State.rd_runtimeChanged_other _ _ hpc, State.rd_wr_other _ _ hpo]
      · rw [(State.runtimeChanged_onlyRegs false _).mem_eq, State.wr_mem]
    · rw [State.bit_mbxStatus_runtimeChanged, State.bit_mbxStatus_wr hmbx, hidle]

/-- Settles O10. -/
theorem stagedRegisterWriteWaits : Obligations.StagedRegisterWriteWaits := by
  intro s agent o v r k i hrow hacc hc ht ha ho hp hg hsnd hop hbad hidle
  have hreach : s.Reaches agent o v r := ⟨⟨k, i, hrow⟩, hc, ht, ha, ho, hp, hg⟩
  have honly := State.runtimeChanged_onlyRegs false (s.stage o (Nat.land (v % two32) r.mask))
  refine ⟨(s.stage o (Nat.land (v % two32) r.mask)).runtimeChanged false, congrArg Host.Outcome.next ?_, ?_, fun p hpc => ?_, fun a => ?_⟩
  · rw [hreach.regWrite_rws hacc hsnd hop hbad, State.served_idle]
    rw [State.bit_mbxStatus_runtimeChanged, ← hidle]
    exact State.bit_other (State.rd_congr (State.stage_regs _ _ s) _) 0
  · rw [honly]
    rfl
  · rw [State.rd_runtimeChanged_other _ _ hpc]
    exact State.rd_congr (State.stage_regs _ _ s) p
  · rw [honly.mem_eq, State.stage_mem]

/-- The bits of a number that a mask has go, and no others. -/
theorem testBit_sub_and (n m b : Nat) : (n - (n &&& m)).testBit b = (n.testBit b && !m.testBit b) := by
  have hle : n &&& m ≤ n := Nat.and_le_left
  have hodd : (n &&& m) % 2 = 1 ↔ n % 2 = 1 ∧ m % 2 = 1 := Nat.and_mod_two_eq_one
  induction b generalizing n m with
  | zero =>
    rw [Bool.eq_iff_iff]
    simp only [Nat.testBit_zero, decide_eq_true_eq, Bool.and_eq_true, Bool.not_eq_true', decide_eq_false_iff_not]
    generalize n &&& m = k at hle hodd ⊢
    omega
  | succ b ih =>
    have hhalf : (n - (n &&& m)) / 2 = n / 2 - (n / 2 &&& m / 2) := by
      rw [← Nat.and_div_two]
      omega
    rw [Nat.testBit_succ, Nat.testBit_succ, Nat.testBit_succ, hhalf]
    exact ih (n / 2) (m / 2) Nat.and_le_left Nat.and_mod_two_eq_one

/-- Settles O11. -/
theorem writeOneClearsAndReadOnlyIgnores : Obligations.WriteOneClearsAndReadOnlyIgnores := by
  refine ⟨fun s agent o v r k i hrow hacc hc ht ha ho hp hg hop hidle => ?_, fun s agent o v r k i hrow hacc hc ht ha ho hp hidle => ?_,
    fun s agent o v r k i hrow hc ht ha ho habs hidle => ?_⟩
  · have hreach : s.Reaches agent o v r := ⟨⟨k, i, hrow⟩, hc, ht, ha, ho, hp, hg⟩
    have hlt : s.rd o - Nat.land (s.rd o) (Nat.land (v % two32) r.mask) < 2 ^ 32 := lt_of_le_of_lt (Nat.sub_le _ _) (s.rd_lt o)
    have hmbx : o ≠ Reg.HOST_MBX_STATUS := ne_of_row (fun x => x.acc == .w1c) hrow (by simp [hacc]) (by decide)
    refine ⟨s.wr o (s.rd o - Nat.land (s.rd o) (Nat.land (v % two32) r.mask)), congrArg Host.Outcome.next ?_, fun b => ?_,
      fun p hpo => State.rd_wr_other _ s hpo, fun a => by rw [State.wr_mem]⟩
    · rw [hreach.regWrite_w1c hacc hop, State.served_idle (by rw [State.bit_mbxStatus_wr hmbx, hidle])]
    · rw [State.bit_wr_same b s hlt]
      refine (testBit_sub_and _ _ b).trans ?_
      exact congrArg (fun x => (s.rd o).testBit b && !x) (Nat.testBit_and _ _ b)
  · refine congrArg Host.Outcome.next ?_
    have hwrite : s.regWrite agent o v = s := by
      simp only [State.regWrite, State.writeReg, hrow, hc, ht, ha, ho, hp, hacc, Bool.not_false, Bool.true_and, Bool.false_or,
        Bool.false_eq_true, if_false, ite_self]
    rw [hwrite, State.served_idle hidle]
  · refine congrArg Host.Outcome.next ?_
    have hno : (s.absentPort o || noGroupReg o) = true := by simpa using habs
    have hwrite : s.regWrite agent o v = s := by
      simp only [State.regWrite, State.writeReg, hrow, hc, ht, ha, ho, hno, Bool.not_false, Bool.true_and, Bool.false_eq_true, if_false,
        if_true]
    rw [hwrite, State.served_idle hidle]

/-! ### Pairs (R17 to R20) -/

namespace State

theorem heldLow_holdLow (o v : Nat) (s : State) : (s.holdLow o v).heldLow o = v % two32 := by
  rw [State.heldLow, State.holdLow, SMap.get_ins_same, BitVec.toNat_ofNat]

theorem heldLow_lt (s : State) (o : Nat) : s.heldLow o < 2 ^ 32 := BitVec.isLt _

theorem rd_committed (o p : Nat) (s : State) : (s.committed o).rd p = s.rd p := rfl

/-- A commit ends every agent's snapshot of the pair (R20). -/
theorem snap_of_snaps {o : Nat} {s t : State} (h : t.snaps = (s.committed o).snaps) (g : Nat) : t.snap o g = none := by
  rw [State.snap, Option.map_eq_none_iff, List.find?_eq_none, h]
  intro p hp
  have hne : (p.1 / 4096 != o) = true := (List.mem_filter.1 hp).2
  have hkey : snapKey o g / 4096 = o := by
    unfold snapKey
    omega
  intro h
  rw [of_decide_eq_true h, hkey] at hne
  exact absurd hne (by simp)

/-- After a commit the holding register is that of the value in force (R19). -/
theorem heldLow_of_hold {o : Nat} {s t : State} (h : t.hold = (s.committed o).hold) : t.heldLow o = t.rd o := by
  have hlt := t.rd_lt o
  rw [State.heldLow, h, show (s.committed o).hold = SMap.del o s.hold from rfl, SMap.get_del_same, BitVec.toNat_ofNat]
  exact Nat.mod_eq_of_lt hlt

/-- The value of a pair committed: both halves stored, the hold released (R18, R19). -/
def storePair (o hi : Nat) (s : State) : State := (((s.wr o (s.heldLow o + hi * two32)).wr (o + 4) hi).committed o).runtimeChanged false

theorem rd_storePair_other {o hi p : Nat} (s : State) (h : p ≠ o) (h4 : p ≠ o + 4) (hc : p ≠ Reg.CFG_STATUS) :
    (s.storePair o hi).rd p = s.rd p := by
  rw [State.storePair, State.rd_runtimeChanged_other _ _ hc, State.rd_committed, State.rd_wr_other _ _ h4, State.rd_wr_other _ _ h]

theorem rd_storePair_lo {o hi : Nat} (s : State) (hc : o ≠ Reg.CFG_STATUS) : (s.storePair o hi).rd o = s.heldLow o := by
  have hlow := s.heldLow_lt o
  rw [State.storePair, State.rd_runtimeChanged_other _ _ hc, State.rd_committed, State.rd_wr_other _ _ (by omega), State.rd_wr_same]
  unfold two32
  omega

theorem rd_storePair_hi {o hi : Nat} (s : State) (hc : o + 4 ≠ Reg.CFG_STATUS) (hlt : hi < 2 ^ 32) : (s.storePair o hi).rd (o + 4) = hi := by
  rw [State.storePair, State.rd_runtimeChanged_other _ _ hc, State.rd_committed, State.rd_wr_same, Nat.mod_eq_of_lt hlt]

theorem OnlyRegs.committed {s t : State} (h : s.OnlyRegs t) (o : Nat) : (s.committed o).OnlyRegs (t.committed o) := by
  unfold OnlyRegs at h
  rw [h]
  exact OnlyRegs.of_eq rfl

/-- Registers apart, a pair is stored by the commit alone. -/
theorem storePair_onlyRegs (o hi : Nat) (s : State) : (s.committed o).OnlyRegs (s.storePair o hi) :=
  ((((OnlyRegs.refl s).wr _ _).wr _ _).committed o).trans (State.runtimeChanged_onlyRegs false _)

theorem commit_refused {s : State} {agent o hi : Nat} (hadj : o ≠ Reg.TIDE_ADJ_W0) (hrate : o ≠ Reg.TIDE_RATE_FRAC_LO)
    (hbad : s.badCommit o (s.heldLow o + hi * two32) = true) : s.commit false agent o hi = s.usageReg agent (o + 4) := by
  simp only [State.commit, hadj, hrate, hbad, if_false, if_true]

/-- An accepted commit stores the pair; two rings also note that they have a place. -/
theorem commit_accepted {s : State} {agent o hi : Nat} (hadj : o ≠ Reg.TIDE_ADJ_W0) (hrate : o ≠ Reg.TIDE_RATE_FRAC_LO)
    (hbad : s.badCommit o (s.heldLow o + hi * two32) = false) :
    s.commit false agent o hi
      = { s.storePair o hi with metaSet := (s.commit false agent o hi).metaSet, sndBased := (s.commit false agent o hi).sndBased } := by
  have hcommit : s.commit false agent o hi = if o = Reg.POOL_META_BASE_LO then { s.storePair o hi with metaSet := true }
      else if o = Reg.SND_LOG_BASE_LO then { s.storePair o hi with sndBased := true } else s.storePair o hi := by
    simp only [State.commit, hadj, hrate, hbad, if_false, Bool.false_eq_true, State.storePair]
  rw [hcommit]
  generalize s.storePair o hi = x
  split
  · rfl
  · split <;> rfl

end State

/-- Settles O12. -/
theorem pairCommitTakesTheHeldLowHalf : Obligations.PairCommitTakesTheHeldLowHalf := by
  refine ⟨fun s agent o v r k i hrow hacc hhalf ht ha ho hp hg hc hidle => ?_,
    fun s agent o v r k i hrow hacc hhalf ht ha ho hp hg hc hadj hrate hidle => ?_⟩
  · have hreach : s.Reaches agent o v r := ⟨⟨k, i, hrow⟩, hc, ht, ha, ho, hp, hg⟩
    refine ⟨s.holdLow o (v % two32), congrArg Host.Outcome.next ?_, ?_, fun p => rfl, fun a => rfl⟩
    · rw [hreach.regWrite_lo hacc hhalf]
      exact State.served_idle hidle
    · rw [State.heldLow_holdLow, Nat.mod_mod]
  · have hreach : s.Reaches agent (o + 4) v r := ⟨⟨k, i, hrow⟩, hc, ht, ha, ho, hp, hg⟩
    have hwrite := hreach.regWrite_hi hacc hhalf
    rw [Nat.add_sub_cancel] at hwrite
    refine ⟨fun hbad => congrArg Host.Outcome.next ?_, fun hbad => ?_⟩
    · rw [hwrite, State.commit_refused hadj hrate hbad, State.served_usageReg agent (o + 4) hidle]
    · obtain ⟨hi, hhi⟩ : ∃ hi, hi = Nat.land (v % two32) r.mask := ⟨_, rfl⟩
      rw [← hhi] at hwrite hbad ⊢
      obtain ⟨t, hdef⟩ : ∃ t, t = s.commit false agent o hi := ⟨_, rfl⟩
      have ht := State.commit_accepted (agent := agent) hadj hrate hbad
      rw [← hdef] at ht hwrite
      have hcfg : o + 4 ≠ Reg.CFG_STATUS := ne_of_row (fun x => x.half == .hi40) hrow (by simp [hhalf]) (by decide)
      have hcfg0 : o ≠ Reg.CFG_STATUS := fun h =>
        ne_of_row (p := Reg.CFG_STATUS + 4) (fun x => x.half == .hi40) hrow (by simp [hhalf]) (by decide) (by rw [h])
      have hmbx : o + 4 ≠ Reg.HOST_MBX_STATUS := ne_of_row (fun x => x.half == .hi40) hrow (by simp [hhalf]) (by decide)
      have hmbx0 : o ≠ Reg.HOST_MBX_STATUS := fun h =>
        ne_of_row (p := Reg.HOST_MBX_STATUS + 4) (fun x => x.half == .hi40) hrow (by simp [hhalf]) (by decide) (by rw [h])
      have hregs : t.regs = (s.storePair o hi).regs := by rw [ht]
      have hhold : t.hold = (s.committed o).hold := by rw [ht, s.storePair_onlyRegs o hi]
      have hsnaps : t.snaps = (s.committed o).snaps := by rw [ht, s.storePair_onlyRegs o hi]
      have hmem : t.mem = s.mem := by
        rw [ht]
        exact (s.storePair_onlyRegs o hi).mem_eq
      have hlow : t.rd o = s.heldLow o := (State.rd_congr hregs o).trans (s.rd_storePair_lo hcfg0)
      have hidle' : t.bit Reg.HOST_MBX_STATUS 0 = false :=
        (State.bit_other ((State.rd_congr hregs _).trans (s.rd_storePair_other hmbx0.symm hmbx.symm (by decide))) 0).trans hidle
      refine ⟨t, congrArg Host.Outcome.next (by rw [hwrite, State.served_idle hidle']), hlow, ?_, (State.heldLow_of_hold hhold).trans hlow,
        State.snap_of_snaps hsnaps, fun p hp0 hp4 hpc => ?_, fun a => by rw [hmem]⟩
      · exact (State.rd_congr hregs _).trans (s.rd_storePair_hi hcfg (hhi ▸ land_lt_two32 v r.mask))
      · exact (State.rd_congr hregs p).trans (s.rd_storePair_other hp0 hp4 hpc)

/-! ### Reads (R10 to R20) -/

/-- A read at `o` by an agent reaches the register whose row is `r`, which has no read effect of its own (R11, R12). -/
structure State.ReadsPlain (s : State) (agent o : Nat) (r : RegRow) : Prop where
  row : ∃ k i, rowOf o = some (r, k, i)
  keeps : r.acc ≠ .rc
  shown : r.acc ≠ .wo
  counted : groupSnd o = false
  mirror : inMirror o = false ∨ agent = hostAgent ∧ s.bootStep < 6
  there : s.noRegister agent o = false
  claim : idxOf Reg.BELL_T_CLAIM 16 36 o = none
  feed : idxOf Reg.FEED_DATA 0x100 2 o = none
  snd : sndOf o = none
  gate : idxOf Reg.HM_GATE_CHANGE_W0 0x40 16 o = none
  storm : o ≠ Reg.CMP_STORM_E_W0

namespace State.ReadsPlain

variable {s : State} {agent o : Nat} {r : RegRow}

theorem afterRead (h : s.ReadsPlain agent o r) (v : Nat) (t : State) : t.afterRead o v r.acc = t := by
  simp only [State.afterRead, h.keeps, h.storm, h.gate, if_false]

theorem not_mirror (h : s.ReadsPlain agent o r) :
    (inMirror o && !(decide (agent = hostAgent) && decide (s.bootStep < 6))) = false := by
  rcases h.mirror with hm | ⟨ha, hb⟩
  · rw [hm, Bool.false_and]
  · simp [ha, hb]

theorem regRead (h : s.ReadsPlain agent o r) (hhalf : r.half = .none) : s.regRead agent o = (s.view o, s) := by
  obtain ⟨k, i, hrow⟩ := h.row
  simp only [State.regRead, h.counted, h.not_mirror, h.there, hrow, State.beforeRead, h.snd, h.feed, h.shown, hhalf, h.afterRead,
    if_false, Bool.false_eq_true]

theorem regRead_lo (h : s.ReadsPlain agent o r) (hhalf : r.half = .lo40) : s.regRead agent o
    = (s.view o, { s with snaps := SMap.ins (snapKey o agent) (BitVec.ofNat 32 (s.view (o + 4))) s.snaps }) := by
  obtain ⟨k, i, hrow⟩ := h.row
  simp only [State.regRead, h.counted, h.not_mirror, h.there, hrow, State.beforeRead, h.snd, h.feed, h.shown, hhalf, h.afterRead,
    if_false, Bool.false_eq_true]

theorem readCmd (h : s.ReadsPlain agent o r) : s.readCmd agent o = (s.regRead agent o).2.emit (.readData agent o (s.regRead agent o).1) := by
  simp only [State.readCmd, h.claim]

end State.ReadsPlain

/-- What is put in at a key is found there. -/
theorem SMap.find?_ins {α : Type} (k : Nat) (v : α) (m : SMap α) : (SMap.ins k v m).find? (fun p => p.1 = k) = some (k, v) := by
  induction m with
  | nil => simp [SMap.ins]
  | cons p m ih =>
    obtain ⟨a, w⟩ := p
    simp only [SMap.ins]
    split
    · simp
    · split
      · simp
      · simp [*]

/-- Settles O13. -/
theorem readsAnswerTheValueInForce : Obligations.ReadsAnswerTheValueInForce := by
  refine ⟨fun s agent o r k i hrow hhalf hrc hwo hc hm ht hclaim hfeed hsnd hgate hstorm => ?_,
    fun s agent o r k i hrow hhalf hrc hwo hc hm ht hclaim hfeed hsnd hgate hstorm => ?_⟩
  · have hplain : s.ReadsPlain agent o r := ⟨⟨k, i, hrow⟩, hrc, hwo, hc, hm, ht, hclaim, hfeed, hsnd, hgate, hstorm⟩
    exact congrArg Host.Outcome.next (by rw [hplain.readCmd, hplain.regRead hhalf])
  · have hplain : s.ReadsPlain agent o r := ⟨⟨k, i, hrow⟩, hrc, hwo, hc, hm, ht, hclaim, hfeed, hsnd, hgate, hstorm⟩
    refine ⟨_, congrArg Host.Outcome.next (by rw [hplain.readCmd, hplain.regRead_lo hhalf]), ?_, rfl⟩
    rw [State.snap, SMap.find?_ins]
    rfl

/-! ### Refused accesses and HOLD (R11, R24) -/

/-- Settles O14: both commands are `State.usageReg`, and so is a write where there is no register. -/
theorem refusedAccessIsRecorded : Obligations.RefusedAccessIsRecorded := by
  refine fun s agent o => ⟨rfl, rfl, fun hno hc hidle v => congrArg Host.Outcome.next ?_⟩
  have hwrite : s.regWrite agent o v = s.usageReg agent o := by
    simp only [State.regWrite, State.writeReg, hno, hc, Bool.false_eq_true, if_false, if_true]
  rw [hwrite]
  exact State.served_usageReg agent o hidle

/-- Settles O15: GLOBAL_STAGE_CTRL is a plain register of one bit. -/
theorem stageHoldWriteSetsHold : Obligations.StageHoldWriteSetsHold := by
  intro s agent v ht ha
  obtain ⟨r, hr⟩ : ∃ r : RegRow, r = ⟨Reg.GLOBAL_STAGE_CTRL, 1, 4, 1, 0x10000000, .rw, 0x1, 0x0, false, .none⟩ := ⟨_, rfl⟩
  have hrow : rowOf Reg.GLOBAL_STAGE_CTRL = some (r, 0, 0) := by
    rw [hr]
    decide
  have hreach : s.Reaches agent Reg.GLOBAL_STAGE_CTRL v r := ⟨⟨0, 0, hrow⟩, by decide, ht, ha, by rw [hr]; rfl, rfl, by decide⟩
  have hwrite := hreach.regWrite_rw (by rw [hr]) (by rw [hr]) rfl
  have hlt := land_lt_two32 v r.mask
  obtain ⟨x, hx⟩ : ∃ x, x = Nat.land (v % two32) r.mask := ⟨_, rfl⟩
  rw [← hx] at hwrite hlt
  have hstore : s.regWrite agent Reg.GLOBAL_STAGE_CTRL v = (s.wr Reg.GLOBAL_STAGE_CTRL x).runtimeChanged false := hwrite.trans (if_neg Bool.false_ne_true)
  have honly := State.runtimeChanged_onlyRegs false (s.wr Reg.GLOBAL_STAGE_CTRL x)
  refine ⟨_, congrArg Host.Outcome.next hstore, ?_, ?_, fun p hp hc => ?_, fun a => ?_⟩
  · rw [State.bit_other (State.rd_runtimeChanged_other _ _ (by decide)), State.bit_wr_same 0 s hlt, hx, hr]
    refine (Nat.testBit_and _ _ 0).trans ?_
    rw [two32_eq, Nat.testBit_mod_two_pow]
    simp
  · rw [honly, State.wr_staged]
  · rw [State.rd_runtimeChanged_other _ _ hc, State.rd_wr_other _ _ hp]
  · rw [honly.mem_eq, State.wr_mem]

end Sys2Proof.Machine

/-! PROOFS. Power, start-up and restarts (02_startup_trust_config.md: R77 to R90, R112; 11_power_and_effort.md: R415 to R419): what a
report, an input and a restart leave as they were, and how a start-up with no slot left ends. -/

namespace Sys2Proof.Machine

/-! ### Reports (R584 to R587) -/

/-- `t` is `s` with other registers, live counts and Watch: all that a report can touch. -/
def State.Reported (s t : State) : Prop := t = { s with regs := t.regs, counts := t.counts, watch := t.watch }

namespace State.Reported

theorem refl (s : State) : s.Reported s := rfl

theorem of_eq {s t : State} {r : SMap Word} {c : SMap Nat} {w : WatchSt} (h : t = { s with regs := r, counts := c, watch := w }) :
    s.Reported t := by
  subst h
  rfl

theorem trans {s t u : State} (h : s.Reported t) (k : t.Reported u) : s.Reported u := by
  unfold State.Reported at h
  rw [h] at k
  exact of_eq k

theorem of_onlyRegs {s t : State} (h : s.OnlyRegs t) : s.Reported t := of_eq (r := t.regs) (c := s.counts) (w := s.watch) h

variable {s t : State}

theorem wr (o v : Nat) (h : s.Reported t) : s.Reported (t.wr o v) := h.trans (of_onlyRegs ((OnlyRegs.refl t).wr o v))
theorem setBit (o b : Nat) (h : s.Reported t) : s.Reported (t.setBit o b) := h.trans (of_onlyRegs ((OnlyRegs.refl t).setBit o b))
theorem clrBit (o b : Nat) (h : s.Reported t) : s.Reported (t.clrBit o b) := h.trans (of_onlyRegs ((OnlyRegs.refl t).clrBit o b))
theorem bump (o n : Nat) (h : s.Reported t) : s.Reported (t.bump o n) := h.trans rfl
theorem watch (w : WatchSt) (h : s.Reported t) : s.Reported { t with watch := w } := h.trans rfl

theorem whenB {f : State → State} (c : Bool) (hf : ∀ s : State, s.Reported (f s)) (h : s.Reported t) : s.Reported (t.whenB c f) := by
  cases c with
  | false => exact h
  | true => exact h.trans (hf t)

theorem report (code agent access addr : Nat) (h : s.Reported t) : s.Reported (t.report code agent access addr) := by
  refine h.trans ?_
  unfold State.report
  split
  · exact refl t
  · extract_lets cls tt ns w0 cap w1 w2 w3 s1 s2 s3
    split
    · exact (refl t).watch _
    · have h3 : t.Reported s3 := (((refl t).watch w3).setBit _ _).whenB cap fun s => (refl s).setBit _ _
      split
      · exact h3.bump _ _
      · exact h3

theorem usage (nibble agent access addr : Nat) (h : s.Reported t) : s.Reported (t.usage nibble agent access addr) := h.report _ _ _ _

theorem usageReg (agent o : Nat) (h : s.Reported t) : s.Reported (t.usageReg agent o) := (h.usage _ _ _ _).watch _

theorem mem_eq (h : s.Reported t) : t.mem = s.mem := by rw [h]
theorem boot_eq (h : s.Reported t) : t.boot = s.boot := by rw [h]
theorem power_eq (h : s.Reported t) : t.power = s.power := by rw [h]
theorem ident_eq (h : s.Reported t) : t.ident = s.ident := by rw [h]
theorem units_eq (h : s.Reported t) : t.units = s.units := by rw [h]

end State.Reported

/-! ### Inputs (R415, R419) -/

namespace State

/-- The open flash write given up changes the flash and its own record alone (R110). -/
theorem abandonFlash_eq (s : State) : s.abandonFlash = { s with boot := { s.boot with
    flash := none, boots := s.abandonFlash.boot.boots, etvors := s.abandonFlash.boot.etvors } } := by
  unfold State.abandonFlash flashWriteTimeout
  split
  · next w hw =>
    unfold State.eraseSlot
    split <;> rfl
  · next hw =>
    obtain ⟨b⟩ := s
    simp only at hw
    simp [← hw]

theorem input_congr {s t : State} (hA : t.power.inA = s.power.inA) (hB : t.power.inB = s.power.inB) (b : Bool) :
    t.input b = s.input b := by
  cases b
  · exact hA
  · exact hB

theorem input_setInput_same (b : Bool) (x : InputSt) (s : State) : (s.setInput b x).input b = x := by cases b <;> rfl

theorem input_setInput_other (b : Bool) (x : InputSt) (s : State) : (s.setInput b x).input (!b) = s.input (!b) := by cases b <;> rfl

/-- `t` is `s` but for registers, counts, the Watch, what the power supplies hold, and an open flash write. -/
def PowerFrame (s t : State) : Prop :=
  t.mem = s.mem ∧ t.ident = s.ident ∧ t.boot.phase = s.boot.phase ∧ t.boot.cold = s.boot.cold ∧ t.boot.heater = s.boot.heater

theorem PowerFrame.trans {s t u : State} (h : s.PowerFrame t) (k : t.PowerFrame u) : s.PowerFrame u := by
  obtain ⟨hm, hi, hp, hc, hh⟩ := h
  obtain ⟨km, ki, kp, kc, kh⟩ := k
  exact ⟨km.trans hm, ki.trans hi, kp.trans hp, kc.trans hc, kh.trans hh⟩

theorem PowerFrame.of_reported {s t : State} (h : s.Reported t) : s.PowerFrame t := by
  have hb := h.boot_eq
  exact ⟨h.mem_eq, h.ident_eq, by rw [hb], by rw [hb], by rw [hb]⟩

theorem powerFrame_abandonFlash (s : State) : s.PowerFrame s.abandonFlash := by
  have h := s.abandonFlash_eq
  exact ⟨by rw [h], by rw [h], by rw [h], by rw [h], by rw [h]⟩

/-- An input enters a state with its voltage; the other input keeps its own. -/
theorem inputTo_effect (b : Bool) (mv : Int) (st : InState) (s : State) :
    (s.inputTo b mv st).input b = { s.input b with mv, st } ∧ (s.inputTo b mv st).input (!b) = s.input (!b)
      ∧ s.PowerFrame (s.inputTo b mv st) := by
  unfold State.inputTo
  extract_lets x was s1 s2 s3 s4 p s5
  have honly : s1.OnlyRegs s4 :=
    OnlyRegs.whenB _ (fun s => (OnlyRegs.refl s).setBit _ _) (((OnlyRegs.refl s1).trans (OnlyRegs.of_eq rfl)).wr _ _)
  have h1 : s1.input b = { s.input b with mv, st } := input_setInput_same b _ s
  have h1' : s1.input (!b) = s.input (!b) := input_setInput_other b _ s
  have frame1 : s.PowerFrame s1 := ⟨rfl, rfl, rfl, rfl, rfl⟩
  have frame4 : s.PowerFrame s4 := frame1.trans (.of_reported (.of_onlyRegs honly))
  have hpow4 : s4.power = s1.power := by rw [honly]
  have of_inputs : ∀ t : State, t.power.inA = s4.power.inA → t.power.inB = s4.power.inB → s4.PowerFrame t →
      t.input b = { s.input b with mv, st } ∧ t.input (!b) = s.input (!b) ∧ s.PowerFrame t := by
    intro t hA hB hframe
    rw [hpow4] at hA hB
    exact ⟨(input_congr hA hB b).trans h1, (input_congr hA hB _).trans h1', frame4.trans hframe⟩
  split
  · have frame5 : s4.PowerFrame s5 := ⟨rfl, rfl, rfl, rfl, rfl⟩
    have hrep : s5.Reported ((s5.setBit Reg.PWR_EVENT 2).report 0x3303 noAgent 0 0) := ((Reported.refl s5).setBit _ _).report _ _ _ _
    have hpow : ((s5.setBit Reg.PWR_EVENT 2).report 0x3303 noAgent 0 0).abandonFlash.power = s5.power := by
      rw [abandonFlash_eq]
      exact hrep.power_eq
    refine of_inputs _ (by rw [hpow]) (by rw [hpow]) ?_
    exact (frame5.trans (.of_reported hrep)).trans (powerFrame_abandonFlash _)
  · split
    · refine of_inputs _ ?_ ?_ ?_
      · rw [State.inc_power]
      · rw [State.inc_power]
      · exact ⟨by rw [State.inc_mem], by rw [State.inc_ident], by rw [State.inc_boot], by rw [State.inc_boot], by rw [State.inc_boot]⟩
    · exact of_inputs _ rfl rfl ⟨rfl, rfl, rfl, rfl, rfl⟩

theorem inputChange_effect (b : Bool) (mv : Int) (s : State) (h : (s.input b).st ≠ .tripped) :
    (s.inputChange b mv).input b = { s.input b with mv, st := inputAt (s.input b).st mv }
      ∧ (s.inputChange b mv).input (!b) = s.input (!b) ∧ s.PowerFrame (s.inputChange b mv) := by
  have hst : ((s.input b).st == InState.tripped) = false := by simpa using h
  have hchange : s.inputChange b mv = s.inputTo b mv (inputAt (s.input b).st mv) := by
    simp only [State.inputChange, hst, Bool.false_eq_true, if_false]
  rw [hchange]
  exact inputTo_effect b mv _ s

theorem ownMacs_onlyRegs (s : State) : s.OnlyRegs s.ownMacs :=
  OnlyRegs.each (fun _ s => (OnlyRegs.refl s).wr64 _ _) _ s

/-- An unpowered module with an input OK enters step 0 (R77). -/
theorem wakeUp_effect (s : State) : (s.wakeUp.power = s.power ∧ s.wakeUp.mem = s.mem)
    ∧ s.wakeUp.boot.phase = if s.boot.phase = .unpowered ∧ s.powered = true then .resetHeld else s.boot.phase := by
  unfold State.wakeUp
  split
  · next h =>
    have h' : ¬ (s.boot.phase = .unpowered ∧ s.powered = true) := by
      rintro ⟨hp, hs⟩
      simp [State.hasPower, hp, hs] at h
    exact ⟨⟨rfl, rfl⟩, (if_neg h').symm⟩
  · next h =>
    have h' : s.boot.phase = .unpowered ∧ s.powered = true := by
      simpa [State.hasPower] using h
    generalize hu : ({ s with boot := { s.boot with
      phase := .resetHeld, cold := true, heater := s.ident.variant.testBit 0 } } : State) = u
    have honly := State.Reported.of_onlyRegs u.ownMacs_onlyRegs
    rw [if_pos h', honly.power_eq, honly.mem_eq, honly.boot_eq, ← hu]
    exact ⟨⟨rfl, rfl⟩, rfl⟩

end State

/-- Settles O16: each input is judged by `State.inputTo`, and the MAC addresses of step 0 are registers. -/
theorem powerInputsAreJudged : Obligations.PowerInputsAreJudged := by
  refine ⟨fun s isB mv hph => ?_, fun s isB mv hph => ?_, fun s mvA mvB hA hB => ?_⟩
  · obtain ⟨u, hu⟩ : ∃ u : State, u = { s with boot := { s.boot with
        phase := .resetHeld, cold := true, heater := s.ident.variant.testBit 0 } } := ⟨_, rfl⟩
    have hexec : s.powerApplied isB mv = (u.inputTo isB mv .ok).ownMacs := by
      rw [hu]
      simp [State.powerApplied, State.hasPower, hph]
    obtain ⟨hin, hother, hmem, -, hphase, hcold, hheat⟩ := u.inputTo_effect isB mv .ok
    have honly := State.Reported.of_onlyRegs (u.inputTo isB mv .ok).ownMacs_onlyRegs
    have hinput (b : Bool) : (u.inputTo isB mv .ok).ownMacs.input b = (u.inputTo isB mv .ok).input b :=
      State.input_congr (by rw [honly.power_eq]) (by rw [honly.power_eq]) b
    have husB (b : Bool) : u.input b = s.input b := by rw [hu]; rfl
    refine ⟨_, congrArg Host.Outcome.next hexec, ?_, ?_, ?_, ?_, ?_, fun a => ?_⟩
    · rw [honly.boot_eq, hphase, hu]
    · rw [honly.boot_eq, hcold, hu]
    · rw [honly.boot_eq, hheat, hu]
    · rw [hinput, hin, husB]
    · rw [hinput, hother, husB]
    · rw [honly.mem_eq, hmem, hu]
  · exact congrArg Host.Outcome.next (if_pos (by simpa [State.hasPower] using hph))
  · obtain ⟨s1, hs1⟩ : ∃ s1 : State, s1 = if inputAt .absent mvA == .ok && (s.input false).st != .ok
        then s.emit (.supply (b2n false) 3000) else s := ⟨_, rfl⟩
    have key1 : s1.power = s.power ∧ s1.mem = s.mem ∧ s1.boot = s.boot := by
      rw [hs1]
      split
      · exact ⟨State.emit_power _ s, State.emit_mem _ s, State.emit_boot _ s⟩
      · exact ⟨rfl, rfl, rfl⟩
    obtain ⟨s2, hs2⟩ : ∃ s2 : State, s2 = s1.inputChange false mvA := ⟨_, rfl⟩
    obtain ⟨s3, hs3⟩ : ∃ s3 : State, s3 = if inputAt .absent mvB == .ok && (s2.input true).st != .ok
        then s2.emit (.supply (b2n true) 3000) else s2 := ⟨_, rfl⟩
    have key3 : s3.power = s2.power ∧ s3.mem = s2.mem ∧ s3.boot = s2.boot := by
      rw [hs3]
      split
      · exact ⟨State.emit_power _ s2, State.emit_mem _ s2, State.emit_boot _ s2⟩
      · exact ⟨rfl, rfl, rfl⟩
    obtain ⟨s4, hs4⟩ : ∃ s4 : State, s4 = s3.inputChange true mvB := ⟨_, rfl⟩
    have hexec : s.hotInsert mvA mvB = s4 := by
      rw [hs4, hs3, hs2, hs1]
      rfl
    have hin1 (b : Bool) : s1.input b = s.input b := State.input_congr (by rw [key1.1]) (by rw [key1.1]) b
    have hin3 (b : Bool) : s3.input b = s2.input b := State.input_congr (by rw [key3.1]) (by rw [key3.1]) b
    obtain ⟨hA2, hB2, hm2, -, hp2, -⟩ := s1.inputChange_effect false mvA (by rwa [hin1])
    rw [← hs2] at hA2 hB2 hm2 hp2
    have hB2' : s2.input true = s.input true := hB2.trans (hin1 true)
    obtain ⟨hB4, hA4, hm4, -, hp4, -⟩ := s3.inputChange_effect true mvB (by rwa [hin3, hB2'])
    rw [← hs4] at hB4 hA4 hm4 hp4
    have hA4' : s4.input false = { s.input false with mv := mvA, st := inputAt (s.input false).st mvA } := by
      rw [show s4.input false = s3.input false from hA4, hin3, hA2, hin1]
    rw [hin3, hB2'] at hB4
    have hphase : s4.boot.phase = s.boot.phase := by rw [hp4, key3.2.2, hp2, key1.2.2]
    have hmem : s4.mem = s.mem := by rw [hm4, key3.2.1, hm2, key1.2.1]
    have hwake : (s4.wakeUp.power = s4.power ∧ s4.wakeUp.mem = s4.mem)
        ∧ s4.wakeUp.boot.phase = if s4.boot.phase = .unpowered ∧ s4.powered = true then .resetHeld else s4.boot.phase :=
      s4.wakeUp_effect
    obtain ⟨⟨hwp, hwm⟩, hwph⟩ := hwake
    have hin (b : Bool) : s4.wakeUp.input b = s4.input b := State.input_congr (by rw [hwp]) (by rw [hwp]) b
    have hpow : s4.wakeUp.powered = s4.powered := by rw [State.powered, State.powered, hwp]
    refine ⟨s4.wakeUp, congrArg (fun u : State => (Host.Outcome.next u.wakeUp : Host.Outcome State Fault Refusal)) hexec, ?_⟩
    refine ⟨by rw [hin, hA4'], by rw [hin, hB4], by rw [hin, hA4'], by rw [hin, hB4], ?_, fun a => by rw [hwm, hmem]⟩
    rw [hwph, hphase, hpow]

/-- Settles O17. -/
theorem resetReleaseStartsAtStepOne : Obligations.ResetReleaseStartsAtStepOne := fun _ _ h =>
  ⟨congrArg Host.Outcome.next (if_pos h), congrArg Host.Outcome.next (if_pos h)⟩

/-! ### Restarts (R79, R90, R112) -/

namespace State

theorem showInput_onlyRegs (b : Bool) (s : State) : s.OnlyRegs (s.showInput b) :=
  ((OnlyRegs.refl s).trans (OnlyRegs.of_eq rfl)).wr _ _

/-- The boot attempt record goes on over a restart, and no image runs (R79). -/
theorem cleared_record (meas : Bool) (s : State) : (s.cleared meas).boot.failedA = s.boot.failedA
    ∧ (s.cleared meas).boot.failedB = s.boot.failedB ∧ (s.cleared meas).boot.runImg = none := by
  unfold State.cleared
  extract_lets b w t r0 b0 t0 p0 q0 h0 w0 s0
  have h : s0.OnlyRegs ((s0.showInput false).showInput true).ownMacs :=
    ((s0.showInput_onlyRegs false).trans ((s0.showInput false).showInput_onlyRegs true)).trans (State.ownMacs_onlyRegs _)
  generalize ((s0.showInput false).showInput true).ownMacs = u at h
  rw [h]
  exact ⟨rfl, rfl, rfl⟩

/-- `t` has the boot attempt record of `s`, and no image runs in it that does not run in `s`. -/
def SameRecord (s t : State) : Prop :=
  t.boot.failedA = s.boot.failedA ∧ t.boot.failedB = s.boot.failedB ∧ (s.boot.runImg = none → t.boot.runImg = none)

theorem SameRecord.trans {s t u : State} (h : s.SameRecord t) (k : t.SameRecord u) : s.SameRecord u := by
  obtain ⟨hA, hB, hi⟩ := h
  obtain ⟨kA, kB, ki⟩ := k
  exact ⟨kA.trans hA, kB.trans hB, fun h0 => ki (hi h0)⟩

theorem SameRecord.of_reported {s t : State} (h : s.Reported t) : s.SameRecord t := by
  have hb := h.boot_eq
  exact ⟨by rw [hb], by rw [hb], fun h0 => by rw [hb, h0]⟩

theorem sameRecord_measExtend (i d : Nat) (s : State) : s.SameRecord (s.measExtend i d) := ⟨rfl, rfl, id⟩

theorem sameRecord_draw (s : State) : s.SameRecord s.draw.2 := ⟨rfl, rfl, id⟩

theorem sameRecord_recovery (s : State) : s.SameRecord s.recovery := ⟨rfl, rfl, fun _ => rfl⟩

/-- Step 1 leaves the boot attempt record (R79). -/
theorem sameRecord_step1 (st : StartUp) (power : Bool) (s : State) : s.SameRecord (s.step1 st power) := by
  unfold State.step1
  extract_lets src b0 t0 s1 s2 s3 b4 s4 s5
  have h1 : s.SameRecord s1 := ⟨rfl, rfl, id⟩
  have h2 : s1.SameRecord s2 := by
    simp only [s2]
    split
    · exact .of_reported (Reported.refl s1)
    · exact .of_reported ((Reported.refl s1).report _ _ _ _)
  have h3 : s2.SameRecord s3 := .of_reported ((Reported.refl s2).wr _ _)
  have h4 : s3.SameRecord s4 := ⟨rfl, rfl, id⟩
  have h5 : s4.SameRecord s5 := by
    simp only [s5]
    cases st.loopOpen with
    | false => exact .of_reported (Reported.refl s4)
    | true =>
      exact ((sameRecord_draw s4).trans (sameRecord_measExtend 6 _ _)).trans (.of_reported ((Reported.refl _).setBit _ _))
  have h : s.SameRecord s5 := (((h1.trans h2).trans h3).trans h4).trans h5
  split
  · exact h.trans (sameRecord_recovery s5)
  · exact h.trans ((sameRecord_measExtend 0 _ s5).trans (.of_reported (.of_onlyRegs ((OnlyRegs.refl _).trans (OnlyRegs.of_eq rfl)))))

/-- With both slots marked failed there is none to try (R88). -/
theorem bootSlots_failed (st : StartUp) (k : Nat) (l : List Nat) (s : State) (h : ∀ x ∈ l, s.failed x = true) :
    s.bootSlots st k l = s.recovery := by
  induction l with
  | nil => rfl
  | cons x xs ih =>
    rw [State.bootSlots, if_pos (h x List.mem_cons_self)]
    exact ih fun y hy => h y (List.mem_cons_of_mem x hy)

theorem startUp_failed {st : StartUp} {power : Bool} {s : State} (hA : s.boot.failedA = true) (hB : s.boot.failedB = true)
    (hi : s.boot.runImg = none) :
    (s.startUp st power).boot.phase = .recovery ∧ (s.startUp st power).boot.failedA = true
      ∧ (s.startUp st power).boot.failedB = true ∧ (s.startUp st power).boot.runImg = none := by
  obtain ⟨h1A, h1B, h1i⟩ := s.sameRecord_step1 st power
  rw [hA] at h1A
  rw [hB] at h1B
  unfold State.startUp
  dsimp only
  split
  · next hrec => exact ⟨hrec, h1A, h1B, h1i hi⟩
  · have hall : ∀ x ∈ (s.step1 st power).bootOrder, (s.step1 st power).failed x = true := by
      intro x _
      unfold State.failed
      split
      · exact h1A
      · exact h1B
    have hrec : (s.step1 st power).recovery.boot.phase = .recovery := rfl
    rw [State.bootSlots_failed st 0 _ _ hall, if_pos hrec]
    exact ⟨rfl, h1A, h1B, rfl⟩

end State

/-- Settles O20: with both slots marked failed the sequence has none to try. -/
theorem startUpFailuresRestart : Obligations.StartUpFailuresRestart := by
  refine ⟨fun s st hph => ⟨congrArg Host.Outcome.next (if_pos hph), fun hA hB => ?_⟩, fun s hph => congrArg Host.Outcome.next (if_pos hph),
    fun s st hsafe hpairs => congrArg Host.Outcome.next (if_pos (by simp [hsafe, hpairs]))⟩
  obtain ⟨hcA, hcB, hci⟩ := (s.markFailed s.boot.runSlot).cleared_record true
  exact ⟨_, congrArg Host.Outcome.next (if_pos hph), State.startUp_failed (hcA.trans hA) (hcB.trans hB) hci⟩

end Sys2Proof.Machine

/-! PROOFS. Customs at the pins, the management target, and what is dropped when nobody completes it (02_startup_trust_config.md: R96 to
R101, R110; 19_module_hardware.md: R642, R653; 09_network_and_feeders.md: R359). -/

namespace Sys2Proof.Machine

/-- Settles O21. -/
theorem managementTargetAndHeater : Obligations.ManagementTargetAndHeater := by
  refine ⟨fun s b bs hgood => ?_, fun s n hgood => ?_, fun s hgood => congrArg Host.Outcome.next (if_pos hgood), fun s => rfl⟩
  · exact congrArg Host.Outcome.next (if_neg (by simp [hgood]))
  · exact congrArg Host.Outcome.next (if_neg (by simp [hgood]))

/-! ### Measuring (R89, R90) -/

/-- What an extension of a measurement register changes: the registers' log, and a value drawn. -/
theorem State.measEvent_eq (i : Nat) (s : State) : s.measEvent i = { s with
    boot := { s.boot with
      meas := (s.measEvent i).boot.meas, log := (s.measEvent i).boot.log, overflow := (s.measEvent i).boot.overflow }
    freeCtr := s.freeCtr + 1 + 1 } := rfl

/-! ### Presence and the seal (R96 to R101) -/

/-- Settles O22. -/
theorem presenceAndSealFollowTheirPins : Obligations.PresenceAndSealFollowTheirPins := by
  refine ⟨fun s b hb => congrArg Host.Outcome.next (if_neg hb), fun s => ?_, fun s hheld => congrArg Host.Outcome.next (if_pos hheld),
    fun s => rfl, fun s hstuck hfree => ?_, fun s c hw => ?_, fun s hph => ?_, fun s hloop hph => ?_, fun s => rfl⟩
  · refine ⟨presentPress s, rfl, ?_, ?_, ?_, fun o ho => ?_, fun a => ?_⟩
    · rw [presentPress, State.setBit_boot]
    · exact State.bit_setBit_same _ (by decide)
    · rw [presentPress, State.setBit_boot]
    · exact State.rd_setBit_other 1 _ ho
    · rw [presentPress, State.setBit_mem]
  · unfold State.mayOpen
    rw [hstuck]
    split
    · next c hc => simpa using hfree c hc
    · rfl
  · refine congrArg Host.Outcome.next ?_
    simp only [presenceWindowExpiry, hw]
  · refine congrArg Host.Outcome.next ?_
    by_cases hopen : s.boot.loopOpen = true
    · rw [sealBreak, if_pos hopen, ← hopen]
    · rw [sealBreak, if_neg hopen, if_pos hph]
  · obtain ⟨u, hu⟩ : ∃ u : State, u = { s with boot := { s.boot with loopOpen := true, broken := true } } := ⟨_, rfl⟩
    have hexec : sealBreak s = (u.measEvent 6).setBit Reg.CUS_EVENT 2 := by
      rw [sealBreak, if_neg (by simp [hloop]), if_neg hph, hu]
    have hmeas := u.measEvent_eq 6
    refine ⟨_, congrArg Host.Outcome.next hexec, ?_, ?_, State.bit_setBit_same _ (by decide), fun a => ?_, fun o ho => ?_⟩
    · rw [State.setBit_boot, hmeas, hu]
    · rw [State.setBit_boot, hmeas, hu]
    · rw [State.setBit_mem, hmeas, hu]
    · rw [State.rd_setBit_other 2 _ ho]
      exact State.rd_congr (by rw [hmeas, hu]) o

/-! ### Flash writes and text fragments (R110, R359) -/

theorem State.get_putBoot (slot : Nat) (x : Option BootImg) (s : State) :
    SMap.get (fun _ => none) (s.putBoot slot x).boot.boots (s.bootKey slot) = x :=
  SMap.get_set_same (fun _ => none) s.boot.boots (s.bootKey slot) x

theorem State.get_putEtvor (slot : Nat) (x : List Nat) (s : State) :
    SMap.get (fun _ => []) (s.putEtvor slot x).boot.etvors (s.etvorKey slot) = x :=
  SMap.get_set_same (fun _ => []) s.boot.etvors (s.etvorKey slot) x

/-- Settles O25. -/
theorem abandonedWorkIsDropped : Obligations.AbandonedWorkIsDropped := by
  refine ⟨fun s id => rfl, fun s w hw => ?_⟩
  have hexec : flashWriteTimeout s = { s.eraseSlot w.slot with boot := { (s.eraseSlot w.slot).boot with flash := none } } := by
    simp only [flashWriteTimeout, hw]
  refine ⟨_, congrArg Host.Outcome.next hexec, rfl, fun hlt => ?_, fun hge => ?_, fun o => ?_, fun a => ?_⟩
  · simp only [State.eraseSlot, hlt, if_true]
    exact s.get_putBoot w.slot none
  · simp only [State.eraseSlot, not_lt.2 hge, if_false]
    exact s.get_putEtvor (w.slot - 2) []
  · refine State.rd_congr ?_ o
    simp only [State.eraseSlot]
    split <;> rfl
  · simp only [State.eraseSlot]
    split <;> rfl

end Sys2Proof.Machine

/-! PROOFS. The monitoring commands of RMP (02_startup_trust_config.md: R92 to R95; 09_network_and_feeders.md: R356): an admitted request
runs its command and is answered with what it returns. -/

namespace Sys2Proof.Machine

/-! ### Admitted requests (R99, R354, R355) -/

namespace State.Admits

variable {s : State} {q : Req} {cmd : Nat} {c : RmpClass} {f : State → Nat × List Nat × State} {st : Nat} {body : List Nat} {t : State}

theorem rmp_eq (h : s.Admits q cmd c) (f : State → Nat × List Nat × State) :
    s.rmp q cmd c f = (decide ((f s).1 = stOk),
      ((f s).2.2.whenB (decide ((f s).1 = stOk) && c == .presence) (State.measEvent 5)).rmpReply q cmd (f s).1 (f s).2.1) := by
  obtain ⟨hreach, hnew, hauth⟩ := h
  unfold State.rmp
  simp only [hreach, hnew, hauth, Bool.not_true, Bool.false_eq_true, if_false]

/-- A command that is not of the presence class is not measured. -/
theorem rmpRun_plain (h : s.Admits q cmd c) (hc : c ≠ .presence) (hf : f s = (st, body, t)) :
    s.rmpRun q cmd c f = t.rmpReply q cmd st body := by
  have hpres : (c == RmpClass.presence) = false := by simpa using hc
  rw [State.rmpRun, h.rmp_eq, hf, hpres, Bool.and_false]
  rfl

/-- A presence-class command that is answered OK is measured into MEAS5 (R89). -/
theorem rmpRun_measured (h : s.Admits q cmd .presence) (hf : f s = (stOk, body, t)) :
    s.rmpRun q cmd .presence f = (t.measEvent 5).rmpReply q cmd stOk body := by
  rw [State.rmpRun, h.rmp_eq, hf]
  rfl

/-- One that is answered with another status is not. -/
theorem rmpRun_unmeasured (h : s.Admits q cmd .presence) (hst : st ≠ stOk) (hf : f s = (st, body, t)) :
    s.rmpRun q cmd .presence f = t.rmpReply q cmd st body := by
  rw [State.rmpRun, h.rmp_eq, hf, decide_eq_false hst, Bool.false_and]
  rfl

end State.Admits

/-! ### Reads of device memory (R34, R451, R456) -/

namespace State

theorem target_ne_of_isMem {s : State} {a : Nat} (h : s.isMem a = true) : s.target a = .gddr ∨ s.target a = .direct := by
  unfold State.isMem at h
  split at h
  · next ht => exact .inl ht
  · next ht => exact .inr ht
  · exact absurd h (by decide)

theorem isOut_of_isMem {s : State} {a : Nat} (n : Nat) (h : s.isMem a = true) : s.isOut a n = false := by
  unfold State.isOut
  rcases target_ne_of_isMem h with ht | ht <;> rw [ht] <;> rfl

theorem wakePorts_awake {s : State} (a n : Nat) (h : s.ports.any (fun p => p.2.selfRefresh && p.2.role == .active) = false) :
    s.wakePorts a n = s := by
  simp only [State.wakePorts, h, Bool.not_false, if_true]

theorem eccRead_clean {s : State} (agent a n : Nat) (h : s.memsys.flips = []) : s.eccRead agent a n = (false, s) := by
  simp only [State.eccRead, h, List.filter_nil, List.foldl_nil]

/-- A read of bytes that can be read, with no port asleep and no bit wrong, answers them and changes nothing. -/
theorem readMem_clean {s : State} {a n : Nat} (agent : Nat) (hmem : s.isMem a = true) (hcan : s.canRead a n = .ok)
    (hawake : s.ports.any (fun p => p.2.selfRefresh && p.2.role == .active) = false) (hflips : s.memsys.flips = []) :
    s.readMem agent a n = (.ok, Memory.bytes s.mem a n, s) := by
  simp only [State.readMem, State.readAs, hcan, isOut_of_isMem n hmem, wakePorts_awake a n hawake, eccRead_clean agent a n hflips,
    Bool.false_eq_true, and_false, if_false]

/-- A read at an unmapped address is refused with a usage event (R34). -/
theorem readMem_unmapped {s : State} {a n : Nat} (agent : Nat) (hn : 0 < n) (ht : s.target a = .unmapped) :
    s.readMem agent a n = (.refused, List.replicate n 0, s.usageAddr agent 1 a) := by
  have hcan : s.canRead a n = .refused := by
    simp [State.canRead, State.isMem, State.isOut, ht, Nat.pos_iff_ne_zero.1 hn]
  simp only [State.readMem, State.readAs, hcan]

end State

/-- Settles O23. -/
theorem monitorCommandsAnswer : Obligations.MonitorCommandsAnswer := by
  refine ⟨fun s q b hq hlen hpos hmax => ?_, fun s o r k i hrow hhalf hrc hwo hc hm ht hclaim hfeed hsnd hgate hstorm => ?_,
    fun s q x0 x1 x2 x3 x4 hq hx => ?_, fun s q n hq hn hrecent => ?_, fun s q i e hq hi he => ?_,
    fun s q b d hq hlen ha hpos hmax => ⟨fun hmem hmem' hcan hawake hflips => ?_, fun hregs ha4 hn4 => ?_, fun hout hok => ?_, fun hun => ?_⟩⟩
  · refine congrArg Host.Outcome.next (hq.rmpRun_plain (by decide) (if_neg ?_))
    omega
  · have hplain : s.ReadsPlain agentCc0 o r := ⟨⟨k, i, hrow⟩, hrc, hwo, hc, .inl hm, ht, hclaim, hfeed, hsnd, hgate, hstorm⟩
    simp only [getRegs, State.readAny, hclaim, hplain.regRead hhalf, List.append_nil]
  · have hx0 : byteAt [x0, x1, x2, x3, x4] 0 = x0 := Nat.mod_eq_of_lt (show x0 < 256 by omega)
    refine congrArg Host.Outcome.next (hq.rmpRun_plain (by decide) ?_)
    unfold certRead
    rw [hx0]
    exact if_neg (by simp; omega)
  · refine ⟨_, rfl, rfl, congrArg Host.Outcome.next (hq.rmpRun_plain (by decide) ?_)⟩
    simp only [quoteCmd, not_lt.2 hn, not_le.2 hrecent, if_false]
  · have hi0 : byteAt [i] 0 = i := Nat.mod_eq_of_lt hi
    refine congrArg Host.Outcome.next (hq.rmpRun_plain (by decide) ?_)
    simp [logRead, hi0, he]
  all_goals
    have hbody : ¬ (b.length ≠ 10 ∨ two40 ≤ bodyN b 0 8 ∨ bodyN b 8 2 = 0 ∨ 1024 < bodyN b 8 2) := by omega
    refine congrArg Host.Outcome.next (hq.rmpRun_plain (by decide) ?_)
    simp only [memReadCmd, hbody, if_false]
  · have hread := State.readMem_clean agentCc0 hmem hcan hawake hflips
    rcases State.target_ne_of_isMem hmem with ht | ht <;> simp only [ht, hread]
  · simp only [hregs, ha4, hn4, ne_eq, not_true_eq_false, or_self, if_false]
  · simp only [hout, hok, if_true]
  · simp only [hun, State.readMem_unmapped agentCc0 hpos hun]

end Sys2Proof.Machine

/-! PROOFS. Power (11_power_and_effort.md: R415 to R438): the inputs as their voltage changes, the samples, the governor and the
gates. -/

namespace Sys2Proof.Machine

/-! ### Inputs (R415 to R418) -/

namespace State

theorem countTrip_onlyRegs (b : Bool) (s : State) : s.OnlyRegs (s.countTrip b) := OnlyRegs.of_eq rfl

theorem wakeUp_of_powered_phase {s : State} (h : s.boot.phase ≠ .unpowered) : s.wakeUp = s := by
  have hphase : (s.boot.phase == .unpowered) = false := by simpa using h
  simp only [State.wakeUp, State.hasPower, hphase, bne, Bool.not_false, Bool.true_or, if_true]

theorem powered_of_input {s : State} {b : Bool} (h : (s.input b).st = .ok) : s.powered = true := by
  cases b with
  | false => simp [State.powered, show s.power.inA.st = .ok from h]
  | true => simp [State.powered, show s.power.inB.st = .ok from h]

theorem wakeUp_input (s : State) (b : Bool) : s.wakeUp.input b = s.input b := by
  obtain ⟨⟨hpow, -⟩, -⟩ := s.wakeUp_effect
  exact input_congr (by rw [hpow]) (by rw [hpow]) b

/-- A tripped input stays tripped whatever its voltage (R416). -/
theorem inputChange_tripped {b : Bool} {s : State} (mv : Int) (h : (s.input b).st = .tripped) :
    ((s.inputChange b mv).input b).st = .tripped := by
  have hst : ((s.input b).st == InState.tripped) = true := by simpa using h
  have hchange : s.inputChange b mv = s.inputTo b mv .tripped := by
    simp only [State.inputChange, hst, if_true]
  obtain ⟨hin, -⟩ := s.inputTo_effect b mv .tripped
  rw [hchange, hin]

theorem efuseRetry_fault {b : Bool} {s : State} (mv : Int) (h : (s.input b).st = .tripped) : s.efuseRetry b true mv = s.countTrip b := by
  have hst : ((s.input b).st != InState.tripped) = false := by simp [h]
  simp only [State.efuseRetry, hst, Bool.false_eq_true, if_false, if_true]

theorem efuseRetry_restores {b : Bool} {s : State} {mv : Int} (h : (s.input b).st = .tripped) (hmv : inputAt .absent mv = .ok) :
    s.efuseRetry b false mv = s.inputTo b mv .ok := by
  have hst : ((s.input b).st != InState.tripped) = false := by simp [h]
  simp only [State.efuseRetry, hst, hmv, Bool.false_eq_true, if_false, beq_self_eq_true, if_true]

end State

/-- The thresholds of an input as numbers (R415). -/
theorem inputAt_thresholds (old : InState) (mv : Int) :
    (mv < -1000 → inputAt old mv = .reversed) ∧ (-1000 ≤ mv → mv < 18000 → inputAt old mv = .absent) ∧
    (18000 ≤ mv → mv < 33000 → inputAt old mv = .under) ∧ (35000 ≤ mv → mv < 78000 → inputAt old mv = .ok) ∧
    (33000 ≤ mv → mv < 35000 → inputAt old mv = (if old = .ok ∨ old = .high then .ok else .under)) ∧
    (78000 ≤ mv → mv < 80000 → inputAt old mv = (if old = .high then .high else .ok)) ∧ (80000 ≤ mv → inputAt old mv = .high) := by
  have hlow : (if old = .ok ∨ old = .high then (33000 : Int) else 35000) ≤ 35000 ∧
      33000 ≤ (if old = .ok ∨ old = .high then (33000 : Int) else 35000) := by split <;> omega
  have hhigh : (if old = .high then (78000 : Int) else 80000) ≤ 80000 ∧ 78000 ≤ (if old = .high then (78000 : Int) else 80000) := by
    split <;> omega
  have hat : inputAt old mv = if mv < -1000 then .reversed else if mv < 18000 then .absent
      else if mv < (if old = .ok ∨ old = .high then 33000 else 35000) then .under
      else if mv < (if old = .high then 78000 else 80000) then .ok else .high := by
    simp [inputAt]
  rw [hat]
  refine ⟨fun h => if_pos h, fun h k => ?_, fun h k => ?_, fun h k => ?_, fun h k => ?_, fun h k => ?_, fun h => ?_⟩
  · rw [if_neg (by omega), if_pos k]
  · rw [if_neg (by omega), if_neg (by omega), if_pos (by omega)]
  · rw [if_neg (by omega), if_neg (by omega), if_neg (by omega), if_pos (by omega)]
  · rw [if_neg (by omega), if_neg (by omega), if_pos (show mv < (if old = .high then 78000 else 80000) by omega)]
    by_cases hold : old = .ok ∨ old = .high
    · simp only [if_pos hold, if_neg (show ¬ mv < 33000 by omega)]
    · simp only [if_neg hold, if_pos k]
  · rw [if_neg (by omega), if_neg (by omega), if_neg (by omega)]
    by_cases hold : old = .high
    · simp only [if_pos hold, if_neg (show ¬ mv < 78000 by omega)]
    · simp only [if_neg hold, if_pos k]
  · rw [if_neg (by omega), if_neg (by omega), if_neg (by omega), if_neg (by omega)]

/-- Settles O46: an input enters a state by `State.inputTo`; the thresholds are those of `inputAt`. -/
theorem powerInputsFollowTheirVoltage : Obligations.PowerInputsFollowTheirVoltage := by
  refine ⟨fun s b mv => ⟨fun hst => ?_, fun hst => ?_, fun hst => ?_, fun hst hph => ?_, fun hst hlo hhi => ?_,
    fun hexp hst hs => ?_, fun hst => ?_⟩, inputAt_thresholds⟩
  · obtain ⟨hin, hother, -, -, hphase, -⟩ := s.inputChange_effect b mv hst
    obtain ⟨-, hwake⟩ := (s.inputChange b mv).wakeUp_effect
    rw [hphase] at hwake
    refine ⟨_, rfl, ?_, ?_, fun hun hok => ?_, fun hph => ?_⟩
    · rw [State.wakeUp_input, hin]
    · rw [State.wakeUp_input, hother]
    · rw [hwake, if_pos ⟨hun, State.powered_of_input (b := b) (by rw [hin]; exact hok)⟩]
    · rw [hwake, if_neg fun h => hph h.1]
  · exact ⟨_, rfl, by rw [State.wakeUp_input, State.inputChange_tripped mv hst]⟩
  · have htrip : s.efuseTrip b = (s.inputTo b (s.input b).mv .tripped).countTrip b := if_pos (by simpa using hst)
    obtain ⟨hin, hother, -⟩ := s.inputTo_effect b (s.input b).mv .tripped
    have hcount (b' : Bool) : ((s.inputTo b (s.input b).mv .tripped).countTrip b).input b' = (s.inputTo b (s.input b).mv .tripped).input b' := by
      have h := (State.Reported.of_onlyRegs ((s.inputTo b (s.input b).mv .tripped).countTrip_onlyRegs b)).power_eq
      exact State.input_congr (by rw [h]) (by rw [h]) b'
    exact ⟨_, congrArg Host.Outcome.next htrip, by rw [hcount, hin], by rw [hcount, hother]⟩
  · have hcount : (s.countTrip b).boot = s.boot := (State.Reported.of_onlyRegs (s.countTrip_onlyRegs b)).boot_eq
    refine congrArg Host.Outcome.next ?_
    rw [State.efuseRetry_fault mv hst]
    exact State.wakeUp_of_powered_phase (by rwa [hcount])
  · obtain ⟨-, -, -, hok, -, hnear, -⟩ := inputAt_thresholds .absent mv
    have hat : inputAt .absent mv = .ok := by
      by_cases h : mv < 78000
      · exact hok hlo h
      · exact hnear (by omega) hhi
    obtain ⟨hin, hother, -⟩ := s.inputTo_effect b mv .ok
    refine ⟨_, congrArg (fun u : State => Host.Outcome.next u.wakeUp) (State.efuseRetry_restores hst hat), ?_, ?_⟩
    · rw [State.wakeUp_input, hin]
    · rw [State.wakeUp_input, hother]
  · exact congrArg Host.Outcome.next (if_pos (by simp [hexp, hst, hs]))
  · exact congrArg Host.Outcome.next (if_pos (by simp [hst]))

/-! ### Samples, the governor and gates (R420 to R438) -/

namespace State

theorem OnlyRegs.putBit {s t : State} (o b : Nat) (v : Bool) (h : s.OnlyRegs t) : s.OnlyRegs (t.putBit o b v) :=
  h.trans (OnlyRegs.of_eq rfl)

/-- A power sample keeps all but the inputs' voltages, the load on P3V3_OUT and registers. -/
theorem powerSample_effect (r : PowerReading) (s : State) :
    ∃ u : State, u.mem = s.mem ∧ (u.input false).mv = r.mvA ∧ (u.input true).mv = r.mvB ∧ u.power.p3v3 = r.p3v3
      ∧ s.powerSample r = (((u.wr Reg.PWR_IN_MW r.mw).wr Reg.PWR_HOLDUP_MV r.holdup).wr Reg.PWR_RAIL_MW r.rail).bump
        Reg.PWR_IN_ENERGY_LAST r.mw := by
  unfold State.powerSample
  extract_lets xB xA s1 p s2 s3 s4
  have h3 : s2.OnlyRegs s3 := (((OnlyRegs.refl s2).wr _ _).wr _ _).putBit _ _ _
  have h4 : s2.OnlyRegs s4 := ((h3.wr _ _).wr _ _).putBit _ _ _
  have hpow : s4.power = s2.power := by rw [h4]
  have hin (b : Bool) : s4.input b = s1.input b := input_congr (by rw [hpow]) (by rw [hpow]) b
  refine ⟨s4, h4.mem_eq, ?_, ?_, by rw [hpow], rfl⟩
  · rw [hin]
    rfl
  · rw [hin]
    rfl

theorem powerWindow_over {mw : Nat} {s : State} (h : 105 * (s.ceilEff * 1000) < 100 * mw) :
    s.powerWindow mw = (({ s with power := { s.power with overNext := true, overRun := s.power.overRun + 1 } } : State).setBit
      Reg.PWR_EVENT 6).whenB (decide (s.power.overRun + 1 = 100)) (State.report 0x3305 noAgent 0 0) := if_pos h

theorem powerWindow_under {mw : Nat} {s : State} (h : mw ≤ s.ceilEff * 1000) :
    s.powerWindow mw = ({ s with power := { s.power with overRun := 0, above := false, overNext := false } } : State).clrBit
      Reg.PWR_GOV_STATUS 4 := (if_neg (by omega)).trans (if_pos h)

theorem bit_whenB_report (c : Bool) (code agent access addr b : Nat) {o : Nat} (s : State) (h : o ≠ Reg.WATCH_EVENT) :
    (s.whenB c (State.report code agent access addr)).bit o b = s.bit o b := by
  cases c with
  | false => rfl
  | true => exact State.bit_other (State.rd_report code agent access addr s h) b

theorem gradeLimit_congr {s t : State} (h : t.ident = s.ident) : t.gradeLimit = s.gradeLimit := by
  rw [State.gradeLimit, State.gradeLimit, h]

/-- A junction temperature within the limits is only shown. -/
theorem temperature_within {tj : Int} {s : State} (htj : tj < 115) (htb : s.power.tb ≤ s.gradeLimit) :
    ∃ v, s.temperature [] [tj] [] = ({ s with power := { s.power with tj := tj } } : State).wr Reg.PWR_TEMP v := by
  unfold State.temperature
  extract_lets s1 tb tj' hot old s2 s3 s4 p
  have hgrade : ¬ s3.gradeLimit < tb := by
    have hsame : s3.gradeLimit = s.gradeLimit := gradeLimit_congr (State.wr_ident _ _ s2)
    have htb' : tb = s.power.tb := rfl
    omega
  have h4 : s4 = s3 := if_neg hgrade
  have hhot : decide ((115 : Int) ≤ tj') = false := decide_eq_false (not_le.2 htj)
  rw [h4, hhot, Bool.false_and]
  exact ⟨_, rfl⟩

theorem governorRecheck_idle {s : State} (h : s.running = false ∨ s.bit Reg.PWR_GOV_CTRL 0 = false ∨ s.power.above = true) :
    s.governorRecheck = s := by
  refine if_pos ?_
  rcases h with h | h | h <;> simp [h]

theorem governorRecheck_lowers {s : State} (hrun : s.running = true) (hen : s.bit Reg.PWR_GOV_CTRL 0 = true)
    (habove : s.power.above = false) (hg : (s.gCalc s.toDispatch).getD 0 < s.gov) :
    s.governorRecheck = s.setGov ((s.gCalc s.toDispatch).getD 0) (s.gCalc s.toDispatch).isNone := by
  unfold State.governorRecheck
  rw [if_neg (by simp [hrun, hen, habove])]
  extract_lets c g
  rw [if_pos (by simp [show g < s.gov from hg]), Nat.min_eq_left (Nat.le_of_lt hg)]

theorem clockGate_idle {u : Nat} {s : State} (hleaf : isLeaf u = true) (heng : (s.unit u).eng = .idle) (hjob : (s.unit u).job = none)
    (hroot : (s.unit (s.berthRoot u)).job = none) (hpow : (s.unit u).pow = .on) (hforce : s.forceOn u = false) :
    s.clockGate u = s.setUnit u { s.unit u with pow := .clockGated } := by
  unfold State.clockGate
  extract_lets x free
  have hfree : free = true := by
    simp only [free]
    rw [hroot]
  exact if_pos (by simp [x, hleaf, heng, hjob, hfree, hpow, hforce])

theorem unitWake_wakes {u : Nat} {s : State} (hleaf : isLeaf u = true) (hsafe : s.watch.safe = false) (hgate : s.mustGate u = false)
    (heng : (s.unit u).eng ≠ .fenced) : s.unitWake u = (s.setUnit u { s.unit u with pow := .on }).dispatch :=
  if_pos (by simp [hleaf, hsafe, hgate, heng])

end State

/-- Settles O47. -/
theorem powerSamplesAndGates : Obligations.PowerSamplesAndGates := by
  refine ⟨fun s r => ?_, fun s eff fixed => rfl, fun s tj htj htb => ?_, fun s h => ?_, fun s hrun hen habove hg => ?_,
    fun s mw h => ?_, fun s mw h => ?_, fun s agent v harm hv => ?_, fun s u hleaf heng hjob hroot hpow hforce => ?_,
    fun s u hleaf hsafe hgate heng => ⟨?_, fun hdeep hpow hbook => ?_⟩, fun s g i hg hi hst hbit => ?_⟩
  · obtain ⟨u, hmem, hA, hB, hp, hu⟩ := s.powerSample_effect r
    have hrep : u.Reported (s.powerSample r) := by
      rw [hu]
      exact ((((State.Reported.refl u).wr _ _).wr _ _).wr _ _).bump _ _
    have hpow := hrep.power_eq
    have hin (b : Bool) : (s.powerSample r).input b = u.input b := State.input_congr (by rw [hpow]) (by rw [hpow]) b
    refine ⟨_, rfl, ?_, ?_, by rw [hin, hA], by rw [hin, hB], by rw [hpow, hp], by rw [hrep.mem_eq, hmem]⟩
    · rw [hu, State.rd_congr (State.bump_regs _ _ _), State.rd_wr_other _ _ (by decide), State.rd_wr_other _ _ (by decide),
        State.rd_wr_same]
      rfl
    · rw [hu, State.rd_congr (State.bump_regs _ _ _), State.rd_wr_other _ _ (by decide), State.rd_wr_same]
      rfl
  · obtain ⟨v, ht⟩ := State.temperature_within htj htb
    refine ⟨_, congrArg Host.Outcome.next ht, State.wr_power _ _ _, fun o ho => ?_, State.wr_mem _ _ _⟩
    exact State.rd_wr_other _ _ ho
  · exact congrArg Host.Outcome.next (State.governorRecheck_idle h)
  · exact congrArg Host.Outcome.next (State.governorRecheck_lowers hrun hen habove hg)
  · refine ⟨_, congrArg Host.Outcome.next (State.powerWindow_over h), ?_⟩
    generalize hw : ({ s with power := { s.power with overNext := true, overRun := s.power.overRun + 1 } } : State) = w
    have hrep := ((State.Reported.refl w).setBit Reg.PWR_EVENT 6).whenB (decide (s.power.overRun + 1 = 100))
      (fun s => (State.Reported.refl s).report 0x3305 noAgent 0 0)
    rw [hrep.power_eq, hrep.mem_eq, State.bit_whenB_report _ _ _ _ _ _ _ (by decide), State.bit_setBit_same _ (by decide), ← hw]
    exact ⟨rfl, rfl, rfl, rfl⟩
  · refine ⟨_, congrArg Host.Outcome.next (State.powerWindow_under h), ?_⟩
    rw [State.clrBit_power, State.bit_clrBit_same _ (by decide)]
    exact ⟨rfl, rfl, rfl, rfl⟩
  · refine congrArg Host.Outcome.next ?_
    rw [State.coefReset, harm, hv]
    rfl
  · exact congrArg Host.Outcome.next (State.clockGate_idle hleaf heng hjob hroot hpow hforce)
  · exact congrArg Host.Outcome.next (State.unitWake_wakes hleaf hsafe hgate heng)
  · have hdeep' : s.deepWake u = s.unitWake u := if_pos (by simp [hdeep, hpow, hgate, hbook])
    exact congrArg Host.Outcome.next (hdeep'.trans (State.unitWake_wakes hleaf hsafe hgate heng))
  · exact congrArg Host.Outcome.next (if_pos (by simp [hg, hi, hst, hbit]))

end Sys2Proof.Machine

/-! PROOFS. What an access to device memory can change (00_scope.md: R33 to R36; 12_memory.md: R451 to R467): the errors it meets are
handled in the registers, the Watch, the ports and the memory system alone, and only the bytes of a write change. -/

namespace Sys2Proof.Machine

/-! ### Handling of errors (R451 to R456, R466, R467) -/

/-- `t` is `s` with other registers, live counts, Watch, ports and memory system: all that error handling can touch. -/
def State.Handled (s t : State) : Prop :=
  t = { s with regs := t.regs, counts := t.counts, watch := t.watch, memsys := t.memsys, ports := t.ports }

namespace State.Handled

theorem refl (s : State) : s.Handled s := rfl

theorem of_eq {s t : State} {r : SMap Word} {c : SMap Nat} {w : WatchSt} {m : MemSt} {p : SMap PortSt}
    (h : t = { s with regs := r, counts := c, watch := w, memsys := m, ports := p }) : s.Handled t := by
  subst h
  rfl

theorem trans {s t u : State} (h : s.Handled t) (k : t.Handled u) : s.Handled u := by
  unfold State.Handled at h
  rw [h] at k
  exact of_eq k

theorem of_reported {s t : State} (h : s.Reported t) : s.Handled t :=
  of_eq (r := t.regs) (c := t.counts) (w := t.watch) (m := s.memsys) (p := s.ports) h

variable {s t : State}

theorem wr (o v : Nat) (h : s.Handled t) : s.Handled (t.wr o v) := h.trans (of_reported ((Reported.refl t).wr o v))
theorem setBit (o b : Nat) (h : s.Handled t) : s.Handled (t.setBit o b) := h.trans (of_reported ((Reported.refl t).setBit o b))
theorem inc (o : Nat) (h : s.Handled t) : s.Handled (t.inc o) := h.trans rfl
theorem bump (o n : Nat) (h : s.Handled t) : s.Handled (t.bump o n) := h.trans rfl
theorem setPort (k : Nat) (x : PortSt) (h : s.Handled t) : s.Handled (t.setPort k x) := h.trans rfl
theorem memsys (m : MemSt) (h : s.Handled t) : s.Handled { t with memsys := m } := h.trans rfl
theorem watch (w : WatchSt) (h : s.Handled t) : s.Handled { t with watch := w } := h.trans rfl
theorem report (code agent access addr : Nat) (h : s.Handled t) : s.Handled (t.report code agent access addr) :=
  h.trans (of_reported ((Reported.refl t).report code agent access addr))
theorem usageAddr (agent access a : Nat) (h : s.Handled t) : s.Handled (t.usageAddr agent access a) := h.report _ _ _ _

theorem whenB {f : State → State} (c : Bool) (hf : ∀ s : State, s.Handled (f s)) (h : s.Handled t) : s.Handled (t.whenB c f) := by
  cases c with
  | false => exact h
  | true => exact h.trans (hf t)

theorem each {α : Type} {f : α → State → State} (hf : ∀ a, ∀ s : State, s.Handled (f a s)) (l : List α) (h : s.Handled t) :
    s.Handled (t.each l f) := by
  induction l generalizing t with
  | nil => exact h
  | cons a l ih => exact ih (h.trans (hf a t))

theorem memErr (agent kind addr : Nat) (h : s.Handled t) : s.Handled (t.memErr agent kind addr) := by
  refine h.trans ?_
  unfold State.memErr
  split
  · exact refl t
  · exact (of_eq rfl : t.Handled (t.wr40 Reg.MEM_ERR_ADDR_LO addr)).wr _ _

theorem cond (holds : Bool) (code agent : Nat) (h : s.Handled t) : s.Handled (t.cond holds code agent) := by
  refine h.trans ?_
  unfold State.cond
  split
  · split
    · exact refl t
    · exact (refl t).report _ _ _ _
  · exact (refl t).watch _

theorem memConds (h : s.Handled t) : s.Handled t.memConds := by
  refine h.trans ?_
  unfold State.memConds
  split
  · exact refl t
  · exact (((refl t).cond _ _ _).cond _ _ _).cond _ _ _

theorem promote (h : s.Handled t) : s.Handled t.promote := by
  refine h.trans ?_
  unfold State.promote
  split
  · exact (refl t).setPort _ _
  · exact refl t

theorem fencePort (p : Nat) (h : s.Handled t) : s.Handled (t.fencePort p) :=
  ((((h.setPort _ _).setBit _ _)).whenB _ fun s => (refl s).report _ _ _ _).memConds

theorem dstFails (h : s.Handled t) : s.Handled t.dstFails := by
  refine h.trans ?_
  unfold State.dstFails
  split
  · exact refl t
  · exact (((((refl t).memsys _).setBit _ _).setBit _ _).fencePort _).promote

theorem retirePort (p : Nat) (h : s.Handled t) : s.Handled (t.retirePort p) := by
  refine h.trans ?_
  unfold State.retirePort
  dsimp only
  split
  · exact (refl t).setPort _ _
  · exact (refl t).report _ _ _ _

theorem poisonAt (p line : Nat) (h : s.Handled t) : s.Handled (t.poisonAt p line) := by
  refine h.trans ?_
  unfold State.poisonAt
  extract_lets x u
  have hu : t.Handled u := (refl t).setBit _ _
  split
  · exact refl t
  · split
    · exact (refl t).setPort _ _
    · split
      · exact hu.dstFails
      · split
        · exact hu.setPort _ _
        · exact hu.retirePort _

theorem eccRead (agent a n : Nat) (h : s.Handled t) : s.Handled (t.eccRead agent a n).2 := by
  refine h.trans ?_
  unfold State.eccRead
  generalize t.memsys.flips.filter (fun p => decide (a < p.1 + 8) && decide (p.1 < a + n)) = l
  have key : ∀ acc : Bool × State, t.Handled acc.2 → t.Handled (l.foldl (fun acc p =>
      let s := acc.2
      if p.2 = 1 then
        (acc.1, ((({ s with memsys := { s.memsys with flips := SMap.del p.1 s.memsys.flips } }).bump
          Reg.MEM_PROT_CE_LAST 1).setBit Reg.MEM_EVENT 8).report 0x2502 agent 1 p.1)
      else
        let s := { s with memsys := { s.memsys with flips := SMap.del p.1 s.memsys.flips } }
        let s := (((s.inc Reg.MEM_PROT_UE).setBit Reg.MEM_EVENT 9).memErr agent 3 p.1).report 0x3504 agent 1 p.1
        (true, s.poisonAt (s.physPort (s.logicalPort p.1)) (lineOf p.1))) acc).2 := by
    induction l with
    | nil => exact fun _ h => h
    | cons p l ih =>
      intro acc hacc
      rw [List.foldl_cons]
      refine ih _ ?_
      dsimp only
      split
      · exact (((hacc.memsys _).bump _ _).setBit _ _).report _ _ _ _
      · exact ((((hacc.memsys _).inc _).setBit _ _).memErr _ _ _).report _ _ _ _ |>.poisonAt _ _
  exact key _ (refl t)

theorem wakePorts (a n : Nat) (h : s.Handled t) : s.Handled (t.wakePorts a n) := by
  refine h.trans ?_
  unfold State.wakePorts
  split
  · exact refl t
  · refine each (fun l s => ?_) _ (refl t)
    dsimp only
    split
    · exact (refl s).setPort _ _
    · exact refl s

theorem unpoison (line : Nat) (h : s.Handled t) : s.Handled (t.unpoison line) :=
  each (fun _ s => (refl s).setPort _ _) _ h

theorem badRead (agent access a n : Nat) (h : s.Handled t) : s.Handled (t.badRead agent access a n) := by
  refine h.trans ?_
  unfold State.badRead
  split
  · split
    · exact refl t
    · exact (((refl t).setBit _ _).memErr _ _ _).report _ _ _ _
  · exact refl t

theorem outboundErr (h : s.Handled t) : s.Handled t.outboundErr := by
  refine h.trans ?_
  unfold State.outboundErr
  split
  · exact ((refl t).bump _ _).setBit _ _
  · exact refl t

theorem eccWrite (agent a n : Nat) (h : s.Handled t) : s.Handled (t.eccWrite agent a n) :=
  (h.memsys _).eccRead _ _ _

theorem mem_eq (h : s.Handled t) : t.mem = s.mem := by rw [h]

end State.Handled

/-! ### Accesses (R34, R35, R557) -/

/-- `t` is `s` but for what an access to device memory can touch: the above, memory, the host's reads and the free values. -/
def State.Accessed (s t : State) : Prop :=
  t = { s with regs := t.regs, counts := t.counts, watch := t.watch, memsys := t.memsys, ports := t.ports, mem := t.mem,
               out := t.out, freeCtr := t.freeCtr }

namespace State.Accessed

theorem refl (s : State) : s.Accessed s := rfl

theorem of_eq {s t : State} {r : SMap Word} {c : SMap Nat} {w : WatchSt} {m : MemSt} {p : SMap PortSt} {x : Memory} {o : List Out} {f : Nat}
    (h : t = { s with regs := r, counts := c, watch := w, memsys := m, ports := p, mem := x, out := o, freeCtr := f }) :
    s.Accessed t := by
  subst h
  rfl

theorem trans {s t u : State} (h : s.Accessed t) (k : t.Accessed u) : s.Accessed u := by
  unfold State.Accessed at h
  rw [h] at k
  exact of_eq k

theorem of_handled {s t : State} (h : s.Handled t) : s.Accessed t :=
  of_eq (r := t.regs) (c := t.counts) (w := t.watch) (m := t.memsys) (p := t.ports) (x := s.mem) (o := s.out) (f := s.freeCtr) h

variable {s t : State}

theorem wr (o v : Nat) (h : s.Accessed t) : s.Accessed (t.wr o v) := h.trans rfl
theorem setBit (o b : Nat) (h : s.Accessed t) : s.Accessed (t.setBit o b) := h.trans rfl
theorem inc (o : Nat) (h : s.Accessed t) : s.Accessed (t.inc o) := h.trans rfl
theorem bump (o n : Nat) (h : s.Accessed t) : s.Accessed (t.bump o n) := h.trans rfl
theorem wrM (a n v : Nat) (h : s.Accessed t) : s.Accessed (t.wrM a n v) := h.trans rfl
theorem putM (a : Nat) (bs : List Nat) (h : s.Accessed t) : s.Accessed (t.putM a bs) := h.trans rfl
theorem emit (o : Out) (h : s.Accessed t) : s.Accessed (t.emit o) := h.trans rfl
theorem report (code agent access addr : Nat) (h : s.Accessed t) : s.Accessed (t.report code agent access addr) :=
  h.trans (of_handled ((Handled.refl t).report code agent access addr))

theorem writeMem (agent a : Nat) (bs : List Nat) (h : s.Accessed t) : s.Accessed (t.writeMem agent a bs).2 := by
  refine h.trans ?_
  unfold State.writeMem
  split
  · split
    · exact (refl t).emit _
    · have hput : t.Accessed (((t.wakePorts a bs.length).eccWrite agent a bs.length).putM a bs) :=
        (of_handled (((Handled.refl t).wakePorts _ _).eccWrite _ _ _)).putM _ _
      exact hput.trans (of_handled (Handled.each (fun l s => (Handled.refl s).unpoison l) _ (Handled.refl _)))
  · exact of_handled ((Handled.refl t).usageAddr _ _ _)
  · dsimp only
    split
    · exact refl t
    · exact of_handled (Handled.refl t).outboundErr

theorem readAs (agent access a n : Nat) (h : s.Accessed t) : s.Accessed (t.readAs agent access a n).2.2 := by
  refine h.trans ?_
  unfold State.readAs
  split
  · split
    · exact rfl
    · dsimp only
      have hread : t.Accessed ((t.wakePorts a n).eccRead agent a n).2 :=
        of_handled (((Handled.refl t).wakePorts _ _).eccRead _ _ _)
      split
      · exact hread
      · exact hread
  · exact of_handled ((Handled.refl t).usageAddr _ _ _)
  · split
    · exact of_handled ((Handled.refl t).badRead _ _ _ _)
    · exact of_handled (Handled.refl t).outboundErr

theorem readMem (agent a n : Nat) (h : s.Accessed t) : s.Accessed (t.readMem agent a n).2.2 := h.readAs _ _ _ _

theorem units_eq (h : s.Accessed t) : t.units = s.units := by rw [h]
theorem host_eq (h : s.Accessed t) : t.host = s.host := by rw [h]
theorem queues_eq (h : s.Accessed t) : t.queues = s.queues := by rw [h]
theorem boot_eq (h : s.Accessed t) : t.boot = s.boot := by rw [h]
theorem tide_eq (h : s.Accessed t) : t.tide = s.tide := by rw [h]

end State.Accessed

/-- A byte after a run of bytes is written. -/
theorem Memory.read_put (a x : Nat) (l : List Nat) (m : Memory) :
    Memory.read (Memory.put m a l) x = if a ≤ x ∧ x < a + l.length then l.getD (x - a) 0 % 256 else Memory.read m x := by
  induction l generalizing m a with
  | nil =>
    rw [if_neg (by rintro ⟨h, k⟩; exact absurd (Nat.lt_of_le_of_lt h k) (lt_irrefl a))]
    rfl
  | cons b bs ih =>
    rw [Memory.put, ih]
    have hlen : (b :: bs).length = bs.length + 1 := rfl
    by_cases hx : x = a
    · subst hx
      rw [if_neg (by omega), if_pos (by omega), Nat.sub_self]
      exact congrArg BitVec.toNat (SMap.get_set_same _ _ _ _)
    · have hother : Memory.read (Memory.write m a b) x = Memory.read m x :=
        congrArg BitVec.toNat (SMap.get_set_other _ _ _ hx)
      rw [hother]
      by_cases hin : a ≤ x ∧ x < a + (b :: bs).length
      · rw [if_pos (by omega), if_pos hin, show x - a = (x - (a + 1)) + 1 by omega, List.getD_cons_succ]
      · rw [if_neg (by omega), if_neg hin]

end Sys2Proof.Machine

/-! PROOFS. Reports to the Watch (17_faults_and_availability.md: R584 to R587), the bell (16_host_and_bell.md: R563 to R578) and the
sounding station (18_soundings.md: R613 to R622). -/

namespace Sys2Proof.Machine

/-! ### What a report does to the Watch (R584 to R587, R601) -/

/-- The safe state asked for by a report of class SAFE, the first of which is the cause (R601). -/
def WatchSt.ask (code : Nat) (w : WatchSt) : WatchSt :=
  if code / 4096 = 6 ∧ !w.safeAsked then { w with safeAsked := true, cause := some code } else w

namespace WatchSt

variable (w : WatchSt)

/-- Logging changes the log and its write count alone. -/
theorem logReport_eq (code agent access tide ns : Nat) : ∃ l n, w.logReport code agent access tide ns = { w with log := l, logWr := n } := by
  unfold WatchSt.logReport
  split
  · split
    · exact ⟨_, _, rfl⟩
    · exact ⟨_, _, rfl⟩
  · exact ⟨_, _, rfl⟩

/-- A capture changes the first report alone. -/
theorem capture_eq (c : Capture) : ∃ x, w.capture c = { w with fe := x } := by
  unfold WatchSt.capture
  split
  · exact ⟨_, rfl⟩
  · exact ⟨_, rfl⟩

/-- An entry changes the active table alone. -/
theorem enter_eq (code agent : Nat) : ∃ a b, w.enter code agent = { w with active := a, full := b } := by
  unfold WatchSt.enter
  dsimp only
  split
  · exact ⟨_, _, rfl⟩
  · split
    · exact ⟨_, _, rfl⟩
    · split
      · exact ⟨_, _, rfl⟩
      · split
        · exact ⟨_, _, rfl⟩
        · exact ⟨_, _, rfl⟩

theorem ask_eq (code : Nat) : ∃ a c, w.ask code = { w with safeAsked := a, cause := c } := by
  unfold WatchSt.ask
  split
  · exact ⟨_, _, rfl⟩
  · exact ⟨_, _, rfl⟩

theorem capture_fe_some {c x : Capture} (h : w.fe = some c) : (w.capture x).fe = some c := by
  unfold WatchSt.capture
  rw [h]
  exact h

theorem capture_fe_none {x : Capture} (h : w.fe = none) : (w.capture x).fe = some x := by
  unfold WatchSt.capture
  rw [h]

end WatchSt

namespace State

/-- The Watch after a report is logged, and after it is captured and entered in the active table. -/
def logged (code agent access : Nat) (s : State) : WatchSt :=
  if code / 4096 = 2 then s.watch else s.watch.logReport code agent access s.reportTide s.nsInTide
def captured (code agent access addr : Nat) (s : State) : WatchSt :=
  (s.logged code agent access).capture { code, agent, access, addr, tide := s.reportTide, ns := s.nsInTide }
def entered (code agent access addr : Nat) (s : State) : WatchSt :=
  if 4 ≤ code / 4096 then (s.captured code agent access addr).enter code agent else s.captured code agent access addr

theorem logged_eq (code agent access : Nat) (s : State) :
    ∃ l n, s.logged code agent access = { s.watch with log := l, logWr := n } := by
  unfold logged
  split
  · exact ⟨_, _, rfl⟩
  · exact s.watch.logReport_eq _ _ _ _ _

/-- Setting event bits and counting a report leave the Watch as it was. -/
theorem watch_of_events (u : State) (c : Bool) (b : Nat) (r : Option Nat) :
    (match r with
      | some r => ((u.setBit Reg.WATCH_EVENT b).whenB c (State.setBit Reg.WATCH_EVENT 6)).bump r 1
      | none => (u.setBit Reg.WATCH_EVENT b).whenB c (State.setBit Reg.WATCH_EVENT 6)).watch = u.watch := by
  cases r <;> cases c <;> rfl

theorem watch_report {code agent access addr : Nat} {s : State} (hself : s.watch.selfLost = false)
    (hsafe : ¬ (code / 4096 = 6 ∧ s.watch.safe = true)) :
    (s.report code agent access addr).watch = (s.entered code agent access addr).ask code := by
  unfold State.report
  rw [hself, if_neg Bool.false_ne_true]
  extract_lets cls tt ns w0 cap w1 w2 w3 s1 s2 s3
  rw [if_neg hsafe]
  exact watch_of_events s1 cap (classEvent cls) (classStat cls)

theorem watch_report_safe {code agent access addr : Nat} {s : State} (hself : s.watch.selfLost = false)
    (hsafe : code / 4096 = 6 ∧ s.watch.safe = true) : (s.report code agent access addr).watch = s.logged code agent access := by
  unfold State.report
  rw [hself, if_neg Bool.false_ne_true]
  dsimp only
  rw [if_pos hsafe]
  rfl

/-- No report changes how many register accesses were refused. -/
theorem refusals_report (code agent access addr : Nat) (s : State) :
    (s.report code agent access addr).watch.refusals = s.watch.refusals := by
  have hlogged : (s.logged code agent access).refusals = s.watch.refusals := by
    obtain ⟨l, n, h⟩ := s.logged_eq code agent access
    rw [h]
  have hentered : (s.entered code agent access addr).refusals = s.watch.refusals := by
    obtain ⟨x, hx⟩ := (s.logged code agent access).capture_eq
      { code, agent, access, addr, tide := s.reportTide, ns := s.nsInTide }
    have hcap : (s.captured code agent access addr).refusals = s.watch.refusals := by
      unfold captured
      rw [hx]
      exact hlogged
    unfold entered
    split
    · obtain ⟨a, b, h⟩ := (s.captured code agent access addr).enter_eq code agent
      rw [h]
      exact hcap
    · exact hcap
  have hasked : ((s.entered code agent access addr).ask code).refusals = s.watch.refusals := by
    obtain ⟨a, c, h⟩ := (s.entered code agent access addr).ask_eq code
    rw [h]
    exact hentered
  by_cases hself : s.watch.selfLost = true
  · have hsame : s.report code agent access addr = s := if_pos hself
    rw [hsame]
  · have hself' : s.watch.selfLost = false := by simpa using hself
    by_cases hsafe : code / 4096 = 6 ∧ s.watch.safe = true
    · rw [watch_report_safe hself' hsafe, hlogged]
    · rw [watch_report hself' hsafe, hasked]

end State

/-- Settles O56: a report is logged, captured, entered and, for class SAFE, asks for the safe state, each of which changes fields of its
own. -/
theorem reportsEnterTheWatch : Obligations.ReportsEnterTheWatch := by
  intro s t code agent access addr hself hsafe ht
  have hw := State.watch_report (code := code) (agent := agent) (access := access) (addr := addr) hself fun h =>
    Bool.false_ne_true (hsafe.symm.trans h.2)
  have hrep : s.Reported (s.report code agent access addr) := (State.Reported.refl s).report _ _ _ _
  obtain ⟨l, n, hlog⟩ := s.logged_eq code agent access
  obtain ⟨x, hcap⟩ := (s.logged code agent access).capture_eq
    { code, agent, access, addr, tide := s.reportTide, ns := s.nsInTide }
  have hcap' : s.captured code agent access addr = { s.logged code agent access with fe := x } := hcap
  obtain ⟨act, full, hent⟩ : ∃ a b, s.entered code agent access addr = { s.captured code agent access addr with active := a, full := b } := by
    unfold State.entered
    split
    · exact (s.captured code agent access addr).enter_eq code agent
    · exact ⟨_, _, rfl⟩
  obtain ⟨ask, cause, hask⟩ := (s.entered code agent access addr).ask_eq code
  have hasked : (s.entered code agent access addr).safeAsked = s.watch.safeAsked ∧ (s.entered code agent access addr).cause = s.watch.cause := by
    rw [hent, hcap', hlog]
    exact ⟨rfl, rfl⟩
  have hfe : t.watch.fe = (s.captured code agent access addr).fe := by
    rw [ht, hw, hask, hent]
  have hfe0 : (s.logged code agent access).fe = s.watch.fe := by rw [hlog]
  refine ⟨fun h6 => ?_, fun h6 => ?_, fun c hc => ?_, fun hc => ?_, fun h4 => ?_, ?_, ?_⟩
  · rw [ht, hw]
    unfold WatchSt.ask
    rw [hasked.1]
    cases hs : s.watch.safeAsked with
    | false => exact ⟨by simp [h6], fun _ => by simp [h6]⟩
    | true => exact ⟨by simp [hasked.1, hs], fun h => absurd h (by decide)⟩
  · rw [ht, hw]
    unfold WatchSt.ask
    rw [if_neg fun h => h6 h.1]
    exact hasked
  · rw [hfe]
    exact WatchSt.capture_fe_some _ (hfe0.trans hc)
  · rw [hfe]
    exact WatchSt.capture_fe_none _ (hfe0.trans hc)
  · rw [ht, hw, hask]
    have hcaptured : s.entered code agent access addr = s.captured code agent access addr := if_neg (by omega)
    rw [hcaptured, hcap', hlog]
  · rw [ht, hrep.mem_eq]
  · rw [ht, hrep.units_eq]

/-! ### Writes that are refused, or rewrite a runtime setting (R11, R109) -/

/-- A source whose claim has ended (R570). -/
def BellSrc.released (x : BellSrc) : BellSrc :=
  { x with active := false, claimer := 63, fell := false, timer := x.pending && x.hold != 0 }

namespace State

theorem setting_accepted {o : Nat} {f : State → State} {s : State} (hw : (f s).watch.refusals = s.watch.refusals)
    (hb : blockOf o = .ucb → (0x40 < ucbOff o ∧ ucbOff o < 0x200) ∨ 0x600 ≤ ucbOff o ∨ ((f s).unit (ucbUnit o)).cfgErr = 0) :
    s.setting o f = (f s).runtimeChanged false := by
  have hucb : (blockOf o == .ucb && (ucbOff o = Reg.UCB_CTRL || ucbOff o = Reg.UCB_GRP_CTRL || decide (Reg.UCB_GRP_MEMBER ≤ ucbOff o))
      && decide (ucbOff o < 0x600) && decide (((f s).unit (ucbUnit o)).cfgErr ≠ 0)) = false := by
    by_cases h : blockOf o = .ucb
    · rcases hb h with ⟨h1, h2⟩ | h6 | herr
      · have hoff : (decide (ucbOff o = Reg.UCB_CTRL) || decide (ucbOff o = Reg.UCB_GRP_CTRL) || decide (Reg.UCB_GRP_MEMBER ≤ ucbOff o))
            = false := by
          simp only [Bool.or_eq_false_iff, decide_eq_false_iff_not, Reg.UCB_CTRL, Reg.UCB_GRP_CTRL, Reg.UCB_GRP_MEMBER]
          omega
        rw [hoff]
        simp
      · simp [not_lt.2 h6]
      · simp [herr]
    · simp [h]
  have hnot : s.refusedBy (f s) o = false := by
    rw [State.refusedBy, hucb, hw]
    simp
  rw [State.setting, hnot, if_neg Bool.false_ne_true]

theorem setting_refused {o : Nat} {f : State → State} {s : State} (hw : (f s).watch.refusals = s.watch.refusals + 1) :
    s.setting o f = f s := by
  have hyes : s.refusedBy (f s) o = true := by
    rw [State.refusedBy, hw]
    simp
  rw [State.setting, hyes, if_pos rfl]

theorem refusals_usageReg (agent o : Nat) (s : State) : (s.usageReg agent o).watch.refusals = s.watch.refusals + 1 :=
  congrArg (· + 1) (refusals_report _ _ _ _ s)

theorem refusals_bellError (kind source target agent addr : Nat) (s : State) :
    (s.bellError kind source target agent addr).watch.refusals = s.watch.refusals := by
  unfold State.bellError
  rw [refusals_report]
  split
  · rw [State.bump_watch]
  · rw [State.wr_watch, State.bump_watch]

/-! ### Signals of the bell (R568, R575) -/

/-- `t` is `s` with other registers and outputs: all that signalling a target can touch. -/
def Signalled (s t : State) : Prop := t = { s with regs := t.regs, out := t.out }

namespace Signalled

theorem refl (s : State) : s.Signalled s := rfl

theorem of_eq {s t : State} {r : SMap Word} {o : List Out} (h : t = { s with regs := r, out := o }) : s.Signalled t := by
  subst h
  rfl

theorem trans {s t u : State} (h : s.Signalled t) (k : t.Signalled u) : s.Signalled u := by
  unfold Signalled at h
  rw [h] at k
  exact of_eq k

theorem of_onlyRegs {s t : State} (h : s.OnlyRegs t) : s.Signalled t := of_eq (r := t.regs) (o := s.out) h

theorem emit (s : State) (o : Out) : s.Signalled (s.emit o) := rfl

theorem each {α : Type} {f : α → State → State} (hf : ∀ a, ∀ s : State, s.Signalled (f a s)) (l : List α) (s : State) :
    s.Signalled (s.each l f) := by
  induction l generalizing s with
  | nil => exact refl s
  | cons a l ih => exact (hf a s).trans (ih (f a s))

theorem msix (v : Nat) (s : State) : s.Signalled (s.msix v) := (of_onlyRegs (s.sndCount_onlyRegs _ _ _)).trans (emit _ _)

theorem signalTarget (t : Nat) (s : State) : s.Signalled (s.signalTarget t) := by
  unfold State.signalTarget
  split
  · exact emit s _
  · split
    · split
      · exact emit s _
      · exact refl s
    · split
      · exact refl s
      · split
        · exact of_onlyRegs ((OnlyRegs.refl s).setBit _ _)
        · exact msix _ s

theorem settle (s old : State) : s.Signalled (s.settle old) :=
  each (fun t s => by
    split
    · exact signalTarget t s
    · exact refl s) _ s

variable {s t : State}

theorem mem_eq (h : s.Signalled t) : t.mem = s.mem := by rw [h]
theorem watch_eq (h : s.Signalled t) : t.watch = s.watch := by rw [h]
theorem bell_eq (h : s.Signalled t) : t.bell = s.bell := by rw [h]
theorem src_eq (h : s.Signalled t) (n : Nat) : t.src n = s.src n := by rw [State.src, State.src, h.bell_eq]

end Signalled

theorem src_setSrc_other {k j : Nat} (x : BellSrc) (s : State) (h : j ≠ k) : (s.setSrc k x).src j = s.src j := by
  rw [State.src_setSrc, if_neg h]

/-- A complete from the target that claimed a source ends the claim; what follows only signals. -/
theorem bellComplete_claimer {agent t v : Nat} {s : State} (hhost : ¬ (agent = hostAgent ∧ t < 4)) (hact : (s.src (bits v 9 0)).active = true)
    (hcl : (s.src (bits v 9 0)).claimer = t) :
    (s.setSrc (bits v 9 0) (s.src (bits v 9 0)).released).Signalled (bellComplete agent t v s) := by
  unfold bellComplete
  extract_lets o n x s1 s2
  have h2 : s1.Signalled s2 := by
    unfold s2
    split
    · exact Signalled.signalTarget t s1
    · exact Signalled.refl s1
  rw [if_neg hhost, if_pos ⟨hact, hcl⟩]
  refine h2.trans (Signalled.each (fun u q => ?_) _ s2)
  split
  · exact Signalled.signalTarget u q
  · exact Signalled.refl q

end State

theorem blockOf_bellSrcCfg {n : Nat} (h : n < 1024) : blockOf (Reg.BELL_SRC_CFG + 8 * n) = .bell := by
  simp only [blockOf, Reg.BELL_SRC_CFG]
  iterate 4 rw [if_neg (by omega)]
  exact if_pos (by omega)

theorem lt_of_noDriver {n : Nat} (h : noDriver n = false) : n < 1024 := by
  by_contra hn
  simp [noDriver, not_lt.1 hn] at h

/-- Settles O54. -/
theorem bellClaimsAndCompletes : Obligations.BellClaimsAndCompletes := by
  refine ⟨fun s n hdrv hn hline hold hpend => ?_, fun s agent t hhost hearly => ⟨fun n hn => ?_, fun hn => ?_⟩,
    fun s agent t v n hhost hearly hbits => ⟨fun hact hcl => ?_, fun hact hcl => ?_, fun hact => ?_⟩,
    fun s agent w v harm => congrArg Host.Outcome.next (if_neg (by simp [harm])), fun s agent n v harm hdrv ht hf => ?_,
    fun s agent n v harm hdrv ht => ?_, fun s n htimer hpend hact hcur hfb hne => ?_⟩
  · obtain ⟨u, hu⟩ : ∃ u : State, u = s.setSrc n { s.src n with line := true } := ⟨_, rfl⟩
    have husrc : u.src n = { s.src n with line := true } := by rw [hu, State.src_setSrc_same]
    have hedge : u.edge n = u.setSrc n { u.src n with pending := true, timer := !(u.src n).active && (u.src n).hold != 0 } := by
      unfold State.edge
      rw [hdrv, if_neg Bool.false_ne_true]
      exact if_neg (by simp [husrc, hpend])
    have hexec : sourceEdge n s = (u.edge n).settle s := by
      unfold sourceEdge
      rw [if_neg (by simp [hdrv, hn])]
      dsimp only
      rw [hline, hold, hu]
      rfl
    refine ⟨_, congrArg Host.Outcome.next hexec, ?_, ?_, fun k hk => ?_⟩
    · rw [hedge, State.src_setSrc_same]
    · rw [hedge, State.src_setSrc_same, husrc]
    · rw [hedge, State.src_setSrc_other _ _ hk, hu, State.src_setSrc_other _ _ hk]
  · refine congrArg Host.Outcome.next ((if_neg (by simp [hearly])).trans ?_)
    unfold bellClaim
    dsimp only
    rw [if_neg hhost, hn]
  · refine congrArg Host.Outcome.next ((if_neg (by simp [hearly])).trans ?_)
    unfold bellClaim
    dsimp only
    rw [if_neg hhost, hn]
  · subst hbits
    have hsig := State.bellComplete_claimer hhost hact hcl
    refine ⟨_, congrArg Host.Outcome.next (if_neg (by simp [hearly])), ?_, ?_, ?_, fun k hk => ?_, ?_⟩
    · rw [hsig.src_eq, State.src_setSrc_same, BellSrc.released]
    · rw [hsig.src_eq, State.src_setSrc_same, BellSrc.released]
    · rw [hsig.src_eq, State.src_setSrc_same, BellSrc.released]
    · rw [hsig.src_eq, State.src_setSrc_other _ _ hk]
    · rw [hsig.mem_eq, State.setSrc_mem]
  · subst hbits
    refine congrArg Host.Outcome.next ((if_neg (by simp [hearly])).trans ?_)
    unfold bellComplete
    dsimp only
    rw [if_neg hhost, if_neg fun h => hcl h.2, if_pos hact]
  · subst hbits
    refine congrArg Host.Outcome.next ((if_neg (by simp [hearly])).trans ?_)
    unfold bellComplete
    dsimp only
    rw [if_neg hhost, if_neg fun h => Bool.false_ne_true (hact.symm.trans h.1), hact, if_neg Bool.false_ne_true]
  · obtain ⟨y, hy, hy1, hy2, hy3, hy4, hy5, hy6⟩ : ∃ y : BellSrc, bellSrcCfgWrite agent n v s = (s.setSrc n y).settle s
        ∧ y.target = bits v 5 0 ∧ y.fallback = bits v 13 8 ∧ y.hold = bits v 31 16 ∧ y.enable = v.testBit 15
        ∧ y.pending = (s.src n).pending ∧ y.active = (s.src n).active := by
      unfold bellSrcCfgWrite
      dsimp only
      rw [harm, hdrv, ht, hf]
      exact ⟨_, rfl, rfl, rfl, rfl, rfl, rfl, rfl⟩
    have hset : s.setting (Reg.BELL_SRC_CFG + 8 * n) (bellSrcCfgWrite agent n v)
        = (bellSrcCfgWrite agent n v s).runtimeChanged false := by
      refine State.setting_accepted ?_ fun h => ?_
      · rw [hy, (State.Signalled.settle _ _).watch_eq, State.setSrc_watch]
      · rw [blockOf_bellSrcCfg (lt_of_noDriver hdrv)] at h
        exact absurd h (by decide)
    rw [hy] at hset
    refine ⟨_, congrArg Host.Outcome.next hset, ?_⟩
    rw [State.src_setSrc_same]
    exact ⟨hy1, hy2, hy3, hy4, hy5, hy6, fun k hk => State.src_setSrc_other _ _ hk⟩
  · have hwrite : bellSrcCfgWrite agent n v s = (s.bellError 4 n (bits v 5 0) agent (regAddr (Reg.BELL_SRC_CFG + 8 * n))).refusal := by
      unfold bellSrcCfgWrite
      dsimp only
      rw [harm, hdrv, ht]
      rfl
    refine congrArg Host.Outcome.next ((State.setting_refused ?_).trans hwrite)
    rw [hwrite]
    exact congrArg (· + 1) (State.refusals_bellError _ _ _ _ _ s)
  · refine congrArg Host.Outcome.next ?_
    unfold holdTimerExpiry
    dsimp only
    rw [if_pos (by simp [htimer, hpend, hact, hcur]), if_pos (by simp [hfb, hne])]

/-! ### Soundings (R613, R618, R621) -/

namespace State

theorem sndSelect_accepted {agent src i v : Nat} {s : State} (h : (s.sndSelect agent src i v).1 = true) :
    sndSource src = true ∧ (s.sndSelect agent src i v).2 = s.stage (sndBase src i) (Nat.land v 0x1FFF) := by
  unfold State.sndSelect at h ⊢
  dsimp only at h ⊢
  split at h
  · exact absurd h Bool.false_ne_true
  · next hsrc =>
    split at h
    · next hok =>
      rw [if_neg hsrc, if_pos hok]
      exact ⟨by simpa using (not_or.1 hsrc).1, rfl⟩
    · exact absurd h Bool.false_ne_true

theorem sndSelect_refused {agent src i v : Nat} {s : State} (h : (s.sndSelect agent src i v).1 = false) :
    (s.sndSelect agent src i v).2 = s.usageReg agent (sndBase src i) := by
  unfold State.sndSelect at h ⊢
  dsimp only at h ⊢
  split at h
  · next hsrc => rw [if_pos hsrc]
  · next hsrc =>
    split at h
    · exact absurd h.symm Bool.false_ne_true
    · next hok => rw [if_neg hsrc, if_neg hok]

theorem sndRecord_accessed (bs : List Nat) (s : State) : s.Accessed (s.sndRecord bs).2 := by
  have hdrop (t : State) (h : s.Accessed t) : s.Accessed t.sndDrop := (h.bump _ _).setBit _ _
  unfold State.sndRecord
  dsimp only
  split
  · exact Accessed.refl s
  · split
    · exact hdrop s (Accessed.refl s)
    · have hw := (Accessed.refl s).writeMem agentSnd (s.sndBaseAddr + 64 * (s.rd Reg.SND_LOG_WR % s.sndRecords)) bs
      split
      · exact hw.inc _
      · exact hdrop _ hw

end State

/-- A selection lies in a block set's registers, or apart from the registers of a UCB that only an idle group takes. -/
theorem sndBase_not_config {src i : Nat} (hsrc : sndSource src = true) (hi : i < 8) (h : blockOf (sndBase src i) = .ucb) :
    0x40 < ucbOff (sndBase src i) ∧ ucbOff (sndBase src i) < 0x200 := by
  unfold sndSource at hsrc
  by_cases hset : 0xF00 ≤ src
  · rw [if_pos hset] at hsrc
    have hlt : src < 0xF06 := by simpa using hsrc
    have hb : sndBase src i = Reg.SNDSET_SEL + (src - 0xF00) * 0x100 + 0x20 * i := if_neg (by omega)
    have : blockOf (sndBase src i) = .snd := by
      rw [hb]
      simp only [blockOf, Reg.SNDSET_SEL]
      iterate 6 rw [if_neg (by omega)]
      exact if_pos (by omega)
    rw [this] at h
    exact absurd h (by decide)
  · have hb : sndBase src i = ucb src (Reg.SND_SEL + 0x20 * i) := if_pos (by omega)
    rw [hb]
    unfold ucbOff ucb
    simp only [Reg.SND_SEL]
    omega

/-- Settles O57. -/
theorem soundingsCommandsAct : Obligations.SoundingsCommandsAct := by
  refine ⟨fun s agent src i v harm hgrp => ⟨fun hok => ?_, fun hok => ?_⟩, fun s agent v harm => ⟨fun hok => ?_, fun hok => ?_⟩,
    fun s c r v h b => congrArg Host.Outcome.next (if_pos h), fun s c r v h => ?_, fun s c r v h => ?_⟩
  · have hwrite : State.sndSelWrite agent src (i % 8) v s = (s.sndSelect agent src (i % 8) v).2 := by
      unfold State.sndSelWrite
      rw [harm, hgrp]
      rfl
    obtain ⟨hsrc, hstage⟩ := State.sndSelect_accepted hok
    refine congrArg Host.Outcome.next ((State.setting_accepted ?_ ?_).trans (by rw [hwrite]))
    · rw [hwrite, hstage, State.stage_watch]
    · exact fun h => .inl (sndBase_not_config hsrc (Nat.mod_lt _ (by decide)) h)
  · have hwrite : State.sndSelWrite agent src (i % 8) v s = s.usageReg agent (sndBase src (i % 8)) := by
      unfold State.sndSelWrite
      rw [harm, hgrp]
      exact State.sndSelect_refused hok
    refine congrArg Host.Outcome.next ((State.setting_refused ?_).trans hwrite)
    rw [hwrite, State.refusals_usageReg]
  · have hwrite : State.sampleCfgWrite agent v s = s.wr Reg.SND_SAMPLE_CFG (Nat.land v 0x0F07FFF3) := by
      unfold State.sampleCfgWrite
      dsimp only
      rw [harm, hok]
      rfl
    refine congrArg Host.Outcome.next ((State.setting_accepted ?_ ?_).trans (by rw [hwrite]))
    · rw [hwrite, State.wr_watch]
    · exact fun h => absurd h (by decide)
  · have hwrite : State.sampleCfgWrite agent v s = s.usageReg agent Reg.SND_SAMPLE_CFG := by
      unfold State.sampleCfgWrite
      dsimp only
      rw [harm, hok]
      rfl
    refine congrArg Host.Outcome.next ((State.setting_refused ?_).trans hwrite)
    rw [hwrite, State.refusals_usageReg]
  · exact congrArg Host.Outcome.next ((if_neg (not_not.2 h)).trans (if_pos rfl))
  · obtain ⟨bs, hexec⟩ : ∃ bs, s.skidSample c r v false
        = ((s.sndRecord bs).2.setBit Reg.SND_EVENT 1).whenB (s.sndRecord bs).1 (State.bump Reg.SND_SAMPLES_LAST 1) := by
      unfold State.skidSample
      rw [if_neg (not_not.2 h), if_neg Bool.false_ne_true]
      exact ⟨_, rfl⟩
    have hacc := State.sndRecord_accessed bs s
    generalize s.sndRecord bs = p at hexec hacc
    refine ⟨_, congrArg Host.Outcome.next hexec, ?_⟩
    have hbump : p.2.Accessed ((p.2.setBit Reg.SND_EVENT 1).whenB p.1 (State.bump Reg.SND_SAMPLES_LAST 1)) := by
      cases p.1 with
      | false => exact (State.Accessed.refl p.2).setBit _ _
      | true => exact ((State.Accessed.refl p.2).setBit _ _).bump _ _
    refine ⟨?_, (hacc.trans hbump).units_eq, (hacc.trans hbump).host_eq⟩
    have hbit := State.bit_setBit_same (o := Reg.SND_EVENT) (b := 1) p.2 (by decide)
    cases p.1 with
    | false => exact hbit
    | true => exact (State.bit_other (State.rd_congr (State.bump_regs _ _ _) _) 1).trans hbit

end Sys2Proof.Machine

/-! PROOFS. The PCIe function (16_host_and_bell.md: R550 to R575): link and resets, power states, BAR2, configuration requests, MSI-X and
the mailbox. -/

namespace Sys2Proof.Machine

namespace State

/-! ### Resets (R552, R575) -/


theorem bar2Base0_frame (s : State) : s.bar2Base0.mem = s.mem ∧ s.bar2Base0.host = s.host := ⟨rfl, rfl⟩

theorem configReset_frame (s : State) : s.configReset.mem = s.mem ∧ s.configReset.host = { s.host with
    d3hot := false, bme := false, msixEn := false, msixMaskAll := false, pmeEn := false, relaxed := false, bar2Size := 3 } := by
  unfold State.configReset
  extract_lets h s1 s2 s3
  have h1 : s1.mem = s.mem ∧ s1.host = s.host := by
    unfold s1
    split
    · exact ⟨rfl, rfl⟩
    · exact s.bar2Base0_frame
  have h3 : s2.OnlyRegs (s3.wr Reg.HOST_MSIX_PBA 0) :=
    (OnlyRegs.each (fun i s => (OnlyRegs.refl s).wr _ _) _ s2).wr _ _
  rw [h3]
  exact ⟨h1.1, rfl⟩

/-- Returning claims to pending touches the bell alone (R575). -/
theorem bellHostReset_frame (s : State) : s.bellHostReset = { s with bell := s.bellHostReset.bell } := by
  unfold State.bellHostReset
  generalize s.bell.filter (fun p => p.2.active && decide (4 ≤ p.2.claimer) && decide (p.2.claimer < 36)) = l
  induction l generalizing s with
  | nil => rfl
  | cons p l ih => exact (ih _).trans rfl

theorem signalHosts_signalled (s : State) : s.Signalled s.signalHosts :=
  Signalled.each (fun v s => by
    split
    · exact Signalled.signalTarget _ s
    · exact Signalled.refl s) _ s

theorem Signalled.host_eq {s t : State} (h : s.Signalled t) : t.host = s.host := by rw [h]

theorem linkDown_of_up {s : State} (h : s.host.linkUp = true) :
    s.linkDown = ({ s with host := { s.host with linkUp := false, rate := 0, width := 0 } } : State).setBit Reg.HOST_EVENT 0 := if_pos h

theorem linkDown_frame (s : State) : s.linkDown.mem = s.mem ∧ s.linkDown.host.linkUp = false
    ∧ s.linkDown.host.bme = s.host.bme ∧ s.linkDown.host.msixEn = s.host.msixEn ∧ s.linkDown.host.bar2Size = s.host.bar2Size := by
  cases h : s.host.linkUp with
  | false =>
    have hsame : s.linkDown = s := if_neg (by simp [h])
    rw [hsame]
    exact ⟨rfl, h, rfl, rfl, rfl⟩
  | true =>
    rw [linkDown_of_up h]
    exact ⟨rfl, rfl, rfl, rfl, rfl⟩

theorem bit_of_bell {s t : State} (h : t = { s with bell := t.bell }) (o b : Nat) : t.bit o b = s.bit o b := by
  rw [h]
  rfl

end State

theorem hostMsixPba_ne (v : Nat) (h : v < 32) : Reg.HOST_MSIX_PBA ≠ Reg.HOST_MSIX_TABLE + 16 * v + 12 := by
  simp only [Reg.HOST_MSIX_PBA, Reg.HOST_MSIX_TABLE]
  omega

/-- Settles O53. -/
theorem hostFunctionFollowsItsLink : Obligations.HostFunctionFollowsItsLink := by
  refine ⟨fun s h => ?_, fun s => rfl, fun s => ?_, fun s rate width h => ?_, fun s rate width hen hperst hout => ?_, fun s hup hd => ?_,
    fun s hup hd => ?_, fun s k hk hne => ?_, fun s off bs p h => ⟨?_, ?_⟩, fun s u off a bs hawake hoff hu ha => ⟨?_, fun h => ?_, fun h t ht => ?_⟩,
    fun s u off n a hawake hoff hu ha => ⟨fun h => ?_, fun h l t ht => ?_⟩, fun s c h => ?_, fun s t c h hw ht => ?_, fun s c h hw => ?_,
    fun s v hv harm hpba => ?_, fun s v hv harm => ?_, fun s agent v st l h => ?_, fun s t agent v st l h ht => ⟨?_, fun hb hn => ?_⟩,
    fun s u v hv harm hu hpba hmask hpres => ?_⟩
  · obtain ⟨hcm, hch⟩ := s.configReset_frame
    obtain ⟨hlm, hlup, hlb, hle, hl2⟩ := s.configReset.linkDown_frame
    obtain ⟨w, hw⟩ : ∃ w : State, w = s.configReset.linkDown.setBit Reg.HOST_EVENT 1 := ⟨_, rfl⟩
    have hwh : w.host = s.configReset.linkDown.host := by rw [hw, State.setBit_host]
    have hwm : w.mem = s.mem := by rw [hw, State.setBit_mem, hlm, hcm]
    have hwb : w.bit Reg.HOST_EVENT 1 = true := by rw [hw, State.bit_setBit_same _ (by decide)]
    have hexec : s.perst true = ({ w with host := { w.host with perst := true } } : State).bellHostReset := by
      unfold State.perst
      rw [if_pos rfl, h, if_neg Bool.false_ne_true, ← hw]
    have hbell := State.bellHostReset_frame { w with host := { w.host with perst := true } }
    refine ⟨_, congrArg Host.Outcome.next hexec, ?_⟩
    rw [State.bit_of_bell hbell, hbell]
    refine ⟨rfl, ?_, ?_, ?_, ?_, hwb, hwm⟩
    · exact (congrArg HostSt.linkUp hwh).trans hlup
    · exact (congrArg HostSt.bme hwh).trans (hlb.trans (by rw [hch]))
    · exact (congrArg HostSt.msixEn hwh).trans (hle.trans (by rw [hch]))
    · exact (congrArg HostSt.bar2Size hwh).trans (hl2.trans (by rw [hch]))
  · obtain ⟨hcm, hch⟩ := s.configReset_frame
    have hbell := State.bellHostReset_frame (s.configReset.setBit Reg.HOST_EVENT 2)
    refine ⟨_, rfl, ?_⟩
    unfold State.flr
    rw [State.bit_of_bell hbell, hbell, State.setBit_host, hch, State.setBit_mem, hcm, State.bit_setBit_same _ (by decide)]
    exact ⟨rfl, rfl, rfl, rfl, rfl, rfl⟩
  · exact congrArg Host.Outcome.next (State.linkDown_of_up h)
  · obtain ⟨w, hw⟩ : ∃ w : State, w = { s with host := { s.host with
        linkUp := true, rate := max 1 (min 5 rate), width := if [1, 2, 4, 8].contains width then width else 8 } } := ⟨_, rfl⟩
    have hexec : s.pcieLink true rate width = if s.host.linkUp then w else (w.setBit Reg.HOST_EVENT 0).signalHosts := by
      unfold State.pcieLink
      rw [if_neg (by simp), if_neg (by simp [hen, hperst, hout]), hw]
    refine ⟨_, congrArg Host.Outcome.next hexec, ?_⟩
    split
    · rw [hw]
      exact ⟨rfl, rfl, rfl⟩
    · have hsig := (w.setBit Reg.HOST_EVENT 0).signalHosts_signalled
      rw [hsig.host_eq, hsig.mem_eq, State.setBit_host, State.setBit_mem, hw]
      exact ⟨rfl, rfl, rfl⟩
  · exact congrArg Host.Outcome.next ((if_pos (by simp [hup, hd])).trans (if_pos rfl))
  · exact congrArg Host.Outcome.next ((if_pos (by simp [hup, hd])).trans (if_neg Bool.false_ne_true))
  · exact congrArg Host.Outcome.next (if_neg (by omega))
  · exact congrArg Host.Outcome.next (if_pos (by rcases h with h | h <;> simp [h]))
  · exact congrArg Host.Outcome.next (if_pos (by rcases h with h | h <;> simp [h]))
  · subst hu
    exact congrArg Host.Outcome.next ((if_neg (by simp [hawake, hoff])).trans (if_pos rfl))
  · subst hu ha
    refine congrArg Host.Outcome.next ((if_neg (by simp [hawake, hoff])).trans ((if_neg Bool.false_ne_true).trans (if_pos ?_)))
    exact decide_eq_true h
  · subst hu ha
    refine congrArg Host.Outcome.next ((if_neg (by simp [hawake, hoff])).trans ((if_neg Bool.false_ne_true).trans ((if_neg ?_).trans ?_)))
    · simpa [State.bar2Beyond] using h
    · rw [ht]
  · subst hu ha
    refine congrArg Host.Outcome.next ((if_neg (by simp [hawake, hoff])).trans (if_pos ?_))
    exact decide_eq_true h
  · subst hu ha
    refine congrArg Host.Outcome.next ((if_neg (by simp [hawake, hoff])).trans ((if_neg ?_).trans ?_))
    · simpa [State.bar2Beyond] using h
    · rw [ht]
  · exact congrArg Host.Outcome.next (if_pos h)
  · subst ht
    exact congrArg Host.Outcome.next ((if_neg (by simp [h])).trans (if_pos hw))
  · exact ⟨s.draw.2, congrArg Host.Outcome.next ((if_neg (by simp [h])).trans (if_neg (by simp [hw]))), rfl⟩
  · refine congrArg Host.Outcome.next ?_
    rw [Nat.mod_eq_of_lt hv, if_neg (by simp [harm])]
    refine if_neg ?_
    rw [State.bit_clrBit_other _ _ _ (hostMsixPba_ne v hv), hpba]
    exact Bool.false_ne_true
  · refine congrArg Host.Outcome.next ?_
    rw [Nat.mod_eq_of_lt hv, if_pos harm]
  · exact congrArg Host.Outcome.next (if_pos h)
  · subst ht
    exact congrArg Host.Outcome.next (if_neg (by simp [h]))
  · subst ht
    refine congrArg Host.Outcome.next ((if_neg (by simp [h])).trans ((if_neg (by simp [hb])).trans (if_pos (.inl hn))))
  · subst hu
    refine congrArg Host.Outcome.next ?_
    rw [Nat.mod_eq_of_lt hv, if_neg (by simp [harm])]
    exact (if_pos (by rw [hpba, hmask]; rfl)).trans (if_pos hpres)

end Sys2Proof.Machine

/-! PROOFS. Unit control (01_harbour_layout.md: R44 to R59, R75): what entering an engine state keeps, and what a write of UCB_CTRL, of a
group's registers and of a watermark word does. -/

namespace Sys2Proof.Machine

namespace State

/-! ### Entering an engine state (R435, R438) -/

/-- `t` is `s` with other banks: all that gating a gantry's scratchpad can touch. -/
def Gated (s t : State) : Prop := t = { s with power := t.power, spad := t.spad }

theorem Gated.trans {s t u : State} (h : s.Gated t) (k : t.Gated u) : s.Gated u := by
  unfold Gated at h k ⊢
  rw [h] at k
  exact k

theorem gated_setBankSt (g i v : Nat) (s : State) : s.Gated (s.setBankSt g i v) := rfl

/-- What holds from each state to the next under a reflexive, transitive relation holds of a whole run. -/
theorem each_rel {α : Type} {R : State → State → Prop} {f : α → State → State} (hrefl : ∀ s, R s s)
    (htrans : ∀ {s t u}, R s t → R t u → R s u) (hf : ∀ a s, R s (f a s)) (l : List α) (s : State) : R s (s.each l f) := by
  induction l generalizing s with
  | nil => exact hrefl s
  | cons a l ih => exact htrans (hf a s) (ih (f a s))

theorem spadGate_gated (g : Nat) (s : State) : s.Gated (s.spadGate g) := by
  unfold State.spadGate
  split
  · exact rfl
  · refine each_rel (R := Gated) (fun _ => rfl) Gated.trans (fun i s => ?_) _ s
    split
    · exact gated_setBankSt _ _ _ s
    · exact gated_setBankSt _ _ _ s

theorem setEng_eq (u : Nat) (e : Eng) (s : State) :
    ∃ p d x, s.setEng u e = ({ s with power := p, spad := d } : State).setUnit u x
      ∧ x.eng = e ∧ x.cfgErr = (s.unit u).cfgErr ∧ x.standsFor = (s.unit u).standsFor := by
  unfold State.setEng
  extract_lets x gate s1
  have h1 : s.Gated s1 := by
    unfold s1
    cases gate with
    | false => exact rfl
    | true => exact s.spadGate_gated u
  rw [h1]
  exact ⟨_, _, _, rfl, rfl, rfl, rfl⟩

/-- Entering an engine state leaves registers, memory and the Watch as they were. -/
theorem setEng_frame (u : Nat) (e : Eng) (s : State) :
    (s.setEng u e).regs = s.regs ∧ (s.setEng u e).mem = s.mem ∧ (s.setEng u e).watch = s.watch := by
  obtain ⟨p, d, x, h, -⟩ := s.setEng_eq u e
  rw [h]
  exact ⟨rfl, rfl, rfl⟩

theorem setEng_unit (u : Nat) (e : Eng) (s : State) :
    (s.setEng u e).eng u = e ∧ ((s.setEng u e).unit u).cfgErr = (s.unit u).cfgErr
      ∧ ((s.setEng u e).unit u).standsFor = (s.unit u).standsFor := by
  obtain ⟨p, d, x, h, heng, herr, hfor⟩ := s.setEng_eq u e
  have hx : (s.setEng u e).unit u = x := by rw [h, State.unit_setUnit, if_pos rfl]
  rw [State.eng, hx]
  exact ⟨heng, herr, hfor⟩

/-- Members named after their group keep all else, and so do registers and memory. -/
theorem adopt_frame (g u : Nat) (s : State) :
    (s.adopt g).regs = s.regs ∧ (s.adopt g).mem = s.mem ∧ ((s.adopt g).unit u).cfgErr = (s.unit u).cfgErr := by
  refine ⟨State.each_keeps (·.regs) _ s fun _ _ _ => rfl, State.each_keeps (·.mem) _ s fun _ _ _ => rfl,
    State.each_keeps (fun s => (s.unit u).cfgErr) _ s fun m _ s => ?_⟩
  rw [State.setUnitF, State.unit_setUnit]
  split
  · next h => rw [h]
  · rfl

theorem dissolve_frame (g : Nat) (s : State) : (s.dissolve g).regs = s.regs ∧ (s.dissolve g).watch = s.watch :=
  ⟨State.each_keeps (·.regs) _ s fun _ _ _ => rfl, State.each_keeps (·.watch) _ s fun _ _ _ => rfl⟩

/-! ### What a write of UCB_CTRL does to the engine (R47) -/

section Effect

variable {s : State} {u w : Nat}

theorem ctrlEffect_spare (heng : s.eng u = .stopped ∨ s.eng u = .idle) (h2 : w.testBit 2 = true) :
    s.ctrlEffect u w = (s.setUnitF u (fun x => { x with standsFor := none })).setEng u .spare := by
  unfold State.ctrlEffect
  rcases heng with h | h <;> simp only [h, h2, if_true]

theorem ctrlEffect_enable (heng : s.eng u = .stopped) (h2 : w.testBit 2 = false) (h0 : w.testBit 0 = true) :
    s.ctrlEffect u w = (s.whenB (unitKind u == some .group) (State.adopt u)).setEng u .idle := by
  unfold State.ctrlEffect
  simp only [heng, h2, h0, Bool.false_eq_true, if_false, if_true]

theorem ctrlEffect_disable (heng : s.eng u = .idle) (h2 : w.testBit 2 = false) (h0 : w.testBit 0 = false) :
    s.ctrlEffect u w = s.stopDone u := by
  unfold State.ctrlEffect
  simp only [heng, h2, h0, Bool.false_eq_true, if_false]

theorem ctrlEffect_running_stop (heng : s.eng u = .running) (h0 : w.testBit 0 = false) :
    s.ctrlEffect u w = s.stopRunning u (w.testBit 1) := by
  unfold State.ctrlEffect
  simp only [heng, h0, Bool.false_eq_true, if_false]

theorem ctrlEffect_running_on (heng : s.eng u = .running) (h0 : w.testBit 0 = true) : s.ctrlEffect u w = s := by
  unfold State.ctrlEffect
  simp only [heng, h0, if_true]

theorem ctrlEffect_quiescing_halt (heng : s.eng u = .quiescing) (h0 : w.testBit 0 = false) (h1 : w.testBit 1 = true) :
    s.ctrlEffect u w = (s.setUnitF u (fun x => { x with reEnable := false })).stopRunning u true := by
  unfold State.ctrlEffect
  simp only [heng, h0, h1, if_true]

theorem ctrlEffect_unspare (heng : s.eng u = .spare) (h2 : w.testBit 2 = false) : s.ctrlEffect u w = s.setEng u .stopped := by
  unfold State.ctrlEffect
  simp only [heng, h2, Bool.false_eq_true, if_false]

end Effect

/-- A stop that completes with no ENABLE recorded clears ENABLE (R47, R49). -/
theorem stopDone_frame {s : State} {u : Nat} (hre : (s.unit u).reEnable = false) :
    (s.stopDone u).eng u = .stopped ∧ (s.stopDone u).bit (ucb u Reg.UCB_CTRL) 0 = false ∧ (s.stopDone u).mem = s.mem := by
  have hdone : s.stopDone u = ((s.setEng u .stopped).unitIrq u 0).clrBit (ucb u Reg.UCB_CTRL) 0 := by
    unfold State.stopDone
    dsimp only
    rw [hre, if_neg Bool.false_ne_true]
  have honly : (s.setEng u .stopped).OnlyRegs (s.stopDone u) := by
    rw [hdone]
    exact ((OnlyRegs.refl _).setBit _ _).clrBit _ _
  refine ⟨?_, ?_, ?_⟩
  · rw [State.eng, show (s.stopDone u).unit u = (s.setEng u .stopped).unit u by rw [honly]; rfl]
    exact (s.setEng_unit u .stopped).1
  · rw [hdone, State.bit_clrBit_same _ (by decide)]
  · rw [honly.mem_eq, (s.setEng_frame u .stopped).2.1]

/-! ### Writes of UCB_CTRL (R44 to R50) -/

/-- The state after a write of UCB_CTRL is accepted, before what it does to the engine (R46, R109). -/
def ctrlTaken (u w : Nat) (s : State) : State := ((s.cfgAccept u).wr (ucb u Reg.UCB_CTRL) w).runtimeChanged false

theorem ctrlTaken_frame (u w : Nat) (s : State) :
    (s.ctrlTaken u w).unit u = { s.unit u with cfgErr := 0 } ∧ (s.ctrlTaken u w).mem = s.mem := by
  have h : (s.cfgAccept u).OnlyRegs (s.ctrlTaken u w) :=
    ((OnlyRegs.refl _).wr _ _).trans (State.runtimeChanged_onlyRegs false _)
  have hunit : (s.cfgAccept u).unit u = { s.unit u with cfgErr := 0 } := by
    rw [State.cfgAccept, State.setUnitF, State.unit_setUnit, if_pos rfl]
  rw [h.mem_eq]
  rw [show (s.ctrlTaken u w).unit u = (s.cfgAccept u).unit u by rw [h]; rfl]
  exact ⟨hunit, rfl⟩

theorem ctrlTaken_eng (u w : Nat) (s : State) : (s.ctrlTaken u w).eng u = s.eng u := by
  rw [State.eng, (s.ctrlTaken_frame u w).1]
  rfl

theorem ucbCtrl_ne_cfgStatus (u : Nat) : ucb u Reg.UCB_CTRL ≠ Reg.CFG_STATUS := by
  simp only [ucb, Reg.UCB_CTRL, Reg.CFG_STATUS]
  omega

theorem ctrlTaken_bit {w : Nat} (u b : Nat) (s : State) (hw : w < 8) : (s.ctrlTaken u w).bit (ucb u Reg.UCB_CTRL) b = w.testBit b := by
  have hcfg := State.rd_runtimeChanged_other false ((s.cfgAccept u).wr (ucb u Reg.UCB_CTRL) w) (ucbCtrl_ne_cfgStatus u)
  exact (State.bit_other hcfg b).trans (State.bit_wr_same _ _ (by omega))

end State

/-- A value of UCB_CTRL that a unit of a kind takes in an engine state, SPARE unchanged by R44 and R47. -/
structure CtrlTakes (k : Kind) (e : Eng) (w : Nat) : Prop where
  spare : w.testBit 2 = true → k.spareOk = true ∧ (e = .stopped ∨ e = .idle ∨ e = .spare)
  enable : w.testBit 0 = true → e ≠ .fenced

namespace State

theorem ctrlWrite_accepted {s : State} {u v : Nat} {k : Kind} (hk : unitKind u = some k) (ht : CtrlTakes k (s.eng u) (v % 8))
    (hstay : s.eng u = .spare → (v % 8).testBit 2 = true)
    (hgrp : k = .group → s.eng u = .stopped → (v % 8).testBit 0 = true → s.groupCheck u = 0) :
    s.ctrlWrite .agent u v = (((s.ctrlTaken u (v % 8)).ctrlEffect u (v % 8)).afterSpares s).dispatch := by
  obtain ⟨hspare, hen⟩ := ht
  unfold State.ctrlWrite
  rw [hk]
  extract_lets old st x kindOk w0 w clears g s1 s2
  have hw : w = v % 8 := by
    refine if_neg ?_
    cases hb : (v % 8).testBit 2 with
    | false => simp
    | true =>
      obtain ⟨hok, he⟩ := hspare hb
      rcases he with he | he | he <;> simp [kindOk, st, hok, he]
  have hclears : clears = false := by
    have : ¬ (st = .spare ∧ (v % 8).testBit 2 = false) := fun h => Bool.false_ne_true (h.2.symm.trans (hstay h.1))
    simpa [clears, hw] using this
  have henab : (w.testBit 0 && st == .fenced) = false := by
    have : ¬ ((v % 8).testBit 0 = true ∧ st = .fenced) := fun h => hen h.1 h.2
    simpa [hw] using this
  have hg : g = 0 := by
    unfold g
    split
    · next h =>
      simp only [Bool.and_eq_true, beq_iff_eq, Option.some.injEq] at h
      obtain ⟨⟨⟨hgrp', hst⟩, hb⟩, -⟩ := h
      exact hgrp hgrp' hst (by rwa [hw] at hb)
    · rfl
  rw [henab, if_neg Bool.false_ne_true, hclears, if_neg (by simp), if_neg (by simp [hg])]
  have h2 : s2 = s1 := by
    unfold s2
    rw [hclears]
    rfl
  rw [h2, ← hw]
  rfl

/-- With presence an agent's write takes a unit out of SPARE, measured (R50, R89). -/
theorem ctrlWrite_leaves_spare {s : State} {u v : Nat} {k : Kind} (hk : unitKind u = some k) (heng : s.eng u = .spare)
    (hv : (v % 8).testBit 2 = false) (hpres : (s.boot.arm && s.present) = true) :
    s.ctrlWrite .agent u v = ((((s.ctrlTaken u (v % 8)).measEvent 5).ctrlEffect u (v % 8)).afterSpares s).dispatch := by
  unfold State.ctrlWrite
  rw [hk]
  extract_lets old st x kindOk w0 w clears g s1 s2
  have hst : st = .spare := heng
  have hw : w = v % 8 := if_neg (by simp [w0, hv])
  have hclears : clears = true := by simp [clears, hst, hw, hv]
  have hg : g = 0 := if_neg (by simp [hst])
  rw [hclears, hpres, if_neg (by simp [hst]), if_neg (by simp), if_neg (by simp [hg])]
  have h2 : s2 = s1.measEvent 5 := by
    unfold s2
    rw [hclears]
    rfl
  rw [h2, ← hw]
  rfl

theorem ctrlWrite_keeps_spare {s : State} {u v : Nat} (heng : s.eng u = .spare) (hv : (v % 8).testBit 2 = false)
    (hpres : (s.boot.arm && s.present) = false) : s.ctrlWrite .agent u v = s.cfgRefuse u 8 := by
  unfold State.ctrlWrite
  extract_lets old st x kindOk w0 w clears g s1 s2
  have hst : st = .spare := heng
  have hw : w = v % 8 := if_neg (by simp [w0, hv])
  have hclears : clears = true := by simp [clears, hst, hw, hv]
  rw [hclears, hpres, if_neg (by simp [hst]), if_pos (by simp)]

theorem ctrlWrite_fenced {s : State} {u v : Nat} (heng : s.eng u = .fenced) (hv : (v % 8).testBit 2 = false)
    (hv0 : (v % 8).testBit 0 = true) : s.ctrlWrite .agent u v = s.cfgRefuse u 7 := by
  unfold State.ctrlWrite
  extract_lets old st x kindOk w0 w clears g s1 s2
  have hw : w = v % 8 := if_neg (by simp [w0, hv])
  exact if_pos (by simp [hw, hv0, show st = .fenced from heng])

theorem ctrlField_eq {s : State} {agent u : Nat} {k : Kind} (hi lo x : Nat) (harm : s.armBlocks agent (ucb u Reg.UCB_CTRL) = false)
    (hk : unitKind u = some k) :
    s.ctrlField agent u hi lo x = s.ctrlWrite .agent u (putBits (s.rd (ucb u Reg.UCB_CTRL)) hi lo x) :=
  (if_neg (by simp [harm])).trans (if_neg (by simp [hk]))

/-- A bit of UCB_CTRL as it is written with one field replaced: of the field. -/
theorem testBit_ctrlField_same {hi lo x c : Nat} (u : Nat) (s : State) (h : lo ≤ c ∧ c ≤ hi) (hc : c < 3) :
    (putBits (s.rd (ucb u Reg.UCB_CTRL)) hi lo x % 8).testBit c = x.testBit (c - lo) := by
  rw [show (8 : Nat) = 2 ^ 3 from rfl, Nat.testBit_mod_two_pow, testBit_putBits, decide_eq_true hc, Bool.true_and, if_pos (by omega)]

/-- And apart from it. -/
theorem testBit_ctrlField_other {hi lo x c : Nat} {u : Nat} {s : State} {b : Bool} (hb : s.bit (ucb u Reg.UCB_CTRL) c = b) (hlo : lo ≤ hi)
    (h : ¬ (lo ≤ c ∧ c ≤ hi)) (hc : c < 3) : (putBits (s.rd (ucb u Reg.UCB_CTRL)) hi lo x % 8).testBit c = b := by
  rw [show (8 : Nat) = 2 ^ 3 from rfl, Nat.testBit_mod_two_pow, testBit_putBits, decide_eq_true hc, Bool.true_and, if_neg (by omega)]
  exact hb

end State

/-- A number below 8 is its three bits. -/
theorem eq_of_three_bits {m n : Nat} (hm : m < 8) (hn : n < 8) (h0 : m.testBit 0 = n.testBit 0) (h1 : m.testBit 1 = n.testBit 1)
    (h2 : m.testBit 2 = n.testBit 2) : m = n := by
  apply Nat.eq_of_testBit_eq
  intro i
  have high {k : Nat} (hk : k < 8) (hi : 3 ≤ i) : k.testBit i = false :=
    Nat.testBit_lt_two_pow (lt_of_lt_of_le hk (Nat.pow_le_pow_right (n := 2) (i := 3) (by decide) hi))
  match i with
  | 0 => exact h0
  | 1 => exact h1
  | 2 => exact h2
  | i + 3 => rw [high hm (by omega), high hn (by omega)]

theorem testBit_two_mul_b2n (h : Bool) : (2 * b2n h).testBit 0 = false ∧ (2 * b2n h).testBit 1 = h := by
  cases h <;> decide

namespace State

/-! ### Group registers and watermark words (R55, R58, R75) -/

theorem setting_cfgRefused {o : Nat} {f : State → State} {s : State} (hb : blockOf o = .ucb) (ho : ucbOff o = Reg.UCB_GRP_CTRL)
    (he : ((f s).unit (ucbUnit o)).cfgErr ≠ 0) : s.setting o f = f s := by
  refine if_pos ?_
  have hlow : Reg.UCB_GRP_CTRL < 0x600 := by decide
  simp [State.refusedBy, hb, ho, he, hlow]

theorem cfgErr_cfgRefuse (u c : Nat) (s : State) : ((s.cfgRefuse u c).unit u).cfgErr = c := by
  have h : (s.setUnitF u (fun x => { x with cfgErr := c })).OnlyRegs (s.cfgRefuse u c) := (OnlyRegs.refl _).setBit _ _
  rw [show (s.cfgRefuse u c).unit u = (s.setUnitF u (fun x => { x with cfgErr := c })).unit u by rw [h]; rfl, State.setUnitF,
    State.unit_setUnit, if_pos rfl]

theorem cfgErr_cfgAccept (u : Nat) (s : State) : ((s.cfgAccept u).unit u).cfgErr = 0 := by
  rw [State.cfgAccept, State.setUnitF, State.unit_setUnit, if_pos rfl]

end State

theorem group_ucb {u o : Nat} (hk : unitKind u = some .group) (ho : o < 0x4000) :
    blockOf (ucb u o) = .ucb ∧ ucbOff (ucb u o) = o ∧ ucbUnit (ucb u o) = u := by
  have hu : u < 0x1000 := by
    by_contra h
    unfold unitKind at hk
    iterate 8 rw [if_neg (by omega)] at hk
    exact absurd hk (by decide)
  refine ⟨?_, ?_, ?_⟩
  · unfold blockOf ucb
    grind
  · unfold ucbOff ucb
    omega
  · unfold ucbUnit ucb
    omega

/-- A watermark word lies in a feeder's registers, or beyond a group's in a UCB. -/
theorem wmDepth_apart {o d : Nat} (h : wmDepth o = some d) (hb : blockOf o = .ucb) : 0x600 ≤ ucbOff o := by
  unfold wmDepth at h
  split at h
  · next ho => rcases ho with rfl | rfl <;> exact absurd hb (by decide)
  · split at h
    · next ho =>
      simp only [Bool.and_eq_true, decide_eq_true_eq] at ho
      rw [ho.2]
      decide
    · exact absurd h (by simp)

/-- Settles O45: an accepted write of UCB_CTRL goes by `State.ctrlEffect`; a group's registers and watermark words are plain writes
behind their checks. -/
theorem unitControlMovesTheEngine : Obligations.UnitControlMovesTheEngine := by
  refine ⟨fun s agent u k harm hk h2 => ⟨fun heng hgrp => ?_, fun heng => ?_, fun heng hre h => ?_, fun heng h => ?_, fun heng h0 => ?_,
    fun heng h0 => ?_, fun hok heng => ?_⟩, fun s agent u k harm hk heng => ⟨fun harm' hpres => ?_, fun hpres => ?_⟩,
    fun s agent u v harm hk => ⟨fun hon => ?_, fun hon hn => ?_, fun hon hn => ?_⟩, fun s agent o v d hd harm => ⟨fun hok => ?_, fun hok => ?_⟩⟩
  · have b0 := State.testBit_ctrlField_same (hi := 0) (lo := 0) (x := 1) (c := 0) u s (by decide) (by decide)
    have b2 := State.testBit_ctrlField_other (hi := 0) (lo := 0) (x := 1) h2 (by decide) (by decide) (by decide)
    have hexec := (State.ctrlField_eq 0 0 1 harm hk).trans (State.ctrlWrite_accepted hk
      ⟨fun h => absurd (b2.symm.trans h) (by decide), fun _ => by simp [heng]⟩ (fun h => by simp [heng] at h) fun hg _ _ => hgrp hg)
    have hlt : putBits (s.rd (ucb u Reg.UCB_CTRL)) 0 0 1 % 8 < 8 := Nat.mod_lt _ (by decide)
    generalize putBits (s.rd (ucb u Reg.UCB_CTRL)) 0 0 1 % 8 = w at hexec b0 b2 hlt
    rw [State.ctrlEffect_enable ((s.ctrlTaken_eng u w).trans heng) b2 (b0.trans (by decide))] at hexec
    obtain ⟨a, ha⟩ : ∃ a : State, a = (s.ctrlTaken u w).whenB (unitKind u == some .group) (State.adopt u) := ⟨_, rfl⟩
    rw [← ha] at hexec
    obtain ⟨hregs, hmem, herr⟩ : a.regs = (s.ctrlTaken u w).regs ∧ a.mem = (s.ctrlTaken u w).mem
        ∧ (a.unit u).cfgErr = ((s.ctrlTaken u w).unit u).cfgErr := by
      rw [ha]
      cases (unitKind u == some .group) with
      | false => exact ⟨rfl, rfl, rfl⟩
      | true => exact State.adopt_frame u u _
    obtain ⟨hunit, hm⟩ := s.ctrlTaken_frame u w
    obtain ⟨fr, fm, -⟩ := a.setEng_frame u .idle
    obtain ⟨fe, fc, -⟩ := a.setEng_unit u .idle
    refine ⟨_, congrArg Host.Outcome.next hexec, fe, ?_, ?_, ?_⟩
    · rw [fc, herr, hunit]
    · rw [State.bit_other (State.rd_congr (fr.trans hregs) _), State.ctrlTaken_bit u 0 s hlt, b0]
      decide
    · rw [fm, hmem, hm]
  · have b0 := State.testBit_ctrlField_same (hi := 0) (lo := 0) (x := 1) (c := 0) u s (by decide) (by decide)
    have b2 := State.testBit_ctrlField_other (hi := 0) (lo := 0) (x := 1) h2 (by decide) (by decide) (by decide)
    exact congrArg Host.Outcome.next ((State.ctrlField_eq 0 0 1 harm hk).trans
      (State.ctrlWrite_fenced heng b2 (b0.trans (by decide))))
  · have b0 := State.testBit_ctrlField_same (hi := 1) (lo := 0) (x := 2 * b2n h) (c := 0) u s (by decide) (by decide)
    have b2 := State.testBit_ctrlField_other (hi := 1) (lo := 0) (x := 2 * b2n h) h2 (by decide) (by decide) (by decide)
    rw [Nat.sub_self, (testBit_two_mul_b2n h).1] at b0
    have hexec := (State.ctrlField_eq 1 0 (2 * b2n h) harm hk).trans (State.ctrlWrite_accepted hk
      ⟨fun hb => by simp [b2] at hb, fun hb => by simp [b0] at hb⟩ (fun hb => by simp [heng] at hb) fun _ hb => by simp [heng] at hb)
    generalize putBits (s.rd (ucb u Reg.UCB_CTRL)) 1 0 (2 * b2n h) % 8 = w at hexec b0 b2
    rw [State.ctrlEffect_disable ((s.ctrlTaken_eng u w).trans heng) b2 b0] at hexec
    obtain ⟨hunit, hm⟩ := s.ctrlTaken_frame u w
    obtain ⟨he, hb, hmem⟩ := State.stopDone_frame (s := s.ctrlTaken u w) (u := u) (by rw [hunit]; exact hre)
    exact ⟨_, congrArg Host.Outcome.next hexec, he, hb, hmem.trans hm⟩
  · have b0 := State.testBit_ctrlField_same (hi := 1) (lo := 0) (x := 2 * b2n h) (c := 0) u s (by decide) (by decide)
    have b1 := State.testBit_ctrlField_same (hi := 1) (lo := 0) (x := 2 * b2n h) (c := 1) u s (by decide) (by decide)
    have b2 := State.testBit_ctrlField_other (hi := 1) (lo := 0) (x := 2 * b2n h) h2 (by decide) (by decide) (by decide)
    rw [Nat.sub_self, (testBit_two_mul_b2n h).1] at b0
    rw [Nat.sub_zero, (testBit_two_mul_b2n h).2] at b1
    have hexec := (State.ctrlField_eq 1 0 (2 * b2n h) harm hk).trans (State.ctrlWrite_accepted hk
      ⟨fun hb => by simp [b2] at hb, fun hb => by simp [b0] at hb⟩ (fun hb => by simp [heng] at hb) fun _ hb => by simp [heng] at hb)
    rw [State.ctrlEffect_running_stop ((s.ctrlTaken_eng u _).trans heng) b0, b1] at hexec
    exact congrArg Host.Outcome.next hexec
  · have b0 := State.testBit_ctrlField_other (hi := 1) (lo := 1) (x := 1) h0 (by decide) (by decide) (by decide)
    have b1 := State.testBit_ctrlField_same (hi := 1) (lo := 1) (x := 1) (c := 1) u s (by decide) (by decide)
    have b2 := State.testBit_ctrlField_other (hi := 1) (lo := 1) (x := 1) h2 (by decide) (by decide) (by decide)
    have h3 : putBits (s.rd (ucb u Reg.UCB_CTRL)) 1 1 1 % 8 = 3 :=
      eq_of_three_bits (Nat.mod_lt _ (by decide)) (by decide) (b0.trans (by decide)) (b1.trans (by decide)) (b2.trans (by decide))
    have hexec := (State.ctrlField_eq 1 1 1 harm hk).trans (State.ctrlWrite_accepted hk
      ⟨fun hb => by simp [b2] at hb, fun _ => by simp [heng]⟩ (fun hb => by simp [heng] at hb) fun _ hb => by simp [heng] at hb)
    rw [h3, State.ctrlEffect_running_on ((s.ctrlTaken_eng u 3).trans heng) (by decide)] at hexec
    exact congrArg Host.Outcome.next hexec
  · have b0 := State.testBit_ctrlField_other (hi := 1) (lo := 1) (x := 1) h0 (by decide) (by decide) (by decide)
    have b1 := State.testBit_ctrlField_same (hi := 1) (lo := 1) (x := 1) (c := 1) u s (by decide) (by decide)
    have b2 := State.testBit_ctrlField_other (hi := 1) (lo := 1) (x := 1) h2 (by decide) (by decide) (by decide)
    have h3 : putBits (s.rd (ucb u Reg.UCB_CTRL)) 1 1 1 % 8 = 2 :=
      eq_of_three_bits (Nat.mod_lt _ (by decide)) (by decide) (b0.trans (by decide)) (b1.trans (by decide)) (b2.trans (by decide))
    have hexec := (State.ctrlField_eq 1 1 1 harm hk).trans (State.ctrlWrite_accepted hk
      ⟨fun hb => by simp [b2] at hb, fun hb => by simp [b0] at hb⟩ (fun hb => by simp [heng] at hb) fun _ hb => by simp [heng] at hb)
    rw [h3, State.ctrlEffect_quiescing_halt ((s.ctrlTaken_eng u 2).trans heng) (by decide) (by decide)] at hexec
    exact congrArg Host.Outcome.next hexec
  · have b2 := State.testBit_ctrlField_same (hi := 2) (lo := 2) (x := 1) (c := 2) u s (by decide) (by decide)
    have hexec := (State.ctrlField_eq 2 2 1 harm hk).trans (State.ctrlWrite_accepted hk
      ⟨fun _ => ⟨hok, heng.imp_right .inl⟩, fun _ hf => by rcases heng with h | h <;> simp [h] at hf⟩
      (fun _ => b2.trans (by decide)) fun hg _ _ => by rw [hg] at hok; exact absurd hok (by decide))
    generalize putBits (s.rd (ucb u Reg.UCB_CTRL)) 2 2 1 % 8 = w at hexec b2
    rw [State.ctrlEffect_spare (by rw [s.ctrlTaken_eng]; exact heng) (b2.trans (by decide))] at hexec
    obtain ⟨-, hm⟩ := s.ctrlTaken_frame u w
    obtain ⟨a, ha⟩ : ∃ a : State, a = (s.ctrlTaken u w).setUnitF u (fun x => { x with standsFor := none }) := ⟨_, rfl⟩
    rw [← ha] at hexec
    obtain ⟨fe, -, ff⟩ := a.setEng_unit u .spare
    refine ⟨_, congrArg Host.Outcome.next hexec, fe, ?_, ?_⟩
    · rw [ff, ha, State.setUnitF, State.unit_setUnit, if_pos rfl]
    · rw [(a.setEng_frame u .spare).2.1, ha, State.setUnitF_mem, hm]
  · have b2 := State.testBit_ctrlField_same (hi := 2) (lo := 2) (x := 0) (c := 2) u s (by decide) (by decide)
    have hexec := (State.ctrlField_eq 2 2 0 harm hk).trans
      (State.ctrlWrite_leaves_spare hk heng (b2.trans (by decide)) (by rw [harm', hpres]; rfl))
    generalize putBits (s.rd (ucb u Reg.UCB_CTRL)) 2 2 0 % 8 = w at hexec b2
    have hmeas := (s.ctrlTaken u w).measEvent_eq 5
    have heng' : ((s.ctrlTaken u w).measEvent 5).eng u = .spare := by
      rw [hmeas]
      exact (s.ctrlTaken_eng u w).trans heng
    rw [State.ctrlEffect_unspare heng' (b2.trans (by decide))] at hexec
    refine ⟨_, congrArg Host.Outcome.next hexec, (State.setEng_unit u .stopped _).1, ?_⟩
    rw [(State.setEng_frame u .stopped _).2.1, hmeas]
    exact (s.ctrlTaken_frame u w).2
  · have b2 := State.testBit_ctrlField_same (hi := 2) (lo := 2) (x := 0) (c := 2) u s (by decide) (by decide)
    exact congrArg Host.Outcome.next ((State.ctrlField_eq 2 2 0 harm hk).trans
      (State.ctrlWrite_keeps_spare heng (b2.trans (by decide)) hpres))
  · obtain ⟨hb, ho, hu⟩ := group_ucb (o := Reg.UCB_GRP_CTRL) hk (by decide)
    have hwrite : State.grpWrite agent u v s = s.cfgRefuse u 3 := by
      refine (if_neg (by simp [harm, hk])).trans ?_
      unfold State.grpCtrlWrite
      rw [if_neg (by simp [hk]), if_pos hon]
    refine congrArg Host.Outcome.next ((if_pos hk).trans ((State.setting_cfgRefused hb ho ?_).trans hwrite))
    rw [hu, hwrite, State.cfgErr_cfgRefuse]
    decide
  · obtain ⟨-, -, hu⟩ := group_ucb (o := Reg.UCB_GRP_CTRL) hk (by decide)
    have hwrite : State.grpWrite agent u v s = (s.wr (ucb u Reg.UCB_GRP_CTRL) (Nat.land v 0x31FF)).cfgAccept u := by
      refine (if_neg (by simp [harm, hk])).trans ?_
      unfold State.grpCtrlWrite
      rw [if_neg (by simp [hk]), if_neg (by simp [hon]), decide_eq_false hn]
      rfl
    refine congrArg Host.Outcome.next ((if_pos hk).trans ((State.setting_accepted ?_ fun _ => .inr (.inr ?_)).trans (by rw [hwrite])))
    · rw [hwrite]
      rfl
    · rw [hu, hwrite, State.cfgErr_cfgAccept]
  · obtain ⟨-, -, hu⟩ := group_ucb (o := Reg.UCB_GRP_CTRL) hk (by decide)
    have hwrite : State.grpWrite agent u v s = ((s.dissolve u).wr (ucb u Reg.UCB_GRP_CTRL) (Nat.land v 0x31FF)).cfgAccept u := by
      refine (if_neg (by simp [harm, hk])).trans ?_
      unfold State.grpCtrlWrite
      rw [if_neg (by simp [hk]), if_neg (by simp [hon]), decide_eq_true hn]
      rfl
    refine congrArg Host.Outcome.next ((if_pos hk).trans ((State.setting_accepted ?_ fun _ => .inr (.inr ?_)).trans (by rw [hwrite])))
    · rw [hwrite, State.cfgAccept, State.setUnitF_watch, State.wr_watch, (s.dissolve_frame u).2]
    · rw [hu, hwrite, State.cfgErr_cfgAccept]
  · have hwrite : State.watermark agent o v s = s.wr o (v % two32) := by
      unfold State.watermark
      rw [hd]
      exact (if_neg (by simp [harm])).trans (if_neg (by simp [hok]))
    refine congrArg Host.Outcome.next ((if_pos (by simp [hd])).trans ((State.setting_accepted ?_ fun hb =>
      .inr (.inl (wmDepth_apart hd hb))).trans (by rw [hwrite])))
    rw [hwrite, State.wr_watch]
  · have hwrite : State.watermark agent o v s = s.usageReg agent o := by
      unfold State.watermark
      rw [hd]
      exact (if_neg (by simp [harm])).trans (if_pos hok)
    refine congrArg Host.Outcome.next ((if_pos (by simp [hd])).trans ((State.setting_refused ?_).trans hwrite))
    rw [hwrite, State.refusals_usageReg]

end Sys2Proof.Machine

/-! PROOFS. The memory system (12_memory.md: R450 to R468): refresh, link checks, the patrol, calibration and the rotation of ports. -/

namespace Sys2Proof.Machine

namespace State

/-! ### Conditions (R599) -/

theorem Reported.cond {s t : State} (holds : Bool) (code agent : Nat) (h : s.Reported t) : s.Reported (t.cond holds code agent) := by
  refine h.trans ?_
  unfold State.cond
  split
  · split
    · exact Reported.refl t
    · exact (Reported.refl t).report _ _ _ _
  · exact (Reported.refl t).watch _

theorem memConds_reported (s : State) : s.Reported s.memConds := by
  unfold State.memConds
  split
  · exact Reported.refl s
  · exact (((Reported.refl s).cond _ _ _).cond _ _ _).cond _ _ _

theorem Reported.port_eq {s t : State} (h : s.Reported t) (p : Nat) : t.port p = s.port p := by
  rw [h]
  rfl

theorem Reported.memsys_eq {s t : State} (h : s.Reported t) : t.memsys = s.memsys := by rw [h]

theorem port_setPort_other {k j : Nat} (x : PortSt) (s : State) (h : j ≠ k) : (s.setPort k x).port j = s.port j := by
  rw [State.port_setPort, if_neg h]

/-! ### Refresh (R450) -/

theorem debt_setDebt (p k v j : Nat) (s : State) : (s.setDebt p k v).debt p j = if j = k then v else s.debt p j := by
  unfold State.debt State.setDebt
  rw [State.port_setPort, if_pos rfl, SMap.get_set]

/-- No bank of the channel owes as much as the eight that call for an all-bank refresh, nor four of them six. -/
theorem refreshDue_pays {s : State} {p c b v : Nat} {queued : Bool} (hrole : (s.port p).role = .active) (hsr : (s.port p).selfRefresh = false)
    (hdebt : ∀ i, i < 16 → s.debt p (c * 16 + i) < 5) (hv : v < 6)
    (heq : (if queued then min 8 (s.debt p (c * 16 + b) + 1) else 0) = v) :
    s.refreshDue p c b queued = s.setDebt p (c * 16 + b) v := by
  unfold State.refreshDue
  extract_lets x normal k s1 ds s2
  have hnormal : (!normal || x.selfRefresh) = false := by simp [normal, x, hrole, hsr]
  have h1 : s1 = s.setDebt p (c * 16 + b) v := congrArg (fun v => s.setDebt p (c * 16 + b) v) heq
  have hsmall : ∀ d ∈ ds, d < 6 := by
    intro d hd
    obtain ⟨i, hi, rfl⟩ := List.mem_map.1 hd
    rw [h1, debt_setDebt]
    have := hdebt i (List.mem_range.1 hi)
    split <;> omega
  have hany : ds.any (fun d => decide (8 ≤ d)) = false :=
    List.any_eq_false.2 fun d hd => by have := hsmall d hd; simp; omega
  have hfilter : ds.filter (fun d => decide (6 ≤ d)) = [] :=
    List.filter_eq_nil_iff.2 fun d hd => by have := hsmall d hd; simp; omega
  rw [hnormal, if_neg Bool.false_ne_true, hany, hfilter, if_neg (by simp), h1]

/-! ### Calibration (R460, R461) -/

/-- New corrections leave the sets, the session and the other ports as they were. -/
theorem correct_frame (p : Nat) (s : State) :
    ((s.correct p).port p).sets = (s.port p).sets ∧ ((s.correct p).port p).calibrating = (s.port p).calibrating
      ∧ (∀ q, q ≠ p → (s.correct p).port q = s.port q) ∧ (s.correct p).memsys = s.memsys ∧ (s.correct p).mem = s.mem := by
  have key (x : PortSt) (hs : x.sets = (s.port p).sets) (hc : x.calibrating = (s.port p).calibrating) :
      ((s.setPort p x).port p).sets = (s.port p).sets ∧ ((s.setPort p x).port p).calibrating = (s.port p).calibrating
        ∧ (∀ q, q ≠ p → (s.setPort p x).port q = s.port q) ∧ (s.setPort p x).memsys = s.memsys ∧ (s.setPort p x).mem = s.mem := by
    refine ⟨?_, ?_, fun q hq => port_setPort_other x s hq, rfl, rfl⟩
    · rw [State.port_setPort, if_pos rfl, hs]
    · rw [State.port_setPort, if_pos rfl, hc]
  unfold State.correct
  dsimp only
  split
  · exact key _ rfl rfl
  · exact key _ rfl rfl

theorem sessionDone_effect {s : State} {p : Nat} (l : List (Nat × Nat)) (hcal : (s.port p).calibrating = true) (hphase : s.memsys.phase ≠ 5) :
    ((s.sessionDone p l).port p).calibrating = false
      ∧ ((s.sessionDone p l).port p).sets = putSet (mkSet (s.port p).calTemp l) (s.port p).sets
      ∧ (∀ q, q ≠ p → (s.sessionDone p l).port q = s.port q) ∧ (s.sessionDone p l).mem = s.mem := by
  unfold State.sessionDone
  extract_lets x role s1 s2
  rw [if_neg (by simp [x, hcal])]
  obtain ⟨u, hu⟩ : ∃ u : State, u = (s1.inc (mreg Reg.MEM_PORT_CAL_COUNT p)).setBit Reg.MEM_EVENT 7 := ⟨_, rfl⟩
  have honly : s1.OnlyRegs u := by
    rw [hu]
    exact OnlyRegs.of_eq rfl
  have hport (q : Nat) : u.port q = s1.port q := by
    rw [honly]
    rfl
  obtain ⟨hsets, hcal', hother, hms, hmem⟩ := u.correct_frame p
  have h2 : s2 = u.correct p := by rw [hu]
  have hphase2 : (s2.memsys.phase = 5 && s2.memsys.src = p) = false := by
    have : s2.memsys = s.memsys := by rw [h2, hms, honly]; rfl
    rw [this, decide_eq_false hphase, Bool.false_and]
  rw [hphase2, if_neg Bool.false_ne_true, h2]
  have hrep := (u.correct p).memConds_reported
  have h1 : s1.port p = { x with
      sets := putSet (mkSet x.calTemp l) x.sets, calibrating := false, role, selfRefresh := true } := by
    rw [State.port_setPort, if_pos rfl]
  refine ⟨?_, ?_, fun q hq => ?_, ?_⟩
  · rw [hrep.port_eq, hcal', hport, h1]
  · rw [hrep.port_eq, hsets, hport, h1]
  · rw [hrep.port_eq, hother q hq, hport]
    exact port_setPort_other _ s hq
  · rw [hrep.mem_eq, hmem, honly.mem_eq]
    rfl

/-! ### In-place calibration (R468) -/

theorem inplaceStep_effect {s : State} {p : Nat} (l : List (Nat × Nat)) (hspare : s.spareHeld = false) (hrole : (s.port p).role = .active)
    (hcov : (s.port p).covered = false) (htide : (s.port p).stepTide ≠ some s.tideNum) (hn : (s.port p).inplace + 1 < 64) :
    ((s.inplaceStep p false l).port p).inplace = (s.port p).inplace + 1
      ∧ ((s.inplaceStep p false l).port p).stepTide = some s.tideNum ∧ (s.inplaceStep p false l).mem = s.mem := by
  unfold State.inplaceStep
  extract_lets x t n s1 s2
  rw [if_neg (by simp [x, hspare, hrole, hcov, htide])]
  have h1 : s.Reported s1 := ((Reported.refl s).bump _ _).whenB _ fun s => (Reported.refl s).setBit _ _
  have h2 : s2 = s1.setPort p { x with inplace := n, calTemp := t, stepTide := some s1.tideNum } :=
    if_neg (by have : n < 64 := hn; simp; omega)
  have htn : s1.tideNum = s.tideNum := by
    have hbit : ∀ (c : Bool) (u : State), (u.whenB c (State.setBit Reg.MEM_EVENT 2)).tideNum = u.tideNum := by
      intro c u
      cases c with
      | false => rfl
      | true =>
        exact State.rd64_congr (State.rd_setBit_other _ _ (by decide)) (State.rd_setBit_other _ _ (by decide))
    exact hbit _ _
  have hrep := s2.memConds_reported
  have hp : s2.memConds.port p = { x with inplace := n, calTemp := t, stepTide := some s1.tideNum } := by
    rw [hrep.port_eq, h2, State.port_setPort, if_pos rfl]
  rw [hp]
  refine ⟨rfl, congrArg some htn, ?_⟩
  rw [hrep.mem_eq, h2, State.setPort_mem, h1.mem_eq]

/-! ### Link checks (R452) and lost ports (R467) -/

/-- A burst that passes within the retries is only counted. -/
theorem edcFail_retried {s : State} {agent a n : Nat} {w d : Bool} (hph : s.memsys.phase = 0) (hn : 0 < n) (hretry : n ≤ s.fld Reg.MEM_EDC_CFG 2 0) :
    s.edcFail agent a w n d
      = (s.bump (mreg Reg.MEM_PORT_EDC_RETRY_LAST (s.physPort (s.logicalPort a))) n).setBit Reg.MEM_EVENT 12 := by
  unfold State.edcFail
  extract_lets retry mig p k s1 s2 copy s3 s4 s5
  have hk : k = n := Nat.min_eq_left hretry
  have hp : p = s.physPort (s.logicalPort a) := if_neg (by simp [mig, hph])
  rw [if_pos hretry]
  have h1 : s1 = (s.bump (mreg Reg.MEM_PORT_EDC_RETRY_LAST p) k).setBit Reg.MEM_EVENT 12 :=
    if_pos (by rw [hk]; simp; omega)
  rw [h1, hk, hp]

/-- After the drain the destination serves the logical port and the source calibrates in the dry dock (R463). -/
theorem drainDone_effect {s : State} (hph : s.memsys.phase = 4) (hne : s.memsys.src ≠ s.memsys.dst)
    (hfence : (s.port s.memsys.src).fenceAfter = false) :
    ∃ w : State, s.drainDone = { w with memsys := { w.memsys with phase := 5 } }
      ∧ w.port s.memsys.dst = { s.port s.memsys.dst with role := .active, logical := s.memsys.logical }
      ∧ w.port s.memsys.src = { s.port s.memsys.src with role := .drydock, logical := 0, calibrating := true,
                                                           calTemp := (s.port s.memsys.src).temp, poison := [], debts := [] }
      ∧ w.regs = s.regs ∧ w.mem = s.mem := by
  unfold State.drainDone
  extract_lets m d v x w
  have hx : x = s.port s.memsys.src := port_setPort_other _ s hne
  rw [if_neg (not_not.2 hph), hx, if_neg (by simp [hfence])]
  refine ⟨w, rfl, ?_, ?_, rfl, rfl⟩
  · exact (port_setPort_other _ v (Ne.symm hne)).trans ((State.port_setPort _ _ _ s).trans (if_pos rfl))
  · exact ((State.port_setPort _ _ _ v).trans (if_pos rfl)).trans (by rw [hx])

theorem portLost_active {s : State} {p : Nat} (hrole : (s.port p).role = .active) :
    ∃ u : State, u.Reported (s.portLost p) ∧ u.memsys.lost = s.memsys.lost ++ [((s.port p).logical, s.dock)]
      ∧ u.port p = { PortSt.reset with role := .fenced, temp := (s.port p).temp } ∧ (∀ q, q ≠ p → u.port q = s.port q) ∧ u.mem = s.mem
      ∧ s.portLost p = (u.setBit Reg.MEM_EVENT 0).report 0x6514 noAgent 0 0 := by
  refine ⟨({ s with memsys := { s.memsys with lost := s.memsys.lost ++ [((s.port p).logical, s.dock)] } } : State).setPort p
    { PortSt.reset with role := .fenced, temp := (s.port p).temp }, ?_, rfl, ?_, fun q hq => ?_, rfl, ?_⟩
  · have hexec : s.portLost p = ((({ s with memsys := { s.memsys with
        lost := s.memsys.lost ++ [((s.port p).logical, s.dock)] } } : State).setPort p
          { PortSt.reset with role := .fenced, temp := (s.port p).temp }).setBit Reg.MEM_EVENT 0).report 0x6514 noAgent 0 0 := by
      unfold State.portLost
      dsimp only
      rw [hrole]
    rw [hexec]
    exact ((Reported.refl _).setBit _ _).report _ _ _ _
  · rw [State.port_setPort, if_pos rfl]
  · exact port_setPort_other _ _ hq
  · unfold State.portLost
    dsimp only
    rw [hrole]

end State

/-- Settles O48. -/
theorem memoryKeepsItsDataAndRotates : Obligations.MemoryKeepsItsDataAndRotates := by
  refine ⟨⟨fun s p c b hp hc hb hrole hsr hdebt => ?_, fun s p hidle hrole => ?_, fun s agent a n w d ht hph hn hretry => ?_,
    fun s p n h0 hn hrole hf => ?_, fun s p n hn => ?_, fun s r l hs hcfg hprot => ?_⟩,
    fun s p l h => congrArg Host.Outcome.next (if_pos (by simp [h])), fun s p l hcal hphase => ⟨_, rfl, State.sessionDone_effect l hcal hphase⟩,
    fun s hph ha => congrArg Host.Outcome.next (if_pos (by simp [hph, ha])), fun s hph hne => ⟨_, rfl, fun hfence => ?_⟩,
    fun s agent v harm hv => ⟨fun hd hl => ?_, fun h => ?_⟩, fun s p hrole => ?_,
    fun s p l hspare hrole hcov htide hn => ⟨_, rfl, State.inplaceStep_effect l hspare hrole hcov htide hn⟩,
    fun s p b l h => congrArg Host.Outcome.next (if_pos (by simp [h]))⟩
  · have hk := hdebt b hb
    have hexec (queued : Bool) : exec (.refreshDue p c b queued) s = .next (s.refreshDue p c b queued) := by
      refine congrArg Host.Outcome.next ?_
      rw [Nat.mod_eq_of_lt hp, Nat.mod_eq_of_lt hc, Nat.mod_eq_of_lt hb]
    exact ⟨(hexec false).trans (congrArg Host.Outcome.next (State.refreshDue_pays hrole hsr hdebt (by decide) rfl)),
      (hexec true).trans (congrArg Host.Outcome.next (State.refreshDue_pays hrole hsr hdebt (by omega)
        ((if_pos rfl).trans (Nat.min_eq_right (by omega)))))⟩
  · exact congrArg Host.Outcome.next (if_pos (by simp [hidle, hrole]))
  · exact congrArg Host.Outcome.next ((if_pos (.inl ht)).trans (State.edcFail_retried hph hn hretry))
  · exact congrArg Host.Outcome.next (if_neg (by simp [h0, not_le.2 hn, hrole, hf]))
  · exact congrArg Host.Outcome.next (if_pos (.inr (.inl hn)))
  · subst hs
    exact congrArg Host.Outcome.next (if_neg (by simp [hcfg, hprot]))
  · obtain ⟨w, hexec, hdst, hsrc, hregs, hmem⟩ := State.drainDone_effect hph hne hfence
    rw [hexec]
    refine ⟨?_, ?_, ?_, ?_, rfl, hregs, hmem⟩
    · exact (congrArg PortSt.role hdst).trans rfl
    · exact (congrArg PortSt.logical hdst).trans rfl
    · exact (congrArg PortSt.role hsrc).trans rfl
    · exact (congrArg PortSt.calibrating hsrc).trans rfl
  · refine congrArg Host.Outcome.next ((if_neg (by simp [harm])).trans ((if_neg (by simp [hv])).trans (if_neg ?_)))
    rcases hd with hd | hd
    · obtain ⟨d, hd⟩ := Option.isSome_iff_exists.1 hd
      simp [hd, hl]
    · simp [hd, hl]
  · refine congrArg Host.Outcome.next ((if_neg (by simp [harm])).trans ((if_neg (by simp [hv])).trans (if_pos ?_)))
    rcases h with ⟨hd, hph⟩ | hl
    · simp [hd, hph]
    · simp [hl]
  · obtain ⟨u, hrep, hlost, hport, hother, hmem, hexec⟩ := State.portLost_active hrole
    refine ⟨_, rfl, ?_, ?_, fun q hq => ?_, ?_, ?_⟩
    · rw [hrep.memsys_eq, hlost]
    · rw [hrep.port_eq, hport]
    · rw [hrep.port_eq, hother q hq]
    · rw [hexec, State.bit_other (State.rd_report _ _ _ _ _ (by decide)), State.bit_setBit_same _ (by decide)]
    · rw [hrep.mem_eq, hmem]

end Sys2Proof.Machine

/-! PROOFS. The warehouse (13_warehouse.md: R474 to R495): the write that disables a pool, for a pool number beyond the 256 pools. -/

namespace Sys2Proof.Machine

/-- The number beyond the 256 pools whose POOLp_CFG offset is that of UCB_CTRL of unit 0. -/
def strayPool : Nat := 999360

theorem poolReg_strayPool : poolReg Reg.POOL_CFG strayPool = ucb 0 Reg.UCB_CTRL := by decide

/-- A running module in which unit 0 has refused a write before, with the enable bit of the stray pool's word set. -/
def strayState : State :=
  ((((State.reset.setUnit 0 { UnitSt.reset with cfgErr := 1 }).wr Reg.CUS_BOOT_STATUS 6).wr Reg.CFG_STATUS 0).wr
    (ucb 0 Reg.UCB_CTRL) 0x100).wr (poolReg Reg.POOL_COUNT strayPool) 0

/-- What disabling the stray pool leaves. -/
def strayResult : State :=
  (strayState.setPool strayPool PoolSt.reset).wr (poolReg Reg.POOL_CFG strayPool) (Nat.land (putBits 0 8 8 0) 0x21F)

theorem strayState_poolOn : strayState.poolOn strayPool = true := by
  unfold State.poolOn
  rw [poolReg_strayPool, strayState, State.bit_wr_other _ _ _ (by decide), State.bit_wr_same _ _ (by decide)]
  decide

theorem strayState_disableCheck : strayState.disableCheck strayPool = 0 := by
  have hcount : strayState.poolCount strayPool = 0 := by
    rw [State.poolCount, State.fld, strayState, State.rd_wr_same]
    decide
  have hbooks : strayState.books = [] := rfl
  unfold State.disableCheck
  rw [hcount, hbooks]
  rfl

theorem strayResult_bootStep : strayResult.bootStep = 6 := by
  rw [State.bootStep, State.fld, strayResult, State.rd_wr_other _ _ (by decide), State.rd_congr (State.setPool_regs _ _ _), strayState,
    State.rd_wr_other _ _ (by decide), State.rd_wr_other _ _ (by decide), State.rd_wr_other _ _ (by decide), State.rd_wr_same]
  decide

theorem strayResult_unchanged : strayResult.bit Reg.CFG_STATUS 6 = false := by
  rw [strayResult, State.bit_wr_other _ _ _ (by decide), State.bit_other (State.rd_congr (State.setPool_regs _ _ _) _), strayState,
    State.bit_wr_other _ _ _ (by decide), State.bit_wr_other _ _ _ (by decide), State.bit_wr_same _ _ (by decide)]
  decide

/-- The stray pool's write is taken for a refused one of UCB_CTRL, whose CFG_ERROR still stands. -/
theorem exec_poolDisable_stray : exec (.poolDisable agentCc0 strayPool 0) strayState = .next strayResult := by
  have harm : strayState.armBlocks agentCc0 (poolReg Reg.POOL_CFG strayPool) = false := rfl
  have hwrite : State.poolCfgWrite agentCc0 strayPool (putBits 0 8 8 0) strayState = strayResult := by
    unfold State.poolCfgWrite
    dsimp only
    rw [if_neg (by decide), strayState_poolOn, if_pos (by decide)]
    unfold State.poolDisable
    dsimp only
    rw [strayState_disableCheck]
    exact if_neg (not_not.2 rfl)
  have herr : (strayResult.unit 0).cfgErr = 1 := by
    have hunit : strayResult.unit 0 = strayState.unit 0 := rfl
    have hset : strayState.unit 0 = (State.reset.setUnit 0 { UnitSt.reset with cfgErr := 1 }).unit 0 := rfl
    rw [hunit, hset, State.unit_setUnit, if_pos rfl]
  refine congrArg Host.Outcome.next ((if_neg (by rw [harm]; decide)).trans ?_)
  unfold State.setting
  rw [hwrite]
  refine if_pos ?_
  have hblock : blockOf (poolReg Reg.POOL_CFG strayPool) = .ucb := by decide
  have hoff : ucbOff (poolReg Reg.POOL_CFG strayPool) = Reg.UCB_CTRL := by decide
  have hunit : ucbUnit (poolReg Reg.POOL_CFG strayPool) = 0 := by decide
  have hlow : Reg.UCB_CTRL < 0x600 := by decide
  simp [State.refusedBy, hblock, hoff, hunit, herr, hlow]

/-- Refutes O49: nothing bounds the pool number of the clause on disabling, and one whose POOLp_CFG offset falls on UCB_CTRL of a
unit with a CFG_ERROR standing is disabled without RUNTIME_CHANGED. -/
theorem not_warehouseOperations : ¬ Obligations.WarehouseOperations := by
  intro h
  obtain ⟨-, -, -, -, -, -, hdisable, -⟩ := h
  have hnext := (hdisable strayState agentCc0 strayPool 0 rfl strayState_poolOn).1 strayState_disableCheck
  have hsame : strayResult = strayResult.runtimeChanged false := Host.Outcome.next.inj (exec_poolDisable_stray.symm.trans hnext)
  have hset : strayResult.runtimeChanged false = strayResult.setBit Reg.CFG_STATUS 6 := by
    unfold State.runtimeChanged
    rw [strayResult_bootStep]
    rfl
  have hbit := strayResult_unchanged
  rw [hsame, hset, State.bit_setBit_same _ (by decide)] at hbit
  exact Bool.false_ne_true hbit.symm

end Sys2Proof.Machine

/-! PROOFS. Lighter channel programs (14_lighters.md: R497 to R517) and reads of the outbound window that time out (16_host_and_bell.md:
R557). -/

namespace Sys2Proof.Machine

namespace State

section Channel

variable {s : State} {u : Nat} {j : Job}

/-- A channel whose job no stop has marked acts (R517). -/
theorem ltStep_acts (f : State → State) (hjob : s.ltJob u = some j) (hstop : j.stopWith = none) : s.ltStep u f = f s := by
  unfold State.ltStep
  rw [hjob]
  exact if_neg (by simp [hstop])

theorem ChannelAt.step {op : Nat} (h : s.ChannelAt u op) (f : State → State) : s.ltStep u f = f s := by
  obtain ⟨⟨j, hjob, hstop⟩, -⟩ := h
  exact ltStep_acts f hjob hstop

theorem runProgram_starts (hjob : s.ltJob u = some j) (hidle : s.bit (ucb u Reg.LT_STATUS) 16 = false) (hstop : j.stopWith = none)
    (hok : s.ltRefused j = none) :
    s.runProgram u = ((s.setLt u { LtSt.reset with
      prog := j.s0, os := j.s1 % two40, od := j.s2 % two40, errWrite := (s.lt u).errWrite }).setBit (ucb u Reg.LT_STATUS) 16).ltReach u := by
  unfold State.runProgram
  rw [hjob]
  dsimp only
  rw [hidle, if_neg Bool.false_ne_true, hstop]
  generalize ({ LtSt.reset with
    prog := j.s0, os := j.s1 % two40, od := j.s2 % two40, errWrite := (s.lt u).errWrite } : LtSt) = x
  have hok' : (s.setLt u x).ltRefused j = none := hok
  rw [hok']

theorem ltMove_issues (hat : s.ltAt u 1 = true) (hsrc : s.sideOk u false (s.mvSource u) ((s.mvSource u).span (mvLen (s.ltWords u).2)) = true)
    (hdst : s.sideOk u true (s.mvDest u) ((s.mvDest u).span (mvLen (s.ltWords u).2)) = true) :
    s.ltMove u = (s.modLt u (fun x => { x with
      moving := true, issued := 0, put := 0, run := 0, fetched := [], half := false, full := false, again := false })).wr
        (ucb u Reg.LT_REMAIN) (mvLen (s.ltWords u).2) := by
  unfold State.ltMove
  dsimp only
  rw [hat, hsrc, hdst]
  rfl

theorem ltSatisfied_goes (hw : (s.lt u).waiting.isSome = true) (hh : s.ltHolds u (s.lt u).tideAt = true) : s.ltSatisfied u = s.ltGo u :=
  if_pos (by rw [hw, hh]; rfl)

theorem ltTimeout_halts (hw : (s.lt u).waiting.isSome = true) (hh : s.ltHolds u (s.lt u).tideAt = false)
    (ht : bits (s.ltWords u).1 31 0 ≠ 0) : s.ltTimeout u = s.ltHaltAt u 4 :=
  if_pos (by rw [hw, hh]; simp [ht])

/-- With no byte to write out, a barge's next burst is of the source. -/
theorem ltBurst_fetches {v : State} {n : Nat} {bs data : List Nat} (hmoving : (s.lt u).moving = true) (hready : s.ltReady u = 0)
    (hbarge : isSkiff u = false) (hn : n = (s.mvSource u).burst false (s.lt u).issued (mvLen (s.ltWords u).2 - (s.lt u).issued))
    (hread : (s.ltIssue u n true).readBeats u (s.mvSource u) (s.lt u).issued n data = (.done bs, v)) (hjob : (v.ltJob u).isSome = true) :
    s.ltBurst u false 0 data = v.ltFetched u bs := by
  unfold State.ltBurst
  dsimp only
  simp only [hmoving, hready, hbarge, Nat.lt_irrefl, decide_false, Bool.false_and, Bool.not_true, Bool.not_false, Bool.false_eq_true, if_false,
    ← hn, hread]
  rw [if_neg (by simpa [Option.isNone_iff_eq_none, ← Option.isSome_iff_ne_none] using hjob)]

end Channel

/-- The error of an outbound read that timed out is counted (R557). -/
theorem outTimeout_counted {s : State} {agent : Nat} (hch : isChannel agent = false) :
    s.outTimeout agent = match unitKind agent, (s.unit agent).job with
      | some _, some j => ((s.bump Reg.HOST_OUT_ERR_LAST 1).setBit Reg.HOST_EVENT 6).setJob agent { j with stopWith := some 0x21 }
      | _, _ => (s.bump Reg.HOST_OUT_ERR_LAST 1).setBit Reg.HOST_EVENT 6 := by
  have hunit : ((s.bump Reg.HOST_OUT_ERR_LAST 1).setBit Reg.HOST_EVENT 6).unit agent = s.unit agent := rfl
  unfold State.outTimeout
  dsimp only
  rw [hch, hunit, Bool.false_and, if_neg Bool.false_ne_true]
  rfl

end State

/-- Settles O50: each command of a channel acts on its instruction, which `State.ltStep` reaches while no stop marks its job. -/
theorem channelProgramsRun : Obligations.ChannelProgramsRun := by
  refine ⟨fun s u j hjob hidle hstop hok => congrArg (fun t : State => Host.Outcome.next t.ltIdle) (State.runProgram_starts hjob hidle hstop hok),
    fun s u n a b h hn ha hb hsrc hdst => ?_, fun s u k count n w ss ds h hw hk hc hss hds hn => ⟨fun hgo => ?_, fun h0 hend => ?_⟩,
    fun s u h => ⟨fun hh => ?_, fun hh => ?_⟩, fun s u j hjob hstop hw => ⟨fun hh => ?_, fun hh ht => ?_⟩, fun s u h hw => ?_,
    fun s v u n j bs data hjob hstop hmov hready hsk hn hread hv => ?_, fun s agent v harm => congrArg Host.Outcome.next (if_neg (by simp [harm])),
    fun s t agent hch ht => ⟨fun h => ?_, fun k j hk hj => ?_⟩⟩
  · subst hn ha hb
    obtain ⟨-, hat⟩ := id h
    exact congrArg (fun t : State => Host.Outcome.next t.ltIdle) ((h.step _).trans (State.ltMove_issues hat hsrc hdst))
  · subst hw hk hc hss hds hn
    obtain ⟨-, hat⟩ := id h
    exact congrArg (fun t : State => Host.Outcome.next t.ltIdle) ((h.step _).trans ((if_neg (by simp [hat])).trans (if_pos hgo)))
  · subst hw hk hc hss hds hn
    obtain ⟨-, hat⟩ := id h
    refine congrArg (fun t : State => Host.Outcome.next t.ltIdle) ((h.step _).trans ((if_neg (by simp [hat])).trans (if_neg ?_)))
    omega
  · obtain ⟨-, hat⟩ := id h
    exact congrArg (fun t : State => Host.Outcome.next t.ltIdle) ((h.step _).trans ((if_neg (by simp [hat])).trans (if_pos hh)))
  · obtain ⟨-, hat⟩ := id h
    exact congrArg (fun t : State => Host.Outcome.next t.ltIdle)
      ((h.step _).trans ((if_neg (by simp [hat])).trans (if_neg (by simp [hh]))))
  · exact congrArg (fun t : State => Host.Outcome.next t.ltIdle) ((State.ltStep_acts _ hjob hstop).trans (State.ltSatisfied_goes hw hh))
  · exact congrArg (fun t : State => Host.Outcome.next t.ltIdle) ((State.ltStep_acts _ hjob hstop).trans (State.ltTimeout_halts hw hh ht))
  · obtain ⟨-, hat⟩ := id h
    exact congrArg (fun t : State => Host.Outcome.next (State.classWatch s u t.ltIdle).served)
      ((h.step _).trans ((if_neg (by simp [hat])).trans (if_pos (by simp [hw]))))
  · exact congrArg (fun t : State => Host.Outcome.next (State.classWatch s u t.ltIdle).served)
      ((State.ltStep_acts _ hjob hstop).trans (State.ltBurst_fetches hmov hready hsk hn hread hv))
  · refine congrArg Host.Outcome.next ((State.outTimeout_counted hch).trans ?_)
    rcases h with hk | hj
    · rw [hk, ht]
    · rw [hj, ht]
      split
      · next h => exact absurd h (by simp)
      · rfl
  · refine congrArg Host.Outcome.next ((State.outTimeout_counted hch).trans ?_)
    rw [hk, hj, ht]

end Sys2Proof.Machine

/-! PROOFS. The network and the feeder ports (09_network_and_feeders.md: R330 to R352, R361 to R367, R597; 10_harbourmaster.md: R400). -/

namespace Sys2Proof.Machine

namespace State

/-! ### Feeder ports (R361 to R367) -/

theorem setFeed_feed_same (n : Nat) (x : FeedSt) (s : State) : (s.setFeed n x).feed n = x := by
  rw [State.feed, State.setFeed, SMap.get_set_same]

theorem feed_congr {s t : State} (h : t.feeds = s.feeds) (n : Nat) : t.feed n = s.feed n := by
  rw [State.feed, State.feed, h]

theorem OnlyRegs.feeds_eq {s t : State} (h : s.OnlyRegs t) : t.feeds = s.feeds := by rw [h]

theorem Reported.feeds_eq {s t : State} (h : s.Reported t) : t.feeds = s.feeds := by rw [h]

/-- What follows the FIFO of a feeder port leaves the FIFO itself. -/
theorem feedShow_frame (n : Nat) (s : State) :
    ((s.feedShow n).feed n).fifo = (s.feed n).fifo ∧ ((s.feedShow n).feed n).word = (s.feed n).word ∧ (s.feedShow n).mem = s.mem := by
  unfold State.feedShow
  extract_lets o k s1 h x s2
  have h1 : s.OnlyRegs s1 := (OnlyRegs.refl s).wr _ _
  have hfeed1 : s1.feed n = s.feed n := feed_congr h1.feeds_eq n
  have h2 : s1.OnlyRegs s2 := (OnlyRegs.of_eq rfl : s1.OnlyRegs (s1.putBit (freg Reg.FEED_STATUS n) 3 h)).setBit _ _
  split
  · exact ⟨by rw [hfeed1], by rw [hfeed1], h1.mem_eq⟩
  · split
    · refine ⟨?_, ?_, ?_⟩
      · rw [setFeed_feed_same]
        exact (congrArg FeedSt.fifo hfeed1 : x.fifo = _)
      · rw [setFeed_feed_same]
        exact (congrArg FeedSt.word hfeed1 : x.word = _)
      · rw [State.setFeed_mem, h2.mem_eq, h1.mem_eq]
    · refine ⟨?_, ?_, ?_⟩
      · rw [setFeed_feed_same]
        exact (congrArg FeedSt.fifo hfeed1 : x.fifo = _)
      · rw [setFeed_feed_same]
        exact (congrArg FeedSt.word hfeed1 : x.word = _)
      · rw [State.setFeed_mem, State.bump_mem, h2.mem_eq, h1.mem_eq]

/-- A good packet of a locked port joins the FIFO (R361). -/
theorem feederPacket_joins {s : State} {n : Nat} {bs : List Nat} (hn : n < 2) (hen : s.bit (freg Reg.FEED_CTRL n) 0 = true)
    (h188 : s.bit (freg Reg.FEED_CTRL n) 3 = false) (hlock : s.bit (freg Reg.FEED_STATUS n) 0 = true) (hroom : (s.feed n).fifo.length < 256)
    (hlen : bs.length = 188) (hhead : bs.head? = some 0x47) :
    ∃ (u : State) (x : FeedSt), s.feederPacket n bs [0] true = (((u.setFeed n x).bump (freg Reg.FEED_PKTS_LAST n) 1).clrBit
        (freg Reg.FEED_STATUS n) 2).feedShow n ∧ x.fifo = (s.feed n).fifo ++ [(s.tideNum, bs)] ∧ u.mem = s.mem := by
  have hctrl : freg Reg.FEED_CTRL n ≠ freg Reg.FEED_STATUS n := by
    simp only [freg, Reg.FEED_CTRL, Reg.FEED_STATUS]
    omega
  have hnum (k : Nat) (hk : k < 0x600000) : k ≠ freg Reg.FEED_STATUS n := by
    simp only [freg, Reg.FEED_STATUS]
    omega
  obtain ⟨u, hu⟩ : ∃ u : State, u = s.setBit (freg Reg.FEED_STATUS n) 1 := ⟨_, rfl⟩
  have hlock' : u.bit (freg Reg.FEED_STATUS n) 0 = true := by
    rw [hu, State.bit_setBit _ _ (by decide), hlock]
    rfl
  have h188' : u.bit (freg Reg.FEED_CTRL n) 3 = false := by rw [hu, State.bit_setBit_other _ _ _ hctrl, h188]
  have hfeed : u.feed n = s.feed n := feed_congr (by rw [hu, State.setBit_feeds]) n
  have htide : u.tideNum = s.tideNum := by
    rw [hu]
    exact State.rd64_congr (State.rd_setBit_other _ _ (hnum _ (by decide))) (State.rd_setBit_other _ _ (hnum _ (by decide)))
  refine ⟨u, { s.feed n with fifo := (s.feed n).fifo ++ [(s.tideNum, bs)], bad := 0 }, ?_, rfl, by rw [hu, State.setBit_mem]⟩
  have htake : bs.take 188 = bs := List.take_of_length_le (by omega)
  unfold State.feederPacket
  dsimp only
  rw [if_neg (by simp [hen]), ← hu, h188', if_neg Bool.false_ne_true, hfeed, hlock', htide, htake]
  rw [if_pos (by simp [hhead, hlen]), if_neg (by decide), if_neg (by omega)]

/-- A read of the data register in host mode takes the next word of the packet (R365). -/
theorem feedData_word {s : State} {n d : Nat} {p : List Nat} {ps : List (Nat × List Nat)} (hhost : s.bit (freg Reg.FEED_CTRL n) 1 = true)
    (hfifo : (s.feed n).fifo = (d, p) :: ps) :
    ∃ y : FeedSt, s.feedData n = (leNat ((p.drop (4 * (s.feed n).word)).take 4), (s.setFeed n y).feedShow n)
      ∧ y.fifo = (if 46 ≤ (s.feed n).word then ps else (d, p) :: ps)
      ∧ y.word = if 46 ≤ (s.feed n).word then 0 else (s.feed n).word + 1 := by
  unfold State.feedData
  dsimp only
  rw [if_neg (by simp [hhost]), hfifo]
  refine ⟨_, rfl, ?_, ?_⟩
  · split <;> rfl
  · split <;> rfl

theorem each_nil {α : Type} (f : α → State → State) (s : State) : s.each [] f = s := rfl

theorem demuxRead_unfiltered {s : State} {n d : Nat} {p : List Nat} {ps : List (Nat × List Nat)} (hdemux : s.bit (freg Reg.FEED_CTRL n) 1 = false)
    (hfifo : (s.feed n).fifo = (d, p) :: ps) (hbuf : needsBuffer p = false) (hnone : s.feedFilters n p = []) :
    s.demuxRead n = (s.setFeed n { s.feed n with fifo := ps, word := 0 }).feedShow n := by
  unfold State.demuxRead
  dsimp only
  rw [if_neg (by simp [hdemux]), hfifo]
  dsimp only
  rw [hbuf, if_neg Bool.false_ne_true, hnone, List.map_nil]
  exact each_nil _ _

theorem holdShort_effect {s : State} {n : Nat} (hoff : (s.feed n).driverOff = none) :
    ((s.holdShort n).feed n).driverOff = some (s.now + 10000000) ∧ (s.holdShort n).bit (freg Reg.FEED_PIN_DIAG n) 16 = true
      ∧ (s.holdShort n).bit (freg Reg.FEED_EVENT n) 4 = true := by
  obtain ⟨u, hu⟩ : ∃ u : State, u = (s.setBit (freg Reg.FEED_PIN_DIAG n) 16).setBit (freg Reg.FEED_EVENT n) 4 := ⟨_, rfl⟩
  have hexec : s.holdShort n = (u.setFeed n { u.feed n with driverOff := some (u.now + 10000000) }).report 0x3C02 noAgent 0 0 := by
    rw [hu]
    exact if_neg (by simp [hoff])
  have hnow : u.now = s.now := by rw [State.now, State.now, hu, State.setBit_tide, State.setBit_tide]
  have hrep := (Reported.refl (u.setFeed n { u.feed n with driverOff := some (u.now + 10000000) })).report 0x3C02 noAgent 0 0
  have hne (r : Nat) (hr : 0x600000 ≤ r) : freg r n ≠ Reg.WATCH_EVENT := by
    simp only [freg, Reg.WATCH_EVENT]
    omega
  have hbit (r b : Nat) (hr : 0x600000 ≤ r) : (s.holdShort n).bit (freg r n) b = u.bit (freg r n) b := by
    rw [hexec]
    exact State.bit_other ((State.rd_report _ _ _ _ _ (hne r hr)).trans (State.rd_congr (State.setFeed_regs _ _ _) _)) b
  refine ⟨?_, ?_, ?_⟩
  · rw [hexec, feed_congr hrep.feeds_eq, setFeed_feed_same, hnow]
  · have hdiag : freg Reg.FEED_PIN_DIAG n ≠ freg Reg.FEED_EVENT n := by
      simp only [freg, Reg.FEED_PIN_DIAG, Reg.FEED_EVENT]
      omega
    rw [hbit _ _ (by decide), hu, State.bit_setBit_other _ _ _ hdiag, State.bit_setBit_same _ (by decide)]
  · rw [hbit _ _ (by decide), hu, State.bit_setBit_same _ (by decide)]

theorem pinTest_effect {n pins : Nat} (s : State) (hpins : pins < 2048) :
    (s.pinTest n pins).fld (freg Reg.FEED_PIN_DIAG n) 10 0 = pins ∧ (s.pinTest n pins).bit (freg Reg.FEED_STATUS n) 1 = false
      ∧ (s.pinTest n pins).mem = s.mem := by
  have hne (r : Nat) (hr : 0x600000 ≤ r) : freg r n ≠ Reg.WATCH_EVENT := by
    simp only [freg, Reg.WATCH_EVENT]
    omega
  have hdiag : freg Reg.FEED_PIN_DIAG n ≠ freg Reg.FEED_EVENT n := by
    simp only [freg, Reg.FEED_PIN_DIAG, Reg.FEED_EVENT]
    omega
  have hst : freg Reg.FEED_STATUS n ≠ freg Reg.FEED_EVENT n := by
    simp only [freg, Reg.FEED_STATUS, Reg.FEED_EVENT]
    omega
  have hst' : freg Reg.FEED_STATUS n ≠ freg Reg.FEED_PIN_DIAG n := by
    simp only [freg, Reg.FEED_STATUS, Reg.FEED_PIN_DIAG]
    omega
  unfold State.pinTest
  extract_lets s1 old s2
  have hfld : s2.fld (freg Reg.FEED_PIN_DIAG n) 10 0 = pins := by
    rw [State.fld_wrFld_same _ _ _ (by decide) (by decide)]
    exact Nat.mod_eq_of_lt hpins
  have hbit : s2.bit (freg Reg.FEED_STATUS n) 1 = false :=
    (State.bit_other (State.rd_wr_other _ s1 hst') 1).trans (State.bit_clrBit_same s (by decide))
  have hmem : s2.mem = s.mem := by rw [State.wrFld_mem, State.clrBit_mem]
  split
  · refine ⟨?_, ?_, ?_⟩
    · rw [State.fld_congr (State.rd_report _ _ _ _ _ (hne _ (by decide))), State.fld_congr (State.rd_setBit_other _ _ hdiag), hfld]
    · rw [State.bit_other (State.rd_report _ _ _ _ _ (hne _ (by decide))), State.bit_setBit_other _ _ _ hst, hbit]
    · rw [State.mem_report, State.setBit_mem, hmem]
  · exact ⟨hfld, hbit, hmem⟩

end State

/-- Settles O42. -/
theorem feederPortsReceive : Obligations.FeederPortsReceive := by
  refine ⟨fun s n bs hn hen h188 hlock hroom hlen hhead => ?_, fun s agent n d p ps hn hhost hfifo => ?_,
    fun s n d p ps hn hdemux hfifo hbuf hnone => ?_, fun s n hn hen hsil => ?_, fun s n hn hoff => ?_, fun s n pins hn hpins => ?_⟩
  · obtain ⟨u, x, hexec, hx, hmem⟩ := State.feederPacket_joins hn hen h188 hlock hroom hlen hhead
    obtain ⟨hfifo, -, hm⟩ := (((u.setFeed n x).bump (freg Reg.FEED_PKTS_LAST n) 1).clrBit (freg Reg.FEED_STATUS n) 2).feedShow_frame n
    refine ⟨_, congrArg Host.Outcome.next (by rw [Nat.mod_eq_of_lt hn, hexec]), ?_, fun a => ?_⟩
    · rw [hfifo, ← hx]
      exact congrArg FeedSt.fifo (State.setFeed_feed_same n x u)
    · rw [hm, State.clrBit_mem, State.bump_mem, State.setFeed_mem, hmem]
  · obtain ⟨y, hexec, hy1, hy2⟩ := State.feedData_word hhost hfifo
    obtain ⟨hf, hw, hm⟩ := (s.setFeed n y).feedShow_frame n
    rw [State.setFeed_feed_same] at hf hw
    refine ⟨_, congrArg Host.Outcome.next ?_, hf.trans hy1, hw.trans hy2, fun a => by rw [hm, State.setFeed_mem]⟩
    rw [Nat.mod_eq_of_lt hn, hexec]
  · refine congrArg Host.Outcome.next ?_
    rw [Nat.mod_eq_of_lt hn, State.demuxRead_unfiltered hdemux hfifo hbuf hnone]
  · refine congrArg Host.Outcome.next ?_
    rw [Nat.mod_eq_of_lt hn]
    exact if_pos (by simp [hen, hsil])
  · exact ⟨_, congrArg Host.Outcome.next (by rw [Nat.mod_eq_of_lt hn]), State.holdShort_effect hoff⟩
  · obtain ⟨hfld, hbit, hmem⟩ := s.pinTest_effect (n := n) hpins
    exact ⟨_, congrArg Host.Outcome.next (by rw [Nat.mod_eq_of_lt hn]), hfld, hbit, fun a => by rw [hmem]⟩

end Sys2Proof.Machine

/-! PROOFS. What arrives from the network, and what leaves (09_network_and_feeders.md: R330 to R352; 10_harbourmaster.md: R400;
17_faults_and_availability.md: R597). -/

namespace Sys2Proof.Machine

namespace State

/-! ### Links (R330) -/

theorem nreg_ne_event {r k : Nat} (hr : Reg.NET_PORT_CTRL ≤ r) : nreg r k ≠ Reg.NET_EVENT ∧ nreg r k ≠ Reg.WATCH_EVENT := by
  simp only [Reg.NET_PORT_CTRL] at hr
  simp only [nreg, Reg.NET_EVENT, Reg.WATCH_EVENT]
  omega

theorem portExists_le {s : State} {k : Nat} (h : s.portExists k = true) : k ≤ 8 := by
  by_contra hk
  unfold State.portExists at h
  rw [if_neg (by omega), if_neg (by omega)] at h
  exact Bool.false_ne_true h

theorem linkChange_down {s : State} {k : Nat} {lf rf : Bool} (sp : Nat) (hex : s.portExists k = true)
    (hup : s.bit (nreg Reg.NET_PORT_STATUS k) 0 = true) :
    s.linkChange k false false lf rf sp
      = ((s.wr (nreg Reg.NET_PORT_STATUS k) (4 * b2n lf + 8 * b2n rf)).setBit Reg.NET_EVENT k).report 0x3C03 0xFFF 0 0 := by
  unfold State.linkChange
  dsimp only
  rw [if_neg (by simp [hex])]
  simp only [Bool.and_false, Bool.false_and, Bool.false_eq_true, if_false, hup, reduceCtorEq]
  have hv : b2n false + 2 * b2n false + 4 * b2n lf + 8 * b2n rf + 16 * 0 = 4 * b2n lf + 8 * b2n rf := by
    simp [b2n]
  rw [hv]

theorem testBit_zero_status (a b : Nat) : (b2n true + 2 * a + 4 * b2n false + 8 * b2n false + 16 * b).testBit 0 = true := by
  rw [Nat.testBit_zero]
  simp [b2n]
  omega

/-- The value of a port's status with the link up, but for FEC lock and speed. -/
theorem linkChange_up {s : State} {k : Nat} (sp : Nat) (hex : s.portExists k = true) (hout : s.outputsOn = true)
    (hctrl : s.bit (nreg Reg.NET_PORT_CTRL k) 0 = true) (hdown : s.bit (nreg Reg.NET_PORT_STATUS k) 0 = false) :
    ∃ a b, s.linkChange k true true false false sp = ((s.wr (nreg Reg.NET_PORT_STATUS k)
      (b2n true + 2 * a + 4 * b2n false + 8 * b2n false + 16 * b)).setBit Reg.NET_EVENT k).report 0x3C03 0xFFF 0 0 := by
  unfold State.linkChange
  extract_lets p needFec lock up o old s1
  have hup : up = true := by
    simp only [up, lock, hctrl]
    cases needFec <;> rfl
  have hold : old = false := hdown
  rw [if_neg (by simp [hex, hout]), hold, hup, if_neg Bool.false_ne_true]
  refine ⟨b2n lock, if up then p else 0, ?_⟩
  have hs1 : s1 = s.wr o (b2n true + 2 * b2n lock + 4 * b2n false + 8 * b2n false + 16 * (if up then p else 0)) := by
    unfold s1
    rw [hup]
  rw [hs1]

/-! ### Datagrams (R333 to R335) -/

/-- The counts of a datagram that arrives on a port that is up. -/
def fecCounted (d : Datagram) (s : State) : State :=
  (s.bump (nreg Reg.NET_PORT_FEC_CORR_LAST d.port) d.fecCorr).bump (nreg Reg.NET_PORT_FEC_UNCORR_LAST d.port) d.fecBad

section Ingress

variable {s u v : State} {d : Datagram} {i : Nat}

theorem ingress_bad (hup : s.portUp d.port = true) (hfcs : d.fcsOk = false) :
    s.ingress d = (s.fecCounted d).bump (nreg Reg.NET_PORT_FCS_ERR_LAST d.port) 1 := by
  unfold State.ingress
  rw [if_neg (by simp [hup])]
  exact if_pos (by simp [hfcs])

/-- A datagram that is whole is classified in the state that has counted it. -/
theorem ingress_good (hup : s.portUp d.port = true) (hfcs : d.fcsOk = true) (hlen : d.frame ≤ 9022) (hproto : d.proto = 0)
    (hfrag : d.fragment = false) (hu : u = (s.fecCounted d).bump (nreg Reg.NET_PORT_RX_BYTES_LAST d.port) d.frame) :
    s.ingress d = match u.classify d with
      | some i => if !(u.policeAt i d.len).1 then (u.policeAt i d.len).2
        else
          match (u.policeAt i d.len).2.cf i 1 1 with
          | 1 | 2 => ((u.policeAt i d.len).2.notePath i d).rxPacket i d
          | 3 => ((u.policeAt i d.len).2.notePath i d).tsNet ((u.policeAt i d.len).2.rxKey i) i (u.policeAt i d.len).2.tideNum
              ((u.policeAt i d.len).2.elemOf ((u.policeAt i d.len).2.cf i 10 2) d) d.data
          | 4 => (u.policeAt i d.len).2.feedback d.data
          | 5 => (u.policeAt i d.len).2.stormFlow d
          | 7 => (u.policeAt i d.len).2.toHost i d
          | _ => (u.policeAt i d.len).2
      | none => u.bump Reg.NET_RX_UNMATCHED_LAST 1 := by
  subst hu
  unfold State.ingress
  simp only [hup, hfcs, not_lt.2 hlen, hproto, hfrag, Bool.not_true, Bool.not_false, Bool.false_eq_true, if_false, if_true, decide_true,
    Bool.and_true, Nat.zero_ne_one, show ¬ (0 : Nat) = 2 by decide, decide_false, Bool.or_false]
  rfl

/-- Noting the path of a packet changes decode contexts alone. -/
theorem notePath_eq (i : Nat) (d : Datagram) (v : State) : v.notePath i d = { v with decs := (v.notePath i d).decs } := by
  unfold State.notePath
  dsimp only
  split
  · rfl
  · rfl

/-- What the decode contexts hold is no part of a classifier record, of the tide number, or of an element's place. -/
theorem classifier_decs (i c : Nat) (d : Datagram) (v : State) {m : SMap DecSt} :
    ({ v with decs := m } : State).rxKey i = v.rxKey i ∧ ({ v with decs := m } : State).tideNum = v.tideNum ∧
    ({ v with decs := m } : State).cf i 10 2 = v.cf i 10 2 ∧ ({ v with decs := m } : State).elemOf c d = v.elemOf c d :=
  ⟨rfl, rfl, rfl, rfl⟩

end Ingress

/-! ### Sending (R344, R348) -/

theorem runJob_ready {u op : Nat} {needsStart : Bool} {j : Job} {s : State} (f : Job → State → State) (h : s.JobReady u op needsStart j) :
    s.runJob u op needsStart f = f j s := by
  obtain ⟨hat, hstop, hok⟩ := h
  simp only [State.runJob, hat, hstop, hok]

end State

theorem unitsOf_egress : unitsOf .egress = [0xE0, 0xE1, 0xE2, 0xE3, 0xE4, 0xE5, 0xE6, 0xE7] := by decide

theorem mem_unitsOf_egress {u : Nat} (h : unitKind u = some .egress) : u ∈ unitsOf .egress := by
  have hrange : 0xE0 ≤ u ∧ u ≤ 0xE7 := by
    unfold unitKind at h
    grind
  rw [unitsOf_egress]
  simp only [List.mem_cons, List.not_mem_nil, or_false]
  omega

/-- Of the egress units exactly `u` satisfies `p`. -/
theorem filter_unitsOf_egress {u : Nat} {p : Nat → Bool} (h : unitKind u = some .egress) (hu : p u = true)
    (hother : ∀ v, v ≠ u → p v = false) : (unitsOf .egress).filter p = [u] := by
  have hp : (unitsOf .egress).filter p = (unitsOf .egress).filter (fun v => v == u) := by
    refine List.filter_congr fun v _ => ?_
    by_cases hv : v = u
    · rw [hv, hu, beq_self_eq_true]
    · rw [hother v hv, beq_eq_false_iff_ne.2 hv]
  have hnodup : (unitsOf .egress).Nodup := by
    rw [unitsOf_egress]
    decide
  rw [hp, List.filter_beq, hnodup.count, if_pos (mem_unitsOf_egress h)]
  rfl

/-- Settles O40: the network as links change and frames arrive. -/
theorem networkReceives : Obligations.NetworkReceives := by
  refine ⟨fun s k sp lf rf hex hup => congrArg Host.Outcome.next (State.linkChange_down sp hex hup), fun s k sp hex hout hctrl hdown => ?_,
    fun s d hup hfcs => congrArg Host.Outcome.next (State.ingress_bad hup hfcs), fun s d hup hfcs hlen hproto hfrag => ?_,
    fun s k hup hboot hfence hip => congrArg Host.Outcome.next (if_pos ?_), fun s i hi hon hcf => ?_,
    fun s p h1 h2 h3 h4 h5 h6 h7 h8 h9 h10 => congrArg Host.Outcome.next (if_pos ?_)⟩
  · obtain ⟨a, b, ht⟩ := State.linkChange_up sp hex hout hctrl hdown
    have hk := State.portExists_le hex
    obtain ⟨hevent, hwatch⟩ := State.nreg_ne_event (k := k) (r := Reg.NET_PORT_STATUS) (by decide)
    refine ⟨_, congrArg Host.Outcome.next ht, ?_, ?_, fun a => ?_⟩
    · rw [State.bit_other (State.rd_report _ _ _ _ _ hwatch), State.bit_setBit_other _ _ _ hevent, State.bit, State.rd_wr_same]
      rw [show (2 : Nat) ^ 32 = 2 * 2 ^ 31 by rfl, Nat.testBit_zero, Nat.mod_mul_right_mod, ← Nat.testBit_zero]
      exact State.testBit_zero_status a b
    · rw [State.bit_other (State.rd_report _ _ _ _ _ (by decide)), State.bit_setBit_same _ (by omega)]
    · rw [((((State.Reported.refl s).wr _ _).setBit _ _).report _ _ _ _).mem_eq]
  · refine ⟨_, rfl, fun hnone => ?_, fun i v hclass hpol => ?_, fun i v hclass hpol => ?_⟩
    · refine congrArg Host.Outcome.next ?_
      rw [State.ingress_good hup hfcs hlen hproto hfrag rfl]
      exact hnone ▸ rfl
    · refine congrArg Host.Outcome.next ?_
      rw [State.ingress_good hup hfcs hlen hproto hfrag rfl]
      unfold State.fecCounted
      simp only [hclass, hpol, Bool.not_false, if_true]
    · have hgood := State.ingress_good hup hfcs hlen hproto hfrag rfl
      unfold State.fecCounted at hgood
      simp only [hclass, hpol, Bool.not_true, Bool.false_eq_true, if_false] at hgood
      refine ⟨fun hc => congrArg Host.Outcome.next ?_, fun hc => congrArg Host.Outcome.next ?_, fun hc => congrArg Host.Outcome.next ?_,
        fun hc => congrArg Host.Outcome.next ?_, fun hc => congrArg Host.Outcome.next ?_⟩
      · rcases hc with hc | hc <;> simp only [hgood, hc]
      · obtain ⟨hkey, htide, hctx, helem⟩ := State.classifier_decs i (v.cf i 10 2) d v (m := (v.notePath i d).decs)
        rw [← State.notePath_eq] at hkey htide hctx helem
        simp only [hgood, hc, hkey, htide, hctx, helem]
      · simp only [hgood, hc]
      · simp only [hgood, hc]
      · simp only [hgood, hc]
  · simp [hup, hboot, hfence, hip]
  · refine congrArg Host.Outcome.next ?_
    rw [Nat.mod_eq_of_lt hi]
    exact if_pos (by simpa [hon] using hcf)
  · simp [h1, h2, h3, h4, h5, h6, h7, h8, h9, h10]

/-- Settles O41: TRANSMIT and its deadline, and the report of lost paths. -/
theorem transmitAndPathLoss : Obligations.TransmitAndPathLoss := by
  refine ⟨⟨fun s u j times hready hs0 => ?_, fun s u j times l go hkind hat hother hl hgo => ?_, fun s outs hnone => ?_⟩,
    fun s k hex hdown hprot hnew => congrArg Host.Outcome.next (if_pos (by rw [hex, hdown, hprot, hnew]; rfl)), fun s k hup hlost => ?_⟩
  · have hrun : s.runJob u 0x0401 false (fun j s => s.transmit times u j) = s.transmit times u j := State.runJob_ready _ hready
    refine ⟨fun hopen => congrArg Host.Outcome.next (hrun.trans ?_), fun hclosed => congrArg Host.Outcome.next (hrun.trans ?_)⟩
    · exact (if_neg hs0).trans (if_neg (by simp [hopen]))
    · exact (if_neg hs0).trans (if_pos hclosed)
  · subst hl hgo
    refine congrArg Host.Outcome.next ?_
    have hone : (unitsOf .egress).filter (fun v => (s.jobAt v 0x0401).isSome) = [u] :=
      filter_unitsOf_egress hkind (by rw [hat]; rfl) fun v hv => by rw [hother v hv]; rfl
    simp only [State.txDeadline, hone, State.each, List.foldl_cons, List.foldl_nil, hat, List.find?_cons, decide_true, Option.map_some,
      Option.getD_some]
  · refine congrArg Host.Outcome.next ?_
    have hnil : (unitsOf .egress).filter (fun v => (s.jobAt v 0x0401).isSome) = [] :=
      List.filter_eq_nil_iff.2 fun v _ => by rw [hnone v]; exact Bool.false_ne_true
    rw [State.txDeadline, hnil]
    exact State.each_nil _ _
  · refine congrArg Host.Outcome.next ?_
    have hone : s.pathLost.filter (fun p => p != k) = [] := by rw [hlost]; simp
    refine (if_pos (by simp [hup, hlost])).trans ?_
    simp only [hone, List.isEmpty_nil, State.whenB, if_true]

end Sys2Proof.Machine

/-! PROOFS. Display outputs (08_composition.md: R319 to R324): the link as the sink and the timer change it, and a frame's start. -/

namespace Sys2Proof.Machine

namespace State

theorem disp_congr {s t : State} (h : t.disps = s.disps) (n : Nat) : t.disp n = s.disp n := by
  rw [State.disp, State.disp, h]

theorem Reported.disps_eq {s t : State} (h : s.Reported t) : t.disps = s.disps := by rw [h]

theorem disp_setDisp_other {k j : Nat} (x : DispSt) (s : State) (h : j ≠ k) : (s.setDisp k x).disp j = s.disp j := by
  rw [State.disp_setDisp, if_neg h]

/-- A change of the link keeps what it reports apart from the output itself. -/
theorem linkSet_reported (n : Nat) (y : DispSt) (s : State) : (s.setDisp n y).Reported (s.linkSet n y) := by
  unfold State.linkSet
  exact ((Reported.refl _).whenB _ fun u => (Reported.refl u).setBit _ _).whenB _ fun u => (Reported.refl u).report _ _ _ _

/-- The layout of an output in a tide is in its list of layouts. -/
theorem dispLayout_setDisp {n p : Nat} {x : DispSt} {s : State} (h : x.lays = (s.disp n).lays) :
    (s.setDisp n x).dispLayout n p = s.dispLayout n p := by
  unfold State.dispLayout
  rw [State.disp_setDisp_same, h]

/-! ### A frame's start (R319, R322) -/

section Frame

variable {s u : State} {n : Nat}

/-- The output as a frame in its turn finds it: LOCKED follows the link. -/
def frameLocked (n : Nat) (s : State) : State := s.setDisp n { s.disp n with locked := (s.disp n).up }

/-- The frame shows the composition for the current tide. -/
theorem vsync_shows {p a : Nat} (hon : s.bit (dreg Reg.DISP_OUT_CTRL n) 0 = true) (hslate : (s.disp n).slate = false)
    (hturn : s.tideNum % s.dispDiv n = 0) (hlay : s.dispLayout n s.tideNum ≤ 1023)
    (hready : (s.disp n).ready.find? (fun p => p.1 = s.tideNum) = some (p, a)) :
    ∃ y o, s.vsync n = ((s.frameLocked n).setDisp n y).emit o ∧ y.shown = a ∧ y.locked = (s.disp n).up := by
  unfold State.vsync
  extract_lets x t s1 x1
  have hlocked : s1.dispLayout n t = s.dispLayout n t := dispLayout_setDisp rfl
  have hx1 : x1 = { s.disp n with locked := (s.disp n).up } := State.disp_setDisp_same _ _ _
  have hfound : x1.ready.find? (fun p => p.1 = t) = some (p, a) := by rw [hx1]; exact hready
  rw [if_neg (by simp [hon]), if_neg (by rw [hslate]; exact Bool.false_ne_true), if_neg (not_not_intro hturn), hlocked,
    if_neg (not_lt.2 hlay), hfound]
  exact ⟨_, _, rfl, rfl, congrArg DispSt.locked hx1⟩

/-- With no composition the frame repeats the picture shown. -/
theorem vsync_repeats (hon : s.bit (dreg Reg.DISP_OUT_CTRL n) 0 = true) (hslate : (s.disp n).slate = false)
    (hturn : s.tideNum % s.dispDiv n = 0) (hlay : s.dispLayout n s.tideNum ≤ 1023)
    (hready : (s.disp n).ready.find? (fun p => p.1 = s.tideNum) = none) :
    ∃ o, s.vsync n
      = (((s.frameLocked n).bump (dreg Reg.DISP_OUT_REPEATS_LAST n) 1).setBit (dreg Reg.DISP_OUT_EVENT n) 3).emit o := by
  unfold State.vsync
  extract_lets x t s1 x1
  have hlocked : s1.dispLayout n t = s.dispLayout n t := dispLayout_setDisp rfl
  have hx1 : x1 = { s.disp n with locked := (s.disp n).up } := State.disp_setDisp_same _ _ _
  have hnone : x1.ready.find? (fun p => p.1 = t) = none := by rw [hx1]; exact hready
  rw [if_neg (by simp [hon]), if_neg (by rw [hslate]; exact Bool.false_ne_true), if_neg (not_not_intro hturn), hlocked,
    if_neg (not_lt.2 hlay), hnone]
  exact ⟨_, rfl⟩

end Frame

end State

/-- Settles O39: a display output as its sink and the tide change it. -/
theorem displayFollowsTheSinkAndTheTide : Obligations.DisplayFollowsTheSinkAndTheTide := by
  refine ⟨⟨fun s n hn => ?_, fun s n lanes rate diag b hn hlow => ?_, fun s n b hn hhpd => ?_, fun s n b hn hhpd hup => ?_,
    fun s n hn haux => ?_, fun s n hn haux => ?_, fun s n lane b hn hlane => ?_⟩, fun s n hn hon => ⟨fun hslate => ?_,
      fun hslate hturn hlay => ⟨fun p a hready => ?_, fun hready => ?_⟩⟩⟩
  · obtain ⟨u, hu⟩ : ∃ u : State, u = s.whenB (s.disp n).hpd (State.setBit (dreg Reg.DISP_OUT_EVENT n) 0) := ⟨_, rfl⟩
    have hsame : s.Reported u := hu ▸ (State.Reported.refl s).whenB _ fun v => (State.Reported.refl v).setBit _ _
    obtain ⟨y, hy⟩ : ∃ y : DispSt, y = { u.disp n with hpd := false, up := false, lanes := 0, rate := 0, locked := false } := ⟨_, rfl⟩
    have hrun : s.hpdLow n = u.linkSet n y := by rw [hy, hu]; rfl
    have hdisp (m : Nat) : (u.linkSet n y).disp m = if m = n then y else u.disp m := by
      rw [State.disp_congr (State.linkSet_reported n y u).disps_eq, State.disp_setDisp]
    refine ⟨u.linkSet n y, ?_, ?_, ?_, ?_, fun m hm => ?_⟩
    · rw [← hrun]
      exact congrArg (fun k => Host.Outcome.next (s.hpdLow k)) (Nat.mod_eq_of_lt hn)
    · rw [hdisp, if_pos rfl, hy]
    · rw [hdisp, if_pos rfl, hy]
    · rw [hdisp, if_pos rfl, hy]
    · rw [hdisp, if_neg hm, State.disp_congr hsame.disps_eq]
  · refine (congrArg (fun k => Host.Outcome.next (s.hpdAssert k lanes rate diag b)) (Nat.mod_eq_of_lt hn)).trans
      (congrArg Host.Outcome.next ?_)
    simp only [State.hpdAssert, hlow, Bool.not_false, State.whenB, if_true,
      State.disp_congr (State.wrFld_disps _ _ _ _ _), State.disp_congr (State.setBit_disps _ _ _)]
  · refine ⟨(congrArg (fun k => Host.Outcome.next (s.irqHpd k true b)) (Nat.mod_eq_of_lt hn)).trans (congrArg Host.Outcome.next ?_),
      congrArg Host.Outcome.next (if_neg (by simp))⟩
    exact if_pos (by simp [hhpd])
  · exact (congrArg (fun k => Host.Outcome.next (s.linkRetry k b)) (Nat.mod_eq_of_lt hn)).trans
      (congrArg Host.Outcome.next (if_pos (by simp [hhpd, hup])))
  · exact (congrArg (fun k => Host.Outcome.next (s.auxTimeout k)) (Nat.mod_eq_of_lt hn)).trans
      (congrArg Host.Outcome.next (if_pos haux))
  · exact (congrArg (fun k => Host.Outcome.next (s.auxTimeout k)) (Nat.mod_eq_of_lt hn)).trans
      (congrArg Host.Outcome.next (if_neg (not_lt.2 haux)))
  · refine (congrArg (fun k => Host.Outcome.next (s.laneFault k lane 2 b)) (Nat.mod_eq_of_lt hn)).trans (congrArg Host.Outcome.next ?_)
    simp only [State.laneFault, Nat.mod_eq_of_lt hlane, if_true]
  · refine (congrArg (fun k => Host.Outcome.next (s.vsync k)) (Nat.mod_eq_of_lt hn)).trans (congrArg Host.Outcome.next ?_)
    exact (if_neg (by simp [hon])).trans (if_pos hslate)
  · obtain ⟨y, o, hrun, hshown, hlocked⟩ := State.vsync_shows hon hslate hturn hlay hready
    refine ⟨_, (congrArg (fun k => Host.Outcome.next (s.vsync k)) (Nat.mod_eq_of_lt hn)).trans (congrArg Host.Outcome.next hrun),
      ?_, ?_, fun r => ?_, fun b => ?_⟩
    · rw [State.disp_congr (State.emit_disps _ _), State.disp_setDisp_same, hshown]
    · rw [State.disp_congr (State.emit_disps _ _), State.disp_setDisp_same, hlocked]
    · rw [State.rd_congr (State.emit_regs _ _), State.rd_congr (State.setDisp_regs _ _ _), State.frameLocked,
        State.rd_congr (State.setDisp_regs _ _ _)]
    · rw [State.emit_mem, State.setDisp_mem, State.frameLocked, State.setDisp_mem]
  · obtain ⟨o, hrun⟩ := State.vsync_repeats hon hslate hturn hlay hready
    refine ⟨_, (congrArg (fun k => Host.Outcome.next (s.vsync k)) (Nat.mod_eq_of_lt hn)).trans (congrArg Host.Outcome.next hrun),
      ?_, ?_, fun b => ?_⟩
    · rw [State.disp_congr (State.emit_disps _ _), State.disp_congr (State.setBit_disps _ _ _), State.disp_congr (State.bump_disps _ _ _),
        State.frameLocked, State.disp_setDisp_same]
    · rw [State.bit_other (State.rd_congr (State.emit_regs _ _) _), State.bit_setBit_same _ (by decide)]
    · rw [State.emit_mem, State.setBit_mem, State.bump_mem, State.frameLocked, State.setDisp_mem]

end Sys2Proof.Machine

/-! PROOFS. Queues of the harbourmaster (10_harbourmaster.md: R374 to R387, R409): fields of a context, posts, and the commands on
queue contexts. -/

namespace Sys2Proof.Machine

/-! ### Little-endian numbers in memory (R7) -/

theorem Memory.read_write_same (m : Memory) (a v : Nat) : Memory.read (Memory.write m a v) a = v % 256 :=
  congrArg BitVec.toNat (SMap.get_set_same _ _ _ _)

theorem Memory.read_write_other {a x : Nat} (v : Nat) (m : Memory) (h : x ≠ a) : Memory.read (Memory.write m a v) x = Memory.read m x :=
  congrArg BitVec.toNat (SMap.get_set_other _ _ _ h)

theorem Memory.read_writeN_other {a x n : Nat} (v : Nat) (m : Memory) (h : x < a ∨ a + n ≤ x) :
    Memory.read (Memory.writeN m a n v) x = Memory.read m x := by
  induction n generalizing m a v with
  | zero => rfl
  | succ n ih => rw [Memory.writeN, ih _ _ (by omega), Memory.read_write_other _ _ (by omega)]

theorem Memory.readN_congr {m m' : Memory} {a n : Nat} (h : ∀ x, a ≤ x → x < a + n → Memory.read m' x = Memory.read m x) :
    Memory.readN m' a n = Memory.readN m a n := by
  induction n generalizing a with
  | zero => rfl
  | succ n ih => rw [Memory.readN, Memory.readN, h a (by omega) (by omega), ih fun x hx hx' => h x (by omega) (by omega)]

theorem Memory.readN_writeN_other {a b k n : Nat} (v : Nat) (m : Memory) (h : b + k ≤ a ∨ a + n ≤ b) :
    Memory.readN (Memory.writeN m a n v) b k = Memory.readN m b k :=
  Memory.readN_congr fun _ _ _ => Memory.read_writeN_other v m (by omega)

theorem Memory.readN_writeN_same (m : Memory) (a n v : Nat) : Memory.readN (Memory.writeN m a n v) a n = v % 256 ^ n := by
  induction n generalizing m a v with
  | zero => rw [Memory.readN, Nat.pow_zero, Nat.mod_one]
  | succ n ih =>
    rw [Memory.readN, Memory.writeN, ih, Memory.read_writeN_other _ _ (by omega), Memory.read_write_same, pow_succ', Nat.mod_mul]

namespace State

/-! ### Fields of a queue context (R374) -/

theorem qf_congr {s t : State} (hmem : t.mem = s.mem) (h : t.rd40 Reg.HM_QCTX_BASE_LO = s.rd40 Reg.HM_QCTX_BASE_LO) (q off n : Nat) :
    t.qf q off n = s.qf q off n := by
  rw [State.qf, State.qf, State.rdM, State.rdM, State.qAddr, State.qAddr, hmem, h]

theorem rd_setQf (q off n v o : Nat) (s : State) : (s.setQf q off n v).rd o = s.rd o := State.rd_congr (State.wrM_regs _ _ _ s) o

theorem setQf_qAddr (q off n v : Nat) (s : State) : (s.setQf q off n v).qAddr = s.qAddr := by
  funext p
  simp only [State.qAddr, State.rd40, rd_setQf]

theorem qf_setQf_same (q off n v : Nat) (s : State) : (s.setQf q off n v).qf q off n = v % 256 ^ n := by
  rw [State.qf, setQf_qAddr]
  exact Memory.readN_writeN_same _ _ _ _

theorem qf_setQf_other {q off n off' n' : Nat} (v : Nat) (s : State) (h : off' + n' ≤ off ∨ off + n ≤ off') :
    (s.setQf q off n v).qf q off' n' = s.qf q off' n' := by
  rw [State.qf, setQf_qAddr]
  exact Memory.readN_writeN_other _ _ (by omega)

/-- What the harbourmaster keeps of a queue is no field of its context. -/
theorem qf_setQueueF (p : Nat) (f : QueueSt → QueueSt) (s : State) (q off n : Nat) : (s.setQueueF p f).qf q off n = s.qf q off n :=
  qf_congr rfl rfl q off n

theorem queue_congr {s t : State} (h : t.queues = s.queues) (q : Nat) : t.queue q = s.queue q := by
  rw [State.queue, State.queue, h]

theorem OnlyRegs.queues_eq {s t : State} (h : s.OnlyRegs t) : t.queues = s.queues := by rw [h]

theorem queue_setQueueF_same (q : Nat) (f : QueueSt → QueueSt) (s : State) : (s.setQueueF q f).queue q = f (s.queue q) :=
  State.queue_setQueue_same _ _ _

/-- The counters of block set 0 are no register of the harbourmaster's (R610). -/
theorem rd_sndCount_hm {p : Nat} (ev n : Nat) (s : State) (h : Reg.HM_QCTX_BASE_LO ≤ p) (h' : p ≤ Reg.HM_QCTX_BASE_LO + 4) :
    (s.sndCount 0xF00 ev n).rd p = s.rd p := by
  simp only [Reg.HM_QCTX_BASE_LO] at h h'
  refine State.rd_sndCount_other ev n s (fun i hi => ?_) ?_
  · simp only [sndBase, Reg.SNDSET_SEL]
    rw [if_neg (by omega)]
    omega
  · simp only [Reg.SND_EVENT]
    omega

theorem qf_sndCount (ev n : Nat) (s : State) (q off k : Nat) : (s.sndCount 0xF00 ev n).qf q off k = s.qf q off k := by
  refine qf_congr (OnlyRegs.mem_eq (s.sndCount_onlyRegs _ _ _)) ?_ q off k
  simp only [State.rd40]
  rw [rd_sndCount_hm _ _ _ (by decide) (by decide), rd_sndCount_hm _ _ _ (by decide) (by decide)]

/-! ### Posts (R376 to R378) -/

/-- A post the harbourmaster accepts. -/
theorem doorbell_accepted {agent q i : Nat} {s : State} (hstate : s.qState q = 1) (hres : ¬(4104 ≤ q ∧ q < 4128))
    (hprod : s.qFlag q 1 = false) (hclass : s.qClass q ≠ 3) (hnew : sub32 i (s.qProd q) ≤ 2 ^ 31)
    (hroom : sub32 i (s.qDone q) ≤ s.qSize q) :
    s.doorbell agent q i = ((s.sndCount 0xF00 0x802 1).setQf q 20 4 i).setQueueF q (fun x =>
      { x with posts := x.posted ((s.sndCount 0xF00 0x802 1).qDisp q) i (s.sndCount 0xF00 0x802 1).now }) := by
  have hr : (decide (4104 ≤ q) && decide (q < 4128)) = false := by simpa using hres
  have hok : (decide (s.qState q = 1) && !false && (!s.qFlag q 1 || decide (s.qClass q = 3)) &&
      if s.qClass q = 3 then decide (sub32 i (s.qDone q) ≤ sub32 (s.qProd q) (s.qDone q))
      else decide (sub32 i (s.qProd q) ≤ 2 ^ 31) && decide (sub32 i (s.qDone q) ≤ s.qSize q)) = true := by
    rw [if_neg hclass, hstate, hprod, decide_eq_true hnew, decide_eq_true hroom]
    rfl
  unfold State.doorbell
  simp only [hr]
  rw [if_pos hok, if_neg hclass]

/-- A post to a queue that is not running, or that only the hardware posts to (R378). -/
theorem doorbell_refused {agent q i : Nat} {s : State} (hstate : s.qState q ≠ 1) (hres : ¬(4104 ≤ q ∧ q < 4128)) :
    s.doorbell agent q i = (((s.setQErr q 1).bump Reg.HM_DOORBELL_BAD_LAST 1).setBit Reg.HM_EVENT 0).report 0x1402 agent 6 q := by
  have hr : (decide (4104 ≤ q) && decide (q < 4128)) = false := by simpa using hres
  unfold State.doorbell
  simp only [hr, hstate, decide_false, Bool.false_and, Bool.false_eq_true, if_false, Bool.not_false, State.whenB, if_true]

/-- A context that is not in the cache is loaded (R396). -/
theorem loadCtx_uncached {q : Nat} {s : State} (h : (s.queue q).cached = false) :
    ((s.loadCtx q).queue q).cached = true ∧ (s.loadCtx q).mem = s.mem := by
  unfold State.loadCtx
  rw [if_neg (by simp [h])]
  extract_lets free d s1 s2
  have hmem : s2.mem = s.mem := by
    unfold s2
    split
    · split <;> rfl
    · rfl
  obtain ⟨v, hv⟩ : ∃ v : State, v = (s2.setQueueF q (fun x => { x with cached := true })).bump Reg.HM_QC_MISS_LAST 1 := ⟨_, rfl⟩
  have hq : (v.queue q).cached = true := by
    rw [hv, queue_congr (State.bump_queues _ _ _), queue_setQueueF_same]
  have hvmem : v.mem = s2.mem := by rw [hv]; rfl
  rw [← hv]
  have hsnd := v.sndCount_onlyRegs 0xF00 0x801 1
  exact ⟨by rw [queue_congr hsnd.queues_eq, hq], by rw [hsnd.mem_eq, hvmem, hmem]⟩

/-! ### Commands on queue contexts (R381, R382, R409) -/

section Commands

variable {s : State} {agent q : Nat}

/-- A command of HM_QC_CMD that is let through runs on the queue HM_QC_SEL names, and heads are looked at. -/
theorem qcCmd_open {f : Nat → State → State} (harm : s.armBlocks agent Reg.HM_QC_CMD = false) (hq : s.fld Reg.HM_QC_SEL 19 0 = q) :
    s.qcCmd agent f = (f q s).dispatch := by
  rw [← hq]
  exact if_neg (by simp [harm])

theorem rd_qcErr_other {o : Nat} (e : Nat) (s : State) (h : o ≠ Reg.HM_QC_STATUS) : (s.qcErr e).rd o = s.rd o :=
  State.rd_wr_other _ _ h

theorem qcErr_eq (e : Nat) (s : State) : s.qcErr e = s.wr Reg.HM_QC_STATUS (e * 16) := rfl

theorem rd_qcErr_zero (s : State) : (s.qcErr 0).rd Reg.HM_QC_STATUS = 0 := State.rd_wr_same _ _ _

/-- READ writes HM_QC_DATA and the status. -/
theorem qcRead_effect (q : Nat) (s : State) :
    (s.qcRead q).rd Reg.HM_QC_STATUS = 0 ∧ (s.qcRead q).mem = s.mem ∧
    (∀ o, o ≠ Reg.HM_QC_STATUS → (o < Reg.HM_QC_DATA ∨ Reg.HM_QC_DATA + 64 ≤ o) → (s.qcRead q).rd o = s.rd o) := by
  refine ⟨rd_qcErr_zero _, ?_, fun o ho hdata => ?_⟩
  · rw [State.qcRead, qcErr_eq, State.wr_mem]
    exact OnlyRegs.mem_eq (OnlyRegs.each (fun i v => (OnlyRegs.refl v).wr _ _) _ s)
  · rw [State.qcRead, rd_qcErr_other 0 _ ho]
    refine State.each_keeps (·.rd o) _ s fun i hi v => State.rd_wr_other _ _ ?_
    have := List.mem_range.1 hi
    simp only [Reg.HM_QC_DATA] at hdata ⊢
    omega

theorem qcWrite_bad (hbad : qcBad s.qcN = true) : s.qcWrite q = s.wr Reg.HM_QC_STATUS 16 := by
  unfold State.qcWrite
  dsimp only
  rw [if_pos hbad, qcErr_eq]

theorem qcWrite_compose (hbad : qcBad s.qcN = false) (hlo : 4104 ≤ q) (hhi : q < 4128) :
    s.qcWrite q = s.wr Reg.HM_QC_STATUS 32 := by
  unfold State.qcWrite
  dsimp only
  rw [if_neg (by simp [hbad]), if_pos ⟨hlo, hhi⟩, qcErr_eq]

theorem rd_whenB_setQueueF (c : Bool) (q : Nat) (f : QueueSt → QueueSt) (s : State) (o : Nat) :
    (s.whenB c (fun s => s.setQueueF q f)).rd o = s.rd o := by
  cases c with
  | false => rfl
  | true => exact State.rd_congr (State.setQueue_regs _ _ _) o

/-- An accepted WRITE ends with error 0; without HALT in force the registers stay. -/
theorem qcWrite_accepted (hbad : qcBad s.qcN = false) (hq : 4128 ≤ q) (hmoves : s.qcMoves q = true → s.qIdle q = true)
    (hpin : (s.qcByte 10).testBit 2 = true → s.qFlag q 2 = true ∨ s.pinned < 12288) :
    ∃ v : State, s.qcWrite q = v.qcErr 0 ∧ ((s.qcByte 10).testBit 3 = false → ∀ o, v.rd o = s.rd o) := by
  unfold State.qcWrite
  extract_lets pin halt s1 s2 s3 s4 s5 s6 s7 s8
  have hm : ¬ (s.qcMoves q && !s.qIdle q) = true := by
    intro h
    obtain ⟨hmv, hidle⟩ := Bool.and_eq_true_iff.1 h
    rw [hmoves hmv] at hidle
    exact Bool.false_ne_true hidle
  have hp : ¬ (pin && !s.qFlag q 2 && decide (12288 ≤ s.pinned)) = true := by
    intro h
    simp only [Bool.and_eq_true, Bool.not_eq_true', decide_eq_true_eq] at h
    obtain ⟨⟨hpin', hflag⟩, hmany⟩ := h
    rcases hpin hpin' with hf | hf
    · rw [hf] at hflag
      exact Bool.false_ne_true hflag.symm
    · omega
  rw [if_neg (by simp [hbad]), if_neg (by omega), if_neg hm, if_neg hp, if_neg (by simp; omega)]
  have h6 (o : Nat) : s6.rd o = s.rd o := by simp only [s6, s5, s4, s3, s2, s1, rd_setQf]
  clear_value s6
  refine ⟨s8, rfl, fun hhalt o => ?_⟩
  have h8 : s8 = s7 := if_neg (by simp [halt, hhalt])
  have h7 : s7.rd o = s6.rd o := rd_whenB_setQueueF _ _ _ _ _
  rw [h8, h7, h6]

theorem qcEnable_bad (hbad : qcBad (s.qf q) = true) : s.qcEnable q = s.wr Reg.HM_QC_STATUS 16 := by
  unfold State.qcEnable
  dsimp only
  rw [if_pos hbad, qcErr_eq]

theorem qcEnable_idle (hq : 4128 ≤ q) (hbad : qcBad (s.qf q) = false) (hrate : s.qRate q = 0) (hidle : s.qIdle q = true) :
    s.qcEnable q = (s.queueStart q).wr Reg.HM_QC_STATUS 0 := by
  unfold State.qcEnable
  dsimp only
  rw [if_neg (by simp [hbad]), if_neg (by simp [hrate]), if_neg (by omega), if_neg (by omega), if_pos hidle, qcErr_eq]

theorem qcDisable_running (hq : 4128 ≤ q) (hstate : s.qState q = 1) :
    s.qcDisable q = (s.queueStop q (s.qFlag q 3)).wr Reg.HM_QC_STATUS 0 := by
  unfold State.qcDisable
  rw [if_neg (by omega), if_neg (by omega), if_pos hstate, qcErr_eq]

end Commands

end State

/-- Settles O43: posts, and the commands on queue contexts. -/
theorem queueCommandsAct : Obligations.QueueCommandsAct := by
  refine ⟨fun s agent q i hq hi harm hstate hres hprod hclass hnew hroom => ?_, fun s agent q i hq hi harm hstate hres => ?_,
    fun s agent q harm hsel => ?_, fun s agent q harm hsel => ⟨fun hbad => ?_, fun hbad hlo hhi => ?_, fun hbad hq hmoves hpin => ?_⟩,
    fun s agent q harm hsel hq => ⟨fun hbad => ?_, fun hbad hrate hidle => ?_, fun hstate => ?_⟩,
    fun s q hcached => ?_, fun s q hcached => ?_, fun s q i j hj hstate hwait hdl hpast hopen hread hcomp => ?_⟩
  · obtain ⟨u, hu⟩ : ∃ u : State, u = s.sndCount 0xF00 0x802 1 := ⟨_, rfl⟩
    have hsnd : s.OnlyRegs u := hu ▸ s.sndCount_onlyRegs _ _ _
    have hnow : u.now = s.now := by
      rw [State.now, State.now, show u.tide = s.tide by rw [hsnd]]
    have hpost := State.doorbell_accepted (agent := agent) hstate hres hprod hclass hnew hroom
    rw [← hu] at hpost
    refine ⟨s.doorbell agent q i, ?_, ?_, ?_, ?_⟩
    · refine (congrArg Host.Outcome.next (if_neg (by simp [harm]))).trans ?_
      rw [Nat.mod_eq_of_lt hq, Nat.mod_eq_of_lt hi]
    · rw [hpost]
      exact (State.qf_setQueueF _ _ _ _ _ _).trans ((State.qf_setQf_same _ _ _ _ _).trans (Nat.mod_eq_of_lt hi))
    · rw [hpost]
      exact (State.qf_setQueueF _ _ _ _ _ _).trans ((State.qf_setQf_other _ _ (by decide)).trans (hu ▸ State.qf_sndCount _ _ _ _ _ _))
    · rw [hpost, State.queue_setQueueF_same]
      simp only [QueueSt.posted, List.getLast?_append, List.getLast?_singleton, Option.some_or, Nat.mod_eq_of_lt hi, hnow]
  · refine (congrArg Host.Outcome.next (if_neg (by simp [harm]))).trans ?_
    rw [Nat.mod_eq_of_lt hq, Nat.mod_eq_of_lt hi, State.doorbell_refused hstate hres]
  · exact ⟨_, congrArg Host.Outcome.next (State.qcCmd_open harm hsel), State.qcRead_effect q s⟩
  · exact congrArg Host.Outcome.next ((State.qcCmd_open harm hsel).trans (congrArg State.dispatch (State.qcWrite_bad hbad)))
  · exact congrArg Host.Outcome.next ((State.qcCmd_open harm hsel).trans (congrArg State.dispatch (State.qcWrite_compose hbad hlo hhi)))
  · obtain ⟨v, hv, hregs⟩ := State.qcWrite_accepted hbad hq hmoves hpin
    refine ⟨v.qcErr 0, congrArg Host.Outcome.next ((State.qcCmd_open harm hsel).trans (congrArg State.dispatch hv)),
      State.rd_qcErr_zero v, fun o ho hhalt => ?_⟩
    rw [State.rd_qcErr_other 0 v ho, hregs hhalt]
  · exact congrArg Host.Outcome.next ((State.qcCmd_open harm hsel).trans (congrArg State.dispatch (State.qcEnable_bad hbad)))
  · exact congrArg Host.Outcome.next ((State.qcCmd_open harm hsel).trans (congrArg State.dispatch (State.qcEnable_idle hq hbad hrate hidle)))
  · exact congrArg Host.Outcome.next ((State.qcCmd_open harm hsel).trans (congrArg State.dispatch (State.qcDisable_running hq hstate)))
  · exact congrArg (fun t : State => Host.Outcome.next t.dispatch) (if_pos hcached)
  · exact ⟨_, rfl, State.loadCtx_uncached hcached⟩
  · subst hj
    exact congrArg Host.Outcome.next (if_pos ⟨hstate, hwait, hdl, hpast, by rw [hopen]; rfl, hread, by rw [hcomp]; rfl⟩)

end Sys2Proof.Machine

/-! PROOFS. Booking commands and gate lists (10_harbourmaster.md: R398, R399, R407, R414). -/

namespace Sys2Proof.Machine

/-! ### Bookings (R407, R408) -/

theorem any_del_eq_false {α : Type} (c : Nat) (m : SMap α) : (SMap.del c m).any (fun k => k.1 = c) = false := by
  induction m with
  | nil => rfl
  | cons p m ih =>
    obtain ⟨a, w⟩ := p
    unfold SMap.del
    split
    · exact ih
    case isFalse h => rw [List.any_cons, ih, Bool.or_false, decide_eq_false h]

namespace State

theorem Reported.books_eq {s t : State} (h : s.Reported t) : t.books = s.books := by rw [h]

theorem setEng_books (u : Nat) (e : Eng) (s : State) : (s.setEng u e).books = s.books := by
  obtain ⟨p, d, x, h, -⟩ := s.setEng_eq u e
  rw [h]
  rfl

theorem unitIrq_books (u b : Nat) (s : State) : (s.unitIrq u b).books = s.books := State.setBit_books _ _ s

/-- A berth that becomes free leaves the bookings as they are. -/
theorem releaseDone_books (u : Nat) (s : State) : (s.releaseDone u).books = s.books := by
  unfold State.releaseDone
  split
  · obtain ⟨v, hv⟩ : ∃ v : State, v = s.setUnitF u (fun x => { x with berth := .free, ctxs := [], released := [] }) := ⟨_, rfl⟩
    have hbooks : v.books = s.books := by rw [hv, State.setUnitF_books]
    rw [← hv, ← hbooks]
    dsimp only
    split
    · exact unitIrq_books u 0 v
    · rw [unitIrq_books]
      split
      · exact setEng_books u .idle v
      · rfl
    · exact setEng_books u .stopped v
    · exact setEng_books u .fenced v
    · rfl
  · rfl

theorem unbind_books (u c : Nat) (s : State) : (s.unbind u c).books = s.books := by
  unfold State.unbind
  rw [releaseDone_books, State.setUnit_books]

theorem afterSpares_reported (s old : State) : s.Reported (s.afterSpares old) := by
  unfold State.afterSpares State.spareConds
  refine Reported.trans (each_rel Reported.refl Reported.trans (fun k v => ?_) _ s)
    (each_rel Reported.refl Reported.trans (fun k v => (Reported.refl v).cond _ _ _) _ _)
  exact (Reported.refl v).whenB _ fun w => (Reported.refl w).setBit _ _

/-- A context that leaves its booking is booked no more. -/
theorem unbook_books (c : Nat) (s : State) : (s.unbook c).books = SMap.del c s.books := by
  unfold State.unbook
  rw [(afterSpares_reported _ s).books_eq]
  exact State.each_keeps (·.books) _ { s with books := SMap.del c s.books } fun u _ v => unbind_books u c v

theorem bookCmd_open {agent n : Nat} {s : State} (harm : s.armBlocks agent Reg.HM_BOOK_CMD = false) :
    s.bookCmd agent 1 n = (bookStatus n (s.bookCtx n)).dispatch ∧ s.bookCmd agent 2 n = bookStatus n (s.withdraw n) ∧
    s.bookCmd agent 3 n = (bookStatus n (s.bookOutput n)).dispatch := by
  unfold State.bookCmd
  simp only [harm, Bool.false_eq_true, if_false, and_self]

theorem bookCtx_refused {c : Nat} {s : State} (h : s.ctxState c ≠ 0 ∨ s.books.any (fun k => k.1 = c) = true) : s.bookCtx c = (1, s) := by
  refine if_pos ?_
  rcases h with h | h
  · simp [h]
  · rw [h, Bool.or_true]

/-- The result of a booking command, as the registers show it. -/
theorem bookStatus_effect {c : Nat} (r : Nat × State) (hc : c < 4096) :
    (bookStatus c r).rd Reg.HM_BOOK_STATUS = (r.1 * 16 + c * 65536) % two32 ∧ (bookStatus c r).bit Reg.HM_EVENT 4 = true ∧
    (bookStatus c r).mem = r.2.mem := by
  refine ⟨?_, State.bit_setBit_same _ (by decide), ?_⟩
  · rw [bookStatus, State.rd_setBit_other _ _ (by decide), State.rd_wr_same, Nat.mod_eq_of_lt hc]
    rfl
  · rw [bookStatus, State.setBit_mem, State.wr_mem]

/-! ### Gate lists (R398, R399, R414) -/

theorem gate_congr {s t : State} (h : t.gates = s.gates) (k : Nat) : t.gate k = s.gate k := by
  rw [State.gate, State.gate, h]

theorem gate_setGate_other {k j : Nat} (x : GateSt) (s : State) (h : j ≠ k) : (s.setGate k x).gate j = s.gate j := by
  rw [State.gate_setGate, if_neg h]

/-- A pending list becomes operational; only an event may follow. -/
theorem gateTakeover_pending {k : Nat} {s : State} (h : (s.gate k).pend = true) :
    ∃ (x : GateSt) (c : Bool), s.gateTakeover k = ((s.setGate k x).whenB c (State.setBit Reg.HM_EVENT 6)).dispatch ∧ x.oper = true
      ∧ x.pend = false ∧ x.entries = (s.gate k).nextEntries ∧ x.change = (s.gate k).nextChange := by
  unfold State.gateTakeover
  dsimp only
  rw [if_pos h]
  exact ⟨_, _, rfl, rfl, rfl, rfl, rfl⟩

end State

/-- Settles O44: booking commands, and the gate lists. -/
theorem bookingCommandsAndGates : Obligations.BookingCommandsAndGates := by
  refine ⟨fun s agent c hc harm => ?_, fun s k hk => ⟨fun agent v harm hsw => ?_,
    fun agent v harm hsw => ?_, fun hpend => ?_, fun hoper => ?_⟩⟩
  · obtain ⟨hbook, hdraw, hout⟩ := State.bookCmd_open (n := c) harm
    refine ⟨?_, ?_, ?_, fun r => State.bookStatus_effect r hc, fun h => State.bookCtx_refused (.inr h),
      fun h => ⟨State.bookCtx_refused (.inl h), ?_⟩, fun h => ?_, fun hbooked hstop => ?_⟩
    · exact (congrArg (fun n => Host.Outcome.next (s.bookCmd agent 1 n)) (Nat.mod_eq_of_lt hc)).trans (congrArg Host.Outcome.next hbook)
    · exact (congrArg (fun n => Host.Outcome.next (s.bookCmd agent 2 n)) (Nat.mod_eq_of_lt hc)).trans (congrArg Host.Outcome.next hdraw)
    · exact (congrArg (fun n => Host.Outcome.next (s.bookCmd agent 3 n)) (Nat.mod_eq_of_lt hc)).trans (congrArg Host.Outcome.next hout)
    · exact if_neg (by simp [h])
    · exact if_pos (by simp [h])
    · have hrun : s.withdraw c = (0, s.unbook c) := if_pos (by rw [hbooked, hstop]; rfl)
      refine ⟨by rw [hrun], fun _ => ?_⟩
      rw [hrun, State.unbook_books]
      exact any_del_eq_false c s.books
  · refine congrArg Host.Outcome.next ?_
    rw [Nat.mod_eq_of_lt hk, if_neg (by simp [harm, hsw])]
  · refine congrArg Host.Outcome.next ?_
    rw [Nat.mod_eq_of_lt hk, if_pos (by simp [hsw])]
  · obtain ⟨x, c, hrun, hoper, hpend', hentries, hchange⟩ := State.gateTakeover_pending hpend
    obtain ⟨v, hv⟩ : ∃ v : State, v = (s.setGate k x).whenB c (State.setBit Reg.HM_EVENT 6) := ⟨_, rfl⟩
    have hframe : v.gates = (s.setGate k x).gates ∧ v.mem = s.mem := by
      rw [hv]
      cases c with
      | false => exact ⟨rfl, State.setGate_mem _ _ _⟩
      | true => exact ⟨State.setBit_gates _ _ _, (State.setBit_mem _ _ _).trans (State.setGate_mem _ _ _)⟩
    obtain ⟨hgates, hmem⟩ := hframe
    have hsame : v.gate k = x := (State.gate_congr hgates k).trans (State.gate_setGate_same _ _ _)
    refine ⟨v, ?_, by rw [hsame, hoper], by rw [hsame, hpend'], by rw [hsame, hentries], by rw [hsame, hchange], fun n hn => ?_, hmem⟩
    · rw [hv, ← hrun]
      exact congrArg (fun k => Host.Outcome.next (s.gateTakeover k)) (Nat.mod_eq_of_lt hk)
    · exact (State.gate_congr hgates n).trans (State.gate_setGate_other _ _ hn)
  · refine ⟨s.setGate k { s.gate k with entry := if (s.gate k).entry + 1 < (s.gate k).entries.length then (s.gate k).entry + 1 else 0 },
      ?_, State.gate_setGate_same _ _ _, fun n hn => State.gate_setGate_other _ _ hn, State.setGate_regs _ _ _, State.setGate_mem _ _ _⟩
    exact (congrArg (fun k => Host.Outcome.next (s.gateStep k)) (Nat.mod_eq_of_lt hk)).trans (congrArg Host.Outcome.next (if_pos hoper))

end Sys2Proof.Machine

/-! PROOFS. Decode jobs (05_decoding.md: R182 to R213): stream contexts, quays, and the effect of each job whose checks pass. -/

namespace Sys2Proof.Machine

namespace State

/-! ### Stream contexts as held on the die (R182, R183) -/

theorem leBytes_length (n v : Nat) : (leBytes n v).length = n := by
  induction n generalizing v with
  | zero => rfl
  | succ n ih => rw [leBytes, List.length_cons, ih]

/-- Storing a list of bytes from place `a + k` of a map on. -/
theorem get_foldl_set (bs : List Nat) (a k x : Nat) (m : SMap Nat) :
    SMap.get (fun _ => 0) ((bs.zipIdx k).foldl (fun m p => SMap.set (fun _ => 0) m (a + p.2) p.1) m) x
      = if a + k ≤ x ∧ x < a + k + bs.length then bs.getD (x - (a + k)) 0 else SMap.get (fun _ => 0) m x := by
  induction bs generalizing k m with
  | nil => rw [if_neg (by rintro ⟨h, h'⟩; exact absurd (Nat.lt_of_le_of_lt h h') (lt_irrefl _))]; rfl
  | cons b bs ih =>
    rw [List.zipIdx_cons, List.foldl_cons, ih, SMap.get_set, List.length_cons]
    by_cases hx : x = a + k
    · rw [if_neg (by omega), if_pos hx, if_pos (by omega), hx, Nat.sub_self]
      rfl
    · rw [if_neg hx]
      by_cases hin : a + (k + 1) ≤ x ∧ x < a + (k + 1) + bs.length
      · rw [if_pos hin, if_pos (by omega), show x - (a + k) = x - (a + (k + 1)) + 1 by omega]
        rfl
      · rw [if_neg hin, if_neg (by omega)]

theorem ctxHeld_holdCtx (c off o : Nat) (bs : List Nat) (s : State) :
    (s.holdCtx c off bs).ctxHeld c o = if off ≤ o ∧ o < off + bs.length then bs.getD (o - off) 0 else s.ctxHeld c o := by
  refine (get_foldl_set bs (256 * c + off) 0 (256 * c + o) s.ctxDie).trans ?_
  by_cases h : off ≤ o ∧ o < off + bs.length
  · rw [if_pos (by omega), if_pos h, show 256 * c + o - (256 * c + off + 0) = o - off by omega]
  · rw [if_neg (by omega), if_neg h]
    rfl

theorem ctxHeld_congr {s t : State} (h : t.ctxDie = s.ctxDie) (c o : Nat) : t.ctxHeld c o = s.ctxHeld c o := by
  rw [State.ctxHeld, State.ctxHeld, h]

theorem ctxHeld_setSf (c off n v o : Nat) (s : State) :
    (s.setSf c off n v).ctxHeld c o = if off ≤ o ∧ o < off + n then (leBytes n v).getD (o - off) 0 else s.ctxHeld c o := by
  rw [State.setSf, ctxHeld_holdCtx, leBytes_length, ctxHeld_congr (State.wrM_ctxDie _ _ _ s)]

theorem ctxHeld_setSf_other {c off n o : Nat} (v : Nat) (s : State) (h : o < off ∨ off + n ≤ o) :
    (s.setSf c off n v).ctxHeld c o = s.ctxHeld c o := by
  rw [ctxHeld_setSf, if_neg (by omega)]

theorem setSf_decs (c off n v : Nat) (s : State) : (s.setSf c off n v).decs = s.decs := rfl

theorem ctxState_eq_held (s : State) (c : Nat) : s.ctxState c = s.ctxHeld c 3 % 256 := by
  have hbyte : s.ctxByte c 3 = s.ctxHeld c 3 := if_pos (.inl rfl)
  simp [State.ctxState, State.sf, hbyte, leNat]

/-- A byte of a running stream's context is the one held. -/
theorem ctxByte_held {s : State} {c : Nat} (o : Nat) (h : s.ctxHeld c 3 ≠ 0) : s.ctxByte c o = s.ctxHeld c o :=
  if_pos (.inr (.inr h))

theorem ctxHeld_setCtxState (c v : Nat) (s : State) : (s.setCtxState c v).ctxHeld c 3 = v % 256 := by
  rw [State.setCtxState, ctxHeld_setSf, if_pos (by omega)]
  rfl

/-! ### What jobs on a stream context leave as it was -/

/-- `t` is `s` but for memory, stream contexts, decode streams, counts and output. -/
def Streamed (s t : State) : Prop :=
  t = { s with mem := t.mem, ctxDie := t.ctxDie, decs := t.decs, counts := t.counts, out := t.out }

namespace Streamed

theorem refl (s : State) : s.Streamed s := rfl

theorem trans {s t u : State} (h : s.Streamed t) (k : t.Streamed u) : s.Streamed u := by
  unfold Streamed at h k ⊢
  rw [h] at k
  exact k

variable {s t : State}

theorem setSf (c off n v : Nat) (h : s.Streamed t) : s.Streamed (t.setSf c off n v) := h.trans rfl
theorem readCtx (c : Nat) (h : s.Streamed t) : s.Streamed (t.readCtx c) := h.trans rfl
theorem setDec (c : Nat) (x : DecSt) (h : s.Streamed t) : s.Streamed (t.setDec c x) := h.trans rfl
theorem bump (o n : Nat) (h : s.Streamed t) : s.Streamed (t.bump o n) := h.trans rfl
theorem emit (o : Out) (h : s.Streamed t) : s.Streamed (t.emit o) := h.trans rfl

theorem each {α : Type} {f : α → State → State} (hf : ∀ a, ∀ s : State, s.Streamed (f a s)) (l : List α) (h : s.Streamed t) :
    s.Streamed (t.each l f) := h.trans (each_rel refl trans hf l t)

theorem clearRefs (c off n : Nat) (h : s.Streamed t) : s.Streamed (t.clearRefs c off n) :=
  h.each (fun _ v => (refl v).setSf _ _ _ _) _

theorem whenB {f : State → State} (c : Bool) (hf : ∀ s : State, s.Streamed (f s)) (h : s.Streamed t) : s.Streamed (t.whenB c f) := by
  cases c with
  | false => exact h
  | true => exact h.trans (hf t)

theorem askRefresh (c : Nat) (h : s.Streamed t) : s.Streamed (t.askRefresh c) := by
  unfold State.askRefresh
  split
  · exact (((h.each (fun _ v => (refl v).emit _) _).bump _ _).setSf _ _ _ _).setDec _ _
  · exact h

theorem await (c held : Nat) (h : s.Streamed t) : s.Streamed (t.await c held) :=
  ((((h.whenB _ fun v => (refl v).setSf _ _ _ _).setSf _ _ _ _).setSf _ _ _ _).setDec _ _).askRefresh c

theorem regs_eq (h : s.Streamed t) : t.regs = s.regs := by rw [h]
theorem units_eq (h : s.Streamed t) : t.units = s.units := by rw [h]

end Streamed

/-! ### Groups (R54 to R56) -/

theorem walk_congr {s t : State} (h : t.regs = s.regs) (n : Nat) (l seen : List Nat) : t.walk n l seen = s.walk n l seen := by
  have hm (g : Nat) : t.members g = s.members g := by
    simp only [State.members, State.fld, State.rd_congr h]
  induction n generalizing l seen with
  | zero => rfl
  | succ n ih =>
    cases l with
    | nil => rfl
    | cons u todo => rw [State.walk, State.walk, ih, ih, hm]

/-- The units of a group are named by registers alone. -/
theorem leafList_congr {s t : State} (h : t.regs = s.regs) (u : Nat) : t.leafList u = s.leafList u := by
  rw [State.leafList, State.leafList, State.unitsIn, State.unitsIn, walk_congr h]

/-! ### Recovery (R204, R211) -/

theorem dec_congr {s t : State} (h : t.decs = s.decs) (c : Nat) : t.dec c = s.dec c := by
  rw [State.dec, State.dec, h]

theorem askRefresh_held {c o : Nat} (s : State) (h : o < 124 ∨ 128 ≤ o) : (s.askRefresh c).ctxHeld c o = s.ctxHeld c o := by
  unfold State.askRefresh
  split
  · dsimp only
    rw [ctxHeld_congr (State.setDec_ctxDie _ _ _), State.incSf, ctxHeld_setSf_other _ _ (by omega), ctxHeld_congr (State.bump_ctxDie _ _ _)]
    exact State.each_keeps (fun v : State => v.ctxHeld c o) _ s fun p _ v => ctxHeld_congr (State.emit_ctxDie _ v) c o
  · rfl

theorem askRefresh_dec (c : Nat) (s : State) :
    ((s.askRefresh c).dec c).joined = (s.dec c).joined ∧ ((s.askRefresh c).dec c).since = (s.dec c).since := by
  unfold State.askRefresh
  split
  · extract_lets m s1
    have hdec : s1.dec c = s.dec c := dec_congr (State.each_keeps (·.decs) _ s fun p _ v => State.emit_decs _ v) c
    rw [State.dec_setDec_same]
    change (s1.dec c).joined = _ ∧ (s1.dec c).since = _
    rw [hdec]
    exact ⟨rfl, rfl⟩
  · exact ⟨rfl, rfl⟩

/-- Entering AWAITING_RECOVERY: the context's STATE, and what stays of the stream. -/
theorem await_effect (c held : Nat) (s : State) :
    (s.ctxState c ≠ 3 → s.ctxState c ≠ 4 → (s.await c held).ctxState c = 1) ∧
    (∀ o, 128 ≤ o → (s.await c held).ctxHeld c o = s.ctxHeld c o) ∧
    ((s.await c held).dec c).joined = (s.dec c).joined ∧ ((s.await c held).dec c).since = (s.dec c).since := by
  unfold State.await
  extract_lets s1 s2
  have h1 (o : Nat) (h : o ≠ 3) : s1.ctxHeld c o = s.ctxHeld c o := by
    unfold s1
    cases (s.ctxState c != 3 && s.ctxState c != 4) with
    | false => rfl
    | true => exact ctxHeld_setSf_other 1 s (by omega)
  have h2 (o : Nat) (h : o < 79 ∨ 128 ≤ o) : s2.ctxHeld c o = s1.ctxHeld c o := by
    unfold s2
    rw [ctxHeld_setSf_other _ _ (by omega), ctxHeld_setSf_other _ _ (by omega)]
  have hdec : s2.dec c = s.dec c := by
    have hdecs : s1.decs = s.decs := by
      unfold s1
      cases (s.ctxState c != 3 && s.ctxState c != 4) with
      | false => rfl
      | true => exact setSf_decs c 3 1 1 s
    exact dec_congr ((setSf_decs _ _ _ _ _).trans ((setSf_decs _ _ _ _ _).trans hdecs)) c
  have hset {x : DecSt} (o : Nat) (h : o < 79 ∨ 128 ≤ o) : ((s2.setDec c x).askRefresh c).ctxHeld c o = s1.ctxHeld c o := by
    rw [askRefresh_held _ (by omega), ctxHeld_congr (State.setDec_ctxDie _ _ _), h2 o h]
  refine ⟨fun h3 h4 => ?_, fun o ho => ?_, ?_⟩
  · have hrun : s1 = s.setCtxState c 1 := if_pos (by simp [h3, h4])
    rw [ctxState_eq_held, hset 3 (by omega), hrun, ctxHeld_setCtxState]
  · rw [hset o (by omega), h1 o (by omega)]
  · obtain ⟨hj, hs⟩ := askRefresh_dec c (s2.setDec c { s2.dec c with points := [], sweepBegun := none })
    rw [hj, hs, State.dec_setDec_same, hdec]
    exact ⟨rfl, rfl⟩

/-! ### START and FLUSH (R187, R204) -/

theorem leBytes_zero (n : Nat) : leBytes n 0 = List.replicate n 0 := by
  induction n with
  | zero => rfl
  | succ n ih => rw [leBytes, Nat.zero_mod, Nat.zero_div, ih, List.replicate_succ]

theorem ctxHeld_clearRefs (c off n o : Nat) (s : State) :
    (s.clearRefs c off n).ctxHeld c o = if off ≤ o ∧ o < off + 8 * n then 0 else s.ctxHeld c o := by
  unfold State.clearRefs
  induction n with
  | zero => rw [if_neg (by omega)]; rfl
  | succ n ih =>
    rw [List.range_succ, State.each, List.foldl_append]
    change (State.setSf c (off + 8 * n) 8 0 _).ctxHeld c o = _
    rw [ctxHeld_setSf, leBytes_zero]
    by_cases h : off + 8 * n ≤ o ∧ o < off + 8 * n + 8
    · rw [if_pos h, if_pos (by omega)]
      exact List.getD_replicate _ (by omega)
    · rw [if_neg h]
      refine ih.trans ?_
      by_cases h' : off ≤ o ∧ o < off + 8 * n
      · rw [if_pos h', if_pos (by omega)]
      · rw [if_neg h', if_neg (by omega)]

theorem leNat_eq_zero {l : List Nat} (h : ∀ x ∈ l, x = 0) : leNat l = 0 := by
  induction l with
  | nil => rfl
  | cons b bs ih => rw [leNat, h b (List.mem_cons_self ..), ih fun x hx => h x (List.mem_cons_of_mem _ hx)]

/-- A field of a running context whose bytes are held as 0 reads 0. -/
theorem sf_eq_zero {s : State} {c off n : Nat} (h3 : s.ctxHeld c 3 ≠ 0) (h : ∀ o, off ≤ o → o < off + n → s.ctxHeld c o = 0) :
    s.sf c off n = 0 := by
  refine leNat_eq_zero fun x hx => ?_
  obtain ⟨i, hi, rfl⟩ := List.mem_map.1 hx
  have hlt := List.mem_range.1 hi
  rw [ctxByte_held _ h3, h _ (by omega) (by omega)]

theorem ctxHeld_readCtx_state (c : Nat) (s : State) : (s.readCtx c).ctxHeld c 3 = s.ctxHeld c 3 := by
  have hown : 64 ≤ s.ctxOwn c := by
    unfold State.ctxOwn
    split <;> omega
  unfold State.readCtx
  rw [ctxHeld_holdCtx, List.length_map, List.length_range, if_pos (by omega), Nat.sub_zero,
    List.getD_eq_getElem _ _ (by simp; omega), List.getElem_map, List.getElem_range, if_pos rfl]

theorem ctxState_of_decStartCode {c : Nat} {s : State} (h : s.decStartCode c = 0) : s.ctxState c = 0 := by
  by_contra hs
  unfold State.decStartCode at h
  by_cases h1 : s.sf c 0 2 ≠ c ∨ s.ctxKind c ≠ 1
  · rw [if_pos h1] at h
    exact one_ne_zero h
  · rw [if_neg h1, if_pos hs] at h
    exact two_ne_zero h

/-- START of a decode context that passes its checks: it awaits recovery with empty references. -/
theorem decStart_runs {u : Nat} {j : Job} {s : State} (h : s.decStartCode j.ctx = 0) :
    ∃ t : State, s.decStart u j = (t.each (s.leafList u) State.spadNeed).endJob u 0 ∧ t.ctxState j.ctx = 1
      ∧ (∀ i, i < 16 → t.refEntry j.ctx 128 i = 0) ∧ (t.dec j.ctx).since = s.tideNum := by
  have hstop := ctxState_of_decStartCode h
  unfold State.decStart
  extract_lets code src s1 s2
  rw [if_neg (not_not_intro h)]
  obtain ⟨x, hx, hs1⟩ : ∃ x : DecSt, x.since = s.tideNum ∧ s1 = ((s.readCtx j.ctx).clearRefs j.ctx 128 16).setDec j.ctx x :=
    ⟨_, rfl, rfl⟩
  have hstreamed : s.Streamed s2 := by
    unfold s2
    rw [hs1]
    exact ((((Streamed.refl s).readCtx _).clearRefs _ _ _).setDec _ _).setSf _ _ _ _
  have hheld (o : Nat) (ho : o < 64 ∨ 128 ≤ o) :
      s2.ctxHeld j.ctx o = if 128 ≤ o ∧ o < 128 + 8 * 16 then 0 else (s.readCtx j.ctx).ctxHeld j.ctx o := by
    unfold s2
    rw [ctxHeld_setSf_other _ _ (by omega), hs1, ctxHeld_congr (State.setDec_ctxDie _ _ _), ctxHeld_clearRefs]
  have hstate : s2.ctxState j.ctx = 0 := by
    rw [ctxState_eq_held, hheld 3 (by omega), if_neg (by omega), ctxHeld_readCtx_state, ← ctxState_eq_held, hstop]
  have hdec : s2.dec j.ctx = x := by
    unfold s2
    rw [hs1]
    rw [dec_congr (setSf_decs _ _ _ _ _), State.dec_setDec_same]
  clear_value s2
  obtain ⟨hawait, hkeep, -, hsince⟩ := await_effect j.ctx 255 s2
  have hrun := hawait (by omega) (by omega)
  have h3 : (s2.await j.ctx 255).ctxHeld j.ctx 3 ≠ 0 := by
    rw [ctxState_eq_held] at hrun
    omega
  refine ⟨s2.await j.ctx 255, by rw [leafList_congr hstreamed.regs_eq], hrun, fun i hi => sf_eq_zero h3 fun o ho ho' => ?_, ?_⟩
  · rw [hkeep o (by omega), hheld o (by omega), if_pos (by omega)]
  · rw [hsince, hdec, hx]

/-- FLUSH: the references are retired and the stream awaits recovery. -/
theorem flushJob_runs (u : Nat) (j : Job) (s : State) :
    ∃ t : State, s.flushJob u j = t.endJob u 0 ∧ (t.dec j.ctx).joined = false
      ∧ (s.ctxState j.ctx ≠ 3 → s.ctxState j.ctx ≠ 4 → t.ctxState j.ctx = 1) := by
  unfold State.flushJob
  extract_lets s1 src s2
  have hheld : s2.ctxState j.ctx = s.ctxState j.ctx := by
    unfold s2 s1 State.retireRefs
    rw [ctxState_eq_held, ctxState_eq_held, ctxHeld_congr (State.setDec_ctxDie _ _ _), ctxHeld_congr (State.setDec_ctxDie _ _ _),
      ctxHeld_clearRefs, if_neg (by omega)]
  have hdec : (s2.dec j.ctx).joined = false := by
    unfold s2
    rw [State.dec_setDec_same]
  clear_value s2
  obtain ⟨hawait, -, hjoined, -⟩ := await_effect j.ctx 255 s2
  exact ⟨s2.await j.ctx 255, rfl, hjoined.trans hdec, fun h3 h4 => hawait (by omega) (by omega)⟩

/-! ### READ_STATUS (R185, R220) -/

/-- A write of device memory that is let through stores its bytes. -/
theorem writeMem_device {agent a : Nat} {bs : List Nat} {s : State} (hmem : s.isMem a = true)
    (hcan : s.canWrite agent a bs.length = .ok) :
    ∃ v : State, s.writeMem agent a bs = (.ok, v) ∧ v.mem = Memory.put s.mem a bs := by
  unfold State.writeMem
  rw [hcan, isOut_of_isMem _ hmem]
  dsimp only
  rw [if_neg (by simp)]
  obtain ⟨v, hv⟩ : ∃ v : State, v = (s.wakePorts a bs.length).eccWrite agent a bs.length := ⟨_, rfl⟩
  have hmem' : v.mem = s.mem := hv ▸ (((Handled.refl s).wakePorts _ _).eccWrite _ _ _).mem_eq
  rw [← hv]
  refine ⟨_, rfl, ?_⟩
  rw [(Handled.each (fun l w => (Handled.refl w).unpoison l) _ (Handled.refl (v.putM a bs))).mem_eq, State.putM, hmem']

/-- A status job leaves the bytes of the context at its destination. -/
theorem readStatus_runs {u off : Nat} {dec : Bool} {j : Job} {s : State} (hmem : s.isMem (j.s0 % two40) = true)
    (hcan : s.canWrite u (j.s0 % two40) 64 = .ok) :
    ∃ v : State, (s.writeMem u (j.s0 % two40) ((List.range 64).map (fun i => s.ctxByte j.ctx (off + i)))).2 = v ∧
      s.readStatus u off dec j = (if dec then v.setSf j.ctx 77 1 0 else v).endJob u 0 ∧
      ∀ i, i < 64 → Memory.read v.mem (j.s0 % two40 + i) = s.ctxByte j.ctx (off + i) % 256 := by
  have hlen : ((List.range 64).map (fun i => s.ctxByte j.ctx (off + i))).length = 64 := by
    rw [List.length_map, List.length_range]
  obtain ⟨v, hv, hput⟩ := writeMem_device (bs := (List.range 64).map (fun i => s.ctxByte j.ctx (off + i))) hmem (by rw [hlen, hcan])
  refine ⟨v, by rw [hv], ?_, fun i hi => ?_⟩
  · unfold State.readStatus
    dsimp only
    rw [hv]
  · rw [hput, Memory.read_put, hlen, if_pos (by omega), Nat.add_sub_cancel_left, List.getD_eq_getElem _ _ (by omega), List.getElem_map,
      List.getElem_range]

/-! ### Quays (R69 to R76, R192) -/

/-- `t` is `s` but for registers and quays. -/
def Quayed (s t : State) : Prop := t = { s with regs := t.regs, quays := t.quays }

theorem quayShow_onlyRegs (t : Nat) (s : State) : s.OnlyRegs (s.quayShow t) :=
  OnlyRegs.each (fun _ v => (OnlyRegs.refl v).wr _ _) _ s

theorem quayPut_quayed (t : Nat) (x : QuayPic) (s : State) : s.Quayed (s.quayPut t x) := by
  unfold State.quayPut
  have h := quayShow_onlyRegs t (s.setQuay t ((s.quay t).map (fun p => if p.ctx = x.ctx ∧ p.seq = x.seq then x else p)))
  rw [h]
  rfl

namespace Quayed

variable {s t : State}

theorem trans {v : State} (h : s.Quayed t) (k : t.Quayed v) : s.Quayed v := by
  unfold Quayed at h k ⊢
  rw [h] at k
  exact k

theorem mem_eq (h : s.Quayed t) : t.mem = s.mem := by rw [h]
theorem units_eq (h : s.Quayed t) : t.units = s.units := by rw [h]
theorem decs_eq (h : s.Quayed t) : t.decs = s.decs := by rw [h]
theorem encs_eq (h : s.Quayed t) : t.encs = s.encs := by rw [h]
theorem ctxDie_eq (h : s.Quayed t) : t.ctxDie = s.ctxDie := by rw [h]

end Quayed

theorem jobAt_congr {s t : State} (h : t.units = s.units) (u op : Nat) : t.jobAt u op = s.jobAt u op := by
  unfold State.jobAt State.eng State.unit
  rw [h]

/-- A change of the quays shows in registers of units alone. -/
theorem rd_quayPut_low {o : Nat} (t : Nat) (x : QuayPic) (s : State) (h : o < 0x4000000) : (s.quayPut t x).rd o = s.rd o := by
  unfold State.quayPut State.quayShow
  refine (State.each_keeps (·.rd o) _ _ fun p _ v => State.rd_wr_other _ _ ?_).trans (State.rd_congr rfl o)
  unfold ucb
  omega

theorem sctx_quayPut (t : Nat) (x : QuayPic) (s : State) (c : Nat) : (s.quayPut t x).sctx c = s.sctx c := by
  simp only [State.sctx, State.rd40]
  rw [rd_quayPut_low _ _ _ (by decide), rd_quayPut_low _ _ _ (by decide)]

/-- A field of a stream context depends on what is held of it, on memory, and on where it stands. -/
theorem sf_congr {s t : State} {c : Nat} (hdie : t.ctxDie = s.ctxDie) (hmem : t.mem = s.mem) (hctx : t.sctx c = s.sctx c) (off n : Nat) :
    t.sf c off n = s.sf c off n := by
  have hbyte (o : Nat) : t.ctxByte c o = s.ctxByte c o := by
    unfold State.ctxByte State.ctxOwn State.ctxKind State.ctxHeld
    rw [hdie, hmem, hctx]
  simp only [State.sf, hbyte]

theorem codec_quayPut (t : Nat) (x : QuayPic) (s : State) (c : Nat) : (s.quayPut t x).codec c = s.codec c := by
  have h := s.quayPut_quayed t x
  rw [State.codec, State.codec, State.ctxFormat, State.ctxFormat, sf_congr h.ctxDie_eq h.mem_eq (sctx_quayPut _ _ _ _)]

theorem quay_quayPut (t : Nat) (x : QuayPic) (s : State) :
    (s.quayPut t x).quay t = (s.quay t).map (fun p => if p.ctx = x.ctx ∧ p.seq = x.seq then x else p) := by
  have h : (s.quayPut t x).quays = (s.setQuay t ((s.quay t).map (fun p => if p.ctx = x.ctx ∧ p.seq = x.seq then x else p))).quays := by
    unfold State.quayPut
    rw [quayShow_onlyRegs]
  rw [State.quay, h]
  exact SMap.get_set_same _ _ _ _

/-- The picture found in a quay is that of the context and sequence field. -/
theorem quayFind_names {s : State} {t c q : Nat} {x : QuayPic} (h : s.quayFind t c q = some x) : x.ctx = c ∧ x.seq = q := by
  have hp := List.find?_some h
  simpa using hp

/-- A picture put back into its quay is found there. -/
theorem quayFind_quayPut {s : State} {t c q : Nat} {x y : QuayPic} (h : s.quayFind t c q = some x) (hctx : y.ctx = c) (hseq : y.seq = q) :
    (s.quayPut t y).quayFind t c q = some y := by
  unfold State.quayFind at h ⊢
  rw [quay_quayPut]
  generalize s.quay t = l at h
  induction l with
  | nil => exact absurd h (by simp)
  | cons p l ih =>
    rw [List.map_cons, List.find?_cons]
    by_cases hp : p.ctx = c ∧ p.seq = q
    · obtain ⟨h1, h2⟩ := hp
      rw [if_pos ⟨by rw [h1, hctx], by rw [h2, hseq]⟩]
      simp [hctx, hseq]
    · have hno : (decide (p.ctx = c) && decide (p.seq = q)) = false := by simpa using hp
      rw [if_neg (by rwa [hctx, hseq]), hno]
      rw [List.find?_cons, hno] at h
      exact ih h

/-! ### ENTROPY_DECODE and RECONSTRUCT (R193, R195, R205) -/

/-- The producer's writing leaves a picture's names and what was found of it. -/
theorem quayFill_names (s : State) (t : Nat) (x : QuayPic) :
    (s.quayFill t x).ctx = x.ctx ∧ (s.quayFill t x).seq = x.seq ∧ (s.quayFill t x).found = x.found := by
  unfold State.quayFill
  dsimp only
  split
  · exact ⟨rfl, rfl, rfl⟩
  · exact ⟨rfl, rfl, rfl⟩

/-- A picture with all its entries written stands as it is. -/
theorem quayFill_complete {x : QuayPic} (t : Nat) (s : State) (hruns : x.runs = []) (heop : x.eop ≠ 0) : s.quayFill t x = x := by
  obtain ⟨ctx, seq, runs, eop, eopLeaf, found, pic⟩ := x
  subst hruns
  unfold State.quayFill
  simp [fillRuns, heop]

theorem orphans_quayPut (t : Nat) (y : QuayPic) (s : State) (c : Nat) : ((s.quayPut t y).dec c).orphans = (s.dec c).orphans :=
  congrArg DecSt.orphans (dec_congr (s.quayPut_quayed t y).decs_eq c)

/-- An ENTROPY_DECODE whose end-of-picture entry is written completes. -/
theorem entropyDecode_completes {u : Nat} {j : Job} {s : State} {x : QuayPic} (o : CodedPic) (hat : s.jobAt u 0x0101 = some j)
    (hx : s.quayFind u j.ctx j.seq = some x) (heop : (s.quayFill u x).eop = 1) (horph : (s.dec j.ctx).orphans.contains j.seq = false) :
    s.entropyDecode o u j = (((s.quayPut u (s.quayFill u x)).giveBack u (j.s0 % two40)).setJob u { j with b1 := x.found.reason }).endJob u
      (if x.found.reason ≠ 0 then 3 else 0) := by
  obtain ⟨hctx, hseq⟩ := quayFind_names hx
  obtain ⟨hfctx, hfseq, hffound⟩ := s.quayFill_names u x
  obtain ⟨v, hv⟩ : ∃ v : State, v = s.quayPut u (s.quayFill u x) := ⟨_, rfl⟩
  have hquayed := s.quayPut_quayed u (s.quayFill u x)
  have hvat : v.jobAt u 0x0101 = some j := by rw [hv, jobAt_congr hquayed.units_eq, hat]
  have hvorph : (v.dec j.ctx).orphans.contains j.seq = false := by rw [hv, orphans_quayPut, horph]
  have hwrite : s.tallyWrite u j.ctx j.seq = v.tallyDone u (s.quayFill u x) := by
    unfold State.tallyWrite
    rw [hx]
    dsimp only
    rw [if_pos heop, hv]
  have hdone : v.tallyDone u (s.quayFill u x) = ((v.giveBack u (j.s0 % two40)).setJob u { j with b1 := x.found.reason }).endJob u
      (if x.found.reason ≠ 0 then 3 else 0) := by
    unfold State.tallyDone
    rw [hvat]
    dsimp only
    rw [if_pos ⟨hctx.symm.trans hfctx.symm, hseq.symm.trans hfseq.symm⟩, hvorph, hffound]
    rfl
  unfold State.entropyDecode
  rw [hx]
  dsimp only
  rw [hwrite, hdone, hv]

section Reconstruct

variable {u : Nat} {j : Job} {s : State} {x : QuayPic} {p : CodedPic}
  (hx : s.quayFind (s.tlBerth j.ctx) j.ctx j.seq = some x) (hruns : x.runs = []) (heop : x.eop = 1)

include hx hruns heop

/-- One turn of a picture whose regions are all committed, with no tally at work on it. -/
theorem quayTurn_complete (hidle : s.jobAt (s.tlBerth j.ctx) 0x0101 = none) :
    s.quayTurn (s.tlBerth j.ctx) j.ctx j.seq = ((s.quayPut (s.tlBerth j.ctx) x).quayPut (s.tlBerth j.ctx) x, false) := by
  generalize s.tlBerth j.ctx = t at hx hidle
  obtain ⟨hctx, hseq⟩ := quayFind_names hx
  have hwrite : s.tallyWrite t j.ctx j.seq = s.quayPut t x := by
    unfold State.tallyWrite
    rw [hx]
    dsimp only
    rw [quayFill_complete t s hruns (by omega), if_pos heop]
    unfold State.tallyDone
    rw [jobAt_congr (s.quayPut_quayed t x).units_eq, hidle]
  unfold State.quayTurn
  dsimp only
  rw [hwrite, quayFind_quayPut hx hctx hseq]
  obtain ⟨ctx, seq, runs, eop, eopLeaf, found, pic⟩ := x
  subst hruns
  rfl

/-- RECONSTRUCT of such a picture finishes it. -/
theorem reconstruct_finishes (out : PicOut) (hpic : x.pic = some p) (hidle : s.jobAt (s.tlBerth j.ctx) 0x0101 = none) :
    s.reconstruct out u j = ((s.quayPut (s.tlBerth j.ctx) x).quayPut (s.tlBerth j.ctx) x).finishPic p out x false u j := by
  obtain ⟨hctx, hseq⟩ := quayFind_names hx
  have hrun : s.quayRun (s.tlBerth j.ctx) j.ctx j.seq (x.runs.length + 1)
      = (s.quayPut (s.tlBerth j.ctx) x).quayPut (s.tlBerth j.ctx) x := by
    rw [hruns, List.length_nil, State.quayRun, quayTurn_complete hx hruns heop hidle]
    rfl
  unfold State.reconstruct
  dsimp only
  rw [hx]
  dsimp only
  rw [hrun, quayFind_quayPut (quayFind_quayPut hx hctx hseq) hctx hseq]
  dsimp only
  rw [hpic]
  exact if_pos ⟨heop, by rw [hruns]; rfl⟩

end Reconstruct

/-- A picture before the join point is discarded. -/
theorem finishPic_discards {u : Nat} {j : Job} {v : State} {p : CodedPic} (o : PicOut) (x : QuayPic) (hjoined : (v.dec j.ctx).joined = false)
    (hjoin : joinPoint (v.codec j.ctx) p = false) : v.finishPic p o x false u j = v.discardPic u j 0 := by
  unfold State.finishPic
  dsimp only
  rw [if_pos (by simp [hjoined, hjoin])]
  rfl

end State

/-- Settles O35: each decode job whose checks pass, by what its effect does. -/
theorem decodeJobsRun : Obligations.DecodeJobsRun := by
  intro s u j
  refine ⟨fun hready => ⟨fun hnone hhigh o => ?_, fun hnone hlow o => ?_, fun o x hx heop horph => ?_⟩,
    fun hready o => ⟨fun hnone => ?_, fun x p hx hruns heop hpic hidle => ?_⟩, fun hready hcode => ?_, fun hready => ?_,
    fun hready hmem _ hcan => ?_, fun hready => ?_⟩
  · refine congrArg Host.Outcome.next ((State.runJob_ready _ hready).trans ?_)
    simp only [State.entropyDecode, hnone, hhigh, if_true]
  · refine congrArg Host.Outcome.next ((State.runJob_ready _ hready).trans ?_)
    simp only [State.entropyDecode, hnone, hlow, Bool.false_eq_true, if_false]
  · have hat : s.jobAt u 0x0101 = some j := hready.1
    exact congrArg Host.Outcome.next ((State.runJob_ready _ hready).trans (State.entropyDecode_completes o hat hx heop horph))
  · refine congrArg Host.Outcome.next ((State.runJob_ready _ hready).trans ?_)
    simp only [State.reconstruct, hnone]
  · have h1 := s.quayPut_quayed (s.tlBerth j.ctx) x
    have hquayed := h1.trans ((s.quayPut (s.tlBerth j.ctx) x).quayPut_quayed (s.tlBerth j.ctx) x)
    have hrun : exec (.reconstruct u o) s
        = .next (((s.quayPut (s.tlBerth j.ctx) x).quayPut (s.tlBerth j.ctx) x).finishPic p o x false u j) :=
      congrArg Host.Outcome.next ((State.runJob_ready _ hready).trans (State.reconstruct_finishes hx hruns heop o hpic hidle))
    refine ⟨_, rfl, hquayed.mem_eq, hquayed.units_eq, hrun, fun hjoined hjoin => hrun.trans (congrArg Host.Outcome.next ?_)⟩
    refine State.finishPic_discards o x ?_ ?_
    · rw [State.dec_congr hquayed.decs_eq, hjoined]
    · rw [State.codec_quayPut, State.codec_quayPut, hjoin]
  · obtain ⟨t, hrun, heffect⟩ := State.decStart_runs (u := u) hcode
    exact ⟨t, congrArg Host.Outcome.next ((State.runJob_ready _ hready).trans hrun), heffect⟩
  · exact congrArg Host.Outcome.next (State.runJob_ready _ hready)
  · obtain ⟨v, hv, hrun, hread⟩ := State.readStatus_runs (off := 64) (dec := true) hmem hcan
    exact ⟨v, _, hv.symm, congrArg Host.Outcome.next ((State.runJob_ready _ hready).trans hrun), rfl, hread⟩
  · obtain ⟨t, hrun, heffect⟩ := State.flushJob_runs u j s
    exact ⟨t, congrArg Host.Outcome.next ((State.runJob_ready _ hready).trans hrun), heffect⟩

end Sys2Proof.Machine

/-! PROOFS. Encode and pilot jobs (06_encoding.md: R219, R220, R252, R255 to R258; 07_rate_control.md: R275). -/

namespace Sys2Proof.Machine

/-! ### Bytes of memory as numbers (R7) -/

theorem Memory.read_lt (m : Memory) (a : Nat) : Memory.read m a < 256 := (SMap.get byte0 m a).isLt

theorem Memory.bytes_length (m : Memory) (a n : Nat) : (Memory.bytes m a n).length = n := by
  induction n generalizing a with
  | zero => rfl
  | succ n ih => rw [Memory.bytes, List.length_cons, ih]

theorem Memory.getD_bytes {n i : Nat} (m : Memory) (a d : Nat) (h : i < n) : (Memory.bytes m a n).getD i d = Memory.read m (a + i) := by
  induction n generalizing a i with
  | zero => omega
  | succ n ih =>
    cases i with
    | zero => rfl
    | succ i => rw [Memory.bytes, List.getD_cons_succ, ih _ (by omega), Nat.add_right_comm, Nat.add_assoc]

theorem Memory.leNat_bytes (m : Memory) (a n : Nat) : leNat (Memory.bytes m a n) = Memory.readN m a n := by
  induction n generalizing a with
  | zero => rfl
  | succ n ih => rw [Memory.bytes, leNat, ih, Memory.readN, Nat.mod_eq_of_lt (Memory.read_lt m a)]

theorem Memory.drop_bytes (m : Memory) (a k n : Nat) : (Memory.bytes m a (k + n)).drop k = Memory.bytes m (a + k) n := by
  induction k generalizing a with
  | zero => rw [Nat.zero_add, List.drop_zero, Nat.add_zero]
  | succ k ih => rw [show k + 1 + n = k + n + 1 by omega, Memory.bytes, List.drop_succ_cons, ih, Nat.add_assoc, Nat.add_comm 1 k]

theorem Memory.take_bytes (m : Memory) (a n k : Nat) : (Memory.bytes m a (n + k)).take n = Memory.bytes m a n := by
  induction n generalizing a with
  | zero => rfl
  | succ n ih => rw [show n + 1 + k = n + k + 1 by omega, Memory.bytes, List.take_succ_cons, ih, Memory.bytes]

namespace State

/-! ### A read that meets no bit error (R451, R456) -/

theorem wakePorts_memsys (a n : Nat) (s : State) : (s.wakePorts a n).memsys = s.memsys := by
  unfold State.wakePorts
  split
  · rfl
  · refine State.each_keeps (·.memsys) _ s fun l _ v => ?_
    dsimp only
    split
    · exact State.setPort_memsys _ _ v
    · rfl

/-- It answers the bytes of memory; a port asleep wakes, and memory and encode streams stay. -/
theorem readMem_answers {agent a n : Nat} {s : State} (hmem : s.isMem a = true) (hcan : s.canRead a n = .ok) (hflips : s.memsys.flips = []) :
    ∃ v : State, s.readMem agent a n = (.ok, Memory.bytes s.mem a n, v) ∧ v.mem = s.mem := by
  have hclean : (s.wakePorts a n).eccRead agent a n = (false, s.wakePorts a n) :=
    eccRead_clean agent a n (by rw [wakePorts_memsys, hflips])
  refine ⟨s.wakePorts a n, ?_, ((Handled.refl s).wakePorts a n).mem_eq⟩
  simp only [State.readMem, State.readAs, hcan, isOut_of_isMem n hmem, hclean, Bool.false_eq_true, and_false, if_false]

/-! ### ENCODE and ENTROPY_ENCODE (R220, R224, R257 to R259) -/

theorem runEnc_ready {u op : Nat} {j : Job} {s : State} (f : Job → State → State) (h : s.JobReady u op true j) : s.runEnc u op f = f j s := by
  have hrun := runJob_ready f h
  obtain ⟨hat, hstop, -⟩ := h
  simp only [State.runEnc, hat, hstop, hrun]

section Encode

variable {u : Nat} {j : Job} {s : State} (o : EncOut) (hpic : j.s0 ≠ 0) (horph : (s.enc j.ctx).orphans.contains j.seq = false)
  (hcur : (s.enc j.ctx).cur = none)

include hpic horph hcur

theorem encodePic_waits (hhigh : s.quayHigh (s.tlBerth j.ctx) = true) : s.encodePic o u j = s := by
  unfold State.encodePic
  dsimp only
  rw [if_neg hpic, horph, hcur, if_neg Bool.false_ne_true]
  exact if_pos hhigh

theorem encodePic_begins {v : State} {bs rc hs : Nat} {held : List Nat} (hlow : s.quayHigh (s.tlBerth j.ctx) = false)
    (hbufs : s.encBuffers u j = (some (bs, rc, hs, held), v)) :
    s.encodePic o u j = ((v.tagPicture true o.tags j).encBegin o u j bs rc hs).encWrite j.ctx j.seq := by
  unfold State.encodePic
  dsimp only
  rw [if_neg hpic, horph, hcur, if_neg Bool.false_ne_true]
  dsimp only
  rw [hlow, if_neg Bool.false_ne_true, hbufs]

end Encode

theorem enc_congr {s t : State} (h : t.encs = s.encs) (c : Nat) : t.enc c = s.enc c := by
  rw [State.enc, State.enc, h]

/-- The unit that holds the berth of a context's tally depends on the units and on the context. -/
theorem tlBerth_quayPut (t : Nat) (x : QuayPic) (s : State) (c : Nat) : (s.quayPut t x).tlBerth c = s.tlBerth c := by
  have h := s.quayPut_quayed t x
  unfold State.tlBerth State.holder State.unit
  rw [sf_congr h.ctxDie_eq h.mem_eq (sctx_quayPut _ _ _ _), h.units_eq]

section EntropyEncode

variable {u : Nat} {j : Job} {s : State} {p : EncPic} {x : QuayPic}
  (hcur : (s.enc j.ctx).cur = some p) (hdone : p.done = true) (htl : s.tlBerth j.ctx = u)
  (hx : s.quayFind u j.ctx j.seq = some x) (hruns : x.runs = []) (heop : x.eop = 2)

include hcur hdone htl hx hruns heop

/-- One turn of a picture whose regions are all committed and whose ENCODE has completed. -/
theorem encTurn_complete : s.encTurn j.ctx j.seq = ((s.quayPut u x).quayPut u x, false) := by
  obtain ⟨hctx, hseq⟩ := quayFind_names hx
  obtain ⟨ctx, seq, runs, eop, eopLeaf, found, pic⟩ := x
  subst hruns
  have heop' : eop ≠ 0 := by
    have h2 : eop = 2 := heop
    omega
  have hfill : s.quayFill u ⟨ctx, seq, [], eop, eopLeaf, found, pic⟩ = ⟨ctx, seq, [], eop, eopLeaf, found, pic⟩ :=
    quayFill_complete u s rfl heop'
  have hwrite : s.encWrite j.ctx j.seq = s.quayPut u ⟨ctx, seq, [], eop, eopLeaf, found, pic⟩ := by
    unfold State.encWrite
    simp only [htl, hx, hcur, List.take_nil, List.drop_nil, hfill, List.append_nil, List.zip_nil_left, List.filterMap_nil, each_nil, hdone, Bool.not_true, Bool.and_false,
      Bool.false_eq_true, if_false]
  unfold State.encTurn
  simp only [hwrite, tlBerth_quayPut, htl, quayFind_quayPut hx hctx hseq, List.filter_nil, List.any_nil]

/-- ENTROPY_ENCODE of such a picture sends it. -/
theorem entropyEncode_sends (d : List Nat) (hpseq : p.seq = j.seq) :
    s.entropyEncode d u j = ((s.quayPut u x).quayPut u x).encSent d u j p := by
  obtain ⟨hctx, hseq⟩ := quayFind_names hx
  have hquayed := (s.quayPut_quayed u x).trans ((s.quayPut u x).quayPut_quayed u x)
  have hrun : s.encRun j.ctx j.seq (x.runs.length + 1) = (s.quayPut u x).quayPut u x := by
    rw [State.encRun, encTurn_complete hcur hdone htl hx hruns heop]
    rfl
  unfold State.entropyEncode
  simp only [hcur, hpseq, ne_eq, not_true_eq_false, if_false, hx, hrun, enc_congr hquayed.encs_eq,
    quayFind_quayPut (quayFind_quayPut hx hctx hseq) hctx hseq]
  exact if_pos (by rw [hdone, hruns]; rfl)

end EntropyEncode

/-- A picture dropped before its ENTROPY_ENCODE ends that job with the status kept for it. -/
theorem entropyEncode_dropped {u q st : Nat} {j : Job} {s : State} (d : List Nat) (hcur : (s.enc j.ctx).cur = none)
    (hdrop : (s.enc j.ctx).dropped = some (q, st)) (hq : q = j.seq) : s.entropyEncode d u j = s.endJob u st := by
  simp only [State.entropyEncode, hcur, hdrop, hq, if_true]

/-! ### START (R219, R252) -/

/-- A state record stands in memory alone. -/
theorem setPf_frame (c off n v : Nat) (s : State) : (s.setPf c off n v).encs = s.encs := State.wrM_encs _ _ _ s

theorem initRecord_encs (c : Nat) (k : Option (Nat × Nat × Nat)) (s : State) : (s.initRecord c k).encs = s.encs := by
  unfold State.initRecord
  dsimp only
  rw [setPf_frame, setPf_frame, setPf_frame, setPf_frame, setPf_frame, setPf_frame, setPf_frame, setPf_frame, setPf_frame]

theorem attach_regs (c : Nat) (s : State) : (s.attach c).regs = s.regs := State.setBook_regs _ _ s

theorem setSf_regs (c off n v : Nat) (s : State) : (s.setSf c off n v).regs = s.regs := rfl

theorem readCtx_regs (c : Nat) (s : State) : (s.readCtx c).regs = s.regs := rfl

theorem clearRefs_regs (c off n : Nat) (s : State) : (s.clearRefs c off n).regs = s.regs :=
  ((Streamed.refl s).clearRefs c off n).regs_eq

/-- START of an encode context that passes its checks: the next picture is intra, no sweep is in progress, no request held. -/
theorem encStart_runs {u : Nat} {j : Job} {s : State} (h : s.encStartCode j.ctx = 0) :
    ∃ t : State, s.encStart u j = (t.each (s.leafList u) State.spadNeed).endJob u 0 ∧ t.enc j.ctx = EncSt.reset := by
  unfold State.encStart
  extract_lets c code x e s1 b s2 s3
  rw [if_neg (not_not_intro h)]
  have hregs : s3.regs = s.regs := by
    unfold s3 s2 s1 State.setCtxState
    rw [State.setEnc_regs, setSf_regs, clearRefs_regs, setSf_regs, State.setBook_regs, attach_regs, readCtx_regs]
  have henc : s3.enc c = EncSt.reset := State.enc_setEnc_same _ _ _
  exact ⟨_, by rw [leafList_congr hregs], (enc_congr (initRecord_encs _ _ _) c).trans henc⟩

/-! ### Pilot jobs (R275) -/

theorem modelRead_runs {u : Nat} {j : Job} {s : State} (hctx : s.pilotCtx u j = true) (hs0 : j.s0 ≠ 0)
    (hmem : s.isMem (j.s0 % two40) = true) (hcan : s.canWrite u (j.s0 % two40) 128 = .ok) :
    ∃ t : State, s.modelRead u j = t.endJob u 0
      ∧ ∀ i, i < 128 → Memory.read t.mem (j.s0 % two40 + i) = Memory.read s.mem (s.plRec j.ctx + i) := by
  obtain ⟨v, hv, hput⟩ := writeMem_device (agent := u) (bs := Memory.bytes s.mem (s.plRec j.ctx) 128) hmem (by
    rw [Memory.bytes_length, hcan])
  refine ⟨v, ?_, fun i hi => ?_⟩
  · unfold State.modelRead
    dsimp only
    rw [if_neg (by simp [hctx]), hv, if_pos ⟨rfl, hs0⟩]
  · rw [hput, Memory.read_put, Memory.bytes_length, if_pos (by omega), Nat.add_sub_cancel_left, Memory.getD_bytes _ _ _ hi,
      Nat.mod_eq_of_lt (Memory.read_lt _ _)]

/-- The three classes of a seed. -/
theorem seed_bytes (m : Memory) (a : Nat) :
    (leNat ((Memory.bytes m a 24).take 5), leNat (((Memory.bytes m a 24).drop 8).take 5), leNat (((Memory.bytes m a 24).drop 16).take 5))
      = (Memory.readN m a 5, Memory.readN m (a + 8) 5, Memory.readN m (a + 16) 5) := by
  rw [Memory.take_bytes m a 5 19, Memory.drop_bytes m a 8 16, Memory.take_bytes m (a + 8) 5 11, Memory.drop_bytes m a 16 8,
    Memory.take_bytes m (a + 16) 5 3, Memory.leNat_bytes, Memory.leNat_bytes, Memory.leNat_bytes]

theorem modelSeed_runs {u : Nat} {j : Job} {s : State} (hctx : s.pilotCtx u j = true) (hstop : s.ctxState j.ctx = 0) (hs0 : j.s0 ≠ 0)
    (hmem : s.isMem (j.s0 % two40) = true) (hcan : s.canRead (j.s0 % two40) 24 = .ok) (hflips : s.memsys.flips = []) :
    ∃ t : State, s.modelSeed u j = t.endJob u 0 ∧ t.mem = s.mem
      ∧ (t.enc j.ctx).seed = some (Memory.readN s.mem (j.s0 % two40) 5, Memory.readN s.mem (j.s0 % two40 + 8) 5,
          Memory.readN s.mem (j.s0 % two40 + 16) 5) := by
  obtain ⟨v, hv, hvmem⟩ := readMem_answers (agent := u) hmem hcan hflips
  obtain ⟨x, hx⟩ : ∃ x : EncSt, x = { v.enc j.ctx with seed := some (leNat ((Memory.bytes s.mem (j.s0 % two40) 24).take 5),
    leNat (((Memory.bytes s.mem (j.s0 % two40) 24).drop 8).take 5), leNat (((Memory.bytes s.mem (j.s0 % two40) 24).drop 16).take 5)) } :=
    ⟨_, rfl⟩
  refine ⟨v.setEnc j.ctx x, ?_, (State.setEnc_mem _ _ v).trans hvmem, ?_⟩
  · unfold State.modelSeed
    dsimp only
    rw [if_neg (by simp [hctx, hstop]), hv, if_pos ⟨rfl, hs0⟩, hx]
  · rw [State.enc_setEnc_same, hx, seed_bytes]

end State

/-- Settles O36: each encode or pilot job whose checks pass, by what its effect does. -/
theorem encodeAndPilotJobsRun : Obligations.EncodeAndPilotJobsRun := by
  intro s u j
  refine ⟨fun hready o => ⟨?_, fun hpic horph hcur hhigh => ?_, fun v bs rc hs held hpic horph hcur hlow hbufs => ?_⟩,
    fun hready d => ⟨fun q st hcur hdrop hq => ?_, fun p x hcur hseq hdone htl hx hruns heop => ?_⟩, fun hready hcode => ?_,
    fun hready => ?_, fun hready hmem _ hcan => ?_, fun hready => ?_, fun hready => ?_, fun hready hctx hs0 hmem _ hcan => ?_,
    fun hready hctx hstop hs0 hmem _ hcan hflips => ?_⟩
  · exact congrArg Host.Outcome.next (State.runEnc_ready _ hready)
  · exact congrArg Host.Outcome.next ((State.runEnc_ready _ hready).trans (State.encodePic_waits o hpic horph hcur hhigh))
  · exact congrArg Host.Outcome.next ((State.runEnc_ready _ hready).trans (State.encodePic_begins o hpic horph hcur hlow hbufs))
  · exact congrArg Host.Outcome.next ((State.runEnc_ready _ hready).trans (State.entropyEncode_dropped d hcur hdrop hq))
  · have hquayed := (s.quayPut_quayed u x).trans ((s.quayPut u x).quayPut_quayed u x)
    exact ⟨_, rfl, hquayed.mem_eq, hquayed.units_eq, congrArg Host.Outcome.next ((State.runEnc_ready _ hready).trans
      (State.entropyEncode_sends hcur hdone htl hx hruns heop d hseq))⟩
  · obtain ⟨t, hrun, henc⟩ := State.encStart_runs (u := u) hcode
    exact ⟨t, congrArg Host.Outcome.next ((State.runJob_ready _ hready).trans hrun), by rw [henc]; rfl, by rw [henc]; rfl, by rw [henc]; rfl⟩
  · exact congrArg Host.Outcome.next (State.runJob_ready _ hready)
  · obtain ⟨v, -, hrun, hread⟩ := State.readStatus_runs (off := 128) (dec := false) hmem hcan
    exact ⟨v, congrArg Host.Outcome.next ((State.runJob_ready _ hready).trans hrun), hread⟩
  · exact congrArg Host.Outcome.next (State.runJob_ready _ hready)
  · exact congrArg Host.Outcome.next (State.runJob_ready _ hready)
  · obtain ⟨t, hrun, hread⟩ := State.modelRead_runs hctx hs0 hmem hcan
    exact ⟨t, congrArg Host.Outcome.next ((State.runJob_ready _ hready).trans hrun), hread⟩
  · obtain ⟨t, hrun, heffect⟩ := State.modelSeed_runs hctx hstop hs0 hmem hcan hflips
    exact ⟨t, congrArg Host.Outcome.next ((State.runJob_ready _ hready).trans hrun), heffect⟩

end Sys2Proof.Machine

/-! PROOFS. The operational commands of RMP (R297, R315, R356, R359, R408, R613, R622): what each does to the state before it is
answered. -/

namespace Sys2Proof.Machine

/-! ### Fields of a body -/

theorem leNat_lt (l : List Nat) : leNat l < 256 ^ l.length := by
  induction l with
  | nil => decide
  | cons b bs ih =>
    rw [leNat, List.length_cons, Nat.pow_succ]
    omega

theorem bodyN_lt (b : List Nat) (i n : Nat) : bodyN b i n < 256 ^ n := by
  simpa [bodyN] using leNat_lt ((List.range n).map (fun k => byteAt b (i + k)))

theorem bodyN_mod_two32 (b : List Nat) (i : Nat) : bodyN b i 4 % two32 = bodyN b i 4 :=
  Nat.mod_eq_of_lt (bodyN_lt b i 4)

namespace State

theorem rmpReply_regs (q : Req) (cmd st : Nat) (body : List Nat) (s : State) : (s.rmpReply q cmd st body).regs = s.regs := by
  unfold State.rmpReply State.whenB
  split <;> rfl

end State

/-! ### SET (R356) -/

/-- A block whose writes only store is no UCB and acts on no value. -/
theorem plainBlock {x : Block} (h : ([.mem, .watch, .net, .lt] : List Block).contains x = true) :
    (x == Block.ucb) = false ∧ ([.global, .tide, .feed, .hm, .snd, .bell, .host] : List Block).contains x = false := by
  cases x <;> simp_all

section Set

variable {s : State} {o v : Nat} {r : RegRow} {k i : Nat}

/-- CC0 reaches a register of a plain block that software writes. -/
theorem reaches_cc0 (hrow : rowOf o = some (r, k, i)) (himg : r.img = false) (hal : o % 4 = 0)
    (hblock : ([.mem, .watch, .net, .lt] : List Block).contains (blockOf o) = true) (hport : s.absentPort o = false) :
    s.Reaches agentCc0 o v r := by
  have hucb := (plainBlock hblock).1
  have hctrl : o ≠ Reg.HOST_CTRL := by
    rintro rfl
    exact absurd hblock (by decide)
  have hearly : s.tooEarly agentCc0 o = false := by
    simp [State.tooEarly, agentCc0, hostAgent]
  refine ⟨⟨k, i, hrow⟩, by simp [groupSnd, hucb], by simp [State.noRegister, hal, hrow, hearly],
    by simp [State.armBlocks, hearly, agentCc0, hostAgent], by simp [State.imageOnly, hctrl, himg], hport, by simp [noGroupReg, hucb]⟩

/-- A value stored in a register of a plain block is not a refusal. -/
theorem refusedBy_wr (hblock : ([.mem, .watch, .net, .lt] : List Block).contains (blockOf o) = true) :
    s.refusedBy ((s.wr o v).runtimeChanged false) o = false := by
  have hucb := (plainBlock hblock).1
  have hwatch : ((s.wr o v).runtimeChanged false).watch = s.watch := by
    rw [State.runtimeChanged_onlyRegs false (s.wr o v)]
    rfl
  simp [State.refusedBy, hwatch, hucb]

end Set

theorem setCmd_run {b : List Nat} (s : State) (h8 : b.length % 8 = 0) (hne : b ≠ []) (hmax : b.length ≤ 1024) :
    setCmd b s = (if (setRegs (b.length / 8) b s).1 then stOk else stRefused, [], (setRegs (b.length / 8) b s).2) := by
  have hpos := List.length_pos_of_ne_nil hne
  exact if_neg (by omega)

/-- SET of one plain register. -/
theorem setRegs_one {s : State} {b : List Nat} {r : RegRow} {k i : Nat} (hrow : rowOf (bodyN b 0 4) = some (r, k, i)) (hacc : r.acc = .rw)
    (hhalf : r.half = .none) (himg : r.img = false) (hal : bodyN b 0 4 % 4 = 0)
    (hblock : ([.mem, .watch, .net, .lt] : List Block).contains (blockOf (bodyN b 0 4)) = true) (hport : s.absentPort (bodyN b 0 4) = false)
    (hop : s.opWrite agentCc0 (bodyN b 0 4) (Nat.land (bodyN b 4 4) r.mask) = none)
    (hbad : s.badWrite (bodyN b 0 4) (Nat.land (bodyN b 4 4) r.mask) = false) :
    setRegs 1 b s = (true, (s.wr (bodyN b 0 4) (Nat.land (bodyN b 4 4) r.mask)).runtimeChanged false) := by
  have hmod := bodyN_mod_two32 b 4
  have hwrite : s.regWrite agentCc0 (bodyN b 0 4) (bodyN b 4 4)
      = (s.wr (bodyN b 0 4) (Nat.land (bodyN b 4 4) r.mask)).runtimeChanged false := by
    rw [(reaches_cc0 hrow himg hal hblock hport).regWrite_rw hacc hhalf (by rw [hmod, hop]), hmod, hbad, if_neg Bool.false_ne_true,
      State.storeRw_plain _ s (plainBlock hblock).2]
  unfold setRegs
  dsimp only
  rw [hwrite, refusedBy_wr hblock, if_neg Bool.false_ne_true]
  rfl

/-! ### MEM_WRITE (R356, R451) -/

theorem wakePorts_regs (a n : Nat) (s : State) : (s.wakePorts a n).regs = s.regs := by
  unfold State.wakePorts
  split
  · rfl
  · refine State.each_keeps (·.regs) _ s fun l _ v => ?_
    dsimp only
    split
    · exact State.setPort_regs _ _ v
    · rfl

theorem unpoison_regs (l : Nat) (s : State) : (s.unpoison l).regs = s.regs :=
  State.each_keeps (·.regs) _ s fun _ _ v => State.setPort_regs _ _ v

/-- With no bit wrong, a write wakes ports and changes no register. -/
theorem writeMem_regs {agent a : Nat} {bs : List Nat} {s : State} (hmem : s.isMem a = true) (hcan : s.canWrite agent a bs.length = .ok)
    (hflips : s.memsys.flips = []) : (s.writeMem agent a bs).2.regs = s.regs := by
  unfold State.writeMem
  rw [hcan, State.isOut_of_isMem _ hmem]
  dsimp only
  rw [if_neg (by simp)]
  obtain ⟨u, hu⟩ : ∃ u : State, u = s.wakePorts a bs.length := ⟨_, rfl⟩
  have hregs : u.regs = s.regs := hu ▸ wakePorts_regs _ _ s
  have hclean : u.memsys.flips = [] := by rw [hu, State.wakePorts_memsys, hflips]
  have hecc : (u.eccWrite agent a bs.length).regs = u.regs := by
    unfold State.eccWrite
    rw [hclean]
    dsimp only [List.filter_nil]
    rw [State.eccRead_clean _ _ _ rfl]
  rw [← hu]
  refine (State.each_keeps (·.regs) _ _ fun l _ v => unpoison_regs l v).trans ?_
  rw [State.putM, hecc, hregs]

theorem getD_map_mod (d : List Nat) (i : Nat) : (d.map (fun x => x % 256)).getD i 0 % 256 = d.getD i 0 % 256 := by
  by_cases h : i < d.length
  · rw [List.getD_eq_getElem _ _ (by simpa using h), List.getElem_map, List.getD_eq_getElem _ _ h, Nat.mod_mod]
  · rw [List.getD_eq_default _ _ (by simpa using h), List.getD_eq_default _ _ (by simpa using h)]

theorem memWriteCmd_run {s : State} {b : List Nat} (h9 : 9 ≤ b.length) (hmax : b.length ≤ 1032) (ha : bodyN b 0 8 < two40)
    (hcap : bodyN b 0 8 + (b.length - 8) ≤ s.capacity) (hprot : s.protOn = false) (hmem : s.isMem (bodyN b 0 8) = true)
    (hcan : s.canWrite agentCc0 (bodyN b 0 8) (b.length - 8) = .ok) :
    ∃ t : State, memWriteCmd b s = (stOk, [], State.classWatch s agentCc0 t) ∧ (s.memsys.flips = [] → t.regs = s.regs)
      ∧ (∀ a, Memory.read t.mem a = if bodyN b 0 8 ≤ a ∧ a < bodyN b 0 8 + (b.length - 8) then
          (b.drop 8).getD (a - bodyN b 0 8) 0 % 256 else Memory.read s.mem a) := by
  have hlen : ((b.drop 8).map (fun x => x % 256)).length = b.length - 8 := by rw [List.length_map, List.length_drop]
  have hcan' : s.canWrite agentCc0 (bodyN b 0 8) ((b.drop 8).map (fun x => x % 256)).length = .ok := by rw [hlen, hcan]
  obtain ⟨t, ht, hput⟩ := State.writeMem_device hmem hcan'
  refine ⟨t, ?_, fun hflips => ?_, fun a => ?_⟩
  · unfold memWriteCmd
    dsimp only
    rw [if_neg (by omega), if_neg (by rw [List.length_drop, hprot, Bool.false_and]; simpa using hcap), ht]
  · simpa only [ht] using writeMem_regs hmem hcan' hflips
  · rw [hput, Memory.read_put, hlen, getD_map_mod]

/-! ### STREAM_START and STREAM_STOP (R408) -/

/-- A descriptor posted on a running queue with room moves PROD on. -/
theorem post_accepted {s : State} {q : Nat} (bytes : List Nat) (hrun : s.qState q = 1) (hroom : sub32 (s.qProd q) (s.qDone q) ≠ s.qSize q) :
    (s.post q bytes []).1 = true ∧ (s.post q bytes []).2.2.qProd q = (s.qProd q + 1) % two32 := by
  unfold State.post
  dsimp only
  rw [if_neg (not_not.2 hrun), if_neg hroom]
  refine ⟨rfl, ?_⟩
  rw [State.qProd, State.qf_setQueueF, State.qf_setQf_same]
  rfl

theorem postStream_accepted {s : State} {c : Nat} (op flags : Nat) (hrun : s.qState c = 1)
    (hroom : sub32 (s.qProd c) (s.qDone c) ≠ s.qSize c) :
    s.postStream c op flags
      = (true, (s.post c (descBytes (op + (s.ctxKind c - 1) * 0x100) flags c 0 0 0 0 0 0 0) []).2.2.dispatch) :=
  congrArg (fun x => (x, _)) (post_accepted _ hrun hroom).1

theorem streamKind {s : State} {c : Nat} (h : s.ctxKind c = 1 ∨ s.ctxKind c = 2) : (!(s.ctxKind c = 1 || s.ctxKind c = 2)) = false := by
  simpa [Decidable.or_iff_not_imp_left] using h

theorem streamStartCmd_run {s : State} {b : List Nat} (hlen : b.length = 2) (hc : bodyN b 0 2 < 4096)
    (hkind : s.ctxKind (bodyN b 0 2) = 1 ∨ s.ctxKind (bodyN b 0 2) = 2) (hbook : s.books.any (fun k => k.1 = bodyN b 0 2) = true)
    (hrun : s.qState (bodyN b 0 2) = 1) (hroom : sub32 (s.qProd (bodyN b 0 2)) (s.qDone (bodyN b 0 2)) ≠ s.qSize (bodyN b 0 2)) :
    streamStartCmd b s = (stOk, [], (s.post (bodyN b 0 2)
      (descBytes (0x0103 + (s.ctxKind (bodyN b 0 2) - 1) * 0x100) 0 (bodyN b 0 2) 0 0 0 0 0 0 0) []).2.2.dispatch) := by
  have hstart : s.startStream (bodyN b 0 2) = s.postStream (bodyN b 0 2) 0x0103 0 := by
    unfold State.startStream
    dsimp only
    rw [hbook]
    rfl
  unfold streamStartCmd
  dsimp only
  rw [if_neg (by omega), streamKind hkind, if_neg Bool.false_ne_true, hstart, postStream_accepted 0x0103 0 hrun hroom]
  rfl

theorem streamStopCmd_halt {s : State} {b : List Nat} (hlen : b.length = 3) (hc : bodyN b 0 2 < 4096) (hm : byteAt b 2 = 1)
    (hkind : s.ctxKind (bodyN b 0 2) = 1 ∨ s.ctxKind (bodyN b 0 2) = 2) (hstate : s.ctxState (bodyN b 0 2) = 3) :
    streamStopCmd b s = (stOk, [], (s.stopStream (bodyN b 0 2) true).dispatch) := by
  unfold streamStopCmd
  dsimp only
  rw [if_neg (by omega), streamKind hkind, if_neg Bool.false_ne_true, if_pos ⟨hstate, hm⟩]

theorem streamStopCmd_posts {s : State} {b : List Nat} (hlen : b.length = 3) (hc : bodyN b 0 2 < 4096) (hm : byteAt b 2 ≤ 1)
    (hkind : s.ctxKind (bodyN b 0 2) = 1 ∨ s.ctxKind (bodyN b 0 2) = 2) (hstate : s.ctxState (bodyN b 0 2) ≠ 3)
    (hrun : s.qState (bodyN b 0 2) = 1) (hroom : sub32 (s.qProd (bodyN b 0 2)) (s.qDone (bodyN b 0 2)) ≠ s.qSize (bodyN b 0 2)) :
    streamStopCmd b s = (stOk, [], (s.post (bodyN b 0 2)
      (descBytes (0x0104 + (s.ctxKind (bodyN b 0 2) - 1) * 0x100) (byteAt b 2) (bodyN b 0 2) 0 0 0 0 0 0 0) []).2.2.dispatch) := by
  unfold streamStopCmd
  dsimp only
  rw [if_neg (by omega), streamKind hkind, if_neg Bool.false_ne_true, if_neg (fun h => hstate h.1),
    postStream_accepted 0x0104 (byteAt b 2) hrun hroom]
  rfl

/-! ### LAYOUT_FLIP (R297, R298) -/

theorem layoutSt_setLayout_same (n : Nat) (x : LayoutSt) (s : State) : (s.setLayout n x).layoutSt n = x :=
  SMap.get_set_same _ _ _ _

theorem layoutSt_setLayout_other {m n : Nat} (x : LayoutSt) (s : State) (h : m ≠ n) : (s.setLayout n x).layoutSt m = s.layoutSt m :=
  SMap.get_set_other _ _ _ h

/-- A flip of a sound layout is left pending. -/
theorem flipCmd_pends {s : State} {b : List Nat} (hlen : b.length = 2) (hn : bodyN b 0 2 < 1024)
    (hpend : (s.layoutSt (bodyN b 0 2)).pend = none) (hfresh : s.flipsFresh < 64)
    (hcheck : s.layoutCheck (s.layoutAddr (bodyN b 0 2) (1 - (s.layoutSt (bodyN b 0 2)).copy)) = 0) :
    flipCmd b s = (stOk, [], s.setLayout (bodyN b 0 2)
      { s.layoutSt (bodyN b 0 2) with pend := some s.effFrom, pEff := s.effFrom, err := 0, fresh := true }) := by
  have hflip : s.layoutFlip agentCc0 (bodyN b 0 2) = (true, s.setLayout (bodyN b 0 2)
      { s.layoutSt (bodyN b 0 2) with pend := some s.effFrom, pEff := s.effFrom, err := 0, fresh := true }) := by
    unfold State.layoutFlip
    dsimp only
    rw [hpend, if_neg (by simpa using hfresh), hcheck, if_neg (not_not.2 rfl)]
  unfold flipCmd
  dsimp only
  rw [if_neg (by omega), hflip]
  rfl

/-! ### STORM (R315, R359) -/

/-- A new signal with no text, in time, is held. -/
theorem stormAccept_new {id level slate e : Nat} {s : State} (hfree : s.storms.length < 8)
    (hnew : s.storms.any (fun x => x.id = id) = false) (htime : s.tideNum + 3 + s.presentL ≤ e) :
    s.stormAccept id level slate e [] = (0, e,
      { s with storms := s.storms ++ [{ id, act := none, pend := some { level, slate, at_ := e }, slot := s.stormSlot }] }) := by
  have hheld : s.storms.find? (fun x => x.id = id) = none := by
    rw [List.find?_eq_none]
    exact List.any_eq_false.1 hnew
  have hlate : decide (e < s.tideNum + 3 + s.presentL) = false := by simpa using htime
  unfold State.stormAccept
  dsimp only
  rw [hheld, hlate]
  dsimp only
  rw [if_neg (by omega), Bool.or_false]
  rfl

theorem stormMsg_new {b : List Nat} {s : State} (hbad : stormBad b = false) (hlen : (stormFields b).2.2.2.2 = 0) (hfree : s.storms.length < 8)
    (hnew : s.storms.any (fun x => x.id = (stormFields b).1) = false) (htime : s.tideNum + 3 + s.presentL ≤ (stormFields b).2.2.2.1) :
    ∃ t : State, s.stormMsg b = (0, [], true, t)
      ∧ t.storms = s.storms ++ [{ id := (stormFields b).1, act := none, slot := s.stormSlot,
                                  pend := some { level := (stormFields b).2.1, slate := (stormFields b).2.2.1, at_ := (stormFields b).2.2.2.1 } }]
      ∧ t.mem = s.mem := by
  unfold State.stormMsg
  rw [hbad, if_neg Bool.false_ne_true]
  extract_lets f ofs text same old base fr rest u r
  have hbase : base.len = 0 := by
    cases hold : old with
    | none => simp only [base, hold, Option.getD_none, f, hlen]
    | some x =>
      have hx := List.find?_some hold
      simp only [same, f, hlen, Bool.and_eq_true, decide_eq_true_eq] at hx
      simp only [base, hold, Option.getD_some, hx.2]
  have hwhole : fragsWhole fr.bytes fr.len = true := by
    simp [fragsWhole, show fr.len = 0 from hbase]
  have hr : r = (0, f.2.2.2.1, { u with storms := u.storms ++
      [{ id := f.1, act := none, pend := some { level := f.2.1, slate := f.2.2.1, at_ := f.2.2.2.1 }, slot := u.stormSlot }] }) := by
    simp only [r, show fr.len = 0 from hbase, List.range_zero, List.map_nil]
    exact stormAccept_new hfree hnew htime
  rw [hwhole, if_pos rfl, hr]
  exact ⟨_, rfl, rfl, rfl⟩

/-- Off the storm flow an accepted signal sets no event; on it, STORM_RX. -/
theorem stormCmd_new {b : List Nat} {s : State} (via : Via) (hbad : stormBad b = false) (hlen : (stormFields b).2.2.2.2 = 0)
    (hfree : s.storms.length < 8) (hnew : s.storms.any (fun x => x.id = (stormFields b).1) = false)
    (htime : s.tideNum + 3 + s.presentL ≤ (stormFields b).2.2.2.1) :
    ∃ t : State, stormCmd via b s = (0, [], t)
      ∧ t.storms = s.storms ++ [{ id := (stormFields b).1, act := none, slot := s.stormSlot,
                                  pend := some { level := (stormFields b).2.1, slate := (stormFields b).2.2.1, at_ := (stormFields b).2.2.2.1 } }]
      ∧ t.mem = s.mem := by
  obtain ⟨u, hu, hstorms, hmem⟩ := stormMsg_new hbad hlen hfree hnew htime
  refine ⟨u.whenB (true && via == .net) (State.setBit Reg.NET_EVENT 13), ?_, ?_, ?_⟩
  · unfold stormCmd
    rw [hu]
  all_goals
    unfold State.whenB
    split
  · rw [State.setBit_storms, hstorms]
  · exact hstorms
  · rw [State.setBit_mem, hmem]
  · exact hmem

/-! ### SND_CTRL (R613, R622) -/

/-- One selection that its source takes is staged. -/
theorem sndCtrl_one {b : List Nat} {s : State} (hlen : b.length = 8) (hi : byteAt b 2 < 8) (hsrc : sndSource (bodyN b 0 2) = true)
    (hok : sndOk (bodyN b 0 2) (bits (bodyN b 4 4) 11 0) = true) :
    sndCtrl b s = (stOk, [], (s.stage (sndBase (bodyN b 0 2) (byteAt b 2)) (Nat.land (bodyN b 4 4) 0x1FFF)).runtimeChanged false) := by
  have hsel : s.sndSelect agentCc0 (bodyN b 0 2) (byteAt b 2) (bodyN b 4 4)
      = (true, s.stage (sndBase (bodyN b 0 2) (byteAt b 2)) (Nat.land (bodyN b 4 4) 0x1FFF)) := by
    unfold State.sndSelect
    dsimp only
    rw [hsrc, if_neg (by simp only [Bool.not_true, Bool.false_eq_true, false_or, not_lt]; omega), hok, if_pos rfl]
  have hone : sndEntries agentCc0 b 1 s = (true, s.stage (sndBase (bodyN b 0 2) (byteAt b 2)) (Nat.land (bodyN b 4 4) 0x1FFF)) := by
    unfold sndEntries
    dsimp only
    rw [hsel]
    rfl
  unfold sndCtrl
  rw [if_neg (by omega), hlen]
  dsimp only
  rw [show 8 / 8 = 1 from rfl, hone]
  rfl

/-- Settles O24. -/
theorem operationalCommandsAct : Obligations.OperationalCommandsAct := by
  intro s q b
  refine ⟨fun hq h8 hne hmax => ?_,
    fun hq hlen hidle r k i hrow hacc hhalf himg hal hblock hport hop hbad => ?_,
    fun hq h9 hmax ha hcap hprot hmem _ hcan => ?_,
    fun hq hlen hc hkind hbook hrun hroom => ?_,
    fun hq hlen hc hm hkind => ⟨fun hstate hm1 => ?_, fun hstate hrun hroom => ?_⟩,
    fun hq hlen hn hpend hfresh hcheck => ?_,
    fun hq hbad hlen hfree hnew htime => ?_,
    fun hq hlen hi hsrc hok => ?_⟩
  · exact congrArg (fun t => Host.Outcome.next (State.served t)) (hq.rmpRun_plain (by decide) (setCmd_run s h8 hne hmax))
  · have hone := setRegs_one hrow hacc hhalf himg hal hblock hport hop hbad
    have hcmd : setCmd b s
        = (stOk, [], (s.wr (bodyN b 0 4) (Nat.land (bodyN b 4 4) r.mask)).runtimeChanged false) := by
      rw [setCmd_run s (by omega) (by rintro rfl; exact absurd hlen (by decide)) (by omega), hlen, show 8 / 8 = 1 from rfl, hone]
      rfl
    have hcfg : bodyN b 0 4 ≠ Reg.CFG_STATUS := ne_of_row (fun x => x.acc == .rw) hrow (by simp [hacc]) (by decide)
    have hmbx : bodyN b 0 4 ≠ Reg.HOST_MBX_STATUS := ne_of_row (fun x => x.acc == .rw) hrow (by simp [hacc]) (by decide)
    refine ⟨(s.wr (bodyN b 0 4) (Nat.land (bodyN b 4 4) r.mask)).runtimeChanged false, ?_, ?_, fun p hpo hpc => ?_, ?_⟩
    · refine congrArg Host.Outcome.next ?_
      rw [hq.rmpRun_plain (by decide) hcmd]
      refine State.served_idle ?_
      rw [State.bit_other (State.rd_congr (State.rmpReply_regs q 2 stOk [] _) _) 0, State.bit_mbxStatus_runtimeChanged,
        State.bit_mbxStatus_wr hmbx, hidle]
    · have hlt : Nat.land (bodyN b 4 4) r.mask < 2 ^ 32 := lt_of_le_of_lt Nat.and_le_left (bodyN_lt b 4 4)
      rw [State.rd_runtimeChanged_other _ _ hcfg, State.rd_wr_same, Nat.mod_eq_of_lt hlt]
    · rw [State.rd_runtimeChanged_other _ _ hpc, State.rd_wr_other _ _ hpo]
    · rw [(State.runtimeChanged_onlyRegs false _).mem_eq, State.wr_mem]
  · obtain ⟨t, hcmd, hregs, hread⟩ := memWriteCmd_run h9 hmax ha hcap hprot hmem hcan
    exact ⟨t, congrArg Host.Outcome.next (hq.rmpRun_plain (by decide) hcmd), hregs, hread⟩
  · exact ⟨_, (post_accepted _ hrun hroom).2, rfl,
      congrArg Host.Outcome.next (hq.rmpRun_plain (by decide) (streamStartCmd_run hlen hc hkind hbook hrun hroom))⟩
  · exact congrArg Host.Outcome.next (hq.rmpRun_plain (by decide) (streamStopCmd_halt hlen hc hm1 hkind hstate))
  · exact ⟨_, (post_accepted _ hrun hroom).2, rfl,
      congrArg Host.Outcome.next (hq.rmpRun_plain (by decide) (streamStopCmd_posts hlen hc hm hkind hstate hrun hroom))⟩
  · refine ⟨_, congrArg Host.Outcome.next (hq.rmpRun_plain (by decide) (flipCmd_pends hlen hn hpend hfresh hcheck)), ?_, ?_,
      fun n hne => layoutSt_setLayout_other _ s hne, State.setLayout_regs _ _ s, State.setLayout_mem _ _ s⟩
    · rw [layoutSt_setLayout_same]
    · rw [layoutSt_setLayout_same]
  · obtain ⟨t, hcmd, hstorms, hmem⟩ := stormCmd_new q.via hbad hlen hfree hnew htime
    exact ⟨t, congrArg Host.Outcome.next (hq.rmpRun_plain (by decide) hcmd), hstorms, hmem⟩
  · exact congrArg Host.Outcome.next (hq.rmpRun_plain (by decide) (sndCtrl_one hlen hi hsrc hok))

end Sys2Proof.Machine

/-! PROOFS. The presence commands of RMP (R84, R101, R110, R112, R358, R543, R544, R603): what each does to the state before it is
measured and answered, and what follows it. -/

namespace Sys2Proof.Machine

namespace State

theorem rmpReply_boot (q : Req) (cmd st : Nat) (body : List Nat) (s : State) : (s.rmpReply q cmd st body).boot = s.boot := by
  unfold State.rmpReply State.whenB
  split <;> rfl

theorem rmpReply_watch (q : Req) (cmd st : Nat) (body : List Nat) (s : State) : (s.rmpReply q cmd st body).watch = s.watch := by
  unfold State.rmpReply State.whenB
  split <;> rfl

/-- A command of the presence class that is answered OK, and what follows it. -/
theorem Admits.restartCmd_ok {s t : State} {q : Req} {cmd : Nat} {f : State → Nat × List Nat × State} {body : List Nat}
    (h : s.Admits q cmd .presence) (st : Option StartUp) (hf : f s = (stOk, body, t)) :
    s.restartCmd q cmd st f
      = ((t.measEvent 5).rmpReply q cmd stOk body).afterCommand cmd st (s.boot.flash.map (fun w => w.slot)) true := by
  unfold State.restartCmd
  dsimp only
  rw [h.rmp_eq, hf]
  rfl

/-- Outside RECOVERY nothing follows FLASH_CLOSE. -/
theorem afterCommand_flashClose {s : State} (st : Option StartUp) (slot : Option Nat) (ok : Bool) (h : s.boot.phase ≠ .recovery) :
    s.afterCommand 0x22 st slot ok = s := by
  have hph : (s.boot.phase == Phase.recovery) = false := by simpa using h
  unfold State.afterCommand
  rw [hph]
  cases ok <;> rfl

/-- In the safe state a restart follows SAFE_CLEAR (R603). -/
theorem afterCommand_safeClear {s : State} (st : Option StartUp) (slot : Option Nat) (h : s.watch.safe = true) :
    s.afterCommand 0x26 st slot true = s.restart true st :=
  if_pos h

end State

/-! ### SEAL_CLEAR and FW_COMMIT (R84, R101) -/

theorem sealClear_run {s : State} (hloop : s.boot.loopOpen = false) (hbroken : s.boot.broken = true) :
    sealClear [] s = (stOk, [], ({ s with boot := { s.boot with broken := false } } : State).measEvent 6) := by
  unfold sealClear
  rw [if_neg (not_not.2 rfl), hloop, if_neg Bool.false_ne_true, hbroken, if_pos rfl]

theorem fwCommit_run {s : State} {i : BootImg} (hrun : s.boot.runImg = some i) :
    fwCommit [] s = (stOk, [max s.ident.bootArc i.svn, 0, 0, 0],
      ({ s with ident := { s.ident with bootArc := max s.ident.bootArc i.svn } } : State)) := by
  unfold fwCommit
  rw [if_neg (not_not.2 rfl), hrun]

/-! ### Flash writes (R110, R358) -/

theorem flashWrite_run {s : State} {b : List Nat} {w : FlashWr} (hflash : s.boot.flash = some w) (h9 : 9 ≤ b.length)
    (hmax : b.length ≤ 1032) (hres : bodyN b 4 4 = 0) (hofs : bodyN b 0 4 = w.data.length)
    (hfit : w.data.length + (b.length - 8) ≤ w.length) (h4 : b.length % 4 = 0 ∨ w.data.length + (b.length - 8) = w.length) :
    flashWrite b s
      = (stOk, [], ({ s with boot := { s.boot with flash := some { w with data := w.data ++ b.drop 8 } } } : State)) := by
  unfold flashWrite
  rw [hflash]
  dsimp only
  rw [if_neg (by rw [List.length_drop]; omega)]

section Open

variable {s : State} {b : List Nat} (hlen : b.length = 8) (hkind : byteAt b 0 ≤ 1) (hslot : byteAt b 1 ≤ 1) (hres : bodyN b 2 2 = 0)
  (h4 : bodyN b 4 4 % 4 = 0) (hmin : (if byteAt b 0 = 1 then 36 else 4) ≤ bodyN b 4 4) (hmax : bodyN b 4 4 ≤ 16777216)
  (hph : s.boot.phase ≠ .recovery ∨ byteAt b 0 = 0)
include hlen hkind hslot hres h4 hmin hmax hph

theorem flashOpen_run : flashOpen b s
    = if s.boot.flash.isSome then (stBusy, [], s)
      else if s.slotInUse (byteAt b 0) (byteAt b 1) then (stSlotInUse, [], s)
      else (stOk, [], ({ s.eraseSlot (2 * byteAt b 0 + byteAt b 1) with
        boot := { (s.eraseSlot (2 * byteAt b 0 + byteAt b 1)).boot with
          flash := some { slot := 2 * byteAt b 0 + byteAt b 1, length := bodyN b 4 4, data := [] } } } : State)) := by
  unfold flashOpen
  dsimp only
  rw [if_neg (by omega), if_neg (by rintro ⟨hp, hk⟩; rcases hph with h | h; exacts [h hp, by omega])]

end Open

/-- A boot image that passes its checks is kept, another erased. -/
theorem flashClose_boot {s : State} {w : FlashWr} (hflash : s.boot.flash = some w) (hlen : w.data.length = w.length) (hslot : w.slot < 2)
    (hthere : s.bootFlash = true) :
    flashClose [] s = (stOk, [s.bootCheck (Config.bootImage w.data) false, 0, 0, 0],
      (({ s with boot := { s.boot with flash := none } } : State).putBoot w.slot
        (if s.bootCheck (Config.bootImage w.data) false = 0 then Config.bootImage w.data else none)).setBit Reg.CUS_EVENT 5) := by
  have hshort : decide (w.data.length < w.length) = false := by simp [hlen]
  unfold flashClose
  rw [if_neg (not_not.2 rfl), hflash]
  dsimp only
  rw [hshort, hthere, if_pos rfl, if_pos hslot, if_pos hslot]
  by_cases h : s.bootCheck (Config.bootImage w.data) false = 0
  · rw [if_pos h, if_pos (by simp [h])]
  · rw [if_neg h, if_neg (by simpa using h), State.eraseSlot, if_pos hslot]

/-- So is an Etvor image. -/
theorem flashClose_etvor {s : State} {w : FlashWr} (hflash : s.boot.flash = some w) (hlen : w.data.length = w.length) (hslot : 2 ≤ w.slot)
    (hthere : s.etvorFlash = true) :
    flashClose [] s = (stOk, [etvorCheck s.fwVersion (some w.data), 0, 0, 0],
      (({ s with boot := { s.boot with flash := none } } : State).putEtvor (w.slot - 2)
        (if etvorCheck s.fwVersion (some w.data) = 0 then w.data else [])).setBit Reg.CUS_EVENT 5) := by
  have hshort : decide (w.data.length < w.length) = false := by simp [hlen]
  have hof : (s.etvorSlotOf (w.slot - 2)).map (fun _ => w.data) = some w.data := by
    unfold State.etvorSlotOf
    rw [hthere]
    rfl
  unfold flashClose
  rw [if_neg (not_not.2 rfl), hflash]
  dsimp only
  rw [hshort, hof, if_neg (not_lt.2 hslot), if_neg (not_lt.2 hslot)]
  by_cases h : etvorCheck s.fwVersion (some w.data) = 0
  · rw [if_pos h, if_pos (by simp [h])]
  · rw [if_neg h, if_neg (by simpa using h), State.eraseSlot, if_neg (not_lt.2 hslot)]

/-- The close of an open write, outside RECOVERY. -/
theorem flashClose_exec {s t : State} {q : Req} {body : List Nat} (st : StartUp) (h : s.Admits q 0x22 .presence)
    (hph : s.boot.phase ≠ .recovery) (hrun : flashClose [] s = (stOk, body, t)) (hboot : t.boot.phase = s.boot.phase) :
    exec (.flashClose q [] st) s = (.next ((t.measEvent 5).rmpReply q 0x22 stOk body) : Host.Outcome State Fault Refusal) := by
  refine congrArg Host.Outcome.next ((h.restartCmd_ok (some st) hrun).trans (State.afterCommand_flashClose _ _ _ ?_))
  rw [State.rmpReply_boot, t.measEvent_eq 5]
  exact hboot ▸ hph

/-! ### UCW_ENABLE (R543, R544) -/

namespace State

theorem leafOf_pilot {u : Nat} (s : State) (hu : unitKind u = some .pilot) : s.leafOf u = some .pilot := by
  have hone : ∀ n, s.walk (n + 2) [u] [] = [u] := fun n => by
    rw [State.walk, hu]
    rfl
  rw [State.leafOf, State.unitsIn, show 2000000 = 1999998 + 2 from rfl, hone]
  simp [hu]

/-- A program that passes is in line for the next tide start; measuring it changes no register and no memory. -/
theorem ucwLoad_pilot {s : State} {u n a : Nat} {ws : List Nat} (hu : unitKind u = some .pilot) (hprog : s.windowProg n a = some ws)
    (hn : n = 0 ∨ (4 ≤ n ∧ n ≤ 8192)) (hws : ws.all (windowWord n) = true) :
    ∃ t : State, s.ucwLoad u n a = (true, t)
      ∧ t.ucwNext = s.ucwNext.filter (fun p => !([u].contains p.1 && !p.2.1)) ++ [(u, false, ws)] ∧ t.regs = s.regs ∧ t.mem = s.mem := by
  have hpil : s.isPilots u = true := by
    rw [State.isPilots, s.leafOf_pilot hu]
    rfl
  have hout : outside 4 8192 (if n = 0 then 4 else n) = false := by
    unfold outside
    split
    · rfl
    · simp only [Bool.or_eq_false_iff, decide_eq_false_iff_not]
      omega
  unfold State.ucwLoad
  rw [hprog]
  dsimp only
  rw [hpil, hout, hws, if_neg (by decide), if_pos hu]
  exact ⟨_, rfl, rfl, rfl, rfl⟩

end State

theorem ucwEnableCmd_run {s : State} {b ws : List Nat} (hlen : b.length = 16) (hres : bodyN b 4 4 = 0) (ha : bodyN b 8 8 < two40)
    (hu : unitKind (bodyN b 0 2) = some .pilot) (hprog : s.windowProg (bodyN b 2 2) (bodyN b 8 8) = some ws)
    (hn : bodyN b 2 2 = 0 ∨ (4 ≤ bodyN b 2 2 ∧ bodyN b 2 2 ≤ 8192)) (hws : ws.all (windowWord (bodyN b 2 2)) = true) :
    ∃ t : State, ucwEnableCmd b s = (stOk, [], t)
      ∧ t.ucwNext = s.ucwNext.filter (fun p => !([bodyN b 0 2].contains p.1 && !p.2.1)) ++ [(bodyN b 0 2, false, ws)]
      ∧ t.regs = s.regs ∧ t.mem = s.mem := by
  obtain ⟨t, hload, hnext, hregs, hmem⟩ := State.ucwLoad_pilot hu hprog hn hws
  have hpil : s.isPilots (bodyN b 0 2) = true := by
    rw [State.isPilots, s.leafOf_pilot hu]
    rfl
  refine ⟨t, ?_, hnext, hregs, hmem⟩
  unfold ucwEnableCmd
  dsimp only
  rw [hpil, if_neg (by simp only [Bool.not_true, Bool.false_eq_true, or_false]; omega), hload]
  rfl

/-! ### SPARE_DISABLE (R358) -/

/-- An authorised write takes a unit out of SPARE. -/
theorem State.ctrlWrite_authorised {s : State} {u v : Nat} {k : Kind} (hk : unitKind u = some k) (heng : s.eng u = .spare)
    (hv : (v % 8).testBit 2 = false) :
    s.ctrlWrite .authorised u v = (((s.ctrlTaken u (v % 8)).setEng u .stopped).afterSpares s).dispatch := by
  unfold State.ctrlWrite
  rw [hk]
  extract_lets old st x kindOk w0 w clears g s1 s2
  have hst : st = .spare := heng
  have hw : w = v % 8 := if_neg (by simp [w0, hv])
  have hg : g = 0 := if_neg (by simp [hst])
  rw [if_neg (by simp [hst]), if_neg (by simp), if_neg (by simp [hg])]
  have h2 : s2 = s1 := by
    unfold s2
    rw [show (CtrlBy.authorised == CtrlBy.agent) = false from rfl, Bool.and_false]
    rfl
  rw [h2, ← State.ctrlEffect_unspare (w := v % 8) ((s.ctrlTaken_eng u (v % 8)).trans heng) hv, ← hw]
  rfl

theorem spareDisableCmd_run {s : State} {b : List Nat} {k : Kind} (hlen : b.length = 4) (hres : bodyN b 2 2 = 0)
    (hk : unitKind (bodyN b 0 2) = some k) (hok : k.spareOk = true) : spareDisableCmd b s = if s.eng (bodyN b 0 2) = .spare
      then (stOk, [], s.ctrlWrite .authorised (bodyN b 0 2) (putBits (s.rd (ucb (bodyN b 0 2) Reg.UCB_CTRL)) 2 2 0))
      else (stRefused, [], s) := by
  unfold spareDisableCmd
  dsimp only
  rw [if_neg (by omega), hk]
  dsimp only
  by_cases h : s.eng (bodyN b 0 2) = .spare
  · rw [if_neg (by simp [hok, h]), if_pos h]
  · rw [if_pos (by simp [h]), if_neg h]

/-- Settles O26. -/
theorem presenceCommandsAct : Obligations.PresenceCommandsAct := by
  refine ⟨fun s q hq hloop hbroken => ?_, fun s q i hq hrun => ?_, fun s q b w hq hflash h9 hmax hres hofs hfit h4 => ?_,
    fun s q b hq hlen hkind hslot hres h4 hmin hmax hph => ?_, fun s q w st hq hph hflash hlen hslot hthere r hr => ?_,
    fun s => ⟨rfl, fun i => ?_⟩, fun s q w st hq hph hflash hlen hslot hthere => ?_,
    fun s q b hq hlen hn hres ha hu => ?_, fun s q b ws hq hlen _ hmax hmin hres ha hu hprog hws => ?_,
    fun s q b k hq hlen hres hk hok => ⟨fun heng => ?_, fun heng => ?_⟩, fun s q st hq => ?_, fun s q st hq hsafe => ?_⟩
  · exact congrArg Host.Outcome.next (hq.rmpRun_measured (sealClear_run hloop hbroken))
  · exact congrArg Host.Outcome.next (hq.rmpRun_measured (fwCommit_run hrun))
  · exact congrArg Host.Outcome.next (hq.rmpRun_measured (flashWrite_run hflash h9 hmax hres hofs hfit h4))
  · have hopen := flashOpen_run hlen hkind hslot hres h4 hmin hmax hph
    refine ⟨fun hnone huse => ?_, fun hsome => ?_, fun hnone huse => ?_⟩
    · rw [hnone, huse] at hopen
      exact congrArg Host.Outcome.next (hq.rmpRun_measured hopen)
    · rw [Option.isSome_iff_ne_none.2 hsome, if_pos rfl] at hopen
      exact congrArg Host.Outcome.next (hq.rmpRun_unmeasured (by decide) hopen)
    · rw [hnone, huse] at hopen
      exact congrArg Host.Outcome.next (hq.rmpRun_unmeasured (by decide) hopen)
  · have hclose := flashClose_boot hflash hlen hslot hthere
    rw [← hr] at hclose
    refine ⟨_, ?_, ?_, State.bit_setBit_same _ (by decide), fun o ho => ?_, ?_, flashClose_exec st hq hph hclose ?_⟩
    · rw [State.setBit_boot]
      rfl
    · rw [State.setBit_boot]
      exact State.get_putBoot w.slot _ _
    · rw [State.rd_setBit_other 5 _ ho]
      rfl
    · rw [State.setBit_mem]
      rfl
    · rw [State.setBit_boot]
      rfl
  · unfold State.bootCheck
    simp only [Bool.false_eq_true, if_false, Bool.not_eq_true']
  · have hclose := flashClose_etvor hflash hlen hslot hthere
    refine ⟨fun hgood => ?_, fun hbad => ?_⟩
    · rw [hgood, if_pos rfl] at hclose
      refine ⟨_, ?_, ?_, State.bit_setBit_same _ (by decide), fun o ho => ?_, ?_, flashClose_exec st hq hph hclose ?_⟩
      · rw [State.setBit_boot]
        rfl
      · rw [State.setBit_boot]
        exact State.get_putEtvor (w.slot - 2) _ _
      · rw [State.rd_setBit_other 5 _ ho]
        rfl
      · rw [State.setBit_mem]
        rfl
      · rw [State.setBit_boot]
        rfl
    · rw [if_neg hbad] at hclose
      refine ⟨_, ?_, ?_, flashClose_exec st hq hph hclose ?_⟩
      · rw [State.setBit_boot]
        rfl
      · rw [State.setBit_boot]
        exact State.get_putEtvor (w.slot - 2) _ _
      · rw [State.setBit_boot]
        rfl
  · have hprog : s.windowProg (bodyN b 2 2) (bodyN b 8 8) = some [] := if_pos hn
    obtain ⟨t, hrun, hnext, hregs, hmem⟩ := ucwEnableCmd_run hlen hres ha hu hprog (.inl hn) rfl
    exact ⟨t, hnext, hregs, hmem, congrArg Host.Outcome.next (hq.rmpRun_measured hrun)⟩
  · obtain ⟨t, hrun, hnext, hregs, hmem⟩ := ucwEnableCmd_run hlen hres ha hu hprog (.inr ⟨hmin, hmax⟩) hws
    exact ⟨t, hnext, hregs, hmem, congrArg Host.Outcome.next (hq.rmpRun_measured hrun)⟩
  · have hrun := spareDisableCmd_run (s := s) hlen hres hk hok
    have b2 := State.testBit_ctrlField_same (hi := 2) (lo := 2) (x := 0) (c := 2) (bodyN b 0 2) s (by decide) (by decide)
    rw [if_pos heng, State.ctrlWrite_authorised hk heng (b2.trans (by decide))] at hrun
    have hlt : putBits (s.rd (ucb (bodyN b 0 2) Reg.UCB_CTRL)) 2 2 0 % 8 < 8 := Nat.mod_lt _ (by decide)
    generalize putBits (s.rd (ucb (bodyN b 0 2) Reg.UCB_CTRL)) 2 2 0 % 8 = w at hrun b2 hlt
    obtain ⟨hregs, hmem, -⟩ := (s.ctrlTaken (bodyN b 0 2) w).setEng_frame (bodyN b 0 2) .stopped
    refine ⟨_, (State.setEng_unit _ _ _).1, hmem.trans (s.ctrlTaken_frame _ w).2, ?_,
      congrArg Host.Outcome.next (hq.rmpRun_measured hrun)⟩
    rw [State.bit_other (State.rd_congr hregs _), State.ctrlTaken_bit _ 2 s hlt, b2]
    decide
  · have hrun := spareDisableCmd_run (s := s) hlen hres hk hok
    rw [if_neg heng] at hrun
    exact congrArg Host.Outcome.next (hq.rmpRun_unmeasured (by decide) hrun)
  · exact congrArg Host.Outcome.next (hq.restartCmd_ok (f := factoryReset []) (some st) (if_neg (not_not.2 rfl)))
  · refine congrArg Host.Outcome.next ((hq.restartCmd_ok (f := safeClear []) (some st) (if_neg (not_not.2 rfl))).trans ?_)
    exact State.afterCommand_safeClear _ _ (by rw [State.rmpReply_watch, s.measEvent_eq 5, hsafe])

end Sys2Proof.Machine

/-! PROOFS. What leaves the module in the safe state (17_faults_and_availability.md: R602): no report, no access to memory, no operation on
a buffer and no end of a job takes it out of it; with nothing dispatched, jobs end without a next one. -/

namespace Sys2Proof.Machine

/-! ### Reports (R584 to R586, R601) -/

/-- What a report changes of the Watch: its log, its capture, its active table, and the request for the safe state. -/
theorem State.watch_report_eq (code agent access addr : Nat) (s : State) :
    ∃ l n x a f k c, (s.report code agent access addr).watch
      = { s.watch with log := l, logWr := n, fe := x, active := a, full := f, safeAsked := k, cause := c } := by
  by_cases hself : s.watch.selfLost = true
  · rw [show s.report code agent access addr = s from if_pos hself]
    exact ⟨_, _, _, _, _, _, _, rfl⟩
  · have hself' : s.watch.selfLost = false := by simpa using hself
    obtain ⟨l, n, hlog⟩ := s.logged_eq code agent access
    by_cases hsafe : code / 4096 = 6 ∧ s.watch.safe = true
    · rw [State.watch_report_safe hself' hsafe, hlog]
      exact ⟨_, _, _, _, _, _, _, rfl⟩
    · obtain ⟨x, hcap⟩ := (s.logged code agent access).capture_eq { code, agent, access, addr, tide := s.reportTide, ns := s.nsInTide }
      have hcap' : s.captured code agent access addr = { s.logged code agent access with fe := x } := hcap
      obtain ⟨a, f, hent⟩ : ∃ a f, s.entered code agent access addr = { s.captured code agent access addr with active := a, full := f } := by
        unfold State.entered
        split
        · exact (s.captured code agent access addr).enter_eq code agent
        · exact ⟨_, _, rfl⟩
      obtain ⟨k, c, hask⟩ := (s.entered code agent access addr).ask_eq code
      rw [State.watch_report hself' hsafe, hask, hent, hcap', hlog]
      exact ⟨_, _, _, _, _, _, _, rfl⟩

/-! ### States alike in the safe state -/

/-- `t` is in the safe state when `s` is, and not when it is not. -/
def State.SafeAs (s t : State) : Prop := t.watch.safe = s.watch.safe

namespace State.SafeAs

theorem refl (s : State) : s.SafeAs s := rfl

theorem trans {s t u : State} (h : s.SafeAs t) (k : t.SafeAs u) : s.SafeAs u := Eq.trans k h

/-- A state alike one in the safe state is in it. -/
theorem safe {s t : State} (h : s.SafeAs t) (hs : s.watch.safe = true) : t.watch.safe = true := Eq.trans h hs

theorem of_watch {s t : State} (h : t.watch = s.watch) : s.SafeAs t := congrArg WatchSt.safe h

theorem of_onlyRegs {s t : State} (h : s.OnlyRegs t) : s.SafeAs t := of_watch (by rw [h])

variable {s t : State}

theorem wr (o v : Nat) (h : s.SafeAs t) : s.SafeAs (t.wr o v) := h
theorem wr40 (o v : Nat) (h : s.SafeAs t) : s.SafeAs (t.wr40 o v) := h
theorem setBit (o b : Nat) (h : s.SafeAs t) : s.SafeAs (t.setBit o b) := h
theorem clrBit (o b : Nat) (h : s.SafeAs t) : s.SafeAs (t.clrBit o b) := h
theorem inc (o : Nat) (h : s.SafeAs t) : s.SafeAs (t.inc o) := h
theorem bump (o n : Nat) (h : s.SafeAs t) : s.SafeAs (t.bump o n) := h
theorem setPort (p : Nat) (x : PortSt) (h : s.SafeAs t) : s.SafeAs (t.setPort p x) := h
theorem memsys (m : MemSt) (h : s.SafeAs t) : s.SafeAs { t with memsys := m } := h
theorem setPool (p : Nat) (x : PoolSt) (h : s.SafeAs t) : s.SafeAs (t.setPool p x) := h
theorem wrM (a n v : Nat) (h : s.SafeAs t) : s.SafeAs (t.wrM a n v) := h
theorem setQf (q off n v : Nat) (h : s.SafeAs t) : s.SafeAs (t.setQf q off n v) := h
theorem setQueueF (q : Nat) (f : QueueSt → QueueSt) (h : s.SafeAs t) : s.SafeAs (t.setQueueF q f) := h
theorem setUnit (u : Nat) (x : UnitSt) (h : s.SafeAs t) : s.SafeAs (t.setUnit u x) := h
theorem setUnitF (u : Nat) (f : UnitSt → UnitSt) (h : s.SafeAs t) : s.SafeAs (t.setUnitF u f) := h
theorem setSf (c off n v : Nat) (h : s.SafeAs t) : s.SafeAs (t.setSf c off n v) := h
theorem setEnc (c : Nat) (x : EncSt) (h : s.SafeAs t) : s.SafeAs (t.setEnc c x) := h
theorem setDec (c : Nat) (x : DecSt) (h : s.SafeAs t) : s.SafeAs (t.setDec c x) := h
theorem setBook (c : Nat) (x : Booking) (h : s.SafeAs t) : s.SafeAs (t.setBook c x) := h
theorem setDisp (n : Nat) (x : DispSt) (h : s.SafeAs t) : s.SafeAs (t.setDisp n x) := h
theorem setQuay (u : Nat) (x : List QuayPic) (h : s.SafeAs t) : s.SafeAs (t.setQuay u x) := h
theorem sndCount (src ev n : Nat) (h : s.SafeAs t) : s.SafeAs (t.sndCount src ev n) := h.trans (of_onlyRegs (t.sndCount_onlyRegs src ev n))

theorem report (code agent access addr : Nat) (h : s.SafeAs t) : s.SafeAs (t.report code agent access addr) := by
  obtain ⟨l, n, x, a, f, k, c, hw⟩ := t.watch_report_eq code agent access addr
  refine h.trans ?_
  rw [State.SafeAs, hw]

theorem whenB {f : State → State} (c : Bool) (hf : ∀ s : State, s.SafeAs (f s)) (h : s.SafeAs t) : s.SafeAs (t.whenB c f) := by
  cases c with
  | false => exact h
  | true => exact h.trans (hf t)

theorem each {α : Type} {f : α → State → State} (hf : ∀ a, ∀ s : State, s.SafeAs (f a s)) (l : List α) (h : s.SafeAs t) :
    s.SafeAs (t.each l f) :=
  h.trans (State.each_keeps (·.watch.safe) l t fun a _ v => hf a v)

/-! ### Accesses to memory (R451 to R467) -/

theorem memErr (agent kind addr : Nat) (h : s.SafeAs t) : s.SafeAs (t.memErr agent kind addr) := by
  refine h.trans ?_
  unfold State.memErr
  split
  · exact refl t
  · exact ((refl t).wr40 _ _).wr _ _

theorem cond (holds : Bool) (code agent : Nat) (h : s.SafeAs t) : s.SafeAs (t.cond holds code agent) := by
  refine h.trans ?_
  unfold State.cond
  split
  · split
    · exact refl t
    · exact (refl t).report _ _ _ _
  · exact refl t

theorem memConds (h : s.SafeAs t) : s.SafeAs t.memConds := by
  refine h.trans ?_
  unfold State.memConds
  split
  · exact refl t
  · exact (((refl t).cond _ _ _).cond _ _ _).cond _ _ _

theorem promote (h : s.SafeAs t) : s.SafeAs t.promote := by
  refine h.trans ?_
  unfold State.promote
  split
  · exact (refl t).setPort _ _
  · exact refl t

theorem fencePort (p : Nat) (h : s.SafeAs t) : s.SafeAs (t.fencePort p) :=
  (((h.setPort _ _).setBit _ _).whenB _ fun s => (refl s).report _ _ _ _).memConds

theorem dstFails (h : s.SafeAs t) : s.SafeAs t.dstFails := by
  refine h.trans ?_
  unfold State.dstFails
  split
  · exact refl t
  · exact (((((refl t).memsys _).setBit _ _).setBit _ _).fencePort _).promote

theorem retirePort (p : Nat) (h : s.SafeAs t) : s.SafeAs (t.retirePort p) := by
  refine h.trans ?_
  unfold State.retirePort
  dsimp only
  split
  · exact (refl t).setPort _ _
  · exact (refl t).report _ _ _ _

theorem poisonAt (p line : Nat) (h : s.SafeAs t) : s.SafeAs (t.poisonAt p line) := by
  refine h.trans ?_
  unfold State.poisonAt
  extract_lets x u
  have hu : t.SafeAs u := (refl t).setBit _ _
  split
  · exact refl t
  · split
    · exact (refl t).setPort _ _
    · split
      · exact hu.dstFails
      · split
        · exact hu.setPort _ _
        · exact hu.retirePort _

theorem foldl {α β : Type} {f : β × State → α → β × State} (hf : ∀ (acc : β × State) (a : α), acc.2.SafeAs (f acc a).2) (l : List α)
    (acc : β × State) (h : s.SafeAs acc.2) : s.SafeAs (l.foldl f acc).2 := by
  induction l generalizing acc with
  | nil => exact h
  | cons a l ih => exact ih _ (h.trans (hf acc a))

theorem eccRead (agent a n : Nat) (h : s.SafeAs t) : s.SafeAs (t.eccRead agent a n).2 := by
  refine foldl (fun acc p => ?_) _ _ h
  dsimp only
  split
  · exact ((((refl acc.2).memsys _).bump _ _).setBit _ _).report _ _ _ _
  · exact (((((refl acc.2).memsys _).inc _).setBit _ _).memErr _ _ _).report _ _ _ _ |>.poisonAt _ _

theorem wakePorts (a n : Nat) (h : s.SafeAs t) : s.SafeAs (t.wakePorts a n) := by
  refine h.trans ?_
  unfold State.wakePorts
  split
  · exact refl t
  · refine each (fun l s => ?_) _ (refl t)
    dsimp only
    split
    · exact (refl s).setPort _ _
    · exact refl s

theorem unpoison (line : Nat) (h : s.SafeAs t) : s.SafeAs (t.unpoison line) :=
  each (fun _ s => (refl s).setPort _ _) _ h

theorem badRead (agent access a n : Nat) (h : s.SafeAs t) : s.SafeAs (t.badRead agent access a n) := by
  refine h.trans ?_
  unfold State.badRead
  split
  · split
    · exact refl t
    · exact (((refl t).setBit _ _).memErr _ _ _).report _ _ _ _
  · exact refl t

theorem outboundErr (h : s.SafeAs t) : s.SafeAs t.outboundErr := by
  refine h.trans ?_
  unfold State.outboundErr
  split
  · exact ((refl t).bump _ _).setBit _ _
  · exact refl t

theorem eccWrite (agent a n : Nat) (h : s.SafeAs t) : s.SafeAs (t.eccWrite agent a n) :=
  (h.memsys _).eccRead _ _ _

theorem writeMem (agent a : Nat) (bs : List Nat) (h : s.SafeAs t) : s.SafeAs (t.writeMem agent a bs).2 := by
  refine h.trans ?_
  unfold State.writeMem
  split
  · split
    · exact refl t
    · exact each (fun l s => (refl s).unpoison l) _ (((refl t).wakePorts _ _).eccWrite _ _ _)
  · exact (refl t).report _ _ _ _
  · dsimp only
    split
    · exact refl t
    · exact (refl t).outboundErr

theorem readMem (agent a n : Nat) (h : s.SafeAs t) : s.SafeAs (t.readMem agent a n).2.2 := by
  refine h.trans ?_
  unfold State.readMem State.readAs
  split
  · split
    · exact refl t
    · dsimp only
      split
      · exact ((refl t).wakePorts _ _).eccRead _ _ _
      · exact ((refl t).wakePorts _ _).eccRead _ _ _
  · exact (refl t).report _ _ _ _
  · split
    · exact (refl t).badRead _ _ _ _
    · exact (refl t).outboundErr

/-! ### Buffers (R479 to R491) -/

theorem metaRead (a : Nat) (h : s.SafeAs t) : s.SafeAs (t.metaRead a) := by
  unfold State.metaRead
  exact h.readMem _ _ _

theorem metaTouch (a : Nat) (h : s.SafeAs t) : s.SafeAs (t.metaTouch a) := by
  refine h.trans ?_
  unfold State.metaTouch
  split
  · exact refl t
  · split
    · exact refl t
    · extract_lets g v
      have hv : t.SafeAs v := (refl t).metaRead _
      split
      · exact hv
      · exact hv.metaRead _

theorem poolRefuse (op agent a code : Nat) (h : s.SafeAs t) : s.SafeAs (t.poolRefuse op agent a code) := by
  refine h.trans ?_
  unfold State.poolRefuse
  extract_lets u v
  have hu : t.SafeAs u := (((refl t).bump _ _).setBit _ _).sndCount _ _ _
  have hv : t.SafeAs v := by
    unfold v
    split
    · exact hu
    · exact (hu.wr40 _ _).wr _ _
  split
  · exact hv.report _ _ _ _
  · exact hv.report _ _ _ _

theorem setFree (p n : Nat) (h : s.SafeAs t) : s.SafeAs (t.setFree p n) := by
  refine h.trans ?_
  unfold State.setFree
  extract_lets x lvl u u2 u3 u4 u5
  have hu : t.SafeAs u := (refl t).setPool _ _
  have h2 : t.SafeAs u2 := hu.whenB _ fun s => (refl s).setBit _ _
  have h3 : t.SafeAs u3 := h2.whenB _ fun s => (refl s).setBit _ _
  have h4 : t.SafeAs u4 := h3.whenB _ fun s => ((refl s).setBit _ _).report _ _ _ _
  have h5 : t.SafeAs u5 := h4.whenB _ fun s => (refl s).setBit _ _
  exact h5.whenB _ fun s => (refl s).setBit _ _

theorem pushFree (p a : Nat) (h : s.SafeAs t) : s.SafeAs (t.pushFree p a) :=
  (((h.wrM _ _ _).wrM _ _ _).setPool _ _).setFree _ _

theorem realias (g : Nat) (h : s.SafeAs t) : s.SafeAs (t.realias g) := by
  refine h.trans ?_
  unfold State.realias
  split
  · exact (refl t).wrM _ _ _
  · exact refl t

theorem poolOp (op agent a owner : Nat) (h : s.SafeAs t) : s.SafeAs (t.poolOp op agent a owner).2 := by
  refine h.trans ?_
  unfold State.poolOp
  extract_lets u c
  have hu : t.SafeAs u := ((refl t).bump _ _).metaTouch _
  split
  · exact hu.poolRefuse _ _ _ _
  · split
    · exact hu
    · next p _ =>
      extract_lets g v
      have hv : t.SafeAs v := hu.realias _
      split
      · exact (hv.pushFree _ _).sndCount _ _ _
      · split
        · exact hv.wrM _ _ _
        · split
          · exact hv.wrM _ _ _
          · exact hv.wrM _ _ _

theorem giveBack (agent a : Nat) (h : s.SafeAs t) : s.SafeAs (t.giveBack agent a) := by
  refine h.trans ?_
  unfold State.giveBack
  split
  · exact refl t
  · dsimp only
    split
    · exact refl t
    · split
      · exact (refl t).poolOp _ _ _ _
      · exact (refl t).poolOp _ _ _ _

theorem freeBufs (owner : Nat) (l : List Nat) (h : s.SafeAs t) : s.SafeAs (t.freeBufs owner l) :=
  each (fun _ s => (refl s).giveBack _ _) _ h

/-! ### Queues and contexts (R380, R397, R409) -/

theorem cpend (q : Nat) (h : s.SafeAs t) : s.SafeAs (t.cpend q) := by
  refine h.trans ?_
  unfold State.cpend
  split
  · exact (refl t).setBit _ _
  · exact refl t

theorem countMiss (st : Nat) (h : s.SafeAs t) : s.SafeAs (t.countMiss st) := by
  refine h.trans ?_
  unfold State.countMiss
  split
  · exact ((refl t).bump _ _).setBit _ _
  · exact refl t

theorem lastStatus (j : Job) (st : Nat) (h : s.SafeAs t) : s.SafeAs (t.lastStatus j st) := by
  refine h.trans ?_
  unfold State.lastStatus
  split
  · exact (refl t).setSf _ _ _ _
  · exact refl t

theorem writeRecord (j : Job) (st unit b8 : Nat) (h : s.SafeAs t) : s.SafeAs (t.writeRecord j st unit b8) := by
  refine h.trans ?_
  unfold State.writeRecord
  split
  · exact refl t
  · exact (refl t).writeMem _ _ _

theorem retire (q n : Nat) (h : s.SafeAs t) : s.SafeAs (t.retire q n) := by
  induction n generalizing t with
  | zero => exact h
  | succ n ih =>
    rw [State.retire]
    split
    · exact ih ((h.setQueueF _ _).setQf _ _ _ _)
    · exact h

theorem passDone (q n : Nat) (h : s.SafeAs t) : s.SafeAs (t.passDone q n) := by
  induction n generalizing t with
  | zero => exact h
  | succ n ih =>
    rw [State.passDone]
    split
    · exact ih ((h.setQueueF _ _).setQf _ _ _ _)
    · exact h

theorem indexDone (q i : Nat) (h : s.SafeAs t) : s.SafeAs (t.indexDone q i) := by
  refine h.trans ?_
  unfold State.indexDone
  extract_lets u v n
  have hv : t.SafeAs v := refl t
  exact (hv.passDone _ _).retire _ _

theorem queueStart (q : Nat) (h : s.SafeAs t) : s.SafeAs (t.queueStart q) :=
  ((((((((h.setQf _ _ _ _).setQf _ _ _ _).setQf _ _ _ _).setQf _ _ _ _).setQf _ _ _ _).setQf _ _ _ _).setQf _ _ _ _).setQf _ _ _ _).setQueueF _ _

theorem queueStopped (q : Nat) (h : s.SafeAs t) : s.SafeAs (t.queueStopped q) := by
  refine h.trans ?_
  unfold State.queueStopped
  extract_lets st u v
  split
  · have hv : t.SafeAs v := by
      unfold v
      split
      · exact (((refl t).setQf _ _ _ _).setBit _ _).setQf _ _ _ _
      · exact (((refl t).setQf _ _ _ _).setBit _ _).setQf _ _ _ _
    split
    · exact hv.queueStart _
    · exact hv
  · exact refl t

theorem clearRefs (c off n : Nat) (h : s.SafeAs t) : s.SafeAs (t.clearRefs c off n) :=
  each (fun _ s => (refl s).setSf _ _ _ _) _ h

theorem quayShow (u : Nat) (h : s.SafeAs t) : s.SafeAs (t.quayShow u) := h.trans (of_onlyRegs (State.quayShow_onlyRegs u t))

/-! ### Engines and jobs (R47, R397, R533) -/

theorem spadGate (g : Nat) (h : s.SafeAs t) : s.SafeAs (t.spadGate g) := by
  refine h.trans ?_
  unfold State.spadGate
  split
  · exact refl t
  · refine each (fun i s => ?_) _ (refl t)
    split
    · exact refl s
    · exact refl s

theorem setEng (u : Nat) (e : Eng) (h : s.SafeAs t) : s.SafeAs (t.setEng u e) :=
  h.trans (of_watch (t.setEng_frame u e).2.2)

theorem stopDone (u : Nat) (h : s.SafeAs t) : s.SafeAs (t.stopDone u) := by
  refine h.trans ?_
  unfold State.stopDone
  dsimp only
  split
  · exact (((refl t).setEng _ _).setBit _ _).setEng _ _
  · exact (((refl t).setEng _ _).setBit _ _).clrBit _ _

theorem releaseDone (u : Nat) (h : s.SafeAs t) : s.SafeAs (t.releaseDone u) := by
  refine h.trans ?_
  unfold State.releaseDone
  extract_lets v
  have hv : t.SafeAs v := (refl t).setUnitF _ _
  split
  · split
    · exact hv.setBit _ _
    · split
      · exact (hv.setEng _ _).setBit _ _
      · exact hv.setBit _ _
    · exact hv.setEng _ _
    · exact hv.setEng _ _
    · exact hv
  · exact refl t

theorem credit (cls work est status : Nat) (rerun : Bool) (h : s.SafeAs t) : s.SafeAs (t.credit cls work est status rerun) := by
  refine h.trans ?_
  unfold State.credit
  extract_lets d m v
  have hv : t.SafeAs v := refl t
  split
  · exact hv
  · exact hv

theorem finishJob (u st : Nat) (h : s.SafeAs t) : s.SafeAs (t.finishJob u st) := by
  refine h.trans ?_
  unfold State.finishJob
  split
  · exact refl t
  · next j _ =>
    extract_lets v q v2 v3 v4 v5 v6 v7 v8
    have hv : t.SafeAs v := ((refl t).lastStatus _ _).writeRecord _ _ _ _
    have h2 : t.SafeAs v2 := by
      unfold v2
      split
      · exact ((((hv.setQf _ _ _ _).indexDone _ _).cpend _).countMiss _).queueStopped _
      · exact hv
    have h3 : t.SafeAs v3 := by
      unfold v3
      split
      · exact h2
      · exact h2
    have h5 : t.SafeAs v5 := ((h3.credit _ _ _ _ _).inc _).sndCount _ _ _
    have h7 : t.SafeAs v7 := by
      refine (h5.setUnitF _ _).whenB _ fun w => each (fun m w => ?_) _ (refl w)
      dsimp only
      split
      · exact ((((refl w).inc _).sndCount _ _ _).setUnitF _ _).stopDone _
      · exact (((refl w).inc _).sndCount _ _ _).setUnitF _ _
    have h8 : t.SafeAs v8 := by
      unfold v8
      split
      · exact h7.setEng _ _
      · exact h7.stopDone _
      · exact h7.stopDone _
      · exact h7
    exact h8.releaseDone _

theorem stopCheck (c : Nat) (h : s.SafeAs t) : s.SafeAs (t.stopCheck c) := by
  refine h.trans ?_
  unfold State.stopCheck
  extract_lets x left held v v2 v3 v4 v5
  have hv : t.SafeAs v := ((refl t).freeBufs _ _).clearRefs _ _ _
  have h2 : t.SafeAs v2 := by
    unfold v2
    split
    · exact (hv.whenB x.cur.isSome (f := State.incSf c 172) fun w => (refl w).setSf c 172 4 (w.sf c 172 4 + 1)).setEnc _ _
    · exact ((refl t).clearRefs c 128 16).setDec _ _
  have h3 : t.SafeAs v3 := h2.setSf c 3 1 0
  have h5 : t.SafeAs v5 := h3.setBook _ _
  split
  · exact each (fun u w => (refl w).finishJob u 0) _ h5
  · exact refl t

end State.SafeAs

/-! ### Jobs that end in the safe state (R517, R602) -/

namespace State

variable {s : State}

/-- Nothing is dispatched. -/
theorem dispatch_safe (h : s.watch.safe = true) : s.dispatch = s :=
  if_pos (by rw [h]; rfl)

theorem endJob_safe (u st : Nat) (h : s.watch.safe = true) : (s.endJob u st).watch.safe = true := by
  unfold State.endJob
  split
  · exact h
  · next j _ =>
    have hended : (((s.finishJob u st).stopCheck j.ctx).queueStopped j.queue).watch.safe = true :=
      ((((SafeAs.refl s).finishJob u st).stopCheck j.ctx).queueStopped j.queue).safe h
    rw [dispatch_safe hended, hended]

theorem abandonJob_safe (u st : Nat) (h : s.watch.safe = true) : (s.abandonJob u st).watch.safe = true := by
  unfold State.abandonJob
  split
  · exact h
  · extract_lets v v2 v3
    have hv : s.SafeAs v := by
      unfold v
      split
      · exact ((SafeAs.refl s).setQuay _ _).quayShow _
      · exact SafeAs.refl s
    have h2 : s.SafeAs v2 := by
      unfold v2
      split
      · exact hv.giveBack _ _
      · exact hv
    have h3 : s.SafeAs v3 := (h2.freeBufs _ _).setUnitF _ _
    exact endJob_safe _ _ (h3.safe h)

theorem ltEnd_safe (u : Nat) (h : s.watch.safe = true) : (s.ltEnd u).watch.safe = true := by
  unfold State.ltEnd
  extract_lets x v
  split
  · exact h
  · exact endJob_safe _ _ h

theorem ltHalt_safe (u cause : Nat) (write : Bool) (addr : Nat) (h : s.watch.safe = true) :
    (s.ltHalt u cause write addr).watch.safe = true := by
  unfold State.ltHalt
  extract_lets x last v v2 v3
  have h2 : s.SafeAs v2 := SafeAs.whenB _ (fun w => (SafeAs.refl w).bump _ _) (show s.SafeAs v from SafeAs.refl s)
  have h3 : s.SafeAs v3 := by
    unfold v3
    split
    · exact h2
    · exact (h2.wr40 _ _).wr _ _
  exact ltEnd_safe u (h3.safe h)

theorem each_safe {α : Type} {f : α → State → State} (l : List α)
    (hf : ∀ a, ∀ v : State, v.watch.safe = true → (f a v).watch.safe = true) (h : s.watch.safe = true) : (s.each l f).watch.safe = true := by
  induction l generalizing s with
  | nil => exact h
  | cons a l ih => exact ih (hf a s h)

theorem ltIdle_safeAs (s : State) : s.SafeAs s.ltIdle := by
  refine SafeAs.each (fun u v => ?_) _ (SafeAs.refl s)
  split
  · exact (SafeAs.refl v).clrBit _ _
  · exact SafeAs.refl v

theorem ltAbort_safe (u : Nat) (h : s.watch.safe = true) : (s.ltAbort u).watch.safe = true := by
  unfold State.ltAbort
  split
  · have hhalt : (s.ltHaltAt u 5).watch.safe = true := by
      unfold State.ltHaltAt
      exact ltHalt_safe _ _ _ _ h
    exact (ltIdle_safeAs _).safe hhalt
  · exact (ltIdle_safeAs s).safe h

theorem markJobs_safeAs (p : Job → Bool) (st : Nat) (s : State) : s.SafeAs (s.markJobs p st) := by
  refine SafeAs.each (fun x v => ?_) _ (SafeAs.refl s)
  split
  · split
    · exact (SafeAs.refl v).setUnitF _ _
    · exact SafeAs.refl v
  · exact SafeAs.refl v

/-! ### SAFE_STATE_ENTRY (R602) -/

/-- Every output of a list is made to show the slate. -/
theorem slate_each (l : List Nat) (s : State) {n : Nat} (hn : n ∈ l ∨ (s.disp n).slate = true) :
    ((s.each l fun n v => v.setDisp n { v.disp n with slate := true }).disp n).slate = true := by
  induction l generalizing s with
  | nil => exact hn.resolve_left (List.not_mem_nil)
  | cons m l ih =>
    refine ih _ ?_
    by_cases hm : n = m
    · subst hm
      exact .inr (by rw [disp_setDisp_same])
    · rw [disp_setDisp_other _ s hm]
      exact hn.imp_left fun h => (List.mem_cons.1 h).resolve_left hm

/-- The safe state is entered, and every display output shows the slate. -/
theorem enterSafe_enters (hask : s.watch.safeAsked = true) (hsafe : s.watch.safe = false) :
    s.enterSafe.watch.safe = true ∧ ∀ n, n < 8 → (s.enterSafe.disp n).slate = true := by
  unfold State.enterSafe
  rw [if_neg (by simp [hask, hsafe])]
  extract_lets w v v2 v3 v4 v5
  have hv : v.watch.safe = true := rfl
  clear_value v
  have h2 : v2.watch.safe = true := (markJobs_safeAs _ _ v).safe hv
  clear_value v2
  have h3 : v3.watch.safe = true := each_safe _ (fun t w hw => abandonJob_safe _ _ hw) h2
  clear_value v3
  have h4 : v4.watch.safe = true := each_safe _ (fun u w hw => ltAbort_safe u hw) h3
  clear_value v4
  have h5 : v5.watch.safe = true := SafeAs.each (fun p w => ((SafeAs.refl w).spadGate _).setUnitF _ _) _ (SafeAs.refl v4) |>.safe h4
  clear_value v5
  refine ⟨SafeAs.each (fun n w => (SafeAs.refl w).setDisp _ _) _ (SafeAs.refl v5) |>.safe h5, fun n hn => ?_⟩
  exact slate_each _ v5 (.inl (List.mem_range.2 hn))

end State

end Sys2Proof.Machine

/-! PROOFS. Fences, takeovers, clears and the safe state (17_faults_and_availability.md: R583 to R604). -/

namespace Sys2Proof.Machine

namespace State

/-! ### Fences (R583, R588, R593) -/

theorem fence_fences {s : State} {code access addr u : Nat} (hcode : fenceCode u code = true) (heng : s.eng u ≠ .fenced) :
    s.fence code access addr u = (s.report code u access addr).fenceUnit code u := by
  have hw : (s.eng u == Eng.fenced) = false := by simpa using heng
  unfold State.fence
  rw [hcode, if_neg (by decide)]
  dsimp only
  rw [hw, if_neg Bool.false_ne_true]

theorem fence_logs {s : State} {code access addr u : Nat} (hcode : fenceCode u code = true) (heng : s.eng u = .fenced)
    (hself : s.watch.selfLost = false) :
    s.fence code access addr u = { s with watch := s.watch.logReport code u access s.reportTide s.nsInTide } := by
  unfold State.fence
  rw [hcode, if_neg (by decide), heng]
  dsimp only
  rw [if_pos (by decide), hself, if_neg Bool.false_ne_true]

/-! ### Takeovers (R590) -/

theorem unit_congr {s t : State} (h : t.units = s.units) (u : Nat) : t.unit u = s.unit u := by
  rw [State.unit, State.unit, h]

theorem ucwWrite_units (p : Nat) (ws : List Nat) (s : State) : (s.ucwWrite p ws).units = s.units := rfl

theorem ucwWrite_watch (p : Nat) (ws : List Nat) (s : State) : (s.ucwWrite p ws).watch = s.watch := rfl

/-- What names a berth moves to the spare without touching a unit or the Watch. -/
theorem moveBerth_frame (f u : Nat) (s : State) : (s.moveBerth f u).units = s.units ∧ (s.moveBerth f u).watch = s.watch := by
  unfold State.moveBerth
  extract_lets v v2
  have hv : v.units = s.units ∧ v.watch = s.watch := ⟨rfl, rfl⟩
  clear_value v
  have h2 : v2.units = s.units ∧ v2.watch = s.watch := by
    unfold v2 State.whenB
    split
    · rw [ucwWrite_units, ucwWrite_watch, State.wr_units, State.wr_watch, State.wr40_units, State.wr40_watch]
      exact hv
    · exact hv
  clear_value v2
  split
  · refine ⟨(State.each_keeps (·.units) _ v2 fun i _ w => ?_).trans h2.1, (State.each_keeps (·.watch) _ v2 fun i _ w => ?_).trans h2.2⟩
    · dsimp only
      split
      · exact State.wrFld_units _ _ _ _ w
      · rfl
    · dsimp only
      split
      · exact State.wrFld_watch _ _ _ _ w
      · rfl
  · exact h2

/-- A spare takes over the berth of a fenced unit that was running nothing and was in no group. -/
theorem takeover_moves {s : State} {f u : Nat} (htake : s.watch.takeovers = [(f, u)]) (hkind : unitKind f ≠ some .egress) (hne : f ≠ u)
    (hjob : (s.unit f).job = none) (hpar : (s.unit f).parent = none) :
    ∃ v : State, s.takeover u = (v.afterSpares s).dispatch ∧ v.eng u = .idle ∧ (v.unit u).ctxs = (s.unit f).ctxs
      ∧ (v.unit u).berth = (s.unit f).berth ∧ (v.unit f).ctxs = [] ∧ (v.unit f).berth = .free ∧ v.watch.takeovers = [] := by
  have hfind : s.watch.takeovers.find? (fun t => t.2 = u && unitKind t.1 != some .egress) = some (f, u) := by
    rw [htake]
    simp [hkind]
  unfold State.takeover
  rw [hfind]
  extract_lets old src
  dsimp -zeta only
  extract_lets f' x v1 v2 v3 v4 v5 v6 g v7
  have h7 : v7 = v6 := by
    unfold v7
    rw [show x.parent = none from hpar]
    dsimp only
    rw [show x.job = none from hjob]
  have h6 : v6.units = v3.units ∧ v6.watch = v3.watch := by
    have honly : v5.OnlyRegs v6 := State.quayShow_onlyRegs u v5
    obtain ⟨hunits, hwatch⟩ := moveBerth_frame f' u v4
    constructor
    · rw [show v6.units = v5.units by rw [honly]]
      exact hunits
    · rw [show v6.watch = v5.watch by rw [honly]]
      exact hwatch
  clear_value v6
  have hspare : v3.unit u = v2.unit u := (State.unit_setUnit f u _ v2).trans (if_neg hne.symm)
  have hfenced := State.unit_setUnit_same f { v2.unit f with
    berth := .free, ctxs := [], joining := [], parent := none, job := none, standsFor := none } v2
  have htaken := State.unit_setUnit_same u { v1.unit u with
    eng := .idle, berth := x.berth, ctxs := x.ctxs, joining := x.joining, parent := x.parent, pow := .on, job := none
    vtime := x.vtime, vfin := x.vfin, standsFor := some (x.standsFor.getD f) } v1
  have hu : v6.unit u = v2.unit u := (unit_congr h6.1 u).trans hspare
  have hf : v6.unit f = v3.unit f := unit_congr h6.1 f
  refine ⟨v6, by rw [h7], ?_, ?_, ?_, ?_, ?_, ?_⟩
  · exact congrArg UnitSt.eng (hu.trans htaken)
  · have htakes := congrArg UnitSt.ctxs (hu.trans htaken)
    exact htakes
  · have htakes := congrArg UnitSt.berth (hu.trans htaken)
    exact htakes
  · exact congrArg UnitSt.ctxs (hf.trans hfenced)
  · exact congrArg UnitSt.berth (hf.trans hfenced)
  · rw [h6.2]
    show s.watch.takeovers.filter (fun y => y != (f, u)) = []
    rw [htake]
    simp

/-! ### Fence clears (R594) -/

theorem setOwner_regs (g o : Nat) (s : State) : (s.setOwner g o).regs = s.regs := by
  unfold State.setOwner
  exact State.wrM_regs _ _ _ s

theorem setOwner_units (g o : Nat) (s : State) : (s.setOwner g o).units = s.units := by
  unfold State.setOwner
  exact State.wrM_units _ _ _ s

/-- What an operation keeps, its application to some of a list keeps. -/
theorem each_ite_keeps {α β : Type} (g : State → β) (c : α → State → Bool) (f : α → State → State) (l : List α) (s : State)
    (hf : ∀ (a : α) (s : State), g (f a s) = g s) : g (s.each l fun a s => if c a s then f a s else s) = g s := by
  refine State.each_keeps g l s fun a _ v => ?_
  split
  · exact hf a v
  · rfl

/-- Owner records lie in memory. -/
theorem rewriteOwners_frame (u v : Nat) (s : State) : (s.rewriteOwners u v).regs = s.regs ∧ (s.rewriteOwners u v).units = s.units := by
  unfold State.rewriteOwners
  dsimp only
  exact ⟨State.each_keeps (·.regs) _ s fun p _ w => each_ite_keeps (·.regs) _ _ _ w fun i x => setOwner_regs _ _ x,
    State.each_keeps (·.units) _ s fun p _ w => each_ite_keeps (·.units) _ _ _ w fun i x => setOwner_units _ _ x⟩

/-- A self-test of a unit starts: the table of aliases lists it no more, and the buffers it owned go to the unit that stands for it. -/
def startSelfTest (u : Nat) (s : State) : State :=
  let t := match s.watch.aliases.find? (fun p => p.1 = u) with
    | some p => s.rewriteOwners u p.2
    | none => s
  { t with watch := { t.watch with
      aliases := t.watch.aliases.filter (fun p => p.1 != u), clearing := some u, clearUnit := u, clearResult := 0 } }

theorem startSelfTest_frame (u : Nat) (s : State) : (s.startSelfTest u).watch.clearing = some u ∧ (s.startSelfTest u).watch.clearResult = 0
    ∧ (s.startSelfTest u).regs = s.regs ∧ (s.startSelfTest u).units = s.units := by
  unfold State.startSelfTest
  extract_lets t
  have ht : t.regs = s.regs ∧ t.units = s.units := by
    unfold t
    split
    · exact s.rewriteOwners_frame u _
    · exact ⟨rfl, rfl⟩
  exact ⟨rfl, rfl, ht⟩

section Clear

variable {s : State} {agent v : Nat} (harm : s.armBlocks agent Reg.WATCH_FENCE_CLEAR = false) (hfree : s.watch.clearing = none)
include harm hfree

/-- What a fence clear that is not blocked does. -/
theorem fenceClear_eq : s.fenceClear agent v = if (s.unit (v % 4096)).eng ≠ .fenced then
      { s with watch := { s.watch with clearResult := 1, clearUnit := v % 4096 } }
    else if 3 ≤ SMap.get (fun _ => 0) s.watch.fencedTimes (v % 4096) then
      { s with watch := { s.watch with clearResult := 2, clearUnit := v % 4096 } }
    else if s.watch.safe then { s with watch := { s.watch with clearResult := 3, clearUnit := v % 4096 } }
    else s.startSelfTest (v % 4096) := by
  unfold State.fenceClear
  dsimp only
  rw [if_neg (by rw [harm, hfree]; decide)]
  rfl

end Clear

/-- A unit that passes its self-test becomes STOPPED (R594). -/
theorem selfTestDone_passes {s : State} {u : Nat} (hclear : s.watch.clearing = some u) (hkind : unitKind u ≠ some .egress) :
    (s.selfTestDone true).eng u = .stopped ∧ (s.selfTestDone true).watch.clearing = none ∧ (s.selfTestDone true).watch.clearResult = 0
      ∧ (s.selfTestDone true).bit (ucb u Reg.UCB_CTRL) 0 = false ∧ (s.selfTestDone true).mem = s.mem := by
  have hk : (unitKind u == some Kind.egress) = false := by simpa using hkind
  unfold State.selfTestDone
  rw [hclear]
  dsimp only
  rw [if_pos rfl, hk, if_neg Bool.false_ne_true]
  obtain ⟨w, hw⟩ : ∃ w : State, w = { s with watch := { (s.watch.leave (fun e => e.agent = u && (e.code / 4096 = 4 || e.code = 0x5710)))
    with clearing := none, clearResult := 0 } } := ⟨_, rfl⟩
  have hclearing : w.watch.clearing = none ∧ w.watch.clearResult = 0 ∧ w.mem = s.mem := by
    rw [hw]
    exact ⟨rfl, rfl, rfl⟩
  obtain ⟨hnone, hzero, hmem⟩ := hclearing
  obtain ⟨-, fm, fw⟩ := w.setEng_frame u .stopped
  rw [← hw]
  refine ⟨?_, ?_, ?_, ?_, ?_⟩
  · exact (w.setEng_unit u .stopped).1
  · rw [State.clrBit_watch, State.clrBit_watch, fw, hnone]
  · rw [State.clrBit_watch, State.clrBit_watch, fw, hzero]
  · rw [State.bit_clrBit 0 _ (by decide), State.bit_clrBit_same _ (by decide)]
    rfl
  · rw [State.clrBit_mem, State.clrBit_mem, fm, hmem]

/-! ### Lockstep (R596) -/

/-- The first mismatch of a pair is kept and reported. -/
theorem lockstep_first {s : State} {p : Nat} (hpair : s.watch.pairsFenced.contains p = false) (hp : p ≤ 1) (hnone : s.watch.lockstep = []) :
    (s.lockstep p).watch.lockstep = [(p, countNs s.tide.count)] ∧ (s.lockstep p).watch.pairsFenced = s.watch.pairsFenced
      ∧ (s.lockstep p).mem = s.mem := by
  unfold State.lockstep
  rw [if_neg (by simp only [hpair, Bool.false_eq_true, false_or]; omega)]
  extract_lets agent t l w v v2 v3 v4
  have hl : l = [(p, countNs s.tide.count)] := by
    unfold l
    rw [hnone]
    rfl
  have hv : v.watch.lockstep = l ∧ v.watch.pairsFenced = s.watch.pairsFenced ∧ v.mem = s.mem := by
    obtain ⟨l', n, x, a, f, k, c, hw⟩ := ({ s with watch := { s.watch with lockstep := l } } : State).watch_report_eq 0x3E02 agent 0 0
    have hrep := (Reported.refl ({ s with watch := { s.watch with lockstep := l } } : State)).report 0x3E02 agent 0 0
    have hv : v = ({ s with watch := { s.watch with lockstep := l } } : State).report 0x3E02 agent 0 0 := rfl
    rw [hv, hw, hrep.mem_eq]
    exact ⟨rfl, rfl, rfl⟩
  have h2 : v2.watch = v.watch ∧ v2.mem = v.mem := by
    unfold v2
    split
    · exact ⟨rfl, rfl⟩
    · exact ⟨rfl, rfl⟩
  have hfew : (l.filter (fun e => e.1 = p)).length < 3 := by
    rw [hl]
    simp
  rw [if_pos hfew, h2.1, h2.2, ← hl]
  exact hv

end State

/-- Settles O55. -/
theorem watchFencesAndClears : Obligations.WatchFencesAndClears := by
  refine ⟨fun s u c a x hcode heng => congrArg Host.Outcome.next (State.fence_fences hcode heng),
    fun s u c a x hcode heng hself => congrArg Host.Outcome.next (State.fence_logs hcode heng hself),
    fun s u f htake hkind hne hjob hpar => ?_,
    fun s u hcfg heng => congrArg Host.Outcome.next (if_pos ⟨hcfg, .inl heng⟩),
    fun s agent v harm hcode => congrArg Host.Outcome.next ?_,
    fun s agent v harm hfree => ⟨fun heng => congrArg Host.Outcome.next ?_, fun heng hfew hsafe => ?_,
      fun heng hmany => congrArg Host.Outcome.next ?_, fun heng hfew hsafe => congrArg Host.Outcome.next ?_⟩,
    fun s u hclear => ⟨congrArg Host.Outcome.next ?_, fun hkind => ⟨_, rfl, State.selfTestDone_passes hclear hkind⟩⟩,
    fun s agent v harm hv => congrArg Host.Outcome.next ?_,
    fun s hask hsafe => ⟨_, rfl, State.enterSafe_enters hask hsafe⟩,
    fun s p hpair hp _ hnone => ⟨_, rfl, State.lockstep_first hpair hp hnone⟩,
    fun s => ⟨rfl, rfl, rfl, rfl⟩⟩
  · obtain ⟨v, hv, hmoved⟩ := State.takeover_moves htake hkind hne hjob hpar
    exact ⟨v, congrArg Host.Outcome.next hv, hmoved⟩
  · unfold State.watchAck
    rw [harm, if_neg Bool.false_ne_true, if_pos hcode]
  · rw [State.fenceClear_eq harm hfree, if_pos heng]
  · refine ⟨_, congrArg Host.Outcome.next ?_, s.startSelfTest_frame (v % 4096)⟩
    rw [State.fenceClear_eq harm hfree, if_neg (not_not.2 heng), if_neg (not_le.2 hfew), hsafe, if_neg Bool.false_ne_true]
  · rw [State.fenceClear_eq harm hfree, if_neg (not_not.2 heng), if_pos hmany]
  · rw [State.fenceClear_eq harm hfree, if_neg (not_not.2 heng), if_neg (not_le.2 hfew), if_pos hsafe]
  · unfold State.selfTestDone
    rw [hclear]
    rfl
  · unfold State.safeForce
    dsimp only
    rw [harm, if_neg Bool.false_ne_true, if_pos hv]

end Sys2Proof.Machine

/-! PROOFS. What O18 and O19 rest on (02_startup_trust_config.md: R79; 11_power_and_effort.md: R419). Of both, every clause but one holds of
the model. The one left says that memory reads 0 at every address, and above the module's own memory an unlisted byte is the opaque
`Config.hostByte`: each obligation holds exactly when the host's memory is all zeros, which the model leaves open. -/

namespace Sys2Proof.Machine

/-- The host's memory holds 0 behind every address of the outbound window. -/
def HostBytesZero : Prop := ∀ a, 0x8000000000 ≤ a → Config.hostByte a % 256 = 0

theorem Memory.read_nil (a : Nat) : Memory.read [] a = if a < 0x8000000000 then 0 else Config.hostByte a % 256 := by
  change (byte0 a).toNat = _
  unfold byte0
  split
  · rfl
  · rw [BitVec.toNat_ofNat]

/-- Memory in which nothing is stored reads 0 throughout exactly when the host's does. -/
theorem read_nil_iff_hostBytesZero : (∀ a, Memory.read [] a = 0) ↔ HostBytesZero := by
  refine ⟨fun h a ha => ?_, fun h a => ?_⟩
  · have hread := h a
    rwa [Memory.read_nil, if_neg (not_lt.2 ha)] at hread
  · rw [Memory.read_nil]
    split
    · rfl
    · next ha => exact h a (not_lt.1 ha)

/-! ### What a restart keeps and clears (R79) -/

/-- Device time counted on from what it reads reads the same. -/
theorem readTime_rebased (t : TideSt) : ({ TideSt.reset with
    count := t.count, base := t.count, offNs := t.readTime.1, offSub := t.readTime.2 } : TideSt).readTime.1 = t.readTime.1 := by
  have hzero : (t.count + 2 ^ 64 - t.count) % 2 ^ 64 = 0 := by rw [Nat.add_sub_cancel_left, Nat.mod_self]
  simp only [TideSt.readTime]
  rw [hzero, Nat.zero_mul, Nat.add_zero, Nat.div_eq_of_lt (Nat.mod_lt _ (by decide)), Nat.add_zero, Nat.mod_mod]

/-- The state that a restart leaves before the sequence runs. -/
structure State.Restarted (keep : Bool) (s t : State) : Prop where
  failedA : t.boot.failedA = s.boot.failedA
  failedB : t.boot.failedB = s.boot.failedB
  boots : t.boot.boots = s.boot.boots
  etvors : t.boot.etvors = s.boot.etvors
  broken : t.boot.broken = s.boot.broken
  meas : t.boot.meas = if keep then s.boot.meas else []
  measLog : t.boot.log = if keep then s.boot.log else []
  watchLog : t.watch.log = s.watch.log
  safe : t.watch.safe = false
  ident : t.ident = s.ident
  now : t.now = s.now
  mem : t.mem = []
  units : t.units = []
  books : t.books = []
  queues : t.queues = []

theorem State.cleared_restarted (meas : Bool) (s : State) : s.Restarted meas (s.cleared meas) := by
  unfold State.cleared
  extract_lets b w t r0 b0 t0 p0 q0 h0 w0 s0
  have h : s0.OnlyRegs ((s0.showInput false).showInput true).ownMacs :=
    ((s0.showInput_onlyRegs false).trans ((s0.showInput false).showInput_onlyRegs true)).trans (State.ownMacs_onlyRegs _)
  generalize ((s0.showInput false).showInput true).ownMacs = u at h
  rw [h]
  exact ⟨rfl, rfl, rfl, rfl, rfl, rfl, rfl, rfl, rfl, rfl, readTime_rebased s.tide, rfl, rfl, rfl, rfl⟩

/-- A flash write abandoned leaves the boot attempt record, the seal, the Watch and the identity (R110). -/
theorem State.abandonFlash_frame (s : State) : s.abandonFlash.boot.failedA = s.boot.failedA ∧ s.abandonFlash.boot.failedB = s.boot.failedB
    ∧ s.abandonFlash.boot.broken = s.boot.broken ∧ s.abandonFlash.watch = s.watch ∧ s.abandonFlash.ident = s.ident := by
  unfold State.abandonFlash flashWriteTimeout
  split
  · unfold State.eraseSlot
    split
    · exact ⟨rfl, rfl, rfl, rfl, rfl⟩
    · exact ⟨rfl, rfl, rfl, rfl, rfl⟩
  · exact ⟨rfl, rfl, rfl, rfl, rfl⟩

/-! ### The two obligations -/

/-- A powered module. -/
def poweredState : State := { State.reset with boot := { BootSt.reset with phase := .service } }

/-- A start-up whose tests all pass. -/
def soundStart : StartUp :=
  { selfTest := true, loopOpen := false, carrierOk := true, pairsFail := [], readback := [], portsFail := [], vals := [], stallA := 0
    stallB := 0, links := [], outsFail := [] }

/-- O18 stays open: it holds exactly when host memory is all zeros. -/
theorem modResetRestartsAtStepOne_iff : Obligations.ModResetRestartsAtStepOne ↔ HostBytesZero := by
  rw [← read_nil_iff_hostBytesZero]
  refine ⟨fun h a => ?_, fun h s st hph => ?_⟩
  · obtain ⟨u, -, hu, -, -, -, -, -, -, -, -, -, -, -, hread, -⟩ := h poweredState soundStart (by decide)
    have hzero := hread a
    rwa [hu, (poweredState.cleared_restarted false).mem] at hzero
  · have hc := s.cleared_restarted false
    refine ⟨s.cleared false, congrArg Host.Outcome.next (if_pos (by simpa [State.hasPower] using hph)), rfl, hc.failedA, hc.failedB, hc.boots,
      hc.etvors, hc.broken, hc.meas, hc.measLog, hc.watchLog, hc.safe, hc.ident, hc.now, fun a => ?_, hc.units, hc.books, hc.queues⟩
    rw [hc.mem, h a]

/-- O19 stays open: it holds exactly when host memory is all zeros. -/
theorem powerLossClearsAndResets_iff : Obligations.PowerLossClearsAndResets ↔ HostBytesZero := by
  rw [← read_nil_iff_hostBytesZero]
  refine ⟨fun h a => ?_, fun h => ⟨fun s => ?_, fun s hp hph => ?_⟩⟩
  · obtain ⟨t, hexec, -, -, -, -, -, -, -, -, -, -, hread⟩ := h.1 State.reset
    have ht : State.reset.powerRemoved = t := Host.Outcome.next.inj hexec
    have hzero := hread a
    rwa [← ht] at hzero
  · obtain ⟨-, -, hbroken, -, hident⟩ := s.abandonFlash_frame
    exact ⟨s.powerRemoved, rfl, rfl, rfl, rfl, rfl, rfl, rfl, rfl, hident, hbroken, fun o => rfl, h⟩
  · obtain ⟨hA, hB, -, hwatch, hident⟩ := s.abandonFlash_frame
    have hc := s.abandonFlash.cleared_restarted true
    have hexec : s.holdupExhausted = { s.abandonFlash.cleared true with
        boot := { (s.abandonFlash.cleared true).boot with phase := .unpowered }
        power := { (s.abandonFlash.cleared true).power with riding := false } } := by
      unfold State.holdupExhausted
      rw [if_neg (by simp [hp, State.hasPower, hph])]
    refine ⟨_, congrArg Host.Outcome.next hexec, rfl, rfl, hc.failedA.trans hA, hc.failedB.trans hB,
      hc.watchLog.trans (congrArg WatchSt.log hwatch), hc.ident.trans hident, fun a => ?_⟩
    change Memory.read (s.abandonFlash.cleared true).mem a = 0
    rw [hc.mem, h a]

end Sys2Proof.Machine
